-- ==== Sys2Proof/Word.lean ====
section
/-! DEFINITION. Word types of the Fleong 9: bytes, register values, lines, register numbers (R18, R243, R252, R304). -/

namespace Sys2Proof

/-- One byte. -/
abbrev Byte := BitVec 8
/-- The value of a scalar register (R252). -/
abbrev Word := BitVec 64
/-- A 64-byte line or a vector register (R88, R304): byte `i` is bits `8i+7` to `8i`. -/
abbrev Line := BitVec 512
/-- One bit for each byte of a line (R82). -/
abbrev Mask := BitVec 64
/-- A 5-bit register field (R243). -/
abbrev Reg := BitVec 5
/-- A sparse table in ascending key order; an absent key reads as the table's default entry. -/
abbrev SMap (α : Type) := List (Nat × α)

end Sys2Proof
end

