-- ==== Sys2Proof/Types.lean ====
section
/-! DEFINITION. Plain data shared by instructions, events and the state: codes, messages, packets, requests in flight. -/

namespace Sys2Proof

/-- The width code W of R253. -/
inductive Width | i64 | i32 | n32 | n64
  deriving DecidableEq, Repr

/-- The two width codes a vector lane admits (R307). -/
inductive VWidth | i32 | n32
  deriving DecidableEq, Repr

/-- Rounding modes (R33). -/
inductive Rm | rne | rtz | rup | rdn | rto
  deriving DecidableEq, Repr

/-- The assigned format codes of R21 except 0x00. -/
inductive Fmt
  | i8 | i16 | i32 | i64 | n8 | n16 | n32 | n64 | e4m3 | e5m2 | f16 | bf16 | f32 | t2 | sbi8 | sbe4m3 | sbt2
  deriving DecidableEq, Repr

/-- The six scopes (R97). -/
inductive Scope | ctx | core | clu | die | dev | sys
  deriving DecidableEq, Repr

/-- Order codes of a fence and of an atomic (R102): `sc` is plain on an atomic. -/
inductive Order | sc | acq | rel | acqrel
  deriving DecidableEq, Repr

/-- Levels named by PREF (R284). -/
inductive PrefLevel | l1 | l2 | th
  deriving DecidableEq, Repr

/-- Atomic operations (R278). -/
inductive AmoOp | add | and | or | xor | min | max | swap | cas
  deriving DecidableEq, Repr

/-- Collective operations (R298). -/
inductive CollOp | add | min | max | and | or | xor
  deriving DecidableEq, Repr

/-- Three-address vector operations (R321). -/
inductive VspOp | add | sub | mul | fma | min | max | and | or | xor
  deriving DecidableEq, Repr

/-- Lane formats of group 0x30 (R320). -/
inductive LFmt | f32 | i32 | n32
  deriving DecidableEq, Repr

/-- Page types (R96). -/
inductive PType | seq | rel | wso | prv
  deriving DecidableEq, Repr

/-- KIND of a message header (R152). -/
inductive MsgKind | task | graph | notify | system
  deriving DecidableEq, Repr

/-- A message in flight (R151, R152). `srcXR` and `srcCore` are the source class and number of the delivered header;
`dst` is an agent number (R3) of device `dstDev`; `kid`, `world`, `resend`, `acq` are the sideband; `task` and `pc` name
the sending context for records. -/
structure Msg where
  dstDev  : BitVec 6
  dst     : Nat
  ch      : BitVec 6
  srcDev  : BitVec 6
  srcXR   : Bool
  srcCore : BitVec 11
  len     : BitVec 4
  kind    : MsgKind
  tagv    : Bool
  tag     : BitVec 16
  payload : BitVec 960
  kid     : BitVec 16
  world   : Bool
  resend  : Bool
  acq     : Option Scope
  task    : BitVec 32
  pc      : Word
  deriving DecidableEq, Repr

/-- What comes back to the sender of a message (R154, R155). -/
inductive MsgReply | accepted | discarded | refused | refusedFull
  deriving DecidableEq, Repr

/-- The fields of a fault packet (R210); `pa` goes only into the monitor's copy of a 0x0C packet. -/
structure Packet where
  code   : BitVec 8
  agent  : BitVec 8
  sub    : BitVec 8
  noctx  : Bool
  ctx    : BitVec 3
  task   : BitVec 32
  kid    : BitVec 16
  stage  : BitVec 4
  core   : BitVec 12
  info   : BitVec 16
  inst   : BitVec 16
  pc     : Word
  va     : Word
  ia     : Word
  time   : Word
  insn   : BitVec 128
  deriving DecidableEq, Repr

/-- A value on its way to a register marked empty (R161, R273). -/
structure Landing where
  agent : Nat
  ctx   : Nat
  task  : BitVec 32
  vec   : Bool
  reg   : Reg
  value : Line
  flags : Word
  deriving DecidableEq, Repr

/-- A register write on its way (R372): issuer, register number, INDEX, SUB and value. -/
structure SysReq where
  agent : Nat
  ctx   : Nat
  task  : BitVec 32
  num   : BitVec 12
  index : Nat
  sub   : Nat
  value : Word
  deriving DecidableEq, Repr

/-- Where a write-back goes (R124 to R126). -/
inductive WbHome | l1 (cluster : Nat) | l2 (die : Nat) | thatch
  deriving DecidableEq, Repr

/-- A write-back with its byte mask (R126). -/
structure WriteBack where
  home  : WbHome
  die   : Nat
  line  : Nat
  pa    : Nat
  ty    : PType
  data  : Line
  mask  : Mask
  deriving DecidableEq, Repr

/-- What another device does at this one (R128, R279). -/
inductive DevOp
  | load
  | store (v : Nat)
  | atomic (op : AmoOp) (fmt : Fmt) (sat : Bool) (x y : Nat)
  deriving DecidableEq, Repr

/-- An access of a context of another device to this device's memory: the device, the world and the KID that travel with it (R191), the task,
the IA and the bytes. -/
structure DevAcc where
  dev   : BitVec 6
  world : Bool
  kid   : BitVec 16
  task  : BitVec 32
  ia    : Nat
  bytes : Nat
  op    : DevOp
  deriving DecidableEq, Repr

/-- A request to the SEQ directory (R122). -/
inductive DirReq | read | write | evict | atomic | device (r : DevAcc)
  deriving DecidableEq, Repr

/-- What ACCESS_ACCEPT accepts: the access of a context whose page has come, or one of another device (R207, R128). -/
inductive AcceptReq | ctx (agent ctx : Nat) | device (r : DevAcc)
  deriving DecidableEq, Repr

/-- A request for a page, of this or another device (R129, R131), with the world and the KID that travel with it (R191). -/
structure PageReq where
  dev   : Nat
  page  : Nat
  store : Bool
  world : Bool
  kid   : BitVec 16
  deriving DecidableEq, Repr

/-- Which copy a cache gives up (R124, R107). -/
inductive EvictWhat
  | wcb (agent line : Nat)
  | l1 (cluster line : Nat)
  | l2 (die line : Nat)
  | sarking (die line : Nat)
  | thatch (line : Nat)
  | page (page : Nat)
  deriving DecidableEq, Repr

/-- One subscription update or update group (R141, R69); `no` rises with the order in which updates are sent. -/
structure SubUpdate where
  no     : Nat
  pub    : Nat
  pubIdx : Nat
  sub    : Nat
  subIdx : Nat
  kid    : BitVec 16
  blocks : List (Nat × BitVec 64 × Line)
  resid  : Option (BitVec 32)
  cvg    : Option (Nat × Nat)
  full   : Bool
  repoint : Bool
  bad    : List Nat
  deriving DecidableEq, Repr

/-- The bind request of GLINK (R358). -/
structure BindReq where
  agent : Nat
  task  : BitVec 32
  fac   : Nat
  j     : Nat
  core  : Nat
  offs  : Nat
  slot  : Nat
  ch    : Nat
  dim   : Nat
  fid   : BitVec 32
  kid   : BitVec 16
  nen   : Bool
  nch   : BitVec 6
  taint : Bool
  d     : Reg
  bytes : Nat
  deriving DecidableEq, Repr

/-- The unbind request of GFREE (R365); `since` is the TIME at which it reached the variable's GMU, none until then. -/
structure UnbindReq where
  task  : BitVec 32
  core  : Nat
  offs  : Nat
  slot  : Nat
  fid   : BitVec 32
  since : Option Nat
  deriving DecidableEq, Repr

/-- A token or a release of the Batten sweep (R178). -/
inductive BarToken
  | west (die cx cy slot : Nat) (phase : BitVec 8)
  | north (die cx cy slot : Nat) (phase : BitVec 8)
  | release (die cx cy slot : Nat) (phase : BitVec 8)
  deriving DecidableEq, Repr

/-- One arrival at a collective unit (R184). -/
structure CollMsg where
  agent : Nat
  ctx   : Nat
  task  : BitVec 32
  kid   : BitVec 16
  dev   : BitVec 6
  id    : BitVec 16
  n     : Nat
  i     : Nat
  op    : CollOp
  vec   : Bool
  fmt   : Fmt
  value : Line
  limit : Nat
  sliceOrd : Bool
  deriving DecidableEq, Repr

/-- An engine of the device with its instance (R211). -/
inductive Engine
  | matrix (cluster : Nat)
  | nearBank (stack unit : Nat)
  | copy (cluster : Nat)
  | gather (die slice : Nat)
  | tileWalk (cluster : Nat)
  | coll (die slice : Nat)
  | gmu (agent : Nat)
  | launch (die : Nat)
  deriving DecidableEq, Repr

/-- A unit of a pre-emption that acknowledges (R219, R220): a task's context, an engine, or a near-bank command. -/
inductive StopUnit
  | ctx (task : BitVec 32)
  | eng (e : Engine)
  | nearBank (id : Nat)
  deriving DecidableEq, Repr

/-- A place in storage that an error marks (R228). -/
inductive Place
  | hbm (pa : Nat)
  | scratch (agent off : Nat)
  | dieScratch (die off : Nat)
  deriving DecidableEq, Repr

/-- A host command in service on a ridge core (R409); `no` rises with the order in which commands start (R410). -/
structure HostCmd where
  no    : Nat
  agent : Nat
  ch    : BitVec 6
  op    : BitVec 16
  rsv   : BitVec 16
  seq   : BitVec 32
  reply : Word
  len   : Nat
  args  : BitVec 832
  deriving DecidableEq, Repr

/-- The draw and demand the power arbiter reads for one kernel-table entry, in 1/16 W (R200). -/
structure Demand where
  entry  : Nat
  units  : List (Nat × Nat)
  deriving DecidableEq, Repr

end Sys2Proof
end

