-- ==== Sys2Proof/Config.lean ====
section
/-! DEFINITION. What an implementation fixes and what the manual leaves open: opaque constants, of which no proof sees a value. -/

namespace Sys2Proof.Config

/-- Free value number `k`, of `w` bits: DESIGN CHOICE (log 13). The step takes the number from a counter of the state, so no
two uses share one. -/
opaque free (w k : Nat) : BitVec w

/-- A device of the fabric domain other than this one (R291, R298). -/
opaque inDomain (dev : BitVec 6) : Bool

/-- SHA-512 digest of the accepted public key, fused at manufacture (R203). -/
opaque keyDigest : BitVec 512
/-- The fused minimum security version (R203). -/
opaque minSvn : BitVec 32
/-- The device serial number (R205). -/
opaque serial : BitVec 64
/-- Ed25519 verification of a signature over a message under a public key (R203): the manual names the algorithm. -/
opaque edVerify (pub : BitVec 256) (msg : List Byte) (sig : BitVec 512) : Bool
/-- Ed25519 signing by the device's identity key, whose private half is readable by no instruction (R205). -/
opaque edSign (msg : List Byte) : BitVec 512
/-- The image accepted by the boot ROM runs on the ridge cores from the body's first word (R203): PRESUMED (log 14). -/
def firmwareEntryOffset : Nat := 0

end Sys2Proof.Config
end

