-- ==== Sys2Proof/Syntax.lean ====
section
/-! DEFINITION. The abstract syntax: one constructor of `Instr` for each row of the opcode table. Encoded
instructions carry one operand structure; the other rows are the steps of other agents with what they act on. -/

namespace Sys2Proof

/-- The length class of a base-group instruction: base (LEN 00, 01) or extended with its E bits (LEN 10, 11) (R237,
R240). E bit order is d, a, b, c, e, f from bit 5 down. -/
inductive Form | base | ext (e : BitVec 6)
  deriving DecidableEq, Repr

/-- The length class of a vector instruction; the x-form may carry a lane mask (R305). -/
inductive VForm | base | ext (e : BitVec 6) (mask : Option Reg)
  deriving DecidableEq, Repr

/-- Source b or the literal that replaces it (R239). -/
inductive Src | reg (b : Reg) | lit (x : Word)
  deriving DecidableEq, Repr

/-- Formats of scalar floating point (R262). -/
inductive FFmt | f16 | bf16 | f32
  deriving DecidableEq, Repr

/-- ADD, SUB (R255). -/
structure OAluSat where
  w : Width
  sat : Bool
  d : Reg
  a : Reg
  b : Reg
  form : Form
  deriving DecidableEq, Repr

/-- Width code and three scalar registers (R253). -/
structure OAlu where
  w : Width
  d : Reg
  a : Reg
  b : Reg
  form : Form
  deriving DecidableEq, Repr

/-- A unary operation with a width code (R255). -/
structure OAluUn where
  w : Width
  d : Reg
  a : Reg
  form : Form
  deriving DecidableEq, Repr

/-- Format I with a 14-bit immediate (R256). -/
structure OAddI where
  d : Reg
  a : Reg
  imm : BitVec 14
  deriving DecidableEq, Repr

/-- Format I with a literal (R256). -/
structure OAddIL where
  d : Reg
  a : Reg
  lit : Word
  deriving DecidableEq, Repr

/-- MOVI (R257). -/
structure OMovI where
  d : Reg
  imm : BitVec 14
  deriving DecidableEq, Repr

/-- MOVI with a literal (R257). -/
structure OMovIL where
  d : Reg
  lit : Word
  deriving DecidableEq, Repr

/-- ADDA, SUBA (R258). -/
structure OAddr where
  sh : BitVec 2
  d : Reg
  a : Reg
  src : Src
  form : Form
  deriving DecidableEq, Repr

/-- TAGS (R258). -/
structure OTags where
  d : Reg
  a : Reg
  src : Src
  form : Form
  deriving DecidableEq, Repr

/-- Destination and one source. -/
structure ODA where
  d : Reg
  a : Reg
  form : Form
  deriving DecidableEq, Repr

/-- Destination and two sources. -/
structure ODAB where
  d : Reg
  a : Reg
  b : Reg
  form : Form
  deriving DecidableEq, Repr

/-- Two sources. -/
structure OAB where
  a : Reg
  b : Reg
  form : Form
  deriving DecidableEq, Repr

/-- One source. -/
structure OA where
  a : Reg
  form : Form
  deriving DecidableEq, Repr

/-- BFXU, BFXS, BFI (R260). -/
structure OBitf where
  d : Reg
  a : Reg
  pos : BitVec 6
  lm : BitVec 6
  deriving DecidableEq, Repr

/-- Shifts by an immediate (R260). -/
structure OShI where
  d : Reg
  a : Reg
  pos : BitVec 6
  deriving DecidableEq, Repr

/-- Scalar float, two sources (R262). -/
structure OFBin where
  fmt : FFmt
  rm : Rm
  sat : Bool
  d : Reg
  a : Reg
  b : Reg
  form : Form
  deriving DecidableEq, Repr

/-- FNEG (R262). -/
structure OFUn where
  fmt : FFmt
  rm : Rm
  sat : Bool
  d : Reg
  a : Reg
  form : Form
  deriving DecidableEq, Repr

/-- CVT (R263). -/
structure OCvt where
  rm : Rm
  sat : Bool
  dfmt : Fmt
  sfmt : Fmt
  d : Reg
  a : Reg
  form : Form
  deriving DecidableEq, Repr

/-- Branches (R264). -/
structure OBr where
  off : BitVec 10
  a : Reg
  b : Reg
  deriving DecidableEq, Repr

/-- JMP, CALL (R265). -/
structure OJ where
  off : BitVec 23
  deriving DecidableEq, Repr

/-- One register in format A, without an x-form, or with every extension field zero. -/
structure ORa where
  a : Reg
  deriving DecidableEq, Repr

/-- ENTER: counts divided by 8 (R268). -/
structure OEnter where
  s : BitVec 5
  v : BitVec 5
  deriving DecidableEq, Repr

/-- RDSR (R270). -/
structure ORdsr where
  d : Reg
  sr : BitVec 5
  a : Reg
  deriving DecidableEq, Repr

/-- PROBE (R271). -/
structure OProbe where
  vec : Bool
  d : Reg
  a : Reg
  deriving DecidableEq, Repr

/-- BRK (R380). -/
structure OBrk where
  h : Bool
  hg : BitVec 4
  deriving DecidableEq, Repr

/-- LD (R274). -/
structure OLd where
  sz : BitVec 2
  pi : Bool
  sx : Bool
  off : BitVec 10
  base : Reg
  d : Reg
  form : Form
  deriving DecidableEq, Repr

/-- ST (R274). -/
structure OSt where
  sz : BitVec 2
  pi : Bool
  off : BitVec 10
  base : Reg
  s : Reg
  form : Form
  deriving DecidableEq, Repr

/-- LDE (R275). -/
structure OLde where
  pi : Bool
  off : BitVec 10
  base : Reg
  d : Reg
  rm : Rm
  form : Form
  deriving DecidableEq, Repr

/-- STE (R275). -/
structure OSte where
  pi : Bool
  off : BitVec 10
  base : Reg
  s : Reg
  rm : Rm
  sat : Bool
  form : Form
  deriving DecidableEq, Repr

/-- LD.ACQ, LDC (R276). -/
structure OLdo where
  sz : BitVec 2
  scope : Scope
  off : BitVec 10
  base : Reg
  d : Reg
  form : Form
  deriving DecidableEq, Repr

/-- LDS (R276). -/
structure OLds where
  off : BitVec 10
  base : Reg
  d : Reg
  c : Reg
  form : Form
  deriving DecidableEq, Repr

/-- ST.REL (R277). -/
structure OSto where
  sz : BitVec 2
  scope : Scope
  off : BitVec 10
  base : Reg
  s : Reg
  form : Form
  deriving DecidableEq, Repr

/-- AMO (R278). -/
structure OAmo where
  off : BitVec 10
  base : Reg
  d : Reg
  c : Reg
  e : Reg
  scope : Scope
  order : Order
  fmt : Fmt
  op : AmoOp
  sat : Bool
  eb : BitVec 6
  deriving DecidableEq, Repr

/-- FENCE (R280). -/
structure OFence where
  scope : Scope
  order : Order
  form : Form
  deriving DecidableEq, Repr

/-- FLUSHS, INVS (R283). -/
structure ORange where
  scope : Scope
  a : Reg
  b : Reg
  form : Form
  deriving DecidableEq, Repr

/-- PREF (R284). -/
structure OPref where
  lvl : PrefLevel
  a : Reg
  form : Form
  deriving DecidableEq, Repr

/-- SUBSTAT (R287). -/
structure OSubst where
  d : Reg
  a : Reg
  scope : Scope
  form : Form
  deriving DecidableEq, Repr

/-- SEND, TSEND (R291). -/
structure OSend where
  a : Reg
  b : Reg
  rel : Option Scope
  form : Form
  deriving DecidableEq, Repr

/-- CHRD (R292). -/
structure OChrd where
  h : Bool
  d : Reg
  a : Reg
  form : Form
  deriving DecidableEq, Repr

/-- FREG (R299). -/
structure OFreg where
  j : BitVec 2
  a : Reg
  b : Reg
  form : Form
  deriving DecidableEq, Repr

/-- FWAIT (R299). -/
structure OFwait where
  d : Reg
  a : Reg
  c : Reg
  form : Form
  deriving DecidableEq, Repr

/-- BARCFG (R300). -/
structure OBarcfg where
  slot : BitVec 3
  a : Reg
  b : Reg
  form : Form
  deriving DecidableEq, Repr

/-- BAR (R300). -/
structure OBar where
  slot : BitVec 3
  d : Reg
  c : Reg
  form : Form
  deriving DecidableEq, Repr

/-- BARARV, BARRD (R300). -/
structure OBarD where
  slot : BitVec 3
  d : Reg
  form : Form
  deriving DecidableEq, Repr

/-- BARDROP (R300). -/
structure OBar0 where
  slot : BitVec 3
  form : Form
  deriving DecidableEq, Repr

/-- BARWT (R300). -/
structure OBarwt where
  slot : BitVec 3
  d : Reg
  a : Reg
  c : Reg
  form : Form
  deriving DecidableEq, Repr

/-- QPUSH (R302). -/
structure OQpush where
  q : BitVec 4
  a : Reg
  c : Reg
  form : Form
  deriving DecidableEq, Repr

/-- QPOP (R302). -/
structure OQpop where
  q : BitVec 4
  d : Reg
  c : Reg
  form : Form
  deriving DecidableEq, Repr

/-- QDWR, PERMIT.FREE (R302). -/
structure OQA where
  q : BitVec 4
  a : Reg
  form : Form
  deriving DecidableEq, Repr

/-- QDRD (R302). -/
structure OQD where
  q : BitVec 4
  d : Reg
  form : Form
  deriving DecidableEq, Repr

/-- PERMIT.STORE (R302). -/
structure OQAB where
  q : BitVec 4
  a : Reg
  b : Reg
  form : Form
  deriving DecidableEq, Repr

/-- VADD, VSUB (R307). -/
structure OVSat where
  w : VWidth
  sat : Bool
  d : Reg
  a : Reg
  b : Reg
  form : VForm
  deriving DecidableEq, Repr

/-- Vector integer operations with a width code (R307, R308, R311). -/
structure OVBin where
  w : VWidth
  d : Reg
  a : Reg
  b : Reg
  form : VForm
  deriving DecidableEq, Repr

/-- Vector shifts by an immediate (R309). -/
structure OVSh where
  n : BitVec 5
  d : Reg
  a : Reg
  form : VForm
  deriving DecidableEq, Repr

/-- Vector float with rounding (R310). -/
structure OVF where
  rm : Rm
  sat : Bool
  d : Reg
  a : Reg
  b : Reg
  form : VForm
  deriving DecidableEq, Repr

/-- Three registers and a lane mask. -/
structure OV3 where
  d : Reg
  a : Reg
  b : Reg
  form : VForm
  deriving DecidableEq, Repr

/-- Two registers and a lane mask. -/
structure OV2 where
  d : Reg
  a : Reg
  form : VForm
  deriving DecidableEq, Repr

/-- VCVT (R312). -/
structure OVCvt where
  rm : Rm
  sat : Bool
  dfmt : Fmt
  sfmt : Fmt
  d : Reg
  a : Reg
  form : VForm
  deriving DecidableEq, Repr

/-- VINS (R313). -/
structure OVins where
  l : BitVec 4
  d : Reg
  a : Reg
  form : Form
  deriving DecidableEq, Repr

/-- VEXT (R313). -/
structure OVext where
  w : VWidth
  l : BitVec 4
  d : Reg
  a : Reg
  form : Form
  deriving DecidableEq, Repr

/-- VIOTA (R313). -/
structure OViota where
  d : Reg
  form : VForm
  deriving DecidableEq, Repr

/-- VLD, VST, VLSLD, VLSST (R316, R319). -/
structure OVMem where
  pi : Bool
  off : BitVec 10
  base : Reg
  r : Reg
  form : VForm
  deriving DecidableEq, Repr

/-- VLDE (R317). -/
structure OVlde where
  pi : Bool
  off : BitVec 10
  base : Reg
  r : Reg
  rm : Rm
  form : VForm
  deriving DecidableEq, Repr

/-- VSTE (R317). -/
structure OVste where
  pi : Bool
  off : BitVec 10
  base : Reg
  r : Reg
  rm : Rm
  sat : Bool
  form : VForm
  deriving DecidableEq, Repr

/-- VLDX, VSTX (R318). -/
structure OVldx where
  base : Reg
  r : Reg
  x : Reg
  form : VForm
  deriving DecidableEq, Repr

/-- VSP (R321). -/
structure OVsp where
  op : VspOp
  fmt : LFmt
  rm : Rm
  sat : Bool
  d : Reg
  a : Reg
  b : Reg
  c : Reg
  mask : Option Reg
  eb : BitVec 6
  deriving DecidableEq, Repr

/-- VRED (R322). -/
structure OVred where
  op : CollOp
  fmt : LFmt
  d : Reg
  a : Reg
  mask : Option Reg
  eb : BitVec 6
  deriving DecidableEq, Repr

/-- VTOPK (R323). -/
structure OVtopk where
  fmt : LFmt
  d : Reg
  a : Reg
  b : Reg
  c : Reg
  e : Reg
  eb : BitVec 6
  deriving DecidableEq, Repr

/-- MXLEASE (R329). -/
structure OXC where
  c : Reg
  eb : BitVec 6
  deriving DecidableEq, Repr

/-- TREL (R330). -/
structure OT where
  t : BitVec 3
  deriving DecidableEq, Repr

/-- TCFG (R330). -/
structure OTA where
  t : BitVec 3
  a : Reg
  eb : BitVec 6
  deriving DecidableEq, Repr

/-- MXWAIT (R330). -/
structure OTC where
  t : BitVec 3
  c : Reg
  eb : BitVec 6
  deriving DecidableEq, Repr

/-- Four sources a, b, c, e in an x-only group. -/
structure OXABCE where
  a : Reg
  b : Reg
  c : Reg
  e : Reg
  eb : BitVec 6
  deriving DecidableEq, Repr

/-- MXMUL, MXTERN (R333). -/
structure OMx where
  acc : Bool
  t : BitVec 3
  fa : Fmt
  fb : Fmt
  sat : Bool
  ka : BitVec 3
  kb : BitVec 3
  fuse : Bool
  a : Reg
  b : Reg
  c : Reg
  eb : BitVec 6
  deriving DecidableEq, Repr

/-- MXDRAIN (R336). -/
structure OTABC where
  t : BitVec 3
  a : Reg
  b : Reg
  c : Reg
  eb : BitVec 6
  deriving DecidableEq, Repr

/-- A status read in an x-only group. -/
structure ORd where
  d : Reg
  deriving DecidableEq, Repr

/-- Two sources in an x-only group. -/
structure OXAB where
  a : Reg
  b : Reg
  eb : BitVec 6
  deriving DecidableEq, Repr

/-- Destination and source in an x-only group. -/
structure OXDA where
  d : Reg
  a : Reg
  eb : BitVec 6
  deriving DecidableEq, Repr

/-- Destination and two sources in an x-only group. -/
structure OXDAB where
  d : Reg
  a : Reg
  b : Reg
  eb : BitVec 6
  deriving DecidableEq, Repr

/-- Destination and three sources in an x-only group. -/
structure OXDABC where
  d : Reg
  a : Reg
  b : Reg
  c : Reg
  eb : BitVec 6
  deriving DecidableEq, Repr

/-- One source in an x-only group. -/
structure OXA where
  a : Reg
  eb : BitVec 6
  deriving DecidableEq, Repr

/-- TWRUN (R350). -/
structure OXAC where
  a : Reg
  c : Reg
  eb : BitVec 6
  deriving DecidableEq, Repr

/-- NBMV (R340). -/
structure ONbmv where
  sat : Bool
  fx : Fmt
  a : Reg
  b : Reg
  c : Reg
  e : Reg
  f : Reg
  eb : BitVec 6
  deriving DecidableEq, Repr

/-- CPY, CPYT, GATHER (R342). -/
structure OX5 where
  a : Reg
  b : Reg
  c : Reg
  e : Reg
  f : Reg
  eb : BitVec 6
  deriving DecidableEq, Repr

/-- GVAR, GFAC (R353). -/
structure OX6 where
  d : Reg
  a : Reg
  b : Reg
  c : Reg
  e : Reg
  f : Reg
  eb : BitVec 6
  deriving DecidableEq, Repr

/-- SYNCWAIT (R346). -/
structure OSyncw where
  scope : Scope
  d : Reg
  a : Reg
  b : Reg
  c : Reg
  eb : BitVec 6
  deriving DecidableEq, Repr

/-- SYNCADD (R347). -/
structure OSynca where
  scope : Scope
  a : Reg
  b : Reg
  eb : BitVec 6
  deriving DecidableEq, Repr

/-- COLL (R298). -/
structure OColl where
  op : CollOp
  vec : Bool
  fmt : Fmt
  d : Reg
  a : Reg
  b : Reg
  c : Reg
  eb : BitVec 6
  deriving DecidableEq, Repr

/-- A step of another agent with what it acts on: a message in flight, a value on its way, a request to a home. -/
inductive Ev
  /-- DSPCFG_WRITE (R87). -/
  | dspcfgWrite (r : SysReq)
  /-- SKSIZE_WRITE (R89). -/
  | sksizeWrite (r : SysReq)
  /-- THBOOT_WRITE (R413). -/
  | thbootWrite (r : SysReq)
  /-- FTE_WRITE (R135). -/
  | fteWrite (r : SysReq)
  /-- KT_WRITE (R194). -/
  | ktWrite (r : SysReq)
  /-- WSET_WRITE (R195). -/
  | wsetWrite (r : SysReq)
  /-- WP_WRITE (R225). -/
  | wpWrite (r : SysReq)
  /-- MRGN_WRITE (R190). -/
  | mrgnWrite (r : SysReq)
  /-- WORLD_MAP_WRITE (R190). -/
  | worldMapWrite (r : SysReq)
  /-- TRAPT_WRITE (R213). -/
  | traptWrite (r : SysReq)
  /-- MESSAGE_ARRIVE (R153). -/
  | messageArrive (m : Msg)
  /-- MESSAGE_REPLY (R155). -/
  | messageReply (m : Msg) (r : MsgReply)
  /-- CONTEXT_FREE_NOTICE (R155). -/
  | contextFreeNotice (agent dst : Nat) (dev ch : BitVec 6)
  /-- RESEND_TIMER_EXPIRE (R154). -/
  | resendTimerExpire (agent dst : Nat) (dev ch : BitVec 6)
  /-- WITHDRAWAL (R155). -/
  | withdrawal (dst : Nat) (srcDev : BitVec 6) (srcXR : Bool) (srcCore : BitVec 11) (ch : BitVec 6)
  /-- TASK_START (R162). -/
  | taskStart (agent : Nat)
  /-- LAUNCH_PLACE (R159). -/
  | launchPlace (die : Nat)
  /-- LOAD_LAND (R161). -/
  | loadLand (l : Landing)
  /-- ACCESS_ACCEPT (R207). -/
  | accessAccept (r : AcceptReq)
  /-- FAULT_FREEZE (R208). -/
  | faultFreeze (agent ctx : Nat) (p : Packet)
  /-- FAULT_PACKET_ARRIVE (R213). -/
  | faultPacketArrive (m : Msg)
  /-- PAGE_FAULT_POST (R217). -/
  | pageFaultPost (m : Msg)
  /-- PAGE_FAULT_REPLY (R218). -/
  | pageFaultReply (m : Msg)
  /-- DIRECTORY_REQUEST (R122). -/
  | directoryRequest (cluster line : Nat) (k : DirReq)
  /-- WRITEBACK_APPLY (R126). -/
  | writebackApply (w : WriteBack)
  /-- PAGE_COPY_REQUEST (R129). -/
  | pageCopyRequest (r : PageReq)
  /-- OWNERSHIP_REQUEST (R131). -/
  | ownershipRequest (r : PageReq)
  /-- PAGE_INVALIDATE (R129). -/
  | pageInvalidate (page : Nat)
  /-- OWNERSHIP_GRANT (R130). -/
  | ownershipGrant (page : Nat)
  /-- ATOMIC_MOVED (R132). -/
  | atomicMoved (agent ctx : Nat)
  /-- SUBSCRIPTION_UPDATE_SEND (R141). -/
  | subscriptionUpdateSend (agent entry : Nat)
  /-- SUBSCRIPTION_UPDATE_APPLY (R142). -/
  | subscriptionUpdateApply (u : SubUpdate)
  /-- SUBSCRIPTION_ACK (R140). -/
  | subscriptionAck (agent entry : Nat)
  /-- SUBSCRIPTION_TEARDOWN (R145). -/
  | subscriptionTeardown (agent entry : Nat) (toSub : Bool) (kid : BitVec 16) (peer peerEntry : Nat)
  /-- GMU_ARRIVE (R65). -/
  | gmuArrive (agent : Nat)
  /-- GMU_BIND (R358). -/
  | gmuBind (r : BindReq)
  /-- GMU_UNBIND (R365). -/
  | gmuUnbind (r : UnbindReq)
  /-- BARRIER_SWEEP (R178). -/
  | barrierSweep (t : BarToken)
  /-- COLL_ARRIVE (R184). -/
  | collArrive (m : CollMsg)
  /-- COLL_TIMER_EXPIRE (R184). -/
  | collTimerExpire (die unit : Nat) (kid id : BitVec 16)
  /-- BOUNDED_WAIT_EXPIRE (R288). -/
  | boundedWaitExpire (agent ctx : Nat)
  /-- LEASE_GRANT_EXPIRE (R165). -/
  | leaseGrantExpire (cluster : Nat)
  /-- STAGING_LANDED (R326). -/
  | stagingLanded (cluster : Nat)
  /-- MATRIX_COMMAND_COMPLETE (R166). -/
  | matrixCommandComplete (cluster : Nat)
  /-- DRAIN_WRITE_COMPLETE (R336). -/
  | drainWriteComplete (cluster : Nat)
  /-- COPY_PIECE_LANDED (R344). -/
  | copyPieceLanded (cluster : Nat)
  /-- COPY_COMPLETE (R344). -/
  | copyComplete (cluster : Nat)
  /-- ENGINE_FAULT (R343). -/
  | engineFault (e : Engine) (p : Packet)
  /-- GATHER_BATCH_LANDED (R349). -/
  | gatherBatchLanded (die slice : Nat)
  /-- TILE_LOAD (R186). -/
  | tileLoad (cluster : Nat)
  /-- STORE_PERMIT_ACK (R186). -/
  | storePermitAck (cluster : Nat)
  /-- NBCFG_PLACED (R339). -/
  | nbcfgPlaced (id : Nat)
  /-- NBMV_COMPLETE (R340). -/
  | nbmvComplete (id : Nat)
  /-- PREEMPT_ACK (R220). -/
  | preemptAck (u : StopUnit)
  /-- POWER_INTERVAL (R200). -/
  | powerInterval (unattributed : Nat) (d : List Demand)
  /-- ARRAY_SELF_TEST (R230). -/
  | arraySelfTest (cluster : Nat) (failing : BitVec 4)
  /-- ECC_CORRECTABLE (R227). -/
  | eccCorrectable (die : Nat)
  /-- POISON_MARK (R228). -/
  | poisonMark (p : Place)
  /-- DIE_STOP (R229). -/
  | dieStop (die : Nat)
  /-- THERMAL_WARNING (R416). -/
  | thermalWarning (die : Nat) (temp : Byte)
  /-- THERMAL_STOP (R416). -/
  | thermalStop (die : Nat)
  /-- TWILL_LANE_FAIL (R414). -/
  | twillLaneFail (lane : Nat)
  /-- REMOTE_TIMEOUT (R414). -/
  | remoteTimeout (agent ctx : Nat)
  /-- APERTURE_WRITE_TIMEOUT (R411). -/
  | apertureWriteTimeout (agent ctx : Nat)
  /-- HOST_MESSAGE_ARRIVE (R408). -/
  | hostMessageArrive (header : Word) (payload : BitVec 960)
  /-- HOST_LAUNCH (R409). -/
  | hostLaunch (c : HostCmd)
  /-- HOST_MAP (R409). -/
  | hostMap (c : HostCmd)
  /-- HOST_KINST (R409). -/
  | hostKinst (c : HostCmd)
  /-- HOST_CKPT (R409). -/
  | hostCkpt (c : HostCmd)
  /-- HOST_ATTEST (R205). -/
  | hostAttest (c : HostCmd)
  /-- HOST_HGTRIG (R409). -/
  | hostHgtrig (c : HostCmd)
  /-- HOST_HGREL (R409). -/
  | hostHgrel (c : HostCmd)
  /-- MGMT_CTRL_RELEASE (R413). -/
  | mgmtCtrlRelease
  /-- MGMT_CTRL_HOLD (R412). -/
  | mgmtCtrlHold
  /-- MGMT_WRITE (R412). -/
  | mgmtWrite (off len : Nat) (data : BitVec 64)
  /-- AUX_POWER_UP (R413). -/
  | auxPowerUp
  /-- MAIN_POWER_LOSS (R415). -/
  | mainPowerLoss
  /-- EVICTION (R124). -/
  | eviction (e : EvictWhat)
  /-- FRAME_MIGRATION (R132). -/
  | frameMigration (page new : Nat)
  /-- THERMAL_WARNING_CLEAR (R416). -/
  | thermalWarningClear (die : Nat) (temp : Byte)
  /-- MAIN_INPUT_RETURN (R415). -/
  | mainInputReturn
  deriving DecidableEq, Repr

/-- The instructions and steps of the opcode table. The operands of a step of another agent stand in the state, as the step in
hand. -/
inductive Instr
  /-- ADD (R255). -/
  | add (o : OAluSat)
  /-- SUB (R255). -/
  | sub (o : OAluSat)
  /-- AND (R255). -/
  | and (o : OAlu)
  /-- OR (R255). -/
  | or (o : OAlu)
  /-- XOR (R255). -/
  | xor (o : OAlu)
  /-- ANDN (R255). -/
  | andn (o : OAlu)
  /-- SHL (R255). -/
  | shl (o : OAlu)
  /-- SHR (R255). -/
  | shr (o : OAlu)
  /-- SRA (R255). -/
  | sra (o : OAlu)
  /-- MIN (R255). -/
  | min (o : OAlu)
  /-- MAX (R255). -/
  | max (o : OAlu)
  /-- CLZ (R255). -/
  | clz (o : OAluUn)
  /-- CTZ (R255). -/
  | ctz (o : OAluUn)
  /-- POPC (R255). -/
  | popc (o : OAluUn)
  /-- MOV (R255). -/
  | mov (o : OAluUn)
  /-- ADDI (R256). -/
  | addi (o : OAddI)
  /-- ADDI_LIT (R256). -/
  | addiLit (o : OAddIL)
  /-- ADDA (R258). -/
  | adda (o : OAddr)
  /-- SUBA (R258). -/
  | suba (o : OAddr)
  /-- TAGS (R258). -/
  | tags (o : OTags)
  /-- TAGG (R258). -/
  | tagg (o : ODA)
  /-- MUL (R259). -/
  | mul (o : OAlu)
  /-- MULH (R259). -/
  | mulh (o : OAlu)
  /-- DIV (R259). -/
  | div (o : OAlu)
  /-- REM (R259). -/
  | rem (o : OAlu)
  /-- BFXU (R260). -/
  | bfxu (o : OBitf)
  /-- BFXS (R260). -/
  | bfxs (o : OBitf)
  /-- BFI (R260). -/
  | bfi (o : OBitf)
  /-- SHLI (R260). -/
  | shli (o : OShI)
  /-- SHRI (R260). -/
  | shri (o : OShI)
  /-- SRAI (R260). -/
  | srai (o : OShI)
  /-- RORI (R260). -/
  | rori (o : OShI)
  /-- MOVI (R257). -/
  | movi (o : OMovI)
  /-- MOVI_LIT (R257). -/
  | moviLit (o : OMovIL)
  /-- CMPEQ (R261). -/
  | cmpeq (o : OAlu)
  /-- CMPNE (R261). -/
  | cmpne (o : OAlu)
  /-- CMPLT (R261). -/
  | cmplt (o : OAlu)
  /-- CMPLE (R261). -/
  | cmple (o : OAlu)
  /-- SEL (R261). -/
  | sel (o : ODAB)
  /-- FADD (R262). -/
  | fadd (o : OFBin)
  /-- FSUB (R262). -/
  | fsub (o : OFBin)
  /-- FMUL (R262). -/
  | fmul (o : OFBin)
  /-- FMA (R262). -/
  | fma (o : OFBin)
  /-- FMIN (R262). -/
  | fmin (o : OFBin)
  /-- FMAX (R262). -/
  | fmax (o : OFBin)
  /-- FNEG (R262). -/
  | fneg (o : OFUn)
  /-- FCMPEQ (R262). -/
  | fcmpeq (o : OFBin)
  /-- FCMPLT (R262). -/
  | fcmplt (o : OFBin)
  /-- FCMPLE (R262). -/
  | fcmple (o : OFBin)
  /-- CVT (R263). -/
  | cvt (o : OCvt)
  /-- BEQ (R264). -/
  | beq (o : OBr)
  /-- BNE (R264). -/
  | bne (o : OBr)
  /-- BLT (R264). -/
  | blt (o : OBr)
  /-- BGE (R264). -/
  | bge (o : OBr)
  /-- BLTU (R264). -/
  | bltu (o : OBr)
  /-- BGEU (R264). -/
  | bgeu (o : OBr)
  /-- JMP (R265). -/
  | jmp (o : OJ)
  /-- CALL (R265). -/
  | call (o : OJ)
  /-- JMPI (R266). -/
  | jmpi (o : ORa)
  /-- CALLI (R266). -/
  | calli (o : ORa)
  /-- RET (R266). -/
  | ret
  /-- ENTER (R268). -/
  | enter (o : OEnter)
  /-- LEAVE (R269). -/
  | leave
  /-- RDSR (R270). -/
  | rdsr (o : ORdsr)
  /-- PROBE (R271). -/
  | probe (o : OProbe)
  /-- BRK (R380). -/
  | brk (o : OBrk)
  /-- NOP (R381). -/
  | nop
  /-- LD (R274). -/
  | ld (o : OLd)
  /-- ST (R274). -/
  | st (o : OSt)
  /-- LDE (R275). -/
  | lde (o : OLde)
  /-- STE (R275). -/
  | ste (o : OSte)
  /-- LD_ACQ (R276). -/
  | ldAcq (o : OLdo)
  /-- LDC (R276). -/
  | ldc (o : OLdo)
  /-- LDS (R276). -/
  | lds (o : OLds)
  /-- ST_REL (R277). -/
  | stRel (o : OSto)
  /-- AMO (R278). -/
  | amo (o : OAmo)
  /-- FENCE (R280). -/
  | fence (o : OFence)
  /-- SPRESIZE (R282). -/
  | spresize (o : ODA)
  /-- FLUSHS (R283). -/
  | flushs (o : ORange)
  /-- INVS (R283). -/
  | invs (o : ORange)
  /-- PREF (R284). -/
  | pref (o : OPref)
  /-- SEND (R291). -/
  | send (o : OSend)
  /-- TSEND (R291). -/
  | tsend (o : OSend)
  /-- RECV (R293). -/
  | recv (o : ODAB)
  /-- RCANCEL (R294). -/
  | rcancel (o : ODA)
  /-- CHWR (R295). -/
  | chwr (o : ODAB)
  /-- CHMSK (R295). -/
  | chmsk (o : ODAB)
  /-- CHRD (R295). -/
  | chrd (o : OChrd)
  /-- SPAWN (R156). -/
  | spawn (o : ORa)
  /-- JOIN (R296). -/
  | join
  /-- HALT (R157). -/
  | halt
  /-- HALTR (R296). -/
  | haltr (o : ORa)
  /-- YIELD (R296). -/
  | yield
  /-- FREG (R172). -/
  | freg (o : OFreg)
  /-- FRES (R172). -/
  | fres (o : OAB)
  /-- FCANCEL (R172). -/
  | fcancel (o : OA)
  /-- FRESET (R172). -/
  | freset (o : OA)
  /-- FWAIT (R172). -/
  | fwait (o : OFwait)
  /-- BARCFG (R176). -/
  | barcfg (o : OBarcfg)
  /-- BAR (R179). -/
  | bar (o : OBar)
  /-- BARARV (R179). -/
  | bararv (o : OBarD)
  /-- BARDROP (R179). -/
  | bardrop (o : OBar0)
  /-- BARWT (R179). -/
  | barwt (o : OBarwt)
  /-- BARRD (R300). -/
  | barrd (o : OBarD)
  /-- QPUSH (R175). -/
  | qpush (o : OQpush)
  /-- QPOP (R175). -/
  | qpop (o : OQpop)
  /-- QDWR (R174). -/
  | qdwr (o : OQA)
  /-- QDRD (R302). -/
  | qdrd (o : OQD)
  /-- PERMIT_FREE (R186). -/
  | permitFree (o : OQA)
  /-- PERMIT_STORE (R186). -/
  | permitStore (o : OQAB)
  /-- WLINIT (R303). -/
  | wlinit (o : OA)
  /-- WLPUSH (R183). -/
  | wlpush (o : ODAB)
  /-- WLINS (R183). -/
  | wlins (o : ODAB)
  /-- WLPOPB (R183). -/
  | wlpopb (o : ODAB)
  /-- WLSTAT (R303). -/
  | wlstat (o : ODA)
  /-- WLFREE (R303). -/
  | wlfree (o : OA)
  /-- SUBSCR (R285). -/
  | subscr (o : ODAB)
  /-- UNSUB (R286). -/
  | unsub (o : OA)
  /-- SUBSTAT (R287). -/
  | substat (o : OSubst)
  /-- VADD (R307). -/
  | vadd (o : OVSat)
  /-- VSUB (R307). -/
  | vsub (o : OVSat)
  /-- VAND (R307). -/
  | vand (o : OVBin)
  /-- VOR (R307). -/
  | vor (o : OVBin)
  /-- VXOR (R307). -/
  | vxor (o : OVBin)
  /-- VANDN (R307). -/
  | vandn (o : OVBin)
  /-- VSHL (R307). -/
  | vshl (o : OVBin)
  /-- VSHR (R307). -/
  | vshr (o : OVBin)
  /-- VSRA (R307). -/
  | vsra (o : OVBin)
  /-- VMIN (R307). -/
  | vmin (o : OVBin)
  /-- VMAX (R307). -/
  | vmax (o : OVBin)
  /-- VFADD (R310). -/
  | vfadd (o : OVF)
  /-- VFSUB (R310). -/
  | vfsub (o : OVF)
  /-- VFMUL (R310). -/
  | vfmul (o : OVF)
  /-- VFMA (R310). -/
  | vfma (o : OVF)
  /-- VFMIN (R310). -/
  | vfmin (o : OV3)
  /-- VFMAX (R310). -/
  | vfmax (o : OV3)
  /-- VFNEG (R310). -/
  | vfneg (o : OV2)
  /-- VRCP (R55). -/
  | vrcp (o : OV2)
  /-- VRSQ (R55). -/
  | vrsq (o : OV2)
  /-- VCMPEQ (R311). -/
  | vcmpeq (o : OVBin)
  /-- VCMPNE (R311). -/
  | vcmpne (o : OVBin)
  /-- VCMPLT (R311). -/
  | vcmplt (o : OVBin)
  /-- VCMPLE (R311). -/
  | vcmple (o : OVBin)
  /-- VFCMPEQ (R311). -/
  | vfcmpeq (o : OV3)
  /-- VFCMPLT (R311). -/
  | vfcmplt (o : OV3)
  /-- VFCMPLE (R311). -/
  | vfcmple (o : OV3)
  /-- VSEL (R311). -/
  | vsel (o : OV3)
  /-- VCVT (R312). -/
  | vcvt (o : OVCvt)
  /-- VMOV (R313). -/
  | vmov (o : OV2)
  /-- VBCAST (R313). -/
  | vbcast (o : OV2)
  /-- VINS (R313). -/
  | vins (o : OVins)
  /-- VEXT (R313). -/
  | vext (o : OVext)
  /-- VIOTA (R313). -/
  | viota (o : OViota)
  /-- VSHUF (R314). -/
  | vshuf (o : OV3)
  /-- VMUL (R308). -/
  | vmul (o : OVBin)
  /-- VMULH (R308). -/
  | vmulh (o : OVBin)
  /-- VDIV (R308). -/
  | vdiv (o : OVBin)
  /-- VREM (R308). -/
  | vrem (o : OVBin)
  /-- VSHLI (R309). -/
  | vshli (o : OVSh)
  /-- VSHRI (R309). -/
  | vshri (o : OVSh)
  /-- VSRAI (R309). -/
  | vsrai (o : OVSh)
  /-- VLD (R316). -/
  | vld (o : OVMem)
  /-- VST (R316). -/
  | vst (o : OVMem)
  /-- VLDE (R317). -/
  | vlde (o : OVlde)
  /-- VSTE (R317). -/
  | vste (o : OVste)
  /-- VLDX (R318). -/
  | vldx (o : OVldx)
  /-- VSTX (R318). -/
  | vstx (o : OVldx)
  /-- VLSLD (R319). -/
  | vlsld (o : OVMem)
  /-- VLSST (R319). -/
  | vlsst (o : OVMem)
  /-- VSP (R321). -/
  | vsp (o : OVsp)
  /-- VRED (R322). -/
  | vred (o : OVred)
  /-- VTOPK (R323). -/
  | vtopk (o : OVtopk)
  /-- MXLEASE (R329). -/
  | mxlease (o : OXC)
  /-- MXREL (R329). -/
  | mxrel
  /-- TCFG (R330). -/
  | tcfg (o : OTA)
  /-- TREL (R330). -/
  | trel (o : OT)
  /-- MXWAIT (R330). -/
  | mxwait (o : OTC)
  /-- MXLDA (R331). -/
  | mxlda (o : OXABCE)
  /-- MXLDB (R331). -/
  | mxldb (o : OXABCE)
  /-- MXMUL (R333). -/
  | mxmul (o : OMx)
  /-- MXTERN (R333). -/
  | mxtern (o : OMx)
  /-- MXDRAIN (R336). -/
  | mxdrain (o : OTABC)
  /-- MXSTAT (R337). -/
  | mxstat (o : ORd)
  /-- NBCFG (R339). -/
  | nbcfg (o : OXAB)
  /-- NBMV (R340). -/
  | nbmv (o : ONbmv)
  /-- NBSTAT (R341). -/
  | nbstat (o : OXDA)
  /-- CPY (R344). -/
  | cpy (o : OX5)
  /-- CPYT (R345). -/
  | cpyt (o : OX5)
  /-- SYNCWAIT (R346). -/
  | syncwait (o : OSyncw)
  /-- SYNCADD (R347). -/
  | syncadd (o : OSynca)
  /-- GATHER (R348). -/
  | gather (o : OX5)
  /-- TWRUN (R350). -/
  | twrun (o : OXAC)
  /-- TWSTOP (R351). -/
  | twstop
  /-- TWSTAT (R352). -/
  | twstat (o : ORd)
  /-- CESTAT (R352). -/
  | cestat (o : ORd)
  /-- GVAR (R356). -/
  | gvar (o : OX6)
  /-- GFAC (R357). -/
  | gfac (o : OX6)
  /-- GLINK (R358). -/
  | glink (o : OXDABC)
  /-- GFMSG (R66). -/
  | gfmsg (o : OXDAB)
  /-- GDAMP (R360). -/
  | gdamp (o : OXAB)
  /-- GTOL (R360). -/
  | gtol (o : OXAB)
  /-- GRELIN (R361). -/
  | grelin (o : OXAB)
  /-- GREAD (R74). -/
  | gread (o : OXDAB)
  /-- GSNAP (R72). -/
  | gsnap (o : OXDABC)
  /-- GCVG (R364). -/
  | gcvg (o : OXDA)
  /-- GFREE (R365). -/
  | gfree (o : OXA)
  /-- LAUNCH (R158). -/
  | launch (o : ORa)
  /-- COLL (R184). -/
  | coll (o : OColl)
  /-- RESUME (R370). -/
  | resume (o : OXA)
  /-- KILLT (R214). -/
  | killt
  /-- KILLK (R196). -/
  | killk (o : OXA)
  /-- DWRD (R371). -/
  | dwrd (o : OXDABC)
  /-- DWWR (R371). -/
  | dwwr (o : OXABCE)
  /-- SYSRD (R372). -/
  | sysrd (o : OXDA)
  /-- SYSWR (R372). -/
  | syswr (o : OXAB)
  /-- MEXT (R373). -/
  | mext (o : OXAB)
  /-- TLBSYNC (R374). -/
  | tlbsync (o : OXAB)
  /-- PREEMPT (R376). -/
  | preempt (o : OXDABC)
  /-- RESTORE (R376). -/
  | restore (o : OXDA)
  /-- MIGRATE (R377). -/
  | migrate (o : OXDABC)
  /-- CKPT_FULL (R231). -/
  | ckptFull (o : OXDA)
  /-- CKPT_INCREMENTAL (R232). -/
  | ckptIncremental (o : OXDA)
  /-- CKPT_RESTORE (R234). -/
  | ckptRestore (o : OXDA)
  /-- CKPT_RESUME (R378). -/
  | ckptResume (o : OXDA)
  /-- TRAP (R375). -/
  | trap (o : OXA)
  /-- HGTRIG (R379). -/
  | hgtrig (o : OXA)
  /-- HGREL (R379). -/
  | hgrel (o : OXA)
  /-- HGSTAT (R379). -/
  | hgstat (o : OXDA)
  /-- DSPCFG_WRITE (R87). -/
  | dspcfgWrite
  /-- SKSIZE_WRITE (R89). -/
  | sksizeWrite
  /-- THBOOT_WRITE (R413). -/
  | thbootWrite
  /-- FTE_WRITE (R135). -/
  | fteWrite
  /-- KT_WRITE (R194). -/
  | ktWrite
  /-- WSET_WRITE (R195). -/
  | wsetWrite
  /-- WP_WRITE (R225). -/
  | wpWrite
  /-- MRGN_WRITE (R190). -/
  | mrgnWrite
  /-- WORLD_MAP_WRITE (R190). -/
  | worldMapWrite
  /-- TRAPT_WRITE (R213). -/
  | traptWrite
  /-- MESSAGE_ARRIVE (R153). -/
  | messageArrive
  /-- MESSAGE_REPLY (R155). -/
  | messageReply
  /-- CONTEXT_FREE_NOTICE (R155). -/
  | contextFreeNotice
  /-- RESEND_TIMER_EXPIRE (R154). -/
  | resendTimerExpire
  /-- WITHDRAWAL (R155). -/
  | withdrawal
  /-- TASK_START (R162). -/
  | taskStart
  /-- LAUNCH_PLACE (R159). -/
  | launchPlace
  /-- LOAD_LAND (R161). -/
  | loadLand
  /-- ACCESS_ACCEPT (R207). -/
  | accessAccept
  /-- FAULT_FREEZE (R208). -/
  | faultFreeze
  /-- FAULT_PACKET_ARRIVE (R213). -/
  | faultPacketArrive
  /-- PAGE_FAULT_POST (R217). -/
  | pageFaultPost
  /-- PAGE_FAULT_REPLY (R218). -/
  | pageFaultReply
  /-- DIRECTORY_REQUEST (R122). -/
  | directoryRequest
  /-- WRITEBACK_APPLY (R126). -/
  | writebackApply
  /-- PAGE_COPY_REQUEST (R129). -/
  | pageCopyRequest
  /-- OWNERSHIP_REQUEST (R131). -/
  | ownershipRequest
  /-- PAGE_INVALIDATE (R129). -/
  | pageInvalidate
  /-- OWNERSHIP_GRANT (R130). -/
  | ownershipGrant
  /-- ATOMIC_MOVED (R132). -/
  | atomicMoved
  /-- SUBSCRIPTION_UPDATE_SEND (R141). -/
  | subscriptionUpdateSend
  /-- SUBSCRIPTION_UPDATE_APPLY (R142). -/
  | subscriptionUpdateApply
  /-- SUBSCRIPTION_ACK (R140). -/
  | subscriptionAck
  /-- SUBSCRIPTION_TEARDOWN (R145). -/
  | subscriptionTeardown
  /-- GMU_ARRIVE (R65). -/
  | gmuArrive
  /-- GMU_BIND (R358). -/
  | gmuBind
  /-- GMU_UNBIND (R365). -/
  | gmuUnbind
  /-- BARRIER_SWEEP (R178). -/
  | barrierSweep
  /-- COLL_ARRIVE (R184). -/
  | collArrive
  /-- COLL_TIMER_EXPIRE (R184). -/
  | collTimerExpire
  /-- BOUNDED_WAIT_EXPIRE (R288). -/
  | boundedWaitExpire
  /-- LEASE_GRANT_EXPIRE (R165). -/
  | leaseGrantExpire
  /-- STAGING_LANDED (R326). -/
  | stagingLanded
  /-- MATRIX_COMMAND_COMPLETE (R166). -/
  | matrixCommandComplete
  /-- DRAIN_WRITE_COMPLETE (R336). -/
  | drainWriteComplete
  /-- COPY_PIECE_LANDED (R344). -/
  | copyPieceLanded
  /-- COPY_COMPLETE (R344). -/
  | copyComplete
  /-- ENGINE_FAULT (R343). -/
  | engineFault
  /-- GATHER_BATCH_LANDED (R349). -/
  | gatherBatchLanded
  /-- TILE_LOAD (R186). -/
  | tileLoad
  /-- STORE_PERMIT_ACK (R186). -/
  | storePermitAck
  /-- NBCFG_PLACED (R339). -/
  | nbcfgPlaced
  /-- NBMV_COMPLETE (R340). -/
  | nbmvComplete
  /-- PREEMPT_ACK (R220). -/
  | preemptAck
  /-- POWER_INTERVAL (R200). -/
  | powerInterval
  /-- ARRAY_SELF_TEST (R230). -/
  | arraySelfTest
  /-- ECC_CORRECTABLE (R227). -/
  | eccCorrectable
  /-- POISON_MARK (R228). -/
  | poisonMark
  /-- DIE_STOP (R229). -/
  | dieStop
  /-- THERMAL_WARNING (R416). -/
  | thermalWarning
  /-- THERMAL_STOP (R416). -/
  | thermalStop
  /-- TWILL_LANE_FAIL (R414). -/
  | twillLaneFail
  /-- REMOTE_TIMEOUT (R414). -/
  | remoteTimeout
  /-- APERTURE_WRITE_TIMEOUT (R411). -/
  | apertureWriteTimeout
  /-- HOST_MESSAGE_ARRIVE (R408). -/
  | hostMessageArrive
  /-- HOST_LAUNCH (R409). -/
  | hostLaunch
  /-- HOST_MAP (R409). -/
  | hostMap
  /-- HOST_KINST (R409). -/
  | hostKinst
  /-- HOST_CKPT (R409). -/
  | hostCkpt
  /-- HOST_ATTEST (R205). -/
  | hostAttest
  /-- HOST_HGTRIG (R409). -/
  | hostHgtrig
  /-- HOST_HGREL (R409). -/
  | hostHgrel
  /-- MGMT_CTRL_RELEASE (R413). -/
  | mgmtCtrlRelease
  /-- MGMT_CTRL_HOLD (R412). -/
  | mgmtCtrlHold
  /-- MGMT_WRITE (R412). -/
  | mgmtWrite
  /-- AUX_POWER_UP (R413). -/
  | auxPowerUp
  /-- MAIN_POWER_LOSS (R415). -/
  | mainPowerLoss
  /-- EVICTION (R124). -/
  | eviction
  /-- FRAME_MIGRATION (R132). -/
  | frameMigration
  /-- THERMAL_WARNING_CLEAR (R416). -/
  | thermalWarningClear
  /-- MAIN_INPUT_RETURN (R415). -/
  | mainInputReturn
  deriving DecidableEq, Repr

/-- The row of a step in hand. -/
def Ev.instr : Ev → Instr
  | .dspcfgWrite _ => .dspcfgWrite
  | .sksizeWrite _ => .sksizeWrite
  | .thbootWrite _ => .thbootWrite
  | .fteWrite _ => .fteWrite
  | .ktWrite _ => .ktWrite
  | .wsetWrite _ => .wsetWrite
  | .wpWrite _ => .wpWrite
  | .mrgnWrite _ => .mrgnWrite
  | .worldMapWrite _ => .worldMapWrite
  | .traptWrite _ => .traptWrite
  | .messageArrive _ => .messageArrive
  | .messageReply _ _ => .messageReply
  | .contextFreeNotice _ _ _ _ => .contextFreeNotice
  | .resendTimerExpire _ _ _ _ => .resendTimerExpire
  | .withdrawal _ _ _ _ _ => .withdrawal
  | .taskStart _ => .taskStart
  | .launchPlace _ => .launchPlace
  | .loadLand _ => .loadLand
  | .accessAccept _ => .accessAccept
  | .faultFreeze _ _ _ => .faultFreeze
  | .faultPacketArrive _ => .faultPacketArrive
  | .pageFaultPost _ => .pageFaultPost
  | .pageFaultReply _ => .pageFaultReply
  | .directoryRequest _ _ _ => .directoryRequest
  | .writebackApply _ => .writebackApply
  | .pageCopyRequest _ => .pageCopyRequest
  | .ownershipRequest _ => .ownershipRequest
  | .pageInvalidate _ => .pageInvalidate
  | .ownershipGrant _ => .ownershipGrant
  | .atomicMoved _ _ => .atomicMoved
  | .subscriptionUpdateSend _ _ => .subscriptionUpdateSend
  | .subscriptionUpdateApply _ => .subscriptionUpdateApply
  | .subscriptionAck _ _ => .subscriptionAck
  | .subscriptionTeardown _ _ _ _ _ _ => .subscriptionTeardown
  | .gmuArrive _ => .gmuArrive
  | .gmuBind _ => .gmuBind
  | .gmuUnbind _ => .gmuUnbind
  | .barrierSweep _ => .barrierSweep
  | .collArrive _ => .collArrive
  | .collTimerExpire _ _ _ _ => .collTimerExpire
  | .boundedWaitExpire _ _ => .boundedWaitExpire
  | .leaseGrantExpire _ => .leaseGrantExpire
  | .stagingLanded _ => .stagingLanded
  | .matrixCommandComplete _ => .matrixCommandComplete
  | .drainWriteComplete _ => .drainWriteComplete
  | .copyPieceLanded _ => .copyPieceLanded
  | .copyComplete _ => .copyComplete
  | .engineFault _ _ => .engineFault
  | .gatherBatchLanded _ _ => .gatherBatchLanded
  | .tileLoad _ => .tileLoad
  | .storePermitAck _ => .storePermitAck
  | .nbcfgPlaced _ => .nbcfgPlaced
  | .nbmvComplete _ => .nbmvComplete
  | .preemptAck _ => .preemptAck
  | .powerInterval _ _ => .powerInterval
  | .arraySelfTest _ _ => .arraySelfTest
  | .eccCorrectable _ => .eccCorrectable
  | .poisonMark _ => .poisonMark
  | .dieStop _ => .dieStop
  | .thermalWarning _ _ => .thermalWarning
  | .thermalStop _ => .thermalStop
  | .twillLaneFail _ => .twillLaneFail
  | .remoteTimeout _ _ => .remoteTimeout
  | .apertureWriteTimeout _ _ => .apertureWriteTimeout
  | .hostMessageArrive _ _ => .hostMessageArrive
  | .hostLaunch _ => .hostLaunch
  | .hostMap _ => .hostMap
  | .hostKinst _ => .hostKinst
  | .hostCkpt _ => .hostCkpt
  | .hostAttest _ => .hostAttest
  | .hostHgtrig _ => .hostHgtrig
  | .hostHgrel _ => .hostHgrel
  | .mgmtCtrlRelease => .mgmtCtrlRelease
  | .mgmtCtrlHold => .mgmtCtrlHold
  | .mgmtWrite _ _ _ => .mgmtWrite
  | .auxPowerUp => .auxPowerUp
  | .mainPowerLoss => .mainPowerLoss
  | .eviction _ => .eviction
  | .frameMigration _ _ => .frameMigration
  | .thermalWarningClear _ _ => .thermalWarningClear
  | .mainInputReturn => .mainInputReturn

end Sys2Proof
end

