-- ==== Sys2Proof/Machine/Roles.lean ====
section
/-! DEFINITION. What each register field of an instruction is: bank, source or destination (R239 to R243), the E bits (R240), and
the field rules that an encoding alone can break. -/

namespace Sys2Proof

/-- One register field: its E bit (d, a, b, c, e, f are bits 5 to 0), its bank, its number, and whether it is read and
written. -/
structure Role where
  bit : Option Nat
  vec : Bool
  reg : Reg
  src : Bool
  dst : Bool
  deriving DecidableEq, Repr

def Form.e : Form → BitVec 6 | .base => 0 | .ext e => e
def VForm.e : VForm → BitVec 6 | .base => 0 | .ext e _ => e
def VForm.isBase : VForm → Bool | .base => true | .ext _ _ => false
def VForm.mask : VForm → Option Reg | .base => none | .ext _ m => m
def maskRoles : Option Reg → List Role | none => [] | some f => [⟨some 0, false, f, true, false⟩]
def VForm.roles (f : VForm) : List Role := maskRoles f.mask
def Src.roles : Src → List Role | .reg b => [⟨some 3, false, b, true, false⟩] | .lit _ => []

/-- The scaled-block formats (R29). -/
def Fmt.isScaled : Fmt → Bool | .sbi8 | .sbe4m3 | .sbt2 => true | _ => false
/-- The formats VCVT accepts (R312). -/
def Fmt.isLane : Fmt → Bool | .i64 | .n64 | .sbi8 | .sbe4m3 | .sbt2 => false | _ => true
def Fmt.isInt : Fmt → Bool | .i8 | .i16 | .i32 | .i64 | .n8 | .n16 | .n32 | .n64 => true | _ => false
def Fmt.isFloat : Fmt → Bool | .e4m3 | .e5m2 | .f16 | .bf16 | .f32 => true | _ => false
/-- The integer path of a dot product (R40). -/
def Fmt.intPath (a b : Fmt) : Bool := (a.isInt || a == .t2) && (b.isInt || b == .t2)
def CollOp.bitwise : CollOp → Bool | .and | .or | .xor => true | _ => false

/-- The formats of an atomic (R278). -/
def Fmt.isAmo : Fmt → Bool | .i32 | .n32 | .i64 | .n64 | .f32 | .bf16 | .f16 => true | _ => false
/-- SZ of an atomic's format (R278). -/
def amoSz : Fmt → BitVec 2 | .f16 | .bf16 => 1 | .i64 | .n64 => 3 | _ => 2
/-- Operations, formats and `.sat` of an atomic (R278). -/
def amoOk (op : AmoOp) (fmt : Fmt) (sat : Bool) : Bool :=
  fmt.isAmo && (match op with | .and | .or | .xor => fmt.isInt | _ => true) && (!sat || (op == .add && fmt.isInt))
/-- Operations, formats and SAT of VSP (R321). -/
def vspOk (op : VspOp) (fmt : LFmt) (sat : Bool) : Bool :=
  match op with
  | .and | .or | .xor => fmt != .f32 && !sat
  | .add | .sub => true
  | _ => fmt == .f32 || !sat
/-- The four pointers of VSP are distinct and none is g0 (R321). -/
def vspRegs (o : OVsp) : Bool :=
  o.d != 0 && o.a != 0 && o.b != 0 && o.c != 0 && o.d != o.a && o.d != o.b && o.d != o.c && o.a != o.b && o.a != o.c
    && o.b != o.c
/-- Formats of MXMUL (R333). -/
def Fmt.isMx : Fmt → Bool | .i8 | .n8 | .e4m3 | .e5m2 | .f16 | .bf16 | .sbi8 | .sbe4m3 => true | _ => false
def mxmulOk (a b : Fmt) : Bool := a.isMx && b.isMx
/-- Formats of MXTERN (R333). -/
def mxternOk (a b : Fmt) : Bool :=
  (a == .i8 || a == .n8 || a == .sbi8) && (b == .t2 || b == .sbt2)
/-- Formats of NBMV's x (R340), with SAT only those that can take the integer path. -/
def nbOk (sat : Bool) : Fmt → Bool | .i8 | .n8 => true | .e4m3 | .e5m2 | .f16 | .bf16 | .f32 => !sat | _ => false
/-- Formats and operations of COLL (R298). -/
def collOk (op : CollOp) (vec : Bool) (fmt : Fmt) : Bool :=
  (match fmt with | .i32 | .n32 => true | .i64 | .n64 => !vec | .f32 => !op.bitwise | _ => false)
/-- The system registers RDSR names (R270). -/
def srOk (n : BitVec 5) : Bool := decide (n.toNat ≤ 8) || (decide (16 ≤ n.toNat) && decide (n.toNat ≤ 23))


/-- The register fields of an instruction and their roles (R239 to R381). -/
def Instr.roles : Instr → List Role
  | .add o => [⟨some 5, false, o.d, false, true⟩, ⟨some 4, false, o.a, true, false⟩, ⟨some 3, false, o.b, true, false⟩]
  | .sub o => [⟨some 5, false, o.d, false, true⟩, ⟨some 4, false, o.a, true, false⟩, ⟨some 3, false, o.b, true, false⟩]
  | .and o => [⟨some 5, false, o.d, false, true⟩, ⟨some 4, false, o.a, true, false⟩, ⟨some 3, false, o.b, true, false⟩]
  | .or o => [⟨some 5, false, o.d, false, true⟩, ⟨some 4, false, o.a, true, false⟩, ⟨some 3, false, o.b, true, false⟩]
  | .xor o => [⟨some 5, false, o.d, false, true⟩, ⟨some 4, false, o.a, true, false⟩, ⟨some 3, false, o.b, true, false⟩]
  | .andn o => [⟨some 5, false, o.d, false, true⟩, ⟨some 4, false, o.a, true, false⟩, ⟨some 3, false, o.b, true, false⟩]
  | .shl o => [⟨some 5, false, o.d, false, true⟩, ⟨some 4, false, o.a, true, false⟩, ⟨some 3, false, o.b, true, false⟩]
  | .shr o => [⟨some 5, false, o.d, false, true⟩, ⟨some 4, false, o.a, true, false⟩, ⟨some 3, false, o.b, true, false⟩]
  | .sra o => [⟨some 5, false, o.d, false, true⟩, ⟨some 4, false, o.a, true, false⟩, ⟨some 3, false, o.b, true, false⟩]
  | .min o => [⟨some 5, false, o.d, false, true⟩, ⟨some 4, false, o.a, true, false⟩, ⟨some 3, false, o.b, true, false⟩]
  | .max o => [⟨some 5, false, o.d, false, true⟩, ⟨some 4, false, o.a, true, false⟩, ⟨some 3, false, o.b, true, false⟩]
  | .clz o => [⟨some 5, false, o.d, false, true⟩, ⟨some 4, false, o.a, true, false⟩]
  | .ctz o => [⟨some 5, false, o.d, false, true⟩, ⟨some 4, false, o.a, true, false⟩]
  | .popc o => [⟨some 5, false, o.d, false, true⟩, ⟨some 4, false, o.a, true, false⟩]
  | .mov o => [⟨some 5, false, o.d, false, true⟩, ⟨some 4, false, o.a, true, false⟩]
  | .addi o => [⟨some 5, false, o.d, false, true⟩, ⟨some 4, false, o.a, true, false⟩]
  | .addiLit o => [⟨some 5, false, o.d, false, true⟩, ⟨some 4, false, o.a, true, false⟩]
  | .adda o => [⟨some 5, false, o.d, false, true⟩, ⟨some 4, false, o.a, true, false⟩] ++ o.src.roles
  | .suba o => [⟨some 5, false, o.d, false, true⟩, ⟨some 4, false, o.a, true, false⟩] ++ o.src.roles
  | .tags o => [⟨some 5, false, o.d, false, true⟩, ⟨some 4, false, o.a, true, false⟩] ++ o.src.roles
  | .tagg o => [⟨some 5, false, o.d, false, true⟩, ⟨some 4, false, o.a, true, false⟩]
  | .mul o => [⟨some 5, false, o.d, false, true⟩, ⟨some 4, false, o.a, true, false⟩, ⟨some 3, false, o.b, true, false⟩]
  | .mulh o => [⟨some 5, false, o.d, false, true⟩, ⟨some 4, false, o.a, true, false⟩, ⟨some 3, false, o.b, true, false⟩]
  | .div o => [⟨some 5, false, o.d, false, true⟩, ⟨some 4, false, o.a, true, false⟩, ⟨some 3, false, o.b, true, false⟩]
  | .rem o => [⟨some 5, false, o.d, false, true⟩, ⟨some 4, false, o.a, true, false⟩, ⟨some 3, false, o.b, true, false⟩]
  | .bfxu o => [⟨some 5, false, o.d, false, true⟩, ⟨some 4, false, o.a, true, false⟩]
  | .bfxs o => [⟨some 5, false, o.d, false, true⟩, ⟨some 4, false, o.a, true, false⟩]
  | .bfi o => [⟨some 5, false, o.d, true, true⟩, ⟨some 4, false, o.a, true, false⟩]
  | .shli o => [⟨some 5, false, o.d, false, true⟩, ⟨some 4, false, o.a, true, false⟩]
  | .shri o => [⟨some 5, false, o.d, false, true⟩, ⟨some 4, false, o.a, true, false⟩]
  | .srai o => [⟨some 5, false, o.d, false, true⟩, ⟨some 4, false, o.a, true, false⟩]
  | .rori o => [⟨some 5, false, o.d, false, true⟩, ⟨some 4, false, o.a, true, false⟩]
  | .movi o => [⟨some 5, false, o.d, false, true⟩]
  | .moviLit o => [⟨some 5, false, o.d, false, true⟩]
  | .cmpeq o => [⟨some 5, false, o.d, false, true⟩, ⟨some 4, false, o.a, true, false⟩, ⟨some 3, false, o.b, true, false⟩]
  | .cmpne o => [⟨some 5, false, o.d, false, true⟩, ⟨some 4, false, o.a, true, false⟩, ⟨some 3, false, o.b, true, false⟩]
  | .cmplt o => [⟨some 5, false, o.d, false, true⟩, ⟨some 4, false, o.a, true, false⟩, ⟨some 3, false, o.b, true, false⟩]
  | .cmple o => [⟨some 5, false, o.d, false, true⟩, ⟨some 4, false, o.a, true, false⟩, ⟨some 3, false, o.b, true, false⟩]
  | .sel o => [⟨some 5, false, o.d, true, true⟩, ⟨some 4, false, o.a, true, false⟩, ⟨some 3, false, o.b, true, false⟩]
  | .fadd o => [⟨some 5, false, o.d, false, true⟩, ⟨some 4, false, o.a, true, false⟩, ⟨some 3, false, o.b, true, false⟩]
  | .fsub o => [⟨some 5, false, o.d, false, true⟩, ⟨some 4, false, o.a, true, false⟩, ⟨some 3, false, o.b, true, false⟩]
  | .fmul o => [⟨some 5, false, o.d, false, true⟩, ⟨some 4, false, o.a, true, false⟩, ⟨some 3, false, o.b, true, false⟩]
  | .fma o => [⟨some 5, false, o.d, true, true⟩, ⟨some 4, false, o.a, true, false⟩, ⟨some 3, false, o.b, true, false⟩]
  | .fmin o => [⟨some 5, false, o.d, false, true⟩, ⟨some 4, false, o.a, true, false⟩, ⟨some 3, false, o.b, true, false⟩]
  | .fmax o => [⟨some 5, false, o.d, false, true⟩, ⟨some 4, false, o.a, true, false⟩, ⟨some 3, false, o.b, true, false⟩]
  | .fneg o => [⟨some 5, false, o.d, false, true⟩, ⟨some 4, false, o.a, true, false⟩]
  | .fcmpeq o => [⟨some 5, false, o.d, false, true⟩, ⟨some 4, false, o.a, true, false⟩, ⟨some 3, false, o.b, true, false⟩]
  | .fcmplt o => [⟨some 5, false, o.d, false, true⟩, ⟨some 4, false, o.a, true, false⟩, ⟨some 3, false, o.b, true, false⟩]
  | .fcmple o => [⟨some 5, false, o.d, false, true⟩, ⟨some 4, false, o.a, true, false⟩, ⟨some 3, false, o.b, true, false⟩]
  | .cvt o => [⟨some 5, false, o.d, false, true⟩, ⟨some 4, false, o.a, true, false⟩]
  | .beq o => [⟨some 4, false, o.a, true, false⟩, ⟨some 3, false, o.b, true, false⟩]
  | .bne o => [⟨some 4, false, o.a, true, false⟩, ⟨some 3, false, o.b, true, false⟩]
  | .blt o => [⟨some 4, false, o.a, true, false⟩, ⟨some 3, false, o.b, true, false⟩]
  | .bge o => [⟨some 4, false, o.a, true, false⟩, ⟨some 3, false, o.b, true, false⟩]
  | .bltu o => [⟨some 4, false, o.a, true, false⟩, ⟨some 3, false, o.b, true, false⟩]
  | .bgeu o => [⟨some 4, false, o.a, true, false⟩, ⟨some 3, false, o.b, true, false⟩]
  | .call _ => [⟨none, false, 7, false, true⟩]
  | .jmpi o => [⟨some 4, false, o.a, true, false⟩]
  | .calli o => [⟨some 4, false, o.a, true, false⟩, ⟨none, false, 7, false, true⟩]
  | .ret => [⟨none, false, 7, true, false⟩]
  | .rdsr o => ⟨some 5, false, o.d, false, true⟩ :: (if o.sr == 0 then [⟨some 4, false, o.a, true, false⟩] else [])
  | .probe o => [⟨some 5, false, o.d, false, true⟩, ⟨some 4, o.vec, o.a, false, false⟩]
  | .ld o => [⟨some 4, false, o.base, true, o.pi⟩, ⟨some 5, false, o.d, false, true⟩]
  | .st o => [⟨some 4, false, o.base, true, o.pi⟩, ⟨some 5, false, o.s, true, false⟩]
  | .lde o => [⟨some 4, false, o.base, true, o.pi⟩, ⟨some 5, false, o.d, false, true⟩]
  | .ste o => [⟨some 4, false, o.base, true, o.pi⟩, ⟨some 5, false, o.s, true, false⟩]
  | .ldAcq o => [⟨some 5, false, o.d, false, true⟩, ⟨some 4, false, o.base, true, false⟩]
  | .ldc o => [⟨some 5, false, o.d, false, true⟩, ⟨some 4, false, o.base, true, false⟩]
  | .lds o => [⟨some 5, false, o.d, false, true⟩, ⟨some 4, false, o.base, true, false⟩, ⟨some 2, false, o.c, true, false⟩]
  | .stRel o => [⟨some 4, false, o.base, true, false⟩, ⟨some 5, false, o.s, true, false⟩]
  | .amo o => [⟨some 5, false, o.d, false, true⟩, ⟨some 4, false, o.base, true, false⟩, ⟨some 2, false, o.c, true, false⟩] ++ (if o.op == .cas then [⟨some 1, false, o.e, true, false⟩] else [])
  | .spresize o => [⟨some 5, false, o.d, false, true⟩, ⟨some 4, false, o.a, true, false⟩]
  | .flushs o => [⟨some 4, false, o.a, true, false⟩, ⟨some 3, false, o.b, true, false⟩]
  | .invs o => [⟨some 4, false, o.a, true, false⟩, ⟨some 3, false, o.b, true, false⟩]
  | .pref o => [⟨some 4, false, o.a, true, false⟩]
  | .send o => [⟨some 4, false, o.a, true, false⟩, ⟨some 3, true, o.b, true, false⟩]
  | .tsend o => [⟨some 4, false, o.a, true, false⟩, ⟨some 3, true, o.b, true, false⟩]
  | .recv o => [⟨some 5, false, o.d, false, true⟩, ⟨some 4, false, o.a, true, false⟩, ⟨some 3, false, o.b, true, false⟩]
  | .rcancel o => [⟨some 5, false, o.d, false, true⟩, ⟨some 4, false, o.a, false, false⟩]
  | .chwr o => [⟨some 5, false, o.d, true, false⟩, ⟨some 4, false, o.a, true, false⟩, ⟨some 3, false, o.b, true, false⟩]
  | .chmsk o => [⟨some 5, false, o.d, false, true⟩, ⟨some 4, false, o.a, true, false⟩, ⟨some 3, false, o.b, true, false⟩]
  | .chrd o => [⟨some 5, false, o.d, false, true⟩, ⟨some 4, false, o.a, true, false⟩]
  | .spawn o => [⟨some 4, false, o.a, true, false⟩]
  | .haltr o => [⟨some 4, false, o.a, true, false⟩]
  | .freg o => [⟨some 4, false, o.a, true, false⟩, ⟨some 3, false, o.b, true, false⟩]
  | .fres o => [⟨some 4, false, o.a, true, false⟩, ⟨some 3, false, o.b, true, false⟩]
  | .fcancel o => [⟨some 4, false, o.a, true, false⟩]
  | .freset o => [⟨some 4, false, o.a, true, false⟩]
  | .fwait o => [⟨some 5, false, o.d, false, true⟩, ⟨some 4, false, o.a, true, false⟩, ⟨some 2, false, o.c, true, false⟩]
  | .barcfg o => [⟨some 4, false, o.a, true, false⟩, ⟨some 3, false, o.b, true, false⟩]
  | .bar o => [⟨some 5, false, o.d, false, true⟩, ⟨some 2, false, o.c, true, false⟩]
  | .bararv o => [⟨some 5, false, o.d, false, true⟩]
  | .barwt o => [⟨some 5, false, o.d, false, true⟩, ⟨some 4, false, o.a, true, false⟩, ⟨some 2, false, o.c, true, false⟩]
  | .barrd o => [⟨some 5, false, o.d, false, true⟩]
  | .qpush o => [⟨some 4, false, o.a, true, false⟩, ⟨some 2, false, o.c, true, false⟩]
  | .qpop o => [⟨some 5, false, o.d, false, true⟩, ⟨some 2, false, o.c, true, false⟩]
  | .qdwr o => [⟨some 4, false, o.a, true, false⟩]
  | .qdrd o => [⟨some 5, false, o.d, false, true⟩]
  | .permitFree o => [⟨some 4, false, o.a, true, false⟩]
  | .permitStore o => [⟨some 4, false, o.a, true, false⟩, ⟨some 3, false, o.b, true, false⟩]
  | .wlinit o => [⟨some 4, false, o.a, true, false⟩]
  | .wlpush o => [⟨some 5, false, o.d, false, true⟩, ⟨some 4, false, o.a, true, false⟩, ⟨some 3, false, o.b, true, false⟩]
  | .wlins o => [⟨some 5, false, o.d, false, true⟩, ⟨some 4, false, o.a, true, false⟩, ⟨some 3, false, o.b, true, false⟩]
  | .wlpopb o => [⟨some 5, false, o.d, false, true⟩, ⟨some 4, false, o.a, true, false⟩, ⟨some 3, true, o.b, false, true⟩]
  | .wlstat o => [⟨some 5, false, o.d, false, true⟩, ⟨some 4, false, o.a, true, false⟩]
  | .wlfree o => [⟨some 4, false, o.a, true, false⟩]
  | .subscr o => [⟨some 5, false, o.d, false, true⟩, ⟨some 4, false, o.a, true, false⟩, ⟨some 3, false, o.b, true, false⟩]
  | .unsub o => [⟨some 4, false, o.a, true, false⟩]
  | .substat o => [⟨some 5, false, o.d, false, true⟩, ⟨some 4, false, o.a, true, false⟩]
  | .vadd o => [⟨some 5, true, o.d, false, true⟩, ⟨some 4, true, o.a, true, false⟩, ⟨some 3, true, o.b, true, false⟩] ++ o.form.roles
  | .vsub o => [⟨some 5, true, o.d, false, true⟩, ⟨some 4, true, o.a, true, false⟩, ⟨some 3, true, o.b, true, false⟩] ++ o.form.roles
  | .vand o => [⟨some 5, true, o.d, false, true⟩, ⟨some 4, true, o.a, true, false⟩, ⟨some 3, true, o.b, true, false⟩] ++ o.form.roles
  | .vor o => [⟨some 5, true, o.d, false, true⟩, ⟨some 4, true, o.a, true, false⟩, ⟨some 3, true, o.b, true, false⟩] ++ o.form.roles
  | .vxor o => [⟨some 5, true, o.d, false, true⟩, ⟨some 4, true, o.a, true, false⟩, ⟨some 3, true, o.b, true, false⟩] ++ o.form.roles
  | .vandn o => [⟨some 5, true, o.d, false, true⟩, ⟨some 4, true, o.a, true, false⟩, ⟨some 3, true, o.b, true, false⟩] ++ o.form.roles
  | .vshl o => [⟨some 5, true, o.d, false, true⟩, ⟨some 4, true, o.a, true, false⟩, ⟨some 3, true, o.b, true, false⟩] ++ o.form.roles
  | .vshr o => [⟨some 5, true, o.d, false, true⟩, ⟨some 4, true, o.a, true, false⟩, ⟨some 3, true, o.b, true, false⟩] ++ o.form.roles
  | .vsra o => [⟨some 5, true, o.d, false, true⟩, ⟨some 4, true, o.a, true, false⟩, ⟨some 3, true, o.b, true, false⟩] ++ o.form.roles
  | .vmin o => [⟨some 5, true, o.d, false, true⟩, ⟨some 4, true, o.a, true, false⟩, ⟨some 3, true, o.b, true, false⟩] ++ o.form.roles
  | .vmax o => [⟨some 5, true, o.d, false, true⟩, ⟨some 4, true, o.a, true, false⟩, ⟨some 3, true, o.b, true, false⟩] ++ o.form.roles
  | .vfadd o => [⟨some 5, true, o.d, false, true⟩, ⟨some 4, true, o.a, true, false⟩, ⟨some 3, true, o.b, true, false⟩] ++ o.form.roles
  | .vfsub o => [⟨some 5, true, o.d, false, true⟩, ⟨some 4, true, o.a, true, false⟩, ⟨some 3, true, o.b, true, false⟩] ++ o.form.roles
  | .vfmul o => [⟨some 5, true, o.d, false, true⟩, ⟨some 4, true, o.a, true, false⟩, ⟨some 3, true, o.b, true, false⟩] ++ o.form.roles
  | .vfma o => [⟨some 5, true, o.d, true, true⟩, ⟨some 4, true, o.a, true, false⟩, ⟨some 3, true, o.b, true, false⟩] ++ o.form.roles
  | .vfmin o => [⟨some 5, true, o.d, false, true⟩, ⟨some 4, true, o.a, true, false⟩, ⟨some 3, true, o.b, true, false⟩] ++ o.form.roles
  | .vfmax o => [⟨some 5, true, o.d, false, true⟩, ⟨some 4, true, o.a, true, false⟩, ⟨some 3, true, o.b, true, false⟩] ++ o.form.roles
  | .vfneg o => [⟨some 5, true, o.d, false, true⟩, ⟨some 4, true, o.a, true, false⟩] ++ o.form.roles
  | .vrcp o => [⟨some 5, true, o.d, false, true⟩, ⟨some 4, true, o.a, true, false⟩] ++ o.form.roles
  | .vrsq o => [⟨some 5, true, o.d, false, true⟩, ⟨some 4, true, o.a, true, false⟩] ++ o.form.roles
  | .vcmpeq o => [⟨some 5, false, o.d, false, true⟩, ⟨some 4, true, o.a, true, false⟩, ⟨some 3, true, o.b, true, false⟩] ++ o.form.roles
  | .vcmpne o => [⟨some 5, false, o.d, false, true⟩, ⟨some 4, true, o.a, true, false⟩, ⟨some 3, true, o.b, true, false⟩] ++ o.form.roles
  | .vcmplt o => [⟨some 5, false, o.d, false, true⟩, ⟨some 4, true, o.a, true, false⟩, ⟨some 3, true, o.b, true, false⟩] ++ o.form.roles
  | .vcmple o => [⟨some 5, false, o.d, false, true⟩, ⟨some 4, true, o.a, true, false⟩, ⟨some 3, true, o.b, true, false⟩] ++ o.form.roles
  | .vfcmpeq o => [⟨some 5, false, o.d, false, true⟩, ⟨some 4, true, o.a, true, false⟩, ⟨some 3, true, o.b, true, false⟩] ++ o.form.roles
  | .vfcmplt o => [⟨some 5, false, o.d, false, true⟩, ⟨some 4, true, o.a, true, false⟩, ⟨some 3, true, o.b, true, false⟩] ++ o.form.roles
  | .vfcmple o => [⟨some 5, false, o.d, false, true⟩, ⟨some 4, true, o.a, true, false⟩, ⟨some 3, true, o.b, true, false⟩] ++ o.form.roles
  | .vsel o => [⟨some 5, true, o.d, true, true⟩, ⟨some 4, true, o.a, true, false⟩, ⟨some 3, false, o.b, true, false⟩] ++ o.form.roles
  | .vcvt o => [⟨some 5, true, o.d, false, true⟩, ⟨some 4, true, o.a, true, false⟩] ++ o.form.roles
  | .vmov o => [⟨some 5, true, o.d, false, true⟩, ⟨some 4, true, o.a, true, false⟩] ++ o.form.roles
  | .vbcast o => [⟨some 5, true, o.d, false, true⟩, ⟨some 4, false, o.a, true, false⟩] ++ o.form.roles
  | .vins o => [⟨some 5, true, o.d, true, true⟩, ⟨some 4, false, o.a, true, false⟩]
  | .vext o => [⟨some 5, false, o.d, false, true⟩, ⟨some 4, true, o.a, true, false⟩]
  | .viota o => [⟨some 5, true, o.d, false, true⟩] ++ o.form.roles
  | .vshuf o => [⟨some 5, true, o.d, true, true⟩, ⟨some 4, true, o.a, true, false⟩, ⟨some 3, true, o.b, true, false⟩] ++ o.form.roles
  | .vmul o => [⟨some 5, true, o.d, false, true⟩, ⟨some 4, true, o.a, true, false⟩, ⟨some 3, true, o.b, true, false⟩] ++ o.form.roles
  | .vmulh o => [⟨some 5, true, o.d, false, true⟩, ⟨some 4, true, o.a, true, false⟩, ⟨some 3, true, o.b, true, false⟩] ++ o.form.roles
  | .vdiv o => [⟨some 5, true, o.d, false, true⟩, ⟨some 4, true, o.a, true, false⟩, ⟨some 3, true, o.b, true, false⟩] ++ o.form.roles
  | .vrem o => [⟨some 5, true, o.d, false, true⟩, ⟨some 4, true, o.a, true, false⟩, ⟨some 3, true, o.b, true, false⟩] ++ o.form.roles
  | .vshli o => [⟨some 5, true, o.d, false, true⟩, ⟨some 4, true, o.a, true, false⟩] ++ o.form.roles
  | .vshri o => [⟨some 5, true, o.d, false, true⟩, ⟨some 4, true, o.a, true, false⟩] ++ o.form.roles
  | .vsrai o => [⟨some 5, true, o.d, false, true⟩, ⟨some 4, true, o.a, true, false⟩] ++ o.form.roles
  | .vld o => [⟨some 4, false, o.base, true, o.pi⟩, ⟨some 5, true, o.r, false, true⟩] ++ o.form.roles
  | .vst o => [⟨some 4, false, o.base, true, o.pi⟩, ⟨some 5, true, o.r, true, false⟩] ++ o.form.roles
  | .vlde o => [⟨some 4, false, o.base, true, o.pi⟩, ⟨some 5, true, o.r, false, true⟩] ++ o.form.roles
  | .vste o => [⟨some 4, false, o.base, true, o.pi⟩, ⟨some 5, true, o.r, true, false⟩] ++ o.form.roles
  | .vldx o => [⟨some 4, false, o.base, true, false⟩, ⟨some 5, true, o.r, false, true⟩, ⟨some 3, true, o.x, true, false⟩] ++ o.form.roles
  | .vstx o => [⟨some 4, false, o.base, true, false⟩, ⟨some 5, true, o.r, true, false⟩, ⟨some 3, true, o.x, true, false⟩] ++ o.form.roles
  | .vlsld o => [⟨some 4, true, o.base, true, o.pi⟩, ⟨some 5, true, o.r, false, true⟩] ++ o.form.roles
  | .vlsst o => [⟨some 4, true, o.base, true, o.pi⟩, ⟨some 5, true, o.r, true, false⟩] ++ o.form.roles
  | .vsp o => [⟨some 5, false, o.d, true, true⟩, ⟨some 4, false, o.a, true, true⟩, ⟨some 3, false, o.b, true, true⟩, ⟨some 2, false, o.c, true, true⟩] ++ maskRoles o.mask
  | .vred o => [⟨some 5, false, o.d, false, true⟩, ⟨some 4, true, o.a, true, false⟩] ++ maskRoles o.mask
  | .vtopk o => [⟨some 5, false, o.d, false, true⟩, ⟨some 4, false, o.a, true, false⟩, ⟨some 3, false, o.b, true, false⟩, ⟨some 2, false, o.c, true, false⟩, ⟨some 1, false, o.e, true, false⟩]
  | .mxlease o => [⟨some 2, false, o.c, true, false⟩]
  | .tcfg o => [⟨some 4, false, o.a, true, false⟩]
  | .mxwait o => [⟨some 2, false, o.c, true, false⟩]
  | .mxlda o => [⟨some 4, false, o.a, true, false⟩, ⟨some 3, false, o.b, true, false⟩, ⟨some 2, false, o.c, true, false⟩, ⟨some 1, false, o.e, true, false⟩]
  | .mxldb o => [⟨some 4, false, o.a, true, false⟩, ⟨some 3, false, o.b, true, false⟩, ⟨some 2, false, o.c, true, false⟩, ⟨some 1, false, o.e, true, false⟩]
  | .mxmul o => [⟨some 4, false, o.a, true, false⟩, ⟨some 3, false, o.b, true, false⟩, ⟨some 2, false, o.c, true, false⟩]
  | .mxtern o => [⟨some 4, false, o.a, true, false⟩, ⟨some 3, false, o.b, true, false⟩, ⟨some 2, false, o.c, true, false⟩]
  | .mxdrain o => [⟨some 4, false, o.a, true, false⟩, ⟨some 3, false, o.b, true, false⟩, ⟨some 2, false, o.c, true, false⟩]
  | .mxstat o => [⟨some 5, false, o.d, false, true⟩]
  | .nbcfg o => [⟨some 4, false, o.a, true, false⟩, ⟨some 3, false, o.b, true, false⟩]
  | .nbmv o => [⟨some 4, false, o.a, true, false⟩, ⟨some 3, false, o.b, true, false⟩, ⟨some 2, false, o.c, true, false⟩, ⟨some 1, false, o.e, true, false⟩, ⟨some 0, false, o.f, true, false⟩]
  | .nbstat o => [⟨some 5, false, o.d, false, true⟩, ⟨some 4, false, o.a, true, false⟩]
  | .cpy o => [⟨some 4, false, o.a, true, false⟩, ⟨some 3, false, o.b, true, false⟩, ⟨some 2, false, o.c, true, false⟩, ⟨some 1, false, o.e, true, false⟩, ⟨some 0, false, o.f, true, false⟩]
  | .cpyt o => [⟨some 4, false, o.a, true, false⟩, ⟨some 3, false, o.b, true, false⟩, ⟨some 2, false, o.c, true, false⟩, ⟨some 1, false, o.e, true, false⟩, ⟨some 0, false, o.f, true, false⟩]
  | .syncwait o => [⟨some 5, false, o.d, false, true⟩, ⟨some 4, false, o.a, true, false⟩, ⟨some 3, false, o.b, true, false⟩, ⟨some 2, false, o.c, true, false⟩]
  | .syncadd o => [⟨some 4, false, o.a, true, false⟩, ⟨some 3, false, o.b, true, false⟩]
  | .gather o => [⟨some 4, false, o.a, true, false⟩, ⟨some 3, false, o.b, true, false⟩, ⟨some 2, false, o.c, true, false⟩, ⟨some 1, false, o.e, true, false⟩, ⟨some 0, false, o.f, true, false⟩]
  | .twrun o => [⟨some 4, false, o.a, true, false⟩, ⟨some 2, false, o.c, true, false⟩]
  | .twstat o => [⟨some 5, false, o.d, false, true⟩]
  | .cestat o => [⟨some 5, false, o.d, false, true⟩]
  | .gvar o => [⟨some 5, false, o.d, false, true⟩, ⟨some 4, false, o.a, true, false⟩, ⟨some 3, false, o.b, true, false⟩, ⟨some 2, false, o.c, true, false⟩, ⟨some 1, false, o.e, true, false⟩, ⟨some 0, false, o.f, true, false⟩]
  | .gfac o => [⟨some 5, false, o.d, false, true⟩, ⟨some 4, false, o.a, true, false⟩, ⟨some 3, false, o.b, true, false⟩, ⟨some 2, false, o.c, true, false⟩, ⟨some 1, false, o.e, true, false⟩, ⟨some 0, false, o.f, true, false⟩]
  | .glink o => [⟨some 5, false, o.d, false, true⟩, ⟨some 4, false, o.a, true, false⟩, ⟨some 3, false, o.b, true, false⟩, ⟨some 2, false, o.c, true, false⟩]
  | .gfmsg o => [⟨some 5, false, o.d, false, true⟩, ⟨some 4, false, o.a, true, false⟩, ⟨some 3, false, o.b, true, false⟩]
  | .gdamp o => [⟨some 4, false, o.a, true, false⟩, ⟨some 3, false, o.b, true, false⟩]
  | .gtol o => [⟨some 4, false, o.a, true, false⟩, ⟨some 3, false, o.b, true, false⟩]
  | .grelin o => [⟨some 4, false, o.a, true, false⟩, ⟨some 3, false, o.b, true, false⟩]
  | .gread o => [⟨some 5, true, o.d, false, true⟩, ⟨some 4, false, o.a, true, false⟩, ⟨some 3, false, o.b, true, false⟩]
  | .gsnap o => [⟨some 5, false, o.d, false, true⟩, ⟨some 4, false, o.a, true, false⟩, ⟨some 3, false, o.b, true, false⟩, ⟨some 2, false, o.c, true, false⟩]
  | .gcvg o => [⟨some 5, false, o.d, false, true⟩, ⟨some 4, false, o.a, true, false⟩]
  | .gfree o => [⟨some 4, false, o.a, true, false⟩]
  | .launch o => [⟨some 4, false, o.a, true, false⟩]
  | .coll o => [⟨some 5, o.vec, o.d, false, true⟩, ⟨some 4, false, o.a, true, false⟩, ⟨some 3, o.vec, o.b, true, false⟩, ⟨some 2, false, o.c, true, false⟩]
  | .resume o => [⟨some 4, false, o.a, true, false⟩]
  | .killk o => [⟨some 4, false, o.a, true, false⟩]
  | .dwrd o => [⟨some 5, false, o.d, false, true⟩, ⟨some 4, false, o.a, true, false⟩, ⟨some 3, false, o.b, true, false⟩, ⟨some 2, false, o.c, false, true⟩]
  | .dwwr o => [⟨some 4, false, o.a, true, false⟩, ⟨some 3, false, o.b, true, false⟩, ⟨some 2, false, o.c, false, true⟩, ⟨some 1, false, o.e, true, false⟩]
  | .sysrd o => [⟨some 5, false, o.d, false, true⟩, ⟨some 4, false, o.a, true, false⟩]
  | .syswr o => [⟨some 4, false, o.a, true, false⟩, ⟨some 3, false, o.b, true, false⟩]
  | .mext o => [⟨some 4, false, o.a, true, false⟩, ⟨some 3, false, o.b, true, false⟩]
  | .tlbsync o => [⟨some 4, false, o.a, true, false⟩, ⟨some 3, false, o.b, true, false⟩]
  | .preempt o => [⟨some 5, false, o.d, false, true⟩, ⟨some 4, false, o.a, true, false⟩, ⟨some 3, false, o.b, true, false⟩, ⟨some 2, false, o.c, true, false⟩]
  | .restore o => [⟨some 5, false, o.d, false, true⟩, ⟨some 4, false, o.a, true, false⟩]
  | .migrate o => [⟨some 5, false, o.d, false, true⟩, ⟨some 4, false, o.a, true, false⟩, ⟨some 3, false, o.b, true, false⟩, ⟨some 2, false, o.c, true, false⟩]
  | .ckptFull o => [⟨some 5, false, o.d, false, true⟩, ⟨some 4, false, o.a, true, false⟩]
  | .ckptIncremental o => [⟨some 5, false, o.d, false, true⟩, ⟨some 4, false, o.a, true, false⟩]
  | .ckptRestore o => [⟨some 5, false, o.d, false, true⟩, ⟨some 4, false, o.a, true, false⟩]
  | .ckptResume o => [⟨some 5, false, o.d, false, true⟩, ⟨some 4, false, o.a, true, false⟩]
  | .trap o => [⟨some 4, true, o.a, true, false⟩]
  | .hgtrig o => [⟨some 4, false, o.a, true, false⟩]
  | .hgrel o => [⟨some 4, false, o.a, true, false⟩]
  | .hgstat o => [⟨some 5, false, o.d, false, true⟩, ⟨some 4, false, o.a, true, false⟩]
  | _ => []

/-- The E bits of an instruction (R240). -/
def Instr.ebits : Instr → BitVec 6
  | .add o => o.form.e
  | .sub o => o.form.e
  | .and o => o.form.e
  | .or o => o.form.e
  | .xor o => o.form.e
  | .andn o => o.form.e
  | .shl o => o.form.e
  | .shr o => o.form.e
  | .sra o => o.form.e
  | .min o => o.form.e
  | .max o => o.form.e
  | .clz o => o.form.e
  | .ctz o => o.form.e
  | .popc o => o.form.e
  | .mov o => o.form.e
  | .adda o => o.form.e
  | .suba o => o.form.e
  | .tags o => o.form.e
  | .tagg o => o.form.e
  | .mul o => o.form.e
  | .mulh o => o.form.e
  | .div o => o.form.e
  | .rem o => o.form.e
  | .cmpeq o => o.form.e
  | .cmpne o => o.form.e
  | .cmplt o => o.form.e
  | .cmple o => o.form.e
  | .sel o => o.form.e
  | .fadd o => o.form.e
  | .fsub o => o.form.e
  | .fmul o => o.form.e
  | .fma o => o.form.e
  | .fmin o => o.form.e
  | .fmax o => o.form.e
  | .fneg o => o.form.e
  | .fcmpeq o => o.form.e
  | .fcmplt o => o.form.e
  | .fcmple o => o.form.e
  | .cvt o => o.form.e
  | .ld o => o.form.e
  | .st o => o.form.e
  | .lde o => o.form.e
  | .ste o => o.form.e
  | .ldAcq o => o.form.e
  | .ldc o => o.form.e
  | .lds o => o.form.e
  | .stRel o => o.form.e
  | .amo o => o.eb
  | .fence o => o.form.e
  | .spresize o => o.form.e
  | .flushs o => o.form.e
  | .invs o => o.form.e
  | .pref o => o.form.e
  | .send o => o.form.e
  | .tsend o => o.form.e
  | .recv o => o.form.e
  | .rcancel o => o.form.e
  | .chwr o => o.form.e
  | .chmsk o => o.form.e
  | .chrd o => o.form.e
  | .freg o => o.form.e
  | .fres o => o.form.e
  | .fcancel o => o.form.e
  | .freset o => o.form.e
  | .fwait o => o.form.e
  | .barcfg o => o.form.e
  | .bar o => o.form.e
  | .bararv o => o.form.e
  | .bardrop o => o.form.e
  | .barwt o => o.form.e
  | .barrd o => o.form.e
  | .qpush o => o.form.e
  | .qpop o => o.form.e
  | .qdwr o => o.form.e
  | .qdrd o => o.form.e
  | .permitFree o => o.form.e
  | .permitStore o => o.form.e
  | .wlinit o => o.form.e
  | .wlpush o => o.form.e
  | .wlins o => o.form.e
  | .wlpopb o => o.form.e
  | .wlstat o => o.form.e
  | .wlfree o => o.form.e
  | .subscr o => o.form.e
  | .unsub o => o.form.e
  | .substat o => o.form.e
  | .vadd o => o.form.e
  | .vsub o => o.form.e
  | .vand o => o.form.e
  | .vor o => o.form.e
  | .vxor o => o.form.e
  | .vandn o => o.form.e
  | .vshl o => o.form.e
  | .vshr o => o.form.e
  | .vsra o => o.form.e
  | .vmin o => o.form.e
  | .vmax o => o.form.e
  | .vfadd o => o.form.e
  | .vfsub o => o.form.e
  | .vfmul o => o.form.e
  | .vfma o => o.form.e
  | .vfmin o => o.form.e
  | .vfmax o => o.form.e
  | .vfneg o => o.form.e
  | .vrcp o => o.form.e
  | .vrsq o => o.form.e
  | .vcmpeq o => o.form.e
  | .vcmpne o => o.form.e
  | .vcmplt o => o.form.e
  | .vcmple o => o.form.e
  | .vfcmpeq o => o.form.e
  | .vfcmplt o => o.form.e
  | .vfcmple o => o.form.e
  | .vsel o => o.form.e
  | .vcvt o => o.form.e
  | .vmov o => o.form.e
  | .vbcast o => o.form.e
  | .vins o => o.form.e
  | .vext o => o.form.e
  | .viota o => o.form.e
  | .vshuf o => o.form.e
  | .vmul o => o.form.e
  | .vmulh o => o.form.e
  | .vdiv o => o.form.e
  | .vrem o => o.form.e
  | .vshli o => o.form.e
  | .vshri o => o.form.e
  | .vsrai o => o.form.e
  | .vld o => o.form.e
  | .vst o => o.form.e
  | .vlde o => o.form.e
  | .vste o => o.form.e
  | .vldx o => o.form.e
  | .vstx o => o.form.e
  | .vlsld o => o.form.e
  | .vlsst o => o.form.e
  | .vsp o => o.eb
  | .vred o => o.eb
  | .vtopk o => o.eb
  | .mxlease o => o.eb
  | .tcfg o => o.eb
  | .mxwait o => o.eb
  | .mxlda o => o.eb
  | .mxldb o => o.eb
  | .mxmul o => o.eb
  | .mxtern o => o.eb
  | .mxdrain o => o.eb
  | .nbcfg o => o.eb
  | .nbmv o => o.eb
  | .nbstat o => o.eb
  | .cpy o => o.eb
  | .cpyt o => o.eb
  | .syncwait o => o.eb
  | .syncadd o => o.eb
  | .gather o => o.eb
  | .twrun o => o.eb
  | .gvar o => o.eb
  | .gfac o => o.eb
  | .glink o => o.eb
  | .gfmsg o => o.eb
  | .gdamp o => o.eb
  | .gtol o => o.eb
  | .grelin o => o.eb
  | .gread o => o.eb
  | .gsnap o => o.eb
  | .gcvg o => o.eb
  | .gfree o => o.eb
  | .coll o => o.eb
  | .resume o => o.eb
  | .killk o => o.eb
  | .dwrd o => o.eb
  | .dwwr o => o.eb
  | .sysrd o => o.eb
  | .syswr o => o.eb
  | .mext o => o.eb
  | .tlbsync o => o.eb
  | .preempt o => o.eb
  | .restore o => o.eb
  | .migrate o => o.eb
  | .ckptFull o => o.eb
  | .ckptIncremental o => o.eb
  | .ckptRestore o => o.eb
  | .ckptResume o => o.eb
  | .trap o => o.eb
  | .hgtrig o => o.eb
  | .hgrel o => o.eb
  | .hgstat o => o.eb
  | _ => 0

/-- The field rules of the entries whose breach gives fault 0x01 or 0x02 from the encoding alone. -/
def Instr.fieldsOk : Instr → Bool
  | .addi o => !(o.d == 0 && o.a == 0 && o.imm == 0)
  | .bfxu o => decide (o.pos.toNat + o.lm.toNat + 1 ≤ 64)
  | .bfxs o => decide (o.pos.toNat + o.lm.toNat + 1 ≤ 64)
  | .bfi o => decide (o.pos.toNat + o.lm.toNat + 1 ≤ 64)
  | .fadd o => (o.form != .base || o.fmt == .f32)
  | .fsub o => (o.form != .base || o.fmt == .f32)
  | .fmul o => (o.form != .base || o.fmt == .f32)
  | .fma o => (o.form != .base || o.fmt == .f32)
  | .fmin o => (o.form != .base || o.fmt == .f32)
  | .fmax o => (o.form != .base || o.fmt == .f32)
  | .fneg o => (o.form != .base || o.fmt == .f32)
  | .fcmpeq o => (o.form != .base || o.fmt == .f32)
  | .fcmplt o => (o.form != .base || o.fmt == .f32)
  | .fcmple o => (o.form != .base || o.fmt == .f32)
  | .cvt o => !o.dfmt.isScaled && !o.sfmt.isScaled
  | .rdsr o => srOk o.sr && (o.sr == 0 || o.a == 0)
  | .ld o => !(o.sx && o.sz == 3) && !(o.pi && o.base == 0)
  | .st o => !(o.pi && o.base == 0)
  | .lde o => !(o.pi && o.base == 0) && (o.form != .base || o.rm == .rne)
  | .ste o => !(o.pi && o.base == 0) && (o.form != .base || (o.rm == .rne && !o.sat))
  | .ldAcq o => (o.form != .base || o.scope == .dev)
  | .ldc o => (o.form != .base || o.scope == .dev)
  | .lds o => (o.form != .base || o.c == 0)
  | .stRel o => (o.form != .base || o.scope == .dev)
  | .amo o => amoOk o.op o.fmt o.sat && (o.op == .cas || o.e == 0)
  | .send o => (o.form != .base || o.rel == none)
  | .tsend o => (o.form != .base || o.rel == none)
  | .fwait o => (o.form != .base || o.c == 0)
  | .bar o => (o.form != .base || o.c == 0)
  | .barwt o => (o.form != .base || o.c == 0)
  | .qpush o => (o.form != .base || o.c == 0)
  | .qpop o => (o.form != .base || o.c == 0)
  | .substat o => (o.form != .base || o.scope == .core) && o.scope != .ctx
  | .vcvt o => o.dfmt.isLane && o.sfmt.isLane
  | .vlde o => (!o.form.isBase || o.rm == .rne)
  | .vste o => (!o.form.isBase || (o.rm == .rne && !o.sat))
  | .vsp o => vspOk o.op o.fmt o.sat && (o.fmt == .f32 || o.rm == .rne) && vspRegs o
  | .vred o => (o.fmt != .f32 || !o.op.bitwise)
  | .mxmul o => mxmulOk o.fa o.fb && (!o.sat || Fmt.intPath o.fa o.fb)
  | .mxtern o => mxternOk o.fa o.fb && (!o.sat || Fmt.intPath o.fa o.fb)
  | .nbmv o => nbOk o.sat o.fx
  | .syncwait o => o.scope != .ctx
  | .syncadd o => o.scope != .ctx
  | .coll o => collOk o.op o.vec o.fmt
  | _ => true

/-- Instructions of the table that instruction words encode; the other rows are steps of other agents. The four CKPT rows
share one word, which decodes to `ckptFull`: MODE of the descriptor tells them apart (R378). -/
def Instr.encoded : Instr → Bool
  | .ckptIncremental _ => false
  | .ckptRestore _ => false
  | .ckptResume _ => false
  | .dspcfgWrite => false
  | .sksizeWrite => false
  | .thbootWrite => false
  | .fteWrite => false
  | .ktWrite => false
  | .wsetWrite => false
  | .wpWrite => false
  | .mrgnWrite => false
  | .worldMapWrite => false
  | .traptWrite => false
  | .messageArrive => false
  | .messageReply => false
  | .contextFreeNotice => false
  | .resendTimerExpire => false
  | .withdrawal => false
  | .taskStart => false
  | .launchPlace => false
  | .loadLand => false
  | .accessAccept => false
  | .faultFreeze => false
  | .faultPacketArrive => false
  | .pageFaultPost => false
  | .pageFaultReply => false
  | .directoryRequest => false
  | .writebackApply => false
  | .pageCopyRequest => false
  | .ownershipRequest => false
  | .pageInvalidate => false
  | .ownershipGrant => false
  | .atomicMoved => false
  | .subscriptionUpdateSend => false
  | .subscriptionUpdateApply => false
  | .subscriptionAck => false
  | .subscriptionTeardown => false
  | .gmuArrive => false
  | .gmuBind => false
  | .gmuUnbind => false
  | .barrierSweep => false
  | .collArrive => false
  | .collTimerExpire => false
  | .boundedWaitExpire => false
  | .leaseGrantExpire => false
  | .stagingLanded => false
  | .matrixCommandComplete => false
  | .drainWriteComplete => false
  | .copyPieceLanded => false
  | .copyComplete => false
  | .engineFault => false
  | .gatherBatchLanded => false
  | .tileLoad => false
  | .storePermitAck => false
  | .nbcfgPlaced => false
  | .nbmvComplete => false
  | .preemptAck => false
  | .powerInterval => false
  | .arraySelfTest => false
  | .eccCorrectable => false
  | .poisonMark => false
  | .dieStop => false
  | .thermalWarning => false
  | .thermalStop => false
  | .twillLaneFail => false
  | .remoteTimeout => false
  | .apertureWriteTimeout => false
  | .hostMessageArrive => false
  | .hostLaunch => false
  | .hostMap => false
  | .hostKinst => false
  | .hostCkpt => false
  | .hostAttest => false
  | .hostHgtrig => false
  | .hostHgrel => false
  | .mgmtCtrlRelease => false
  | .mgmtCtrlHold => false
  | .mgmtWrite => false
  | .auxPowerUp => false
  | .mainPowerLoss => false
  | .eviction => false
  | .frameMigration => false
  | .thermalWarningClear => false
  | .mainInputReturn => false
  | _ => true

end Sys2Proof
end

