-- ==== Sys2Proof/WellFormed.lean ====
section
/-! DEFINITION. Well-formed instructions: every E bit stands on a register source (R240) and every field rule of the entry holds. -/

namespace Sys2Proof

/-- A set E bit names a field that the instruction reads as a register (R240). -/
def Instr.eBitsOk (i : Instr) : Bool :=
  (List.range 6).all fun k => !i.ebits.getLsbD k || i.roles.any fun r => r.src && r.bit == some k

/-- An instruction that its encoding rules admit. -/
def Instr.wf (i : Instr) : Bool := i.eBitsOk && i.fieldsOk

end Sys2Proof
end

