-- ==== Sys2Proof/Decode.lean ====
section
/-! DEFINITION. Instruction words (R237 to R242): the decoder, total on any words, and the encoder. `Raw` is an instruction cut into the
fields every format shares; `pick` applies rows 1 to 6 of R242, and a reserved or unused field that is not zero (the last
row) shows as a word that the encoder does not give back. -/

namespace Sys2Proof

/-- Extension words 1 and 2 (R240). `z` is the reserved bit [0] of word 1. -/
structure Ext where
  c     : BitVec 5 := 0
  e     : BitVec 5 := 0
  f     : BitVec 5 := 0
  eb    : BitVec 6 := 0
  scope : BitVec 3 := 0
  order : BitVec 2 := 0
  t1    : BitVec 5 := 0
  z     : BitVec 1 := 0
  t2    : BitVec 5 := 0
  rm    : BitVec 3 := 0
  sat   : Bool := false
  eng   : BitVec 23 := 0
  deriving DecidableEq, Repr

/-- An instruction as opcode, bits [31:8] of word 0, extension and literal (R237). -/
structure Raw where
  opc : BitVec 6
  hi  : BitVec 24
  ext : Option Ext
  lit : Option (BitVec 64)
  deriving DecidableEq, Repr

/-! Formats A, I, M, B and J of R238: bits [31:8] of word 0. -/

def hiA (mod : BitVec 4) (fn b a d : BitVec 5) : BitVec 24 := mod ++ fn ++ b ++ a ++ d
def hiI (imm : BitVec 14) (a d : BitVec 5) : BitVec 24 := imm ++ a ++ d
def hiM (sz sub : BitVec 2) (off : BitVec 10) (base d : BitVec 5) : BitVec 24 := sz ++ sub ++ off ++ base ++ d
def hiB (off : BitVec 10) (cond : BitVec 4) (b a : BitVec 5) : BitVec 24 := off ++ cond ++ b ++ a
def hiJ (off : BitVec 23) (l : BitVec 1) : BitVec 24 := off ++ l

def fMod (h : BitVec 24) : BitVec 4 := h.extractLsb' 20 4
def fFn (h : BitVec 24) : BitVec 5 := h.extractLsb' 15 5
def fB (h : BitVec 24) : BitVec 5 := h.extractLsb' 10 5
def fA (h : BitVec 24) : BitVec 5 := h.extractLsb' 5 5
def fD (h : BitVec 24) : BitVec 5 := h.extractLsb' 0 5
def fImm (h : BitVec 24) : BitVec 14 := h.extractLsb' 10 14
def fSz (h : BitVec 24) : BitVec 2 := h.extractLsb' 22 2
def fSub (h : BitVec 24) : BitVec 2 := h.extractLsb' 20 2
def fPi (h : BitVec 24) : Bool := h.getLsbD 21
def fSx (h : BitVec 24) : Bool := h.getLsbD 20
def fOff (h : BitVec 24) : BitVec 10 := h.extractLsb' 10 10
def fBoff (h : BitVec 24) : BitVec 10 := h.extractLsb' 14 10
def fCond (h : BitVec 24) : BitVec 4 := h.extractLsb' 10 4
def fJoff (h : BitVec 24) : BitVec 23 := h.extractLsb' 1 23
def fL (h : BitVec 24) : BitVec 1 := h.extractLsb' 0 1

/-! Parts of mod. -/

def mSW (sat : Bool) (w : BitVec 2) : BitVec 4 := BitVec.ofBool sat ++ 0#1 ++ w
def mS (m : BitVec 4) : Bool := m.getLsbD 3
def mW (m : BitVec 4) : BitVec 2 := m.extractLsb' 0 2
def mH (m : BitVec 4) : BitVec 2 := m.extractLsb' 2 2
def mRm (m : BitVec 4) : BitVec 3 := m.extractLsb' 1 3
def mLo (m : BitVec 4) : Bool := m.getLsbD 0
def mLo3 (m : BitVec 4) : BitVec 3 := m.extractLsb' 0 3

/-! Codes of enumerated fields and their readers; a reader answers none on an unassigned code. -/

def Width.code : Width → BitVec 2 | .i64 => 0 | .i32 => 1 | .n32 => 2 | .n64 => 3
def Width.of (c : BitVec 2) : Width := match c.toNat with | 0 => .i64 | 1 => .i32 | 2 => .n32 | _ => .n64
def VWidth.code : VWidth → BitVec 2 | .i32 => 1 | .n32 => 2
def VWidth.of (c : BitVec 2) : Option VWidth := match c.toNat with | 1 => some .i32 | 2 => some .n32 | _ => none
def Rm.code : Rm → BitVec 3 | .rne => 0 | .rtz => 1 | .rup => 2 | .rdn => 3 | .rto => 4
def Rm.of (c : BitVec 3) : Option Rm :=
  match c.toNat with | 0 => some .rne | 1 => some .rtz | 2 => some .rup | 3 => some .rdn | 4 => some .rto | _ => none
def Fmt.code : Fmt → BitVec 5
  | .i8 => 0x01 | .i16 => 0x02 | .i32 => 0x03 | .i64 => 0x04 | .n8 => 0x05 | .n16 => 0x06 | .n32 => 0x07 | .n64 => 0x08
  | .e4m3 => 0x09 | .e5m2 => 0x0A | .f16 => 0x0B | .bf16 => 0x0C | .f32 => 0x0D | .t2 => 0x0E
  | .sbi8 => 0x10 | .sbe4m3 => 0x11 | .sbt2 => 0x12
def Fmt.of (c : BitVec 5) : Option Fmt :=
  match c.toNat with
  | 0x01 => some .i8 | 0x02 => some .i16 | 0x03 => some .i32 | 0x04 => some .i64
  | 0x05 => some .n8 | 0x06 => some .n16 | 0x07 => some .n32 | 0x08 => some .n64
  | 0x09 => some .e4m3 | 0x0A => some .e5m2 | 0x0B => some .f16 | 0x0C => some .bf16 | 0x0D => some .f32 | 0x0E => some .t2
  | 0x10 => some .sbi8 | 0x11 => some .sbe4m3 | 0x12 => some .sbt2
  | _ => none
def Scope.code : Scope → BitVec 3 | .ctx => 0 | .core => 1 | .clu => 2 | .die => 3 | .dev => 4 | .sys => 5
def Scope.of (c : BitVec 3) : Option Scope :=
  match c.toNat with
  | 0 => some .ctx | 1 => some .core | 2 => some .clu | 3 => some .die | 4 => some .dev | 5 => some .sys | _ => none
def Order.code : Order → BitVec 2 | .sc => 0 | .acq => 1 | .rel => 2 | .acqrel => 3
def Order.of (c : BitVec 2) : Order := match c.toNat with | 0 => .sc | 1 => .acq | 2 => .rel | _ => .acqrel
def PrefLevel.code : PrefLevel → BitVec 2 | .l1 => 0 | .l2 => 1 | .th => 2
def PrefLevel.of (c : BitVec 2) : Option PrefLevel :=
  match c.toNat with | 0 => some .l1 | 1 => some .l2 | 2 => some .th | _ => none
def AmoOp.code : AmoOp → BitVec 5
  | .add => 0 | .and => 1 | .or => 2 | .xor => 3 | .min => 4 | .max => 5 | .swap => 6 | .cas => 7
def AmoOp.of (c : BitVec 5) : Option AmoOp :=
  match c.toNat with
  | 0 => some .add | 1 => some .and | 2 => some .or | 3 => some .xor | 4 => some .min | 5 => some .max
  | 6 => some .swap | 7 => some .cas | _ => none
def CollOp.code : CollOp → BitVec 5 | .add => 0 | .min => 1 | .max => 2 | .and => 3 | .or => 4 | .xor => 5
def CollOp.of (c : BitVec 5) : Option CollOp :=
  match c.toNat with
  | 0 => some .add | 1 => some .min | 2 => some .max | 3 => some .and | 4 => some .or | 5 => some .xor | _ => none
def VspOp.code : VspOp → BitVec 5
  | .add => 0 | .sub => 1 | .mul => 2 | .fma => 3 | .min => 4 | .max => 5 | .and => 6 | .or => 7 | .xor => 8
def VspOp.of (c : BitVec 5) : Option VspOp :=
  match c.toNat with
  | 0 => some .add | 1 => some .sub | 2 => some .mul | 3 => some .fma | 4 => some .min | 5 => some .max
  | 6 => some .and | 7 => some .or | 8 => some .xor | _ => none
def LFmt.code : LFmt → BitVec 5 | .f32 => 0x0D | .i32 => 0x03 | .n32 => 0x07
def LFmt.of (c : BitVec 5) : Option LFmt :=
  match c.toNat with | 0x0D => some .f32 | 0x03 => some .i32 | 0x07 => some .n32 | _ => none

/-! Extensions of the base groups. -/

def Form.toExt : Form → Option Ext | .base => none | .ext e => some { eb := e }
def Form.of : Option Ext → Form | none => .base | some x => .ext x.eb
def VForm.toExt : VForm → Option Ext
  | .base => none
  | .ext e none => some { eb := e }
  | .ext e (some f) => some { eb := e, f := f, eng := 0#5 ++ 1#1 ++ 0#17 }
def VForm.of : Option Ext → VForm
  | none => .base
  | some x => .ext x.eb (if x.eng.getLsbD 17 then some x.f else none)
def menOf : Option Ext → Bool | none => false | some x => x.eng.getLsbD 17
def xOf (r : Raw) : Ext := r.ext.getD {}
def FFmt.code : FFmt → BitVec 5 | .f16 => 0x0B | .bf16 => 0x0C | .f32 => 0x0D
def FFmt.ext (t : FFmt) : Form → Option Ext | .base => none | .ext e => some { eb := e, t1 := t.code }
def FFmt.of : Option Ext → Option FFmt
  | none => some .f32
  | some x => match x.t1.toNat with | 0x0B => some .f16 | 0x0C => some .bf16 | 0x0D => some .f32 | _ => none
def extRm (rm : Rm) (sat : Bool) : Form → Option Ext
  | .base => none | .ext e => some { eb := e, rm := rm.code, sat := sat }
def vextRm (rm : Rm) (sat : Bool) (f : VForm) : Option Ext :=
  f.toExt.map fun x => { x with rm := rm.code, sat := sat }
def extScope (s : Scope) : Form → Option Ext | .base => none | .ext e => some { eb := e, scope := s.code }
def scopeOr (s : Scope) : Option Ext → Option Scope | none => some s | some x => Scope.of x.scope
def extLds (c : Reg) : Form → Option Ext | .base => none | .ext e => some { c := c, eb := e, scope := 4#3 }
def extC (c : Reg) : Form → Option Ext | .base => none | .ext e => some { c := c, eb := e }
def extRel (rel : Option Scope) : Form → Option Ext
  | .base => none
  | .ext e => match rel with | none => some { eb := e } | some s => some { eb := e, scope := s.code, order := 2#2 }
/-- ORDER 00 or 10 of a send; 01 and 11 are unassigned (R291). -/
def relOf : Option Ext → Option (Option Scope)
  | none => some none
  | some x => match x.order.toNat with | 0 => some none | 2 => (Scope.of x.scope).map some | _ => none
def Src.field : Src → BitVec 5 | .reg b => b | .lit _ => 0
def Src.litWord : Src → Option (BitVec 64) | .reg _ => none | .lit x => some x
def Src.of (r : Raw) (h : BitVec 24) : Src := match r.lit with | none => .reg (fB h) | some l => .lit l
def engOp (x : Ext) : BitVec 5 := x.eng.extractLsb' 18 5
def engOM (op : BitVec 5) (m : Bool) : BitVec 23 := op ++ BitVec.ofBool m ++ 0#17



/-- The fields of an encoded instruction, one line for each entry of the instruction reference (R255 to R381); a step of
another agent has no encoding and gives the all-zero word. -/
def encodeRaw : Instr → Raw
  | .add o => ⟨1#6, hiA (mSW o.sat o.w.code) 0#5 o.b o.a o.d, o.form.toExt, none⟩
  | .sub o => ⟨1#6, hiA (mSW o.sat o.w.code) 1#5 o.b o.a o.d, o.form.toExt, none⟩
  | .and o => ⟨1#6, hiA (mSW false o.w.code) 2#5 o.b o.a o.d, o.form.toExt, none⟩
  | .or o => ⟨1#6, hiA (mSW false o.w.code) 3#5 o.b o.a o.d, o.form.toExt, none⟩
  | .xor o => ⟨1#6, hiA (mSW false o.w.code) 4#5 o.b o.a o.d, o.form.toExt, none⟩
  | .andn o => ⟨1#6, hiA (mSW false o.w.code) 5#5 o.b o.a o.d, o.form.toExt, none⟩
  | .shl o => ⟨1#6, hiA (mSW false o.w.code) 6#5 o.b o.a o.d, o.form.toExt, none⟩
  | .shr o => ⟨1#6, hiA (mSW false o.w.code) 7#5 o.b o.a o.d, o.form.toExt, none⟩
  | .sra o => ⟨1#6, hiA (mSW false o.w.code) 8#5 o.b o.a o.d, o.form.toExt, none⟩
  | .min o => ⟨1#6, hiA (mSW false o.w.code) 9#5 o.b o.a o.d, o.form.toExt, none⟩
  | .max o => ⟨1#6, hiA (mSW false o.w.code) 10#5 o.b o.a o.d, o.form.toExt, none⟩
  | .clz o => ⟨1#6, hiA (mSW false o.w.code) 11#5 0 o.a o.d, o.form.toExt, none⟩
  | .ctz o => ⟨1#6, hiA (mSW false o.w.code) 12#5 0 o.a o.d, o.form.toExt, none⟩
  | .popc o => ⟨1#6, hiA (mSW false o.w.code) 13#5 0 o.a o.d, o.form.toExt, none⟩
  | .mov o => ⟨1#6, hiA (mSW false o.w.code) 14#5 0 o.a o.d, o.form.toExt, none⟩
  | .addi o => ⟨2#6, hiI o.imm o.a o.d, none, none⟩
  | .addiLit o => ⟨2#6, hiI 0 o.a o.d, none, some o.lit⟩
  | .adda o => ⟨3#6, hiA (0#2 ++ o.sh) 0#5 (o.src.field) o.a o.d, o.form.toExt, o.src.litWord⟩
  | .suba o => ⟨3#6, hiA (0#2 ++ o.sh) 1#5 (o.src.field) o.a o.d, o.form.toExt, o.src.litWord⟩
  | .tags o => ⟨3#6, hiA 0 2#5 (o.src.field) o.a o.d, o.form.toExt, o.src.litWord⟩
  | .tagg o => ⟨3#6, hiA 0 3#5 0 o.a o.d, o.form.toExt, none⟩
  | .mul o => ⟨4#6, hiA (mSW false o.w.code) 0#5 o.b o.a o.d, o.form.toExt, none⟩
  | .mulh o => ⟨4#6, hiA (mSW false o.w.code) 1#5 o.b o.a o.d, o.form.toExt, none⟩
  | .div o => ⟨4#6, hiA (mSW false o.w.code) 2#5 o.b o.a o.d, o.form.toExt, none⟩
  | .rem o => ⟨4#6, hiA (mSW false o.w.code) 3#5 o.b o.a o.d, o.form.toExt, none⟩
  | .bfxu o => ⟨5#6, hiI (0#2 ++ o.pos ++ o.lm) o.a o.d, none, none⟩
  | .bfxs o => ⟨5#6, hiI (1#2 ++ o.pos ++ o.lm) o.a o.d, none, none⟩
  | .bfi o => ⟨5#6, hiI (2#2 ++ o.pos ++ o.lm) o.a o.d, none, none⟩
  | .shli o => ⟨5#6, hiI (3#2 ++ o.pos ++ 0#6) o.a o.d, none, none⟩
  | .shri o => ⟨5#6, hiI (3#2 ++ o.pos ++ 1#6) o.a o.d, none, none⟩
  | .srai o => ⟨5#6, hiI (3#2 ++ o.pos ++ 2#6) o.a o.d, none, none⟩
  | .rori o => ⟨5#6, hiI (3#2 ++ o.pos ++ 3#6) o.a o.d, none, none⟩
  | .movi o => ⟨6#6, hiI o.imm 0 o.d, none, none⟩
  | .moviLit o => ⟨6#6, hiI 0 0 o.d, none, some o.lit⟩
  | .cmpeq o => ⟨7#6, hiA (mSW false o.w.code) 0#5 o.b o.a o.d, o.form.toExt, none⟩
  | .cmpne o => ⟨7#6, hiA (mSW false o.w.code) 1#5 o.b o.a o.d, o.form.toExt, none⟩
  | .cmplt o => ⟨7#6, hiA (mSW false o.w.code) 2#5 o.b o.a o.d, o.form.toExt, none⟩
  | .cmple o => ⟨7#6, hiA (mSW false o.w.code) 3#5 o.b o.a o.d, o.form.toExt, none⟩
  | .sel o => ⟨7#6, hiA 0 4#5 o.b o.a o.d, o.form.toExt, none⟩
  | .fadd o => ⟨8#6, hiA (o.rm.code ++ BitVec.ofBool o.sat) 0#5 o.b o.a o.d, FFmt.ext o.fmt o.form, none⟩
  | .fsub o => ⟨8#6, hiA (o.rm.code ++ BitVec.ofBool o.sat) 1#5 o.b o.a o.d, FFmt.ext o.fmt o.form, none⟩
  | .fmul o => ⟨8#6, hiA (o.rm.code ++ BitVec.ofBool o.sat) 2#5 o.b o.a o.d, FFmt.ext o.fmt o.form, none⟩
  | .fma o => ⟨8#6, hiA (o.rm.code ++ BitVec.ofBool o.sat) 3#5 o.b o.a o.d, FFmt.ext o.fmt o.form, none⟩
  | .fmin o => ⟨8#6, hiA (o.rm.code ++ BitVec.ofBool o.sat) 4#5 o.b o.a o.d, FFmt.ext o.fmt o.form, none⟩
  | .fmax o => ⟨8#6, hiA (o.rm.code ++ BitVec.ofBool o.sat) 5#5 o.b o.a o.d, FFmt.ext o.fmt o.form, none⟩
  | .fneg o => ⟨8#6, hiA (o.rm.code ++ BitVec.ofBool o.sat) 6#5 0 o.a o.d, FFmt.ext o.fmt o.form, none⟩
  | .fcmpeq o => ⟨8#6, hiA (o.rm.code ++ BitVec.ofBool o.sat) 7#5 o.b o.a o.d, FFmt.ext o.fmt o.form, none⟩
  | .fcmplt o => ⟨8#6, hiA (o.rm.code ++ BitVec.ofBool o.sat) 8#5 o.b o.a o.d, FFmt.ext o.fmt o.form, none⟩
  | .fcmple o => ⟨8#6, hiA (o.rm.code ++ BitVec.ofBool o.sat) 9#5 o.b o.a o.d, FFmt.ext o.fmt o.form, none⟩
  | .cvt o => ⟨9#6, hiA (o.rm.code ++ BitVec.ofBool o.sat) (o.dfmt.code) (o.sfmt.code) o.a o.d, o.form.toExt, none⟩
  | .beq o => ⟨10#6, hiB o.off 0#4 o.b o.a, none, none⟩
  | .bne o => ⟨10#6, hiB o.off 1#4 o.b o.a, none, none⟩
  | .blt o => ⟨10#6, hiB o.off 2#4 o.b o.a, none, none⟩
  | .bge o => ⟨10#6, hiB o.off 3#4 o.b o.a, none, none⟩
  | .bltu o => ⟨10#6, hiB o.off 4#4 o.b o.a, none, none⟩
  | .bgeu o => ⟨10#6, hiB o.off 5#4 o.b o.a, none, none⟩
  | .jmp o => ⟨11#6, hiJ o.off 0#1, none, none⟩
  | .call o => ⟨11#6, hiJ o.off 1#1, none, none⟩
  | .jmpi o => ⟨12#6, hiA 0 0#5 0 o.a 0, none, none⟩
  | .calli o => ⟨12#6, hiA 0 1#5 0 o.a 0, none, none⟩
  | .ret => ⟨12#6, hiA 0 2#5 0 0 0, none, none⟩
  | .enter o => ⟨13#6, hiA 0 0#5 0 o.v o.s, none, none⟩
  | .leave => ⟨13#6, hiA 0 1#5 0 0 0, none, none⟩
  | .rdsr o => ⟨13#6, hiA 0 2#5 o.sr o.a o.d, none, none⟩
  | .probe o => ⟨13#6, hiA (0#3 ++ BitVec.ofBool o.vec) 3#5 0 o.a o.d, none, none⟩
  | .brk o => ⟨13#6, hiA (0#3 ++ BitVec.ofBool o.h) 4#5 0 0 (0#1 ++ o.hg), none, none⟩
  | .nop => ⟨2#6, hiI 0 0 0, none, none⟩
  | .ld o => ⟨16#6, hiM o.sz (BitVec.ofBool o.pi ++ BitVec.ofBool o.sx) o.off o.base o.d, o.form.toExt, none⟩
  | .st o => ⟨17#6, hiM o.sz (BitVec.ofBool o.pi ++ 0#1) o.off o.base o.s, o.form.toExt, none⟩
  | .lde o => ⟨18#6, hiM 0#2 (BitVec.ofBool o.pi ++ 0#1) o.off o.base o.d, extRm o.rm false o.form, none⟩
  | .ste o => ⟨18#6, hiM 1#2 (BitVec.ofBool o.pi ++ 0#1) o.off o.base o.s, extRm o.rm o.sat o.form, none⟩
  | .ldAcq o => ⟨19#6, hiM o.sz 0#2 o.off o.base o.d, extScope o.scope o.form, none⟩
  | .ldc o => ⟨19#6, hiM o.sz 1#2 o.off o.base o.d, extScope o.scope o.form, none⟩
  | .lds o => ⟨19#6, hiM 3#2 2#2 o.off o.base o.d, extLds o.c o.form, none⟩
  | .stRel o => ⟨20#6, hiM o.sz 0#2 o.off o.base o.s, extScope o.scope o.form, none⟩
  | .amo o => ⟨21#6, hiM (amoSz o.fmt) 0#2 o.off o.base o.d, some { c := o.c, e := o.e, eb := o.eb, scope := o.scope.code, order := o.order.code, t1 := o.fmt.code, sat := o.sat, eng := o.op.code ++ 0#18 }, none⟩
  | .fence o => ⟨22#6, hiA (0#1 ++ o.scope.code) (0#3 ++ o.order.code) 0 0 0, o.form.toExt, none⟩
  | .spresize o => ⟨23#6, hiA 0 0#5 0 o.a o.d, o.form.toExt, none⟩
  | .flushs o => ⟨23#6, hiA (0#1 ++ o.scope.code) 1#5 o.b o.a 0, o.form.toExt, none⟩
  | .invs o => ⟨23#6, hiA (0#1 ++ o.scope.code) 2#5 o.b o.a 0, o.form.toExt, none⟩
  | .pref o => ⟨23#6, hiA (0#2 ++ o.lvl.code) 3#5 0 o.a 0, o.form.toExt, none⟩
  | .send o => ⟨24#6, hiA 0 0#5 o.b o.a 0, extRel o.rel o.form, none⟩
  | .tsend o => ⟨24#6, hiA 0 1#5 o.b o.a 0, extRel o.rel o.form, none⟩
  | .recv o => ⟨25#6, hiA 0 0#5 o.b o.a o.d, o.form.toExt, none⟩
  | .rcancel o => ⟨25#6, hiA 0 1#5 0 o.a o.d, o.form.toExt, none⟩
  | .chwr o => ⟨25#6, hiA 0 2#5 o.b o.a o.d, o.form.toExt, none⟩
  | .chmsk o => ⟨25#6, hiA 0 3#5 o.b o.a o.d, o.form.toExt, none⟩
  | .chrd o => ⟨25#6, hiA (0#3 ++ BitVec.ofBool o.h) 4#5 0 o.a o.d, o.form.toExt, none⟩
  | .spawn o => ⟨26#6, hiA 0 0#5 0 o.a 0, none, none⟩
  | .join => ⟨26#6, hiA 0 1#5 0 0 0, none, none⟩
  | .halt => ⟨26#6, hiA 0 2#5 0 0 0, none, none⟩
  | .haltr o => ⟨26#6, hiA 1#4 2#5 0 o.a 0, none, none⟩
  | .yield => ⟨26#6, hiA 0 3#5 0 0 0, none, none⟩
  | .freg o => ⟨27#6, hiA (0#2 ++ o.j) 0#5 o.b o.a 0, o.form.toExt, none⟩
  | .fres o => ⟨27#6, hiA 0 1#5 o.b o.a 0, o.form.toExt, none⟩
  | .fcancel o => ⟨27#6, hiA 0 2#5 0 o.a 0, o.form.toExt, none⟩
  | .freset o => ⟨27#6, hiA 0 3#5 0 o.a 0, o.form.toExt, none⟩
  | .fwait o => ⟨27#6, hiA 0 4#5 0 o.a o.d, extC o.c o.form, none⟩
  | .barcfg o => ⟨28#6, hiA (0#1 ++ o.slot) 0#5 o.b o.a 0, o.form.toExt, none⟩
  | .bar o => ⟨28#6, hiA (0#1 ++ o.slot) 1#5 0 0 o.d, extC o.c o.form, none⟩
  | .bararv o => ⟨28#6, hiA (0#1 ++ o.slot) 2#5 0 0 o.d, o.form.toExt, none⟩
  | .bardrop o => ⟨28#6, hiA (0#1 ++ o.slot) 3#5 0 0 0, o.form.toExt, none⟩
  | .barwt o => ⟨28#6, hiA (0#1 ++ o.slot) 4#5 0 o.a o.d, extC o.c o.form, none⟩
  | .barrd o => ⟨28#6, hiA (0#1 ++ o.slot) 5#5 0 0 o.d, o.form.toExt, none⟩
  | .qpush o => ⟨29#6, hiA o.q 0#5 0 o.a 0, extC o.c o.form, none⟩
  | .qpop o => ⟨29#6, hiA o.q 1#5 0 0 o.d, extC o.c o.form, none⟩
  | .qdwr o => ⟨29#6, hiA o.q 2#5 0 o.a 0, o.form.toExt, none⟩
  | .qdrd o => ⟨29#6, hiA o.q 3#5 0 0 o.d, o.form.toExt, none⟩
  | .permitFree o => ⟨29#6, hiA o.q 4#5 0 o.a 0, o.form.toExt, none⟩
  | .permitStore o => ⟨29#6, hiA o.q 5#5 o.b o.a 0, o.form.toExt, none⟩
  | .wlinit o => ⟨30#6, hiA 0 0#5 0 o.a 0, o.form.toExt, none⟩
  | .wlpush o => ⟨30#6, hiA 0 1#5 o.b o.a o.d, o.form.toExt, none⟩
  | .wlins o => ⟨30#6, hiA 0 2#5 o.b o.a o.d, o.form.toExt, none⟩
  | .wlpopb o => ⟨30#6, hiA 0 3#5 o.b o.a o.d, o.form.toExt, none⟩
  | .wlstat o => ⟨30#6, hiA 0 4#5 0 o.a o.d, o.form.toExt, none⟩
  | .wlfree o => ⟨30#6, hiA 0 5#5 0 o.a 0, o.form.toExt, none⟩
  | .subscr o => ⟨31#6, hiA 0 0#5 o.b o.a o.d, o.form.toExt, none⟩
  | .unsub o => ⟨31#6, hiA 0 1#5 0 o.a 0, o.form.toExt, none⟩
  | .substat o => ⟨31#6, hiA 0 2#5 0 o.a o.d, extScope o.scope o.form, none⟩
  | .vadd o => ⟨32#6, hiA (mSW o.sat o.w.code) 0#5 o.b o.a o.d, VForm.toExt o.form, none⟩
  | .vsub o => ⟨32#6, hiA (mSW o.sat o.w.code) 1#5 o.b o.a o.d, VForm.toExt o.form, none⟩
  | .vand o => ⟨32#6, hiA (mSW false o.w.code) 2#5 o.b o.a o.d, VForm.toExt o.form, none⟩
  | .vor o => ⟨32#6, hiA (mSW false o.w.code) 3#5 o.b o.a o.d, VForm.toExt o.form, none⟩
  | .vxor o => ⟨32#6, hiA (mSW false o.w.code) 4#5 o.b o.a o.d, VForm.toExt o.form, none⟩
  | .vandn o => ⟨32#6, hiA (mSW false o.w.code) 5#5 o.b o.a o.d, VForm.toExt o.form, none⟩
  | .vshl o => ⟨32#6, hiA (mSW false o.w.code) 6#5 o.b o.a o.d, VForm.toExt o.form, none⟩
  | .vshr o => ⟨32#6, hiA (mSW false o.w.code) 7#5 o.b o.a o.d, VForm.toExt o.form, none⟩
  | .vsra o => ⟨32#6, hiA (mSW false o.w.code) 8#5 o.b o.a o.d, VForm.toExt o.form, none⟩
  | .vmin o => ⟨32#6, hiA (mSW false o.w.code) 9#5 o.b o.a o.d, VForm.toExt o.form, none⟩
  | .vmax o => ⟨32#6, hiA (mSW false o.w.code) 10#5 o.b o.a o.d, VForm.toExt o.form, none⟩
  | .vfadd o => ⟨33#6, hiA (o.rm.code ++ BitVec.ofBool o.sat) 0#5 o.b o.a o.d, VForm.toExt o.form, none⟩
  | .vfsub o => ⟨33#6, hiA (o.rm.code ++ BitVec.ofBool o.sat) 1#5 o.b o.a o.d, VForm.toExt o.form, none⟩
  | .vfmul o => ⟨33#6, hiA (o.rm.code ++ BitVec.ofBool o.sat) 2#5 o.b o.a o.d, VForm.toExt o.form, none⟩
  | .vfma o => ⟨33#6, hiA (o.rm.code ++ BitVec.ofBool o.sat) 3#5 o.b o.a o.d, VForm.toExt o.form, none⟩
  | .vfmin o => ⟨33#6, hiA 0 4#5 o.b o.a o.d, VForm.toExt o.form, none⟩
  | .vfmax o => ⟨33#6, hiA 0 5#5 o.b o.a o.d, VForm.toExt o.form, none⟩
  | .vfneg o => ⟨33#6, hiA 0 6#5 0 o.a o.d, VForm.toExt o.form, none⟩
  | .vrcp o => ⟨33#6, hiA 0 7#5 0 o.a o.d, VForm.toExt o.form, none⟩
  | .vrsq o => ⟨33#6, hiA 0 8#5 0 o.a o.d, VForm.toExt o.form, none⟩
  | .vcmpeq o => ⟨34#6, hiA (mSW false o.w.code) 0#5 o.b o.a o.d, VForm.toExt o.form, none⟩
  | .vcmpne o => ⟨34#6, hiA (mSW false o.w.code) 1#5 o.b o.a o.d, VForm.toExt o.form, none⟩
  | .vcmplt o => ⟨34#6, hiA (mSW false o.w.code) 2#5 o.b o.a o.d, VForm.toExt o.form, none⟩
  | .vcmple o => ⟨34#6, hiA (mSW false o.w.code) 3#5 o.b o.a o.d, VForm.toExt o.form, none⟩
  | .vfcmpeq o => ⟨34#6, hiA 0 4#5 o.b o.a o.d, VForm.toExt o.form, none⟩
  | .vfcmplt o => ⟨34#6, hiA 0 5#5 o.b o.a o.d, VForm.toExt o.form, none⟩
  | .vfcmple o => ⟨34#6, hiA 0 6#5 o.b o.a o.d, VForm.toExt o.form, none⟩
  | .vsel o => ⟨34#6, hiA 0 7#5 o.b o.a o.d, VForm.toExt o.form, none⟩
  | .vcvt o => ⟨35#6, hiA (o.rm.code ++ BitVec.ofBool o.sat) (o.dfmt.code) (o.sfmt.code) o.a o.d, VForm.toExt o.form, none⟩
  | .vmov o => ⟨36#6, hiA 0 0#5 0 o.a o.d, VForm.toExt o.form, none⟩
  | .vbcast o => ⟨36#6, hiA 0 1#5 0 o.a o.d, VForm.toExt o.form, none⟩
  | .vins o => ⟨36#6, hiA 0 2#5 (0#1 ++ o.l) o.a o.d, o.form.toExt, none⟩
  | .vext o => ⟨36#6, hiA (mSW false o.w.code) 3#5 (0#1 ++ o.l) o.a o.d, o.form.toExt, none⟩
  | .viota o => ⟨36#6, hiA 0 4#5 0 0 o.d, VForm.toExt o.form, none⟩
  | .vshuf o => ⟨37#6, hiA 0 0#5 o.b o.a o.d, VForm.toExt o.form, none⟩
  | .vmul o => ⟨38#6, hiA (mSW false o.w.code) 0#5 o.b o.a o.d, VForm.toExt o.form, none⟩
  | .vmulh o => ⟨38#6, hiA (mSW false o.w.code) 1#5 o.b o.a o.d, VForm.toExt o.form, none⟩
  | .vdiv o => ⟨38#6, hiA (mSW false o.w.code) 2#5 o.b o.a o.d, VForm.toExt o.form, none⟩
  | .vrem o => ⟨38#6, hiA (mSW false o.w.code) 3#5 o.b o.a o.d, VForm.toExt o.form, none⟩
  | .vshli o => ⟨39#6, hiA 0 0#5 o.n o.a o.d, VForm.toExt o.form, none⟩
  | .vshri o => ⟨39#6, hiA 0 1#5 o.n o.a o.d, VForm.toExt o.form, none⟩
  | .vsrai o => ⟨39#6, hiA 0 2#5 o.n o.a o.d, VForm.toExt o.form, none⟩
  | .vld o => ⟨40#6, hiM 0#2 (BitVec.ofBool o.pi ++ 0#1) o.off o.base o.r, VForm.toExt o.form, none⟩
  | .vst o => ⟨40#6, hiM 1#2 (BitVec.ofBool o.pi ++ 0#1) o.off o.base o.r, VForm.toExt o.form, none⟩
  | .vlde o => ⟨41#6, hiM 0#2 (BitVec.ofBool o.pi ++ 0#1) o.off o.base o.r, vextRm o.rm false o.form, none⟩
  | .vste o => ⟨41#6, hiM 1#2 (BitVec.ofBool o.pi ++ 0#1) o.off o.base o.r, vextRm o.rm o.sat o.form, none⟩
  | .vldx o => ⟨42#6, hiM 0#2 0#2 (0#5 ++ o.x) o.base o.r, VForm.toExt o.form, none⟩
  | .vstx o => ⟨42#6, hiM 1#2 0#2 (0#5 ++ o.x) o.base o.r, VForm.toExt o.form, none⟩
  | .vlsld o => ⟨43#6, hiM 0#2 (BitVec.ofBool o.pi ++ 0#1) o.off o.base o.r, VForm.toExt o.form, none⟩
  | .vlsst o => ⟨43#6, hiM 1#2 (BitVec.ofBool o.pi ++ 0#1) o.off o.base o.r, VForm.toExt o.form, none⟩
  | .vsp o => ⟨48#6, hiA 0 0#5 o.b o.a o.d, some { c := o.c, f := o.mask.getD 0, eb := o.eb, t1 := o.fmt.code, rm := o.rm.code, sat := o.sat, eng := engOM o.op.code o.mask.isSome }, none⟩
  | .vred o => ⟨48#6, hiA 0 1#5 0 o.a o.d, some { f := o.mask.getD 0, eb := o.eb, t1 := o.fmt.code, eng := engOM o.op.code o.mask.isSome }, none⟩
  | .vtopk o => ⟨48#6, hiA 0 2#5 o.b o.a o.d, some { c := o.c, e := o.e, eb := o.eb, t1 := o.fmt.code }, none⟩
  | .mxlease o => ⟨49#6, hiA 0 0#5 0 0 0, some { c := o.c, eb := o.eb }, none⟩
  | .mxrel => ⟨49#6, hiA 0 1#5 0 0 0, some {}, none⟩
  | .tcfg o => ⟨49#6, hiA (0#1 ++ o.t) 2#5 0 o.a 0, some { eb := o.eb }, none⟩
  | .trel o => ⟨49#6, hiA (0#1 ++ o.t) 3#5 0 0 0, some {}, none⟩
  | .mxwait o => ⟨49#6, hiA (0#1 ++ o.t) 4#5 0 0 0, some { c := o.c, eb := o.eb }, none⟩
  | .mxlda o => ⟨49#6, hiA 0 5#5 o.b o.a 0, some { c := o.c, e := o.e, eb := o.eb }, none⟩
  | .mxldb o => ⟨49#6, hiA 0 6#5 o.b o.a 0, some { c := o.c, e := o.e, eb := o.eb }, none⟩
  | .mxmul o => ⟨49#6, hiA (BitVec.ofBool o.acc ++ o.t) 7#5 o.b o.a 0, some { c := o.c, eb := o.eb, t1 := o.fa.code, t2 := o.fb.code, sat := o.sat, eng := o.ka ++ o.kb ++ BitVec.ofBool o.fuse ++ 0#16 }, none⟩
  | .mxtern o => ⟨49#6, hiA (BitVec.ofBool o.acc ++ o.t) 8#5 o.b o.a 0, some { c := o.c, eb := o.eb, t1 := o.fa.code, t2 := o.fb.code, sat := o.sat, eng := o.ka ++ o.kb ++ BitVec.ofBool o.fuse ++ 0#16 }, none⟩
  | .mxdrain o => ⟨49#6, hiA (0#1 ++ o.t) 9#5 o.b o.a 0, some { c := o.c, eb := o.eb }, none⟩
  | .mxstat o => ⟨49#6, hiA 0 10#5 0 0 o.d, some {}, none⟩
  | .nbcfg o => ⟨50#6, hiA 0 0#5 o.b o.a 0, some { eb := o.eb }, none⟩
  | .nbmv o => ⟨50#6, hiA 0 1#5 o.b o.a 0, some { c := o.c, e := o.e, f := o.f, eb := o.eb, t1 := o.fx.code, sat := o.sat }, none⟩
  | .nbstat o => ⟨50#6, hiA 0 2#5 0 o.a o.d, some { eb := o.eb }, none⟩
  | .cpy o => ⟨51#6, hiA 0 0#5 o.b o.a 0, some { c := o.c, e := o.e, f := o.f, eb := o.eb }, none⟩
  | .cpyt o => ⟨51#6, hiA 0 1#5 o.b o.a 0, some { c := o.c, e := o.e, f := o.f, eb := o.eb }, none⟩
  | .syncwait o => ⟨51#6, hiA 0 2#5 o.b o.a o.d, some { c := o.c, eb := o.eb, scope := o.scope.code }, none⟩
  | .syncadd o => ⟨51#6, hiA 0 3#5 o.b o.a 0, some { eb := o.eb, scope := o.scope.code }, none⟩
  | .gather o => ⟨51#6, hiA 0 4#5 o.b o.a 0, some { c := o.c, e := o.e, f := o.f, eb := o.eb }, none⟩
  | .twrun o => ⟨51#6, hiA 0 5#5 0 o.a 0, some { c := o.c, eb := o.eb }, none⟩
  | .twstop => ⟨51#6, hiA 0 6#5 0 0 0, some {}, none⟩
  | .twstat o => ⟨51#6, hiA 0 7#5 0 0 o.d, some {}, none⟩
  | .cestat o => ⟨51#6, hiA 0 8#5 0 0 o.d, some {}, none⟩
  | .gvar o => ⟨52#6, hiA 0 0#5 o.b o.a o.d, some { c := o.c, e := o.e, f := o.f, eb := o.eb }, none⟩
  | .gfac o => ⟨52#6, hiA 0 1#5 o.b o.a o.d, some { c := o.c, e := o.e, f := o.f, eb := o.eb }, none⟩
  | .glink o => ⟨52#6, hiA 0 2#5 o.b o.a o.d, some { c := o.c, eb := o.eb }, none⟩
  | .gfmsg o => ⟨52#6, hiA 0 3#5 o.b o.a o.d, some { eb := o.eb }, none⟩
  | .gdamp o => ⟨52#6, hiA 0 4#5 o.b o.a 0, some { eb := o.eb }, none⟩
  | .gtol o => ⟨52#6, hiA 0 5#5 o.b o.a 0, some { eb := o.eb }, none⟩
  | .grelin o => ⟨52#6, hiA 0 6#5 o.b o.a 0, some { eb := o.eb }, none⟩
  | .gread o => ⟨52#6, hiA 0 7#5 o.b o.a o.d, some { eb := o.eb }, none⟩
  | .gsnap o => ⟨52#6, hiA 0 8#5 o.b o.a o.d, some { c := o.c, eb := o.eb }, none⟩
  | .gcvg o => ⟨52#6, hiA 0 9#5 0 o.a o.d, some { eb := o.eb }, none⟩
  | .gfree o => ⟨52#6, hiA 0 10#5 0 o.a 0, some { eb := o.eb }, none⟩
  | .launch o => ⟨53#6, hiA 0 0#5 0 o.a 0, some {}, none⟩
  | .coll o => ⟨53#6, hiA 0 1#5 o.b o.a o.d, some { c := o.c, eb := o.eb, t1 := o.fmt.code, eng := engOM o.op.code o.vec }, none⟩
  | .resume o => ⟨54#6, hiA 0 0#5 0 o.a 0, some { eb := o.eb }, none⟩
  | .killt => ⟨54#6, hiA 0 1#5 0 0 0, some {}, none⟩
  | .killk o => ⟨54#6, hiA 0 2#5 0 o.a 0, some { eb := o.eb }, none⟩
  | .dwrd o => ⟨54#6, hiA 0 3#5 o.b o.a o.d, some { c := o.c, eb := o.eb }, none⟩
  | .dwwr o => ⟨54#6, hiA 0 4#5 o.b o.a 0, some { c := o.c, e := o.e, eb := o.eb }, none⟩
  | .sysrd o => ⟨54#6, hiA 0 5#5 0 o.a o.d, some { eb := o.eb }, none⟩
  | .syswr o => ⟨54#6, hiA 0 6#5 o.b o.a 0, some { eb := o.eb }, none⟩
  | .mext o => ⟨54#6, hiA 0 7#5 o.b o.a 0, some { eb := o.eb }, none⟩
  | .tlbsync o => ⟨54#6, hiA 0 8#5 o.b o.a 0, some { eb := o.eb }, none⟩
  | .preempt o => ⟨54#6, hiA 0 9#5 o.b o.a o.d, some { c := o.c, eb := o.eb }, none⟩
  | .restore o => ⟨54#6, hiA 0 10#5 0 o.a o.d, some { eb := o.eb }, none⟩
  | .migrate o => ⟨54#6, hiA 0 11#5 o.b o.a o.d, some { c := o.c, eb := o.eb }, none⟩
  | .ckptFull o => ⟨54#6, hiA 0 12#5 0 o.a o.d, some { eb := o.eb }, none⟩
  | .ckptIncremental o => ⟨54#6, hiA 0 12#5 0 o.a o.d, some { eb := o.eb }, none⟩
  | .ckptRestore o => ⟨54#6, hiA 0 12#5 0 o.a o.d, some { eb := o.eb }, none⟩
  | .ckptResume o => ⟨54#6, hiA 0 12#5 0 o.a o.d, some { eb := o.eb }, none⟩
  | .trap o => ⟨54#6, hiA 0 13#5 0 o.a 0, some { eb := o.eb }, none⟩
  | .hgtrig o => ⟨55#6, hiA 0 0#5 0 o.a 0, some { eb := o.eb }, none⟩
  | .hgrel o => ⟨55#6, hiA 0 1#5 0 o.a 0, some { eb := o.eb }, none⟩
  | .hgstat o => ⟨55#6, hiA 0 2#5 0 o.a o.d, some { eb := o.eb }, none⟩
  | _ => ⟨0, 0, none, none⟩

/-- Opcode group 0x01 (R241). -/
def pick01 (r : Raw) : Option Instr :=
  let h := r.hi
  let m := fMod h
  match (fFn h).toNat with
  | 0 => some (.add { w := Width.of (mW m), sat := mS m, d := fD h, a := fA h, b := fB h, form := Form.of r.ext })
  | 1 => some (.sub { w := Width.of (mW m), sat := mS m, d := fD h, a := fA h, b := fB h, form := Form.of r.ext })
  | 2 => if mS m = false then some (.and { w := Width.of (mW m), d := fD h, a := fA h, b := fB h, form := Form.of r.ext }) else none
  | 3 => if mS m = false then some (.or { w := Width.of (mW m), d := fD h, a := fA h, b := fB h, form := Form.of r.ext }) else none
  | 4 => if mS m = false then some (.xor { w := Width.of (mW m), d := fD h, a := fA h, b := fB h, form := Form.of r.ext }) else none
  | 5 => if mS m = false then some (.andn { w := Width.of (mW m), d := fD h, a := fA h, b := fB h, form := Form.of r.ext }) else none
  | 6 => if mS m = false then some (.shl { w := Width.of (mW m), d := fD h, a := fA h, b := fB h, form := Form.of r.ext }) else none
  | 7 => if mS m = false then some (.shr { w := Width.of (mW m), d := fD h, a := fA h, b := fB h, form := Form.of r.ext }) else none
  | 8 => if mS m = false then some (.sra { w := Width.of (mW m), d := fD h, a := fA h, b := fB h, form := Form.of r.ext }) else none
  | 9 => if mS m = false then some (.min { w := Width.of (mW m), d := fD h, a := fA h, b := fB h, form := Form.of r.ext }) else none
  | 10 => if mS m = false then some (.max { w := Width.of (mW m), d := fD h, a := fA h, b := fB h, form := Form.of r.ext }) else none
  | 11 => if mS m = false then some (.clz { w := Width.of (mW m), d := fD h, a := fA h, form := Form.of r.ext }) else none
  | 12 => if mS m = false then some (.ctz { w := Width.of (mW m), d := fD h, a := fA h, form := Form.of r.ext }) else none
  | 13 => if mS m = false then some (.popc { w := Width.of (mW m), d := fD h, a := fA h, form := Form.of r.ext }) else none
  | 14 => if mS m = false then some (.mov { w := Width.of (mW m), d := fD h, a := fA h, form := Form.of r.ext }) else none
  | _ => none

/-- Opcode group 0x02 (R241). -/
def pick02 (r : Raw) : Option Instr :=
  let h := r.hi
  match r.lit with
  | some l => some (.addiLit { d := fD h, a := fA h, lit := l })
  | none => if fImm h = 0#14 ∧ fA h = 0#5 ∧ fD h = 0#5 then some .nop else some (.addi { d := fD h, a := fA h, imm := fImm h })

/-- Opcode group 0x03 (R241). -/
def pick03 (r : Raw) : Option Instr :=
  let h := r.hi
  let m := fMod h
  match (fFn h).toNat with
  | 0 => if mH m = 0#2 then some (.adda { sh := mW m, d := fD h, a := fA h, src := Src.of r h, form := Form.of r.ext }) else none
  | 1 => if mH m = 0#2 then some (.suba { sh := mW m, d := fD h, a := fA h, src := Src.of r h, form := Form.of r.ext }) else none
  | 2 => if mH m = 0#2 then some (.tags { d := fD h, a := fA h, src := Src.of r h, form := Form.of r.ext }) else none
  | 3 => if mH m = 0#2 ∧ r.lit = none then some (.tagg { d := fD h, a := fA h, form := Form.of r.ext }) else none
  | _ => none

/-- Opcode group 0x04 (R241). -/
def pick04 (r : Raw) : Option Instr :=
  let h := r.hi
  let m := fMod h
  match (fFn h).toNat with
  | 0 => some (.mul { w := Width.of (mW m), d := fD h, a := fA h, b := fB h, form := Form.of r.ext })
  | 1 => some (.mulh { w := Width.of (mW m), d := fD h, a := fA h, b := fB h, form := Form.of r.ext })
  | 2 => some (.div { w := Width.of (mW m), d := fD h, a := fA h, b := fB h, form := Form.of r.ext })
  | 3 => some (.rem { w := Width.of (mW m), d := fD h, a := fA h, b := fB h, form := Form.of r.ext })
  | _ => none

/-- Opcode group 0x05 (R241). -/
def pick05 (r : Raw) : Option Instr :=
  let h := r.hi
  match ((fImm h).extractLsb' 12 2).toNat with
  | 0 => some (.bfxu { d := fD h, a := fA h, pos := (fImm h).extractLsb' 6 6, lm := (fImm h).extractLsb' 0 6 })
  | 1 => some (.bfxs { d := fD h, a := fA h, pos := (fImm h).extractLsb' 6 6, lm := (fImm h).extractLsb' 0 6 })
  | 2 => some (.bfi { d := fD h, a := fA h, pos := (fImm h).extractLsb' 6 6, lm := (fImm h).extractLsb' 0 6 })
  | _ =>
    match ((fImm h).extractLsb' 0 6).toNat with
    | 0 => some (.shli { d := fD h, a := fA h, pos := (fImm h).extractLsb' 6 6 })
    | 1 => some (.shri { d := fD h, a := fA h, pos := (fImm h).extractLsb' 6 6 })
    | 2 => some (.srai { d := fD h, a := fA h, pos := (fImm h).extractLsb' 6 6 })
    | 3 => some (.rori { d := fD h, a := fA h, pos := (fImm h).extractLsb' 6 6 })
    | _ => none

/-- Opcode group 0x06 (R241). -/
def pick06 (r : Raw) : Option Instr :=
  let h := r.hi
  match r.lit with
  | some l => some (.moviLit { d := fD h, lit := l })
  | none => some (.movi { d := fD h, imm := fImm h })

/-- Opcode group 0x07 (R241). -/
def pick07 (r : Raw) : Option Instr :=
  let h := r.hi
  let m := fMod h
  match (fFn h).toNat with
  | 0 => some (.cmpeq { w := Width.of (mW m), d := fD h, a := fA h, b := fB h, form := Form.of r.ext })
  | 1 => some (.cmpne { w := Width.of (mW m), d := fD h, a := fA h, b := fB h, form := Form.of r.ext })
  | 2 => some (.cmplt { w := Width.of (mW m), d := fD h, a := fA h, b := fB h, form := Form.of r.ext })
  | 3 => some (.cmple { w := Width.of (mW m), d := fD h, a := fA h, b := fB h, form := Form.of r.ext })
  | 4 => some (.sel { d := fD h, a := fA h, b := fB h, form := Form.of r.ext })
  | _ => none

/-- Opcode group 0x08 (R241). -/
def pick08 (r : Raw) : Option Instr :=
  let h := r.hi
  let m := fMod h
  match (fFn h).toNat with
  | 0 => (FFmt.of r.ext).bind fun fmt => (Rm.of (mRm m)).bind fun rm => some (.fadd { fmt := fmt, rm := rm, sat := mLo m, d := fD h, a := fA h, b := fB h, form := Form.of r.ext })
  | 1 => (FFmt.of r.ext).bind fun fmt => (Rm.of (mRm m)).bind fun rm => some (.fsub { fmt := fmt, rm := rm, sat := mLo m, d := fD h, a := fA h, b := fB h, form := Form.of r.ext })
  | 2 => (FFmt.of r.ext).bind fun fmt => (Rm.of (mRm m)).bind fun rm => some (.fmul { fmt := fmt, rm := rm, sat := mLo m, d := fD h, a := fA h, b := fB h, form := Form.of r.ext })
  | 3 => (FFmt.of r.ext).bind fun fmt => (Rm.of (mRm m)).bind fun rm => some (.fma { fmt := fmt, rm := rm, sat := mLo m, d := fD h, a := fA h, b := fB h, form := Form.of r.ext })
  | 4 => (FFmt.of r.ext).bind fun fmt => (Rm.of (mRm m)).bind fun rm => some (.fmin { fmt := fmt, rm := rm, sat := mLo m, d := fD h, a := fA h, b := fB h, form := Form.of r.ext })
  | 5 => (FFmt.of r.ext).bind fun fmt => (Rm.of (mRm m)).bind fun rm => some (.fmax { fmt := fmt, rm := rm, sat := mLo m, d := fD h, a := fA h, b := fB h, form := Form.of r.ext })
  | 6 => (FFmt.of r.ext).bind fun fmt => (Rm.of (mRm m)).bind fun rm => some (.fneg { fmt := fmt, rm := rm, sat := mLo m, d := fD h, a := fA h, form := Form.of r.ext })
  | 7 => (FFmt.of r.ext).bind fun fmt => (Rm.of (mRm m)).bind fun rm => some (.fcmpeq { fmt := fmt, rm := rm, sat := mLo m, d := fD h, a := fA h, b := fB h, form := Form.of r.ext })
  | 8 => (FFmt.of r.ext).bind fun fmt => (Rm.of (mRm m)).bind fun rm => some (.fcmplt { fmt := fmt, rm := rm, sat := mLo m, d := fD h, a := fA h, b := fB h, form := Form.of r.ext })
  | 9 => (FFmt.of r.ext).bind fun fmt => (Rm.of (mRm m)).bind fun rm => some (.fcmple { fmt := fmt, rm := rm, sat := mLo m, d := fD h, a := fA h, b := fB h, form := Form.of r.ext })
  | _ => none

/-- Opcode group 0x09 (R241). -/
def pick09 (r : Raw) : Option Instr :=
  let h := r.hi
  let m := fMod h
  (Rm.of (mRm m)).bind fun rm => (Fmt.of (fFn h)).bind fun dfmt => (Fmt.of (fB h)).bind fun sfmt => (some (fD h)).bind fun d => (some (fA h)).bind fun a => if dfmt.isScaled = false ∧ sfmt.isScaled = false then some (.cvt { rm := rm, sat := mLo m, dfmt := dfmt, sfmt := sfmt, d := d, a := a, form := Form.of r.ext }) else none

/-- Opcode group 0x0A (R241). -/
def pick0A (r : Raw) : Option Instr :=
  let h := r.hi
  match (fCond h).toNat with
  | 0 => some (.beq { off := fBoff h, a := fD h, b := fA h })
  | 1 => some (.bne { off := fBoff h, a := fD h, b := fA h })
  | 2 => some (.blt { off := fBoff h, a := fD h, b := fA h })
  | 3 => some (.bge { off := fBoff h, a := fD h, b := fA h })
  | 4 => some (.bltu { off := fBoff h, a := fD h, b := fA h })
  | 5 => some (.bgeu { off := fBoff h, a := fD h, b := fA h })
  | _ => none

/-- Opcode group 0x0B (R241). -/
def pick0B (r : Raw) : Option Instr :=
  let h := r.hi
  if fL h = 0#1 then some (.jmp { off := fJoff h }) else some (.call { off := fJoff h })

/-- Opcode group 0x0C (R241). -/
def pick0C (r : Raw) : Option Instr :=
  let h := r.hi
  match (fFn h).toNat with
  | 0 => some (.jmpi { a := fA h })
  | 1 => some (.calli { a := fA h })
  | 2 => some .ret
  | _ => none

/-- Opcode group 0x0D (R241). -/
def pick0D (r : Raw) : Option Instr :=
  let h := r.hi
  let m := fMod h
  match (fFn h).toNat with
  | 0 => some (.enter { s := fD h, v := fA h })
  | 1 => some .leave
  | 2 => if srOk (fB h) then some (.rdsr { d := fD h, sr := fB h, a := fA h }) else none
  | 3 => some (.probe { vec := mLo m, d := fD h, a := fA h })
  | 4 => some (.brk { h := mLo m, hg := (fD h).extractLsb' 0 4 })
  | _ => none

/-- Opcode group 0x10 (R241). -/
def pick10 (r : Raw) : Option Instr :=
  let h := r.hi
  some (.ld { sz := fSz h, pi := fPi h, sx := fSx h, off := fOff h, base := fA h, d := fD h, form := Form.of r.ext })

/-- Opcode group 0x11 (R241). -/
def pick11 (r : Raw) : Option Instr :=
  let h := r.hi
  some (.st { sz := fSz h, pi := fPi h, off := fOff h, base := fA h, s := fD h, form := Form.of r.ext })

/-- Opcode group 0x12 (R241). -/
def pick12 (r : Raw) : Option Instr :=
  let h := r.hi
  match (fSz h).toNat with
  | 0 => (Rm.of (xOf r).rm).bind fun rm => some (.lde { pi := fPi h, off := fOff h, base := fA h, d := fD h, rm := rm, form := Form.of r.ext })
  | 1 => (Rm.of (xOf r).rm).bind fun rm => some (.ste { pi := fPi h, off := fOff h, base := fA h, s := fD h, rm := rm, sat := (xOf r).sat, form := Form.of r.ext })
  | _ => none

/-- Opcode group 0x13 (R241). -/
def pick13 (r : Raw) : Option Instr :=
  let h := r.hi
  match (fSub h).toNat with
  | 0 => (scopeOr .dev r.ext).bind fun scope => some (.ldAcq { sz := fSz h, scope := scope, off := fOff h, base := fA h, d := fD h, form := Form.of r.ext })
  | 1 => (scopeOr .dev r.ext).bind fun scope => some (.ldc { sz := fSz h, scope := scope, off := fOff h, base := fA h, d := fD h, form := Form.of r.ext })
  | 2 => some (.lds { off := fOff h, base := fA h, d := fD h, c := (xOf r).c, form := Form.of r.ext })
  | _ => none

/-- Opcode group 0x14 (R241). -/
def pick14 (r : Raw) : Option Instr :=
  let h := r.hi
  if fSub h = 0#2 then (scopeOr .dev r.ext).bind fun scope => some (.stRel { sz := fSz h, scope := scope, off := fOff h, base := fA h, s := fD h, form := Form.of r.ext }) else none

/-- Opcode group 0x15 (R241). -/
def pick15 (r : Raw) : Option Instr :=
  let h := r.hi
  r.ext.bind fun x =>
  (Scope.of x.scope).bind fun scope => (Fmt.of x.t1).bind fun fmt => (AmoOp.of (engOp x)).bind fun op => (some (x.sat)).bind fun sat => if amoOk op fmt sat then some (.amo { off := fOff h, base := fA h, d := fD h, c := x.c, e := x.e, scope := scope, order := Order.of x.order, fmt := fmt, op := op, sat := sat, eb := x.eb }) else none

/-- Opcode group 0x16 (R241). -/
def pick16 (r : Raw) : Option Instr :=
  let h := r.hi
  let m := fMod h
  if fFn h < 4#5 then (Scope.of (mLo3 m)).bind fun scope => some (.fence { scope := scope, order := Order.of ((fFn h).extractLsb' 0 2), form := Form.of r.ext }) else none

/-- Opcode group 0x17 (R241). -/
def pick17 (r : Raw) : Option Instr :=
  let h := r.hi
  let m := fMod h
  match (fFn h).toNat with
  | 0 => some (.spresize { d := fD h, a := fA h, form := Form.of r.ext })
  | 1 => (Scope.of (mLo3 m)).bind fun scope => some (.flushs { scope := scope, a := fA h, b := fB h, form := Form.of r.ext })
  | 2 => (Scope.of (mLo3 m)).bind fun scope => some (.invs { scope := scope, a := fA h, b := fB h, form := Form.of r.ext })
  | 3 => (PrefLevel.of (mW m)).bind fun lvl => some (.pref { lvl := lvl, a := fA h, form := Form.of r.ext })
  | _ => none

/-- Opcode group 0x18 (R241). -/
def pick18 (r : Raw) : Option Instr :=
  let h := r.hi
  match (fFn h).toNat with
  | 0 => (relOf r.ext).bind fun rel => some (.send { a := fA h, b := fB h, rel := rel, form := Form.of r.ext })
  | 1 => (relOf r.ext).bind fun rel => some (.tsend { a := fA h, b := fB h, rel := rel, form := Form.of r.ext })
  | _ => none

/-- Opcode group 0x19 (R241). -/
def pick19 (r : Raw) : Option Instr :=
  let h := r.hi
  let m := fMod h
  match (fFn h).toNat with
  | 0 => some (.recv { d := fD h, a := fA h, b := fB h, form := Form.of r.ext })
  | 1 => some (.rcancel { d := fD h, a := fA h, form := Form.of r.ext })
  | 2 => some (.chwr { d := fD h, a := fA h, b := fB h, form := Form.of r.ext })
  | 3 => some (.chmsk { d := fD h, a := fA h, b := fB h, form := Form.of r.ext })
  | 4 => some (.chrd { h := mLo m, d := fD h, a := fA h, form := Form.of r.ext })
  | _ => none

/-- Opcode group 0x1A (R241). -/
def pick1A (r : Raw) : Option Instr :=
  let h := r.hi
  let m := fMod h
  match (fFn h).toNat with
  | 0 => some (.spawn { a := fA h })
  | 1 => some .join
  | 2 => if m = 1#4 then some (.haltr { a := fA h }) else if m = 0#4 then some .halt else none
  | 3 => some .yield
  | _ => none

/-- Opcode group 0x1B (R241). -/
def pick1B (r : Raw) : Option Instr :=
  let h := r.hi
  let m := fMod h
  match (fFn h).toNat with
  | 0 => some (.freg { j := mW m, a := fA h, b := fB h, form := Form.of r.ext })
  | 1 => some (.fres { a := fA h, b := fB h, form := Form.of r.ext })
  | 2 => some (.fcancel { a := fA h, form := Form.of r.ext })
  | 3 => some (.freset { a := fA h, form := Form.of r.ext })
  | 4 => some (.fwait { d := fD h, a := fA h, c := (xOf r).c, form := Form.of r.ext })
  | _ => none

/-- Opcode group 0x1C (R241). -/
def pick1C (r : Raw) : Option Instr :=
  let h := r.hi
  let m := fMod h
  match (fFn h).toNat with
  | 0 => some (.barcfg { slot := mLo3 m, a := fA h, b := fB h, form := Form.of r.ext })
  | 1 => some (.bar { slot := mLo3 m, d := fD h, c := (xOf r).c, form := Form.of r.ext })
  | 2 => some (.bararv { slot := mLo3 m, d := fD h, form := Form.of r.ext })
  | 3 => some (.bardrop { slot := mLo3 m, form := Form.of r.ext })
  | 4 => some (.barwt { slot := mLo3 m, d := fD h, a := fA h, c := (xOf r).c, form := Form.of r.ext })
  | 5 => some (.barrd { slot := mLo3 m, d := fD h, form := Form.of r.ext })
  | _ => none

/-- Opcode group 0x1D (R241). -/
def pick1D (r : Raw) : Option Instr :=
  let h := r.hi
  let m := fMod h
  match (fFn h).toNat with
  | 0 => some (.qpush { q := m, a := fA h, c := (xOf r).c, form := Form.of r.ext })
  | 1 => some (.qpop { q := m, d := fD h, c := (xOf r).c, form := Form.of r.ext })
  | 2 => some (.qdwr { q := m, a := fA h, form := Form.of r.ext })
  | 3 => some (.qdrd { q := m, d := fD h, form := Form.of r.ext })
  | 4 => some (.permitFree { q := m, a := fA h, form := Form.of r.ext })
  | 5 => some (.permitStore { q := m, a := fA h, b := fB h, form := Form.of r.ext })
  | _ => none

/-- Opcode group 0x1E (R241). -/
def pick1E (r : Raw) : Option Instr :=
  let h := r.hi
  match (fFn h).toNat with
  | 0 => some (.wlinit { a := fA h, form := Form.of r.ext })
  | 1 => some (.wlpush { d := fD h, a := fA h, b := fB h, form := Form.of r.ext })
  | 2 => some (.wlins { d := fD h, a := fA h, b := fB h, form := Form.of r.ext })
  | 3 => some (.wlpopb { d := fD h, a := fA h, b := fB h, form := Form.of r.ext })
  | 4 => some (.wlstat { d := fD h, a := fA h, form := Form.of r.ext })
  | 5 => some (.wlfree { a := fA h, form := Form.of r.ext })
  | _ => none

/-- Opcode group 0x1F (R241). -/
def pick1F (r : Raw) : Option Instr :=
  let h := r.hi
  match (fFn h).toNat with
  | 0 => some (.subscr { d := fD h, a := fA h, b := fB h, form := Form.of r.ext })
  | 1 => some (.unsub { a := fA h, form := Form.of r.ext })
  | 2 => (scopeOr .core r.ext).bind fun scope => some (.substat { d := fD h, a := fA h, scope := scope, form := Form.of r.ext })
  | _ => none

/-- Opcode group 0x20 (R241). -/
def pick20 (r : Raw) : Option Instr :=
  let h := r.hi
  let m := fMod h
  match (fFn h).toNat with
  | 0 => (VWidth.of (mW m)).bind fun w => some (.vadd { w := w, sat := mS m, d := fD h, a := fA h, b := fB h, form := VForm.of r.ext })
  | 1 => (VWidth.of (mW m)).bind fun w => some (.vsub { w := w, sat := mS m, d := fD h, a := fA h, b := fB h, form := VForm.of r.ext })
  | 2 => if mS m = false then (VWidth.of (mW m)).bind fun w => some (.vand { w := w, d := fD h, a := fA h, b := fB h, form := VForm.of r.ext }) else none
  | 3 => if mS m = false then (VWidth.of (mW m)).bind fun w => some (.vor { w := w, d := fD h, a := fA h, b := fB h, form := VForm.of r.ext }) else none
  | 4 => if mS m = false then (VWidth.of (mW m)).bind fun w => some (.vxor { w := w, d := fD h, a := fA h, b := fB h, form := VForm.of r.ext }) else none
  | 5 => if mS m = false then (VWidth.of (mW m)).bind fun w => some (.vandn { w := w, d := fD h, a := fA h, b := fB h, form := VForm.of r.ext }) else none
  | 6 => if mS m = false then (VWidth.of (mW m)).bind fun w => some (.vshl { w := w, d := fD h, a := fA h, b := fB h, form := VForm.of r.ext }) else none
  | 7 => if mS m = false then (VWidth.of (mW m)).bind fun w => some (.vshr { w := w, d := fD h, a := fA h, b := fB h, form := VForm.of r.ext }) else none
  | 8 => if mS m = false then (VWidth.of (mW m)).bind fun w => some (.vsra { w := w, d := fD h, a := fA h, b := fB h, form := VForm.of r.ext }) else none
  | 9 => if mS m = false then (VWidth.of (mW m)).bind fun w => some (.vmin { w := w, d := fD h, a := fA h, b := fB h, form := VForm.of r.ext }) else none
  | 10 => if mS m = false then (VWidth.of (mW m)).bind fun w => some (.vmax { w := w, d := fD h, a := fA h, b := fB h, form := VForm.of r.ext }) else none
  | _ => none

/-- Opcode group 0x21 (R241). -/
def pick21 (r : Raw) : Option Instr :=
  let h := r.hi
  let m := fMod h
  match (fFn h).toNat with
  | 0 => (Rm.of (mRm m)).bind fun rm => some (.vfadd { rm := rm, sat := mLo m, d := fD h, a := fA h, b := fB h, form := VForm.of r.ext })
  | 1 => (Rm.of (mRm m)).bind fun rm => some (.vfsub { rm := rm, sat := mLo m, d := fD h, a := fA h, b := fB h, form := VForm.of r.ext })
  | 2 => (Rm.of (mRm m)).bind fun rm => some (.vfmul { rm := rm, sat := mLo m, d := fD h, a := fA h, b := fB h, form := VForm.of r.ext })
  | 3 => (Rm.of (mRm m)).bind fun rm => some (.vfma { rm := rm, sat := mLo m, d := fD h, a := fA h, b := fB h, form := VForm.of r.ext })
  | 4 => if m = 0#4 then some (.vfmin { d := fD h, a := fA h, b := fB h, form := VForm.of r.ext }) else none
  | 5 => if m = 0#4 then some (.vfmax { d := fD h, a := fA h, b := fB h, form := VForm.of r.ext }) else none
  | 6 => if m = 0#4 then some (.vfneg { d := fD h, a := fA h, form := VForm.of r.ext }) else none
  | 7 => if m = 0#4 then some (.vrcp { d := fD h, a := fA h, form := VForm.of r.ext }) else none
  | 8 => if m = 0#4 then some (.vrsq { d := fD h, a := fA h, form := VForm.of r.ext }) else none
  | _ => none

/-- Opcode group 0x22 (R241). -/
def pick22 (r : Raw) : Option Instr :=
  let h := r.hi
  let m := fMod h
  match (fFn h).toNat with
  | 0 => (VWidth.of (mW m)).bind fun w => some (.vcmpeq { w := w, d := fD h, a := fA h, b := fB h, form := VForm.of r.ext })
  | 1 => (VWidth.of (mW m)).bind fun w => some (.vcmpne { w := w, d := fD h, a := fA h, b := fB h, form := VForm.of r.ext })
  | 2 => (VWidth.of (mW m)).bind fun w => some (.vcmplt { w := w, d := fD h, a := fA h, b := fB h, form := VForm.of r.ext })
  | 3 => (VWidth.of (mW m)).bind fun w => some (.vcmple { w := w, d := fD h, a := fA h, b := fB h, form := VForm.of r.ext })
  | 4 => some (.vfcmpeq { d := fD h, a := fA h, b := fB h, form := VForm.of r.ext })
  | 5 => some (.vfcmplt { d := fD h, a := fA h, b := fB h, form := VForm.of r.ext })
  | 6 => some (.vfcmple { d := fD h, a := fA h, b := fB h, form := VForm.of r.ext })
  | 7 => some (.vsel { d := fD h, a := fA h, b := fB h, form := VForm.of r.ext })
  | _ => none

/-- Opcode group 0x23 (R241). -/
def pick23 (r : Raw) : Option Instr :=
  let h := r.hi
  let m := fMod h
  (Rm.of (mRm m)).bind fun rm => (Fmt.of (fFn h)).bind fun dfmt => (Fmt.of (fB h)).bind fun sfmt => (some (fD h)).bind fun d => (some (fA h)).bind fun a => if dfmt.isLane ∧ sfmt.isLane then some (.vcvt { rm := rm, sat := mLo m, dfmt := dfmt, sfmt := sfmt, d := d, a := a, form := VForm.of r.ext }) else none

/-- Opcode group 0x24 (R241). -/
def pick24 (r : Raw) : Option Instr :=
  let h := r.hi
  let m := fMod h
  match (fFn h).toNat with
  | 0 => some (.vmov { d := fD h, a := fA h, form := VForm.of r.ext })
  | 1 => some (.vbcast { d := fD h, a := fA h, form := VForm.of r.ext })
  | 2 => if menOf r.ext = false then some (.vins { l := (fB h).extractLsb' 0 4, d := fD h, a := fA h, form := Form.of r.ext }) else none
  | 3 => if menOf r.ext = false then (VWidth.of (mW m)).bind fun w => some (.vext { w := w, l := (fB h).extractLsb' 0 4, d := fD h, a := fA h, form := Form.of r.ext }) else none
  | 4 => some (.viota { d := fD h, form := VForm.of r.ext })
  | _ => none

/-- Opcode group 0x25 (R241). -/
def pick25 (r : Raw) : Option Instr :=
  let h := r.hi
  match (fFn h).toNat with
  | 0 => some (.vshuf { d := fD h, a := fA h, b := fB h, form := VForm.of r.ext })
  | _ => none

/-- Opcode group 0x26 (R241). -/
def pick26 (r : Raw) : Option Instr :=
  let h := r.hi
  let m := fMod h
  match (fFn h).toNat with
  | 0 => (VWidth.of (mW m)).bind fun w => some (.vmul { w := w, d := fD h, a := fA h, b := fB h, form := VForm.of r.ext })
  | 1 => (VWidth.of (mW m)).bind fun w => some (.vmulh { w := w, d := fD h, a := fA h, b := fB h, form := VForm.of r.ext })
  | 2 => (VWidth.of (mW m)).bind fun w => some (.vdiv { w := w, d := fD h, a := fA h, b := fB h, form := VForm.of r.ext })
  | 3 => (VWidth.of (mW m)).bind fun w => some (.vrem { w := w, d := fD h, a := fA h, b := fB h, form := VForm.of r.ext })
  | _ => none

/-- Opcode group 0x27 (R241). -/
def pick27 (r : Raw) : Option Instr :=
  let h := r.hi
  match (fFn h).toNat with
  | 0 => some (.vshli { n := fB h, d := fD h, a := fA h, form := VForm.of r.ext })
  | 1 => some (.vshri { n := fB h, d := fD h, a := fA h, form := VForm.of r.ext })
  | 2 => some (.vsrai { n := fB h, d := fD h, a := fA h, form := VForm.of r.ext })
  | _ => none

/-- Opcode group 0x28 (R241). -/
def pick28 (r : Raw) : Option Instr :=
  let h := r.hi
  match (fSz h).toNat with
  | 0 => some (.vld { pi := fPi h, off := fOff h, base := fA h, r := fD h, form := VForm.of r.ext })
  | 1 => some (.vst { pi := fPi h, off := fOff h, base := fA h, r := fD h, form := VForm.of r.ext })
  | _ => none

/-- Opcode group 0x29 (R241). -/
def pick29 (r : Raw) : Option Instr :=
  let h := r.hi
  match (fSz h).toNat with
  | 0 => (Rm.of (xOf r).rm).bind fun rm => some (.vlde { pi := fPi h, off := fOff h, base := fA h, r := fD h, rm := rm, form := VForm.of r.ext })
  | 1 => (Rm.of (xOf r).rm).bind fun rm => some (.vste { pi := fPi h, off := fOff h, base := fA h, r := fD h, rm := rm, sat := (xOf r).sat, form := VForm.of r.ext })
  | _ => none

/-- Opcode group 0x2A (R241). -/
def pick2A (r : Raw) : Option Instr :=
  let h := r.hi
  match (fSz h).toNat with
  | 0 => some (.vldx { base := fA h, r := fD h, x := fB h, form := VForm.of r.ext })
  | 1 => some (.vstx { base := fA h, r := fD h, x := fB h, form := VForm.of r.ext })
  | _ => none

/-- Opcode group 0x2B (R241). -/
def pick2B (r : Raw) : Option Instr :=
  let h := r.hi
  match (fSz h).toNat with
  | 0 => some (.vlsld { pi := fPi h, off := fOff h, base := fA h, r := fD h, form := VForm.of r.ext })
  | 1 => some (.vlsst { pi := fPi h, off := fOff h, base := fA h, r := fD h, form := VForm.of r.ext })
  | _ => none

/-- Opcode group 0x30 (R241). -/
def pick30 (r : Raw) : Option Instr :=
  let h := r.hi
  r.ext.bind fun x =>
  match (fFn h).toNat with
  | 0 => (VspOp.of (engOp x)).bind fun op => (LFmt.of x.t1).bind fun fmt => (Rm.of x.rm).bind fun rm => (some (x.sat)).bind fun sat => (some (fA h)).bind fun a => if vspOk op fmt sat then some (.vsp { op := op, fmt := fmt, rm := rm, sat := sat, d := fD h, a := a, b := fB h, c := x.c, mask := if x.eng.getLsbD 17 then some x.f else none, eb := x.eb }) else none
  | 1 => (CollOp.of (engOp x)).bind fun op => (LFmt.of x.t1).bind fun fmt => (some (fA h)).bind fun a => if (fmt = .f32 → op.bitwise = false) then some (.vred { op := op, fmt := fmt, d := fD h, a := a, mask := if x.eng.getLsbD 17 then some x.f else none, eb := x.eb }) else none
  | 2 => if engOp x = 0#5 ∧ x.eng.getLsbD 17 = false then (LFmt.of x.t1).bind fun fmt => some (.vtopk { fmt := fmt, d := fD h, a := fA h, b := fB h, c := x.c, e := x.e, eb := x.eb }) else none
  | _ => none

/-- Opcode group 0x31 (R241). -/
def pick31 (r : Raw) : Option Instr :=
  let h := r.hi
  let m := fMod h
  r.ext.bind fun x =>
  match (fFn h).toNat with
  | 0 => some (.mxlease { c := x.c, eb := x.eb })
  | 1 => some .mxrel
  | 2 => some (.tcfg { t := mLo3 m, a := fA h, eb := x.eb })
  | 3 => some (.trel { t := mLo3 m })
  | 4 => some (.mxwait { t := mLo3 m, c := x.c, eb := x.eb })
  | 5 => some (.mxlda { a := fA h, b := fB h, c := x.c, e := x.e, eb := x.eb })
  | 6 => some (.mxldb { a := fA h, b := fB h, c := x.c, e := x.e, eb := x.eb })
  | 7 => if x.rm = 0#3 then (some (mLo3 m)).bind fun t => (Fmt.of x.t1).bind fun fa => (Fmt.of x.t2).bind fun fb => (some (x.sat)).bind fun sat => (some (fA h)).bind fun a => (some (fB h)).bind fun b => if mxmulOk fa fb ∧ (sat → Fmt.intPath fa fb) then some (.mxmul { acc := mS m, t := t, fa := fa, fb := fb, sat := sat, ka := x.eng.extractLsb' 20 3, kb := x.eng.extractLsb' 17 3, fuse := x.eng.getLsbD 16, a := a, b := b, c := x.c, eb := x.eb }) else none else none
  | 8 => if x.rm = 0#3 then (some (mLo3 m)).bind fun t => (Fmt.of x.t1).bind fun fa => (Fmt.of x.t2).bind fun fb => (some (x.sat)).bind fun sat => (some (fA h)).bind fun a => (some (fB h)).bind fun b => if mxternOk fa fb ∧ (sat → Fmt.intPath fa fb) then some (.mxtern { acc := mS m, t := t, fa := fa, fb := fb, sat := sat, ka := x.eng.extractLsb' 20 3, kb := x.eng.extractLsb' 17 3, fuse := x.eng.getLsbD 16, a := a, b := b, c := x.c, eb := x.eb }) else none else none
  | 9 => some (.mxdrain { t := mLo3 m, a := fA h, b := fB h, c := x.c, eb := x.eb })
  | 10 => some (.mxstat { d := fD h })
  | _ => none

/-- Opcode group 0x32 (R241). -/
def pick32 (r : Raw) : Option Instr :=
  let h := r.hi
  r.ext.bind fun x =>
  match (fFn h).toNat with
  | 0 => some (.nbcfg { a := fA h, b := fB h, eb := x.eb })
  | 1 => (Fmt.of x.t1).bind fun fx => (some (fB h)).bind fun b => (some (x.f)).bind fun f => if nbOk x.sat fx then some (.nbmv { sat := x.sat, fx := fx, a := fA h, b := b, c := x.c, e := x.e, f := f, eb := x.eb }) else none
  | 2 => some (.nbstat { d := fD h, a := fA h, eb := x.eb })
  | _ => none

/-- Opcode group 0x33 (R241). -/
def pick33 (r : Raw) : Option Instr :=
  let h := r.hi
  r.ext.bind fun x =>
  match (fFn h).toNat with
  | 0 => some (.cpy { a := fA h, b := fB h, c := x.c, e := x.e, f := x.f, eb := x.eb })
  | 1 => some (.cpyt { a := fA h, b := fB h, c := x.c, e := x.e, f := x.f, eb := x.eb })
  | 2 => (Scope.of x.scope).bind fun scope => some (.syncwait { scope := scope, d := fD h, a := fA h, b := fB h, c := x.c, eb := x.eb })
  | 3 => (Scope.of x.scope).bind fun scope => some (.syncadd { scope := scope, a := fA h, b := fB h, eb := x.eb })
  | 4 => some (.gather { a := fA h, b := fB h, c := x.c, e := x.e, f := x.f, eb := x.eb })
  | 5 => some (.twrun { a := fA h, c := x.c, eb := x.eb })
  | 6 => some .twstop
  | 7 => some (.twstat { d := fD h })
  | 8 => some (.cestat { d := fD h })
  | _ => none

/-- Opcode group 0x34 (R241). -/
def pick34 (r : Raw) : Option Instr :=
  let h := r.hi
  r.ext.bind fun x =>
  match (fFn h).toNat with
  | 0 => some (.gvar { d := fD h, a := fA h, b := fB h, c := x.c, e := x.e, f := x.f, eb := x.eb })
  | 1 => some (.gfac { d := fD h, a := fA h, b := fB h, c := x.c, e := x.e, f := x.f, eb := x.eb })
  | 2 => some (.glink { d := fD h, a := fA h, b := fB h, c := x.c, eb := x.eb })
  | 3 => some (.gfmsg { d := fD h, a := fA h, b := fB h, eb := x.eb })
  | 4 => some (.gdamp { a := fA h, b := fB h, eb := x.eb })
  | 5 => some (.gtol { a := fA h, b := fB h, eb := x.eb })
  | 6 => some (.grelin { a := fA h, b := fB h, eb := x.eb })
  | 7 => some (.gread { d := fD h, a := fA h, b := fB h, eb := x.eb })
  | 8 => some (.gsnap { d := fD h, a := fA h, b := fB h, c := x.c, eb := x.eb })
  | 9 => some (.gcvg { d := fD h, a := fA h, eb := x.eb })
  | 10 => some (.gfree { a := fA h, eb := x.eb })
  | _ => none

/-- Opcode group 0x35 (R241). -/
def pick35 (r : Raw) : Option Instr :=
  let h := r.hi
  r.ext.bind fun x =>
  match (fFn h).toNat with
  | 0 => some (.launch { a := fA h })
  | 1 => (CollOp.of (engOp x)).bind fun op => (some (x.eng.getLsbD 17)).bind fun vec => (Fmt.of x.t1).bind fun fmt => (some (x.c)).bind fun c => if collOk op vec fmt then some (.coll { op := op, vec := vec, fmt := fmt, d := fD h, a := fA h, b := fB h, c := c, eb := x.eb }) else none
  | _ => none

/-- Opcode group 0x36 (R241). -/
def pick36 (r : Raw) : Option Instr :=
  let h := r.hi
  r.ext.bind fun x =>
  match (fFn h).toNat with
  | 0 => some (.resume { a := fA h, eb := x.eb })
  | 1 => some .killt
  | 2 => some (.killk { a := fA h, eb := x.eb })
  | 3 => some (.dwrd { d := fD h, a := fA h, b := fB h, c := x.c, eb := x.eb })
  | 4 => some (.dwwr { a := fA h, b := fB h, c := x.c, e := x.e, eb := x.eb })
  | 5 => some (.sysrd { d := fD h, a := fA h, eb := x.eb })
  | 6 => some (.syswr { a := fA h, b := fB h, eb := x.eb })
  | 7 => some (.mext { a := fA h, b := fB h, eb := x.eb })
  | 8 => some (.tlbsync { a := fA h, b := fB h, eb := x.eb })
  | 9 => some (.preempt { d := fD h, a := fA h, b := fB h, c := x.c, eb := x.eb })
  | 10 => some (.restore { d := fD h, a := fA h, eb := x.eb })
  | 11 => some (.migrate { d := fD h, a := fA h, b := fB h, c := x.c, eb := x.eb })
  | 12 => some (.ckptFull { d := fD h, a := fA h, eb := x.eb })
  | 13 => some (.trap { a := fA h, eb := x.eb })
  | _ => none

/-- Opcode group 0x37 (R241). -/
def pick37 (r : Raw) : Option Instr :=
  let h := r.hi
  r.ext.bind fun x =>
  match (fFn h).toNat with
  | 0 => some (.hgtrig { a := fA h, eb := x.eb })
  | 1 => some (.hgrel { a := fA h, eb := x.eb })
  | 2 => some (.hgstat { d := fD h, a := fA h, eb := x.eb })
  | _ => none

/-- Base, x and literal legality of the opcode groups (R241). -/
def groupLegal (opc : Nat) : Bool × Bool × Bool :=
  match opc with
  | 0x02 | 0x06 => (true, false, true)
  | 0x03 => (true, true, true)
  | 0x05 | 0x0A | 0x0B | 0x0C | 0x0D | 0x1A => (true, false, false)
  | 0x01 | 0x04 | 0x07 | 0x08 | 0x09 | 0x10 | 0x11 | 0x12 | 0x13 | 0x14 | 0x16 | 0x17 | 0x18 | 0x19
  | 0x1B | 0x1C | 0x1D | 0x1E | 0x1F | 0x20 | 0x21 | 0x22 | 0x23 | 0x24 | 0x25 | 0x26 | 0x27
  | 0x28 | 0x29 | 0x2A | 0x2B => (true, true, false)
  | 0x15 | 0x30 | 0x31 | 0x32 | 0x33 | 0x34 | 0x35 | 0x36 | 0x37 => (false, true, false)
  | _ => (false, false, false)

/-- Rows 1 to 4 of R242. -/
def groupOk (r : Raw) : Bool :=
  let (b, x, l) := groupLegal r.opc.toNat
  (if r.ext.isSome then x else b) && (r.lit.isNone || l)

/-- A reserved format, rounding or scope code in an extension word (R22, R33, R97), the sixth row of R242. -/
def codesOk : Option Ext → Bool
  | none => true
  | some x => (x.t1 == 0 || (Fmt.of x.t1).isSome) && (x.t2 == 0 || (Fmt.of x.t2).isSome)
      && (Scope.of x.scope).isSome && (Rm.of x.rm).isSome


/-- The order code of an extended load or store (R102): a load takes `.acq`, a store `.rel`, and neither another's nor both. -/
def orderOk (r : Raw) : Bool :=
  let c := (xOf r).order.toNat
  let ld := c ≤ 1
  let st := c % 2 = 0
  let either := if fSz r.hi = 0#2 then decide ld else decide st
  match r.opc.toNat with
  | 0x10 | 0x13 => ld
  | 0x11 | 0x14 => st
  | 0x12 | 0x28 | 0x29 | 0x2A | 0x2B => either
  | _ => true

/-- The candidate an encoding names, or none for fault 0x01: rows 1 to 6 of R242. -/
def pick (r : Raw) : Option Instr :=
  if groupOk r = false then none else if codesOk r.ext = false || orderOk r = false then none else
  match r.opc.toNat with
  | 1 => pick01 r
  | 2 => pick02 r
  | 3 => pick03 r
  | 4 => pick04 r
  | 5 => pick05 r
  | 6 => pick06 r
  | 7 => pick07 r
  | 8 => pick08 r
  | 9 => pick09 r
  | 10 => pick0A r
  | 11 => pick0B r
  | 12 => pick0C r
  | 13 => pick0D r
  | 16 => pick10 r
  | 17 => pick11 r
  | 18 => pick12 r
  | 19 => pick13 r
  | 20 => pick14 r
  | 21 => pick15 r
  | 22 => pick16 r
  | 23 => pick17 r
  | 24 => pick18 r
  | 25 => pick19 r
  | 26 => pick1A r
  | 27 => pick1B r
  | 28 => pick1C r
  | 29 => pick1D r
  | 30 => pick1E r
  | 31 => pick1F r
  | 32 => pick20 r
  | 33 => pick21 r
  | 34 => pick22 r
  | 35 => pick23 r
  | 36 => pick24 r
  | 37 => pick25 r
  | 38 => pick26 r
  | 39 => pick27 r
  | 40 => pick28 r
  | 41 => pick29 r
  | 42 => pick2A r
  | 43 => pick2B r
  | 48 => pick30 r
  | 49 => pick31 r
  | 50 => pick32 r
  | 51 => pick33 r
  | 52 => pick34 r
  | 53 => pick35 r
  | 54 => pick36 r
  | 55 => pick37 r
  | _ => none

/-! Words (R237, R240). -/

def Ext.w1 (x : Ext) : BitVec 32 := x.c ++ x.e ++ x.f ++ x.eb ++ x.scope ++ x.order ++ x.t1 ++ x.z
def Ext.w2 (x : Ext) : BitVec 32 := x.t2 ++ x.rm ++ BitVec.ofBool x.sat ++ x.eng
def Ext.ofWords (w1 w2 : BitVec 32) : Ext :=
  { c := w1.extractLsb' 27 5, e := w1.extractLsb' 22 5, f := w1.extractLsb' 17 5, eb := w1.extractLsb' 11 6
    scope := w1.extractLsb' 8 3, order := w1.extractLsb' 6 2, t1 := w1.extractLsb' 1 5, z := w1.extractLsb' 0 1
    t2 := w2.extractLsb' 27 5, rm := w2.extractLsb' 24 3, sat := w2.getLsbD 23, eng := w2.extractLsb' 0 23 }

/-- The LEN field of an instruction's word 0 (R237). -/
def Raw.len (r : Raw) : BitVec 2 :=
  match r.ext, r.lit with | none, none => 0 | none, some _ => 1 | some _, none => 2 | some _, some _ => 3
def Raw.words (r : Raw) : List (BitVec 32) :=
  (r.hi ++ r.opc ++ r.len)
    :: ((match r.ext with | none => [] | some x => [x.w1, x.w2])
    ++ (match r.lit with | none => [] | some l => [l.extractLsb' 0 32, l.extractLsb' 32 32]))

/-- How many words follow word 0 (R237). -/
def moreWords (w0 : BitVec 32) : Nat := match (w0.extractLsb' 0 2).toNat with | 0 => 0 | 3 => 4 | _ => 2

/-- The fields of an instruction whose words are all there. -/
def Raw.ofWords : List (BitVec 32) → Option Raw
  | [] => none
  | w0 :: ws =>
    let opc := w0.extractLsb' 2 6
    let hi := w0.extractLsb' 8 24
    match (w0.extractLsb' 0 2).toNat, ws with
    | 0, [] => some ⟨opc, hi, none, none⟩
    | 1, [l0, l1] => some ⟨opc, hi, none, some (l1 ++ l0)⟩
    | 2, [x1, x2] => some ⟨opc, hi, some (Ext.ofWords x1 x2), none⟩
    | 3, [x1, x2, l0, l1] => some ⟨opc, hi, some (Ext.ofWords x1 x2), some (l1 ++ l0)⟩
    | _, _ => none

/-- The words of an instruction (R237 to R240). -/
def encode (i : Instr) : List (BitVec 32) := (encodeRaw i).words

/-- What a word sequence decodes to: an illegal instruction (fault 0x01), or an instruction with the answer of the last row of
R242: true when a reserved or unused field is not zero, or an operand breaks a field rule (fault 0x02). -/
inductive Decoded
  | illegal
  | instr (i : Instr) (rsv : Bool)
  deriving DecidableEq, Repr

/-- The decoder (R242), total on any words. -/
def decodeWords (ws : List (BitVec 32)) : Decoded :=
  match Raw.ofWords ws with
  | none => .illegal
  | some r =>
    match pick r with
    | none => .illegal
    | some i => .instr i (!(decide (encodeRaw i = r) && i.wf))

/-- Word `k` of `w`. -/
def wordOf (w k : Nat) : BitVec 32 := BitVec.ofNat 32 (w / 2 ^ (32 * k))

/-- The words of a table number: word 0 in bits 31 to 0, as many more as its LEN says. -/
def tableWords (w : Nat) : List (BitVec 32) :=
  wordOf w 0 :: (List.range (moreWords (wordOf w 0))).map fun k => wordOf w (k + 1)

/-- The instruction read from the bits `w` of a table row of `nbits` bits; bits above them are zero. -/
def decodeTableWord (nbits w : Nat) : Option Instr :=
  match decodeWords (tableWords (w % 2 ^ nbits)) with
  | .instr i false => some i
  | _ => none

end Sys2Proof
end

