-- ==== Sys2Proof/Machine/Mem.lean ====
section
/-! DEFINITION. Byte memories in canonical form and sparse tables. An unlisted byte reads 0 (R413, R246). -/

namespace Sys2Proof

/-- Bytes by address, addresses rising, no zero byte listed. -/
abbrev Mem := List Host.Cell

/-- What an unlisted address reads as (log 7). -/
def Mem.dflt : Byte := 0

/-- The canonical form: strictly rising addresses above `lo`, and no entry equal to the unlisted value. -/
def Mem.wfFrom (lo : Nat) : Mem → Bool
  | [] => true
  | (a, b) :: t => decide (lo ≤ a) && b != Mem.dflt && Mem.wfFrom (a + 1) t

def Mem.wf (m : Mem) : Bool := Mem.wfFrom 0 m

/-- One byte. -/
def Mem.read : Mem → Nat → Byte
  | [], _ => Mem.dflt
  | (k, b) :: t, a => if k = a then b else Mem.read t a

/-- Put a byte in its place. -/
def Mem.insert : Mem → Nat → Byte → Mem
  | [], a, b => [(a, b)]
  | (k, c) :: t, a, b => if a < k then (a, b) :: (k, c) :: t else if a = k then (a, b) :: t else (k, c) :: Mem.insert t a b

/-- Write one byte. -/
def Mem.write (m : Mem) (a : Nat) (b : Byte) : Mem := if b = Mem.dflt then m.filter fun c => c.1 != a else Mem.insert m a b

/-- `n` bytes at `a`, little-endian (R18). -/
def Mem.readNat (m : Mem) (a : Nat) : Nat → Nat
  | 0 => 0
  | n + 1 => (Mem.read m a).toNat + 256 * Mem.readNat m (a + 1) n

/-- The low `n` bytes of `x` at `a`, little-endian. -/
def Mem.writeNat (m : Mem) (a : Nat) : Nat → Nat → Mem
  | 0, _ => m
  | n + 1, x => Mem.writeNat (Mem.write m a (BitVec.ofNat 8 x)) (a + 1) n (x / 256)

def Mem.readLine (m : Mem) (a : Nat) : Line := BitVec.ofNat 512 (m.readNat a 64)

/-- Byte `i` of a line. -/
def Line.byte (l : Line) (i : Nat) : Byte := l.extractLsb' (8 * i) 8

/-- The masked bytes of a line, from byte `64 - n` on. -/
def Mem.writeMaskedFrom (m : Mem) (a : Nat) (d : Line) (k : Mask) : Nat → Mem
  | 0 => m
  | n + 1 =>
    let i := 63 - n
    Mem.writeMaskedFrom (if k.getLsbD i then Mem.write m (a + i) (Line.byte d i) else m) a d k n

/-- The masked bytes of a line at `a` (R126). -/
def Mem.writeMasked (m : Mem) (a : Nat) (d : Line) (k : Mask) : Mem := Mem.writeMaskedFrom m a d k 64

/-- Zero `n` bytes at `a`. -/
def Mem.clear (m : Mem) (a n : Nat) : Mem := m.filter fun c => !(decide (a ≤ c.1) && decide (c.1 < a + n))

/-- The bytes of `src` in a range, moved to start at `b` (R81, R377). -/
def Mem.slice (m : Mem) (a n : Nat) : Mem := m.filter fun c => decide (a ≤ c.1) && decide (c.1 < a + n)

/-- Spread a byte mask over the bits of a line. -/
def Mask.bits (k : Mask) : Line :=
  (List.range 64).foldl (fun acc i => if k.getLsbD i then acc ||| (255#512 <<< (8 * i)) else acc) 0#512

/-- `new` where the mask is set, `old` elsewhere. -/
def Line.merge (old new : Line) (k : Mask) : Line := (old &&& ~~~ k.bits) ||| (new &&& k.bits)

/-- A mask of `n` bytes from byte `o`. -/
def Mask.span (o n : Nat) : Mask := BitVec.ofNat 64 ((2 ^ n - 1) * 2 ^ o)

/-- Place an `n`-byte value at byte `o` of a line. -/
def Line.put (o : Nat) (x : Nat) : Line := BitVec.ofNat 512 (x * 2 ^ (8 * o))

/-- `n` bytes at byte `o` of a line. -/
def Line.get (l : Line) (o n : Nat) : Nat := l.toNat / 2 ^ (8 * o) % 2 ^ (8 * n)

variable {α : Type}

/-- Look up. -/
def SMap.find? : SMap α → Nat → Option α
  | [], _ => none
  | (k, x) :: t, a => if k = a then some x else SMap.find? t a

def SMap.getD (m : SMap α) (a : Nat) (d : α) : α := (SMap.find? m a).getD d

/-- Insert or replace, keys ascending. -/
def SMap.set : SMap α → Nat → α → SMap α
  | [], a, x => [(a, x)]
  | (k, y) :: t, a, x => if a < k then (a, x) :: (k, y) :: t else if a = k then (a, x) :: t else (k, y) :: SMap.set t a x

/-- The first entry that satisfies a test. -/
def SMap.findP (p : Nat → α → Bool) : SMap α → Option (Nat × α)
  | [] => none
  | (k, x) :: t => if p k x then some (k, x) else SMap.findP p t

/-- Change every entry. -/
def SMap.mapKV (f : Nat → α → α) (m : SMap α) : SMap α := List.map (fun q : Nat × α => (q.1, f q.1 q.2)) m

/-- The first answer over all entries. -/
def SMap.some? {β : Type} (f : Nat → α → Option β) : SMap α → Option β
  | [] => none
  | (k, x) :: t => match f k x with | some y => some y | none => SMap.some? f t

def SMap.erase (m : SMap α) (a : Nat) : SMap α := m.filter fun p => p.1 != a

end Sys2Proof
end

