-- ==== Sys2Proof/Machine/State.lean ====
section
/-! DEFINITION. The machine state: everything the manual gives the device, as plain data, and its value after reset. -/

namespace Sys2Proof.Machine

/-- Why the model stops: it has no reason to. What goes wrong on this hardware is a fault that the machine itself takes, a record, or a wait. -/
inductive Fault
  deriving DecidableEq, Repr

/-- Why the model refuses an instruction. -/
inductive Refusal
  /-- An arm of Dispatch.lean without a meaning. Safe: nothing is claimed of it. -/
  | notModelled (mnemonic : String)
  deriving DecidableEq, Repr

/-- The states of a context (R146). -/
inductive CtxSt | free | reserved | live | frozen | saved
  deriving DecidableEq, Repr

/-- A range register (R85). -/
structure Window where
  lo : Word
  hi : Word
  deriving DecidableEq, Repr

/-- What a blocked context waits for (R288). -/
inductive WaitFor
  /-- the instruction is tried again when the context is next selected -/
  | retry
  /-- a ch2 reply for the page of the access: its addresses, code, subtype and INFO[31:16] (R217); `fetch` marks the fetch of the instruction -/
  | page (va ia : Word) (code sub : BitVec 8) (info : BitVec 16) (fetch : Bool)
  /-- room or an entry in a queue (R175) -/
  | queue (cluster q : Nat)
  /-- the resolution of the future at an IA (R172); the destination and the instruction's bytes -/
  | future (ia : Word) (d : Reg) (bytes : Nat)
  /-- that a barrier slot's PHASE is not `p` (R179); the destination, its taint and the instruction's bytes -/
  | phase (slot p : Nat) (d : Reg) (taint : Bool) (bytes : Nat)
  /-- a step of the sync word at an offset of a core's scratchpad (R352) -/
  | sync (core off : Nat)
  /-- the matrix lease (R165) -/
  | lease
  /-- a step of another agent completes the instruction -/
  | done
  /-- the release of a phase of a cluster's slot in which the arrival was counted (R179); destination, its taint, and the instruction's bytes -/
  | barrier (clu slot : Nat) (phase : BitVec 8) (d : Reg) (taint : Bool) (bytes : Nat)
  /-- the combination of a collective (R184): unit, ID, index; destination, its taint, format, and the instruction's bytes -/
  | coll (die unit : Nat) (id : BitVec 16) (i : Nat) (vec : Bool) (d : Reg) (taint : Bool) (fmt : Fmt) (sc : Scope) (bytes : Nat)
  /-- the full update of a subscriber entry (R285, R358); for GLINK also the link to record; the destination and the instruction's bytes -/
  | bind (entry : Nat) (link : Option (Nat × Nat × Word)) (d : Reg) (taint : Bool) (bytes : Nat)
  /-- unbind acknowledgements outstanding (R365), and the instruction's bytes -/
  | unbinds (n bytes : Nat)
  /-- subscription updates outstanding before a fence or an arrival (R143) -/
  | updates
  /-- the unfreeze of the core's GMU (R355) -/
  | gmu
  /-- the answer of another device that no path reaches, since a TIME (R414) -/
  | remote (since : Nat)
  /-- an atomic that its frame's old stack holds during a migration (R132), with the page of its IA -/
  | moved (page : Nat)
  /-- a trap handler whose ending instruction has acted ends as HALT does, once its children and landings are in (R370) -/
  | ending
  /-- the fence behind a privileged instruction that has acted (R367) -/
  | fence
  deriving DecidableEq, Repr

/-- A wait with its cycle limit (0: none) and the TIME it counts from (R288). -/
structure Wait where
  what  : WaitFor
  limit : Nat
  since : Nat
  deriving DecidableEq, Repr

/-- One context (R146). `yielded` are the contexts that issue before it does, after YIELD (R296). `jumped`: its last instruction was a taken
branch, jump, call or return, whose context issues a cycle later than others do (R254). `recent` are the registers that its last instruction
wrote, whose values a dependent instruction may still wait for (R254, R306). `vsp`: it is between two groups of a VSP, and occupies the vector
unit (R306, R321). -/
structure Ctx where
  st      : CtxSt
  g       : Vector Word 32
  v       : Vector Line 32
  gFull   : BitVec 32
  vFull   : BitVec 32
  gTaint  : BitVec 32
  vTaint  : BitVec 32
  pc      : Word
  flags   : Word
  gOpen   : Nat
  vOpen   : Nat
  scopes  : List (Nat × Nat)
  win     : Vector Window 4
  task    : BitVec 32
  kid     : BitVec 16
  world   : Bool
  base    : BitVec 5
  prio    : BitVec 5
  stage   : BitVec 4
  priv    : Bool
  chan    : Option Nat
  join    : BitVec 16
  joinScope : Scope
  parent  : Option (BitVec 32)
  launch  : Option Nat
  claim   : Nat
  lane    : Bool
  serial  : BitVec 17
  wait    : Option Wait
  served  : Option Packet
  ldcs    : List Scope
  frozenBy : Option Packet
  yielded : List Nat
  jumped  : Bool
  recent  : List (Bool × Reg)
  vsp     : Bool
  deriving DecidableEq, Repr

/-- A scratchpad way (R81). -/
inductive WaySt | cache | off | live | retained (ch : Nat)
  deriving DecidableEq, Repr

/-- One entry of the write-combining buffer (R107). -/
structure WcbEntry where
  line : Nat
  pa   : Nat
  ty   : PType
  data : Line
  mask : Mask
  deriving DecidableEq, Repr

/-- An accepted arrival (R153), with the handler or trap entry it was accepted under (R295, R213). -/
structure Arrival where
  msg   : Msg
  entry : BitVec 128
  ctx   : Nat
  since : Nat
  level : Option Nat
  deriving DecidableEq, Repr

/-- A source of messages: device, class, number (R152, R154). -/
structure MsgSrc where
  dev  : BitVec 6
  xr   : Bool
  core : BitVec 11
  deriving DecidableEq, Repr

/-- What a refused message needs (R154). -/
inductive Need | start | gmu | overflow
  deriving DecidableEq, Repr

/-- An entry of the refusal queue (R154); `kid` and `tagv` are those of the refused message, which decide what it needs. -/
structure RefEntry where
  src  : MsgSrc
  ch   : BitVec 6
  kind : MsgKind
  tagv : Bool
  kid  : BitVec 16
  deriving DecidableEq, Repr

/-- A reservation made by a context-free notice (R154). -/
structure Resv where
  src  : MsgSrc
  ch   : BitVec 6
  need : Need
  ctx  : Nat
  deriving DecidableEq, Repr

/-- A place of the retry buffer (R155); `due` is the TIME of a resend told by a full refusal queue, 0 for none (R154). -/
structure RetryEntry where
  msg  : Msg
  sent : Bool
  refused : Bool
  due  : Nat
  deriving DecidableEq, Repr

/-- A task-queue record (R156, R159). -/
structure TaskRec where
  pc     : Word
  arg0   : Word
  arg1   : Word
  arg2   : Word
  ctl    : BitVec 32
  parent : Option (BitVec 32)
  launch : Option Nat
  kid    : BitVec 16
  world  : Bool
  win    : Option (Vector Window 4)
  stage  : BitVec 4
  chan   : Option Nat
  acq    : Scope
  since  : Nat
  deriving DecidableEq, Repr

/-- A posted receive (R180, R293). -/
structure Posted where
  ctx  : Nat
  task : BitVec 32
  kid  : BitVec 16
  reg  : Reg
  desc : Word
  buf  : Nat
  deriving DecidableEq, Repr

/-- A pending update of a publisher entry (R141). -/
structure PubPend where
  entry  : Nat
  opened : Nat
  blocks : List (Nat × Mask × Line)
  resid  : Option (BitVec 32)
  cvg    : Option (Nat × Nat)
  group  : Bool
  deriving DecidableEq, Repr

/-- A queued notify of a subscriber entry and its coalesced content (R144): `no` names it in its message, `live` while the entry is the one that
queued it. -/
structure Notify where
  no    : Nat
  entry : Nat
  live  : Bool
  seq   : BitVec 32
  mask  : BitVec 64
  resid : Option (BitVec 32)
  cvg   : Option (Nat × Nat)
  flags : BitVec 16
  deriving DecidableEq, Repr

/-- An object of a GMU directory (R354): a variable or a factor. -/
structure GObj where
  off   : Nat
  ext   : Nat
  kid   : BitVec 16
  links : BitVec 4
  mirrors : List (Nat × Nat)
  deriving DecidableEq, Repr

/-- A Gaussian message unit (R64, R72, R355); `late` arrivals at the head of its queue were pending at the unfreeze. -/
structure Gmu where
  vars   : List GObj
  facs   : List GObj
  inq    : List Msg
  pend   : List Msg
  frozen : Bool
  late   : Nat
  deriving DecidableEq, Repr

/-- A window set (R195). -/
structure WSet where
  kid : BitVec 16
  win : Vector Window 4
  deriving DecidableEq, Repr

/-- One core: a cluster core, or a ridge core with its privileged registers (R3, R5). `held` is set while a pre-emption of the core stands
(R219). -/
structure Core where
  ctxs     : Vector Ctx 8
  ways     : Vector WaySt 20
  nWays    : Nat
  retain   : Option (Nat × Nat)
  spad     : Mem
  lanes    : Mem
  wcb      : List WcbEntry
  handlers : Vector (BitVec 128) 64
  arrivals : List Arrival
  refq     : List RefEntry
  resv     : List Resv
  retry    : List RetryEntry
  taskq    : List TaskRec
  lastSel  : Vector Nat 65
  lastCtx  : Nat
  posted   : List Posted
  overflow : List Msg
  pubs     : Vector (BitVec 128) 16
  subs     : Vector (BitVec 128) 16
  pubPend  : List PubPend
  notifies : List Notify
  gmu      : Gmu
  wsets    : Vector WSet 8
  hgm      : BitVec 16
  halted   : Bool
  held     : Bool
  trapt    : Vector (BitVec 128) 64
  fdrop    : Word
  ftsel    : BitVec 28
  deriving DecidableEq, Repr

/-- A line of an L1 or an L2 slice (R82, R88, R124); `bad`: it was filled with a poisoned line (R228). -/
structure CLine where
  way  : Nat
  pa   : Nat
  ty   : PType
  data : Line
  mask : Mask
  bad  : Bool
  deriving DecidableEq, Repr

/-- A sarking line with its generation, in a way of its set (R89), and its poison (R228). -/
structure SLine where
  way  : Nat
  pa   : Nat
  data : Line
  gen  : BitVec 32
  bad  : Bool
  deriving DecidableEq, Repr

/-- Who issued an engine command: its context, rights and windows as at issue (R326, R343). -/
structure Issuer where
  agent : Nat
  ctx   : Nat
  task  : BitVec 32
  kid   : BitVec 16
  world : Bool
  prio  : BitVec 5
  priv  : Bool
  pc    : Word
  stage : BitVec 4
  claim : Nat
  win   : Vector Window 4
  deriving DecidableEq, Repr

/-- A tensor shape record as read at issue (R335). -/
structure Shape where
  base   : Word
  ext    : Vector Nat 4
  stride : Vector Int 4
  fmt    : Nat
  op     : Nat
  ctl    : Byte
  clip   : Vector Nat 4
  grid   : Vector Nat 4
  deriving DecidableEq, Repr

/-- A command of group 0x31 (R331 to R336). -/
inductive MxCmd
  | stage (toB : Bool) (boff bpitch rowBytes rows : Nat) (src stride : Word)
  | mul (acc : Bool) (t : Nat) (fa fb : Fmt) (sat : Bool) (ka kb aoff apitch boff bpitch k : Nat) (fuse : Bool)
  | drain (t : Nat) (shape : Shape) (sync fut : Word)
  deriving DecidableEq, Repr

/-- A matrix tile (R330): configuration M, N, TT and its nonzero elements. -/
structure Tile where
  conf : Option (Nat × Nat × Bool)
  el   : List (Nat × BitVec 32)
  deriving DecidableEq, Repr

/-- An issued matrix command: `no` is the cluster-wide issue number (R326); `read` says the array side of a drain has
copied its tile into a drain buffer. -/
structure MxEntry where
  no   : Nat
  iss  : Issuer
  cmd  : MxCmd
  read : Bool
  tile : Tile
  deriving DecidableEq, Repr

/-- A command in a copy-engine place (R166, R344, R345). -/
inductive CeCmd
  | cpy (dst src : Word) (count : Nat) (sync fut : Word)
  | cpyt (dst src : Shape) (dt st : Nat) (sync fut : Word)
  | mx (no : Nat)
  deriving DecidableEq, Repr

/-- A copy-engine place or the active command; `pos` is the next byte of a CPY or a staging, element of a CPYT or a drain; `fl` are the flags
that join the issuer's at completion (R38). -/
structure CeEntry where
  iss : Issuer
  cmd : CeCmd
  pos : Nat
  fl  : Word
  deriving DecidableEq, Repr

/-- The tile-walk engine (R185 to R187, R350 to R352). -/
structure TileWalk where
  run    : Bool
  broken : Bool
  iss    : Option Issuer
  ld     : Option Shape
  st     : Option Shape
  tiles  : Nat
  tbytes : Nat
  swoff  : Nat
  bufoff : Nat
  qin    : Nat
  nbuf   : Nat
  bcore  : Nat
  rect   : Nat × Nat × Nat × Nat
  fut    : Word
  loaded : Nat
  credits : List (Nat × Nat)
  stores : List (Nat × Nat × Nat)
  stored : Nat
  lastKid : BitVec 16
  deriving DecidableEq, Repr

/-- The matrix lease (R165): its holder (agent, context), the KID to which it last passed and whether the array is still to be cleared for it
(R328), the number of the partner's fused command for which alone it is held (R334), the commands left of the grant and its start, the waiting
requesters, the tasks whose grant has ended under them, and the order of the last grant of each core. -/
structure Lease where
  holder  : Option (Nat × Nat)
  kid     : BitVec 16
  due     : Bool
  fuse    : Option Nat
  left    : Nat
  since   : Nat
  waiters : List (Nat × Nat)
  lapsed  : List (Nat × Nat)
  granted : SMap Nat
  deriving DecidableEq, Repr

/-- One cluster (R3, R7). `brokeSw` are the queues that broken pipelines fed here, each with the core and the offset of its sync word (R187).
`haltMx` is present while a halt group holds the array: commands numbered below it were active then and end first
(R223, R219). -/
structure Cluster where
  l1      : SMap CLine
  qd      : Vector Word 16
  qOwner  : Vector (BitVec 16) 16
  pushers : List (Nat × Nat × Nat)
  poppers : List (Nat × Nat × Nat)
  brokeSw : List (Nat × Nat × Nat)
  bs      : Vector Word 8
  bsOwner : Vector (BitVec 16) 8
  bsSent  : Vector Bool 8
  bsEast  : Vector Bool 8
  bsSouth : Vector Bool 8
  tiles   : Vector Tile 8
  bufA    : Mem
  bufB    : Mem
  lease   : Lease
  cmds    : List MxEntry
  nextNo  : Nat
  fenced  : BitVec 4
  disabled : Bool
  stgerr  : Bool
  places  : List (Nat × CeEntry)
  active  : Option (Nat × CeEntry)
  tw      : TileWalk
  haltMx  : Option Nat
  haltCe  : Bool
  haltTw  : Bool
  deriving DecidableEq, Repr

/-- A queued or placed launch (R158, R159); `todo` is its unplaced (agent, stage) list. -/
structure Launch where
  id     : Nat
  pc     : Word
  arg0   : Word
  arg1   : Word
  dem    : Byte
  prio   : BitVec 5
  spreq  : Nat
  kid    : BitVec 16
  world  : Bool
  ch     : Nat
  fut    : Option Nat
  iss    : Issuer
  started : Bool
  todo   : List (Nat × Nat)
  placed : Nat
  live   : Nat
  killed : Nat
  since  : Nat
  deriving DecidableEq, Repr

/-- A gather command (R348, R349); `pos` is the next position. -/
structure GatherCmd where
  iss : Issuer
  dst : Word
  src : Word
  idx : Word
  n   : Nat
  rb  : Nat
  sync : Word
  pos : Nat
  deriving DecidableEq, Repr

/-- An open collective instance (R184). -/
structure CollInst where
  unit  : Nat
  kid   : BitVec 16
  id    : BitVec 16
  n     : Nat
  op    : CollOp
  vec   : Bool
  fmt   : Fmt
  limit : Nat
  opened : Nat
  arrived : List CollMsg
  deriving DecidableEq, Repr

/-- A snapshot at a die's controller (R363): the task whose GSNAP it is, whether its rectangle is frozen, the records and bytes written, and
a fault of the copy. -/
structure SnapReq where
  task   : BitVec 32
  rect   : Nat × Nat × Nat × Nat
  frozen : Bool
  recs   : Nat
  bytes  : Nat
  failed : Bool
  deriving DecidableEq, Repr

/-- One die. -/
structure Die where
  l2       : SMap CLine
  sark     : SMap SLine
  dsp      : Nat
  dspad    : Mem
  skgen    : BitVec 32
  skSize   : Nat
  cec      : Word
  cethr    : Word
  wclu     : Word
  wslice   : Word
  wridge   : Byte
  launchq  : List Launch
  gathers  : List (Nat × GatherCmd)
  colls    : List CollInst
  collWait : List CollMsg
  snaps    : List SnapReq
  trig     : BitVec 16
  running  : Bool
  stopped  : Bool
  warn     : Bool
  tstop    : Bool
  temp     : Byte
  haltGat  : BitVec 64
  haltColl : BitVec 64
  deriving DecidableEq, Repr

/-- The directory state of a SEQ line (R122); absent is U. -/
inductive DirSt | shared (h : List Nat) | modified (k : Nat)
  deriving DecidableEq, Repr

/-- The near-bank copies of a placed descriptor (R338), keyed by the descriptor's physical address. -/
structure NbMat where
  fmt   : Nat
  blk   : Nat
  rows  : Nat
  cols  : Nat
  dest  : Word
  stack : Nat
  deriving DecidableEq, Repr

/-- A near-bank copy or product in flight (R339, R340); `pos` is the next row, `part` the rows computed for a message that is not full yet. -/
inductive NbCmd
  | place (nbd : Nat) (fut : Option Nat) (src : Word) (pitch pos : Nat)
  | mv (nbd : Nat) (fx : Fmt) (sat acc msg : Bool) (x : List (BitVec 64)) (y : Word) (row0 nrows : Nat) (sync : Word) (pos : Nat)
    (part : List Nat)
  deriving DecidableEq, Repr

/-- A near-bank command, with the flags that join the issuer's at completion (R38). -/
structure NbEntry where
  id  : Nat
  iss : Issuer
  cmd : NbCmd
  fl  : Word
  deriving DecidableEq, Repr

/-- A bound work-list (R182, R183): key is the header's physical address. -/
structure WorkList where
  hcap    : Nat
  scap    : Nat
  entries : List (BitVec 32)
  spilled : Bool
  pushes  : Word
  pops    : Word
  kid     : BitVec 16
  deriving DecidableEq, Repr

/-- The work that a pre-emption names (R376): a kernel, cores of a cluster, or the whole device except ridge cores. -/
inductive StopSet
  | kernel (kid : BitVec 16)
  | cores (l : List Nat)
  | device
  deriving DecidableEq, Repr

/-- The image of a SAVED context (R221): its lane slices where it held them, and the clusters whose lease it held. Its registers stand in
its context (log 30). -/
structure SavedCtx where
  task   : BitVec 32
  lanes  : Option Mem
  leases : List Nat
  deriving DecidableEq, Repr

/-- The array of a cluster as saved (R219): tiles, operand buffers, the KID they belong to, STGERR. -/
structure ArrayImage where
  cluster : Nat
  tiles   : Vector Tile 8
  bufA    : Mem
  bufB    : Mem
  kid     : BitVec 16
  stgerr  : Bool
  deriving DecidableEq, Repr

/-- A save area (R376), keyed by the physical address of its first byte: the issuing task, whether its PREEMPT still runs, the bytes written,
the units that have not acknowledged (R220), and what has been saved: contexts, cores, arrays, and the remaining commands of engines with
their clusters or slices. -/
structure SaveArea where
  by_    : BitVec 32
  busy   : Bool
  set    : StopSet
  bytes  : Nat
  todo   : List StopUnit
  ctxs   : List SavedCtx
  cores  : List Nat
  arrays : List ArrayImage
  mx     : List (Nat × MxEntry)
  ce     : List (Nat × Nat × CeEntry)
  tws    : List (Nat × TileWalk)
  gathers : List (Nat × Nat × GatherCmd)
  nb     : List NbEntry
  deriving DecidableEq, Repr

/-- The state of another device's page on this device (R129); `held` are the stores held in OP; `by_` is the context whose store made bytes
dirty last, to whose kernel a dropped push is reported (R414): agent, task, KID. -/
inductive PageSt | rd | op | ow
  deriving DecidableEq, Repr

structure PageCopy where
  st    : PageSt
  data  : Mem
  dirty : List Nat
  held  : List (Nat × Nat × Nat × Nat)
  by_   : Nat × BitVec 32 × BitVec 16
  deriving DecidableEq, Repr

/-- Holders and owner of one of this device's own pages (R128), the device whose request for ownership is being served, and the requests that
wait, in arrival order (R131). -/
structure PageHome where
  holders : List Nat
  owner   : Option Nat
  op      : Option Nat
  queue   : List PageReq
  deriving DecidableEq, Repr

/-- A thatch line, tagged by PA, in a way of its set (R90); `dirty` until it is written back to HBM. -/
structure TLine where
  way   : Nat
  data  : Line
  dirty : Bool
  deriving DecidableEq, Repr

/-- A translation that a home caches for one of its 4 KiB pages (R91): the 4 KiB pages of the leaf's page, and the leaf of this one. -/
structure Tlb where
  pages : Nat
  pte   : Word
  deriving DecidableEq, Repr

/-- A page of another device as its home there has it (R128): type, permissions, owner of a PRV page, its frame and the world of it where the home
checks one, and the full words of a WSO page (8-byte words of the IA). -/
structure FarPage where
  ty    : PType
  rd    : Bool
  wr    : Bool
  ex    : Bool
  owner : BitVec 32
  frame : Nat
  world : Option Bool
  full  : List Nat
  deriving DecidableEq, Repr

/-- Who waits at a scratchpad port (R140): a context, or the agent whose step is an event. -/
inductive PortUser
  | ctx (agent ctx : Nat)
  | ev (e : Ev)
  deriving DecidableEq, Repr

/-- What has left the device: a write to the host's memory, a store to another device's page, a push of a page's dirty bytes, or a request for the
ownership of a page whose stores are held. -/
inductive Leaving | host | far | push | own
  deriving DecidableEq, Repr

/-- A write or request that has left the device and is not acknowledged, since a TIME (R411, R414): its context, with the AGENT code and instance of
an engine, and the bytes. -/
structure Unacked where
  what  : Leaving
  agent : Nat
  ctx   : Nat
  task  : BitVec 32
  kid   : BitVec 16
  stage : BitVec 4
  pc    : Word
  code  : BitVec 8
  inst  : Nat
  ia    : Nat
  n     : Nat
  v     : Nat
  since : Nat
  deriving DecidableEq, Repr

/-- A completion that waits at its continuation record (R171, R132): the pool index, the slot, its outcome, the IA, who completes; for the reply
to a page fault with a code and a subtype, or, without them, for the page's move or ownership. -/
structure Completion where
  kid  : BitVec 16
  idx  : Nat
  slot : Nat
  bad  : Bool
  ia   : Nat
  who  : BitVec 8
  inst : Nat
  agent : Nat
  task : BitVec 32
  pc   : Word
  stage : BitVec 4
  fault : Option (BitVec 8 × BitVec 8)
  deriving DecidableEq, Repr

/-- The resolution of a future by an engine that waits for its page's move or ownership (R132, R129): the command, the future's IA, the value
and the state. -/
structure HeldRes where
  iss : Issuer
  eng : Engine
  ia  : Nat
  val : Option Nat
  st  : Nat
  deriving DecidableEq, Repr

/-- An engine that waits for a reply at a page (R217, R218): its agent code and instance, its command's issuer and, for a near-bank unit, the
command's number, the page, and the code and subtype of the fault. -/
structure EngWait where
  agent : BitVec 8
  inst  : Nat
  task  : BitVec 32
  kid   : BitVec 16
  ia    : Nat
  code  : BitVec 8
  sub   : BitVec 8
  cmd   : Nat
  deriving DecidableEq, Repr

/-- What a checkpoint image holds (R232): frames, memory state kept beside them, cores, clusters, dies, tables. `frames` are those streamed,
none for every frame. -/
structure Snapshot where
  frames : Option (List Nat)
  bytes  : Nat
  hbm    : Mem
  wsoFull : List Nat
  poison : List Nat
  spPoison : List (Nat × Nat)
  dsPoison : List (Nat × Nat)
  wls    : SMap WorkList
  nbm    : SMap NbMat
  cores  : SMap Core
  clus   : SMap Cluster
  dies   : SMap Die
  kt     : Vector (Word × Word) 64
  pending : List Ev
  links  : SMap Nat
  completions : List Completion
  heldRes : List HeldRes
  saves  : SMap SaveArea
  area   : SaveArea
  deriving DecidableEq, Repr

/-- The management block (R412). -/
structure Mgmt where
  bootst   : BitVec 32
  hdrop    : BitVec 32
  power    : BitVec 32
  bootaddr : Word
  hostnode : Byte
  devno    : Byte
  held     : Bool
  auxUp    : Bool
  mainOn   : Bool
  deriving DecidableEq, Repr

/-- What happens outside the machine and is no row of the opcode table: the host node falls silent, or answers again (R411); the paths to a
device of the fabric domain fail, or work again (R414); a Twill frame of another kind comes from a host node (R407); the firmware writes BOOTST
0x03 (R413 step 5); a signed request that the monitor handles raises the fused minimum (R203). -/
inductive Outside
  | hostAnswers (on : Bool)
  | path (dev : Nat) (works : Bool)
  | hostFrame
  | ready
  | raiseMin (svn : BitVec 32)
  deriving DecidableEq, Repr

/-- A move of some agent (log 1): a core has a cycle in which contexts with results on their way do not issue (R254), a caused event happens,
an event comes from outside or by timing, or nothing happens for a number of cycles. -/
inductive Choice
  | issue (agent : Nat) (late : List Nat)
  | event (k : Nat)
  | env (e : Ev)
  | outside (o : Outside)
  | idle (n : Nat)
  deriving DecidableEq, Repr

structure State where
  curAgent : Nat
  curCtx   : Nat
  agenda   : List Choice
  pending  : List Ev
  ev       : Option Ev
  turn     : Bool
  fresh    : Nat
  time     : Word
  ptroot   : Word
  kt       : Vector (Word × Word) 64
  wp       : Vector (Word × Word) 16
  mrgn     : Vector Word 64
  meas     : Vector (BitVec 512) 4
  svn      : BitVec 32
  minSvn   : BitVec 32
  thboot   : Bool
  wnb      : Vector Word 16
  cores    : SMap Core
  clusters : SMap Cluster
  dies     : SMap Die
  lastCore : Nat
  hgmEng   : SMap (BitVec 16)
  hbm      : Mem
  wsoFull  : List Nat
  poison   : List Nat
  spPoison : List (Nat × Nat)
  dsPoison : List (Nat × Nat)
  thatch   : SMap TLine
  tlb      : SMap Tlb
  dir      : SMap DirSt
  nbMats   : SMap NbMat
  nbCmds   : List NbEntry
  nextId   : Nat
  haltNb   : List Nat
  workLists : SMap WorkList
  links    : SMap Nat
  completions : List Completion
  heldRes  : List HeldRes
  engWaits : List EngWait
  saves    : SMap SaveArea
  quiesced : Bool
  tiers    : SMap Snapshot
  pages    : SMap PageCopy
  homes    : SMap PageHome
  moving   : List (Nat × Nat × Nat)
  remote   : Mem
  far      : SMap FarPage
  portQ    : List (Nat × PortUser)
  outbox   : List Msg
  hostMem  : Mem
  hostRetry : List RetryEntry
  hostUp   : Bool
  unacked  : List Unacked
  lanesUp  : BitVec 72
  noPath   : List Nat
  grants   : SMap Nat
  stalled  : List (Nat × BitVec 16)
  powerAt  : Nat
  draws    : List Nat
  mgmt     : Mgmt
  deriving DecidableEq, Repr

/-! Reset values (R246): what R246 lists, and zero for the rest (log 6). -/

def Window.reset : Window := ⟨0, 0⟩

def Ctx.reset : Ctx where
  st := .free
  g := Vector.replicate 32 0
  v := Vector.replicate 32 0
  gFull := BitVec.allOnes 32
  vFull := BitVec.allOnes 32
  gTaint := 0
  vTaint := 0
  pc := 0
  flags := 0
  gOpen := 0
  vOpen := 0
  scopes := []
  win := Vector.replicate 4 Window.reset
  task := 0
  kid := 0
  world := false
  base := 0
  prio := 0
  stage := 0
  priv := false
  chan := none
  join := 0
  joinScope := .core
  parent := none
  launch := none
  claim := 0
  lane := false
  serial := 0
  wait := none
  served := none
  ldcs := []
  frozenBy := none
  yielded := []
  jumped := false
  recent := []
  vsp := false

def Core.reset : Core where
  ctxs := Vector.replicate 8 Ctx.reset
  ways := Vector.replicate 20 .cache
  nWays := 0
  retain := none
  spad := []
  lanes := []
  wcb := []
  handlers := Vector.replicate 64 0
  arrivals := []
  refq := []
  resv := []
  retry := []
  taskq := []
  lastSel := Vector.replicate 65 0
  lastCtx := 7
  posted := []
  overflow := []
  pubs := Vector.replicate 16 0
  subs := Vector.replicate 16 0
  pubPend := []
  notifies := []
  gmu := ⟨[], [], [], [], false, 0⟩
  wsets := Vector.replicate 8 ⟨0xFFFF, Vector.replicate 4 Window.reset⟩
  hgm := 0
  halted := false
  held := false
  trapt := Vector.replicate 64 0
  fdrop := 0
  ftsel := 0

def TileWalk.reset : TileWalk where
  run := false
  broken := false
  iss := none
  ld := none
  st := none
  tiles := 0
  tbytes := 0
  swoff := 0
  bufoff := 0
  qin := 0
  nbuf := 0
  bcore := 0
  rect := (0, 0, 0, 0)
  fut := 0
  loaded := 0
  credits := []
  stores := []
  stored := 0
  lastKid := 0

def Lease.reset : Lease := ⟨none, 0, false, none, 0, 0, [], [], []⟩

def Cluster.reset : Cluster where
  l1 := []
  qd := Vector.replicate 16 0
  qOwner := Vector.replicate 16 0
  pushers := []
  poppers := []
  brokeSw := []
  bs := Vector.replicate 8 0
  bsOwner := Vector.replicate 8 0
  bsSent := Vector.replicate 8 false
  bsEast := Vector.replicate 8 false
  bsSouth := Vector.replicate 8 false
  tiles := Vector.replicate 8 ⟨none, []⟩
  bufA := []
  bufB := []
  lease := Lease.reset
  cmds := []
  nextNo := 0
  fenced := 0
  disabled := false
  stgerr := false
  places := []
  active := none
  tw := TileWalk.reset
  haltMx := none
  haltCe := false
  haltTw := false

def Die.reset : Die where
  l2 := []
  sark := []
  dsp := 0
  dspad := []
  skgen := 0
  skSize := 4
  cec := 0
  cethr := 0xFFFFFFFF
  wclu := 0
  wslice := 0
  wridge := 0
  launchq := []
  gathers := []
  colls := []
  collWait := []
  snaps := []
  trig := 0
  running := false
  stopped := false
  warn := false
  tstop := false
  temp := 0
  haltGat := 0
  haltColl := 0

def Mgmt.reset : Mgmt where
  bootst := 0
  hdrop := 0
  power := 0
  bootaddr := 0
  hostnode := 0
  devno := 0
  held := true
  auxUp := true
  mainOn := true

/-- The device when its auxiliary supply has come up and every die is held in reset (R413 step 1, R246). -/
def State.reset : State where
  curAgent := 0
  curCtx := 0
  agenda := []
  pending := []
  ev := none
  turn := false
  fresh := 0
  time := 0
  ptroot := 0
  kt := Vector.replicate 64 (0, 0)
  wp := Vector.replicate 16 (0, 0)
  mrgn := Vector.replicate 64 0
  meas := Vector.replicate 4 0
  svn := 0
  minSvn := 0
  thboot := true
  wnb := Vector.replicate 16 0
  cores := []
  clusters := []
  dies := [(0, { Die.reset with wridge := 0x80 })]
  lastCore := 0
  hgmEng := []
  hbm := []
  wsoFull := []
  poison := []
  spPoison := []
  dsPoison := []
  thatch := []
  tlb := []
  dir := []
  nbMats := []
  nbCmds := []
  nextId := 0
  haltNb := []
  workLists := []
  links := []
  completions := []
  heldRes := []
  engWaits := []
  saves := []
  quiesced := false
  tiers := []
  pages := []
  homes := []
  moving := []
  remote := []
  far := []
  portQ := []
  outbox := []
  hostMem := []
  hostRetry := []
  hostUp := true
  unacked := []
  lanesUp := BitVec.allOnes 72
  noPath := []
  grants := []
  stalled := []
  powerAt := 0
  draws := []
  mgmt := Mgmt.reset

end Sys2Proof.Machine
end

