-- ==== Sys2Proof/Machine/Ops.lean ====
section
/-! DEFINITION. Named operations over the state: agents (R3), registers (R243, R252), waiting (R288), the issue checks (R209, R242), the
precise freeze (R208) and the return from it (R214), records and messages from hardware (R210, R213). -/

namespace Sys2Proof.Machine

abbrev Out := Host.Outcome State Fault Refusal

/-- A step's answer: the next state. -/
def answer (s : State) : Out := .next s

/-- Element `i` of a vector, or `d` beyond its end. -/
def vget {α : Type} {n : Nat} (v : Vector α n) (i : Nat) (d : α) : α := v[i]?.getD d
def vset {α : Type} {n : Nat} (v : Vector α n) (i : Nat) (x : α) : Vector α n := v.setIfInBounds i x

/-! Bit fields. -/

def bitsOf {w : Nat} (x : BitVec w) (hi lo : Nat) : Nat := x.toNat / 2 ^ lo % 2 ^ (hi + 1 - lo)
def bit {w : Nat} (x : BitVec w) (i : Nat) : Bool := x.getLsbD i
/-- `x` with bits hi to lo replaced by the low bits of `v`. -/
def putBits {w : Nat} (x : BitVec w) (hi lo v : Nat) : BitVec w :=
  BitVec.ofNat w (x.toNat - x.toNat / 2 ^ lo % 2 ^ (hi + 1 - lo) * 2 ^ lo + v % 2 ^ (hi + 1 - lo) * 2 ^ lo)
def setBit {w : Nat} (x : BitVec w) (i : Nat) (b : Bool) : BitVec w := putBits x i i b.toNat
def ceilDiv (a b : Nat) : Nat := (a + b - 1) / b
def roundUp (a b : Nat) : Nat := ceilDiv a b * b

/-! Agents (R3, R5). -/

def isRidge (a : Nat) : Bool := decide (2048 ≤ a)
def agentDie (a : Nat) : Nat := if isRidge a then (a - 2048) / 8 else a / 512
/-- Die·64 + cluster index of a cluster core. -/
def agentClu (a : Nat) : Nat := a / 8
def coreIdx (a : Nat) : Nat := a % 8
def ridgeAgent (die idx : Nat) : Nat := 2048 + die * 8 + idx
/-- The secure monitor (R188). -/
def monitor : Nat := 2055
def agentOk (a : Nat) : Bool := decide (a < 2080)

/-! State accessors. -/

def State.core (s : State) (a : Nat) : Core := s.cores.getD a Core.reset
def State.setCore (s : State) (a : Nat) (c : Core) : State := { s with cores := s.cores.set a c }
def State.modCore (s : State) (a : Nat) (f : Core → Core) : State := s.setCore a (f (s.core a))
def State.clu (s : State) (k : Nat) : Cluster := s.clusters.getD k Cluster.reset
def State.setClu (s : State) (k : Nat) (c : Cluster) : State := { s with clusters := s.clusters.set k c }
def State.modClu (s : State) (k : Nat) (f : Cluster → Cluster) : State := s.setClu k (f (s.clu k))
def State.die (s : State) (d : Nat) : Die := s.dies.getD d Die.reset
def State.setDie (s : State) (d : Nat) (x : Die) : State := { s with dies := s.dies.set d x }
def State.modDie (s : State) (d : Nat) (f : Die → Die) : State := s.setDie d (f (s.die d))
def State.ctx (s : State) (a k : Nat) : Ctx := vget (s.core a).ctxs k Ctx.reset
def State.setCtx (s : State) (a k : Nat) (c : Ctx) : State :=
  s.modCore a fun o => { o with ctxs := vset o.ctxs k c }
def State.modCtx (s : State) (a k : Nat) (f : Ctx → Ctx) : State := s.setCtx a k (f (s.ctx a k))
/-- The context whose instruction is meant. -/
def State.cur (s : State) : Ctx := s.ctx s.curAgent s.curCtx
def State.setCur (s : State) (c : Ctx) : State := s.setCtx s.curAgent s.curCtx c
def State.pend (s : State) (e : Ev) : State := { s with pending := s.pending ++ [e] }
/-- Queue an event unless it is queued already. -/
def State.pendOnce (s : State) (e : Ev) : State := if s.pending.contains e then s else s.pend e
/-- The event in hand has happened; at a scratchpad port it does not wait any more. -/
def State.took (s : State) : State :=
  { s with ev := none, portQ := match s.ev with | some e => s.portQ.filter fun q => q.2 != .ev e | none => s.portQ }
def State.now (s : State) : Nat := s.time.toNat
def State.devno (s : State) : BitVec 6 := s.mgmt.devno.setWidth 6
/-- A fresh free value of `w` bits (log 13). -/
def State.freeBits (s : State) (w : Nat) : BitVec w × State := (Config.free w s.fresh, { s with fresh := s.fresh + 1 })
def State.newId (s : State) : Nat × State := (s.nextId, { s with nextId := s.nextId + 1 })

/-- Agent and context of the live, frozen or saved task with an ID (R147). -/
def State.findTask (s : State) (t : BitVec 32) : Option (Nat × Nat) :=
  s.cores.findSome? fun (a, o) =>
    (List.range 8).findSome? fun k =>
      let c := vget o.ctxs k Ctx.reset
      if (c.st == .live || c.st == .frozen || c.st == .saved) && c.task == t then some (a, k) else none

/-! Registers of a context (R243, R252, R161, R101). -/

def Ctx.rG (c : Ctx) (r : Reg) : Word := if r = 0 then 0 else vget c.g r.toNat 0
def Ctx.rV (c : Ctx) (r : Reg) : Line := vget c.v r.toNat 0
def Ctx.fullG (c : Ctx) (r : Reg) : Bool := r == 0 || c.gFull.getLsbD r.toNat
def Ctx.fullV (c : Ctx) (r : Reg) : Bool := c.vFull.getLsbD r.toNat
def Ctx.taintG (c : Ctx) (r : Reg) : Bool := r != 0 && c.gTaint.getLsbD r.toNat
def Ctx.taintV (c : Ctx) (r : Reg) : Bool := c.vTaint.getLsbD r.toNat
/-- Write a scalar register, full; a write to g0 is discarded. -/
def Ctx.wG (c : Ctx) (r : Reg) (x : Word) (t : Bool := false) : Ctx :=
  if r = 0 then c else
  { c with g := vset c.g r.toNat x, gFull := setBit c.gFull r.toNat true, gTaint := setBit c.gTaint r.toNat t }
def Ctx.wV (c : Ctx) (r : Reg) (x : Line) (t : Bool := false) : Ctx :=
  { c with v := vset c.v r.toNat x, vFull := setBit c.vFull r.toNat true, vTaint := setBit c.vTaint r.toNat t }
/-- Mark a destination empty (R161). -/
def Ctx.emptyG (c : Ctx) (r : Reg) : Ctx := if r = 0 then c else { c with gFull := setBit c.gFull r.toNat false }
def Ctx.emptyV (c : Ctx) (r : Reg) : Ctx := { c with vFull := setBit c.vFull r.toNat false }
def Ctx.orFlags (c : Ctx) (f : Word) : Ctx := { c with flags := c.flags ||| f }
def Ctx.openName (c : Ctx) (vec : Bool) (r : Reg) : Bool :=
  if vec then decide (r.toNat < c.vOpen) else decide (r.toNat < c.gOpen) || r == 0
def Ctx.fullR (c : Ctx) (r : Role) : Bool := if r.vec then c.fullV r.reg else c.fullG r.reg
def Ctx.taintR (c : Ctx) (r : Role) : Bool := if r.vec then c.taintV r.reg else c.taintG r.reg
/-- The OR of the taint bits of an instruction's sources (R101). -/
def srcTaint (i : Instr) (c : Ctx) : Bool := i.roles.any fun r => r.src && c.taintR r

/-- Length in bytes (R237). -/
def Instr.bytes (i : Instr) : Nat := 4 * (encode i).length
/-- NextPC (R236). -/
def nextPc (i : Instr) (c : Ctx) : Word := c.pc + BitVec.ofNat 64 (Instr.bytes i)
/-- The registers that an instruction writes. -/
def Instr.dsts (i : Instr) : List (Bool × Reg) := (i.roles.filter fun r => r.dst).map fun r => (r.vec, r.reg)
/-- The instruction is complete: the PC moves past it and no wait is left. -/
def Ctx.past (c : Ctx) (i : Instr) : Ctx := { c with pc := nextPc i c, wait := none, recent := Instr.dsts i, vsp := false }

/-- The instruction's first four words as a packet carries them (R210). -/
def insnWords (ws : List (BitVec 32)) : BitVec 128 :=
  BitVec.ofNat 128 ((ws.take 4).foldr (fun w acc => w.toNat + 2 ^ 32 * acc) 0)

/-! Fault packets (R210 to R213). -/

end Sys2Proof.Machine

namespace Sys2Proof

/-- The 64 bytes of a packet. -/
def Packet.bits (p : Packet) : BitVec 512 :=
  p.insn ++ p.time ++ p.ia ++ p.va ++ p.pc ++ p.info ++ p.inst ++ p.stage ++ p.core ++ p.kid ++ p.task
    ++ BitVec.ofBool p.noctx ++ 0#4 ++ p.ctx ++ p.sub ++ p.agent ++ p.code

/-- The fields of 64 packet bytes. -/
def Packet.ofBits (b : BitVec 512) : Packet where
  code := b.extractLsb' 0 8
  agent := b.extractLsb' 8 8
  sub := b.extractLsb' 16 8
  noctx := b.getLsbD 31
  ctx := b.extractLsb' 24 3
  task := b.extractLsb' 32 32
  kid := b.extractLsb' 64 16
  core := b.extractLsb' 80 12
  stage := b.extractLsb' 92 4
  inst := b.extractLsb' 96 16
  info := b.extractLsb' 112 16
  pc := b.extractLsb' 128 64
  va := b.extractLsb' 192 64
  ia := b.extractLsb' 256 64
  time := b.extractLsb' 320 64
  insn := b.extractLsb' 384 128

end Sys2Proof

namespace Sys2Proof.Machine

/-- What a fault says beside its code. -/
structure FInfo where
  code : BitVec 8
  sub  : BitVec 8 := 0
  info : BitVec 16 := 0
  va   : Word := 0
  ia   : Word := 0
  pa   : Nat := 0
  deriving DecidableEq, Repr

/-- The valid kernel-table entry of a KID (R194). -/
def State.ktIndex (s : State) (kid : BitVec 16) : Option Nat :=
  (List.range 64).find? fun n =>
    let lo := (vget s.kt n (0, 0)).1
    bit lo 63 && bitsOf lo 47 32 == kid.toNat

/-- The ridge core of a kernel's fault channel (R213). -/
def State.faultAgent (s : State) (kid : BitVec 16) : Nat :=
  match s.ktIndex kid with
  | none => monitor
  | some n => let lo := (vget s.kt n (0, 0)).1; ridgeAgent (bitsOf lo 58 57) (bitsOf lo 61 59)

/-- The world of an agent's core: true for S (R188, R190). -/
def agentWorld (s : State) (a : Nat) : Bool :=
  let d := s.die (agentDie a)
  if a = monitor then true else if isRidge a then d.wridge.getLsbD (a % 8) else d.wclu.getLsbD (agentClu a % 64)

def agentNum (a : Nat) : BitVec 12 := BitVec.ofNat 12 a
/-- Source number of a header: a cluster core's number, or die·8 + ridge index (R152). -/
def srcCoreOf (a : Nat) : BitVec 11 := BitVec.ofNat 11 (if isRidge a then a - 2048 else a)

/-- A message formed by hardware at agent `a` for agent `dst` of this device. -/
def hwMsg (s : State) (a dst : Nat) (ch : BitVec 6) (len : Nat) (payload : BitVec 960) (kid : BitVec 16) (world : Bool) : Msg where
  dstDev := s.devno
  dst := dst
  ch := ch
  srcDev := s.devno
  srcXR := isRidge a
  srcCore := srcCoreOf a
  len := BitVec.ofNat 4 len
  kind := .system
  tagv := false
  tag := 0
  payload := payload
  kid := kid
  world := world
  resend := false
  acq := none
  task := 0
  pc := 0

/-- A packet leaves agent `a` for ch1 of a ridge core (R213). `own` marks the packets that the monitor's own handler entry serves: the
message then travels under KID 0. -/
def State.sendPacketTo (s : State) (a dst : Nat) (p : Packet) (own : Bool := false) : State :=
  s.pend (.faultPacketArrive (hwMsg s a dst 1 8 (p.bits.setWidth 960) (if own then 0 else p.kid) (agentWorld s a)))

/-- The monitor's copy of a world violation: PA in bytes 0x30 to 0x37 (R210). -/
def packetPa (p : Packet) (pa : Nat) : Packet := { p with insn := BitVec.ofNat 128 (p.insn.toNat / 2 ^ 64 * 2 ^ 64 + pa % 2 ^ 64) }

/-- A packet leaves for its kernel's fault channel; a world violation also gives the monitor the full record (R192). -/
def State.sendPacket (s : State) (a : Nat) (p : Packet) (pa : Nat) : State :=
  if p.code = 0x0C then
    (s.sendPacketTo a (s.faultAgent p.kid) { p with va := 0, ia := 0 }).sendPacketTo a monitor (packetPa p pa) true
  else s.sendPacketTo a (s.faultAgent p.kid) p

/-- The packet of a context's fault (R210). -/
def ctxPacket (s : State) (a k : Nat) (f : FInfo) (insn : BitVec 128) : Packet :=
  let c := s.ctx a k
  { code := f.code, agent := 0, sub := f.sub, noctx := false, ctx := BitVec.ofNat 3 k, task := c.task, kid := c.kid
    stage := c.stage, core := agentNum a, info := f.info, inst := 0, pc := c.pc, va := f.va, ia := f.ia, time := s.time
    insn := insn }

/-- A value reaches its register (R161): full, with the flags of its instruction. The taint bit stands since issue. -/
def landValue (s : State) (l : Landing) : State :=
  let c := s.ctx l.agent l.ctx
  if c.task ≠ l.task || c.st == .free || c.st == .reserved then s else
  s.setCtx l.agent l.ctx ((if l.vec then c.wV l.reg l.value (c.taintV l.reg) else c.wG l.reg (l.value.setWidth 64) (c.taintG l.reg)).orFlags l.flags)

/-- Every load of a context lands (R208 step 2). -/
def landAll (s : State) (a k : Nat) : State :=
  let mine (e : Ev) := match e with | .loadLand l => l.agent == a && l.ctx == k | _ => false
  (s.pending.filter mine).foldl (fun (s : State) e => match e with | .loadLand l => landValue s l | _ => s)
    { s with pending := s.pending.filter fun e => !mine e }

/-- TAKING A FAULT (R208): the loads in flight land, the instruction at PC has no effect, the context freezes there and its packet goes
to its kernel's fault channel. A saved context is then saved as FROZEN (R222). A trap handler that faults is ended by FAULT_FREEZE, with
its packet (R216). A read of a stopped die, or of an unreachable device, also gives a record (R229). -/
def takeFault (s : State) (a k : Nat) (f : FInfo) (insn : BitVec 128) : State :=
  let s := landAll s a k
  let p := ctxPacket s a k f insn
  let s := if f.code = 0x1B && f.sub = 3 then s.sendPacket a { p with noctx := true, insn := 0 } 0 else s
  let s := s.modCtx a k fun c => { c with st := if c.st == .saved then .saved else .frozen, wait := none, frozenBy := some p }
  if (s.ctx a k).served.isSome then s.pend (.faultFreeze a k (if p.code = 0x0C then packetPa p f.pa else p)) else s.sendPacket a p f.pa

/-- THE RETURN (R214): the frozen context goes LIVE at `pc`. -/
def resumeAt (c : Ctx) (pc : Word) : Ctx := { c with st := .live, pc := pc, frozenBy := none, wait := none }

/-- A record: a packet with no context stopped (R212). -/
def State.record (s : State) (code sub : BitVec 8) (agent : BitVec 8) (inst : Nat) (kid : BitVec 16) (task : BitVec 32)
    (from_ : Nat) (stage : BitVec 4) (pc va ia : Word) (info : BitVec 16 := 0) (pa : Nat := 0) : State :=
  s.sendPacket from_ { code := code, agent := agent, sub := sub, noctx := true, ctx := 0, task := task, kid := kid, stage := stage
                       core := agentNum from_, info := info, inst := BitVec.ofNat 16 inst, pc := pc, va := va, ia := ia
                       time := s.time, insn := 0 } pa

/-- A record for a given ridge core, whichever kernel it concerns (R227, R230). -/
def State.recordTo (s : State) (dst : Nat) (code sub agent : BitVec 8) (inst : Nat) : State :=
  s.sendPacketTo dst dst { code := code, agent := agent, sub := sub, noctx := true, ctx := 0, task := 0, kid := 0, stage := 0
                           core := 0, info := 0, inst := BitVec.ofNat 16 inst, pc := 0, va := 0, ia := 0, time := s.time
                           insn := 0 }

/-! Power (R200, R201). -/

/-- The interval of 1,300 cycles that TIME is in, counted from 1. -/
def powerInterval (s : State) : Nat := s.now / 1300 + 1
/-- In this interval a unit has used up a kernel's part, or its whole allotment, which the KID that no kernel has stands for. -/
def shortOf (s : State) (unit : Nat) (kid : BitVec 16) : Bool :=
  s.powerAt == powerInterval s && (s.stalled.contains (unit, kid) || s.stalled.contains (unit, 0xFFFF))

/-! Waiting (R288). -/

/-- The cycle limit that a bounded instruction takes in field c (R288); 0 for none. -/
def Instr.limit (i : Instr) (c : Ctx) : Nat :=
  match i with
  | .lds o => (c.rG o.c).toNat
  | .fwait o => (c.rG o.c).toNat
  | .bar o => (c.rG o.c).toNat
  | .barwt o => (c.rG o.c).toNat
  | .qpush o => (c.rG o.c).toNat
  | .qpop o => (c.rG o.c).toNat
  | .coll o => (c.rG o.c).toNat
  | .mxlease o => (c.rG o.c).toNat
  | .mxwait o => (c.rG o.c).toNat
  | .syncwait o => (c.rG o.c).toNat
  | .twrun o => (c.rG o.c).toNat
  | _ => 0

/-- Block the current context on its instruction; a wait under the same limit keeps the cycle it counts from. A limit other than 0 expires
with BOUNDED_WAIT_EXPIRE. -/
def waitFor (s : State) (w : WaitFor) (limit : Nat := 0) : State :=
  let c := s.cur
  let since := match c.wait with | some x => if x.limit = limit then x.since else s.now | none => s.now
  let s := s.setCur { c with wait := some ⟨w, limit, since⟩ }
  if limit = 0 then s else s.pendOnce (.boundedWaitExpire s.curAgent s.curCtx)

/-- A blocked context tries its instruction again, and so may one that does not wait. -/
def Ctx.canIssue (c : Ctx) : Bool :=
  match c.wait with
  | none => c.st == .live
  | some ⟨.retry, _, _⟩ => c.st == .live
  | some ⟨.updates, _, _⟩ => c.st == .live
  | some ⟨.queue _ _, _, _⟩ => c.st == .live
  | some ⟨.future _ _ _, _, _⟩ => c.st == .live
  | some ⟨.phase _ _ _ _ _, _, _⟩ => c.st == .live
  | some ⟨.sync _ _, _, _⟩ => c.st == .live
  | some ⟨.lease, _, _⟩ => c.st == .live
  | some ⟨.gmu, _, _⟩ => c.st == .live
  | some ⟨.ending, _, _⟩ => c.st == .live
  | some ⟨.fence, _, _⟩ => c.st == .live
  | some ⟨.remote _, _, _⟩ => c.st == .live
  | _ => false

def Ctx.expired (c : Ctx) (now : Nat) : Bool :=
  match c.wait with | none => false | some w => w.limit != 0 && decide (w.since + w.limit ≤ now)

/-- A context leaves every queue in which it waits: scratchpad ports, hardware queues, and leases of its own and of a fused cluster. -/
def dropWaits (s : State) (a k : Nat) : State :=
  { s with
    portQ := s.portQ.filter fun q => q.2 != .ctx a k
    clusters := s.clusters.mapKV fun _ c => { c with
      pushers := c.pushers.filter fun w => !(w.2.1 == a && w.2.2 == k)
      poppers := c.poppers.filter fun w => !(w.2.1 == a && w.2.2 == k)
      lease := { c.lease with waiters := c.lease.waiters.erase (a, k) } } }

/-- A request of a task that its home has not performed: the arrival of a collective, or a bind. -/
def requestOf (e : Ev) (t : BitVec 32) : Bool :=
  match e with | .collArrive m => agentOk m.agent && m.task == t | .gmuBind r => r.task == t | _ => false

/-- What a wait becomes whose home has not performed its instruction: `asked` where the request has not reached the home. -/
def WaitFor.withdrawn (w : WaitFor) (asked : Bool) : WaitFor :=
  match w with
  | .queue _ _ => .retry
  | .future _ _ _ => .retry
  | .phase _ _ _ _ _ => .retry
  | .sync _ _ => .retry
  | w => if asked then .retry else w

/-- A stop finds a blocking instruction whose home has not performed it: it is withdrawn, to be issued again (R288), and so is a GSNAP that has not
begun (R355). -/
def withdraw (s : State) (a k : Nat) : State :=
  let s := dropWaits s a k
  let c := s.ctx a k
  let s := s.modDie (agentDie a) fun d => { d with snaps := d.snaps.filter fun q => q.task != c.task || q.frozen }
  let asked := s.pending.any fun e => requestOf e c.task
  State.setCtx { s with pending := s.pending.filter fun e => !requestOf e c.task } a k
    { c with wait := c.wait.map fun w => { w with what := w.what.withdrawn asked } }

/-! Issue (R209, R242, R161). -/

/-- Instructions that need a privileged context (R367, and the privileged groups of R241). -/
def Instr.privileged : Instr → Bool
  | .resume _ | .killt | .killk _ | .dwrd _ | .dwwr _ | .sysrd _ | .syswr _ | .mext _ | .tlbsync _ | .preempt _
  | .restore _ | .migrate _ | .ckptFull _ | .ckptIncremental _ | .ckptRestore _ | .ckptResume _ | .trap _
  | .hgtrig _ | .hgrel _ | .hgstat _ => true
  | _ => false

inductive Gate
  | pass
  | wait
  | fault (code : BitVec 8) (info : BitVec 16)
  deriving DecidableEq, Repr

/-- An E bit is set on a role. -/
def eSet (i : Instr) (r : Role) : Bool := match r.bit with | none => false | some b => i.ebits.getLsbD b

/-- The checks before an instruction takes effect: open names, privilege, field rules, empty sources, empty destinations. -/
def gate (i : Instr) (c : Ctx) : Gate :=
  if i.roles.any fun r => !c.openName r.vec r.reg then .fault 0x01 0
  else if Instr.privileged i && !c.priv then .fault 0x1F 0
  else if !i.wf then .fault 0x02 0
  else match i.roles.find? fun r => r.src && eSet i r && !c.fullR r with
    | some r => .fault 0x03 (r.reg.setWidth 16)
    | none =>
      if i.roles.any fun r => (r.src || r.dst) && !c.fullR r then .wait else .pass

/-- A fault of the current context's instruction. -/
def faultCur (i : Instr) (s : State) (f : FInfo) : State := takeFault s s.curAgent s.curCtx f (insnWords (encode i))

/-- Issue `i` in the current context: `k` gives its effect once every check has passed. -/
def issue (i : Instr) (s : State) (k : Ctx → State) : Out :=
  let c := s.cur
  if !c.canIssue then .next s else
  match gate i c with
  | .fault code info => answer (faultCur i s { code := code, info := info })
  | .wait => answer (waitFor s .retry)
  | .pass => answer (k c)

/-- Issue an instruction whose whole effect is on its own context. -/
def issueReg (i : Instr) (s : State) (k : Ctx → Ctx) : Out := issue i s fun c => s.setCur ((k c).past i)

/-- The fault of the current instruction, as an effect. -/
def raise (i : Instr) (s : State) (code : BitVec 8) (va : Word := 0) : State := faultCur i s { code := code, va := va }

/-- A step of another agent completes the instruction at which a context waits. -/
def State.complete (s : State) (a k : Nat) (bytes : Nat) (f : Ctx → Ctx) : State :=
  s.modCtx a k fun c => { f c with pc := c.pc + BitVec.ofNat 64 bytes, wait := none }

/-! Literal operands. -/

def Src.val (x : Src) (c : Ctx) : Word := match x with | .reg b => c.rG b | .lit l => l

end Sys2Proof.Machine
end

