-- ==== Sys2Proof/Machine/Translate.lean ====
section
/-! DEFINITION. Addresses: local windows (R84), range registers (R86), page tables (R197, R198), the checks at a home (R209), watchpoints
(R225, R226) and halt triggers (R223). -/

namespace Sys2Proof.Machine

/-- Who makes an access, with its rights: a context, or an engine for the context that issued its command. -/
structure Acc where
  agent : Nat
  ctx   : Nat
  task  : BitVec 32
  kid   : BitVec 16
  world : Bool
  win   : Vector Window 4
  claim : Nat
  pc    : Word
  stage : BitVec 4
  /-- AGENT code and instance of an engine, or of another device (R211); none for a context -/
  eng   : Option (BitVec 8 × Nat)
  deriving DecidableEq, Repr

/-- Another device makes the access (R211). -/
def Acc.device (x : Acc) : Bool := match x.eng with | some (c, _) => c == 0x0B | none => false
/-- An engine of this device makes it. -/
def Acc.engine (x : Acc) : Bool := x.eng.isSome && !x.device

inductive AKind | rd | wr | at | fetch
  deriving DecidableEq, Repr

/-- Where an access goes. -/
inductive Path
  | scratch (core off : Nat)
  | dieScratch (die off : Nat)
  | mem (ia pa : Nat) (ty : PType) (disc : Bool)
  | aperture (addr : Nat)
  /-- a REL page of another device, of which this one may hold a copy (R129) -/
  | remote (ia : Nat)
  /-- a page of another device that is never copied, and is reached at its home there (R128) -/
  | far (ia : Nat) (ty : PType)
  deriving DecidableEq, Repr

/-- Why an access is refused: a fault, the page-fault path (R217) with code, subtype and IA, a port that must wait (R140), an atomic that a moving frame's old stack holds (R132), or a write or atomic at a page whose
other holders must first give up their copies (R129). -/
inductive AErr
  | fault (f : FInfo)
  | page (code sub : BitVec 8) (ia : Nat)
  | busy (agent : Nat)
  | moved (page : Nat)
  | shared (page : Nat)
  deriving DecidableEq, Repr

abbrev Res := Except AErr

def faultAt {α : Type} (code : BitVec 8) (va : Word) (ia : Nat := 0) (pa : Nat := 0) (sub : BitVec 8 := 0) : Res α :=
  .error (.fault { code := code, va := va, ia := BitVec.ofNat 64 ia, pa := pa, sub := sub })

def ctxAcc (s : State) (a k : Nat) : Acc :=
  let c := s.ctx a k
  { agent := a, ctx := k, task := c.task, kid := c.kid, world := agentWorld s a, win := c.win, claim := c.claim, pc := c.pc
    stage := c.stage, eng := none }

def curAcc (s : State) : Acc := ctxAcc s s.curAgent s.curCtx

/-! Range registers (R85, R86). -/

def Window.size (w : Window) : Nat := bitsOf w.lo 5 0
def Window.usable (w : Window) : Bool := bit w.lo 6 && decide (20 ≤ w.size) && decide (w.size ≤ 46)
def Window.hit (w : Window) (a : Nat) : Bool :=
  w.usable && a / 2 ^ w.size == bitsOf w.lo 55 20 * 2 ^ 20 / 2 ^ w.size
def Window.allows (w : Window) : AKind → Bool | .rd => bit w.hi 0 | .wr | .at => bit w.hi 1 | .fetch => bit w.hi 2
def Window.ia (w : Window) (a : Nat) : Nat :=
  bitsOf w.hi 51 20 * 2 ^ 20 / 2 ^ w.size * 2 ^ w.size + a % 2 ^ w.size

/-- The lowest-numbered window that matches (R86). -/
def findWindow (win : Vector Window 4) (a : Nat) : Option Window := win.toList.find? fun w => w.hit a

/-! Scratchpad limits (R77, R84, R87). -/

def wayBytes : Nat := 16384
/-- The state of the way that holds a scratchpad offset (R77). -/
def Core.wayOf (o : Core) (off : Nat) : WaySt := vget o.ways (19 - off / wayBytes) .cache
/-- Every way under a range of offsets is in use. -/
def Core.rangeLive (o : Core) (off n : Nat) (retainedToo : Bool) : Bool :=
  decide (off + n ≤ o.nWays * wayBytes) &&
  (List.range (ceilDiv (off % wayBytes + n) wayBytes)).all fun i =>
    match o.wayOf (off + i * wayBytes) with | .live => true | .retained _ => retainedToo | _ => false

def dieScratchBytes (d : Die) : Nat := d.dsp * 2 ^ 25

/-- The claim against which an engine's own-scratchpad addresses stand (R417): the issuing task's claim while it is live. -/
def engClaim (s : State) (x : Acc) : Nat :=
  match x.eng with
  | none => x.claim
  | some _ => match s.findTask x.task with | some (a, k) => (s.ctx a k).claim | none => x.claim

/-- Decode of local windows and range registers (R84, R86); no memory is reached. -/
def resolveLocal (s : State) (x : Acc) (va : Word) (n align : Nat) (k : AKind) : Res (Path ⊕ Nat) :=
  let a := va.toNat % 2 ^ 56
  let top := a / 2 ^ 48
  if a % align ≠ 0 then faultAt 0x04 va
  else if top = 0xF0 then
    let off := a % 2 ^ 48
    if isRidge x.agent || decide (engClaim s x * wayBytes < off + n) then faultAt 0x05 va
    else if x.eng.isSome && !(s.core x.agent).rangeLive off n true then faultAt 0x05 va
    else if k == .fetch then faultAt 0x07 va
    else .ok (.inl (.scratch x.agent off))
  else if top = 0xF1 then
    let off := a % 2 ^ 18
    let c := agentClu x.agent * 8 + a / 2 ^ 18 % 8
    if isRidge x.agent || a / 2 ^ 21 % 2 ^ 27 ≠ 0 then faultAt 0x05 va
    else if decide (262144 < off + n) || !(s.core c).rangeLive off n false then faultAt 0x05 va
    else if k == .fetch then faultAt 0x07 va
    else .ok (.inl (.scratch c off))
  else if top = 0xF2 then
    let off := a % 2 ^ 48
    let d := agentDie x.agent
    if decide (dieScratchBytes (s.die d) < off + n) then faultAt 0x05 va
    else if k == .fetch then faultAt 0x07 va
    else if x.agent ≠ monitor && x.world != (s.die d).wslice.getLsbD (off / 64 % 64) then faultAt 0x0C va
    else .ok (.inl (.dieScratch d off))
  else if 0xF0 < top then faultAt 0x05 va
  else match findWindow x.win a with
    | none => faultAt 0x05 va
    | some w => if w.allows k then .ok (.inr (w.ia a)) else faultAt 0x07 va

/-! Page tables (R189, R197, R198). -/

def frameStack (pa : Nat) : Nat := pa / 2 ^ 36
/-- The die whose stacks hold a frame: four stacks a die (R1, R89). -/
def frameDie (pa : Nat) : Nat := frameStack pa / 4
def ftBase : Nat := 0xBFA000000
/-- Address of a frame's frame-table entry (R135). -/
def ftAddr (pa : Nat) : Nat := frameStack pa * 2 ^ 36 + ftBase + 8 * (pa % 2 ^ 36 / 4096)
/-- Bytes of a sarking carve-out in each stack of a die (R89). -/
def carve (d : Die) : Nat := d.skSize * 2 ^ 28
def inCarve (s : State) (pa : Nat) : Bool :=
  let o := pa % 2 ^ 36
  decide (o < ftBase) && decide (ftBase - carve (s.die (frameDie pa)) ≤ o)
/-- A frame that a PTE must not name (R189, R135, R89). -/
def badFrame (s : State) (pa : Nat) : Bool := decide (ftBase ≤ pa % 2 ^ 36) || inCarve s pa

/-- The 64 bytes at a physical address as the stack holds them: the thatch's line, else HBM's (R90). -/
def physLine (s : State) (pa : Nat) : Line :=
  match s.thatch.find? (pa / 64) with | some t => t.data | none => s.hbm.readLine (pa / 64 * 64)
def physNat (s : State) (pa n : Nat) : Nat := Line.get (physLine s pa) (pa % 64) n

/-- The dirty bytes that caches hold above a frame, at its home: its die's L2 slice, and a SEQ line's modified copy (R122). -/
def homeLine (s : State) (pa : Nat) : Line :=
  let base := physLine s pa
  let l2 := match (s.die (frameDie pa)).l2.findP fun _ l => l.pa == pa / 64 * 64 with
    | some (_, l) => Line.merge base l.data l.mask
    | none => base
  match s.clusters.some? fun _ c => c.l1.findP fun _ l => l.pa == pa / 64 * 64 && l.ty == .seq && l.mask != 0 with
  | some (_, l) => Line.merge l2 l.data l.mask
  | none => l2

/-- One 8-byte walk read, through L2 and thatch (R92, R93). -/
def walkRead (s : State) (pa : Nat) : Word := BitVec.ofNat 64 (Line.get (homeLine s pa) (pa % 64) 8)

def Pte.pfn (e : Word) : Nat := bitsOf e 39 12
/-- An entry that is malformed at its level (R198). -/
def Pte.bad (s : State) (e : Word) (level : Nat) : Bool :=
  let l := bit e 62
  let c := bit e 61
  let sub := if level = 1 then 2 ^ 9 else if level = 2 then 2 ^ 18 else 1
  bitsOf e 54 40 != 0 || (l && level == 3) || (!l && level == 0) || (c && level != 0) || (l && Pte.pfn e % sub != 0)
    || badFrame s (Pte.pfn e * 4096)
/-- The group rule of a contiguous entry (R198). -/
def Pte.groupBad (s : State) (tbl idx : Nat) : Bool :=
  let g := idx / 16 * 16
  let e0 := walkRead s (tbl + 8 * g)
  (List.range 16).any fun i =>
    let e := walkRead s (tbl + 8 * (g + i))
    bitsOf e 15 12 != i || putBits e 15 12 0 != putBits e0 15 12 0

/-- The walk from a table at a level: the number of 4 KiB pages of the leaf's page, and the leaf with the PFN of the frame of `ia`; or the
subtype of R212. -/
def walk (s : State) (ia : Nat) : Nat → Nat → Except AErr Tlb
  | level, tbl =>
    let idx := if level = 3 then ia / 2 ^ 39 % 128 else ia / 2 ^ (12 + 9 * level) % 512
    let at_ := tbl + 8 * idx
    let e := walkRead s at_
    if !bit e 63 then .error (.page 0x06 1 ia)
    else if Pte.bad s e level then .error (.page 0x06 2 ia)
    else if bit e 62 then
      if bit e 61 && Pte.groupBad s tbl idx then .error (.page 0x06 2 ia)
      else
        let f := Pte.pfn e + ia / 4096 % 2 ^ (9 * level)
        if badFrame s (f * 4096) then .error (.page 0x06 2 ia) else .ok ⟨if bit e 61 then 16 else 2 ^ (9 * level), putBits e 39 12 f⟩
    else match level with
      | 0 => .error (.page 0x06 2 ia)
      | l + 1 => walk s ia l (Pte.pfn e * 4096)

/-- The leaf of a page of the boot range that no table maps: the firmware fetches its body there before it has tables (R413, log 14). -/
def bootLeaf (ia : Nat) : Word := BitVec.ofNat 64 (2 ^ 63 + 2 ^ 62 + 2 ^ 57 + 2 ^ 56 + 2 ^ 55 + ia / 4096 % 2 ^ 28 * 4096)

/-- The translation home of an IA: the stack to which the hash sends its 4 KiB page (R91). -/
def transHome (ia : Nat) : Nat := (List.range 9).foldl (fun h i => h ^^^ (ia / 2 ^ (12 + 4 * i) % (if i = 8 then 4 else 16))) 0

/-- The leaf that the home of a 4 KiB page holds for it: its own, or that of a larger page which another of the home's pages fell in. -/
def cached (s : State) (page : Nat) : Option Word :=
  (s.tlb.findP fun q t => q / t.pages == page / t.pages && transHome (q * 4096) == transHome (page * 4096)).map fun x =>
    putBits x.2.pte 39 12 (Pte.pfn x.2.pte + page - x.1)

/-- The leaf of a page and its size: a cached translation of its home, or a walk, which the home then caches (R91, R93). -/
def leafOf (s : State) (ia : Nat) : Except AErr Tlb :=
  match cached s (ia / 4096) with
  | some e => .ok ⟨1, e⟩
  | none => match walk s ia 3 s.ptroot.toNat with
    | .error (.page code sub a) =>
      if s.thboot && code == 0x06 && sub == 1 && decide (ia % 2 ^ 46 < 0x6000000) then .ok ⟨1, bootLeaf (ia % 2 ^ 46)⟩ else .error (.page code sub a)
    | r => r

def leaf (s : State) (ia : Nat) : Except AErr Word := (leafOf s ia).map fun t => t.pte

def ptypeOf (n : Nat) : PType := match n with | 0 => .seq | 1 => .rel | 2 => .wso | _ => .prv
def Pte.ty (e : Word) : PType := ptypeOf (bitsOf e 60 59)
def ftEntry (s : State) (pa : Nat) : Word := BitVec.ofNat 64 (physNat s (ftAddr pa) 8)

/-- The world of a frame: its lowest-numbered enabled region, S where there is none (R189). -/
def frameWorld (s : State) (pa : Nat) : Bool :=
  match s.mrgn.toList.find? fun r =>
    bit r 63 && decide (bitsOf r 39 30 ≤ pa / 2 ^ 30) && decide (pa / 2 ^ 30 ≤ bitsOf r 19 10) with
  | some r => bit r 62
  | none => true

/-- What an access needs of a page's type: any, a whole-word store on WSO (R110), a WSO page (LDS), a REL or SEQ page (futures, R170); or the
access of an operation on an object's own header (R182, R338). -/
inductive TyNeed | any | wsoStore | lds | future | object
  deriving DecidableEq, Repr

/-- A store into the header of a bound work-list (R182), or into the fields of a near-bank descriptor that hardware writes: bytes 0x10 to
0x17 and 0x1A to 0x1B (R338). -/
def objectBytes (s : State) (pa n : Nat) : Bool :=
  let b := pa / 64 * 64
  (s.workLists.find? b).isSome
    || ((s.nbMats.find? b).isSome && (List.range n).any fun i => let o := pa + i - b; (16 ≤ o && o < 24) || (26 ≤ o && o < 28))

/-- The block that makes an engine's access belongs to another world than `w` (R188, R191): a near-bank unit, or the gather engine of a slice. -/
def blockWorld (s : State) (x : Acc) (w : Bool) : Bool :=
  match x.eng with
  | some (code, inst) =>
    if code = 2 then (vget s.wnb (inst / 64) 0).getLsbD (inst % 64) != w
    else if code = 4 then (s.die (inst / 64)).wslice.getLsbD (inst % 64) != w
    else false
  | none => false

/-! Poison on an access's path (R228): it travels with the line into every copy, and a store that covers the whole line clears it. -/

/-- A cached line that holds poison: a write of all its bytes would have cleared it. -/
def CLine.poisoned (l : CLine) : Bool := l.bad && l.mask != BitVec.allOnes 64
/-- Its dirty bytes have gone outward. -/
def CLine.cleaned (l : CLine) : CLine := { l with mask := 0, bad := l.poisoned }

def sarkHit (d : Die) (line : Nat) : Option SLine :=
  match d.sark.find? line with | some l => if l.gen = d.skgen && d.skSize ≠ 0 then some l else none | none => none

/-- The line that an L1 or a ridge core of a die reads outward is poisoned. -/
def outBad (s : State) (die line pa : Nat) : Bool :=
  let home := s.poison.contains (pa / 64)
  if frameDie pa = die then (match (s.die die).l2.find? line with | some l => l.poisoned | none => home)
  else match sarkHit (s.die die) line with | some l => l.bad | none => home

/-- The line as its home slice holds it, a modified SEQ copy of any cluster included (R122), is poisoned. -/
def homeBad (s : State) (line pa : Nat) : Bool :=
  match s.clusters.some? fun _ c => c.l1.findP fun n l => n == line && l.ty == .seq && l.mask != 0 with
  | some (_, l) => l.poisoned
  | none => outBad s (frameDie pa) line pa

/-- The copy that an access reads is poisoned: at the point where its agent and its page's type have it read. -/
def readsPoison (s : State) (x : Acc) (ia pa : Nat) (ty : PType) (k : AKind) : Bool :=
  let line := ia / 64
  let thatch := s.poison.contains (pa / 64)
  let l1 := if isRidge x.agent then none else (s.clu (agentClu x.agent)).l1.find? line
  let wcb := !isRidge x.agent && (s.core x.agent).wcb.any fun e => e.line == line && e.mask == BitVec.allOnes 64
  if ty = .wso || (x.device && ty != .seq) then thatch
  else if x.eng.isSome then (if ty = .seq || frameDie pa = agentDie x.agent then homeBad s line pa else thatch)
  else if ty = .seq then (match k, l1 with | .rd, some l | .fetch, some l => l.poisoned | _, _ => homeBad s line pa)
  else if k == .at && ty == .rel then
    thatch && !wcb && (match l1 with | some l => l.mask != BitVec.allOnes 64 | none => true)
      && (match (s.die (frameDie pa)).l2.find? line with | some l => l.mask != BitVec.allOnes 64 | none => true)
  else if wcb && k != .fetch then false
  else match l1 with | some l => l.poisoned | none => outBad s (agentDie x.agent) line pa

/-! Pages between devices (R128, R129). -/

def pageOf (ia : Nat) : Nat := ia / 4096
def pageHome (s : State) (page : Nat) : PageHome := s.homes.getD page ⟨[], none, none, []⟩
/-- Other devices hold the page, own it, or are about to; or stores of this device to it are held. -/
def ownShared (s : State) (ia : Nat) : Bool :=
  let h := pageHome s (pageOf ia)
  !h.holders.isEmpty || h.owner.isSome || h.op.isSome || (s.pages.find? (pageOf ia)).isSome
/-- This device's own request for the ownership of a page. -/
def ownRequest (s : State) (x : Acc) (page : Nat) : PageReq := ⟨s.devno.toNat, page, true, x.world, x.kid⟩
/-- Ask for the ownership of a page, unless this device's request is already served or queued (R129). -/
def askOwn (s : State) (x : Acc) (page : Nat) : State :=
  let h := pageHome s page
  if h.op == some s.devno.toNat || h.queue.any (fun r => r.dev == s.devno.toNat) then s else s.pendOnce (.ownershipRequest (ownRequest s x page))

/-- The frames of a page move, and the old stack accepts no atomics (R132): `moving` lists the first page, the new first frame and the number of
pages. -/
def inMove (s : State) (page : Nat) : Bool := s.moving.any fun q => decide (q.1 ≤ page) && decide (page < q.1 + q.2.2)

/-- The world check of a page (R191, R193): only the secure monitor is free of it. -/
def worldBad (s : State) (x : Acc) (pa : Nat) : Bool :=
  x.agent ≠ monitor && (x.world != frameWorld s pa || blockWorld s x (frameWorld s pa))

/-- An operation that is illegal on a page's type, the PRV owner check among them (R106, R110, R111, R170). -/
def typeBad (ty : PType) (owner : Bool) (k : AKind) (need : TyNeed) : Bool :=
  (ty == .prv && (!owner || need == .future))
    || (ty == .wso && k != .fetch && (need == .future || k == .at || (k == .wr && need != .wsoStore)))
    || (need == .lds && ty != .wso)

/-- The checks at the home of a page of this device, in the order of R209. -/
def homeChecks (s : State) (x : Acc) (va : Word) (ia : Nat) (k : AKind) (need : TyNeed) (n : Nat) : Res Path :=
  match leaf s ia with
  | .error e => .error e
  | .ok e =>
    let pa := Pte.pfn e * 4096 + ia % 4096
    let perm := match k with | .rd => bit e 56 | .wr | .at => bit e 57 | .fetch => bit e 55
    let ft := ftEntry s pa
    let fty := ptypeOf (bitsOf ft 62 61)
    let owner := bitsOf ft 31 0 == x.task.toNat
    let ty := if fty == .prv && owner then .prv else Pte.ty e
    if badFrame s pa then .error (.page 0x06 2 ia)
    else if !perm then faultAt 0x07 va ia pa
    else if worldBad s x pa then faultAt 0x0C va ia pa
    else if ty ≠ fty then faultAt 0x09 va ia pa
    else if typeBad ty owner k need then faultAt 0x08 va ia pa
    else if (k == .wr || k == .at) && need != .object && objectBytes s pa n then faultAt 0x08 va ia pa
    else if bit e 58 && (k == .wr || k == .at) then .error (.page 0x0B 3 ia)
    else if ty = .wso && k == .wr && !x.engine && !bit e 58 && (List.range (ceilDiv n 8)).any fun i => s.wsoFull.contains (pa / 8 + i) then
      faultAt 0x0A va ia pa
    else if k != .wr && !bit e 58 && readsPoison s x ia pa ty k then faultAt 0x1B va ia pa 1
    else if (s.die (frameDie pa)).stopped && k != .wr then faultAt 0x1B va ia pa 3
    else if k == .at && inMove s (ia / 4096) then .error (.moved (ia / 4096))
    else if ty = .rel && ownShared s ia && !x.device && (k == .at || (k == .wr && x.engine)) then .error (.shared (ia / 4096))
    else .ok (.mem ia pa ty (bit e 58))

/-- No working path reaches the device of an IA (R414). -/
def noPathTo (s : State) (dev : Nat) : Bool := s.lanesUp == 0 || s.noPath.contains dev
def unreachable (s : State) (ia : Nat) : Bool := noPathTo s (ia / 2 ^ 46 % 64)
/-- The host node answers (R411). -/
def hostReached (s : State) : Bool := s.hostUp && s.lanesUp != 0

/-- A page of another device; one of which nothing else is known is REL, open to every access (log 20). -/
def farPage (s : State) (ia : Nat) : FarPage := s.far.getD (pageOf ia) ⟨.rel, true, true, true, 0, 0, none, []⟩

/-- The checks that the home of another device's page makes for this device's access, by the same rules (R191). An engine's read of an
unreachable device is answered with poison (R414). -/
def farChecks (s : State) (x : Acc) (va : Word) (ia : Nat) (k : AKind) (need : TyNeed) (n : Nat) : Res Path :=
  let f := farPage s ia
  let perm := match k with | .rd => f.rd | .wr | .at => f.wr | .fetch => f.ex
  if x.engine && k != .wr && unreachable s ia then faultAt 0x1B va ia 0 3
  else if !perm then faultAt 0x07 va ia
  else if x.agent ≠ monitor && f.world == some (!x.world) then faultAt 0x0C va ia (f.frame * 4096 + ia % 4096)
  else if typeBad f.ty (f.owner == x.task) k need then faultAt 0x08 va ia
  else if f.ty = .wso && k == .wr && !x.engine && (List.range (ceilDiv n 8)).any fun i => f.full.contains (ia / 8 + i) then faultAt 0x0A va ia
  else if f.ty = .rel then .ok (.remote ia) else .ok (.far ia f.ty)

/-- From an IA to a path (R86, R411, R191). -/
def resolveIa (s : State) (x : Acc) (va : Word) (ia : Nat) (k : AKind) (need : TyNeed) (n : Nat) : Res Path :=
  let dev := ia / 2 ^ 46 % 64
  let ap := ia / 2 ^ 44 % 4 == 3
  if dev = s.devno.toNat then
    if ap then
      if (x.world || blockWorld s x false) && x.agent ≠ monitor then faultAt 0x0C va ia
      else if x.engine && k != .wr && !hostReached s then faultAt 0x1B va ia 0 3
      else if k == .at || need == .lds then faultAt 0x08 va ia
      else .ok (.aperture (ia % 2 ^ 44))
    else homeChecks s x va ia k need n
  else if ap then faultAt 0x05 va ia
  else farChecks s x va ia k need n

/-- The whole path of an address (R272, R209). -/
def resolve (s : State) (x : Acc) (va : Word) (n align : Nat) (k : AKind) (need : TyNeed := .any) : Res Path :=
  match resolveLocal s x va n align k with
  | .error e => .error e
  | .ok (.inl p) =>
    match p with
    | .scratch c off =>
      if need == .lds then faultAt 0x08 va
      else if (k == .rd || k == .at) && s.spPoison.contains (c, off / 64) then faultAt 0x1B va 0 0 1 else .ok p
    | .dieScratch d off =>
      if need == .lds then faultAt 0x08 va
      else if (k == .rd || k == .at) && s.dsPoison.contains (d, off / 64) then faultAt 0x1B va 0 0 1 else .ok p
    | p => .ok p
  | .ok (.inr ia) => resolveIa s x va ia k need n

/-! Halt groups (R223, R379). -/

/-- A command of the array's active and shadow sets that has not completed (R166). -/
def MxEntry.inArray (e : MxEntry) : Bool := match e.cmd with | .stage .. => false | _ => !e.read

/-- A halt group stops an array when its active command has ended (R219). -/
def arrayHalt (c : Cluster) (on : Bool) : Option Nat :=
  if !on then none else
  match c.haltMx with
  | some n => some n
  | none => some (match c.cmds.find? MxEntry.inArray with | some e => e.no + 1 | none => 0)

/-- A core stops: blocking instructions that no home has performed are withdrawn (R288). -/
def haltCore (s : State) (a : Nat) : State :=
  (List.range 8).foldl (fun (s : State) k => withdraw s a k) (s.modCore a fun o => { o with halted := true })

/-- Trigger or release a group of a die: each member core and engine stops or goes on. -/
def haltGroup (s : State) (die g : Nat) (on : Bool) : State :=
  let s := (s.cores.filter fun (q : Nat × Core) => agentDie q.1 == die && q.2.hgm.getLsbD g).foldl (fun (s : State) q =>
    if on then haltCore s q.1 else s.modCore q.1 fun o => { o with halted := false }) s
  let s := s.modDie die fun d => { d with trig := setBit d.trig g on }
  s.hgmEng.foldl (fun (s : State) (q : Nat × BitVec 16) =>
    if !q.2.getLsbD g then s else
    let code := q.1 / 1024
    let inst := q.1 % 1024
    if code = 2 then (if inst / 64 / 4 = die then { s with haltNb := if on then inst :: s.haltNb.erase inst else s.haltNb.erase inst } else s)
    else if inst / 64 ≠ die then s
    else if code = 1 then s.modClu inst fun c => { c with haltMx := arrayHalt c on }
    else if code = 3 then s.modClu inst fun c => { c with haltCe := on }
    else if code = 5 then s.modClu inst fun c => { c with haltTw := on }
    else if code = 4 then s.modDie die fun d => { d with haltGat := setBit d.haltGat (inst % 64) on }
    else s.modDie die fun d => { d with haltColl := setBit d.haltColl (inst % 64) on }) s

/-! Watchpoints (R225, R226): a request accepted at its translation home is compared with each of them. -/

/-- The range of a watchpoint holds the IA of a request, or begins within its `n` bytes. -/
def wpHit (w : Word × Word) (ia : Nat) (k : AKind) (kid : BitVec 16) (n : Nat := 1) : Bool :=
  let (lo, hi) := w
  let sz := bitsOf lo 5 0
  let b := bitsOf lo 51 6 * 64 / 2 ^ sz * 2 ^ sz
  bit lo 63 && decide (6 ≤ sz) && decide (sz ≤ 46) && (ia / 2 ^ sz == b / 2 ^ sz || (decide (ia ≤ b) && decide (b < ia + n)))
    && (bitsOf hi 47 32 == 0xFFFF || bitsOf hi 47 32 == kid.toNat)
    && (match k with | .rd | .fetch => bit lo 60 | .wr => bit lo 61 | .at => bit lo 62)

def kindInfo : AKind → Nat | .rd | .fetch => 1 | .wr => 2 | .at => 4

/-- Every watchpoint that an access hits counts it and sends its record; a die of this device that the accessor is on is halted where the watchpoint
says so (R226; another device's die is not here). -/
def watch (s : State) (x : Acc) (ia : Nat) (k : AKind) (bytes : Nat := 1) : State :=
  (List.range 16).foldl (fun s n =>
    let w := vget s.wp n (0, 0)
    if !wpHit w ia k x.kid bytes then s else
    let hits := bitsOf w.2 31 0
    let s := { s with wp := vset s.wp n (w.1, if hits = 0xFFFFFFFF then w.2 else putBits w.2 31 0 (hits + 1)) }
    let (ag, inst) := x.eng.getD (0, 0)
    let owner := BitVec.ofNat 16 (bitsOf w.2 63 48)
    let s := s.sendPacketTo x.agent (s.faultAgent owner)
      { code := 0x1C, agent := ag, sub := BitVec.ofNat 8 n, noctx := true, ctx := 0, task := x.task, kid := owner, stage := x.stage
        core := agentNum x.agent, info := BitVec.ofNat 16 (kindInfo k * 256), inst := BitVec.ofNat 16 inst, pc := x.pc, va := 0
        ia := BitVec.ofNat 64 ia, time := s.time, insn := 0 }
    if bit w.1 59 && !x.device then haltGroup s (agentDie x.agent) (bitsOf w.1 58 55) true else s) s

/-- The home caches the translation of a page (R91). -/
def cacheLeaf (s : State) (ia : Nat) : State :=
  match cached s (ia / 4096) with
  | some _ => s
  | none => match leafOf s ia with | .ok e => { s with tlb := s.tlb.set (ia / 4096) e } | .error _ => s

/-- What accepting a translated access does beside its data: the home caches the translation, watchpoints compare. -/
def accepted (s : State) (x : Acc) (p : Path) (k : AKind) : State :=
  match p with
  | .mem ia _ _ _ => watch (cacheLeaf s ia) x ia k
  | _ => s

end Sys2Proof.Machine
end

