-- ==== Sys2Proof/Machine/Cache.lean ====
section
/-! DEFINITION. The caches and the levels behind an access: write-combining buffer, L1, L2, sarking, thatch and HBM (R82, R88 to R90, R104,
R107, R122 to R127), scratchpads with subscription forwarding (R140, R141), the host aperture (R411) and other devices' pages (R128 to
R130). -/

namespace Sys2Proof.Machine

/-- A free way of a set, or none; the line may enter any of them (R82, R88). -/
def freeWays (n : Nat) (used : List Nat) : List Nat := (List.range n).filter fun w => !used.contains w

/-! Thatch and HBM (R90, log 46). -/

/-- Stack and set of a line: 12 ways of 8 MiB hold 131,072 lines each. -/
def thatchSet (line : Nat) : Nat × Nat := (line / 2 ^ 30, line % 131072)

/-- A line leaves the thatch; dirty bytes go to HBM. -/
def thatchEvict (s : State) (line : Nat) : State :=
  match s.thatch.find? line with
  | none => s
  | some t => { s with hbm := if t.dirty then s.hbm.writeMasked (line * 64) t.data (BitVec.allOnes 64) else s.hbm, thatch := s.thatch.erase line }

/-- Make room for a line in its thatch set and name its way: the lowest free one, or that of a line that leaves. -/
def thatchPlace (s : State) (line : Nat) : Nat × State :=
  let set := s.thatch.filter fun (q : Nat × TLine) => thatchSet q.1 == thatchSet line
  match freeWays 12 (set.map fun q => q.2.way) with
  | w :: _ => (w, s)
  | [] =>
    let (r, s) := s.freeBits 32
    match set[r.toNat % set.length]? with
    | some q => (q.2.way, thatchEvict s q.1)
    | none => (0, s)

/-- Masked bytes of a line at its stack: into the thatch; in boot mode, where it caches no other frame, into the boot range or HBM (R413, log 9). -/
def physPut (s : State) (pa : Nat) (d : Line) (m : Mask) : State :=
  let line := pa / 64
  if s.thboot then { s with hbm := s.hbm.writeMasked (line * 64) d m } else
  match s.thatch.find? line with
  | some t => { s with thatch := s.thatch.set line { t with data := Line.merge t.data d m, dirty := true } }
  | none =>
    let old := physLine s pa
    let (w, s) := thatchPlace s line
    { s with thatch := s.thatch.set line ⟨w, Line.merge old d m, true⟩ }

/-- `n` bytes at a physical address, within one line. -/
def physPutNat (s : State) (pa n v : Nat) : State := physPut s pa (Line.put (pa % 64) v) (Mask.span (pa % 64) n)

/-- The DIRTY bit of a frame's entry (R135); it stands beside the thatch's work, before any table is written in boot mode. -/
def markDirty (s : State) (pa : Nat) : State :=
  if ftBase ≤ pa % 2 ^ 36 || s.thboot then s else physPutNat s (ftAddr pa + 7) 1 (setBit ((ftEntry s pa).extractLsb' 56 8) 7 true).toNat

/-- A write reaches a frame's thatch: its DIRTY bit is set (R135); a whole-line write clears poison (R228); a stopped die drops it (R229). -/
def physWrite (s : State) (pa : Nat) (d : Line) (m : Mask) : State :=
  if (s.die (frameDie pa)).stopped then s else
  let s := markDirty (physPut s pa d m) pa
  { s with poison := if m = BitVec.allOnes 64 then s.poison.erase (pa / 64) else s.poison }

/-- Every line of the thatches that `p` holds for goes to HBM and leaves. -/
def thatchFlush (s : State) (p : Nat → Bool) : State :=
  (s.thatch.filter fun (q : Nat × TLine) => p q.1).foldl (fun (s : State) q => thatchEvict s q.1) s

/-! Sarking (R89, R125). -/

/-- Bytes of a write-back or an atomic update any valid sarking copy of the die (R125). -/
def sarkUpdate (s : State) (die line : Nat) (dat : Line) (m : Mask) : State :=
  match (s.die die).sark.find? line with
  | some l => s.modDie die fun d => { d with sark := d.sark.set line { l with data := Line.merge l.data dat m, bad := l.bad && m != BitVec.allOnes 64 } }
  | none => s

/-- Make room for a line in its sarking set and name its way: eight ways, and as many sets as SKSIZE gives lines (R89); of a full set a copy
is dropped, one of an old generation first. -/
def skPlace (s : State) (die line : Nat) : Nat × State :=
  let d := s.die die
  let sets := d.skSize * 2 ^ 21
  let set := d.sark.filter fun (q : Nat × SLine) => q.1 % sets == line % sets
  match freeWays 8 (set.map fun q => q.2.way), set.find? fun q => q.2.gen != d.skgen with
  | w :: _, _ => (w, s)
  | [], some q => (q.2.way, s.modDie die fun d => { d with sark := d.sark.erase q.1 })
  | [], none =>
    let (r, s) := s.freeBits 32
    match set[r.toNat % set.length]? with
    | some q => (q.2.way, s.modDie die fun d => { d with sark := d.sark.erase q.1 })
    | none => (0, s)

/-- A copy of a line framed on another die enters sarking (R89, R125). -/
def skFill (s : State) (die line pa : Nat) (dat : Line) : State :=
  if (s.die die).skSize = 0 then s else
  let s := s.modDie die fun d => { d with sark := d.sark.erase line }
  let (w, s) := skPlace s die line
  s.modDie die fun d => { d with sark := d.sark.set line ⟨w, pa / 64 * 64, dat, d.skgen, s.poison.contains (pa / 64)⟩ }

/-- A new acquire or launch invalidates every sarking copy of the die; the tags clear when the generation wraps (R89, R127). -/
def skBump (s : State) (die : Nat) : State :=
  s.modDie die fun d => { d with skgen := d.skgen + 1, sark := if d.skgen = 0xFFFFFFFF then [] else d.sark }

/-! L2 (R88, R124). -/

def l2Slice (line : Nat) : Nat := (line % 64) ^^^ (line / 64 % 64)
def l2Set (line : Nat) : Nat := line / 64 % 8192

def l2Evict (s : State) (die line : Nat) : State :=
  match (s.die die).l2.find? line with
  | none => s
  | some l =>
    let s := if l.mask ≠ 0 then physWrite s l.pa l.data l.mask else s
    s.modDie die fun d => { d with l2 := d.l2.erase line }

/-- Make room for a line in its L2 set and name its way: any free way, or the way of a line that leaves. -/
def l2Place (s : State) (die line : Nat) : Nat × State :=
  let d := s.die die
  let set := d.l2.filter fun (q : Nat × CLine) => l2Slice q.1 == l2Slice line && l2Set q.1 == l2Set line
  let (r, s) := s.freeBits 32
  match freeWays (16 - d.dsp) (set.map fun q => q.2.way) with
  | [] => match set[r.toNat % set.length]? with
    | some q => (q.2.way, l2Evict s die q.1)
    | none => (0, s)
  | ws => (ws.getD (r.toNat % ws.length) 0, s)

/-- Fill a line framed on this die into its L2 slice. -/
def l2Fill (s : State) (die line pa : Nat) (ty : PType) : CLine × State :=
  match (s.die die).l2.find? line with
  | some l => (l, s)
  | none =>
    let (w, s) := l2Place s die line
    let l : CLine := ⟨w, pa / 64 * 64, ty, physLine s pa, 0, s.poison.contains (pa / 64)⟩
    (l, s.modDie die fun d => { d with l2 := d.l2.set line l })

/-- A masked write performed at an L2 slice. -/
def l2Write (s : State) (die line pa : Nat) (ty : PType) (dat : Line) (m : Mask) : State :=
  let (l, s) := l2Fill s die line pa ty
  s.modDie die fun d => { d with l2 := d.l2.set line { l with data := Line.merge l.data dat m, mask := l.mask ||| m } }

/-! The outward side of an L1, and the path of a ridge core (R125, R418). -/

/-- Read a line from the next level outward of die `die`'s L1s. -/
def outRead (s : State) (die line pa : Nat) (ty : PType) : Line × State :=
  if frameDie pa = die then let (l, s) := l2Fill s die line pa ty; (l.data, s)
  else match sarkHit (s.die die) line with
    | some l => (l.data, s)
    | none =>
      let dat := physLine s pa
      (dat, skFill s die line pa dat)

/-- Write back outward of die `die`'s L1s (R125, R126). -/
def outWrite (s : State) (die line pa : Nat) (ty : PType) (dat : Line) (m : Mask) : State :=
  if frameDie pa = die then l2Write s die line pa ty dat m
  else physWrite (sarkUpdate s die line dat m) pa dat m

/-! L1 (R82, R124). -/

def l1Set (line : Nat) : Nat := line / 8 % 256
/-- The core whose slice is a line's home in a cluster. -/
def l1Home (clu line : Nat) : Nat := clu * 8 + line % 8
def cluDie (clu : Nat) : Nat := clu / 64

/-- A cluster gives up its copy of a SEQ line: the directory forgets it (R122). -/
def dirDrop (s : State) (clu line : Nat) : State :=
  match s.dir.find? line with
  | some (.shared h) =>
    let h := h.erase clu
    { s with dir := if h.isEmpty then s.dir.erase line else s.dir.set line (.shared h) }
  | some (.modified k) => if k = clu then { s with dir := s.dir.erase line } else s
  | none => s

/-- A SEQ line goes back to its home slice. -/
def seqHome (s : State) (line : Nat) (l : CLine) : State := l2Write s (frameDie l.pa) line l.pa .seq l.data l.mask

def l1Evict (s : State) (clu line : Nat) : State :=
  match (s.clu clu).l1.find? line with
  | none => s
  | some l =>
    let s := if l.mask = 0 then s else
      if l.ty = .seq then seqHome s line l else outWrite s (cluDie clu) line l.pa l.ty l.data l.mask
    let s := if l.ty = .seq then dirDrop s clu line else s
    s.modClu clu fun c => { c with l1 := c.l1.erase line }

def l1Place (s : State) (clu line : Nat) : Nat × State :=
  let set := (s.clu clu).l1.filter fun (q : Nat × CLine) => q.1 % 8 == line % 8 && l1Set q.1 == l1Set line
  let (r, s) := s.freeBits 32
  match freeWays (20 - (s.core (l1Home clu line)).nWays) (set.map fun q => q.2.way) with
  | [] => match set[r.toNat % set.length]? with
    | some q => (q.2.way, l1Evict s clu q.1)
    | none => (0, s)
  | ws => (ws.getD (r.toNat % ws.length) 0, s)

def l1Fill (s : State) (clu line pa : Nat) (ty : PType) : CLine × State :=
  match (s.clu clu).l1.find? line with
  | some l => (l, s)
  | none =>
    let (w, s) := l1Place s clu line
    let bad := outBad s (cluDie clu) line pa
    let (dat, s) := outRead s (cluDie clu) line pa ty
    let l : CLine := ⟨w, pa / 64 * 64, ty, dat, 0, bad⟩
    (l, s.modClu clu fun c => { c with l1 := c.l1.set line l })

/-- A masked write performed at the L1 home slice. -/
def l1Write (s : State) (clu line pa : Nat) (ty : PType) (dat : Line) (m : Mask) : State :=
  let (l, s) := l1Fill s clu line pa ty
  s.modClu clu fun c => { c with l1 := c.l1.set line { l with data := Line.merge l.data dat m, mask := l.mask ||| m } }

/-! The SEQ directory (R122): one request, served whole. -/

/-- The owner of a modified line writes it back and keeps a clean copy, or loses it. -/
def dirRecall (s : State) (j line : Nat) (keep : Bool) : State :=
  match (s.clu j).l1.find? line with
  | none => s
  | some l =>
    let s := seqHome s line l
    s.modClu j fun c => { c with l1 := if keep then c.l1.set line l.cleaned else c.l1.erase line }

/-- Every copy is recalled or invalidated; the directory state becomes U. -/
def dirClear (s : State) (line : Nat) : State :=
  let s := match s.dir.find? line with
    | some (.shared h) => h.foldl (fun (s : State) k => s.modClu k fun c => { c with l1 := c.l1.erase line }) s
    | some (.modified j) => dirRecall s j line false
    | none => s
  { s with dir := s.dir.erase line }

/-- Fill a SEQ line into a cluster's L1 from its home slice. -/
def seqFill (s : State) (clu line pa : Nat) : State :=
  match (s.clu clu).l1.find? line with
  | some _ => s
  | none =>
    let (w, s) := l1Place s clu line
    let (h, s) := l2Fill s (frameDie pa) line pa .seq
    s.modClu clu fun c => { c with l1 := c.l1.set line ⟨w, pa / 64 * 64, .seq, h.data, 0, h.poisoned⟩ }

def dirServe (s : State) (clu line pa : Nat) (k : DirReq) : State :=
  match k with
  | .read =>
    match s.dir.find? line with
    | none =>
      let s := seqFill s clu line pa
      { s with dir := s.dir.set line (.shared [clu]) }
    | some (.shared h) =>
      let s := seqFill s clu line pa
      { s with dir := s.dir.set line (.shared (if h.contains clu then h else clu :: h)) }
    | some (.modified j) =>
      if j = clu then s else
      let s := seqFill (dirRecall s j line true) clu line pa
      { s with dir := s.dir.set line (.shared [clu, j]) }
  | .write =>
    match s.dir.find? line with
    | some (.modified j) =>
      if j = clu then s else
      let s := seqFill (dirRecall s j line false) clu line pa
      { s with dir := s.dir.set line (.modified clu) }
    | some (.shared h) =>
      let s := (h.erase clu).foldl (fun (s : State) k => s.modClu k fun c => { c with l1 := c.l1.erase line }) s
      let s := seqFill s clu line pa
      { s with dir := s.dir.set line (.modified clu) }
    | none =>
      let s := seqFill s clu line pa
      { s with dir := s.dir.set line (.modified clu) }
  | .evict => l1Evict s clu line
  | .atomic => dirClear s line
  | .device _ => dirClear s line

/-! The write-combining buffer (R107). -/

def wcbDrainOne (s : State) (a : Nat) (e : WcbEntry) : State := l1Write s (agentClu a) e.line e.pa e.ty e.data e.mask

def wcbDrain (s : State) (a : Nat) : State :=
  let es := (s.core a).wcb
  es.foldl (fun (s : State) e => wcbDrainOne s a e) (s.modCore a fun o => { o with wcb := [] })

/-- One entry leaves for its L1 home slice. -/
def wcbEvict (s : State) (a line : Nat) : State :=
  match (s.core a).wcb.find? fun e => e.line == line with
  | none => s
  | some e => wcbDrainOne (s.modCore a fun o => { o with wcb := o.wcb.filter fun x => x.line != line }) a e

def wcbStore (s : State) (a line pa : Nat) (ty : PType) (dat : Line) (m : Mask) : State :=
  let o := s.core a
  if o.wcb.any fun e => e.line == line then
    s.setCore a { o with wcb := o.wcb.map fun e =>
      if e.line = line then { e with data := Line.merge e.data dat m, mask := e.mask ||| m } else e }
  else
    let s := if o.wcb.length < 16 then s else match o.wcb with | e :: _ => wcbEvict s a e.line | [] => s
    s.modCore a fun o => { o with wcb := o.wcb ++ [⟨line, pa / 64 * 64, ty, dat, m⟩] }

/-! Pushes and drops (R103, R104, R124). -/

def Scope.ge (a b : Scope) : Bool := decide (b.code.toNat ≤ a.code.toNat)
def Scope.max (a b : Scope) : Scope := if Scope.ge a b then a else b

/-- The REL lines, and the PRV lines at `dev` and wider, that a release or an acquire at a scope concerns (R111). -/
def pushes (ty : PType) (sc : Scope) : Bool := match ty with | .rel => true | .prv => Scope.ge sc .dev | _ => false

/-- The lines of a cluster go back outward and stay, clean. -/
def pushL1 (s : State) (clu : Nat) (sc : Scope) (want : Nat → Bool) : State :=
  (s.clu clu).l1.foldl (fun (s : State) (q : Nat × CLine) =>
    if q.2.mask = 0 || !pushes q.2.ty sc || !want q.1 then s else
    let s := outWrite s (cluDie clu) q.1 q.2.pa q.2.ty q.2.data q.2.mask
    s.modClu clu fun c => { c with l1 := c.l1.set q.1 q.2.cleaned }) s

def pushL2 (s : State) (die : Nat) (sc : Scope) (want : Nat → Bool) : State :=
  (s.die die).l2.foldl (fun (s : State) (q : Nat × CLine) =>
    if q.2.mask = 0 || !pushes q.2.ty sc || !want q.1 then s else
    let s := physWrite s q.2.pa q.2.data q.2.mask
    s.modDie die fun d => { d with l2 := d.l2.set q.1 q.2.cleaned }) s

/-! Writes that leave the device (R411, R414). -/

def Unacked.host (u : Unacked) : Bool := u.what == .host

/-- A write leaves for the host's memory or another device and is not acknowledged: after 2^24 cycles it is treated as one to a stopped die
(R411, R414, R229). -/
def leaves (s : State) (u : Unacked) : State :=
  { s with unacked := s.unacked ++ [u] }.pendOnce (if u.host then .apertureWriteTimeout u.agent u.ctx else .remoteTimeout u.agent u.ctx)

def Acc.unacked (x : Acc) (what : Leaving) (ia n v since : Nat) : Unacked :=
  { what := what, agent := x.agent, ctx := x.ctx, task := x.task, kid := x.kid, stage := x.stage, pc := x.pc, code := (x.eng.getD (0, 0)).1
    inst := (x.eng.getD (0, 0)).2, ia := ia, n := n, v := v, since := since }

/-- Dirty bytes of a copy of another device's page, in the lines wanted, reach their home and are clean; where no path leads there they are lost,
which is reported to the kernel that wrote them last (R129, R414). -/
def pushCopy (s : State) (page : Nat) (p : PageCopy) (want : Nat → Bool) : State :=
  let out := p.dirty.filter fun a => want (a / 64)
  let s := { s with pages := s.pages.set page { p with dirty := p.dirty.filter fun a => !want (a / 64) } }
  match out with
  | [] => s
  | a :: _ =>
    if unreachable s (page * 4096) then
      let (ag, t, kid) := p.by_
      leaves s { what := .push, agent := ag, ctx := 0, task := t, kid := kid, stage := 0, pc := 0, code := 0, inst := 0, ia := a, n := 0, v := 0
                 since := s.now }
    else { s with remote := out.foldl (fun m a => Mem.write m a (Mem.read p.data a)) s.remote }

/-- Dirty bytes of pages of other devices, in the lines wanted, reach their homes (R129). -/
def pushPages (s : State) (want : Nat → Bool) : State :=
  s.pages.foldl (fun (s : State) (q : Nat × PageCopy) => pushCopy s q.1 q.2 want) s

/-- A release pushes every dirty byte on the agent's path to the level of its scope (R104). -/
def pushTo (s : State) (a : Nat) (sc : Scope) (want : Nat → Bool := fun _ => true) : State :=
  let s := if isRidge a then s else
    let s := if Scope.ge sc .clu then
      ((s.core a).wcb.filter fun e => want e.line).foldl (fun (s : State) e => wcbEvict s a e.line) s else s
    if Scope.ge sc .die then pushL1 s (agentClu a) sc want else s
  let s := if Scope.ge sc .dev then pushL2 s (agentDie a) sc want else s
  if Scope.ge sc .sys then pushPages s want else s

/-- An acquire drops clean copies below its level and refreshes the clean bytes of partly dirty lines (R104, R124). -/
def dropL2 (s : State) (die : Nat) (sc : Scope) (want : Nat → Bool) : State :=
  let f (q : Nat × CLine) : Option (Nat × CLine) :=
    if !pushes q.2.ty sc || !want q.1 then some q
    else if q.2.mask = 0 then none
    else some (q.1, { q.2 with data := Line.merge (physLine s q.2.pa) q.2.data q.2.mask, bad := s.poison.contains (q.2.pa / 64) })
  s.modDie die fun d => { d with l2 := d.l2.filterMap f }

def dropL1 (s : State) (clu : Nat) (sc : Scope) (want : Nat → Bool) : State :=
  (s.clu clu).l1.foldl (fun (s : State) (q : Nat × CLine) =>
    if !pushes q.2.ty sc || !want q.1 then s
    else if q.2.mask = 0 then s.modClu clu fun c => { c with l1 := c.l1.erase q.1 }
    else
      let bad := outBad s (cluDie clu) q.1 q.2.pa
      let (dat, s) := outRead s (cluDie clu) q.1 q.2.pa q.2.ty
      s.modClu clu fun c => { c with l1 := c.l1.set q.1 { q.2 with data := Line.merge dat q.2.data q.2.mask, bad := bad } }) s

def dropTo (s : State) (a : Nat) (sc : Scope) (bump : Bool) (want : Nat → Bool := fun _ => true) : State :=
  let s := if bump && Scope.ge sc .die then skBump s (agentDie a) else s
  let s := if Scope.ge sc .dev then dropL2 s (agentDie a) sc want else s
  if !isRidge a && Scope.ge sc .die then dropL1 s (agentClu a) sc want else s

/-- The acquire of a fence, a load or a wait (R103, R127). -/
def acquire (s : State) (a : Nat) (sc : Scope) : State := dropTo s a sc true
/-- The release of a fence, a store or a command, without the wait of R143. -/
def release (s : State) (a : Nat) (sc : Scope) : State := pushTo s a sc

/-- Push an address's dirty copies on the agent's own path outward to the home, and drop them, so that a wider execution point sees
the agent's own stores and its later loads see the result (R99, R107). -/
def pushLine (s : State) (a line : Nat) (sc : Scope) : State :=
  dropTo (pushTo s a sc fun l => l == line) a sc false fun l => l == line

/-! Subscriptions: stores at a publisher core's port (R138, R140, R141). -/

def Pub.valid (e : BitVec 128) : Bool := bit e 127
def Pub.state (e : BitVec 128) : Nat := bitsOf e 126 125
def Pub.kid (e : BitVec 128) : BitVec 16 := e.extractLsb' 96 16
def Pub.sub (e : BitVec 128) : Nat := bitsOf e 95 80
def Pub.subIdx (e : BitVec 128) : Nat := bitsOf e 79 76
def Pub.outst (e : BitVec 128) : Nat := bitsOf e 75 64
def Pub.off (e : BitVec 128) : Nat := bitsOf e 31 19 * 64
def Pub.len (e : BitVec 128) : Nat := (bitsOf e 18 13 + 1) * 64
def Pub.covers (e : BitVec 128) (off n : Nat) : Bool :=
  Pub.valid e && Pub.state e != 2 && decide (off < Pub.off e + Pub.len e) && decide (Pub.off e < off + n)

def pubIdxs (o : Core) (off n : Nat) : List Nat := (List.range 16).filter fun i => Pub.covers (vget o.pubs i 0) off n
/-- An update of a publisher entry cannot be counted. -/
def pubFull (o : Core) (i : Nat) : Bool := Pub.outst (vget o.pubs i 0) == 4095
/-- Who stores now: the event in hand, or the context that issues. -/
def portUser (s : State) : PortUser := match s.ev with | some e => .ev e | none => .ctx s.curAgent s.curCtx
/-- A user of a port's queue still waits there. -/
def waitsAtPort (s : State) (u : PortUser) : Bool :=
  match u with
  | .ctx a k => let c := s.ctx a k; c.st == .live && c.wait.isSome
  | .ev e => s.ev == some e || s.pending.contains e
/-- Stores wait at the port of a core's scratchpad ahead of the one that comes now. -/
def portAhead (s : State) (a : Nat) : Bool :=
  (s.portQ.takeWhile fun q => q != (a, portUser s)).any fun q => q.1 == a && waitsAtPort s q.2
/-- The port holds a store while an update of its region cannot be counted, and with it every store that comes behind it, in order (R140). -/
def portBusy (s : State) (a off n : Nat) : Bool := (pubIdxs (s.core a) off n).any (pubFull (s.core a)) || portAhead s a

/-- The store waits at the port of a core, behind those that came before. -/
def atPort (s : State) (a : Nat) : State := if s.portQ.contains (a, portUser s) then s else { s with portQ := s.portQ ++ [(a, portUser s)] }

/-- Record the stored bytes of block `b` of a publisher entry as an update: into the newest pending one when it is for the
same block and less than 32 cycles old, else a new one (R141). -/
def pubNote (s : State) (a i b : Nat) (m : Mask) (dat : Line) : State :=
  let o := s.core a
  let mine := o.pubPend.filter fun p => p.entry == i
  match mine.getLast? with
  | some p =>
    if !p.group && p.blocks.map (fun x => x.1) == [b] && decide (s.now < p.opened + 32) then
      let upd := match p.blocks with
        | (_, m0, d0) :: _ => { p with blocks := [(b, m0 ||| m, Line.merge d0 dat m)] }
        | [] => p
      s.setCore a { o with pubPend := o.pubPend.map fun q => if q == p then upd else q }
    else (s.setCore a { o with pubPend := o.pubPend ++ [⟨i, s.now, [(b, m, dat)], none, none, false⟩] }).pend
      (.subscriptionUpdateSend a i)
  | none => (s.setCore a { o with pubPend := o.pubPend ++ [⟨i, s.now, [(b, m, dat)], none, none, false⟩] }).pend
      (.subscriptionUpdateSend a i)

/-- A store at the scratchpad port of core `a`, at most one 64-byte block; publisher regions forward it (R109, R140). -/
def spWrite (s : State) (a off n x : Nat) : State :=
  let o := s.core a
  let s := s.setCore a { o with spad := o.spad.writeNat off n x }
  let s := if n = 64 then { s with spPoison := s.spPoison.erase (a, off / 64) } else s
  (pubIdxs (s.core a) off n).foldl (fun (s : State) i =>
    let e := vget (s.core a).pubs i 0
    pubNote s a i (off / 64 - Pub.off e / 64) (Mask.span (off % 64) n) (Line.put (off % 64) x)) s

def dsWrite (s : State) (d off n x : Nat) : State :=
  let s := s.modDie d fun e => { e with dspad := e.dspad.writeNat off n x }
  if n = 64 then { s with dsPoison := s.dsPoison.erase (d, off / 64) } else s

/-! Pages of other devices (R128 to R130). -/

/-- What an access that was accepted must wait for first: moves of other agents, a scratchpad's port, or the answer of a device that no path reaches. -/
inductive Hold
  | events (l : List Ev)
  | port (agent : Nat)
  | far
  deriving DecidableEq, Repr

/-- A page of another device must be fetched, or owned, before the access is served; an atomic goes to the home, after the stores that this
device holds (R129, R99). -/
def pageHold (s : State) (x : Acc) (ia : Nat) (k : AKind) : Option Hold :=
  let ask (store : Bool) : Option Hold := some (.events [.pageCopyRequest ⟨s.devno.toNat, pageOf ia, store, x.world, x.kid⟩])
  match s.pages.find? (pageOf ia) with
  | some p => if k == .at && (p.st == .op || unreachable s ia) then some (if p.st == .op then .events [] else .far) else none
  | none =>
    if unreachable s ia then (if k == .wr then none else some .far)
    else match k with | .at => none | .wr => ask true | _ => ask false

/-- A store waits for a port with subscription acknowledgements outstanding (R140). -/
def portHeld (s : State) (p : Path) (n : Nat) (k : AKind) : Bool :=
  match p with | .scratch a off => (k == .wr || k == .at) && portBusy s a off n | _ => false

/-- The core whose port a path's store takes. -/
def portOf (p : Path) : Nat := match p with | .scratch a _ => a | _ => 0

/-- A context's store or atomic comes after its own stores that are held for another page (R117, log 47); those of its own page it joins
(R130). -/
def behindHeld (s : State) (x : Acc) (p : Path) (k : AKind) : Bool :=
  let here (page : Nat) : Bool := match p with | .remote ia => pageOf ia == page | .mem ia _ _ _ => pageOf ia == page | _ => false
  x.eng.isNone && (k == .wr || k == .at)
    && s.pages.any fun (q : Nat × PageCopy) => !here q.1 && q.2.held.any fun h => h.1 == x.task.toNat

/-- What holds an access on its path: earlier stores of its context (R117), a port that waits for subscription acknowledgements (R140), or
another device (R129, R414). -/
def pathHold (s : State) (x : Acc) (p : Path) (n : Nat) (k : AKind) : Option Hold :=
  if behindHeld s x p k then some (.events []) else
  match p with
  | .scratch a _ => if portHeld s p n k then some (.port a) else none
  | .remote ia => pageHold s x ia k
  | .far ia _ => if unreachable s ia && k != .wr then some .far else none
  | .aperture _ => if !hostReached s && k != .wr then some .far else none
  | _ => none

/-- A load from another device's page: the storing context's held stores are forwarded to it alone (R130). -/
def remoteRead (s : State) (x : Acc) (ia n : Nat) : Nat :=
  match s.pages.find? (pageOf ia) with
  | none => s.remote.readNat ia n
  | some p =>
    let m := (p.held.filter fun h => h.1 == x.task.toNat).foldl (fun m (_, a, k, v) => Mem.writeNat m a k v) p.data
    m.readNat ia n

/-- A store to a frame of a stopped die, or to a device that no path reaches, is dropped, with a record (R229, R414). -/
def storeDropped (s : State) (x : Acc) (ia : Nat) : State :=
  let (ag, inst) := x.eng.getD (0, 0)
  s.record 0x1B 3 ag inst x.kid x.task x.agent x.stage x.pc 0 (BitVec.ofNat 64 ia)

/-- The context that an access is made for, as a page's last writer. -/
def Acc.writer (x : Acc) : Nat × BitVec 32 × BitVec 16 := (x.agent, x.task, x.kid)

/-- A store to another device's REL page (R129). -/
def remoteWrite (s : State) (x : Acc) (ia n v : Nat) : State :=
  if unreachable s ia && (s.pages.find? (pageOf ia)).isNone then leaves s (x.unacked .far ia n v s.now)
  else match s.pages.find? (pageOf ia) with
  | none => { s with remote := s.remote.writeNat ia n v }
  | some p =>
    match p.st with
    | .ow =>
      let dirty := (List.range n).foldl (fun d i => if d.contains (ia + i) then d else d ++ [ia + i]) p.dirty
      { s with pages := s.pages.set (pageOf ia) { p with data := p.data.writeNat ia n v, dirty := dirty, by_ := x.writer } }
    | .op => { s with pages := s.pages.set (pageOf ia) { p with held := p.held ++ [(x.task.toNat, ia, n, v)], by_ := x.writer } }
    | .rd =>
      let s := { s with pages := s.pages.set (pageOf ia) { p with st := .op, held := p.held ++ [(x.task.toNat, ia, n, v)], by_ := x.writer } }
      s.pend (.ownershipRequest (ownRequest s x (pageOf ia)))

/-- A store at the home of another device's page (R128); on a WSO page it sets its words full. -/
def farWrite (s : State) (x : Acc) (ia n v : Nat) (ty : PType) : State :=
  if unreachable s ia then leaves s (x.unacked .far ia n v s.now) else
  let s := { s with remote := s.remote.writeNat ia n v }
  if ty ≠ .wso then s else
  let f := farPage s ia
  { s with far := s.far.set (pageOf ia) { f with full := (List.range (ceilDiv n 8)).foldl (fun l i =>
      if l.contains (ia / 8 + i) then l else l ++ [ia / 8 + i]) f.full } }

/-! Stores to this device's own pages that other devices hold (R129, R130). -/

/-- The store is held at the home until every other copy is gone; older bytes of the context leave the core first (R99). -/
def holdOwn (s : State) (x : Acc) (ia n v : Nat) : State :=
  let s := if isRidge x.agent then s else wcbEvict s x.agent (ia / 64)
  let p : PageCopy := match s.pages.find? (pageOf ia) with | some p => p | none => ⟨.op, [], [], [], x.writer⟩
  askOwn { s with pages := s.pages.set (pageOf ia) { p with held := p.held ++ [(x.task.toNat, ia, n, v)], by_ := x.writer } } x (pageOf ia)

/-- The storing context reads its held stores over what it reads (R130). -/
def heldOver (s : State) (x : Acc) (ia n v : Nat) : Nat :=
  match s.pages.find? (pageOf ia) with
  | none => v
  | some p =>
    ((p.held.filter fun h => h.1 == x.task.toNat).foldl (fun m (_, a, k, u) => Mem.writeNat m a k u) (Mem.writeNat [] ia n v)).readNat ia n

/-- The bytes that the home of a bound header or a placed descriptor holds (R182, R338). -/
def liveMask (s : State) (pa : Nat) : Mask :=
  let b := pa / 64 * 64
  if (s.workLists.find? b).isSome then BitVec.allOnes 64
  else if (s.nbMats.find? b).isSome then Mask.span 16 8 ||| Mask.span 26 2
  else 0

/-- A load of such bytes reads the live values there. -/
def liveOver (s : State) (pa n v : Nat) : Nat :=
  let m := liveMask s pa
  if m = 0 then v else Line.get (Line.merge (Line.put (pa % 64) v) (physLine s pa) m) (pa % 64) n

/-! The host aperture (R411). -/

/-- The IA of a host address. -/
def apertureIa (s : State) (h : Nat) : Nat := s.devno.toNat * 2 ^ 46 + 3 * 2 ^ 44 + h
/-- The host's memory with a task's writes that are on their way. -/
def apertureRead (s : State) (t : BitVec 32) (h n : Nat) : Nat :=
  ((s.unacked.filter fun u => u.host && u.task == t).foldl (fun m u => Mem.writeNat m (u.ia % 2 ^ 44) u.n u.v) s.hostMem).readNat h n
/-- A write to the host: delivered and acknowledged, or on its way while the host node is silent. -/
def apertureWrite (s : State) (x : Acc) (h n v : Nat) : State :=
  if hostReached s then { s with hostMem := s.hostMem.writeNat h n v } else leaves s (x.unacked .host (apertureIa s h) n v s.now)
/-- The host node answers again: what is on its way is delivered, in order, and acknowledged. -/
def hostBack (s : State) : State :=
  let s := { s with hostUp := true }
  if !hostReached s then s else
  { s with
    hostMem := (s.unacked.filter fun u => u.host).foldl (fun m u => Mem.writeNat m (u.ia % 2 ^ 44) u.n u.v) s.hostMem
    unacked := s.unacked.filter fun u => !u.host }

/-! Reads and writes along an agent's path. -/

/-- The line an access of a cluster core or a ridge core reads (R124, R125, R418). -/
def relRead (s : State) (x : Acc) (line pa : Nat) (ty : PType) : Line × State :=
  if isRidge x.agent then outRead s (agentDie x.agent) line pa ty
  else
    let (l, s) := l1Fill s (agentClu x.agent) line pa ty
    match (s.core x.agent).wcb.find? fun e => e.line == line with
    | some e => (Line.merge l.data e.data e.mask, s)
    | none => (l.data, s)

/-- Read `n` bytes, at most to the end of the line (R99). -/
def readPath (s : State) (x : Acc) (p : Path) (n : Nat) : Nat × State :=
  let s := accepted s x p .rd
  match p with
  | .scratch a off => ((s.core a).spad.readNat off n, s)
  | .dieScratch d off => ((s.die d).dspad.readNat off n, s)
  | .aperture h => (apertureRead s x.task h n, s)
  | .remote ia => (remoteRead s x ia n, s)
  | .far ia _ => (s.remote.readNat ia n, s)
  | .mem ia pa ty disc =>
    if disc then (0, s) else
    let line := ia / 64
    match ty with
    | .wso => (Line.get (physLine s pa) (pa % 64) n, s)
    | .seq =>
      if isRidge x.agent then
        let s := match s.dir.find? line with | some (.modified j) => dirRecall { s with dir := s.dir.set line (.shared [j]) } j line true | _ => s
        let (l, s) := l2Fill s (frameDie pa) line pa .seq
        (Line.get l.data (pa % 64) n, s)
      else
        let s := dirServe s (agentClu x.agent) line pa .read
        match (s.clu (agentClu x.agent)).l1.find? line with
        | some l => (Line.get l.data (pa % 64) n, s)
        | none => (Line.get (physLine s pa) (pa % 64) n, s)
    | _ => let (l, s) := relRead s x line pa ty; (liveOver s pa n (heldOver s x ia n (Line.get l (pa % 64) n)), s)

/-- Write `n` bytes of a resolved store (R107, R109, R110, R123). -/
def writePath (s : State) (x : Acc) (p : Path) (n v : Nat) : State :=
  let s := accepted s x p .wr
  match p with
  | .scratch a off => spWrite s a off n v
  | .dieScratch d off => dsWrite s d off n v
  | .aperture h => apertureWrite s x h n v
  | .remote ia => remoteWrite s x ia n v
  | .far ia ty => farWrite s x ia n v ty
  | .mem ia pa ty _ =>
    let line := ia / 64
    let dat := Line.put (pa % 64) v
    let m := Mask.span (pa % 64) n
    if (s.die (frameDie pa)).stopped then storeDropped s x ia else
    if ty = .rel && ownShared s ia then holdOwn s x ia n v else
    match ty with
    | .wso =>
      let s := physWrite s pa dat m
      { s with wsoFull := (List.range (ceilDiv n 8)).foldl (fun f i => if f.contains (pa / 8 + i) then f else f ++ [pa / 8 + i]) s.wsoFull }
    | .seq =>
      if isRidge x.agent then l2Write (dirClear s line) (frameDie pa) line pa .seq dat m
      else
        let k := agentClu x.agent
        let s := dirServe s k line pa .write
        match (s.clu k).l1.find? line with
        | some l => s.modClu k fun c => { c with l1 := c.l1.set line { l with data := Line.merge l.data dat m, mask := l.mask ||| m } }
        | none => physWrite s pa dat m
    | _ =>
      if isRidge x.agent then outWrite s (agentDie x.agent) line pa ty dat m
      else wcbStore s x.agent line pa ty dat m

/-- A read-modify-write at one execution point (R107, R109, R279): `f old` gives the new value, or none for no write. -/
def atomicPath (s : State) (x : Acc) (p : Path) (n : Nat) (sc : Scope) (f : Nat → Option Nat) : Nat × State :=
  let s := accepted s x p .at
  match p with
  | .scratch a off =>
    let old := (s.core a).spad.readNat off n
    (old, match f old with | some v => spWrite s a off n v | none => s)
  | .dieScratch d off =>
    let old := (s.die d).dspad.readNat off n
    (old, match f old with | some v => dsWrite s d off n v | none => s)
  | .aperture h =>
    let old := s.hostMem.readNat h n
    (old, match f old with | some v => apertureWrite s x h n v | none => s)
  | .remote ia =>
    let s := pushPages s fun l => l == ia / 64
    let old := s.remote.readNat ia n
    (old, match f old with
      | some v =>
        let s := { s with remote := s.remote.writeNat ia n v }
        match s.pages.find? (pageOf ia) with
        | some q => { s with pages := s.pages.set (pageOf ia) { q with data := q.data.writeNat ia n v } }
        | none => s
      | none => s)
  | .far ia ty =>
    let old := s.remote.readNat ia n
    (old, match f old with | some v => farWrite s x ia n v ty | none => s)
  | .mem ia pa ty _ =>
    let line := ia / 64
    let o := pa % 64
    let m := Mask.span o n
    let a := x.agent
    let atL2 (s : State) (t : PType) :=
      let (l, s) := l2Fill s (frameDie pa) line pa t
      let old := Line.get l.data o n
      (old, match f old with | some v => l2Write s (frameDie pa) line pa t (Line.put o v) m | none => s)
    let atThatch (s : State) :=
      let s := pushLine s a line .dev
      let old := Line.get (physLine s pa) o n
      let put (v : Nat) : State := sarkUpdate s (agentDie a) line (Line.put o v) m
      (old, match f old with | some v => physWrite (put v) pa (Line.put o v) m | none => put old)
    match ty with
    | .seq => atL2 (dirClear s line) .seq
    | .wso => (0, s)
    | .prv =>
      if isRidge a then atThatch s else
      let (l, s) := relRead s x line pa ty
      let old := Line.get l o n
      (old, match f old with | some v => wcbStore s a line pa ty (Line.put o v) m | none => s)
    | .rel =>
      let sc := if isRidge a && !Scope.ge sc .dev then .die else sc
      if Scope.ge sc .dev then atThatch s
      else if sc = .die then
        if frameDie pa = agentDie a then atL2 (pushLine s a line .die) .rel else atThatch s
      else if sc = .clu then
        let s := wcbEvict s a line
        let (l, s) := l1Fill s (agentClu a) line pa .rel
        let old := Line.get l.data o n
        (old, match f old with | some v => l1Write s (agentClu a) line pa .rel (Line.put o v) m | none => s)
      else
        let (l, s) := relRead s x line pa ty
        let old := Line.get l o n
        (old, match f old with | some v => wcbStore s a line pa ty (Line.put o v) m | none => s)

/-- The bytes a fetch reads: copies are used where they stand and none is made (R245); a discarded page reads as zeros (R112). -/
def fetchPath (s : State) (x : Acc) (p : Path) (n : Nat) : Nat :=
  match p with
  | .mem ia pa ty disc =>
    if disc then 0 else
    let line := ia / 64
    let die := agentDie x.agent
    let home := if ty = .seq then homeLine s pa else
      match if frameDie pa = die then ((s.die die).l2.find? line).map fun l => l.data else (sarkHit (s.die die) line).map fun l => l.data with
      | some d => d
      | none => physLine s pa
    let l := if isRidge x.agent then home else match (s.clu (agentClu x.agent)).l1.find? line with | some l => l.data | none => home
    liveOver s pa n (heldOver s x ia n (Line.get l (pa % 64) n))
  | .aperture h => s.hostMem.readNat h n
  | .remote ia => remoteRead s x ia n
  | .far ia _ => s.remote.readNat ia n
  | .scratch a off => (s.core a).spad.readNat off n
  | .dieScratch d off => (s.die d).dspad.readNat off n

/-! Reads and writes of engines, at the home of the data (R114, R349): the L2 slice on the issuer's die, the thatch elsewhere, the other
device or this device's owned copy of its page. -/

def homeRead (s : State) (x : Acc) (p : Path) (n : Nat) : Nat × State :=
  let s := accepted s x p .rd
  match p with
  | .mem _ pa ty disc =>
    let near := ty = .seq || (ty != .wso && frameDie pa = agentDie x.agent)
    if disc then (0, s) else (Line.get (if near then homeLine s pa else physLine s pa) (pa % 64) n, s)
  | .remote ia =>
    (match s.pages.find? (pageOf ia) with | some q => if q.st = .ow then q.data.readNat ia n else s.remote.readNat ia n | none => s.remote.readNat ia n, s)
  | p => readPath s x p n

/-- Bytes that an engine writes to thatch also stand in the frame's L2 slice, clean (R114: a completion action releases them). -/
def l2Through (s : State) (die line : Nat) (dat : Line) (m : Mask) : State :=
  match (s.die die).l2.find? line with
  | none => s
  | some l =>
    let bad := l.poisoned && m != BitVec.allOnes 64
    s.modDie die fun d => { d with l2 := d.l2.set line { l with data := Line.merge l.data dat m, mask := l.mask &&& ~~~ m, bad := bad } }

/-- The words of a WSO write that are empty, and a record for each that is full (R110). -/
def wsoRecords (s : State) (x : Acc) (ia n : Nat) (isFull : Nat → Bool) : List Nat × State :=
  (List.range (ceilDiv n 8)).foldl (fun (r : List Nat × State) i =>
    if !isFull i then (r.1 ++ [i], r.2) else
    let (ag, inst) := x.eng.getD (0, 0)
    (r.1, r.2.record 0x0A 0 ag inst x.kid x.task x.agent x.stage x.pc 0 (BitVec.ofNat 64 (ia + 8 * i)))) ([], s)

/-- An engine write: a full WSO word keeps its value and a record goes to the kernel (R110). -/
def homeWrite (s : State) (x : Acc) (p : Path) (n v : Nat) : State :=
  let s := accepted s x p .wr
  match p with
  | .mem ia pa ty _ =>
    let dat := Line.put (pa % 64) v
    let m := Mask.span (pa % 64) n
    if (s.die (frameDie pa)).stopped then storeDropped s x ia else
    match ty with
    | .wso =>
      let (l, s) := wsoRecords s x ia n fun i => s.wsoFull.contains (pa / 8 + i)
      l.foldl (fun (s : State) i =>
        let w := pa / 8 + i
        { physWrite s (8 * w) dat (Mask.span (8 * w % 64) 8) with wsoFull := s.wsoFull ++ [w] }) s
    | .seq => l2Write (dirClear s (ia / 64)) (frameDie pa) (ia / 64) pa .seq dat m
    | _ => l2Through (physWrite s pa dat m) (frameDie pa) (ia / 64) dat m
  | .remote ia =>
    (match s.pages.find? (pageOf ia) with
    | some q =>
      if q.st = .ow || unreachable s ia then remoteWrite s x ia n v
      else { s with remote := s.remote.writeNat ia n v, pages := s.pages.set (pageOf ia) { q with data := q.data.writeNat ia n v } }
    | none => remoteWrite s x ia n v)
  | .far ia .wso =>
    let (l, s) := wsoRecords s x ia n fun i => (farPage s ia).full.contains (ia / 8 + i)
    l.foldl (fun (s : State) i => farWrite s x (ia + 8 * i) 8 (v / 2 ^ (64 * i) % 2 ^ 64) .wso) s
  | .scratch a off => spWrite s a off n v
  | p => writePath s x p n v

end Sys2Proof.Machine
end

