-- ==== Sys2Proof/Machine/Flags.lean ====
section
/-! DEFINITION. Exact values, rounding and conversion (R21 to R34), the sticky flags each sets (R35), and the arithmetic of one operation:
integers (R52, R255), floats (R262), compares, reciprocals (R53 to R55). A result is a bit pattern with the flags it sets. -/

namespace Sys2Proof

/-! The flags (R35). -/

def flagNX : Word := 1
def flagUF : Word := 2
def flagOF : Word := 4
def flagDZ : Word := 8
def flagNV : Word := 16
def flagSAT : Word := 32
def flagCVTBAD : Word := 64
def flagTERNBAD : Word := 128
def flagIDIV0 : Word := 256
def flagBADPIVOT : Word := 512
def flagIf (b : Bool) (f : Word) : Word := if b then f else 0

/-- A result with the flags it sets. -/
abbrev Fl (α : Type) := α × Word

/-! Exact values: NaN, an infinity, or a signed quotient; a zero keeps its sign (R24). -/

inductive Val
  | nan
  | inf (neg : Bool)
  | fin (neg : Bool) (num den : Nat)
  deriving DecidableEq, Repr

def Val.zero (neg : Bool) : Val := .fin neg 0 1
def Val.ofInt (n : Int) : Val := .fin (decide (n < 0)) n.natAbs 1
def Val.isNan : Val → Bool | .nan => true | _ => false
def Val.isInf : Val → Bool | .inf _ => true | _ => false
def Val.isZero : Val → Bool | .fin _ n _ => n == 0 | _ => false
def Val.sign : Val → Bool | .nan => false | .inf s => s | .fin s _ _ => s
def Val.neg : Val → Val | .nan => .nan | .inf s => .inf !s | .fin s n d => .fin (!s) n d
def Val.abs : Val → Val | .nan => .nan | .inf _ => .inf false | .fin _ n d => .fin false n d

/-- Numerator with its sign. -/
def sgn (neg : Bool) (n : Nat) : Int := if neg then -(n : Int) else n

/-- `a < b` of two values that are not NaN; the zeros are equal. -/
def Val.lt (a b : Val) : Bool :=
  match a, b with
  | .nan, _ => false
  | _, .nan => false
  | .inf s, .inf t => s && !t
  | .inf s, .fin _ _ _ => s
  | .fin _ _ _, .inf t => !t
  | .fin s n d, .fin t m e => decide (sgn s n * e < sgn t m * d)
def Val.eqv (a b : Val) : Bool := !a.isNan && !b.isNan && !a.lt b && !b.lt a

/-- An exact sum of finite values; the sign of a zero sum is chosen by the caller. -/
def Val.sumFin (s : Bool) (n d : Nat) (t : Bool) (m e : Nat) : Val :=
  if d = e then
    let v := sgn s n + sgn t m
    .fin (decide (v < 0)) v.natAbs d
  else
    let v := sgn s n * e + sgn t m * d
    .fin (decide (v < 0)) v.natAbs (d * e)

/-- A product (R39), with NV for zero times infinity. DESIGN CHOICE (log 45): an integer or ternary zero enters as +0, so the sign of a zero
product is the XOR of the signs. -/
def Val.mul (a b : Val) : Fl Val :=
  match a, b with
  | .nan, _ => (.nan, 0)
  | _, .nan => (.nan, 0)
  | .inf s, .inf t => (.inf (s != t), 0)
  | .inf s, .fin t m _ => if m = 0 then (.nan, flagNV) else (.inf (s != t), 0)
  | .fin s n _, .inf t => if n = 0 then (.nan, flagNV) else (.inf (s != t), 0)
  | .fin s n d, .fin t m e => (.fin (s != t) (n * m) (d * e), 0)

/-! Float formats (R24, R26). -/

/-- Fraction bits, exponent bits and bias; `ieee` is false for e4m3, which has no infinities. -/
structure FF where
  m    : Nat
  e    : Nat
  bias : Nat
  ieee : Bool
  deriving DecidableEq, Repr

def ffF32 : FF := ⟨23, 8, 127, true⟩
def ffBf16 : FF := ⟨7, 8, 127, true⟩
def ffF16 : FF := ⟨10, 5, 15, true⟩
def ffE5m2 : FF := ⟨2, 5, 15, true⟩
def ffE4m3 : FF := ⟨3, 4, 7, false⟩

def FF.width (f : FF) : Nat := 1 + f.e + f.m
def FF.emin (f : FF) : Int := 1 - (f.bias : Int)
def FF.emax (f : FF) : Nat := 2 ^ f.e - 1
/-- The magnitude bits of the largest finite value, of infinity and of the canonical NaN. -/
def FF.maxFin (f : FF) : Nat := if f.ieee then f.emax * 2 ^ f.m - 1 else f.emax * 2 ^ f.m + 2 ^ f.m - 2
def FF.infBits (f : FF) : Nat := f.emax * 2 ^ f.m
def FF.nanBits (f : FF) : Nat := if f.ieee then f.emax * 2 ^ f.m + 2 ^ (f.m - 1) else f.emax * 2 ^ f.m + 2 ^ f.m - 1
def FF.withSign (f : FF) (s : Bool) (b : Nat) : Nat := if s then b + 2 ^ (f.e + f.m) else b

/-- The value 2^k · n. -/
def Val.scale (s : Bool) (n : Nat) (k : Int) : Val :=
  match k with | .ofNat j => .fin s (n * 2 ^ j) 1 | .negSucc j => .fin s n (2 ^ (j + 1))

/-- Decode a pattern (R24). -/
def FF.decode (f : FF) (x : Nat) : Val :=
  let s := x / 2 ^ (f.e + f.m) % 2 == 1
  let e := x / 2 ^ f.m % 2 ^ f.e
  let fr := x % 2 ^ f.m
  if e = f.emax && f.ieee then (if fr = 0 then .inf s else .nan)
  else if e = f.emax && fr = 2 ^ f.m - 1 then .nan
  else if e = 0 then .scale s fr (f.emin - f.m)
  else .scale s (2 ^ f.m + fr) ((e : Int) - f.bias - f.m)

/-! Rounding (R33). -/

/-- RoundInt of the quotient n / d. -/
def roundInt (n d : Nat) (rm : Rm) (s : Bool) : Nat :=
  let q := n / d
  let r := n % d
  match rm with
  | .rtz => q
  | .rup => if r ≠ 0 && !s then q + 1 else q
  | .rdn => if r ≠ 0 && s then q + 1 else q
  | .rto => if r = 0 then q else if q % 2 = 0 then q + 1 else q
  | .rne => if 2 * r < d then q else if d < 2 * r then q + 1 else if q % 2 = 0 then q else q + 1

/-- Floor(Log2(n / d)) for a positive quotient. -/
def floorLog2 (n d : Nat) : Int :=
  let k : Int := (Nat.log2 n : Int) - Nat.log2 d
  match k with
  | .ofNat j => if d * 2 ^ j ≤ n then k else k - 1
  | .negSucc j => if d ≤ n * 2 ^ (j + 1) then k else k - 1

/-- The quotient n / d divided by 2^k, as a quotient. -/
def divPow (n d : Nat) (k : Int) : Nat × Nat :=
  match k with | .ofNat j => (n, d * 2 ^ j) | .negSucc j => (n * 2 ^ (j + 1), d)

/-- OverflowValue of R33. -/
def overflowValue (f : FF) (s : Bool) (rm : Rm) (sat finiteIn : Bool) : Fl Nat :=
  if sat then (f.withSign s f.maxFin, flagSAT)
  else if !f.ieee then (f.nanBits, 0)
  else
    let toInf := rm == .rne || (rm == .rup && !s) || (rm == .rdn && s)
    if toInf || !finiteIn then (f.withSign s f.infBits, 0) else (f.withSign s f.maxFin, 0)

/-- RoundFloat of R33. -/
def roundFloat (f : FF) (x : Val) (rm : Rm := .rne) (sat : Bool := false) : Fl Nat :=
  match x with
  | .nan => (f.nanBits, 0)
  | .inf s => overflowValue f s rm sat false
  | .fin s n d =>
    if n = 0 then (f.withSign s 0, 0) else
    let l := floorLog2 n d
    let e := if l < f.emin then f.emin else l
    let (qn, qd) := divPow n d (e - f.m)
    let k := roundInt qn qd rm s
    let inexact := k * qd != qn
    let fl := flagIf inexact flagNX ||| flagIf (inexact && decide (l < f.emin)) flagUF
    let b := k + (e - f.emin).toNat * 2 ^ f.m
    if f.maxFin < b then
      let (o, g) := overflowValue f s rm sat true
      (o, fl ||| flagOF ||| flagNX ||| g)
    else (f.withSign s b, fl)

/-! Format codes (R21). -/

/-- The class of a format (R21): an integer with its width and signedness, a float, or ternary; scaled blocks by element. -/
inductive FClass
  | int (w : Nat) (signed : Bool)
  | flt (f : FF)
  | tern
  | block (el : Fmt)
  deriving DecidableEq, Repr

def Fmt.cls : Fmt → FClass
  | .i8 => .int 8 true | .i16 => .int 16 true | .i32 => .int 32 true | .i64 => .int 64 true
  | .n8 => .int 8 false | .n16 => .int 16 false | .n32 => .int 32 false | .n64 => .int 64 false
  | .e4m3 => .flt ffE4m3 | .e5m2 => .flt ffE5m2 | .f16 => .flt ffF16 | .bf16 => .flt ffBf16 | .f32 => .flt ffF32
  | .t2 => .tern
  | .sbi8 => .block .i8 | .sbe4m3 => .block .e4m3 | .sbt2 => .block .t2

def FFmt.ff : FFmt → FF | .f16 => ffF16 | .bf16 => ffBf16 | .f32 => ffF32

/-- Bits of an element, without its share of a scale. -/
def Fmt.bits (f : Fmt) : Nat :=
  match f.cls with | .int w _ => w | .flt g => g.width | .tern => 2 | .block .t2 => 2 | .block _ => 8

def minVal (w : Nat) (signed : Bool) : Int := if signed then -(2 ^ (w - 1) : Nat) else 0
def maxVal (w : Nat) (signed : Bool) : Int := if signed then (2 ^ (w - 1) - 1 : Nat) else (2 ^ w - 1 : Nat)
def clampI (n lo hi : Int) : Int := if n < lo then lo else if hi < n then hi else n
/-- The low `w` bits of an integer. -/
def wrapN (n : Int) (w : Nat) : Nat := (n % (2 ^ w : Nat)).toNat
/-- A pattern of `w` bits as an integer. -/
def readInt (x w : Nat) (signed : Bool) : Int :=
  let y := x % 2 ^ w
  if signed && decide (2 ^ (w - 1) ≤ y) then (y : Int) - (2 ^ w : Nat) else y

/-- The value of a ternary code, with TERNBAD for 10 (R27). -/
def ternVal (x : Nat) : Fl Int :=
  match x % 4 with | 0 => (0, 0) | 1 => (1, 0) | 3 => (-1, 0) | _ => (0, flagTERNBAD)
def ternCode (n : Int) : Nat := if n = 1 then 1 else if n = -1 then 3 else 0

/-- The value of an element that is not a scaled block. -/
def elemVal (f : Fmt) (x : Nat) : Fl Val :=
  match f.cls with
  | .int w sg => (.ofInt (readInt x w sg), 0)
  | .flt g => (g.decode (x % 2 ^ g.width), 0)
  | .tern => let (n, fl) := ternVal x; (.ofInt n, fl)
  | .block _ => (.nan, 0)

/-- The value of an element of a scaled block with its scale (R30). -/
def blockVal (el : Fmt) (x scale : Nat) : Fl Val :=
  let (v, f1) := elemVal el x
  let (p, f2) := Val.mul v (ffBf16.decode scale)
  (p, f1 ||| f2)

/-! Conversions (R34). -/

/-- ToInt, the low bits of the result. -/
def toInt (x : Val) (w : Nat) (sg : Bool) (rm : Rm) (sat : Bool) : Fl Nat :=
  match x with
  | .nan => (wrapN (if sat then 0 else minVal w sg) w, flagCVTBAD)
  | .inf s => (wrapN (if sat then (if s then minVal w sg else maxVal w sg) else minVal w sg) w, flagCVTBAD)
  | .fin s n d =>
    let v := sgn s (roundInt n d rm s)
    if v < minVal w sg || maxVal w sg < v then
      (wrapN (if sat then clampI v (minVal w sg) (maxVal w sg) else minVal w sg) w, flagCVTBAD)
    else (wrapN v w, flagIf (n % d != 0) flagNX)

/-- ToTern. -/
def toTern (x : Val) (rm : Rm) (sat : Bool) : Fl Nat :=
  match x with
  | .nan => (0, flagCVTBAD)
  | .inf s => if sat then (if s then 3 else 1, flagSAT) else (0, flagCVTBAD)
  | .fin s n d =>
    let v := sgn s (roundInt n d rm s)
    let fl := flagIf (n % d != 0) flagNX
    if -1 ≤ v && v ≤ 1 then (ternCode v, fl)
    else if sat then (ternCode (clampI v (-1) 1), fl ||| flagSAT)
    else (0, fl ||| flagCVTBAD)

/-- Integer to integer. -/
def intToInt (v : Int) (w : Nat) (sg sat : Bool) : Fl Nat :=
  if sat && (decide (v < minVal w sg) || decide (maxVal w sg < v)) then (wrapN (clampI v (minVal w sg) (maxVal w sg)) w, flagSAT)
  else (wrapN v w, 0)

/-- Convert a value, of an integer or ternary source when `int` holds, into a destination format; into a scaled block's
format it is conversion into the element format (R31). -/
def convTo (x : Fl Val) (int : Bool) (df : Fmt) (rm : Rm) (sat : Bool) : Fl Nat :=
  let go (c : FClass) : Fl Nat :=
    match c with
    | .int w sg =>
      if int then (match x.1 with | .fin s n _ => intToInt (sgn s n) w sg sat | _ => (0, 0)) else toInt x.1 w sg rm sat
    | .flt g => roundFloat g x.1 rm sat
    | .tern => toTern x.1 rm sat
    | .block _ => (0, 0)
  let r := match df.cls with | .block el => go el.cls | c => go c
  (r.1, r.2 ||| x.2)

def Fmt.isIntLike (f : Fmt) : Bool := match f.cls with | .int _ _ => true | .tern => true | _ => false

/-- A whole conversion between formats that are no scaled blocks. -/
def convert (df sf : Fmt) (x : Nat) (rm : Rm) (sat : Bool) : Fl Nat := convTo (elemVal sf x) sf.isIntLike df rm sat

/-- Write a result of a format into `w` bits (R252, R304): signed integers sign-extended, the rest zero-extended. -/
def extend (f : Fmt) (x w : Nat) : Nat :=
  match f.cls with | .int k true => wrapN (readInt x k true) w | _ => x % 2 ^ f.bits

/-! Integer operations (R52, R253, R255, R259). -/

def Width.bits : Width → Nat | .i64 | .n64 => 64 | .i32 | .n32 => 32
def Width.signed : Width → Bool | .i64 | .i32 => true | .n32 | .n64 => false
/-- Operand of R252. -/
def Width.val (w : Width) (x : Word) : Int := readInt x.toNat w.bits w.signed
/-- Extend of R252: the low bits of an integer result, extended. -/
def Width.ext (w : Width) (v : Int) : Word := BitVec.ofNat 64 (wrapN (readInt (wrapN v w.bits) w.bits w.signed) 64)
def Width.lo (w : Width) (x : Word) : Nat := x.toNat % 2 ^ w.bits
def VWidth.width : VWidth → Width | .i32 => .i32 | .n32 => .n32

/-- An exact integer result, wrapped or saturated (IntAlu of R255). -/
def intRes (w : Width) (sat : Bool) (v : Int) : Fl Word :=
  if sat && (decide (v < minVal w.bits w.signed) || decide (maxVal w.bits w.signed < v)) then
    (w.ext (clampI v (minVal w.bits w.signed) (maxVal w.bits w.signed)), flagSAT)
  else (w.ext v, 0)

/-- Leading zero bits of a `w`-bit value. -/
def clzN (w x : Nat) : Nat := if x = 0 then w else w - 1 - Nat.log2 x
def ctzN : Nat → Nat → Nat
  | 0, _ => 0
  | w + 1, x => if x % 2 = 1 then 0 else 1 + ctzN w (x / 2)
def popN : Nat → Nat → Nat
  | 0, _ => 0
  | w + 1, x => x % 2 + popN w (x / 2)

/-- Quotient and remainder with the fixed cases of R52. -/
def divRem (w : Width) (a b : Int) : Fl (Int × Int) :=
  if b = 0 then ((if w.signed then -1 else maxVal w.bits false, a), flagIDIV0)
  else if w.signed && decide (a = minVal w.bits true) && decide (b = -1) then ((a, 0), 0)
  else ((Int.tdiv a b, Int.tmod a b), 0)

def shl (w : Width) (a b : Word) : Word := w.ext (w.lo a * 2 ^ (w.lo b % w.bits) : Nat)
def shr (w : Width) (a b : Word) : Word := w.ext (w.lo a / 2 ^ (w.lo b % w.bits) : Nat)
def sra (w : Width) (a b : Word) : Word := w.ext (readInt (w.lo a) w.bits true / (2 ^ (w.lo b % w.bits) : Nat))
def mulh (w : Width) (a b : Word) : Word := w.ext (w.val a * w.val b / (2 ^ w.bits : Nat))

/-! Floating point (R262, R47). -/

/-- A sum of the addends `p` and `q` with FloatArith's rules. -/
def fsum (f : FF) (p q : Val) (rm : Rm) (sat : Bool) : Fl Nat :=
  match p, q with
  | .nan, _ => (f.nanBits, 0)
  | _, .nan => (f.nanBits, 0)
  | .inf s, .inf t => if s = t then roundFloat f (.inf s) rm sat else (f.nanBits, flagNV)
  | .inf s, .fin _ _ _ => roundFloat f (.inf s) rm sat
  | .fin _ _ _, .inf t => roundFloat f (.inf t) rm sat
  | .fin s n d, .fin t m e =>
    match Val.sumFin s n d t m e with
    | .fin _ 0 _ =>
      let negz (x : Bool) (k : Nat) := x && k == 0
      let posz (x : Bool) (k : Nat) := !x && k == 0
      let neg := (negz s n && negz t m) || (rm == .rdn && !(posz s n && posz t m))
      (f.withSign neg 0, 0)
    | v => roundFloat f v rm sat

/-- A product with FloatArith's rules. -/
def fmulV (f : FF) (a b : Val) (rm : Rm) (sat : Bool) : Fl Nat :=
  let (p, fl) := Val.mul a b
  let (r, g) := roundFloat f p rm sat
  (r, fl ||| g)

/-- z + a·b, rounded once; a NaN source sets no flag. -/
def fmaV (f : FF) (z a b : Val) (rm : Rm) (sat : Bool) : Fl Nat :=
  if z.isNan || a.isNan || b.isNan then (f.nanBits, 0) else
  let (p, fl) := Val.mul a b
  let (r, g) := fsum f z p rm sat
  (r, fl ||| g)

/-- The total order of R47: −0 below +0. -/
def fless (a b : Val) : Bool := a.lt b || (a.isZero && b.isZero && a.sign && !b.sign)
def fmin (f : FF) (x y : Nat) : Nat :=
  let a := f.decode x
  let b := f.decode y
  if a.isNan || b.isNan then f.nanBits else if fless b a then y else x
def fmax (f : FF) (x y : Nat) : Nat :=
  let a := f.decode x
  let b := f.decode y
  if a.isNan || b.isNan then f.nanBits else if fless a b then y else x
def fneg (f : FF) (x : Nat) : Nat :=
  if (f.decode x).isNan then f.nanBits else (x + 2 ^ (f.e + f.m)) % 2 ^ f.width

/-- `AddF32` of R43 and its analogue in any format. -/
def addF (f : FF) (x y : Nat) : Fl Nat := fsum f (f.decode x) (f.decode y) .rne false
/-- `FmsF32` of R66: the product's special cases and flags are R39's, also beside a NaN addend. -/
def fmsF32 (a b c : Nat) : Fl Nat :=
  let (p, fl) := Val.mul (ffF32.decode b).neg (ffF32.decode c)
  let (r, g) := fsum ffF32 (ffF32.decode a) p .rne false
  (r, fl ||| g)
def mulF32 (a b : Nat) : Fl Nat := fmulV ffF32 (ffF32.decode a) (ffF32.decode b) .rne false
/-- `DivF32` of R66. -/
def divF32 (x y : Nat) : Fl Nat :=
  let f := ffF32
  match f.decode x, f.decode y with
  | .nan, _ => (f.nanBits, 0)
  | _, .nan => (f.nanBits, 0)
  | .inf _, .inf _ => (f.nanBits, flagNV)
  | .inf s, .fin t _ _ => (f.withSign (s != t) f.infBits, 0)
  | .fin s _ _, .inf t => (f.withSign (s != t) 0, 0)
  | .fin s n d, .fin t m e =>
    if m = 0 then (if n = 0 then (f.nanBits, flagNV) else (f.withSign (s != t) f.infBits, flagDZ))
    else if n = 0 then (f.withSign (s != t) 0, 0)
    else roundFloat f (.fin (s != t) (n * e) (d * m)) .rne false

/-! Reciprocal and reciprocal square root (R53 to R55). -/

/-- Integer square root, bit by bit. -/
def isqrt (n : Nat) : Nat → Nat → Nat
  | 0, r => r
  | b + 1, r => isqrt n b (if (r + 2 ^ b) * (r + 2 ^ b) ≤ n then r + 2 ^ b else r)

/-- Table entries: nearest integer to 2^16 over c_i, or over its root, ties up; c_i is a quotient. -/
def rcpTable (i : Nat) : Nat := (2 ^ 17 * 256 + (257 + 2 * i)) / (2 * (257 + 2 * i))
def rsqTable (i : Nat) : Nat :=
  let (cn, cd) := if i < 64 then (129 + 2 * i, 128) else (2 * (129 + 2 * (i - 64)), 128)
  (isqrt (2 ^ 34 * cd / cn) 20 0 + 1) / 2

/-- One Newton step on y = yn / 2^k for m = mn / 2^j; the new y as a quotient of an integer and a power of two. -/
def rcpStep (mn j : Nat) (y : Int × Nat) : Int × Nat :=
  let (yn, k) := y
  (yn * 2 ^ (j + k) + yn * ((2 ^ (j + k) : Nat) - mn * yn), j + 2 * k)
def rsqStep (mn j : Nat) (y : Int × Nat) : Int × Nat :=
  let (yn, k) := y
  (yn * 2 ^ (j + 2 * k + 1) + yn * ((2 ^ (j + 2 * k) : Nat) - mn * yn * yn), j + 3 * k + 1)
/-- Floor(y · 2^40) / 2^40. -/
def trunc40 (y : Int × Nat) : Int × Nat := (y.1 * 2 ^ 40 / (2 ^ y.2 : Nat), 40)

def isPow2 (n : Nat) : Bool := n != 0 && 2 ^ Nat.log2 n == n

/-- VRCP of an f32 pattern. -/
def vrcp (x : Nat) : Fl Nat :=
  let f := ffF32
  match f.decode x with
  | .nan => (f.nanBits, 0)
  | .inf s => (f.withSign s 0, 0)
  | .fin s n d =>
    if n = 0 then (f.withSign s f.infBits, flagDZ)
    else if isPow2 n then roundFloat f (.fin s d n) .rne false
    else
      let e := floorLog2 n d
      -- |x| = m · 2^e with m in [1, 2), m = mn / 2^23
      let (a, b) := divPow n d (e - 23)
      let mn := a / b
      let y := rcpStep mn 23 (trunc40 (rcpStep mn 23 (trunc40 (rcpStep mn 23 (rcpTable (mn % 2 ^ 23 / 2 ^ 16), 16)))))
      let (rn, rd) := divPow y.1.toNat (2 ^ y.2) e
      roundFloat f (.fin s rn rd) .rne false

/-- VRSQ of an f32 pattern. -/
def vrsq (x : Nat) : Fl Nat :=
  let f := ffF32
  match f.decode x with
  | .nan => (f.nanBits, 0)
  | .inf s => if s then (f.nanBits, flagNV) else (0, 0)
  | .fin s n d =>
    if n = 0 then (f.withSign s f.infBits, flagDZ)
    else if s then (f.nanBits, flagNV)
    else
      let l := floorLog2 n d
      let odd := decide (l % 2 = 1)
      let e := if odd then l - 1 else l
      let (a, b) := divPow n d (e - 23)
      let mn := a / b
      if mn = 2 ^ 23 then
        let (rn, rd) := divPow 1 1 (e / 2)
        roundFloat f (.fin false rn rd) .rne false
      else
      let i := if odd then 64 + mn / 2 % 2 ^ 23 / 2 ^ 17 else mn % 2 ^ 23 / 2 ^ 17
      let y := rsqStep mn 23 (trunc40 (rsqStep mn 23 (trunc40 (rsqStep mn 23 (rsqTable i, 16)))))
      let (rn, rd) := divPow y.1.toNat (2 ^ y.2) (e / 2)
      roundFloat f (.fin false rn rd) .rne false

/-! Sums (R39 to R47). -/

/-- The combining step of R47 on patterns of a format, at the format's width. -/
def combine (op : CollOp) (f : Fmt) (x y : Nat) : Fl Nat :=
  match op with
  | .and => (Nat.land x y, 0)
  | .or => (Nat.lor x y, 0)
  | .xor => (Nat.xor x y, 0)
  | _ =>
    match f.cls with
    | .flt g =>
      match op with
      | .add => addF g x y
      | .min => (fmin g x y, 0)
      | _ => (fmax g x y, 0)
    | c =>
      let (w, sg) := match c with | .int w sg => (w, sg) | _ => (32, true)
      let a := readInt x w sg
      let b := readInt y w sg
      match op with
      | .add => (wrapN (a + b) w, 0)
      | .min => (if b < a then y else x, 0)
      | _ => (if a < b then y else x, 0)

/-- The identity of an operation (R47). -/
def identity (op : CollOp) (f : Fmt) : Nat :=
  match op, f.cls with
  | .and, _ => 2 ^ f.bits - 1
  | .or, _ => 0
  | .xor, _ => 0
  | .add, .flt g => g.withSign true 0
  | .min, .flt g => g.withSign false g.infBits
  | .max, .flt g => g.withSign true g.infBits
  | .add, _ => 0
  | .min, .int w sg => wrapN (maxVal w sg) w
  | .max, .int w sg => wrapN (minVal w sg) w
  | _, _ => 0

/-- One level of TreeCombine: neighbours combine, lower index on the left. -/
def pairUp (op : Nat → Nat → Fl Nat) : List Nat → Fl (List Nat)
  | a :: b :: t =>
    let (r, f) := op a b
    let (t', g) := pairUp op t
    (r :: t', f ||| g)
  | l => (l, 0)

def treeLevels (op : Nat → Nat → Fl Nat) : Nat → List Nat → Fl Nat
  | 0, l => (l.headD 0, 0)
  | n + 1, l =>
    match l with
    | [] => (0, 0)
    | [a] => (a, 0)
    | l =>
      let (l', f) := pairUp op l
      let (r, g) := treeLevels op n l'
      (r, f ||| g)

/-- TreeCombine of R46. -/
def treeCombine (op : Nat → Nat → Fl Nat) (l : List Nat) : Fl Nat := treeLevels op l.length l

/-- The left fold of slice-order mode (R50). -/
def foldCombine (op : Nat → Nat → Fl Nat) : List Nat → Fl Nat
  | [] => (0, 0)
  | a :: t => t.foldl (fun (acc, f) b => let (r, g) := op acc b; (r, f ||| g)) (a, 0)

/-- GroupSum of R42 on exact products. -/
def groupSum (p : List Val) : Fl Nat :=
  let f := ffF32
  if p.any Val.isNan then (f.nanBits, 0)
  else
    let pos := p.any fun v => v.isInf && !v.sign
    let neg := p.any fun v => v.isInf && v.sign
    if pos && neg then (f.nanBits, flagNV)
    else if pos || neg then (f.withSign neg f.infBits, 0)
    else if p.all Val.isZero then (f.withSign (p.all Val.sign) 0, 0)
    else
      let logs := p.filterMap fun v => match v with | .fin _ n d => if n = 0 then none else some (floorLog2 n d) | _ => none
      let e := logs.foldl max (logs.headD 0)
      let (s, sticky) := p.foldl (fun (acc : Int × Bool) v =>
        match v with
        | .fin sg n d =>
          let (a, b) := divPow n d (e - 41)
          (acc.1 + sgn sg (a / b), acc.2 || a % b != 0)
        | _ => acc) (0, false)
      let fl := flagIf sticky flagNX
      if s = 0 then (0, fl) else
      let v := Val.scale (decide (s < 0)) (2 * s.natAbs + sticky.toNat) (e - 42)
      let (r, g) := roundFloat f v .rne false
      (r, fl ||| g)

/-- Products in groups of 32, the last one padded with +0 (R43). -/
def groups32 : Nat → List Val → List (List Val)
  | 0, _ => []
  | _, [] => []
  | n + 1, l => (l.take 32 ++ List.replicate (32 - (l.take 32).length) (Val.zero false)) :: groups32 n (l.drop 32)

/-- The float path (R43), of products in K order. -/
def dotFloat (acc : Nat) (p : List Val) : Fl Nat :=
  (groups32 p.length p).foldl (fun (a, f) g =>
    let (s, f1) := groupSum g
    let (r, f2) := addF ffF32 a s
    (r, f ||| f1 ||| f2)) (acc, 0)

/-- The integer path (R41). -/
def dotInt (sat : Bool) (acc : Nat) (p : List Val) : Fl Nat :=
  (groups32 p.length p).foldl (fun (a, f) g =>
    let s := g.foldl (fun (t : Int) v => match v with | .fin sg n _ => t + sgn sg n | _ => t) 0
    let (r, f1) := intToInt (readInt a 32 true + s) 32 true sat
    (r, f ||| f1)) (acc, 0)

/-- One dot product: integer path when both formats are integer or ternary (R40). -/
def dot (fa fb : Fmt) (sat : Bool) (acc : Nat) (a b : List Val) : Fl Nat :=
  let q := (a.zip b).map fun (x, y) => Val.mul x y
  let fl := q.foldl (fun f v => f ||| v.2) 0
  let p := q.map fun v => v.1
  let (r, g) := if fa.isIntLike && fb.isIntLike then dotInt sat acc p else dotFloat acc p
  (r, fl ||| g)

end Sys2Proof
end

