-- ==== Sys2Proof/Machine/Operands.lean ====
section
/-! DEFINITION. Operand forms: addresses with the carry rule (R258, R272), tagged elements (R29, R32, R275), lanes and lane masks (R304,
R305), and the shared course of an access from its address to its acceptance or refusal (R207, R209, R217). -/

namespace Sys2Proof.Machine

/-! Addresses. -/

/-- ADDA: the tag is kept, and an address part outside 0 to 2^56 - 1 is a fault 0x0D (R258). -/
def addAddr (g : Word) (n : Int) : Option Word :=
  let v := ((g.toNat % 2 ^ 56 : Nat) : Int) + n
  if v < 0 || (2 ^ 56 : Nat) ≤ v then none else some (BitVec.ofNat 64 (g.toNat / 2 ^ 56 * 2 ^ 56 + v.toNat))

/-- EffAddr of R272: the address and the new base, or none for fault 0x0D. -/
def effAddr (g : Word) (step : Int) (pi : Bool) : Option (Word × Word) :=
  match addAddr g step with
  | none => none
  | some n => some (if pi then g else n, n)

/-- The address part. -/
def addrPart (a : Word) : Nat := a.toNat % 2 ^ 56

/-! Pointer tags and elements (R29, R32, R275). -/

/-- Elements a block holds, element bytes and stride (R29). -/
def blockLen (k : Nat) : Nat := 2 ^ k
def blockBytes (el : Fmt) (k : Nat) : Nat := if el = .t2 then 2 ^ k / 4 else 2 ^ k
def blockStride (el : Fmt) (k : Nat) : Nat := roundUp (blockBytes el k + 2) 4
def blkLegal (el : Fmt) (k : Nat) : Bool := if el = .t2 then decide (4 ≤ k) && decide (k ≤ 7) else decide (2 ≤ k) && decide (k ≤ 7)

/-- Format and k of a tag; none for fault 0x0D (R32). -/
def tagOf (a : Word) : Option (Fmt × Nat) :=
  match Fmt.of (a.extractLsb' 59 5) with
  | none => none
  | some f =>
    let k := bitsOf a 58 56
    match f.cls with
    | .block el => if blkLegal el k then some (f, k) else none
    | _ => some (f, k)

/-- Where an element stands, from the tagged address: byte offset, bytes, bit offset in the byte, and the offset of its block's
scale. -/
structure Elem where
  off   : Int
  bytes : Nat
  bit   : Nat
  scale : Option Int
  deriving DecidableEq, Repr

def elemAt (f : Fmt) (k : Nat) (e : Int) : Elem :=
  match f.cls with
  | .tern => ⟨e / 4, 1, 2 * (e % 4).toNat, none⟩
  | .block el =>
    let b := e / (blockLen k : Int)
    let j := (e % (blockLen k : Int)).toNat
    let base := b * (blockStride el k : Int)
    let sc := some (base + (blockBytes el k : Nat))
    if el = .t2 then ⟨base + (j / 4 : Nat), 1, 2 * (j % 4), sc⟩ else ⟨base + (j : Nat), 1, 0, sc⟩
  | _ => ⟨e * (f.bits / 8 : Nat), f.bits / 8, 0, none⟩

/-- Alignment of the tagged address. -/
def elemAlign (f : Fmt) : Nat := match f.cls with | .tern => 4 | .block _ => 4 | _ => f.bits / 8

/-- Byte distance of `n` elements, or none where it is not whole (fault 0x04). -/
def elemDist (f : Fmt) (k : Nat) (n : Int) : Option Int :=
  match f.cls with
  | .tern => if n % 16 = 0 then some (n / 4) else none
  | .block el => if n % (blockLen k : Int) = 0 then some (n / (blockLen k : Int) * (blockStride el k : Int)) else none
  | _ => some (n * (f.bits / 8 : Nat))

/-- The raw element in the bytes read. -/
def elemRaw (f : Fmt) (e : Elem) (x : Nat) : Nat := x / 2 ^ e.bit % 2 ^ f.bits

/-- What LDE writes (R275) into `w` bits: an integer extended, ternary as a signed integer, a float widened to f32, a scaled
block's value rounded to f32. -/
def ldeValue (f : Fmt) (raw scale : Nat) (rm : Rm) (w : Nat) : Fl Nat :=
  match f.cls with
  | .int _ _ => (extend f raw w, 0)
  | .tern => let (n, fl) := ternVal raw; (wrapN n w, fl)
  | .flt _ => convert .f32 f raw .rne false
  | .block el =>
    let (v, f1) := blockVal el raw scale
    let (r, f2) := roundFloat ffF32 v rm false
    (r, f1 ||| f2)

/-- What STE writes: the source read as f32 for a float or scaled format, else as a signed integer of `w` bits. -/
def steValue (f : Fmt) (x w : Nat) (rm : Rm) (sat : Bool) : Fl Nat :=
  match f.cls with
  | .int _ _ => convTo (.ofInt (readInt x w true), 0) true f rm sat
  | .tern => convTo (.ofInt (readInt x w true), 0) true f rm sat
  | _ => convTo (ffF32.decode (x % 2 ^ 32), 0) false f rm sat

/-! Lanes (R304, R305). -/

def lane (v : Line) (l : Nat) : Nat := v.toNat / 2 ^ (32 * l) % 2 ^ 32
def setLane (v : Line) (l x : Nat) : Line := putBits v (32 * l + 31) (32 * l) x
/-- The lanes that a mask register leaves active. -/
def laneActive (c : Ctx) (mask : Option Reg) (l : Nat) : Bool := match mask with | none => true | some g => (c.rG g).getLsbD l
def lanesOn (c : Ctx) (mask : Option Reg) : List Nat := (List.range 16).filter (laneActive c mask)
/-- Compute every active lane of `old`, with the OR of their flags (R36). -/
def mapLanes (on : List Nat) (old : Line) (f : Nat → Fl Nat) : Fl Line :=
  on.foldl (fun (v, fl) l => let (x, g) := f l; (setLane v l x, fl ||| g)) (old, 0)

/-! The course of an access. -/

/-- Orders an access with a tainted address after the earlier LDCs: each acts as an acquire at its own scope (R101). -/
def taintAcquire (s : State) (tainted : Bool) : State :=
  if tainted then s.cur.ldcs.foldl (fun (s : State) sc => acquire s s.curAgent sc) s else s

/-- The message of the page-fault path (R217). -/
def pageFaultMsg (s : State) (x : Acc) (code sub : BitVec 8) (va : Word) (ia : Nat) (info : BitVec 16 := 0) : Msg :=
  let (ag, inst) := x.eng.getD (0, 0)
  let p : Packet := { code := code, agent := ag, sub := sub, noctx := true, ctx := BitVec.ofNat 3 x.ctx, task := x.task, kid := x.kid
                      stage := x.stage, core := agentNum x.agent, info := info, inst := BitVec.ofNat 16 inst, pc := x.pc, va := va
                      ia := BitVec.ofNat 64 ia, time := s.time, insn := 0 }
  hwMsg s x.agent (ridgeAgent (agentDie x.agent) 0) 0 8 (p.bits.setWidth 960) x.kid x.world

/-- The current context posts the message and waits for the reply, LIVE, so that a cycle limit goes on counting (R217, R288). -/
def pageFault (s : State) (code sub : BitVec 8) (va : Word) (ia limit : Nat) (fetch : Bool := false) (info : BitVec 16 := 0) : State :=
  waitFor (s.pend (.pageFaultPost (pageFaultMsg s (curAcc s) code sub va ia info))) (.page va (BitVec.ofNat 64 ia) code sub info fetch) limit

/-- A refused access of the current context. -/
def refuse (i : Instr) (s : State) (va : Word) (e : AErr) : State :=
  let lim := Instr.limit i s.cur
  match e with
  | .fault f => faultCur i s f
  | .page code sub ia => pageFault s code sub va ia lim
  | .busy a => waitFor (atPort s a) .retry lim
  | .moved page => waitFor (s.pend (.atomicMoved s.curAgent s.curCtx)) (.moved page) lim
  | .shared page => waitFor (askOwn s (curAcc s) page) .retry lim

/-- The current context's store waits at the port of a scratchpad (R140). -/
def waitPort (s : State) (a : Nat) (lim : Nat := 0) : State := waitFor (atPort s a) .retry lim

/-- The current context waits for what holds its access. -/
def holdOn (s : State) (lim : Nat) (h : Hold) : State :=
  match h with
  | .port a => waitFor (atPort s a) .retry lim
  | .events l => waitFor (l.foldl (fun (s : State) e => s.pendOnce e) s) .retry lim
  | .far =>
    let t := match s.cur.wait with | some ⟨.remote t, _, _⟩ => t | _ => s.now
    waitFor (s.pendOnce (.remoteTimeout s.curAgent s.curCtx)) (.remote t) lim

/-- One access of the current context: `go` has its effect on an accepted path. -/
def access (i : Instr) (s : State) (va : Word) (n align : Nat) (k : AKind) (need : TyNeed) (go : Path → State) : State :=
  match resolve s (curAcc s) va n align k need with
  | .error e => refuse i s va e
  | .ok p =>
    match pathHold s (curAcc s) p n k with
    | some h => holdOn s (Instr.limit i s.cur) h
    | none => go p

/-- The local checks of several addresses in operand order, before any home is asked (R209): the first that fails. -/
def localCheck (s : State) (x : Acc) (k : AKind) : List (Word × Nat × Nat) → Option FInfo
  | [] => none
  | (va, n, align) :: t => match resolveLocal s x va n align k with | .error (.fault f) => some f | _ => localCheck s x k t

/-- Several accesses of one instruction: all are checked, in order, before any takes effect. The answer is their paths. -/
def accessAll (s : State) (k : AKind) (need : TyNeed) : List (Word × Nat × Nat) → Except (Nat × Word × AErr) (List Path)
  | [] => .ok []
  | (va, n, al) :: t =>
    match resolve s (curAcc s) va n al k need with
    | .error e => .error (t.length, va, e)
    | .ok p => match accessAll s k need t with | .error e => .error e | .ok ps => .ok (p :: ps)

/-- A value lands later in a register that is empty until then (R161, R273). The taint bit it will have is written at once. -/
def land (s : State) (vec : Bool) (r : Reg) (x : Line) (fl : Word := 0) (taint : Bool := false) : State :=
  let c := s.cur
  let c' := if vec then { c.emptyV r with vTaint := setBit c.vTaint r.toNat taint }
    else if r = 0 then c else { c.emptyG r with gTaint := setBit c.gTaint r.toNat taint }
  (s.setCur c').pend (.loadLand ⟨s.curAgent, s.curCtx, c.task, vec, r, x, fl⟩)

def landG (s : State) (r : Reg) (x : Nat) (fl : Word := 0) (taint : Bool := false) : State :=
  land s false r (BitVec.ofNat 512 (x % 2 ^ 64)) fl taint

/-- The current instruction is complete. -/
def done (i : Instr) (s : State) : State := s.setCur (s.cur.past i)

end Sys2Proof.Machine
end

