-- ==== Sys2Proof/Machine/Scalar.lean ====
section
/-! DEFINITION. Groups 0x01 to 0x09: integer and address operations, immediates, bitfields, compares, scalar floats, conversion (R252 to
R263). -/

namespace Sys2Proof.Machine

/-- Write a scalar result with the taint of the sources and the flags it sets (R254, R101). -/
def aluOut (i : Instr) (c : Ctx) (d : Reg) (r : Fl Word) : Ctx := (c.wG d r.1 (srcTaint i c)).orFlags r.2

/-- An instruction that writes one scalar register. -/
def execAlu (i : Instr) (s : State) (d : Reg) (f : Ctx → Fl Word) : Out := issueReg i s fun c => aluOut i c d (f c)

/-! OPC 0x01 (R255). -/

/-- ADD (R255): a + b. -/
def execAdd (o : OAluSat) (s : State) : Out := execAlu (.add o) s o.d fun c => intRes o.w o.sat (o.w.val (c.rG o.a) + o.w.val (c.rG o.b))
/-- SUB (R255): a - b. -/
def execSub (o : OAluSat) (s : State) : Out := execAlu (.sub o) s o.d fun c => intRes o.w o.sat (o.w.val (c.rG o.a) - o.w.val (c.rG o.b))
/-- AND (R255): a AND b. -/
def execAnd (o : OAlu) (s : State) : Out := execAlu (.and o) s o.d fun c => (o.w.ext (c.rG o.a &&& c.rG o.b).toNat, 0)
/-- OR (R255): a OR b. -/
def execOr (o : OAlu) (s : State) : Out := execAlu (.or o) s o.d fun c => (o.w.ext (c.rG o.a ||| c.rG o.b).toNat, 0)
/-- XOR (R255): a XOR b. -/
def execXor (o : OAlu) (s : State) : Out := execAlu (.xor o) s o.d fun c => (o.w.ext (c.rG o.a ^^^ c.rG o.b).toNat, 0)
/-- ANDN (R255): a AND NOT b. -/
def execAndn (o : OAlu) (s : State) : Out := execAlu (.andn o) s o.d fun c => (o.w.ext (c.rG o.a &&& ~~~ c.rG o.b).toNat, 0)
/-- SHL (R255): left shift by b mod w. -/
def execShl (o : OAlu) (s : State) : Out := execAlu (.shl o) s o.d fun c => (shl o.w (c.rG o.a) (c.rG o.b), 0)
/-- SHR (R255): right shift by b mod w, zeros in. -/
def execShr (o : OAlu) (s : State) : Out := execAlu (.shr o) s o.d fun c => (shr o.w (c.rG o.a) (c.rG o.b), 0)
/-- SRA (R255): right shift by b mod w, sign copies in. -/
def execSra (o : OAlu) (s : State) : Out := execAlu (.sra o) s o.d fun c => (sra o.w (c.rG o.a) (c.rG o.b), 0)
/-- MIN (R255). -/
def execMin (o : OAlu) (s : State) : Out := execAlu (.min o) s o.d fun c => (o.w.ext (min (o.w.val (c.rG o.a)) (o.w.val (c.rG o.b))), 0)
/-- MAX (R255). -/
def execMax (o : OAlu) (s : State) : Out := execAlu (.max o) s o.d fun c => (o.w.ext (max (o.w.val (c.rG o.a)) (o.w.val (c.rG o.b))), 0)
/-- CLZ (R255): leading zero bits; w when a is 0. -/
def execClz (o : OAluUn) (s : State) : Out := execAlu (.clz o) s o.d fun c => (o.w.ext (clzN o.w.bits (o.w.lo (c.rG o.a))), 0)
/-- CTZ (R255): trailing zero bits; w when a is 0. -/
def execCtz (o : OAluUn) (s : State) : Out := execAlu (.ctz o) s o.d fun c => (o.w.ext (ctzN o.w.bits (o.w.lo (c.rG o.a))), 0)
/-- POPC (R255): one bits. -/
def execPopc (o : OAluUn) (s : State) : Out := execAlu (.popc o) s o.d fun c => (o.w.ext (popN o.w.bits (o.w.lo (c.rG o.a))), 0)
/-- MOV (R255). -/
def execMov (o : OAluUn) (s : State) : Out := execAlu (.mov o) s o.d fun c => (o.w.ext (o.w.val (c.rG o.a)), 0)

/-! OPC 0x02 and 0x06 (R256, R257). -/

/-- ADDI (R256): a + imm14, signed. -/
def execAddi (o : OAddI) (s : State) : Out := execAlu (.addi o) s o.d fun c => (c.rG o.a + o.imm.signExtend 64, 0)
/-- ADDI with a literal (R256). -/
def execAddiLit (o : OAddIL) (s : State) : Out := execAlu (.addiLit o) s o.d fun c => (c.rG o.a + o.lit, 0)
/-- MOVI (R257): imm14, sign-extended. -/
def execMovi (o : OMovI) (s : State) : Out := execAlu (.movi o) s o.d fun _ => (o.imm.signExtend 64, 0)
/-- MOVI with a literal (R257). -/
def execMoviLit (o : OMovIL) (s : State) : Out := execAlu (.moviLit o) s o.d fun _ => (o.lit, 0)

/-- NOP (R381): its checks, and nothing written. -/
def execNop (s : State) : Out := issueReg .nop s fun c => c

/-! OPC 0x03 (R258). -/

/-- ADDA and SUBA: fault 0x0D when the exact address part leaves its range. -/
def execAddr (i : Instr) (s : State) (d a : Reg) (n : Ctx → Int) : Out :=
  issue i s fun c =>
    match addAddr (c.rG a) (n c) with
    | none => raise i s 0x0D
    | some v => s.setCur ((aluOut i c d (v, 0)).past i)

/-- ADDA (R258). -/
def execAdda (o : OAddr) (s : State) : Out :=
  execAddr (.adda o) s o.d o.a fun c => (Src.val o.src c).toInt * (2 ^ o.sh.toNat : Nat)
/-- SUBA (R258). -/
def execSuba (o : OAddr) (s : State) : Out :=
  execAddr (.suba o) s o.d o.a fun c => -((Src.val o.src c).toInt * (2 ^ o.sh.toNat : Nat))
/-- TAGS (R258): b[7:0] becomes the tag. -/
def execTags (o : OTags) (s : State) : Out := execAlu (.tags o) s o.d fun c => ((Src.val o.src c <<< 56) ||| (c.rG o.a &&& 0x00FFFFFFFFFFFFFF#64), 0)
/-- TAGG (R258): the tag, zero-extended. -/
def execTagg (o : ODA) (s : State) : Out := execAlu (.tagg o) s o.d fun c => (c.rG o.a >>> 56, 0)

/-! OPC 0x04 (R259, R52). -/

/-- MUL (R259): the low w bits of the product. -/
def execMul (o : OAlu) (s : State) : Out := execAlu (.mul o) s o.d fun c => (o.w.ext (o.w.val (c.rG o.a) * o.w.val (c.rG o.b)), 0)
/-- MULH (R259): the high w bits of the 2w-bit product. -/
def execMulh (o : OAlu) (s : State) : Out := execAlu (.mulh o) s o.d fun c => (mulh o.w (c.rG o.a) (c.rG o.b), 0)
/-- DIV (R259, R52): the quotient, truncated toward zero. -/
def execDiv (o : OAlu) (s : State) : Out := execAlu (.div o) s o.d fun c =>
  let r := divRem o.w (o.w.val (c.rG o.a)) (o.w.val (c.rG o.b))
  (o.w.ext r.1.1, r.2)
/-- REM (R259, R52): the remainder, with the dividend's sign. -/
def execRem (o : OAlu) (s : State) : Out := execAlu (.rem o) s o.d fun c =>
  let r := divRem o.w (o.w.val (c.rG o.a)) (o.w.val (c.rG o.b))
  (o.w.ext r.1.2, r.2)

/-! OPC 0x05 (R260). -/

/-- The field of `len` bits at `pos`. -/
def fieldOf (x : Word) (pos len : Nat) : Nat := x.toNat / 2 ^ pos % 2 ^ len

/-- BFXU (R260). -/
def execBfxu (o : OBitf) (s : State) : Out := execAlu (.bfxu o) s o.d fun c => (BitVec.ofNat 64 (fieldOf (c.rG o.a) o.pos.toNat (o.lm.toNat + 1)), 0)
/-- BFXS (R260). -/
def execBfxs (o : OBitf) (s : State) : Out := execAlu (.bfxs o) s o.d fun c => (BitVec.ofInt 64 (readInt (fieldOf (c.rG o.a) o.pos.toNat (o.lm.toNat + 1)) (o.lm.toNat + 1) true), 0)
/-- BFI (R260): d is also a source. -/
def execBfi (o : OBitf) (s : State) : Out := execAlu (.bfi o) s o.d fun c => (putBits (c.rG o.d) (o.pos.toNat + o.lm.toNat) o.pos.toNat (c.rG o.a).toNat, 0)
/-- SHLI (R260). -/
def execShli (o : OShI) (s : State) : Out := execAlu (.shli o) s o.d fun c => (c.rG o.a <<< o.pos.toNat, 0)
/-- SHRI (R260). -/
def execShri (o : OShI) (s : State) : Out := execAlu (.shri o) s o.d fun c => (c.rG o.a >>> o.pos.toNat, 0)
/-- SRAI (R260). -/
def execSrai (o : OShI) (s : State) : Out := execAlu (.srai o) s o.d fun c => ((c.rG o.a).sshiftRight o.pos.toNat, 0)
/-- RORI (R260). -/
def execRori (o : OShI) (s : State) : Out := execAlu (.rori o) s o.d fun c => ((c.rG o.a).rotateRight o.pos.toNat, 0)

/-! OPC 0x07 (R261). -/

def flagWord (b : Bool) : Word := if b then 1 else 0

/-- CMPEQ (R261). -/
def execCmpeq (o : OAlu) (s : State) : Out := execAlu (.cmpeq o) s o.d fun c => (flagWord (o.w.lo (c.rG o.a) == o.w.lo (c.rG o.b)), 0)
/-- CMPNE (R261). -/
def execCmpne (o : OAlu) (s : State) : Out := execAlu (.cmpne o) s o.d fun c => (flagWord (o.w.lo (c.rG o.a) != o.w.lo (c.rG o.b)), 0)
/-- CMPLT (R261). -/
def execCmplt (o : OAlu) (s : State) : Out := execAlu (.cmplt o) s o.d fun c => (flagWord (decide (o.w.val (c.rG o.a) < o.w.val (c.rG o.b))), 0)
/-- CMPLE (R261). -/
def execCmple (o : OAlu) (s : State) : Out := execAlu (.cmple o) s o.d fun c => (flagWord (decide (o.w.val (c.rG o.a) ≤ o.w.val (c.rG o.b))), 0)
/-- SEL (R261): d is the condition. -/
def execSel (o : ODAB) (s : State) : Out := execAlu (.sel o) s o.d fun c => (if c.rG o.d ≠ 0 then c.rG o.a else c.rG o.b, 0)

/-! OPC 0x08 (R262). -/

/-- A float operand: the low bits of a register. -/
def fop (f : FF) (x : Word) : Val := f.decode (x.toNat % 2 ^ f.width)
def fraw (f : FF) (x : Word) : Nat := x.toNat % 2 ^ f.width
def fout (r : Fl Nat) : Fl Word := (BitVec.ofNat 64 r.1, r.2)

/-- FADD (R262). -/
def execFadd (o : OFBin) (s : State) : Out := execAlu (.fadd o) s o.d fun c => fout (fsum o.fmt.ff (fop o.fmt.ff (c.rG o.a)) (fop o.fmt.ff (c.rG o.b)) o.rm o.sat)
/-- FSUB (R262). -/
def execFsub (o : OFBin) (s : State) : Out := execAlu (.fsub o) s o.d fun c => fout (fsum o.fmt.ff (fop o.fmt.ff (c.rG o.a)) (fop o.fmt.ff (c.rG o.b)).neg o.rm o.sat)
/-- FMUL (R262). -/
def execFmul (o : OFBin) (s : State) : Out := execAlu (.fmul o) s o.d fun c => fout (fmulV o.fmt.ff (fop o.fmt.ff (c.rG o.a)) (fop o.fmt.ff (c.rG o.b)) o.rm o.sat)
/-- FMA (R262): d + a·b, rounded once. -/
def execFma (o : OFBin) (s : State) : Out := execAlu (.fma o) s o.d fun c => 
  fout (fmaV o.fmt.ff (fop o.fmt.ff (c.rG o.d)) (fop o.fmt.ff (c.rG o.a)) (fop o.fmt.ff (c.rG o.b)) o.rm o.sat)
/-- FMIN (R262, R47). -/
def execFmin (o : OFBin) (s : State) : Out := execAlu (.fmin o) s o.d fun c => fout (fmin o.fmt.ff (fraw o.fmt.ff (c.rG o.a)) (fraw o.fmt.ff (c.rG o.b)), 0)
/-- FMAX (R262, R47). -/
def execFmax (o : OFBin) (s : State) : Out := execAlu (.fmax o) s o.d fun c => fout (fmax o.fmt.ff (fraw o.fmt.ff (c.rG o.a)) (fraw o.fmt.ff (c.rG o.b)), 0)
/-- FNEG (R262). -/
def execFneg (o : OFUn) (s : State) : Out := execAlu (.fneg o) s o.d fun c => fout (fneg o.fmt.ff (fraw o.fmt.ff (c.rG o.a)), 0)
/-- FCMPEQ (R262). -/
def execFcmpeq (o : OFBin) (s : State) : Out := execAlu (.fcmpeq o) s o.d fun c => (flagWord ((fop o.fmt.ff (c.rG o.a)).eqv (fop o.fmt.ff (c.rG o.b))), 0)
/-- FCMPLT (R262). -/
def execFcmplt (o : OFBin) (s : State) : Out := execAlu (.fcmplt o) s o.d fun c => (flagWord ((fop o.fmt.ff (c.rG o.a)).lt (fop o.fmt.ff (c.rG o.b))), 0)
/-- FCMPLE (R262). -/
def execFcmple (o : OFBin) (s : State) : Out := execAlu (.fcmple o) s o.d fun c => 
  (flagWord ((fop o.fmt.ff (c.rG o.a)).lt (fop o.fmt.ff (c.rG o.b)) || (fop o.fmt.ff (c.rG o.a)).eqv (fop o.fmt.ff (c.rG o.b))), 0)

/-- CVT (R263, R34, R252). -/
def execCvt (o : OCvt) (s : State) : Out := execAlu (.cvt o) s o.d fun c =>
  let r := convert o.dfmt o.sfmt ((c.rG o.a).toNat % 2 ^ o.sfmt.bits) o.rm o.sat
  (BitVec.ofNat 64 (extend o.dfmt r.1 64), r.2)

end Sys2Proof.Machine
end

