-- ==== Sys2Proof/Machine/Control.lean ====
section
/-! DEFINITION. Groups 0x0A to 0x0D: branches, jumps, calls, scopes of names, register state, BRK (R264 to R271, R380). -/

namespace Sys2Proof.Machine

/-! Branches, jumps and calls (R264 to R267). -/

/-- Continue at `pc`, one cycle later than after another instruction (R254). -/
def jumpTo (c : Ctx) (pc : Word) : Ctx := { c with pc := pc, wait := none, jumped := true, recent := [], vsp := false }

/-- A conditional branch (R264). -/
def execBranch (i : Instr) (o : OBr) (s : State) (taken : Word → Word → Bool) : Out :=
  issue i s fun c =>
    s.setCur (if taken (c.rG o.a) (c.rG o.b) then jumpTo c (c.pc + o.off.signExtend 64 * 4) else c.past i)

/-- BEQ (R264). -/
def execBeq (o : OBr) (s : State) : Out := execBranch (.beq o) o s fun a b => a == b
/-- BNE (R264). -/
def execBne (o : OBr) (s : State) : Out := execBranch (.bne o) o s fun a b => a != b
/-- BLT (R264): signed. -/
def execBlt (o : OBr) (s : State) : Out := execBranch (.blt o) o s fun a b => a.slt b
/-- BGE (R264): signed. -/
def execBge (o : OBr) (s : State) : Out := execBranch (.bge o) o s fun a b => !a.slt b
/-- BLTU (R264): unsigned. -/
def execBltu (o : OBr) (s : State) : Out := execBranch (.bltu o) o s fun a b => a.ult b
/-- BGEU (R264): unsigned. -/
def execBgeu (o : OBr) (s : State) : Out := execBranch (.bgeu o) o s fun a b => !a.ult b

/-- JMP (R265). -/
def execJmp (o : OJ) (s : State) : Out :=
  issue (.jmp o) s fun c => s.setCur (jumpTo c (c.pc + o.off.signExtend 64 * 4))
/-- CALL (R265): NextPC goes to g7, full and untainted. -/
def execCall (o : OJ) (s : State) : Out :=
  issue (.call o) s fun c => s.setCur (jumpTo (c.wG 7 (nextPc (.call o) c)) (c.pc + o.off.signExtend 64 * 4))

/-- A target in a register (R266): bits [63:56] are ignored, and a misaligned one is a fault 0x04 at the jump. -/
def jumpReg (i : Instr) (s : State) (c : Ctx) (x : Word) : State :=
  let t := x &&& 0x00FFFFFFFFFFFFFF#64
  if t.toNat % 4 ≠ 0 then raise i s 0x04 x else s.setCur (jumpTo c t)

/-- JMPI (R266). -/
def execJmpi (o : ORa) (s : State) : Out := issue (.jmpi o) s fun c => jumpReg (.jmpi o) s c (c.rG o.a)
/-- CALLI (R266): the target is read before g7 is written; g7 takes the target register's taint (R101). -/
def execCalli (o : ORa) (s : State) : Out :=
  issue (.calli o) s fun c => jumpReg (.calli o) s (c.wG 7 (nextPc (.calli o) c) (srcTaint (.calli o) c)) (c.rG o.a)
/-- RET (R266): to g7. -/
def execRet (s : State) : Out := issue .ret s fun c => jumpReg .ret s c (c.rG 7)

/-! Scopes of names (R160, R268; LEAVE is with the service that it gives the freed registers to). -/

/-- Physical registers of a kind that a core's contexts hold (R160): open names of RESERVED, LIVE and FROZEN contexts. -/
def poolUsed (o : Core) (vec : Bool) : Nat :=
  o.ctxs.toList.foldl (fun n c => if c.st == .reserved || c.st == .live || c.st == .frozen then n + (if vec then c.vOpen else c.gOpen) else n) 0

/-- The pool holds space for more names of both kinds. -/
def poolHas (o : Core) (g v : Nat) : Bool := decide (poolUsed o false + g ≤ 128) && decide (poolUsed o true + v ≤ 128)

/-- Open names, each full, zero and untainted. -/
def openNames (c : Ctx) (g v : Nat) : Ctx :=
  let c := (List.range g).foldl (fun (c : Ctx) j => c.wG (BitVec.ofNat 5 (c.gOpen + j)) 0) c
  let c := (List.range v).foldl (fun (c : Ctx) j => c.wV (BitVec.ofNat 5 (c.vOpen + j)) 0) c
  { c with gOpen := c.gOpen + g, vOpen := c.vOpen + v }

/-- ENTER (R268, R160). -/
def execEnter (o : OEnter) (s : State) : Out :=
  issue (.enter o) s fun c =>
    let g := 8 * o.s.toNat
    let v := 8 * o.v.toNat
    if (g = 0 && v = 0) || decide (32 < g) || decide (32 < v) || decide (32 < c.gOpen + g) || decide (32 < c.vOpen + v)
        || decide (8 ≤ c.scopes.length) then raise (.enter o) s 0x02
    else if !poolHas (s.core s.curAgent) g v then waitFor s .retry
    else s.setCur ({ openNames c g v with scopes := (g, v) :: c.scopes }.past (.enter o))

/-- Close the innermost scope: its registers and their taint are discarded. -/
def closeScope (c : Ctx) (g v : Nat) : Ctx :=
  let c := (List.range g).foldl (fun (c : Ctx) j => c.wG (BitVec.ofNat 5 (c.gOpen - 1 - j)) 0) c
  let c := (List.range v).foldl (fun (c : Ctx) j => c.wV (BitVec.ofNat 5 (c.vOpen - 1 - j)) 0) c
  { c with gOpen := c.gOpen - g, vOpen := c.vOpen - v, scopes := c.scopes.tail }

/-- A producer of a register has not landed: a value on its way, or a posted receive (R161). A receive that the device removed owes nothing
(R293). -/
def owes (s : State) (a k : Nat) (vec : Bool) (r : Reg) : Bool :=
  (s.pending.any fun e => match e with | .loadLand l => l.agent == a && l.ctx == k && l.vec == vec && l.reg == r | _ => false)
    || (!vec && (s.core a).posted.any fun p => p.ctx == k && p.reg == r)

/-- Every producer of the innermost scope's names has landed. -/
def scopeLanded (s : State) (c : Ctx) (g v : Nat) : Bool :=
  let landed (vec : Bool) (r : Reg) : Bool := (if vec then c.fullV r else c.fullG r) || !owes s s.curAgent s.curCtx vec r
  ((List.range g).all fun j => landed false (BitVec.ofNat 5 (c.gOpen - 1 - j)))
    && ((List.range v).all fun j => landed true (BitVec.ofNat 5 (c.vOpen - 1 - j)))

/-! Register state (R270, R271, R244). -/

/-- A load of the context is still in flight, whose flags a read of FLAGS waits for (R37). -/
def loadsInFlight (s : State) (a k : Nat) : Bool :=
  s.pending.any fun e => match e with | .loadLand l => l.agent == a && l.ctx == k | _ => false

/-- The registers of numbers 0x000 to 0x01F (R244). -/
def sysRegLow (s : State) (c : Ctx) (n : Nat) : Word :=
  if n = 0 then c.flags
  else if n = 1 then c.task.setWidth 64
  else if n = 2 then c.kid.setWidth 64
  else if n = 3 then c.prio.setWidth 64
  else if n = 4 then c.stage.setWidth 64
  else if n = 5 then BitVec.ofNat 64 s.curAgent
  else if n = 6 then s.time
  else if n = 7 then BitVec.ofNat 64 (s.faultAgent c.kid - 2048)
  else if n = 8 then s.mgmt.devno.setWidth 64
  else
    let w := vget c.win ((n - 16) / 2) Window.reset
    if n % 2 = 0 then w.lo else w.hi

/-- RDSR (R270): untainted; a register named with FLAGS clears the flags it holds, in the step of the read; it holds the
flags just read where it is the destination too. -/
def execRdsr (o : ORdsr) (s : State) : Out :=
  issue (.rdsr o) s fun c =>
    if o.sr = 0 && loadsInFlight s s.curAgent s.curCtx then waitFor s .retry else
    let v := sysRegLow s c o.sr.toNat
    let clear := if o.a = o.d && o.d != 0 then v else c.rG o.a
    let c := if o.sr = 0 then { c with flags := c.flags &&& ~~~ clear } else c
    s.setCur ((c.wG o.d v).past (.rdsr o))

/-- PROBE (R271): 1 for a full register, without waiting on it. -/
def execProbe (o : OProbe) (s : State) : Out :=
  issueReg (.probe o) s fun c => c.wG o.d (flagWord (if o.vec then c.fullV o.a else c.fullG o.a))

/-- BRK (R380): a freeze with fault 0x1D, and with H the trigger of a halt group of the die (R224). -/
def execBrk (o : OBrk) (s : State) : Out :=
  issue (.brk o) s fun _ =>
    let s := if o.h then haltGroup s (agentDie s.curAgent) o.hg.toNat true else s
    raise (.brk o) s 0x1D

end Sys2Proof.Machine
end

