-- ==== Sys2Proof/Machine/Fetch.lean ====
section
/-! DEFINITION. Fetching and decoding the next instruction of a context (R237, R242, R245), and which cores and contexts may issue. -/

namespace Sys2Proof.Machine

/-- The outcome of a fetch: refused at an address, held (R129), or the words. -/
inductive Fetched
  | refused (va : Word) (e : AErr)
  | held (h : Hold)
  | words (ws : List (BitVec 32)) (s : State)
  deriving DecidableEq, Repr

/-- Fetch `n` words at `pc`, each accepted in turn; an instruction that is tried again has been fetched, and is only read. -/
def fetchWords (s : State) (pc : Word) : Nat → Fetched
  | 0 => .words [] s
  | n + 1 =>
    match resolve s (curAcc s) pc 4 4 .fetch with
    | .error e => .refused pc e
    | .ok p =>
      match pathHold s (curAcc s) p 4 .fetch with
      | some h => .held h
      | none =>
        let w := BitVec.ofNat 32 (fetchPath s (curAcc s) p 4)
        match fetchWords (if s.cur.wait.isSome then s else accepted s (curAcc s) p .fetch) (pc + 4) n with
        | .refused a e => .refused a e
        | .held h => .held h
        | .words ws s' => .words (w :: ws) s'

/-- Fetch the whole instruction at `pc`: word 0 says how many words follow. -/
def fetchInstr (s : State) (pc : Word) : Fetched :=
  match fetchWords s pc 1 with
  | .words [w0] s' =>
    (match fetchWords s' (pc + 4) (moreWords w0) with
    | .refused a e => .refused a e
    | .held h => .held h
    | .words ws s'' => .words (w0 :: ws) s'')
  | r => r

/-- What the current context meets at its PC. -/
inductive Next
  | stop (s : State)
  | run (i : Instr) (s : State)
  deriving DecidableEq, Repr

/-- A fault found before the instruction has a meaning. -/
def decodeFault (s : State) (code : BitVec 8) (ws : List (BitVec 32)) : State :=
  takeFault s s.curAgent s.curCtx { code := code } (insnWords ws)

/-- The limit of the wait in which an instruction is fetched again. -/
def Ctx.limitNow (c : Ctx) : Nat := match c.wait with | some w => w.limit | none => 0

/-- A refused fetch: a fault at the PC, or the page-fault path. -/
def fetchRefused (s : State) (va : Word) (e : AErr) : State :=
  match e with
  | .fault f => takeFault s s.curAgent s.curCtx f 0
  | .page code sub ia => pageFault s code sub va ia s.cur.limitNow true
  | .busy _ => waitFor s .retry s.cur.limitNow
  | .moved _ => waitFor s .retry s.cur.limitNow
  | .shared _ => waitFor s .retry s.cur.limitNow

/-- Fetch and decode in the current context, with the last rows of R242 for an encoding whose reserved fields are not zero. -/
def nextInstr (s : State) : Next :=
  let c := s.cur
  match fetchInstr s c.pc with
  | .refused va e => .stop (fetchRefused s va e)
  | .held h => .stop (holdOn s c.limitNow h)
  | .words ws s =>
    match decodeWords ws with
    | .illegal => .stop (decodeFault s 0x01 ws)
    | .instr i rsv =>
      if !rsv then .run i s
      else if i.roles.any fun r => !c.openName r.vec r.reg then .stop (decodeFault s 0x01 ws)
      else if Instr.privileged i && !c.priv then .stop (decodeFault s 0x1F ws)
      else .stop (decodeFault s 0x02 ws)

/-! Which cores and contexts may issue. -/

/-- A core issues: its die runs, no halt group stops it, and no checkpoint holds the device, whose ridge cores alone go on once every unit has
stopped (R231). -/
def coreRuns (s : State) (a : Nat) : Bool :=
  let d := s.die (agentDie a)
  d.running && !d.stopped && !(s.core a).halted && !(s.quiesced && !isRidge a && s.saves.all fun (q : Nat × SaveArea) => q.2.todo.isEmpty)

/-- The power arbiter stalls the context's kernel in its cluster (R12, R201). -/
def ctxStalled (s : State) (a : Nat) (c : Ctx) : Bool := !isRidge a && shortOf s (agentClu a) c.kid

/-- The context may try its instruction. -/
def ctxAble (s : State) (a k : Nat) : Bool := let c := s.ctx a k; c.canIssue && !ctxStalled s a c
/-- The words at a context's PC, for the packet of a freeze that no issue found (R210). -/
def insnAt (s : State) (a k : Nat) : BitVec 128 :=
  match fetchInstr { s with curAgent := a, curCtx := k } (s.ctx a k).pc with | .words ws _ => insnWords ws | .refused _ _ => 0 | .held _ => 0

end Sys2Proof.Machine
end

