-- ==== Sys2Proof/Machine/Claims.lean ====
section
/-! DEFINITION. Scratchpad ways: claims, pins, states, the retention record and resizing (R76 to R81). -/

namespace Sys2Proof.Machine

/-- Ways up to and including the one that holds the byte before `e`. -/
def waysTo (e : Nat) : Nat := ceilDiv e wayBytes

/-- Regions of a core's valid publisher entries, and of its valid subscriber entries (R138, R139): offset and length in bytes. -/
def Sub.valid (e : BitVec 128) : Bool := bit e 127
def Sub.off (e : BitVec 128) : Nat := bitsOf e 31 19 * 64
def Sub.len (e : BitVec 128) : Nat := (bitsOf e 18 13 + 1) * 64

/-- Extent of every pin, in ways from offset 0 (R78). -/
def pinExtent (o : Core) : Nat :=
  let ends := ((o.gmu.vars ++ o.gmu.facs).map fun g => g.off + g.ext)
    ++ (o.pubs.toList.filter Pub.valid).map (fun e => Pub.off e + Pub.len e)
    ++ (o.subs.toList.filter Sub.valid).map (fun e => Sub.off e + Sub.len e)
  (ends.map waysTo).foldl max 0

/-- The largest claim of the core's contexts, context `k` left out (R78). -/
def otherClaim (o : Core) (k : Nat) : Nat :=
  (List.range 8).foldl (fun n j => let c := vget o.ctxs j Ctx.reset; if j = k || c.st == .free then n else max n c.claim) 0

def retainExtent (o : Core) : Nat := match o.retain with | some (_, e) => e | none => 0

/-- The state of the way that holds scratchpad way `j` (R77). -/
def spWay (o : Core) (j : Nat) : WaySt := vget o.ways (19 - j) .cache
def setSpWay (o : Core) (j : Nat) (w : WaySt) : Core := { o with ways := vset o.ways (19 - j) w }

/-- Zero a scratchpad way; its poison goes with its bytes (R228). -/
def zeroWay (s : State) (a j : Nat) : State :=
  let s := s.modCore a fun o => { o with spad := o.spad.clear (j * wayBytes) wayBytes }
  { s with spPoison := s.spPoison.filter fun q => !(q.1 == a && q.2 / 256 == j) }

/-- The last claimant of ways has left: LIVE ways that no claim or pin reaches become RETAINED inside the record, else OFF (R81). -/
def leaveWays (s : State) (a : Nat) : State :=
  (List.range (s.core a).nWays).foldl (fun (s : State) j =>
    let o := s.core a
    if spWay o j == .live && decide (max (otherClaim o 8) (pinExtent o) ≤ j) then
      match o.retain with
      | some (ch, e) => if j < e then s.setCore a (setSpWay o j (.retained ch)) else zeroWay (s.setCore a (setSpWay o j .off)) a j
      | none => zeroWay (s.setCore a (setSpWay o j .off)) a j
    else s) s

/-- A claiming task enters a way (R81); `start` is the handler channel of a starting task. -/
def enterWay (s : State) (a j : Nat) (start : Option Nat) : State :=
  let o := s.core a
  match spWay o j with
  | .live => s
  | .retained ch =>
    let kept := start == some ch && (match o.retain with | some (r, _) => r == ch | none => false)
    if kept then s.setCore a (setSpWay o j .live)
    else
      let s := (List.range o.nWays).foldl (fun (s : State) i => match spWay o i with | .retained _ => zeroWay s a i | _ => s) s
      s.modCore a fun o => { setSpWay o j .live with retain := none }
  | _ => zeroWay (s.setCore a (setSpWay o j .live)) a j

/-- Ways leave the L1 in descending order: their lines are written back and invalidated (R79, R80). -/
def growWays (s : State) (a q : Nat) : State :=
  let n := (s.core a).nWays
  if q ≤ n then s else
  let s := (List.range (q - n)).foldl (fun (s : State) i =>
    let w := 19 - n - i
    let clu := agentClu a
    let s := ((s.clu clu).l1.filter fun (p : Nat × CLine) => p.1 % 8 == coreIdx a && p.2.way == w).foldl
      (fun (s : State) p => l1Evict s clu p.1) s
    s.modCore a fun o => { o with ways := vset o.ways w .off }) s
  s.modCore a fun o => { o with nWays := q }

/-- A request beyond the array: 18 ways, and none on a ridge core, which has no array (R79, R418). -/
def claimTooBig (a q : Nat) : Bool := decide (18 < q) || (isRidge a && q != 0)

/-- Claim of R79, for a request within the array; the claim itself is the caller's. The record is cleared once the first starting
task of its handler has entered a way it kept (R81). -/
def claimWays (s : State) (a q : Nat) (start : Option Nat) : State :=
  let s := growWays s a q
  let o := s.core a
  let first : Bool := match o.retain, start with
    | some (ch, _), some c => c == ch && (List.range q).any fun j => spWay o j == .retained ch
    | _, _ => false
  let s := (List.range q).foldl (fun (s : State) j => enterWay s a j start) s
  if first then s.modCore a fun o => { o with retain := none } else s

/-- The rest of a shrinking SPRESIZE, once the claim is `q` (R79). -/
def shrinkWays (s : State) (a q k : Nat) : State :=
  let s := leaveWays s a
  let o := s.core a
  let n := max (max q (otherClaim o k)) (max (pinExtent o) (retainExtent o))
  if o.nWays ≤ n then s else
  let s := (List.range (o.nWays - n)).foldl (fun (s : State) i => (zeroWay s a (n + i)).modCore a fun o => setSpWay o (n + i) .cache) s
  s.modCore a fun o => { o with nWays := n }

/-- A HALT with retain: the new record replaces the earlier one (R81). -/
def retainWays (s : State) (a ch q : Nat) : State :=
  let s := (List.range (s.core a).nWays).foldl (fun (s : State) j =>
    match spWay (s.core a) j with
    | .retained _ => if j < q then s else (zeroWay s a j).modCore a fun o => setSpWay o j .off
    | _ => s) s
  s.modCore a fun o => { o with retain := some (ch, q) }

end Sys2Proof.Machine
end

