-- ==== Sys2Proof/Machine/Memory.lean ====
section
/-! DEFINITION. Groups 0x10 to 0x17: loads, stores, typed elements, ordered accesses, atomics, fences, maintenance (R272 to R284). -/

namespace Sys2Proof.Machine

/-- The byte step of an M-form offset (R272). -/
def stepOf (off : BitVec 10) (size : Nat) : Int := off.toInt * size

/-- The base register after an accepted post-increment (R250): it keeps its taint, as ADDA of itself would. -/
def postInc (s : State) (base : Reg) (pi : Bool) (nb : Word) : State :=
  if pi then s.setCur (s.cur.wG base nb (s.cur.taintG base)) else s

/-- Zero- or sign-extend `n` bytes into a scalar register. -/
def extLoad (x n : Nat) (sx : Bool) : Nat := wrapN (readInt x (8 * n) sx) 64

/-! Fences (R103, R104, R127, R143, R280). -/

/-- The cores whose publisher entries hold stores of an agent's contexts: those of its cluster, which its stores reach (R84, R143); for a ridge
core, whose handlers store for the tasks they serve (R215), those of the clusters of these tasks. -/
def clusterCores (s : State) (a : Nat) : List Nat :=
  let of (b : Nat) : List Nat := if isRidge b then [] else (List.range 8).map fun i => agentClu b * 8 + i
  if !isRidge a then of a else
  (s.core a).ctxs.toList.flatMap fun c => match c.served.bind fun p => s.findTask p.task with | some (b, _) => of b | none => []

/-- Updates that hold stores of the context's cluster are pending or not acknowledged (R143). -/
def updatesOut (s : State) (a : Nat) : Bool :=
  (clusterCores s a).any fun b =>
    let o := s.core b
    !o.pubPend.isEmpty || o.pubs.toList.any fun e => Pub.valid e && Pub.outst e != 0

/-- Stores of a task are held until a page's other holders have given up their copies (R130). -/
def storesHeld (s : State) (t : BitVec 32) : Bool := s.pages.any fun (q : Nat × PageCopy) => q.2.held.any fun h => h.1 == t.toNat

/-- A release of the current context at a scope waits: at `clu` or wider for R143; at every scope beyond the context's own view until the
context's held stores are performed (R103, R130). -/
def releaseHeld (s : State) (sc : Scope) : Bool := (Scope.ge sc .clu && updatesOut s s.curAgent) || (sc != .ctx && storesHeld s s.cur.task)

/-- Writes of a task to the host, or writes to other devices, have left and are not acknowledged (R411, R414). -/
def unackedOut (s : State) (t : BitVec 32) : Bool := s.unacked.any fun u => !u.host || u.task == t

/-- A release fence at a scope, then `go`, within the instruction's cycle limit. At `sys` what it pushes is to be acknowledged first (R411). -/
def releaseThen (s : State) (sc : Scope) (go : State → State) (limit : Nat := 0) : State :=
  if releaseHeld s sc then waitFor s .updates limit else
  let r := release s s.curAgent sc
  if sc == .sys && unackedOut r s.cur.task then waitFor r .updates limit else go r

/-- FENCE (R280, R103): pushes, drops, or both. -/
def execFence (o : OFence) (s : State) : Out :=
  issue (.fence o) s fun _ =>
    match o.order with
    | .acq => done (.fence o) (acquire s s.curAgent o.scope)
    | .rel => releaseThen s o.scope fun s => done (.fence o) s
    | _ => releaseThen s o.scope fun s => done (.fence o) (acquire s s.curAgent o.scope)

/-! Loads and stores (R274). -/

/-- A load of `n` bytes at an M-form address; `fin` gives what follows the read. The read is performed at issue, in program order (DESIGN CHOICE,
log 47: the cells Ld–Ld and Ld–St of R117 and R118 leave that order open). -/
def loadForm (i : Instr) (s : State) (base : Reg) (step : Int) (pi : Bool) (n : Nat) (need : TyNeed) (fin : Nat → State → State) : State :=
  let c := s.cur
  match effAddr (c.rG base) step pi with
  | none => raise i s 0x0D
  | some (va, nb) =>
    access i s va n n .rd need fun p =>
      let (x, s) := readPath (taintAcquire s (c.taintG base)) (curAcc s) p n
      done i (fin x (postInc s base pi nb))

/-- An 8-byte store may set a WSO word (R110). -/
def wsoNeed (n : Nat) : TyNeed := if n = 8 then .wsoStore else .any
/-- The path's page is WSO. -/
def Path.isWso (p : Path) : Bool := match p with | .mem _ _ ty _ => ty == .wso | .far _ ty => ty == .wso | _ => false

/-- LD (R274). -/
def execLd (o : OLd) (s : State) : Out :=
  issue (.ld o) s fun _ =>
    let n := 2 ^ o.sz.toNat
    loadForm (.ld o) s o.base (stepOf o.off n) o.pi n .any fun x s => landG s o.d (extLoad x n o.sx)

/-- ST (R274); on a WSO page an 8-byte store is a release at `dev` (R110). -/
def execSt (o : OSt) (s : State) : Out :=
  issue (.st o) s fun c =>
    let n := 2 ^ o.sz.toNat
    match effAddr (c.rG o.base) (stepOf o.off n) o.pi with
    | none => raise (.st o) s 0x0D
    | some (va, nb) =>
      access (.st o) s va n n .wr (wsoNeed n) fun p =>
        let s := if p.isWso then release s s.curAgent .dev else s
        let s := taintAcquire s (c.taintG o.base)
        done (.st o) (postInc (writePath s (curAcc s) p n ((c.rG o.s).toNat % 2 ^ (8 * n))) o.base o.pi nb)

/-! Typed elements (R275). -/

/-- Where an element access goes: its address, its scale's address, and the new base; or the fault. -/
structure ElemAddr where
  va    : Word
  scale : Option Word
  nb    : Word
  el    : Elem
  deriving DecidableEq, Repr

/-- The checks of R275 in the order of R209: tag and address range (0x0D), then alignment (0x04). -/
def elemAddr (a : Word) (f : Fmt) (k : Nat) (e : Int) (dist : Int) (pi : Bool) : Except (BitVec 8) ElemAddr :=
  let el := elemAt f k (if pi then 0 else e)
  let nb := if pi then (match elemDist f k dist with | none => some none | some n => (addAddr a n).map some) else some (some a)
  match addAddr a el.off, nb with
  | none, _ => .error 0x0D
  | _, none => .error 0x0D
  | some va, some nb =>
    let sc := match el.scale with | none => some none | some off => (addAddr a off).map some
    match sc, nb with
    | none, _ => .error 0x0D
    | _, none => .error 0x04
    | some sc, some nb => if addrPart a % elemAlign f ≠ 0 then .error 0x04 else .ok ⟨va, sc, nb, el⟩

/-- The resolved element of an access: its path and its scale's, read as one load, so that the local checks of both come first (R209, R275). -/
def elemAccess (i : Instr) (s : State) (e : ElemAddr) (k : AKind) (go : Path → Option Path → State) : State :=
  let n := e.el.bytes
  match localCheck s (curAcc s) k ((e.va, n, n) :: e.scale.toList.map fun sv => (sv, 2, 2)) with
  | some f => faultCur i s f
  | none =>
    access i s e.va n n k .any fun p =>
      match e.scale with
      | none => go p none
      | some sv => access i s sv 2 2 k .any fun q => go p (some q)

/-- LDE (R275): element and scale are read as one load. -/
def execLde (o : OLde) (s : State) : Out :=
  issue (.lde o) s fun c =>
    let a := c.rG o.base
    match tagOf a with
    | none => raise (.lde o) s 0x0D a
    | some (f, k) =>
      match elemAddr a f k o.off.toInt o.off.toInt o.pi with
      | .error code => raise (.lde o) s code a
      | .ok e =>
        elemAccess (.lde o) s e .rd fun p q =>
          let s := taintAcquire s (c.taintG o.base)
          let (x, s) := readPath s (curAcc s) p e.el.bytes
          let (y, s) := match q with | none => (0, s) | some q => readPath s (curAcc s) q 2
          let (v, fl) := ldeValue f (elemRaw f e.el x) y o.rm 64
          done (.lde o) (landG (postInc s o.base o.pi e.nb) o.d v fl)

/-- The byte or bytes an element store writes: a ternary element keeps its neighbours as the context reads them. -/
def storeElem (s : State) (p : Path) (f : Fmt) (e : Elem) (v : Nat) : State :=
  if f.bits = 2 then
    let (old, s) := readPath s (curAcc s) p 1
    writePath s (curAcc s) p 1 (putBits (BitVec.ofNat 8 old) (e.bit + 1) e.bit v).toNat
  else writePath s (curAcc s) p e.bytes v

/-- STE (R275): the scale and the padding of a block are left unchanged. -/
def execSte (o : OSte) (s : State) : Out :=
  issue (.ste o) s fun c =>
    let a := c.rG o.base
    match tagOf a with
    | none => raise (.ste o) s 0x0D a
    | some (f, k) =>
      match elemAddr a f k o.off.toInt o.off.toInt o.pi with
      | .error code => raise (.ste o) s code a
      | .ok e =>
        access (.ste o) s e.va e.el.bytes e.el.bytes .wr .any fun p =>
          let s := taintAcquire s (c.taintG o.base)
          let (v, fl) := steValue f (c.rG o.s).toNat 64 o.rm o.sat
          let s := postInc (storeElem s p f e.el v) o.base o.pi e.nb
          done (.ste o) (s.setCur (s.cur.orFlags fl))

/-! Ordered accesses (R276, R277). -/

/-- LD.ACQ (R276): the load, then an acquire fence. -/
def execLdAcq (o : OLdo) (s : State) : Out :=
  issue (.ldAcq o) s fun _ =>
    let n := 2 ^ o.sz.toNat
    loadForm (.ldAcq o) s o.base (stepOf o.off n) false n .any fun x s => landG (acquire s s.curAgent o.scope) o.d x

/-- LDC (R276, R101): the load taints its destination, and its scope is kept for later accesses with tainted addresses. -/
def execLdc (o : OLdo) (s : State) : Out :=
  issue (.ldc o) s fun _ =>
    let n := 2 ^ o.sz.toNat
    loadForm (.ldc o) s o.base (stepOf o.off n) false n .any fun x s =>
      let s := s.setCur { s.cur with ldcs := if s.cur.ldcs.contains o.scope then s.cur.ldcs else s.cur.ldcs ++ [o.scope] }
      landG s o.d x 0 true

/-- The word of a WSO page is full; none of a discarded page is (R112). -/
def wordFull (s : State) (p : Path) : Bool :=
  match p with
  | .mem _ pa _ disc => !disc && s.wsoFull.contains (pa / 8)
  | .far ia _ => (farPage s ia).full.contains (ia / 8)
  | _ => false

/-- LDS (R276, R110): blocks until its word is full; an acquire at `dev`. -/
def execLds (o : OLds) (s : State) : Out :=
  issue (.lds o) s fun c =>
    match effAddr (c.rG o.base) (stepOf o.off 8) false with
    | none => raise (.lds o) s 0x0D
    | some (va, _) =>
      access (.lds o) s va 8 8 .rd .lds fun p =>
        if !wordFull s p then waitFor s .retry (Instr.limit (.lds o) c)
        else
          let (x, s) := readPath (taintAcquire s (c.taintG o.base)) (curAcc s) p 8
          done (.lds o) (landG (acquire s s.curAgent .dev) o.d x)

/-- ST.REL (R277): a release fence at its scope, then the store; on a WSO page at the wider of its scope and `dev`. -/
def execStRel (o : OSto) (s : State) : Out :=
  issue (.stRel o) s fun c =>
    let n := 2 ^ o.sz.toNat
    match effAddr (c.rG o.base) (stepOf o.off n) false with
    | none => raise (.stRel o) s 0x0D
    | some (va, _) =>
      access (.stRel o) s va n n .wr (wsoNeed n) fun p =>
        releaseThen s (if p.isWso then Scope.max o.scope .dev else o.scope) fun s =>
          let s := taintAcquire s (c.taintG o.base)
          done (.stRel o) (writePath s (curAcc s) p n ((c.rG o.s).toNat % 2 ^ (8 * n)))

/-! Atomics (R278, R279). -/

/-- The new value of an atomic, none for a failing CAS, and the flags it sets. -/
def amoNew (op : AmoOp) (f : Fmt) (sat : Bool) (old x y : Nat) : Option Nat × Word :=
  match op with
  | .swap => (some x, 0)
  | .cas => (if old = y then some x else none, 0)
  | .and => (some (Nat.land old x), 0)
  | .or => (some (Nat.lor old x), 0)
  | .xor => (some (Nat.xor old x), 0)
  | .min => let (r, fl) := combine .min f old x; (some r, fl)
  | .max => let (r, fl) := combine .max f old x; (some r, fl)
  | .add =>
    match f.cls with
    | .flt g => let (r, fl) := addF g old x; (some r, fl)
    | .int w sg => let (r, fl) := intToInt (readInt old w sg + readInt x w sg) w sg sat; (some r, fl)
    | _ => (none, 0)

/-- The atomic itself: a release first, the operation at its execution point, an acquire after (R103, R279). -/
def execAmo (o : OAmo) (s : State) : Out :=
  issue (.amo o) s fun c =>
    let n := o.fmt.bits / 8
    match effAddr (c.rG o.base) (stepOf o.off n) false with
    | none => raise (.amo o) s 0x0D
    | some (va, _) =>
      access (.amo o) s va n n .at .any fun p =>
        let x := (c.rG o.c).toNat % 2 ^ (8 * n)
        let y := (c.rG o.e).toNat % 2 ^ (8 * n)
        let go (s : State) : State :=
          let s := taintAcquire s (c.taintG o.base)
          let (old, s) := atomicPath s (curAcc s) p n o.scope fun old => (amoNew o.op o.fmt o.sat old x y).1
          let s := if o.order == .acq || o.order == .acqrel then acquire s s.curAgent o.scope else s
          done (.amo o) (landG s o.d (extend o.fmt old 64) (amoNew o.op o.fmt o.sat old x y).2)
        if o.order == .rel || o.order == .acqrel then releaseThen s o.scope go else go s

/-! Accesses of other devices (R128, R279). -/

/-- Another device as an accessor, with the KID and the world that travel with its request (R191, R211). DESIGN CHOICE (log 61): R226 gives a
record of AGENT 0x0B no COORD and no source core; the model's are those of ridge core 0 of die 0. -/
def deviceAcc (dev : Nat) (task : BitVec 32) (kid : BitVec 16) (world : Bool) : Acc :=
  { agent := ridgeAgent 0 0, ctx := 0, task := task, kid := kid, world := world, win := Vector.replicate 4 Window.reset
    claim := 0, pc := 0, stage := 0, eng := some (0x0B, dev) }

/-- A crossing by another device gives this device's monitor the full record (R192); its answer leaves to the device (log 20). -/
def deviceCrossed (s : State) (x : Acc) (f : FInfo) : State :=
  s.sendPacketTo x.agent monitor (packetPa
    { code := 0x0C, agent := 0x0B, sub := 0, noctx := true, ctx := 0, task := x.task, kid := x.kid, stage := 0, core := agentNum x.agent, info := 0
      inst := BitVec.ofNat 16 (x.eng.getD (0, 0)).2, pc := 0, va := 0, ia := f.ia, time := s.time, insn := 0 } f.pa) true

/-- The read, write or read-modify-write of another device's accepted access: a SEQ access at the line's home slice once every copy is gone
(R122, R123), any other at the thatch. -/
def devicePerform (s : State) (r : DevAcc) (ia pa : Nat) (ty : PType) : State :=
  let new (old : Nat) : Option Nat := match r.op with
    | .load => none
    | .store v => some v
    | .atomic op fmt sat a b => (amoNew op fmt sat old a b).1
  let o := pa % 64
  let m := Mask.span o r.bytes
  if ty = .seq then
    let s := dirClear s (ia / 64)
    let (l, s) := l2Fill s (frameDie pa) (ia / 64) pa .seq
    match new (Line.get l.data o r.bytes) with
    | some v => l2Write s (frameDie pa) (ia / 64) pa .seq (Line.put o v) m
    | none => s
  else match new (Line.get (physLine s pa) o r.bytes) with
    | none => s
    | some v =>
      let s := l2Through (physWrite s pa (Line.put o v) m) (frameDie pa) (ia / 64) (Line.put o v) m
      if ty = .wso then { s with wsoFull := if s.wsoFull.contains (pa / 8) then s.wsoFull else s.wsoFull ++ [pa / 8] } else s

/-- An access of another device at the home of a page of this device: none while an atomic is held by a moving frame, to be taken up again
(R132). One that is refused changes nothing in memory; the answer leaves to the device (log 20), a crossing also gives a record (R192), and so
does a load or store of a stopped die (R229). -/
def deviceAccess (s : State) (r : DevAcc) : Option State :=
  let x := deviceAcc r.dev.toNat r.task r.kid r.world
  let kind : AKind := match r.op with | .load => .rd | .store _ => .wr | .atomic .. => .at
  match homeChecks s x 0 r.ia kind (wsoNeed r.bytes) r.bytes with
  | .ok (.mem ia pa ty disc) =>
    let s := accepted s x (.mem ia pa ty disc) kind
    some (if (s.die (frameDie pa)).stopped then storeDropped s x ia else devicePerform s r ia pa ty)
  | .ok _ => some s
  | .error (.moved _) => none
  | .error (.fault f) =>
    some (if f.code = 0x0C then deviceCrossed s x f else if f.code = 0x1B && f.sub = 3 then storeDropped s x r.ia else s)
  | .error _ => some s

/-! Maintenance (R281 to R284). -/

/-- SPRESIZE (R282, R79): growth, or a shrink, once the stores of its context are performed. -/
def execSpresize (o : ODA) (s : State) : Out :=
  issue (.spresize o) s fun c =>
    let a := s.curAgent
    let q := ceilDiv (c.rG o.a).toNat wayBytes
    if claimTooBig a q then raise (.spresize o) s 0x18
    else if storesHeld s c.task then waitFor s .updates
    else
    let grow := decide (c.claim ≤ q)
    let s := if grow then claimWays s a q none else s
    let s := s.setCur { s.cur with claim := q }
    let s := if grow then s else shrinkWays s a q s.curCtx
    s.setCur ((s.cur.wG o.d (BitVec.ofNat 64 (q * wayBytes)) (srcTaint (.spresize o) c)).past (.spresize o))

/-- A range of bytes lies in one local window (R84). -/
def rangeLocal (s : State) (x : Acc) (a n : Nat) : Bool :=
  let top := a / 2 ^ 48
  if top = 0xF0 then !isRidge x.agent && decide (a % 2 ^ 48 + n ≤ x.claim * wayBytes)
  else if top = 0xF1 then
    !isRidge x.agent && a / 2 ^ 21 % 2 ^ 27 == 0 && decide (a % 2 ^ 18 + n ≤ 262144)
      && (s.core (agentClu x.agent * 8 + a / 2 ^ 18 % 8)).rangeLive (a % 2 ^ 18) n false
  else top == 0xF2 && decide (a % 2 ^ 48 + n ≤ dieScratchBytes (s.die (agentDie x.agent)))

/-- The IA lines that overlap a range, where one range register holds it all, or none for a range in a local window; fault 0x05 where it lies in
neither, 0x07 for a window that does not allow reads. -/
def rangeIa (s : State) (c : Ctx) (va : Word) (n : Nat) : Except (BitVec 8) (Option (Nat × Nat)) :=
  let a := addrPart va
  let top := a / 2 ^ 48
  if 0xF0 ≤ top then
    if rangeLocal s (curAcc s) a n then .ok none else .error 0x05
  else match findWindow c.win a with
    | none => .error 0x05
    | some w =>
      if !w.hit (a + n - 1) then .error 0x05
      else if !w.allows .rd then .error 0x07
      else .ok (some (w.ia a / 64, w.ia (a + n - 1) / 64))

/-- Type and PRD of a page: of this device where one is mapped, or of another device. -/
def pageFacts (s : State) (ia : Nat) : Option (PType × Bool) :=
  if ia / 2 ^ 44 % 4 = 3 then none
  else if ia / 2 ^ 46 % 64 = s.devno.toNat then match leaf s ia with | .ok e => some (Pte.ty e, bit e 56) | .error _ => none
  else let f := farPage s ia; some (f.ty, f.rd)

/-- A mapped page of the range without PRD. -/
def rangeNoRead (s : State) (lo hi : Nat) : Bool :=
  (List.range (hi / 64 - lo / 64 + 1)).any fun j =>
    match pageFacts s ((lo / 64 + j) * 4096) with | some (_, rd) => !rd | none => false

/-- A line of a range on a REL page: the only ones that FLUSHS and INVS touch. -/
def relLine (s : State) (lo hi l : Nat) : Bool :=
  decide (lo ≤ l) && decide (l ≤ hi) && (match pageFacts s (l * 64) with | some (ty, _) => ty == .rel | none => false)

/-- Stores of a task to the lines of a range are held (R130). -/
def heldIn (s : State) (t : BitVec 32) (lo hi : Nat) : Bool :=
  s.pages.any fun (q : Nat × PageCopy) => q.2.held.any fun h =>
    h.1 == t.toNat && decide (h.2.1 / 64 ≤ hi) && decide (lo ≤ (h.2.1 + h.2.2.1 - 1) / 64)

/-- FLUSHS and INVS (R283): the checks of a range, then `go` on its lines, after the context's earlier stores to them. -/
def execRange (i : Instr) (o : ORange) (s : State) (go : State → Nat → Nat → State) : Out :=
  issue i s fun c =>
    let va := c.rG o.a
    let n := (c.rG o.b).toNat
    if 2 ^ 30 < n then raise i s 0x02
    else if n = 0 then done i s
    else match rangeIa s c va n with
      | .error code => raise i s code va
      | .ok none => done i s
      | .ok (some (lo, hi)) =>
        if rangeNoRead s lo hi then raise i s 0x07 va else if heldIn s c.task lo hi then waitFor s .updates else done i (go s lo hi)

/-- FLUSHS (R283): the lines go to the level of the scope. -/
def execFlushs (o : ORange) (s : State) : Out :=
  execRange (.flushs o) o s fun s lo hi => pushTo s s.curAgent o.scope (relLine s lo hi)

/-- INVS (R283): clean copies are dropped, clean bytes of dirty lines refreshed, and SKGEN is not bumped. -/
def execInvs (o : ORange) (s : State) : Out :=
  execRange (.invs o) o s fun s lo hi =>
    let want := relLine s lo hi
    let s := if Scope.ge o.scope .die then s.modDie (agentDie s.curAgent) fun d =>
        { d with sark := d.sark.filter fun (q : Nat × SLine) => !want q.1 } else s
    dropTo s s.curAgent o.scope false want

/-- A prefetch of an accepted line (R284, R124). -/
def prefetch (s : State) (x : Acc) (p : Path) (lvl : PrefLevel) : State :=
  match p with
  | .mem ia pa ty disc =>
    let s := accepted s x p .rd
    let line := ia / 64
    if disc || ty == .wso || lvl == .th then s
    else if lvl == .l1 && !isRidge x.agent then
      if ty == .seq then dirServe s (agentClu x.agent) line pa .read else (l1Fill s (agentClu x.agent) line pa ty).2
    else if ty == .seq then (l2Fill s (frameDie pa) line pa ty).2 else (outRead s (agentDie x.agent) line pa ty).2
  | .remote ia => (match pageHold s x ia .rd with | some (.events l) => l.foldl (fun (s : State) e => s.pendOnce e) s | _ => s)
  | _ => s

/-- PREF (R284): fills as a load does, and never faults after decode. -/
def execPref (o : OPref) (s : State) : Out :=
  issue (.pref o) s fun c =>
    match resolve s (curAcc s) (c.rG o.a) 1 1 .rd with
    | .ok p => done (.pref o) (prefetch (taintAcquire s (c.taintG o.a)) (curAcc s) p o.lvl)
    | .error _ => done (.pref o) s

end Sys2Proof.Machine
end

