-- ==== Sys2Proof/Machine/HostOps.lean ====
section
/-! DEFINITION. Host commands as messages carry them (R409), their order (R410) and their replies. The shipped firmware takes a host message
on a channel whose handler entry no program has written (log 32). -/

namespace Sys2Proof.Machine

/-- HDROP counts a discarded message, saturating (R407 to R409). -/
def hdropCount (s : State) : State := { s with mgmt := { s.mgmt with hdrop := if s.mgmt.hdrop = 0xFFFFFFFF then s.mgmt.hdrop else s.mgmt.hdrop + 1 } }

/-- The command in a payload. -/
def hostCmdOf (no : Nat) (m : Msg) : HostCmd where
  no := no
  agent := m.dst
  ch := m.ch
  op := m.payload.extractLsb' 0 16
  rsv := m.payload.extractLsb' 16 16
  seq := m.payload.extractLsb' 32 32
  reply := m.payload.extractLsb' 64 64
  len := m.len.toNat
  args := (m.payload.extractLsb' 128 832)

/-- Bytes of the payload from offset `o`. -/
def hostArg (c : HostCmd) (o n : Nat) : Nat := c.args.toNat / 2 ^ (8 * (o - 16)) % 2 ^ (8 * n)

/-- The service of an OP on its channel. -/
def hostEvent (c : HostCmd) : Option Ev :=
  if c.ch = 0 then
    if c.op = 1 then some (.hostLaunch c)
    else if c.op = 2 then some (.hostMap c)
    else if c.op = 3 then some (.hostKinst c)
    else if c.op = 4 then some (.hostCkpt c)
    else if c.op = 5 then some (.hostAttest c)
    else none
  else if c.op = 0x10 then some (.hostHgtrig c)
  else if c.op = 0x11 then some (.hostHgrel c)
  else none

/-- The command of a service that is on its way. -/
def hostCmdIn (e : Ev) : Option HostCmd :=
  match e with
  | .hostLaunch c => some c
  | .hostMap c => some c
  | .hostKinst c => some c
  | .hostCkpt c => some c
  | .hostAttest c => some c
  | .hostHgtrig c => some c
  | .hostHgrel c => some c
  | _ => none

/-- An earlier command of the same core and channel is not served yet (R410). -/
def hostEarlier (s : State) (c : HostCmd) : Bool :=
  s.pending.any fun e => match hostCmdIn e with | some d => d.agent == c.agent && d.ch == c.ch && decide (d.no < c.no) | none => false

/-- A nonzero REPLY that is not 64-aligned or beyond the last record makes a command void. -/
def hostVoid (c : HostCmd) : Bool := c.reply != 0 && (c.reply.toNat % 64 != 0 || decide (2 ^ 44 - 64 < c.reply.toNat))

/-- The reply record, DONE last; none for REPLY = 0. -/
def hostReply (s : State) (c : HostCmd) (status : Nat) (value : Word) : State :=
  if c.reply = 0 then s else
  let a := c.reply.toNat
  let m := s.hostMem.writeNat a 4 c.seq.toNat
  let m := m.writeNat (a + 4) 4 status
  let m := m.writeNat (a + 8) 8 value.toNat
  let m := m.writeNat (a + 16) 40 0
  { s with hostMem := m.writeNat (a + 56) 8 (2 ^ 63 + c.seq.toNat) }

/-- The shipped firmware takes a host message: none until it serves ch0 (R413) or, for a reply of its own, while earlier commands are not
served. -/
def firmwareTake (s : State) (m : Msg) : Option State :=
  if s.mgmt.bootst ≠ 3 then none else
  let (no, t) := s.newId
  let c := hostCmdOf no m
  if hostVoid c then some (hdropCount t)
  else match hostEvent c with
    | some e => some (t.pend e)
    | none => if hostEarlier s c then none else some (hostReply t c 1 0)

end Sys2Proof.Machine
end

