-- ==== Sys2Proof/Machine/Messages.lean ====
section
/-! DEFINITION. Messages: headers (R152), sending with the retry buffer (R155), arrival, refusal and service (R153, R154), tag matching
(R180, R181), and the events of their travel. -/

namespace Sys2Proof.Machine

/-! Handler entries (R149). -/

def Handler.valid (e : BitVec 128) : Bool := bit e 127
def Handler.masked (e : BitVec 128) : Bool := bit e 126
def Handler.gmu (e : BitVec 128) : Bool := bitsOf e 125 124 == 1
def Handler.lane (e : BitVec 128) : Bool := bit e 123
def Handler.world (e : BitVec 128) : Bool := bit e 122
def Handler.prio (e : BitVec 128) : Nat := bitsOf e 121 117
def Handler.gdem (e : BitVec 128) : Nat := bitsOf e 116 114
def Handler.vdem (e : BitVec 128) : Nat := bitsOf e 113 111
def Handler.spreq (e : BitVec 128) : Nat := bitsOf e 110 106
def Handler.kid (e : BitVec 128) : BitVec 16 := e.extractLsb' 80 16
def Handler.pc (e : BitVec 128) : Word := BitVec.ofNat 64 (bitsOf e 63 2 * 4)

/-- A field of an entry or a record out of range (R149, R156); a ridge core has no GMU, scratchpad or lane slices (R5). -/
def fieldsBad (ridge : Bool) (prio g v sp : Nat) (lane noV : Bool) : Bool :=
  decide (23 < prio) || g == 0 || decide (4 < g) || (v == 0 && !noV) || decide (4 < v) || (ridge && (sp != 0 || lane))

def Handler.bad (ridge : Bool) (e : BitVec 128) : Bool :=
  decide (1 < bitsOf e 125 124) || bitsOf e 105 96 != 0 || bitsOf e 79 64 != 0 || bitsOf e 1 0 != 0
    || (if Handler.gmu e then ridge || decide (23 < Handler.prio e)
        else fieldsBad ridge (Handler.prio e) (Handler.gdem e) (Handler.vdem e) (Handler.spreq e) (Handler.lane e) false)
def Handler.spBad (e : BitVec 128) : Bool := !Handler.gmu e && decide (18 < Handler.spreq e)

/-! Headers (R152). -/

def MsgKind.num : MsgKind → Nat | .task => 0 | .graph => 1 | .notify => 2 | .system => 3

/-- The delivered header. -/
def headerOf (m : Msg) : Word :=
  m.dstDev ++ srcCoreOf m.dst ++ m.ch ++ m.srcDev ++ m.srcCore ++ m.len ++ BitVec.ofNat 2 (MsgKind.num m.kind)
    ++ BitVec.ofBool m.srcXR ++ BitVec.ofBool m.tagv ++ m.tag

def srcOf (m : Msg) : MsgSrc := ⟨m.srcDev, m.srcXR, m.srcCore⟩
/-- The host node as a sender (R152, R408). -/
def hostAgent : Nat := 4095
/-- The agent that sent a message of this device. -/
def srcAgent (m : Msg) : Nat := if m.srcXR then (if m.srcCore = 0x7FF then hostAgent else 2048 + m.srcCore.toNat) else m.srcCore.toNat

/-- A message from a context's agent. -/
def ctxMsg (s : State) (a : Nat) (kid : BitVec 16) (task : BitVec 32) (pc : Word) (dev : BitVec 6) (dst : Nat) (ch : BitVec 6) (len : Nat)
    (kind : MsgKind) (tag : Option (BitVec 16)) (payload : BitVec 960) (acq : Option Scope) : Msg :=
  { hwMsg s a dst ch len payload kid (agentWorld s a) with
      dstDev := dev, kind := kind, tagv := tag.isSome, tag := tag.getD 0, acq := acq, task := task, pc := pc }

/-! Sending (R155). -/

def sameFlow (x y : Msg) : Bool := x.dstDev == y.dstDev && x.dst == y.dst && x.ch == y.ch

/-- A path leads to a message's device; without one it stays held in its place (R414, R155). -/
def canLeave (s : State) (m : Msg) : Bool := m.dstDev == s.devno || !noPathTo s m.dstDev.toNat

/-- A message enters the network. -/
def dispatchMsg (s : State) (m : Msg) : State :=
  if m.dstDev = s.devno then s.pend (.messageArrive m) else { s with outbox := s.outbox ++ [m] }

def retryFull (s : State) (a : Nat) : Bool := decide (8 ≤ (s.core a).retry.length)

/-- A message takes a place of the retry buffer, and leaves unless an earlier one of its flow is held or no path leads to its device. -/
def sendMsg (s : State) (a : Nat) (m : Msg) : State :=
  let o := s.core a
  let leaves := canLeave s m && !o.retry.any fun e => sameFlow e.msg m && (e.refused || !e.sent)
  let s := s.setCore a { o with retry := o.retry ++ [⟨m, leaves, false, 0⟩] }
  if leaves then dispatchMsg s m else s

/-! Resources at a receiver (R153, R154). -/

/-- The reservations that notices made for one kind of resource. -/
def resvCount (o : Core) (n : Need) : Nat := (o.resv.filter fun r => r.need == n).length
def freeCtx (o : Core) : Option Nat := (List.range 8).find? fun k => (vget o.ctxs k Ctx.reset).st == .free
def arrivalRoom (o : Core) : Bool := decide (o.arrivals.length + resvCount o .start < 16)
def gmuRoom (o : Core) : Bool :=
  if o.gmu.frozen then decide (o.gmu.inq.length + o.gmu.pend.length + resvCount o .gmu < 32) else decide (o.gmu.inq.length + resvCount o .gmu < 16)
def overflowRoom (o : Core) : Bool := decide (o.overflow.length + resvCount o .overflow < 32)

/-- An entry under which an untagged arrival starts a task. -/
def startable (e : BitVec 128) : Bool := Handler.valid e && !Handler.masked e && !Handler.gmu e

/-- Reserve a context with the entry's register demand. -/
def reserveCtx (s : State) (a k : Nat) (e : BitVec 128) : State :=
  s.modCtx a k fun c => { Ctx.reset with st := .reserved, gOpen := 8 * Handler.gdem e, vOpen := 8 * Handler.vdem e, serial := c.serial }

/-- The free context for an entry's demand, if the core has it. -/
def ctxFor (o : Core) (e : BitVec 128) : Option Nat :=
  match freeCtx o with
  | none => none
  | some k => if poolHas o (8 * Handler.gdem e) (8 * Handler.vdem e) then some k else none

/-- Hold an accepted arrival in its context. -/
def holdArrival (s : State) (a k : Nat) (m : Msg) (e : BitVec 128) (level : Option Nat) : State :=
  (s.modCore a fun o => { o with arrivals := o.arrivals ++ [⟨m, e, k, s.now, level⟩] }).pendOnce (.taskStart a)

/-- A fault record of a message (R192, R153, R181): the agent is "message", COORD names the sender. -/
def msgRecord (s : State) (m : Msg) (code sub : BitVec 8) : State := s.record code sub 0x09 0 m.kid m.task (srcAgent m % 4096) 0 m.pc 0 0

/-- A message crosses worlds (R191); the host counts as NS, and the monitor receives from both worlds on ch0, ch1 and ch7. -/
def crossing (s : State) (m : Msg) : Bool :=
  !(m.dst == monitor && (m.ch == 0 || m.ch == 1 || m.ch == 7)) && srcAgent m != monitor
    && m.world != (if m.dst = monitor then true else agentWorld s m.dst)

/-! Tag matching (R180, R181, R293). -/

/-- A posted receive takes a tagged message. -/
def matches_ (p : Posted) (m : Msg) : Bool :=
  let d := p.desc
  m.ch.toNat == bitsOf d 12 7 && m.kid == p.kid
    && (!bit d 14 || m.srcDev.toNat == bitsOf d 31 26)
    && (!bit d 13 || (m.srcCore.toNat == bitsOf d 25 15 && m.srcXR == bit d 6))
    && ((m.tag.toNat ^^^ bitsOf d 63 48) &&& bitsOf d 47 32) == 0

/-- The buffer of a receive still lies within the claim of its context (R293). -/
def bufferOk (s : State) (a : Nat) (p : Posted) : Bool :=
  decide (p.buf + 128 ≤ (s.ctx a p.ctx).claim * wayBytes) && (s.core a).rangeLive p.buf 128 true

/-- A message lands in a posted receive: payload, the sender's acquire, then the header. -/
def deliverTag (s : State) (a : Nat) (p : Posted) (m : Msg) : State :=
  let s := s.modCore a fun o => { o with posted := o.posted.erase p }
  let s := (List.range m.len.toNat).foldl (fun (s : State) i =>
    spWrite s a (p.buf + 8 * i) 8 (m.payload.toNat / 2 ^ (64 * i) % 2 ^ 64)) s
  let s := match m.acq with | some sc => acquire s a sc | none => s
  s.modCtx a p.ctx fun c => c.wG p.reg (headerOf m)

/-- The first posted receive that matches. -/
def postedFor (o : Core) (m : Msg) : Option Posted := o.posted.find? fun p => matches_ p m

/-- The receive that takes a message. A first match whose buffer has left the claim is removed, and the message goes on as one
that nothing matches (R293). -/
def takePosted (s : State) (a : Nat) (m : Msg) : Option Posted × State :=
  match postedFor (s.core a) m with
  | none => (none, s)
  | some p => if bufferOk s a p then (some p, s) else (none, s.modCore a fun o => { o with posted := o.posted.erase p })

/-- The store of a message into its receive waits for an update port of a publisher region (R140). -/
def landBusy (s : State) (m : Msg) : Bool :=
  m.tagv && match (takePosted s m.dst m).1 with | some p => portBusy s m.dst p.buf (8 * m.len.toNat) | none => false

/-! Refusal and service (R154). -/

/-- A refusal adds an entry unless one for its source and channel is there; a full queue records nothing. -/
def refuseMsg (s : State) (a : Nat) (m : Msg) : State × MsgReply :=
  let o := s.core a
  if o.refq.any fun r => r.src == srcOf m && r.ch == m.ch then (s, .refused)
  else if 64 ≤ o.refq.length then (s, .refusedFull)
  else (s.setCore a { o with refq := o.refq ++ [⟨srcOf m, m.ch, m.kind, m.tagv, m.kid⟩] }, .refused)

/-- What a message at the head of the refusal queue needs, and whether `Arrive` would accept it; none for one that it would refuse or
discard. -/
def serveHead (o : Core) (r : RefEntry) : Option (Need × Nat) :=
  let e := vget o.handlers r.ch.toNat 0
  if Handler.valid e && decide (8 ≤ r.ch.toNat) && Handler.kid e != r.kid then none
  else if r.kind == .graph then (if gmuRoom o then some (.gmu, 0) else none)
  else if Handler.valid e && Handler.gmu e then none
  else if r.tagv && (!Handler.valid e || Handler.masked e) then (if overflowRoom o then some (.overflow, 0) else none)
  else if startable e && arrivalRoom o then (ctxFor o e).map fun k => (.start, k)
  else none

/-- The agent that a source names. -/
def MsgSrc.agent (x : MsgSrc) : Nat := if x.xr then (if x.core = 0x7FF then hostAgent else 2048 + x.core.toNat) else x.core.toNat

/-- Serve: while the head would be accepted, reserve what it needs and send its source a notice (R154). -/
def serveN (s : State) (a : Nat) : Nat → State
  | 0 => s
  | n + 1 =>
    let o := s.core a
    match o.refq with
    | [] => s
    | h :: t =>
      match serveHead o h with
      | none => s
      | some (need, k) =>
        let s := if need == .start then reserveCtx s a k (vget o.handlers h.ch.toNat 0) else s
        let s := s.modCore a fun o => { o with refq := t, resv := o.resv ++ [⟨h.src, h.ch, need, k⟩] }
        let src := h.src.agent
        let s := if h.src.dev == s.devno || src == hostAgent then s.pend (.contextFreeNotice src a s.devno h.ch)
          else { s with outbox := s.outbox ++ [{ hwMsg s a src 3 0 0 h.kid (agentWorld s a) with dstDev := h.src.dev }] }
        serveN s a n

def serve (s : State) (a : Nat) : State := serveN s a 64

/-! Arrival (R153). -/

/-- The unused reservation of a message's source and channel. -/
def resvOf (o : Core) (m : Msg) : Option Resv := o.resv.find? fun r => r.src == srcOf m && r.ch == m.ch
def dropResv (s : State) (a : Nat) (r : Resv) : State := s.modCore a fun o => { o with resv := o.resv.erase r }
/-- Give back what an unused reservation holds. -/
def releaseResv (s : State) (a : Nat) (r : Resv) : State :=
  let s := dropResv s a r
  if r.need == .start then s.modCtx a r.ctx fun c => { Ctx.reset with serial := c.serial } else s

/-- Give back a reservation that the arrival does not use. -/
def giveBack (s : State) (a : Nat) : Option Resv → State
  | some r => releaseResv s a r
  | none => s

/-- Serve with what a reservation given back has freed (R154). -/
def served (s : State) (a : Nat) (rv : Option Resv) : State := if rv.isSome then serve s a else s

/-- A graph message reaches the GMU (R64, R72). -/
def gmuTake (s : State) (a : Nat) (m : Msg) : State :=
  (s.modCore a fun o => { o with gmu := { o.gmu with inq := o.gmu.inq ++ [m] } }).pendOnce (.gmuArrive a)

/-- A message that no receive takes, after its reservation: the overflow queue for a tagged one on a channel that starts no task (R181), else
a context of the channel's handler (R153). Where CHWR has rewritten the entry since the notice, the spec does not say which demand applies: the
reservation keeps the demand that it was made with (log 49). -/
def arriveTask (s : State) (m : Msg) (level : Option Nat) (rv : Option Resv) : State × MsgReply :=
  let a := m.dst
  let e := vget (s.core a).handlers m.ch.toNat 0
  if m.tagv && (!Handler.valid e || Handler.masked e) then
    let s' := giveBack s a rv
    if overflowRoom (s'.core a) then (served (s'.modCore a fun o => { o with overflow := o.overflow ++ [m] }) a rv, .accepted)
    else
      let (s', r) := refuseMsg s' a m
      (msgRecord (served s' a rv) m 0x13 0, r)
  else match rv, startable e with
    | some ⟨src, ch, .start, k⟩, true => (holdArrival (dropResv s a ⟨src, ch, .start, k⟩) a k m e level, .accepted)
    | rv, can =>
      let s := giveBack s a rv
      let refused := let (s, r) := refuseMsg s a m; (served s a rv, r)
      if !can || !arrivalRoom (s.core a) then refused
      else match ctxFor (s.core a) e with
        | none => refused
        | some k => (served (holdArrival (reserveCtx s a k e) a k m e level) a rv, .accepted)

/-- The decision at the receiving core; a quiesced device refuses other devices' messages (R234). -/
def arrive (s : State) (m : Msg) (level : Option Nat := none) : State × MsgReply :=
  let a := m.dst
  let o := s.core a
  let e := vget o.handlers m.ch.toNat 0
  let rv := if m.resend then resvOf o m else none
  let freed := served (giveBack s a rv) a rv
  if s.quiesced && m.srcDev != s.devno && srcAgent m != hostAgent then refuseMsg freed a m
  else if crossing s m then (msgRecord freed m 0x0C 0, .discarded)
  else if Handler.valid e && decide (8 ≤ m.ch.toNat) && m.kid != Handler.kid e then (msgRecord freed m 0x07 1, .discarded)
  else if !m.resend && ((o.refq.any fun r => r.src == srcOf m && r.ch == m.ch) || (resvOf o m).isSome) then (s, .refused)
  else if m.kind == .graph then
    match rv with
    | some r => (gmuTake (dropResv s a r) a m, .accepted)
    | none => if gmuRoom o then (gmuTake s a m, .accepted) else refuseMsg s a m
  else if Handler.valid e && Handler.gmu e then (msgRecord freed m 0x07 2, .discarded)
  else
    let (hit, s) := if m.tagv then takePosted s a m else (none, s)
    match hit with
    | some p => (served (deliverTag (giveBack s a rv) a p m) a rv, .accepted)
    | none => arriveTask s m level rv

/-- LEAVE (R269, R160): the scope's registers return to the pool, and the core serves (R154). -/
def execLeave (s : State) : Out :=
  issue .leave s fun c =>
    match c.scopes with
    | [] => raise .leave s 0x01
    | (g, v) :: _ =>
      if scopeLanded s c g v then serve (s.setCur ((closeScope c g v).past .leave)) s.curAgent else waitFor s .retry

/-! The travel of a message (R153 to R155). -/

/-- A retry place of its sender holds the message. -/
def heldBySender (s : State) (m : Msg) : Bool :=
  (s.core (srcAgent m)).retry.any fun e => e.sent && !e.refused && sameFlow e.msg m && e.msg.payload == m.payload && e.msg.tag == m.tag
    && e.msg.kind == m.kind

/-- An earlier message of the flow is still on its way, or has been refused without an entry in the refusal queue and is to be sent again (R151,
R154). -/
def flowAhead (s : State) (m : Msg) : Bool :=
  ((s.core (srcAgent m)).retry.takeWhile fun e => e.msg != m).any fun e =>
    sameFlow e.msg m && ((e.sent && !e.refused && s.pending.contains (.messageArrive e.msg)) || (e.refused && e.due != 0))

/-- A message that hardware posts without a place in a retry buffer waits until it is accepted. -/
def arriveSticky (s : State) (m : Msg) (level : Option Nat := none) : State :=
  match arrive s m level with
  | (s', .accepted) => s'.took
  | (s', .discarded) => s'.took
  | _ => s

/-- A reply to a page-fault message (R217) reaches its channel. -/
def isPageReply (m : Msg) : Bool := m.ch == 2

/-- The priority level of a queued notify (R70): the highest threshold that its residual reaches, in the table of the graph whose record
stands at its core and offset. -/
def notifyLevel (s : State) (n : Notify) : Option Nat :=
  match n.resid, n.cvg with
  | some r, some (a, off) =>
    let m := (s.core a).spad
    let x := ffF32.decode r.toNat
    let hit (i : Nat) : Bool := x.isNan || (let t := ffF32.decode (m.readNat (off + 0x38 + 4 * i) 4); !t.isNan && !x.lt t)
    ((List.range 8).reverse.find? hit).map fun i => min 19 (m.readNat (off + 0x58 + i) 1)
  | _, _ => none

/-- The queued notify that a message stands for: its payload, beyond the words it delivers, names it. -/
def notifyOf (o : Core) (m : Msg) : Option Notify := o.notifies.find? fun n => n.no == m.payload.toNat / 2 ^ 192

/-- The level of a notify message that arrives. The spec does not say when the threshold table is read: the model reads it when the message
reaches its core (log 48). -/
def msgLevel (s : State) (m : Msg) : Option Nat :=
  if m.kind != .notify then none else
  match notifyOf (s.core m.dst) m with | some n => notifyLevel s n | none => none

/-! The shipped firmware of a ridge core (R409): its handlers stand where no program has installed an entry (log 32). -/

def firmwareServes (s : State) (m : Msg) : Bool :=
  isRidge m.dst && (m.ch == 0 || m.ch == 7) && !Handler.valid (vget (s.core m.dst).handlers m.ch.toNat 0)

/-- A message of another source than the host, which the firmware takes once it serves (R413). -/
def firmwareDrops (s : State) (m : Msg) : Bool :=
  firmwareServes s m && s.mgmt.bootst == 3 && srcAgent m != hostAgent && !crossing s m && !(heldBySender s m && flowAhead s m)

/-- On ch0 of a die's ridge core 0 it serves the page-fault and discarded-page messages (R217, R409). What it decides for a page the spec does not say:
the VERDICT of its reply is a free value (log 32). -/
def pageService (s : State) (m : Msg) : State :=
  let p := Packet.ofBits (m.payload.setWidth 512)
  if m.ch ≠ 0 || m.dst % 8 ≠ 0 || m.kind != .system || (p.code ≠ 0x06 && p.code ≠ 0x0B) then s else
  let (v, s) := s.freeBits 8
  let pay := p.task.toNat + p.agent.toNat * 2 ^ 32 + v.toNat * 2 ^ 40 + p.inst.toNat * 2 ^ 48 + p.ia.toNat / 4096 * 4096 * 2 ^ 64
  s.pend (.messageArrive (hwMsg s m.dst p.core.toNat 2 2 (BitVec.ofNat 960 pay) m.kid (agentWorld s m.dst)))

/-- The firmware takes a message: whatever it does not serve is discarded with no effect. -/
def firmwareDone (s : State) (m : Msg) : State :=
  let t := pageService s.took m
  if m.srcDev = s.devno && heldBySender s m then t.pend (.messageReply m .accepted) else t

/-- MESSAGE_ARRIVE (R153): the decision, and its reply to the sender, which for another device's message leaves the model. -/
def execMessageArrive (s : State) : Out :=
  match s.ev with
  | some (.messageArrive m) =>
    if s.quiesced && m.srcDev ≠ s.devno && srcAgent m ≠ hostAgent then answer (State.took (arrive s m).1)
    else if landBusy s m then .next (atPort s m.dst)
    else if isPageReply m && !crossing s m then .next ((s.took.pend (.pageFaultReply m)).pend (.messageReply m .accepted))
    else if m.ch = 3 && !crossing s m then .next (s.took.pend (.messageReply m .accepted))
    else if isRidge m.dst && m.ch == 1 && m.kind == .system then .next ((s.took.pend (.faultPacketArrive m)).pend (.messageReply m .accepted))
    else if firmwareDrops s m then answer (firmwareDone s m)
    else if m.srcDev ≠ s.devno && srcAgent m ≠ hostAgent then answer (State.took (arrive s m).1)
    else if !heldBySender s m && srcAgent m ≠ hostAgent then answer (arriveSticky s m (msgLevel s m))
    else if srcAgent m ≠ hostAgent && flowAhead s m then .next s
    else if srcAgent m = hostAgent && !crossing s m && firmwareServes s m then
      (match firmwareTake s m with
      | none => .next s
      | some s => answer (s.took.pend (.messageReply m .accepted)))
    else
      let (s, r) := arrive s m
      answer (s.took.pend (.messageReply m r))
  | _ => .next s

/-- The oldest held message of a flow, whose turn it is. -/
def flowHead (o : Core) (dst : Nat) (dev ch : BitVec 6) : Option RetryEntry :=
  o.retry.find? fun e => e.msg.dst == dst && e.msg.dstDev == dev && e.msg.ch == ch

/-- It is on its way, and its reply has not come. -/
def RetryEntry.flying (e : RetryEntry) : Bool := e.sent && !e.refused

/-- Send the oldest held message of a flow again, marked as a resend (R155). -/
def resendEntry (s : State) (a : Nat) (e : RetryEntry) : State :=
  let m := { e.msg with resend := true }
  let can := canLeave s m
  let s := s.modCore a fun o => { o with retry := o.retry.map fun x => if x = e then ⟨m, can, false, 0⟩ else x }
  if can then dispatchMsg s m else s

/-- A reply to a sent message among the places of a retry buffer, and the message to send next, where one `can` leave: the oldest one held behind it,
refused before or not yet sent. -/
def replied (l : List RetryEntry) (m : Msg) (r : MsgReply) (now : Nat) (can : Bool) : List RetryEntry × Option Msg :=
  match l.find? fun e => e.sent && !e.refused && e.msg == m with
  | none => (l, none)
  | some e =>
    let gone : List RetryEntry × Option Msg :=
      let l := l.erase e
      match l.find? fun x => sameFlow x.msg m with
      | some x => if (x.sent && !x.refused) || !can then (l, none) else (l.map fun y => if y = x then ⟨x.msg, true, false, 0⟩ else y, some x.msg)
      | none => (l, none)
    match r with
    | .accepted => gone
    | .discarded => gone
    | .refused => (l.map fun x => if x = e then { e with refused := true } else x, none)
    | .refusedFull => (l.map fun x => if x = e then { e with refused := true, due := now + 4096 } else x, none)

/-- MESSAGE_REPLY (R154, R155): acceptance or discard frees the place; a refusal holds it. A full refusal queue starts the resend timer. -/
def execMessageReply (s : State) : Out :=
  match s.ev with
  | some (.messageReply m r) =>
    let s := s.took
    let a := srcAgent m
    let (l, next) := replied (if a = hostAgent then s.hostRetry else (s.core a).retry) m r s.now (canLeave s m)
    let s := if a = hostAgent then { s with hostRetry := l } else s.modCore a fun o => { o with retry := l }
    let s := match next with | some n => dispatchMsg s n | none => s
    .next (if r = .refusedFull then s.pend (.resendTimerExpire a m.dst m.dstDev m.ch) else s)
  | _ => .next s

/-- A held message of the host port for a core and channel. -/
def hostHeld (s : State) (dst : Nat) (ch : BitVec 6) : Option RetryEntry := s.hostRetry.find? fun e => e.refused && e.msg.dst == dst && e.msg.ch == ch

/-- The port resends the oldest message it holds for a core and channel (R408). -/
def hostResend (s : State) (dst : Nat) (ch : BitVec 6) : State :=
  match hostHeld s dst ch with
  | some e =>
    let m := { e.msg with resend := true }
    State.pend { s with hostRetry := s.hostRetry.map fun x => if x = e then ⟨m, true, false, 0⟩ else x } (.messageArrive m)
  | none => s

/-- The port takes a host message: it leaves at once unless an earlier one of its flow is held, or the module is in reset (R413). -/
def hostSend (s : State) (m : Msg) : State :=
  if s.mgmt.held || s.hostRetry.any (fun e => sameFlow e.msg m) then { s with hostRetry := s.hostRetry ++ [⟨m, false, false, 0⟩] }
  else State.pend { s with hostRetry := s.hostRetry ++ [⟨m, true, false, 0⟩] } (.messageArrive m)

/-- The first message of each flow that the port holds unsent leaves. -/
def hostRelease (s : State) : State :=
  s.hostRetry.foldl (fun (s : State) e =>
    if e.sent || (s.hostRetry.find? fun x => sameFlow x.msg e.msg) ≠ some e then s
    else State.pend { s with hostRetry := s.hostRetry.map fun x => if x = e then { x with sent := true } else x } (.messageArrive e.msg)) s

/-- The heads of a core's flows that `p` names are sent again. -/
def resendHeads (s : State) (a : Nat) (p : RetryEntry → Bool) : State :=
  (s.core a).retry.foldl (fun (s : State) e =>
    if p e && flowHead (s.core a) e.msg.dst e.msg.dstDev e.msg.ch = some e then resendEntry s a e else s) s

/-- A path to a device works again: what was never sent to it leaves (R414, R155). -/
def pathBack (s : State) (dev : Nat) : State :=
  let s := { s with noPath := s.noPath.filter fun d => d != dev }
  if noPathTo s dev then s else
  s.cores.foldl (fun (s : State) (q : Nat × Core) => (s.core q.1).retry.foldl (fun (s : State) e =>
    if !e.sent && e.msg.dstDev.toNat == dev && flowHead (s.core q.1) e.msg.dst e.msg.dstDev e.msg.ch = some e then
      dispatchMsg (s.modCore q.1 fun o => { o with retry := o.retry.map fun x => if x = e then { x with sent := true } else x }) e.msg
    else s) s) s

/-- Tell a receiver that a reservation will not be used: the message it was made for is no longer held (R155). -/
def withdrawResv (s : State) (agent dst : Nat) (dev ch : BitVec 6) : State :=
  let m := hwMsg s agent dst ch 0 0 0 false
  if dev = s.devno then s.pend (.withdrawal dst m.srcDev m.srcXR m.srcCore ch)
  else { s with outbox := s.outbox ++ [{ m with dstDev := dev }] }

/-- CONTEXT_FREE_NOTICE (R154, R155): the sender resends its oldest held message of the flow, after the reply to one on its way. The spec does
not say what becomes of the reservation where the sender holds none (its kernel was killed before the notice came): the model withdraws it
(log 49). -/
def execContextFreeNotice (s : State) : Out :=
  match s.ev with
  | some (.contextFreeNotice agent dst dev ch) =>
    if agent = hostAgent then .next (hostResend s.took dst ch)
    else match flowHead (s.core agent) dst dev ch with
      | none => .next (withdrawResv s.took agent dst dev ch)
      | some e => if e.flying then .next s else .next (resendEntry s.took agent e)
  | _ => .next s

/-- RESEND_TIMER_EXPIRE (R154): 4,096 cycles after the refusal reply. -/
def execResendTimerExpire (s : State) : Out :=
  match s.ev with
  | some (.resendTimerExpire agent dst dev ch) =>
    if agent = hostAgent then
      (match hostHeld s dst ch with
      | none => .next s.took
      | some e => if s.now < e.due then .next s else .next (hostResend s.took dst ch))
    else match flowHead (s.core agent) dst dev ch with
    | none => .next s.took
    | some e => if e.flying then .next s.took else if s.now < e.due then .next s else .next (resendEntry s.took agent e)
  | _ => .next s

/-- WITHDRAWAL (R155): the receiver releases the reservation, and serves. -/
def execWithdrawal (s : State) : Out :=
  match s.ev with
  | some (.withdrawal dst dev xr core ch) =>
    let s := s.took
    match (s.core dst).resv.find? fun r => r.src == ⟨dev, xr, core⟩ && r.ch == ch with
    | some r => .next (serve (releaseResv s dst r) dst)
    | none => .next (serve s dst)
  | _ => .next s

/-- LOAD_LAND (R161, R273): a value reaches its register. -/
def execLoadLand (s : State) : Out :=
  match s.ev with
  | some (.loadLand l) => .next (landValue s.took l)
  | _ => .next s

end Sys2Proof.Machine
end

