-- ==== Sys2Proof/Machine/Futures.lean ====
section
/-! DEFINITION. Futures and continuation records (R170 to R173, R299). -/

namespace Sys2Proof.Machine

/-- Who resolves or registers, for records (R171, R211). -/
structure Who where
  agent : BitVec 8
  inst  : Nat
  core  : Nat
  task  : BitVec 32
  kid   : BitVec 16
  pc    : Word
  stage : BitVec 4
  deriving DecidableEq, Repr

def ctxWho (s : State) : Who :=
  let c := s.cur
  ⟨0, 0, s.curAgent, c.task, c.kid, c.pc, c.stage⟩

/-- A record for the kernel of whom it concerns. -/
def Who.record (w : Who) (s : State) (code sub : BitVec 8) (va ia : Word) (pa : Nat) : State :=
  s.record code sub w.agent w.inst w.kid w.task w.core w.stage w.pc va ia 0 pa

/-! Addresses (R170, R171). -/

/-- The path of a future (R170): aligned, in no local window, on a REL or SEQ page of this device. -/
def futurePath (s : State) (x : Acc) (va : Word) (k : AKind := .at) : Res Path :=
  if addrPart va % 16 ≠ 0 then faultAt 0x04 va
  else if 0xF0 ≤ addrPart va / 2 ^ 48 then faultAt 0x08 va
  else match resolve s x va 16 16 k .future with
    | .error e => .error e
    | .ok (.mem ia pa ty disc) => .ok (.mem ia pa ty disc)
    | .ok _ => faultAt 0x08 va

/-- The IA that a future's path names. -/
def Path.ia (p : Path) : Word := match p with | .mem ia _ _ _ => BitVec.ofNat 64 ia | _ => 0

/-- The continuation pool of a kernel: base and count (R194). -/
def poolOf (s : State) (kid : BitVec 16) : Nat × Nat :=
  match s.ktIndex kid with
  | none => (0, 0)
  | some n =>
    let hi := (vget s.kt n (0, 0)).2
    let b := bitsOf hi 55 6 * 64
    (b, if b = 0 then 0 else 2 ^ bitsOf hi 4 0)

/-- The window set of a KID on a core (R195). -/
def windowSet (o : Core) (kid : BitVec 16) : Vector Window 4 :=
  match o.wsets.toList.find? fun w => w.kid == kid with | some w => w.win | none => Vector.replicate 4 Window.reset

/-- Accesses to a kernel's records, through its windows on the ridge core that serves it, in the kernel's world (R171). The monitor's exemption of
R191 does not serve a kernel's record: where it serves the kernel, the access is as from the ridge core beside it. -/
def kernelAcc (s : State) (kid : BitVec 16) : Acc :=
  let a := s.faultAgent kid
  let w := match s.ktIndex kid with | some n => bit (vget s.kt n (0, 0)).1 62 | none => true
  { agent := if a = monitor then ridgeAgent 0 6 else a, ctx := 0, task := 0, kid := kid, world := w, win := windowSet (s.core a) kid
    claim := 0, pc := 0, stage := 0, eng := none }

def recordVa (s : State) (kid : BitVec 16) (i : Nat) : Word := BitVec.ofNat 64 ((poolOf s kid).1 + 64 * i)

/-- The path of a record: REL or SEQ, of this device. -/
def recordPath (s : State) (kid : BitVec 16) (i : Nat) : Res Path :=
  let va := recordVa s kid i
  match resolve s (kernelAcc s kid) va 64 64 .at .future with
  | .error e => .error e
  | .ok (.mem ia pa ty disc) => .ok (.mem ia pa ty disc)
  | .ok _ => faultAt 0x08 va

/-! Fields of a record as a 512-bit number. -/

def recLink (r : Nat) (j : Nat) : Nat := r / 2 ^ (128 + 32 * j) % 2 ^ 32
def recJcnt (r : Nat) : Nat := r / 2 ^ 64 % 256
def setRec (r hi lo v : Nat) : Nat := (putBits (BitVec.ofNat 512 r) hi lo v).toNat
/-- Complete: BAD[j] := bad, JCNT := JCNT - 1. -/
def recComplete (r j : Nat) (bad : Bool) : Nat := setRec (setRec r (96 + j) (96 + j) bad.toNat) 71 64 (recJcnt r + 255)

/-- The message of a record whose count reaches 0 (R172, R173). The spec gives no outcome for a CORE of 2,048 or more, or a CH above 63: the
model takes CORE modulo 2,048 and CH modulo 64 (log 50). -/
def continuation (s : State) (w : Who) (i r : Nat) : Msg :=
  let payload := r / 2 ^ 320 % 2 ^ 128 + i * 2 ^ 128 + r / 2 ^ 96 % 2 ^ 32 * 2 ^ 160
  { hwMsg s w.core (r / 2 ^ 80 % 2048) (BitVec.ofNat 6 (r / 2 ^ 72 % 64)) 3 (BitVec.ofNat 960 payload) w.kid (kernelAcc s w.kid).world with
      kind := .task, acq := some .dev, task := w.task, pc := w.pc }

/-- Where the home of a list keeps the link behind one of a kernel (R171): a record that its home does not reach ends no list. -/
def linkKey (kid : BitVec 16) (link : Nat) : Nat := kid.toNat * 2 ^ 32 + link

/-- The next link after a record: read there where a translation reaches it, even where its completion is dropped, and as it was
registered elsewhere (log 51). -/
def linkAfter (s : State) (kid : BitVec 16) (link : Nat) : Nat :=
  let x := kernelAcc s kid
  let a := addrPart (recordVa s kid (link / 4))
  let kept := s.links.getD (linkKey kid link) 0xFFFFFFFF
  match findWindow x.win a with
  | none => kept
  | some w => match leaf s (w.ia a) with
    | .error _ => kept
    | .ok e => recLink (homeLine s (Pte.pfn e * 4096 + w.ia a % 4096)).toNat (link % 4)

/-- The message of a page fault at a continuation record, which the ridge core that serves the kernel has answered (R171, R217). -/
def recordFaultMsg (s : State) (w : Who) (code sub : BitVec 8) (va : Word) (ia : Nat) : Msg :=
  pageFaultMsg s { kernelAcc s w.kid with agent := s.faultAgent w.kid, pc := w.pc, task := w.task, stage := w.stage } code sub va ia

/-- A completion that waits. -/
def Who.held (w : Who) (link : Nat) (bad : Bool) (ia : Nat) (fault : Option (BitVec 8 × BitVec 8)) : Completion :=
  ⟨w.kid, link / 4, link % 4, bad, ia / 4096 * 4096, w.agent, w.inst, w.core, w.task, w.pc, w.stage, fault⟩

/-- `Complete` on one link: one indivisible update at the record's home; a failure drops it with a record (R171). False where it waits. -/
def completeLink (s : State) (w : Who) (link : Nat) (bad : Bool) : State × Bool :=
  let wait (s : State) (ia : Nat) (f : Option (BitVec 8 × BitVec 8)) : State := { s with completions := s.completions ++ [w.held link bad ia f] }
  match recordPath s w.kid (link / 4) with
  | .ok p =>
    let (old, s) := atomicPath s (kernelAcc s w.kid) p 64 .dev fun r => some (recComplete r (link % 4) bad)
    let new := recComplete old (link % 4) bad
    (if recJcnt new = 0 then s.pend (.messageArrive (continuation s w (link / 4) new)) else s, true)
  | .error (.page code sub ia) =>
    ((wait s ia (some (code, sub))).pend (.pageFaultPost (recordFaultMsg s w code sub (recordVa s w.kid (link / 4)) ia)), false)
  | .error (.moved page) => (wait s (page * 4096) none, false)
  | .error (.shared page) => (wait (askOwn s (kernelAcc s w.kid) page) (page * 4096) none, false)
  | .error (.fault f) => (Who.record w s f.code f.sub f.va f.ia f.pa, true)
  | .error (.busy _) => (s, true)

/-- Complete every link of a list, in list order; a page fault makes the rest wait with it. -/
def completeList (s : State) (w : Who) (bad : Bool) : Nat → Nat → State
  | 0, _ => s
  | n + 1, link =>
    if link = 0xFFFFFFFF then s else
    let next := linkAfter s w.kid link
    match completeLink s w link bad with
    | (s, true) => completeList s w bad n next
    | (s, false) => s

/-- Links a kernel's pool can hold. -/
def listFuel (s : State) (kid : BitVec 16) : Nat := 4 * (poolOf s kid).2 + 4

/-- A completion that waited goes on, with the rest of its list. -/
def Completion.who_ (c : Completion) : Who := ⟨c.who, c.inst, c.agent, c.task, c.kid, c.pc, c.stage⟩
def Completion.resume (c : Completion) (s : State) : State :=
  completeList s c.who_ c.bad (listFuel s c.kid) (4 * c.idx + c.slot)

/-! The operations at a future's home (R172). -/

def futState (f : Nat) : Nat := f % 4
def futClist (f : Nat) : Nat := f / 2 ^ 32 % 2 ^ 32
def futEmpty : Nat := 0xFFFFFFFF

/-- The home answers every task that waits at a future: an acquire at `dev`, and its STATE (R172, R173). -/
def futureAnswered (s : State) (ia : Word) (st : Nat) : State :=
  s.cores.foldl (fun (s : State) (q : Nat × Core) => (List.range 8).foldl (fun (s : State) k =>
    match (s.ctx q.1 k).wait with
    | some ⟨.future w d n, _, _⟩ => if w = ia then (acquire s q.1 .dev).complete q.1 k n fun c => c.wG d (BitVec.ofNat 64 st) else s
    | _ => s) s) s

/-- Resolve a future, with its value or without: state 1 resolved, 2 faulted, 3 cancelled. False where it is not pending. -/
def resolveFuture (s : State) (x : Acc) (p : Path) (w : Who) (val : Option Nat) (st : Nat) : State × Bool :=
  let (old, s) := atomicPath s x p 16 .dev fun f =>
    if futState f = 0 then
      some (f % 2 ^ 32 / 4 * 4 + st + futEmpty * 2 ^ 32 + (match val with | some v => v % 2 ^ 64 | none => f / 2 ^ 64 % 2 ^ 64) * 2 ^ 64)
    else none
  if futState old ≠ 0 then (s, false) else
  let s := futureAnswered s p.ia (old % 2 ^ 32 / 4 * 4 + st)
  (completeList s w (st != 1) (listFuel s w.kid) (futClist old), true)

/-- A future operation of a context: its address, its release or acquire at `dev`, and the operation at the home. FWAIT, which writes
nothing there, needs the permission of a load. -/
def futureOp (i : Instr) (s : State) (va : Word) (rel : Bool) (go : Path → State → State) : State :=
  match futurePath s (curAcc s) va (if rel then .at else .rd) with
  | .error e => refuse i s va e
  | .ok p =>
    let s := taintAcquire s (match i.roles.find? fun r => r.src with | some r => s.cur.taintR r | none => false)
    if rel then releaseThen s .dev (go p) else go p s

/-- The fault 0x10 of a future in the wrong state carries its VA and IA (R398). -/
def notPending (i : Instr) (s : State) (va : Word) (p : Path) : State := faultCur i s { code := 0x10, va := va, ia := p.ia }

/-- FREG (R299, R172). -/
def execFreg (o : OFreg) (s : State) : Out :=
  issue (.freg o) s fun c =>
    let i : Instr := .freg o
    let n := (c.rG o.b).toNat
    let j := o.j.toNat
    futureOp i s (c.rG o.a) true fun p s =>
      if (poolOf s c.kid).2 ≤ n then raise i s 0x02 else
      match recordPath s c.kid n with
      | .error (.fault f) => done i (Who.record (ctxWho s) s f.code f.sub f.va f.ia f.pa)
      | .error (.page code sub ia) =>
        waitFor (s.pend (.pageFaultPost (recordFaultMsg s (ctxWho s) code sub (recordVa s c.kid n) ia)))
          (.page (recordVa s c.kid n) (BitVec.ofNat 64 ia) code sub 0 false)
      | .error e => refuse i s (recordVa s c.kid n) e
      | .ok q =>
        let x := curAcc s
        let k := kernelAcc s c.kid
        let (r, s) := atomicPath s k q 64 .dev fun _ => none
        if r / 2 ^ (100 + j) % 2 = 1 || recJcnt r = 0 then raise i s 0x02 else
        let link := 4 * n + j
        let (f, s) := atomicPath s x p 16 .dev fun f =>
          let reg := min 16383 (f / 4 % 2 ^ 14 + 1)
          let f' := f / 2 ^ 16 * 2 ^ 16 + reg * 4 + f % 4
          some (if futState f = 0 then f' / 2 ^ 64 * 2 ^ 64 + link * 2 ^ 32 + f' % 2 ^ 32 else f')
        let (_, s) := atomicPath s k q 64 .dev fun r =>
          let r := setRec r (100 + j) (100 + j) 1
          some (if futState f = 0 then setRec r (128 + 32 * j + 31) (128 + 32 * j) (futClist f) else r)
        let s := if futState f = 0 then { s with links := s.links.set (linkKey c.kid link) (futClist f) } else s
        let s := if futState f = 0 then s else (completeLink s (ctxWho s) link (futState f != 1)).1
        done i s

/-- FRES (R299, R172): a future that is not pending is a fault 0x10 in the resolving task. -/
def execFres (o : OAB) (s : State) : Out :=
  issue (.fres o) s fun c =>
    futureOp (.fres o) s (c.rG o.a) true fun p s =>
      match resolveFuture s (curAcc s) p (ctxWho s) (some (c.rG o.b).toNat) 1 with
      | (s, true) => done (.fres o) s
      | (s, false) => notPending (.fres o) s (c.rG o.a) p

/-- FCANCEL (R299, R172): no effect on a future that is not pending. -/
def execFcancel (o : OA) (s : State) : Out :=
  issue (.fcancel o) s fun c =>
    futureOp (.fcancel o) s (c.rG o.a) true fun p s =>
      done (.fcancel o) (resolveFuture s (curAcc s) p (ctxWho s) none 3).1

/-- FRESET (R299, R172): a pending future is a fault 0x10. -/
def execFreset (o : OA) (s : State) : Out :=
  issue (.freset o) s fun c =>
    futureOp (.freset o) s (c.rG o.a) true fun p s =>
      let (f, s) := atomicPath s (curAcc s) p 16 .dev fun f =>
        if futState f = 0 then none
        else some (f / 2 ^ 64 * 2 ^ 64 + futEmpty * 2 ^ 32 + (f / 2 ^ 16 % 2 ^ 16 + 1) % 2 ^ 16 * 2 ^ 16)
      if futState f = 0 then notPending (.freset o) s (c.rG o.a) p else done (.freset o) s

/-- The future's bytes at its home; on a discarded page zeros (R112). -/
def futureRead (s : State) (p : Path) : Nat × State :=
  match p with
  | .mem _ _ _ true => (0, s)
  | p => atomicPath s (curAcc s) p 16 .dev fun _ => none

/-- FWAIT (R299, R172, R173): waits while pending, then an acquire at `dev`. -/
def execFwait (o : OFwait) (s : State) : Out :=
  issue (.fwait o) s fun c =>
    futureOp (.fwait o) s (c.rG o.a) false fun p s =>
      let (f, s) := futureRead s p
      if futState f = 0 then waitFor s (.future p.ia o.d (Instr.bytes (.fwait o))) (c.rG o.c).toNat
      else
        let s := acquire s s.curAgent .dev
        s.setCur ((s.cur.wG o.d (BitVec.ofNat 64 (f % 2 ^ 32))).past (.fwait o))

end Sys2Proof.Machine
end

