-- ==== Sys2Proof/Machine/EngineOps.lean ====
section
/-! DEFINITION. What the engines share: issuers and accesses (R343, R417), sync words (R94, R95), completion actions (R114), engine faults,
the matrix lease (R165, R328), broken pipelines (R187), near-bank descriptors (R338), and stopping a task's commands (R214). -/

namespace Sys2Proof.Machine

/-! Who (R211, R326). -/

/-- The issuer part of a command of the current context. -/
def issuerOf (s : State) : Issuer :=
  let c := s.cur
  { agent := s.curAgent, ctx := s.curCtx, task := c.task, kid := c.kid, world := agentWorld s s.curAgent, prio := c.prio
    priv := c.priv, pc := c.pc, stage := c.stage, claim := c.claim, win := c.win }

def engCode (e : Engine) : BitVec 8 :=
  match e with
  | .matrix _ => 1
  | .nearBank _ _ => 2
  | .copy _ => 3
  | .gather _ _ => 4
  | .tileWalk _ => 5
  | .coll _ _ => 6
  | .gmu _ => 7
  | .launch _ => 8

def engInst (e : Engine) : Nat :=
  match e with
  | .matrix k => k
  | .nearBank st u => st * 64 + u
  | .copy k => k
  | .gather d sl => d * 64 + sl
  | .tileWalk k => k
  | .coll d sl => d * 64 + sl
  | .gmu _ => 0
  | .launch d => d

/-- The die an engine stands on. -/
def engDie (e : Engine) : Nat :=
  match e with
  | .matrix k => cluDie k
  | .nearBank st _ => st / 4
  | .copy k => cluDie k
  | .gather d _ => d
  | .tileWalk k => cluDie k
  | .coll d _ => d
  | .gmu a => agentDie a
  | .launch d => d

def Issuer.acc (i : Issuer) (e : Engine) : Acc :=
  { agent := i.agent, ctx := i.ctx, task := i.task, kid := i.kid, world := i.world, win := i.win, claim := i.claim, pc := i.pc
    stage := i.stage, eng := some (engCode e, engInst e) }

def Issuer.who (i : Issuer) (e : Engine) : Who := ⟨engCode e, engInst e, i.agent, i.task, i.kid, i.pc, i.stage⟩

/-- A halt group holds an engine (R223). -/
def engHalted (s : State) (e : Engine) : Bool :=
  match e with
  | .matrix k =>
    match (s.clu k).haltMx, (s.clu k).cmds.find? MxEntry.inArray with
    | none, _ => false
    | some _, none => true
    | some n, some e => decide (n ≤ e.no)
  | .nearBank st u => s.haltNb.contains (st * 64 + u)
  | .copy k => (s.clu k).haltCe
  | .gather d sl => (s.die d).haltGat.getLsbD sl
  | .tileWalk k => (s.clu k).haltTw
  | .coll d sl => (s.die d).haltColl.getLsbD sl
  | _ => false

/-- An engine stands still: its die is stopped, it waits for a page (R217), or its fault is on the way. -/
def engStopped (s : State) (e : Engine) : Bool :=
  let d := s.die (engDie e)
  !d.running || d.stopped || (s.engWaits.any fun w => w.agent == engCode e && w.inst == engInst e)
    || s.pending.any fun ev => match ev with | .engineFault f _ => f == e | _ => false

/-- The number under which the power arbiter accounts for a cluster or a near-bank unit (R12, R200). -/
def powerUnit (e : Engine) : Option Nat := match e with | .matrix k => some k | .nearBank st u => some (256 + st * 64 + u) | _ => none

/-- The arbiter pauses a kernel's work in an array or a near-bank unit until the next interval (R201). -/
def powerPaused (s : State) (e : Engine) (kid : BitVec 16) : Bool := match powerUnit e with | some u => shortOf s u kid | none => false

/-- An engine makes no progress: it stands still, a halt group holds it, or the arbiter pauses the array's active command. -/
def engBlocked (s : State) (e : Engine) : Bool :=
  engStopped s e || engHalted s e
    || (match e with
      | .matrix k => (match (s.clu k).cmds.find? MxEntry.inArray with | some c => powerPaused s e c.iss.kid | none => false)
      | _ => false)

/-! Accesses of any length, line by line. -/

/-- The pieces of `n` bytes at `a` that lie in one line each: offset from `a`, length. -/
def linePieces (a n : Nat) : Nat → Nat → List (Nat × Nat)
  | 0, _ => []
  | f + 1, o =>
    if n ≤ o then [] else
    let k := min (n - o) (64 - (a + o) % 64)
    (o, k) :: linePieces a n f (o + k)

def linesOf (va : Word) (n : Nat) : List (Nat × Nat) := linePieces (addrPart va) n (n / 64 + 2) 0

/-- A refused piece, with its address. -/
abbrev RangeRes := Except (Word × AErr)

/-- The paths of a range, each piece checked in order. -/
def rangePaths (s : State) (x : Acc) (k : AKind) (va : Word) : List (Nat × Nat) → RangeRes (List (Path × Nat))
  | [] => .ok []
  | (o, n) :: t =>
    match addAddr va o with
    | none => .error (va, .fault { code := 0x0D, va := va })
    | some a =>
      let need := if k == .wr && addrPart a % 8 = 0 && n % 8 = 0 then TyNeed.wsoStore else .any
      match resolve s x a n 1 k need with
      | .error e => .error (a, e)
      | .ok p =>
        if portHeld s p n k then .error (a, .busy (portOf p)) else
        match rangePaths s x k va t with
        | .error e => .error e
        | .ok ps => .ok ((p, n) :: ps)

/-- Read a range as one read. -/
def engRead (s : State) (x : Acc) (va : Word) (n : Nat) : RangeRes (Nat × State) :=
  match rangePaths s x .rd va (linesOf va n) with
  | .error e => .error e
  | .ok ps =>
    let (v, _, s) := ps.foldl (fun (r : Nat × Nat × State) (q : Path × Nat) =>
      let (v, o, s) := r
      let (b, s) := homeRead s x q.1 q.2
      (v + b * 2 ^ (8 * o), o + q.2, s)) (0, 0, s)
    .ok (v, s)

/-- Write a range to the destination's home (R114). -/
def engWrite (s : State) (x : Acc) (va : Word) (n v : Nat) : RangeRes State :=
  match rangePaths s x .wr va (linesOf va n) with
  | .error e => .error e
  | .ok ps =>
    .ok (ps.foldl (fun (r : Nat × State) (q : Path × Nat) =>
      (r.1 / 2 ^ (8 * q.2), homeWrite r.2 x q.1 q.2 (r.1 % 2 ^ (8 * q.2)))) (v, s)).2

/-- The first refusal among several writes. -/
def rangesRefused (s : State) (x : Acc) : List (Word × Nat × Nat) → Option (Word × AErr)
  | [] => none
  | (va, n, _) :: t => match rangePaths s x .wr va (linesOf va n) with | .error e => some e | .ok _ => rangesRefused s x t

/-- Write several ranges, in order, once every one of them has been checked. -/
def engWriteAll (s : State) (x : Acc) (l : List (Word × Nat × Nat)) : RangeRes State :=
  match rangesRefused s x l with
  | some e => .error e
  | none => .ok (l.foldl (fun (s : State) (q : Word × Nat × Nat) => match engWrite s x q.1 q.2.1 q.2.2 with | .ok s => s | .error _ => s) s)

/-! Sync words (R94, R95). -/

def swTarget (w : Nat) : Nat := w % 2 ^ 32
def swCount (w : Nat) : Nat := w / 2 ^ 32 % 2 ^ 32
def swGen (w : Nat) : Nat := w / 2 ^ 64 % 2 ^ 32
def swFlags (w : Nat) : Nat := w / 2 ^ 96 % 2 ^ 32
def swPack (target count gen flags : Nat) : Nat := target + count * 2 ^ 32 + gen * 2 ^ 64 + flags * 2 ^ 96

/-- SyncAdd of R95. -/
def syncAddVal (w n : Nat) : Nat :=
  let c := swCount w + n
  if swTarget w = 0 then swPack 0 (c % 2 ^ 32) (swGen w) (if 2 ^ 32 ≤ c then swFlags w ||| 2 else swFlags w)
  else if c < swTarget w then swPack (swTarget w) c (swGen w) (swFlags w)
  else swPack (swTarget w) ((c - swTarget w) % 2 ^ 32) ((swGen w + 1) % 2 ^ 32) (if swTarget w < c then swFlags w ||| 1 else swFlags w)

/-- A sync word lies in a core scratchpad, 16-aligned (R343). -/
def syncPath (s : State) (x : Acc) (va : Word) (k : AKind := .at) : RangeRes (Nat × Nat) :=
  let top := addrPart va / 2 ^ 48
  if addrPart va % 16 ≠ 0 then .error (va, .fault { code := 0x04, va := va })
  else if top ≠ 0xF0 && top ≠ 0xF1 then .error (va, .fault { code := 0x05, va := va })
  else match resolve s x va 16 16 k with
  | .error e => .error (va, e)
  | .ok (.scratch a off) => if k == .at && portBusy s a off 16 then .error (va, .busy a) else .ok (a, off)
  | .ok _ => .error (va, .fault { code := 0x05, va := va })

/-- Add `n` bytes to a sync word; a zero address names none. -/
def syncAdd (s : State) (x : Acc) (va : Word) (n : Nat) : RangeRes State :=
  if va = 0 then .ok s else
  match syncPath s x va with
  | .error e => .error e
  | .ok (a, off) => .ok (spWrite s a off 16 (syncAddVal ((s.core a).spad.readNat off 16) n))

/-- The check of a sync word at issue (R343), none for a word or an absent one that passes. -/
def syncCheck (s : State) (va : Word) : Option (BitVec 8) :=
  if va = 0 then none else
  match syncPath s (curAcc s) va with
  | .error (_, .fault f) => some f.code
  | _ => none

/-! Completion futures (R158, R170, R343). -/

/-- The check of a future's address at issue: alignment, window, permission. -/
def futCheck (win : Vector Window 4) (va : Word) : Option (BitVec 8) :=
  let a := addrPart va
  if va = 0 then none
  else if a % 16 ≠ 0 then some 0x04
  else if 0xF0 ≤ a / 2 ^ 48 then some 0x08
  else match findWindow win a with
    | none => some 0x05
    | some w => if w.allows .wr then none else some 0x07

/-- An engine's or a launch's completion resolves a future by IA; a future that is not pending, or a fault at its home, gives a record
(R172, R158, R343). One whose frame is moving, or whose page must be owned first, is held (R132, R129). -/
def engineResolve (s : State) (i : Issuer) (e : Engine) (ia : Nat) (val : Option Nat) (st : Nat) : State :=
  let iaw := BitVec.ofNat 64 ia
  let x := i.acc e
  let w := i.who e
  let hold (s : State) : State := { s with heldRes := s.heldRes ++ [⟨i, e, ia, val, st⟩] }
  match resolveIa s x 0 ia .at .future 16 with
  | .ok (.mem ia pa ty disc) =>
    match resolveFuture s x (.mem ia pa ty disc) w val st with
    | (s, true) => s
    | (s, false) => Who.record w s 0x10 0 0 iaw 0
  | .ok _ => Who.record w s 0x08 0 0 iaw 0
  | .error (.fault f) => Who.record w s f.code f.sub 0 iaw f.pa
  | .error (.page code sub _) => Who.record w s code sub 0 iaw 0
  | .error (.moved _) => hold s
  | .error (.shared page) => hold (askOwn s x page)
  | .error (.busy _) => s

/-- What was held for the `n` pages from `page` goes on: their frames have moved, or this device owns them again. -/
def retryHeld (s : State) (page n : Nat) : State :=
  let mine (ia : Nat) : Bool := decide (page ≤ ia / 4096) && decide (ia / 4096 < page + n)
  let rs := s.heldRes.filter fun h => mine h.ia
  let cs := s.completions.filter fun c => c.fault.isNone && mine c.ia
  let s := { s with heldRes := s.heldRes.filter fun h => !mine h.ia
                    completions := s.completions.filter fun c => c.fault.isSome || !mine c.ia }
  let s := rs.foldl (fun (s : State) h => engineResolve s h.iss h.eng h.ia h.val h.st) s
  cs.foldl (fun (s : State) c => c.resume s) s

/-- Resolve a command's future: state 1 resolved, 2 faulted. -/
def engFuture (s : State) (i : Issuer) (e : Engine) (fut : Word) (val : Option Nat) (st : Nat) : State :=
  if fut = 0 then s else
  match findWindow i.win (addrPart fut) with
  | none => s
  | some w => engineResolve s i e (w.ia (addrPart fut)) val st

/-! Engine faults (R343, R192, R217). -/

/-- The record of an engine's fault, with the physical address of a world violation and the number of a near-bank unit's command, which it carries until
it is sent. -/
def engPacket (s : State) (i : Issuer) (e : Engine) (f : FInfo) (cmd : Nat := 0) : Packet :=
  { code := f.code, agent := engCode e, sub := f.sub, noctx := true, ctx := BitVec.ofNat 3 i.ctx, task := i.task, kid := i.kid
    stage := i.stage, core := agentNum i.agent, info := f.info, inst := BitVec.ofNat 16 (engInst e), pc := i.pc, va := f.va, ia := f.ia
    time := s.time, insn := BitVec.ofNat 128 (f.pa * 2 ^ 64 + cmd % 2 ^ 64) }

/-- An engine's access is refused: a fault stops the command, a page fault makes the engine wait for the reply. -/
def engRefused (s : State) (i : Issuer) (e : Engine) (va : Word) (err : AErr) (cmd : Nat := 0) : State :=
  match err with
  | .fault f => s.pend (.engineFault e (engPacket s i e f cmd))
  | .page code sub ia =>
    State.pend { s with engWaits := s.engWaits ++ [⟨engCode e, engInst e, i.task, i.kid, ia / 4096 * 4096, code, sub, cmd⟩] }
      (.pageFaultPost (pageFaultMsg s (i.acc e) code sub va ia))
  | .busy a => atPort s a
  | .moved _ => s
  | .shared page => askOwn s (i.acc e) page

/-- The flags of a command join the issuer's FLAGS while its task lives (R38). -/
def joinFlags (s : State) (i : Issuer) (fl : Word) : State :=
  match s.findTask i.task with | some (a, k) => s.modCtx a k fun c => c.orFlags fl | none => s

/-! The matrix lease (R165, R328). -/

/-- The array whose lease has passed to another kernel is cleared, once every issued command is complete. -/
def arrayPass (s : State) (k : Nat) : State :=
  let c := s.clu k
  if !c.lease.due || !c.cmds.isEmpty then s else
  s.setClu k { c with bufA := [], bufB := [], tiles := Vector.replicate 8 ⟨none, []⟩, stgerr := false, lease := { c.lease with due := false } }

/-- The order of grants among waiters: effective priority, the core granted least recently, the lowest core among those never granted,
the lowest context. The spec's 'lowest core index' leaves open which number a waiter of a fused partner cluster has: the model compares device-wide
core numbers (DESIGN CHOICE, log 56). -/
def leaseBefore (s : State) (l : Lease) (p q : Nat × Nat) : Bool :=
  let pp := (s.ctx p.1 p.2).prio
  let pq := (s.ctx q.1 q.2).prio
  let gp := l.granted.getD p.1 0
  let gq := l.granted.getD q.1 0
  if pp ≠ pq then decide (pq.toNat < pp.toNat)
  else if gp ≠ gq then decide (gp < gq)
  else if p.1 ≠ q.1 then decide (p.1 < q.1)
  else decide (p.2 < q.2)

def leaseBest (s : State) (l : Lease) : Option (Nat × Nat) :=
  l.waiters.foldl (fun (b : Option (Nat × Nat)) p => match b with | none => some p | some q => some (if leaseBefore s l p q then p else q)) none

/-- A grant of 16 commands or 65,536 cycles begins. -/
def leaseGrant (s : State) (k : Nat) (p : Nat × Nat) : State :=
  let c := s.clu k
  let l := c.lease
  let n := l.granted.foldl (fun m (q : Nat × Nat) => max m q.2) 0
  let kid := (s.ctx p.1 p.2).kid
  let l := { l with holder := some p, kid := kid, due := l.due || l.kid != kid, fuse := none, left := 16, since := s.now, waiters := l.waiters.erase p, lapsed := l.lapsed.erase p
                    granted := l.granted.set p.1 (n + 1) }
  arrayPass ((s.setClu k { c with lease := l }).pendOnce (.leaseGrantExpire k)) k

/-- A free lease goes to the best waiter. -/
def leaseNext (s : State) (k : Nat) : State :=
  let l := (s.clu k).lease
  match l.holder, leaseBest s l with
  | none, some p => leaseGrant s k p
  | _, _ => s

/-- A task lets go of the lease, and of its place among the waiters. -/
def leaseDrop (s : State) (k : Nat) (p : Nat × Nat) : State :=
  let s := s.modClu k fun c => { c with lease := { c.lease with
    holder := if c.lease.holder = some p then none else c.lease.holder
    fuse := if c.lease.holder = some p then none else c.lease.fuse
    waiters := c.lease.waiters.erase p
    lapsed := c.lease.lapsed.erase p } }
  leaseNext s k

/-- A task leaves every lease that it holds, waits for or has lost (R165, R334). -/
def leaseLeave (s : State) (p : Nat × Nat) : State :=
  (s.clusters.filter fun (q : Nat × Cluster) => q.2.lease.holder == some p || q.2.lease.waiters.contains p || q.2.lease.lapsed.contains p).foldl
    (fun (s : State) q => leaseDrop s q.1 p) s

/-- The end of a grant: it renews unless another task waits. -/
def leaseEnd (s : State) (k : Nat) : State :=
  let c := s.clu k
  match c.lease.holder with
  | none => s
  | some p =>
    if c.lease.waiters.isEmpty then
      (s.setClu k { c with lease := { c.lease with left := 16, since := s.now } }).pendOnce (.leaseGrantExpire k)
    else leaseNext (s.setClu k { c with lease := { c.lease with holder := none, fuse := none, lapsed := p :: c.lease.lapsed } }) k

/-- The neighbouring cluster of a fused command (R334). -/
def fusePartner (k : Nat) : Nat := if k % 2 = 0 then k + 1 else k - 1

/-! Broken pipelines (R187). -/

/-- The clusters of a rectangle (X0, Y0, W, H) of a die, cy ascending, then cx. -/
def rectClusters (die : Nat) (r : Nat × Nat × Nat × Nat) : List Nat :=
  let (x0, y0, w, h) := r
  (List.range h).flatMap fun j => (List.range w).map fun i => die * 64 + (y0 + j) * 8 + x0 + i

/-- A blocked context's instruction faults: it leaves every queue. -/
def failWaiter (s : State) (a k : Nat) (f : FInfo) : State := takeFault (dropWaits s a k) a k f (insnAt s a k)

/-- Every operation that waits on a broken queue of a cluster, and every SYNCWAIT on its sync word, raises fault 0x15 (R175, R187). -/
def failBroken (s : State) (j : Nat) (t : TileWalk) : State :=
  (List.range 64).foldl (fun (s : State) n =>
    let a := 8 * j + n / 8
    let k := n % 8
    match (s.ctx a k).wait with
    | some ⟨.queue _ q, _, _⟩ => if q = t.qin then failWaiter s a k { code := 0x15 } else s
    | some ⟨.sync b off, _, _⟩ => if b = 8 * j + t.bcore && off = t.swoff then failWaiter s a k { code := 0x15 } else s
    | _ => s) s

/-- What breaking a pipeline of cluster `k`'s engine marks: every queue of its rectangle, whose waiters fault; its future goes faulted. -/
def breakMarks (s : State) (k : Nat) (t : TileWalk) : State :=
  let s := (rectClusters (cluDie k) t.rect).foldl (fun (s : State) j =>
    failBroken (s.modClu j fun c => { c with
      qd := vset c.qd t.qin (setBit (vget c.qd t.qin 0) 62 true), brokeSw := (t.qin, t.bcore, t.swoff) :: c.brokeSw }) j t) s
  match t.iss with | some i => engFuture s i (.tileWalk k) t.fut none 2 | none => s

/-- A running pipeline breaks; tiles not yet written are abandoned, with what the engine waited for. -/
def breakPipe (s : State) (k : Nat) : State :=
  let t := (s.clu k).tw
  if !t.run then s else
  let fault (e : Ev) : Bool := match e with | .engineFault g _ => g == .tileWalk k | _ => false
  let s := { s with engWaits := s.engWaits.filter fun w => !(w.agent == 5 && w.inst == k), pending := s.pending.filter fun e => !fault e }
  (breakMarks s k t).modClu k fun c => { c with tw := { c.tw with run := false, broken := true, credits := [], stores := [] } }

/-! Near-bank descriptors (R338). -/

/-- The home of a descriptor, for hardware's own operations on it. -/
def objectPath (s : State) (ia : Nat) : Option Path :=
  match leaf s ia with | .ok e => some (.mem ia (Pte.pfn e * 4096 + ia % 4096) (Pte.ty e) false) | .error _ => none

/-- Update the 64 bytes of a descriptor or header at its home. -/
def objectUpdate (s : State) (x : Acc) (ia : Nat) (f : Nat → Nat) : State :=
  match objectPath s ia with | none => s | some p => (atomicPath s x p 64 .dev fun v => some (f v)).2

def nbdSet (v hi lo x : Nat) : Nat := (putBits (BitVec.ofNat 512 v) hi lo x).toNat
def nbdGet (v hi lo : Nat) : Nat := bitsOf (BitVec.ofNat 512 v) hi lo
def nbdStateSet (n : Nat) (v : Nat) : Nat := nbdSet v 159 128 n
def nbdInuse (v : Nat) : Nat := nbdGet v 191 160
def nbdInuseSet (n : Nat) (v : Nat) : Nat := nbdSet v 191 160 n

/-- The unit of a near-bank command's next row (R339), for its accesses and its records. -/
def nbEngine (s : State) (e : NbEntry) : Engine :=
  let (nbd, r) := match e.cmd with | .place nbd _ _ _ pos => (nbd, pos) | .mv nbd _ _ _ _ _ _ row0 _ _ pos _ => (nbd, row0 + pos)
  match objectPath s nbd with
  | some (.mem _ pa _ _) => .nearBank (match s.nbMats.find? pa with | some m => m.stack | none => 0) (r % 64)
  | _ => .nearBank 0 (r % 64)

/-- Resolve the future of an NBCFG, which holds its IA. -/
def nbFuture (s : State) (e : NbEntry) (fut : Option Nat) (val : Option Nat) (st : Nat) : State :=
  match fut with
  | none => s
  | some ia => engineResolve s e.iss (nbEngine s e) ia val st

/-- A near-bank command stops without completion. -/
def nbStop (s : State) (e : NbEntry) (val : Option Nat) : State :=
  let x := e.iss.acc (nbEngine s e)
  let s := { s with nbCmds := s.nbCmds.filter fun q => q.id != e.id }
  match e.cmd with
  | .place nbd fut _ _ _ => nbFuture (objectUpdate s x nbd (nbdStateSet 3)) e fut val 2
  | .mv nbd _ _ _ _ _ _ _ _ _ _ _ => objectUpdate s x nbd fun v => nbdInuseSet (nbdInuse v - 1) v

/-! Freezing a Gaussian message unit (R72). -/

/-- VFLAGS.FROZEN of every live variable of a core. -/
def flagFrozen (s : State) (a : Nat) (on : Bool) : State :=
  (s.core a).gmu.vars.foldl (fun (s : State) g =>
    let f := (s.core a).spad.readNat (g.off + 6) 2
    spWrite s a (g.off + 6) 2 (f / 8 * 8 + on.toNat * 4 + f % 4)) s

/-- The freeze sweep reaches a core: what it takes from its queue goes to the pending buffer (R65, R72). -/
def gmuFreeze (s : State) (a : Nat) : State :=
  let s := flagFrozen s a true
  serve (s.modCore a fun o => { o with gmu := { o.gmu with frozen := true, late := 0 } }) a

/-- The second sweep: the pending arrivals come before anything newer. R72 does not say whether they take places of the 16-entry queue: in the model
they do, so that newer arrivals are refused until fewer than 16 stand there (DESIGN CHOICE, log 57). -/
def gmuThaw (s : State) (a : Nat) : State :=
  if !(s.core a).gmu.frozen then s else
  let s := flagFrozen s a false
  let s := s.modCore a fun o => { o with gmu := { o.gmu with frozen := false, inq := o.gmu.pend ++ o.gmu.inq, pend := [], late := o.gmu.pend.length } }
  s.pendOnce (.gmuArrive a)

def rectCores (die : Nat) (r : Nat × Nat × Nat × Nat) : List Nat := (rectClusters die r).flatMap fun k => (List.range 8).map fun i => 8 * k + i

/-- A snapshot ends (R363), or its task leaves. -/
def snapEnd (s : State) (d : Nat) (t : BitVec 32) : State :=
  match (s.die d).snaps.find? fun q => q.task == t with
  | none => s
  | some q =>
    let s := s.modDie d fun x => { x with snaps := x.snaps.filter fun r => r.task != t }
    if q.frozen then (rectCores d q.rect).foldl (fun (s : State) a => gmuThaw s a) s else s

/-! Stopping commands (R196, R214): no completion action, futures faulted. -/

/-- Future of a copy-engine command; a drain's stands in its matrix entry. -/
def ceFut (c : CeCmd) : Word := match c with | .cpy _ _ _ _ f => f | .cpyt _ _ _ _ _ f => f | .mx _ => 0
def mxFut (c : MxCmd) : Word := match c with | .drain _ _ _ f => f | _ => 0
/-- The array ends the multiplication that is active; its result stands (R219). -/
def mxKeeps (cs : List MxEntry) (e : MxEntry) : Bool :=
  match cs.find? MxEntry.inArray, e.cmd with
  | some h, .mul .. => h.no == e.no
  | _, _ => false

def Shape.count (s : Shape) : Nat := s.ext.foldl (fun a b => a * b) 1

/-- The step that brings the active command of the copy engine on. -/
def ceEvent (c : Cluster) (k : Nat) : Option Ev :=
  match c.active with
  | none => none
  | some (_, e) =>
    match e.cmd with
    | .cpy _ _ n _ _ => some (if e.pos < n then .copyPieceLanded k else .copyComplete k)
    | .cpyt dst _ _ _ _ _ => some (if e.pos < dst.count then .copyPieceLanded k else .copyComplete k)
    | .mx no => match c.cmds.find? fun q => q.no == no with
      | some ⟨_, _, .stage .., _, _⟩ => some (.stagingLanded k)
      | _ => some (.drainWriteComplete k)

/-- Places enter the active set in the order they were written (R166). -/
def ceKick (s : State) (k : Nat) : State :=
  let s := match (s.clu k).active, (s.clu k).places with
    | none, p :: t => s.modClu k fun c => { c with active := some p, places := t }
    | _, _ => s
  match ceEvent (s.clu k) k with | some e => s.pendOnce e | none => s

/-- Stop a cluster's matrix and copy-engine commands of the tasks and KIDs that `p` names; the next place becomes active. Where the task that issued
TWRUN is killed, R187 and R214 do not say what becomes of its pipeline: it breaks (DESIGN CHOICE, log 55). -/
def stopCluster (s : State) (k : Nat) (p : BitVec 32 → BitVec 16 → Bool) : State :=
  let c := s.clu k
  let s := (c.cmds.filter fun e => p e.iss.task e.iss.kid).foldl (fun (s : State) e => engFuture s e.iss (.copy k) (mxFut e.cmd) none 2) s
  let ces := c.places.map (fun q => q.2) ++ (match c.active with | some q => [q.2] | none => [])
  let s := (ces.filter fun e => p e.iss.task e.iss.kid).foldl (fun (s : State) e => engFuture s e.iss (.copy k) (ceFut e.cmd) none 2) s
  let s := s.modClu k fun c => { c with
    cmds := c.cmds.filter fun e => !p e.iss.task e.iss.kid || mxKeeps c.cmds e
    places := c.places.filter fun q => !p q.2.iss.task q.2.iss.kid
    active := match c.active with | some q => if p q.2.iss.task q.2.iss.kid then none else some q | none => none }
  let s := match (s.clu k).tw.iss with | some i => if p i.task i.kid then breakPipe s k else s | none => s
  arrayPass (ceKick s k) k

/-- Stop the commands of a save area (R222) that `p` names. -/
def stopSaved (s : State) (key : Nat) (v : SaveArea) (p : BitVec 32 → BitVec 16 → Bool) : State :=
  let s := (v.mx.filter fun q => p q.2.iss.task q.2.iss.kid).foldl (fun (s : State) q => engFuture s q.2.iss (.copy q.1) (mxFut q.2.cmd) none 2) s
  let s := (v.ce.filter fun q => p q.2.2.iss.task q.2.2.iss.kid).foldl (fun (s : State) q => engFuture s q.2.2.iss (.copy q.1) (ceFut q.2.2.cmd) none 2) s
  let s := (v.nb.filter fun e => p e.iss.task e.iss.kid).foldl (fun (s : State) e => nbStop s e none) s
  let named (t : TileWalk) : Bool := match t.iss with | some i => p i.task i.kid | none => false
  let s := (v.tws.filter fun q => named q.2).foldl (fun (s : State) q => breakMarks s q.1 q.2) s
  { s with saves := s.saves.set key { v with
      tws := v.tws.filter fun q => !named q.2
      mx := v.mx.filter fun q => !p q.2.iss.task q.2.iss.kid
      ce := v.ce.filter fun q => !p q.2.2.iss.task q.2.2.iss.kid
      gathers := v.gathers.filter fun q => !p q.2.2.iss.task q.2.2.iss.kid
      nb := v.nb.filter fun e => !p e.iss.task e.iss.kid } }

/-- Stop every engine command of the tasks and KIDs that `p` names. -/
def stopCommands (s : State) (p : BitVec 32 → BitVec 16 → Bool) : State :=
  let s := s.clusters.foldl (fun (s : State) (q : Nat × Cluster) => stopCluster s q.1 p) s
  let s := (s.nbCmds.filter fun e => p e.iss.task e.iss.kid).foldl (fun (s : State) e => nbStop s e none) s
  let s := s.saves.foldl (fun (s : State) (q : Nat × SaveArea) => stopSaved s q.1 q.2 p) s
  { s with
    dies := s.dies.mapKV fun _ d => { d with gathers := d.gathers.filter fun q => !p q.2.iss.task q.2.iss.kid }
    engWaits := s.engWaits.filter fun w => !p w.task w.kid }

end Sys2Proof.Machine
end

