-- ==== Sys2Proof/Machine/Shapes.lean ====
section
/-! DEFINITION. Tensor shape records (R335), operand rows (R332) and the typed element writes of engines (R34, R49, R336, R345). -/

namespace Sys2Proof.Machine

/-- Bytes `o` to `o + n - 1` of a number. -/
def fieldAt (r o n : Nat) : Nat := r / 2 ^ (8 * o) % 2 ^ (8 * n)
def four (f : Nat → Nat) : Vector Nat 4 := Vector.ofFn fun i : Fin 4 => f i.val

/-- A record's fields; dimension 0 is contiguous. -/
def Shape.size (fmt : Nat) : Nat := match Fmt.of (BitVec.ofNat 5 fmt) with | some f => max 1 (f.bits / 8) | none => 1
def Shape.parse (r : Nat) : Shape where
  base := BitVec.ofNat 64 r
  ext := four fun i => fieldAt r (8 + 2 * i) 2
  stride := Vector.ofFn fun i : Fin 4 => if i.val = 0 then (Shape.size (fieldAt r 0x1C 1) : Int) else readInt (fieldAt r (0x0C + 4 * i.val) 4) 32 true
  fmt := fieldAt r 0x1C 1
  op := fieldAt r 0x1D 1
  ctl := BitVec.ofNat 8 (fieldAt r 0x1E 1)
  clip := four fun i => fieldAt r (0x20 + 2 * i) 2
  grid := four fun i => fieldAt r (0x28 + 2 * i) 2

/-- A record out of range (R335). -/
def shapeBad (r : Nat) : Bool :=
  ((List.range 4).any fun i => fieldAt r (8 + 2 * i) 2 == 0 || fieldAt r (0x28 + 2 * i) 2 == 0)
    || decide (5 ≤ fieldAt r 0x1E 1 % 8) || fieldAt r 0x1E 1 / 16 != 0 || fieldAt r 0x1F 1 != 0 || fieldAt r 0x30 16 != 0

/-- The format of a record's elements; none for code 0x00 and reserved codes. -/
def Shape.format (s : Shape) : Option Fmt := if 32 ≤ s.fmt then none else Fmt.of (BitVec.ofNat 5 s.fmt)
def Shape.sat (s : Shape) : Bool := bit s.ctl 3
def Shape.rm (s : Shape) : Rm := match bitsOf s.ctl 2 0 with | 0 => .rne | 1 => .rtz | 2 => .rup | 3 => .rdn | _ => .rto
def Shape.tiles (s : Shape) : Nat := s.grid.foldl (fun a b => a * b) 1
/-- BASE or a stride that is no multiple of the element size. -/
def Shape.misaligned (s : Shape) : Bool :=
  let z := Shape.size s.fmt
  s.base.toNat % z != 0 || s.stride.any fun x => x % (z : Int) != 0

/-- The indices of element number `n` in visiting order: dimension 0 innermost. -/
def Shape.index (s : Shape) (n : Nat) : Vector Nat 4 :=
  let e (i : Nat) := vget s.ext i 1
  four fun d => n / ((List.range d).foldl (fun a i => a * e i) 1) % e d

/-- The origin of a tile in a dimension. -/
def Shape.origin (s : Shape) (t d : Nat) : Nat :=
  t / ((List.range d).foldl (fun a i => a * vget s.grid i 1) 1) % vget s.grid d 1 * vget s.ext d 1

/-- The position of an element in the tensor, dimension by dimension. -/
def Shape.pos (s : Shape) (t : Nat) (ix : Vector Nat 4) : Vector Nat 4 := four fun d => s.origin t d + vget ix d 0
def Shape.clipped (s : Shape) (t : Nat) (ix : Vector Nat 4) : Bool :=
  (List.range 4).any fun d => let c := vget s.clip d 0; c != 0 && decide (c ≤ vget (s.pos t ix) d 0)
/-- The address of an element, by the carry rule. -/
def Shape.addr (s : Shape) (t : Nat) (ix : Vector Nat 4) : Option Word :=
  addAddr s.base ((List.range 4).foldl (fun (a : Int) d => a + Int.ofNat (vget (s.pos t ix) d 0) * vget s.stride d 0) 0)

/-- An atomic read-modify-write of an engine at the destination's home (R49, R114), with the old value. -/
def engAtomic (s : State) (x : Acc) (va : Word) (n : Nat) (f : Nat → Nat) : RangeRes (Nat × State) :=
  match resolve s x va n n .at with
  | .error e => .error (va, e)
  | .ok p => if portHeld s p n .at then .error (va, .busy (portOf p)) else .ok (atomicPath s x p n .dev fun v => some (f v))

/-- One element write by a record's OP (R336, R345): a conversion by R34, or one rounded sum at the home. -/
def elemWrite (s : State) (x : Acc) (sh : Shape) (f : Fmt) (va : Word) (v : Fl Val) (int : Bool) : RangeRes (State × Word) :=
  let n := f.bits / 8
  if sh.op = 0 then
    let (r, fl) := convTo v int f sh.rm sh.sat
    match engWrite s x va n r with | .error e => .error e | .ok s => .ok (s, fl)
  else
    let g := if sh.op = 1 then ffF32 else ffBf16
    match engAtomic s x va n fun o => (fsum g (g.decode o) v.1 .rne false).1 with
    | .error e => .error e
    | .ok (old, s) => .ok (s, v.2 ||| (fsum g (g.decode old) v.1 .rne false).2)

/-! Operand rows (R332). -/

/-- RowBytes of R332; integers and floats of 4 and 8 bytes for GATHER (R348). -/
def rowBytes (f : Fmt) (k n : Nat) : Nat :=
  match f.cls with
  | .tern => 4 * ceilDiv n 16
  | .block el => n / blockLen k * blockStride el k
  | _ => n * (f.bits / 8)

/-- The exact value of element `j` of a row that starts at `base` in a byte store, with its flags (R27, R30). -/
def rowElem (rd : Nat → Nat → Nat) (base : Nat) (f : Fmt) (k j : Nat) : Fl Val :=
  let e := elemAt f k j
  let raw := elemRaw f e (rd (base + e.off.toNat) e.bytes)
  match f.cls, e.scale with
  | .block el, some so => blockVal el raw (rd (base + so.toNat) 2)
  | _, _ => elemVal f raw

def rowVals (rd : Nat → Nat → Nat) (base : Nat) (f : Fmt) (k n : Nat) : Fl (List Val) :=
  let xs := (List.range n).map fun j => rowElem rd base f k j
  (xs.map (fun x => x.1), xs.foldl (fun a x => a ||| x.2) 0)

end Sys2Proof.Machine
end

