-- ==== Sys2Proof/Machine/Tasks.lean ====
section
/-! DEFINITION. Tasks: leaving and killing (R157, R214), starting (R148, R162), SPAWN, JOIN, HALT, YIELD (R156, R296), launches (R158, R159),
and the travel of fault packets (R213, R216) and page-fault messages (R217, R218). -/

namespace Sys2Proof.Machine

/-! Leaving (R157, R417). -/

/-- The commands of a task keep the claim it held when it left (R417). -/
def Issuer.leaves (i : Issuer) (task : BitVec 32) (q : Nat) : Issuer := if i.task = task then { i with claim := q } else i

def noteClaim (s : State) (t : BitVec 32) (q : Nat) : State :=
  { s with
    clusters := s.clusters.mapKV fun _ c => { c with
      cmds := c.cmds.map fun e => { e with iss := e.iss.leaves t q }
      places := c.places.map fun p => (p.1, { p.2 with iss := p.2.iss.leaves t q })
      active := c.active.map fun p => (p.1, { p.2 with iss := p.2.iss.leaves t q })
      tw := { c.tw with iss := c.tw.iss.map fun i => i.leaves t q } }
    dies := s.dies.mapKV fun _ d => { d with gathers := d.gathers.map fun p => (p.1, { p.2 with iss := p.2.iss.leaves t q }) }
    nbCmds := s.nbCmds.map fun e => { e with iss := e.iss.leaves t q } }

/-- The narrowest scope that contains two cores (R296). -/
def scopeOf (a b : Nat) : Scope :=
  if a = b then .core
  else if !isRidge a && !isRidge b && agentClu a = agentClu b then .clu
  else if agentDie a = agentDie b then .die else .dev

/-- A child that has ended decrements its parent's join counter; with no parent the decrement is dropped (R156, R296). -/
def Ctx.joined (c : Ctx) (sc : Scope) : Ctx := { c with join := if c.join = 0 then 0 else c.join - 1, joinScope := Scope.max c.joinScope sc }

def joinDec (s : State) (child : Nat) (p : BitVec 32) : State :=
  match s.findTask p with
  | some (a, k) =>
    let sc := scopeOf child a
    (release s child sc).modCtx a k fun c => c.joined sc
  | none => s

/-- A launch is over: its future resolves, or its rejection goes as a record (R159). -/
def launchResolve (s : State) (d : Nat) (l : Launch) (code : Nat) (faulted : Bool) : State :=
  let s := s.modDie d fun x => { x with launchq := x.launchq.filter fun m => m.id != l.id }
  let v := code * 2 ^ 56 + l.killed % 2 ^ 24 * 2 ^ 32 + l.placed % 2 ^ 32
  let e := Engine.launch d
  match l.fut with
  | some ia => engineResolve s l.iss e ia (some v) (if faulted then 2 else 1)
  | none =>
    if code = 0 then s else
    s.record (BitVec.ofNat 8 code) 0 8 d l.iss.kid l.iss.task l.iss.agent l.iss.stage l.iss.pc 0 0

/-- Every record of a launch is placed or skipped and every task has ended: SKGEN is bumped for a launch that placed a task (R127). -/
def launchCheck (s : State) (d id : Nat) : State :=
  match (s.die d).launchq.find? fun l => l.id == id with
  | none => s
  | some l =>
    if !l.todo.isEmpty || l.live ≠ 0 || !l.started then s else
    launchResolve (if l.placed = 0 then s else skBump s d) d l 0 (l.killed != 0)

def launchEnd (s : State) (id : Nat) (killed : Bool) : State :=
  (List.range 4).foldl (fun (s : State) d =>
    if !(s.die d).launchq.any fun l => l.id == id then s else
    launchCheck (s.modDie d fun x => { x with launchq := x.launchq.map fun l =>
      if l.id = id then { l with live := l.live - 1, killed := l.killed + killed.toNat } else l }) d id) s

/-- What a task that has ended counts down (R157 step 7). -/
def taskGone (s : State) (a : Nat) (c : Ctx) (killed : Bool) : State :=
  let s := match c.parent with | some p => joinDec s a p | none => s
  match c.launch with | some id => launchEnd s id killed | none => s

/-- Steps 4 to 8 of R157: lease, context and registers, lane slices and ways, counters, Serve. -/
def endCtx (s : State) (a k : Nat) (retain : Option Nat) (killed : Bool) : State :=
  let c := s.ctx a k
  let s := snapEnd (dropWaits (noteClaim s c.task c.claim) a k) (agentDie a) c.task
  let s := leaseLeave s (a, k)
  let s := s.modCore a fun o => { o with posted := o.posted.filter fun p => p.ctx != k }
  let s := { s with saves := s.saves.mapKV fun _ v => { v with ctxs := v.ctxs.filter fun x => x.task != c.task } }
  let s := s.setCtx a k { Ctx.reset with serial := c.serial }
  let s := match retain with | some ch => if isRidge a then s else retainWays s a ch c.claim | none => s
  let s := leaveWays s a
  (serve (taskGone s a c killed) a).pendOnce (.taskStart a)

/-- Kill a context (R214): its PRV bytes go to `dev` (R111), its engine commands stop, and it leaves. -/
def killCtx (s : State) (a k : Nat) : State :=
  let t := (s.ctx a k).task
  endCtx (stopCommands (release s a .dev) fun u _ => u == t) a k none true

/-- Kill a task by its ID, where it still exists: live, frozen or saved (R222). -/
def killTask (s : State) (t : BitVec 32) : State := match s.findTask t with | some (a, k) => killCtx s a k | none => s

/-- KILLT ends the context that a packet names where it is frozen, or saved as frozen (R214, R222). -/
def killBound (s : State) (t : BitVec 32) : State :=
  match s.findTask t with
  | none => s
  | some (a, k) =>
    let c := s.ctx a k
    if c.st == .frozen || (c.st == .saved && c.frozenBy.isSome) then killCtx s a k else s

/-- The end of a handler that names no outcome counts as KILLT (R214). -/
def killServed (s : State) (c : Ctx) : State :=
  match c.served with | some p => if p.noctx then s else killBound s p.task | none => s

/-! SPAWN, JOIN, HALT, YIELD (R156, R157, R296). -/

/-- CTL of a task record. -/
def Ctl.prio (c : BitVec 32) : Nat := bitsOf c 31 27
def Ctl.gdem (c : BitVec 32) : Nat := bitsOf c 26 24
def Ctl.vdem (c : BitVec 32) : Nat := bitsOf c 23 21
def Ctl.lane (c : BitVec 32) : Bool := bit c 20
def Ctl.spreq (c : BitVec 32) : Nat := bitsOf c 19 15

/-- SPAWN (R156, R296). -/
def execSpawn (o : ORa) (s : State) : Out :=
  issue (.spawn o) s fun c =>
    let a := s.curAgent
    let va := c.rG o.a
    access (.spawn o) s va 32 32 .rd .any fun p =>
      let (r, s) := readPath (taintAcquire s (c.taintG o.a)) (curAcc s) p 32
      let ctl := BitVec.ofNat 32 (r / 2 ^ 192)
      if fieldsBad (isRidge a) (Ctl.prio ctl) (Ctl.gdem ctl) (Ctl.vdem ctl) (Ctl.spreq ctl) (Ctl.lane ctl) true
          || bitsOf ctl 14 0 ≠ 0 || (s.ktIndex c.kid).isNone then raise (.spawn o) s 0x02
      else if 20 ≤ Ctl.prio ctl && !c.priv then raise (.spawn o) s 0x1F
      else if 18 < Ctl.spreq ctl then raise (.spawn o) s 0x18
      else if 64 ≤ (s.core a).taskq.length || c.join = 0xFFFF then waitFor s .retry
      else releaseThen s .core fun s =>
        let rec_ : TaskRec :=
          { pc := BitVec.ofNat 64 r, arg0 := BitVec.ofNat 64 (r / 2 ^ 64), arg1 := BitVec.ofNat 64 (r / 2 ^ 128), arg2 := 0, ctl := ctl
            parent := some c.task, launch := none, kid := c.kid, world := c.world, win := some c.win, stage := c.stage, chan := none
            acq := .core, since := s.now }
        let s := s.modCore a fun q => { q with taskq := q.taskq ++ [rec_] }
        let s := s.setCur { s.cur with join := c.join + 1, joinScope := if c.join = 0 then .core else c.joinScope }
        done (.spawn o) (s.pendOnce (.taskStart a))

/-- JOIN (R296): an acquire at the widest scope of the children's decrements. -/
def execJoin (s : State) : Out :=
  issue .join s fun c =>
    if c.join ≠ 0 then waitFor s .retry else done .join (acquire s s.curAgent c.joinScope)

/-- Every outstanding producer of a context has landed (R157 step 2): no value on its way, no posted receive. -/
def allLanded (s : State) (a k : Nat) : Bool :=
  !loadsInFlight s a k && !(s.core a).posted.any fun p => p.ctx == k && p.reg != 0

/-- The decrement at the parent of the current task, a release at the scope of both cores, must wait (R296). -/
def joinHeld (s : State) : Bool :=
  match s.cur.parent.bind s.findTask with | some (a, _) => releaseHeld s (scopeOf s.curAgent a) | none => false

/-- Steps of R157. -/
def haltRun (s : State) (retain : Option Nat) : State :=
  let c := s.cur
  if c.join ≠ 0 || !allLanded s s.curAgent s.curCtx then waitFor s .retry
  else if joinHeld s then waitFor s .updates
  else
  killServed (endCtx (wcbDrain s s.curAgent) s.curAgent s.curCtx retain false) c

/-- HALT (R157, R296). -/
def execHalt (s : State) : Out := issue .halt s fun _ => haltRun s none
/-- HALTR (R157, R296): names the successor channel. -/
def execHaltr (o : ORa) (s : State) : Out :=
  issue (.haltr o) s fun c => if 63 < (c.rG o.a).toNat then raise (.haltr o) s 0x02 else haltRun s (some (c.rG o.a).toNat)

/-- YIELD (R296): every other ready context issues once first. The list holds them and, until it issues again, the context itself. -/
def execYield (s : State) : Out :=
  issue .yield s fun c =>
    let others := (List.range 8).filter fun k => k != s.curCtx && ctxAble s s.curAgent k
    s.setCur { c.past .yield with yielded := s.curCtx :: others }

/-! LAUNCH (R158, R297). -/

/-- Bytes `o` to `o + n - 1` of a record. -/
def recBytes (r o n : Nat) : Nat := r / 2 ^ (8 * o) % 2 ^ (8 * n)

/-- A rectangle of clusters leaves the grid, or is empty. -/
def rectBad (x y w h : Nat) : Bool := w == 0 || h == 0 || decide (8 < x + w) || decide (8 < y + h)
def rectOf (r o : Nat) : Nat × Nat × Nat × Nat := (recBytes r o 1, recBytes r (o + 1) 1, recBytes r (o + 2) 1, recBytes r (o + 3) 1)

/-- The checks of a launch record's fields (R158, R194). -/
def launchBad (s : State) (r : Nat) : Bool :=
  let b o n := recBytes r o n
  let (x, y, w, h) := rectOf r 0x18
  let dem := b 0x1F 1
  let kid := BitVec.ofNat 16 (b 0x26 2)
  rectBad x y w h || b 0x1C 1 == 0 || b 0x1D 1 == 0 || decide (16 < b 0x1D 1) || decide (23 < b 0x1E 1)
    || dem / 32 == 0 || decide (4 < dem / 32) || decide (4 < dem / 4 % 8) || decide (3 < b 0x24 1) || decide (1 < b 0x25 1)
    || decide (63 < b 0x28 1) || b 0x29 7 != 0 || b 0x10 8 != 0
    || (match s.ktIndex kid with | none => true | some n => bit (vget s.kt n (0, 0)).1 62 != decide (b 0x25 1 = 1))

/-- The (agent, stage) pairs of a launch in the order of R159. -/
def launchTodo (die r : Nat) : List (Nat × Nat) :=
  let cores := (List.range 8).filter fun c => recBytes r 0x1C 1 / 2 ^ c % 2 = 1
  (rectClusters die (rectOf r 0x18)).flatMap fun k => cores.flatMap fun c => (List.range (recBytes r 0x1D 1)).map fun st => (8 * k + c, st)

/-- The launches that still have unplaced records. -/
def queuedLaunches (d : Die) : List Launch := d.launchq.filter fun l => !l.todo.isEmpty

/-- The launch that a record describes. -/
def launchOf (s : State) (iss : Issuer) (id r : Nat) (fut : Option Nat) : Launch :=
  let b o n := recBytes r o n
  { id := id, pc := BitVec.ofNat 64 r, arg0 := BitVec.ofNat 64 (b 0x30 8), arg1 := BitVec.ofNat 64 (b 0x38 8)
    dem := BitVec.ofNat 8 (b 0x1F 1), prio := BitVec.ofNat 5 (b 0x1E 1), spreq := b 0x20 4, kid := BitVec.ofNat 16 (b 0x26 2)
    world := decide (b 0x25 1 = 1), ch := b 0x28 1, fut := fut, iss := iss, started := false
    todo := launchTodo (b 0x24 1) r, placed := 0, live := 0, killed := 0, since := s.now }

/-- Queue a checked launch record. -/
def launchQueue (s : State) (iss : Issuer) (r : Nat) (fut : Option Nat) : State :=
  let d := recBytes r 0x24 1
  let (id, s) := s.newId
  (s.modDie d fun x => { x with launchq := x.launchq ++ [launchOf s iss id r fut] }).pendOnce (.launchPlace d)

/-- The IA of a future that passed its check. -/
def futIa (win : Vector Window 4) (va : Word) : Option Nat :=
  if va = 0 then none else (findWindow win (addrPart va)).map fun w => w.ia (addrPart va)

/-- LAUNCH (R158, R297): the release, the record read as a load, its checks, the queue. -/
def execLaunch (o : ORa) (s : State) : Out :=
  issue (.launch o) s fun c =>
    let i : Instr := .launch o
    access i s (c.rG o.a) 64 64 .rd .any fun p =>
      releaseThen s .dev fun s =>
        let (r, s) := readPath (taintAcquire s (c.taintG o.a)) (curAcc s) p 64
        let fut := BitVec.ofNat 64 (recBytes r 8 8)
        let kid := BitVec.ofNat 16 (recBytes r 0x26 2)
        if launchBad s r then raise i s 0x02
        else if !c.priv && (20 ≤ recBytes r 0x1E 1 || kid ≠ c.kid || decide (recBytes r 0x25 1 = 1) != c.world) then raise i s 0x1F
        else match futCheck c.win fut with
          | some code => raise i s code fut
          | none =>
            if 64 ≤ (queuedLaunches (s.die (recBytes r 0x24 1))).length then waitFor s .retry
            else done i (launchQueue s (issuerOf s) r (futIa c.win fut))

/-! Placing (R159). -/

/-- The launch that the sequencer serves before another: the higher priority, then the earlier in the queue. -/
def launchOrder (d : Die) : List Launch :=
  (List.range 24).reverse.flatMap fun p => (queuedLaunches d).filter fun l => l.prio.toNat == p

def ctlOf (l : Launch) : BitVec 32 :=
  BitVec.ofNat 32 (l.prio.toNat * 2 ^ 27 + bitsOf l.dem 7 5 * 2 ^ 24 + bitsOf l.dem 4 2 * 2 ^ 21 + (bit l.dem 1).toNat * 2 ^ 20
    + ceilDiv l.spreq wayBytes * 2 ^ 15)

/-- The record of a launch's next placement. -/
def placedRec (s : State) (l : Launch) (stage : Nat) : TaskRec :=
  { pc := l.pc, arg0 := l.arg0, arg1 := l.arg1, arg2 := BitVec.ofNat 64 l.placed, ctl := ctlOf l, parent := none, launch := some l.id
    kid := l.kid, world := l.world, win := none, stage := BitVec.ofNat 4 stage, chan := some l.ch, acq := .dev, since := s.now }

/-- The next record that can go: of the first launch that has one whose core is skipped or has room; a request past the limit is
rejected first. -/
def placeable (s : State) (l : Launch) : Bool :=
  18 < ceilDiv l.spreq wayBytes
    || match l.todo with
      | [] => false
      | (a, _) :: _ => agentWorld s a != l.world || decide ((s.core a).taskq.length < 64)

def setLaunch (s : State) (d : Nat) (l : Launch) : State :=
  s.modDie d fun x => { x with launchq := x.launchq.map fun m => if m.id = l.id then l else m }

/-- LAUNCH_PLACE (R159). -/
def execLaunchPlace (s : State) : Out :=
  match s.ev with
  | some (.launchPlace d) =>
    if (queuedLaunches (s.die d)).isEmpty then .next s.took
    else if s.quiesced then .next s
    else match (launchOrder (s.die d)).find? fun l => placeable s l with
      | none => .next s
      | some l =>
        if 18 < ceilDiv l.spreq wayBytes then answer (launchResolve s d l 0x18 true)
        else
          let s := if l.started then s else skBump s d
          match l.todo with
          | [] => answer s
          | (a, st) :: t =>
            let l := { l with started := true, todo := t }
            if agentWorld s a != l.world then answer (launchCheck (setLaunch s d l) d l.id)
            else
              let s := (s.modCore a fun q => { q with taskq := q.taskq ++ [placedRec s l st] }).pendOnce (.taskStart a)
              answer (launchCheck (setLaunch s d { l with placed := l.placed + 1, live := l.live + 1 }) d l.id)
  | _ => .next s

/-! Starting tasks (R148, R162). -/

/-- An item that a core may start: its source (channel, or 64 for the task queue), its base and what it is. -/
structure Item where
  src   : Nat
  since : Nat
  base  : Nat
  arr   : Option Arrival
  rcd   : Option TaskRec
  deriving DecidableEq, Repr

def lanesFree (o : Core) : Bool := o.ctxs.toList.all fun c => !c.lane
def arrivalItem (x : Arrival) : Item :=
  ⟨x.msg.ch.toNat, x.since, x.level.getD (Handler.prio x.entry), some x, none⟩
def recItem (r : TaskRec) : Item := ⟨64, r.since, Ctl.prio r.ctl, none, some r⟩

/-- A fault packet on ch1 of a ridge core (R213). -/
def isPacket (m : Msg) : Bool := isRidge m.dst && m.ch == 1 && m.kind == .system

/-- The entry that masks an accepted arrival: the channel's, or for a fault packet the trap entry that it was accepted under. -/
def maskEntry (o : Core) (x : Arrival) : BitVec 128 :=
  let chan := vget o.handlers x.msg.ch.toNat 0
  if !isPacket x.msg then chan else
  (o.trapt.toList.find? fun e => Handler.valid e && Handler.kid e == Handler.kid x.entry).getD chan

/-- An earlier packet of its source core has not started its handler (R213). -/
def packetBehind (o : Core) (x : Arrival) : Bool :=
  isPacket x.msg && (o.arrivals.takeWhile fun y => y != x).any fun y => isPacket y.msg && srcOf y.msg == srcOf x.msg

/-- Eligible items (R162, R76, R213). -/
def eligible (o : Core) : List Item :=
  let lf := lanesFree o
  (o.arrivals.filter fun x => !Handler.masked (maskEntry o x) && !packetBehind o x && (!Handler.lane x.entry || lf)).map arrivalItem
    ++ (o.taskq.filter fun r => (freeCtx o).isSome && poolHas o (8 * Ctl.gdem r.ctl) (8 * Ctl.vdem r.ctl) && (!Ctl.lane r.ctl || lf)).map recItem

/-- Effective priority with aging. -/
def Item.eff (i : Item) (now : Nat) : Nat := if 20 ≤ i.base then i.base else min (i.base + min ((now - i.since) / 65536) 2) 19

/-- SelectStart (R162). -/
def selectStart (o : Core) (now : Nat) : Option Item :=
  let c := eligible o
  let m := c.foldl (fun n i => max n (i.eff now)) 0
  let t := c.filter fun i => i.eff now == m
  let oldest (src : Nat) := t.foldl (fun (b : Option Item) i =>
    if i.src ≠ src then b else match b with | none => some i | some j => some (if i.since < j.since then i else j)) none
  let key (src : Nat) : Nat × Nat × Nat := (vget o.lastSel src 0, (match oldest src with | some i => i.since | none => 0), src)
  let best := t.foldl (fun (b : Option Nat) i => match b with
    | none => some i.src
    | some q =>
      let (x1, x2, x3) := key i.src
      let (y1, y2, y3) := key q
      some (if x1 ≠ y1 then (if x1 < y1 then i.src else q) else if x2 ≠ y2 then (if x2 < y2 then i.src else q)
            else if x3 < y3 then i.src else q)) none
  match best with | none => none | some src => oldest src

/-- What a starting task begins with (R148). -/
structure Start where
  pc     : Word
  g1     : Word
  g2     : Word
  g3     : Word
  v      : BitVec 1024
  kid    : BitVec 16
  world  : Bool
  prio   : Nat
  base   : Nat
  stage  : BitVec 4
  chan   : Option Nat
  win    : Vector Window 4
  q      : Nat
  lane   : Bool
  parent : Option (BitVec 32)
  launch : Option Nat
  served : Option Packet
  acq    : Option Scope
  deriving DecidableEq, Repr

/-- The task starts in a reserved context: claim, lane slices, registers, windows; its acquire is made before its first instruction. -/
def startTask (s : State) (a k : Nat) (x : Start) : State :=
  let c := s.ctx a k
  let q := if isRidge a then 0 else x.q
  let s := claimWays s a q x.chan
  let s := if x.lane then s.modCore a fun o => { o with lanes := [] } else s
  let id : BitVec 32 := agentNum a ++ BitVec.ofNat 3 k ++ c.serial
  let n : Ctx := { Ctx.reset with
    st := .live
    g := vset (vset (vset Ctx.reset.g 1 x.g1) 2 x.g2) 3 x.g3
    v := vset (vset Ctx.reset.v 0 (x.v.setWidth 512)) 1 (x.v.extractLsb' 512 512)
    pc := x.pc, gOpen := c.gOpen, vOpen := c.vOpen, win := x.win, task := id, kid := x.kid, world := x.world
    base := BitVec.ofNat 5 x.base, prio := BitVec.ofNat 5 x.prio, stage := x.stage, priv := isRidge a, chan := x.chan
    parent := x.parent, launch := x.launch, claim := q, lane := x.lane, serial := c.serial + 1, served := x.served }
  let s := s.setCtx a k n
  match x.acq with | some sc => acquire s a sc | none => s

/-- The payload of a notify as it is taken (R144). -/
def notifyPayload (n : Notify) (level : Nat) : BitVec 960 :=
  BitVec.ofNat 960 (n.entry + level * 2 ^ 8 + n.flags.toNat * 2 ^ 16 + n.seq.toNat * 2 ^ 32 + n.mask.toNat * 2 ^ 64
    + (n.resid.getD 0).toNat * 2 ^ 128)

/-- A task takes a notify: its absorbed content is read and NPEND clears (R144). -/
def takeNotify (s : State) (a : Nat) (x : Arrival) : BitVec 960 × State :=
  if x.msg.kind != .notify then (x.msg.payload, s) else
  match notifyOf (s.core a) x.msg with
  | none => (x.msg.payload, s)
  | some n => (notifyPayload n (x.level.getD 0xFF), s.modCore a fun o => { o with
      notifies := o.notifies.erase n
      subs := if n.live then vset o.subs n.entry (setBit (vget o.subs n.entry 0) 0 false) else o.subs })

/-- The payload beyond LEN reads zero (R148). -/
def payloadRegs (m : Msg) (p : BitVec 960) : BitVec 1024 := BitVec.ofNat 1024 (p.toNat % 2 ^ (64 * m.len.toNat))

/-- The packet that a handler's task serves (R213). -/
def servedBy (a : Nat) (m : Msg) : Option Packet :=
  if isRidge a && isPacket m then some (Packet.ofBits (m.payload.setWidth 512)) else none

/-- Start a selected item. -/
def startItem (s : State) (a : Nat) (i : Item) : State :=
  let o := s.core a
  let s := s.modCore a fun o => { o with lastSel := vset o.lastSel i.src s.now }
  let eff := i.eff s.now
  match i.arr, i.rcd with
  | some x, _ =>
    let (p, s) := takeNotify (s.modCore a fun o => { o with arrivals := o.arrivals.erase x }) a x
    let sv := servedBy a x.msg
    let kid := Handler.kid x.entry
    startTask s a x.ctx
      { pc := Handler.pc x.entry, g1 := headerOf x.msg, g2 := 0, g3 := 0, v := payloadRegs x.msg p, kid := kid
        world := Handler.world x.entry, prio := eff, base := i.base, stage := 0, chan := some i.src, win := windowSet o kid
        q := Handler.spreq x.entry, lane := Handler.lane x.entry, parent := none, launch := none, served := sv, acq := x.msg.acq }
  | none, some r =>
    match freeCtx o with
    | none => s
    | some k =>
      let s := s.modCore a fun o => { o with taskq := o.taskq.erase r }
      let s := s.modCtx a k fun c => { Ctx.reset with st := .reserved, gOpen := 8 * Ctl.gdem r.ctl, vOpen := 8 * Ctl.vdem r.ctl, serial := c.serial }
      startTask s a k
        { pc := r.pc, g1 := r.arg0, g2 := r.arg1, g3 := r.arg2, v := 0, kid := r.kid, world := r.world, prio := eff, base := i.base
          stage := r.stage, chan := r.chan, win := r.win.getD (windowSet o r.kid), q := Ctl.spreq r.ctl, lane := Ctl.lane r.ctl
          parent := r.parent, launch := r.launch, served := none, acq := some r.acq }
  | none, none => s

/-- No task starts on a core that a pre-emption names, or on a device that one names, until it is restored (R219, R231). -/
def startsHeld (s : State) (a : Nat) : Bool :=
  !isRidge a && ((s.core a).held || s.saves.any fun (q : Nat × SaveArea) => q.2.set == .device)

/-- TASK_START (R162): a core starts at most one item. -/
def execTaskStart (s : State) : Out :=
  match s.ev with
  | some (.taskStart a) =>
    let o := s.core a
    if o.arrivals.isEmpty && o.taskq.isEmpty then .next s.took
    else if !coreRuns s a || startsHeld s a then .next s
    else match selectStart o s.now with
      | none => .next s
      | some i => answer (serve (startItem s a i) a)
  | _ => .next s

/-! Fault packets (R213, R216). -/

/-- No handler serves a packet: a frozen context is killed, a record discarded, and FDROP counts (R213). -/
def packetDropped (s : State) (a : Nat) (p : Packet) : State :=
  let s := s.modCore a fun o => { o with fdrop := o.fdrop + 1 }
  if p.noctx then s else killBound s p.task

/-- The entry that serves a packet: at the monitor its own, for the packets that R213 names, else the trap entry of the packet's kernel. -/
def packetEntry (s : State) (a : Nat) (m : Msg) (p : Packet) : BitVec 128 :=
  let o := s.core a
  if a = monitor && (m.kid = 0 || (s.ktIndex p.kid).isNone) then vget o.handlers 1 0
  else match o.trapt.toList.find? fun e => Handler.valid e && Handler.kid e == p.kid with | some e => e | none => 0

/-- A packet or record that crosses worlds is discarded (R191). Its kernel's own fault channel lies across that border, so that the record of the
crossing goes to the monitor alone (DESIGN CHOICE, log 58). -/
def packetCrossed (s : State) (m : Msg) (p : Packet) : State :=
  s.sendPacketTo (srcAgent m) monitor
    { code := 0x0C, agent := 0x09, sub := 0, noctx := true, ctx := 0, task := p.task, kid := p.kid, stage := p.stage, core := agentNum (srcAgent m), info := 0
      inst := 0, pc := p.pc, va := 0, ia := 0, time := s.time, insn := 0 } true

/-- FAULT_PACKET_ARRIVE (R213): it waits until a context and a place in the arrival buffer are free. -/
def execFaultPacketArrive (s : State) : Out :=
  match s.ev with
  | some (.faultPacketArrive m) =>
    let a := m.dst
    let p := Packet.ofBits (m.payload.setWidth 512)
    let e := packetEntry s a m p
    if crossing s m then answer (packetCrossed s.took m p)
    else if !Handler.valid e then answer (packetDropped s.took a p)
    else if Handler.masked e || !arrivalRoom (s.core a) then .next s
    else match ctxFor (s.core a) e with
      | none => .next s
      | some k => answer (holdArrival (reserveCtx s.took a k e) a k m e none)
  | _ => .next s

/-- FAULT_FREEZE (R208, R216): a context whose access was failed freezes; a trap handler that faulted is killed, the context it served is
killed, and both packets go to the monitor. -/
def execFaultFreeze (s : State) : Out :=
  match s.ev with
  | some (.faultFreeze a k p) =>
    let s := s.took
    let c := s.ctx a k
    if c.task ≠ p.task then .next s
    else match c.st, c.served with
      | .frozen, some q =>
        let s := killServed (killCtx s a k) c
        answer ((s.sendPacketTo a monitor p true).sendPacketTo a monitor q true)
      | .live, _ => answer (takeFault s a k { code := p.code, sub := p.sub, info := p.info, va := p.va, ia := p.ia } (insnAt s a k))
      | _, _ => .next s
  | _ => .next s

/-! The page-fault path (R217, R218). -/

/-- PAGE_FAULT_POST (R217): the message travels to ch0 of ridge core 0 of the requester's die. -/
def execPageFaultPost (s : State) : Out :=
  match s.ev with
  | some (.pageFaultPost m) => .next (s.took.pend (.messageArrive m))
  | _ => .next s

/-- ACCESS_ACCEPT (R207, R218): the access that waited for a page is replayed from translation; or an access of another device is accepted
or refused at its home, and performed there (R122, R191). -/
def execAccessAccept (s : State) : Out :=
  match s.ev with
  | some (.accessAccept (.device r)) => answer ((deviceAccess s.took r).getD s)
  | some (.accessAccept (.ctx a k)) =>
    match (s.ctx a k).wait with
    | some ⟨.page _ _ _ _ _ fetch, l, t⟩ =>
      .next (s.took.modCtx a k fun c => { c with wait := if fetch then none else some ⟨.retry, l, t⟩ })
    | _ => .next s.took
  | _ => .next s

/-- The engine that a code and an instance name (R211). -/
def engineOf (code : BitVec 8) (inst : Nat) : Engine :=
  if code = 1 then .matrix inst
  else if code = 2 then .nearBank (inst / 64) (inst % 64)
  else if code = 3 then .copy inst
  else if code = 4 then .gather (inst / 64) (inst % 64)
  else if code = 5 then .tileWalk inst
  else if code = 6 then .coll (inst / 64) (inst % 64)
  else if code = 7 then .gmu inst
  else .launch inst

/-- The context of a task that waits for a page, with the fault that its access takes if it fails. -/
def pageWaiter (s : State) (t : BitVec 32) (page : Nat) : Option (Nat × Nat × FInfo) :=
  match s.findTask t with
  | none => none
  | some (a, k) => match (s.ctx a k).wait with
    | some ⟨.page va ia code sub info _, _, _⟩ =>
      if ia.toNat / 4096 = page then some (a, k, { code := code, sub := sub, info := info, va := va, ia := ia }) else none
    | _ => none

/-- A completion that waits for a page of its continuation record goes on, or fails with a record; the links behind it complete (R171). -/
def completionReply (s : State) (c : Completion) (fail : Bool) : State :=
  let s := { s with completions := s.completions.erase c }
  if !fail then c.resume s else
  let (code, sub) := c.fault.getD (0x06, 0)
  let s := c.who_.record s code sub 0 (BitVec.ofNat 64 c.ia) 0
  completeList s c.who_ c.bad (listFuel s c.kid) (linkAfter s c.kid (4 * c.idx + c.slot))

/-- PAGE_FAULT_REPLY (R217, R218). -/
def execPageFaultReply (s : State) : Out :=
  match s.ev with
  | some (.pageFaultReply m) =>
    let s := s.took
    let task : BitVec 32 := m.payload.extractLsb' 0 32
    let agent : BitVec 8 := m.payload.extractLsb' 32 8
    let fail := bitsOf m.payload 47 40 != 0
    let inst := bitsOf m.payload 63 48
    let page := bitsOf m.payload 127 64 / 4096
    if agent = 0 then
      if inst ≠ 0 then .next s else
      match s.completions.find? fun c => c.fault.isSome && c.task == task && c.ia / 4096 == page && s.faultAgent c.kid == m.dst with
      | some c => answer (completionReply s c fail)
      | none =>
        match pageWaiter s task page with
        | none => .next s
        | some (a, k, f) =>
          if !fail then .next (s.pend (.accessAccept (.ctx a k)))
          else .next (s.pend (.faultFreeze a k (ctxPacket s a k f (insnAt s a k))))
    else
      match s.engWaits.find? fun w => w.agent == agent && w.inst == inst && w.task == task && w.ia / 4096 == page with
      | none => .next s
      | some w =>
        let s := { s with engWaits := s.engWaits.erase w }
        if !fail then .next s else
        let p : Packet := { code := w.code, agent := agent, sub := w.sub, noctx := true, ctx := 0, task := task, kid := w.kid, stage := 0
                            core := agentNum m.dst, info := 0, inst := BitVec.ofNat 16 inst, pc := 0, va := 0, ia := BitVec.ofNat 64 w.ia
                            time := s.time, insn := BitVec.ofNat 128 (w.cmd % 2 ^ 64) }
        .next (s.pend (.engineFault (engineOf agent inst) p))
  | _ => .next s

end Sys2Proof.Machine
end

