-- ==== Sys2Proof/Machine/Sends.lean ====
section
/-! DEFINITION. Groups 0x18 and 0x19: SEND, TSEND, posted receives and the handler table (R291 to R295). -/

namespace Sys2Proof.Machine

/-! SEND, TSEND (R291). -/

/-- A device of the fabric domain. -/
def domainDev (s : State) (d : BitVec 6) : Bool := d == s.devno || Config.inDomain d

/-- The checks of a header that a program builds, in the order of R291; the length check against vb is the sender's. -/
def headerCheck (s : State) (priv tagged : Bool) (h : Word) : Option (BitVec 8) :=
  let ch := bitsOf h 46 41
  if bitsOf h 40 24 ≠ 0 || bitsOf h 19 18 ≠ 0 || bit h 16 then some 0x02
  else if !tagged && bitsOf h 15 0 ≠ 0 then some 0x02
  else if bit h 17 && bitsOf h 57 52 ≠ 0 then some 0x02
  else if !domainDev s (h.extractLsb' 58 6) then some 0x02
  else if (ch ≤ 3 || ch = 7) && !priv then some 0x1F
  else none

/-- The agent that a built header names (R152). -/
def headerDst (h : Word) : Nat := if bit h 17 then 2048 + bitsOf h 51 47 else bitsOf h 57 47
def headerLen (h : Word) : Nat := bitsOf h 23 20

/-- SEND and TSEND: every source is read at issue; the release comes before the message leaves. -/
def execSendAs (i : Instr) (o : OSend) (s : State) (tagged : Bool) : Out :=
  issue i s fun c =>
    let h := c.rG o.a
    let len := headerLen h
    let b1 := o.b + 1
    let second := decide (8 < len)
    if second && o.b != 31 && c.openName true b1 && !c.fullV b1 then
      (if o.form.e.getLsbD 3 then faultCur i s { code := 0x03, info := b1.setWidth 16 } else waitFor s .retry)
    else match headerCheck s c.priv tagged h with
    | some code => raise i s code
    | none =>
      if second && o.b = 31 then raise i s 0x02
      else if second && !c.openName true b1 then raise i s 0x01
      else if retryFull s s.curAgent then waitFor s .retry
      else
        let pay := BitVec.ofNat 960 (((c.rV o.b).toNat + (if 8 < len then (c.rV b1).toNat else 0) * 2 ^ 512) % 2 ^ (64 * len))
        let m := ctxMsg s s.curAgent c.kid c.task c.pc (h.extractLsb' 58 6) (headerDst h) (h.extractLsb' 41 6) len .task
          (if tagged then some (h.setWidth 16) else none) pay o.rel
        let go (s : State) : State := done i (sendMsg s s.curAgent m)
        match o.rel with | some sc => releaseThen s sc go | none => go s

/-- SEND (R291). -/
def execSend (o : OSend) (s : State) : Out := execSendAs (.send o) o s false
/-- TSEND (R291). -/
def execTsend (o : OSend) (s : State) : Out := execSendAs (.tsend o) o s true

/-! Receives (R293, R294). -/

/-- The destination of a receive is empty until the message lands. -/
def emptyDest (c : Ctx) (r : Reg) : Ctx := { c.emptyG r with gTaint := setBit c.gTaint r.toNat false }

/-- RECV (R293, R180, R181): the overflow queue first, then a posted receive. -/
def execRecv (o : ODAB) (s : State) : Out :=
  issue (.recv o) s fun c =>
    let i : Instr := .recv o
    let a := s.curAgent
    let va := c.rG o.b
    let off := addrPart va % 2 ^ 48
    if o.d = 0 then raise i s 0x02
    else if addrPart va % 8 ≠ 0 then raise i s 0x04 va
    else if addrPart va / 2 ^ 48 ≠ 0xF0 || isRidge a || decide (c.claim * wayBytes < off + 128) then raise i s 0x05 va
    else if bitsOf (c.rG o.a) 5 0 ≠ 0 then raise i s 0x02
    else
      let p : Posted := ⟨s.curCtx, c.task, c.kid, o.d, c.rG o.a, off⟩
      match (s.core a).overflow.find? fun m => matches_ p m with
      | some m =>
        if portBusy s a off (8 * m.len.toNat) then waitPort s a else
        let s := s.modCore a fun q => { q with overflow := q.overflow.erase m }
        done i (serve (deliverTag (s.setCur (emptyDest s.cur o.d)) a p m) a)
      | none =>
        if 16 ≤ (s.core a).posted.length then waitFor s .retry
        else done i ((s.setCur (emptyDest c o.d)).modCore a fun q => { q with posted := q.posted ++ [p] })

/-- RCANCEL (R294). -/
def execRcancel (o : ODA) (s : State) : Out :=
  issue (.rcancel o) s fun _ =>
    let a := s.curAgent
    match (s.core a).posted.find? fun p => p.ctx == s.curCtx && p.reg == o.a with
    | some p =>
      let s := s.modCore a fun q => { q with posted := q.posted.erase p }
      s.setCur (((s.cur.wG o.a 0xFFFFFFFFFFFFFFFF).wG o.d 1).past (.rcancel o))
    | none => s.setCur ((s.cur.wG o.d 0).past (.rcancel o))

/-! The handler table (R149, R193, R295). -/

/-- The checks of an entry write by a context, in the order of R209. -/
def entryWrite (s : State) (a : Nat) (c : Ctx) (ch : Nat) (e : BitVec 128) : Option (BitVec 8) :=
  let old := vget (s.core a).handlers ch 0
  let foreign := Handler.valid old && Handler.kid old != c.kid
  if !Handler.valid e then (if !c.priv && (ch < 8 || foreign) then some 0x1F else none)
  else if Handler.bad (isRidge a) e then some 0x02
  else if !c.priv && (ch < 8 || 20 ≤ Handler.prio e) then some 0x1F
  else if (match s.ktIndex (Handler.kid e) with | none => true | some n => bit (vget s.kt n (0, 0)).1 62 != Handler.world e) then some 0x02
  else if !c.priv && (Handler.kid e != c.kid || foreign) then some 0x1F
  else if Handler.spBad e then some 0x18
  else if Handler.world e != agentWorld s a then some 0x0C
  else none

/-- CHWR (R295): installing runs Serve. -/
def execChwr (o : ODAB) (s : State) : Out :=
  issue (.chwr o) s fun c =>
    let a := s.curAgent
    let ch := (c.rG o.d).toNat
    let e : BitVec 128 := c.rG o.a ++ c.rG o.b
    if 63 < ch then raise (.chwr o) s 0x02
    else match entryWrite s a c ch e with
      | some code => raise (.chwr o) s code
      | none =>
        let s := s.modCore a fun q => { q with handlers := vset q.handlers ch (if Handler.valid e then e else 0) }
        done (.chwr o) ((if Handler.valid e then serve s a else s).pendOnce (.taskStart a))

/-- CHMSK (R295): unmasking runs Serve. -/
def execChmsk (o : ODAB) (s : State) : Out :=
  issue (.chmsk o) s fun c =>
    let a := s.curAgent
    let ch := (c.rG o.a).toNat
    let e := vget (s.core a).handlers ch 0
    if 63 < ch || bitsOf (c.rG o.b) 63 1 ≠ 0 || !Handler.valid e then raise (.chmsk o) s 0x02
    else if !c.priv && Handler.kid e != c.kid then raise (.chmsk o) s 0x1F
    else
      let s := s.modCore a fun q => { q with handlers := vset q.handlers ch (setBit e 126 (bit (c.rG o.b) 0)) }
      let s := s.setCur (s.cur.wG o.d (flagWord (Handler.masked e)) (srcTaint (.chmsk o) c))
      done (.chmsk o) ((if Handler.masked e && !bit (c.rG o.b) 0 then serve s a else s).pendOnce (.taskStart a))

/-- CHRD (R295). -/
def execChrd (o : OChrd) (s : State) : Out :=
  issue (.chrd o) s fun c =>
    let ch := (c.rG o.a).toNat
    let e := vget (s.core s.curAgent).handlers ch 0
    if 63 < ch then raise (.chrd o) s 0x02
    else if Handler.valid e && !c.priv && Handler.kid e != c.kid then raise (.chrd o) s 0x07
    else s.setCur ((c.wG o.d (if o.h then e.extractLsb' 64 64 else e.setWidth 64) (srcTaint (.chrd o) c)).past (.chrd o))

end Sys2Proof.Machine
end

