-- ==== Sys2Proof/Machine/Sync.lean ====
section
/-! DEFINITION. Barriers (R176 to R179, R300, R301), queues (R174, R175, R302), work-lists (R182, R183, R303), collectives (R184, R298), and
the expiry of bounded waits (R288). -/

namespace Sys2Proof.Machine

/-! Results and faults of a task that waits, live or saved. -/

/-- Change the registers of a task that lives or is saved (R184, R293). -/
def updTask (s : State) (t : BitVec 32) (f : Ctx → Ctx) : State :=
  match s.findTask t with
  | some (a, k) => s.modCtx a k f
  | none => s

/-- The context of a task that lives or is saved, with its agent. -/
def taskCtx (s : State) (t : BitVec 32) : Option (Nat × Ctx) :=
  (s.findTask t).map fun q => (q.1, s.ctx q.1 q.2)

/-- The instruction at which a task waits faults (R288); a saved task is then saved as FROZEN. -/
def failTask (s : State) (t : BitVec 32) (f : FInfo) : State :=
  match s.findTask t with
  | some (a, k) => failWaiter s a k f
  | none => s

/-! Barrier slots (R176). -/

def Bar.en (v : Word) : Bool := bit v 63
def Bar.phase (v : Word) : BitVec 8 := v.extractLsb' 48 8
def Bar.ecnt (v : Word) : Nat := bitsOf v 47 40
def Bar.arr (v : Word) : Nat := bitsOf v 39 32
def Bar.drop (v : Word) : Nat := bitsOf v 31 24
def Bar.rows (v : Word) : Nat := bitsOf v 11 9
def Bar.cols (v : Word) : Nat := bitsOf v 8 6
def Bar.row0 (v : Word) : Nat := bitsOf v 5 3
def Bar.col0 (v : Word) : Nat := bitsOf v 2 0
def Bar.setArr (v : Word) (n : Nat) : Word := putBits v 39 32 n

def cluX (k : Nat) : Nat := k % 8
def cluY (k : Nat) : Nat := k / 8 % 8
def cluAt (die cx cy : Nat) : Nat := die * 64 + cy * 8 + cx

/-- The clusters of a slot's rectangle. -/
def Bar.clusters (die : Nat) (v : Word) : List Nat := rectClusters die (Bar.col0 v, Bar.row0 v, Bar.cols v + 1, Bar.rows v + 1)

def barSlot (s : State) (k i : Nat) : Word := vget (s.clu k).bs i 0
def setSlot (s : State) (k i : Nat) (v : Word) : State := s.modClu k fun c => { c with bs := vset c.bs i v }

/-- A complete cluster passes its token on once those it waits for have arrived (R178). -/
def barAdvance (s : State) (k i : Nat) : State :=
  let c := s.clu k
  let v := barSlot s k i
  let d := cluDie k
  let x := cluX k
  let y := cluY k
  let rowIn := x == Bar.col0 v + Bar.cols v || vget c.bsEast i false
  let colIn := y == Bar.row0 v + Bar.rows v || vget c.bsSouth i false
  if !Bar.en v || Bar.arr v ≠ Bar.ecnt v || vget c.bsSent i false || !rowIn then s else
  let sent := s.setClu k { c with bsSent := vset c.bsSent i true }
  if x ≠ Bar.col0 v then sent.pend (.barrierSweep (.west d (x - 1) y i (Bar.phase v)))
  else if !colIn then s
  else if y ≠ Bar.row0 v then sent.pend (.barrierSweep (.north d x (y - 1) i (Bar.phase v)))
  else sent.pend (.barrierSweep (.release d x y i (Bar.phase v)))

/-- Arrive (R177): none where the arrival is not counted. -/
def barArrive (s : State) (k i : Nat) (drop : Bool) : Option (BitVec 8 × State) :=
  let v := barSlot s k i
  if !Bar.en v || Bar.arr v = Bar.ecnt v then none else
  let v' := Bar.setArr v (Bar.arr v + 1)
  let v' := if drop then putBits v' 31 24 (Bar.drop v + 1) else v'
  some (Bar.phase v, barAdvance (setSlot s k i v') k i)

/-- The waiters of a phase of a cluster return, with an acquire at `die` (R179), wherever they have moved since. -/
def barReturn (s : State) (k i : Nat) (p : BitVec 8) : State :=
  s.cores.foldl (fun (s : State) (q : Nat × Core) => (List.range 8).foldl (fun (s : State) x =>
    match (s.ctx q.1 x).wait with
    | some ⟨.barrier cl sl ph d taint bytes, _, _⟩ =>
      if cl = k && sl = i && ph = p then
        (acquire s q.1 .die).complete q.1 x bytes fun c => c.wG d (ph.setWidth 64) taint
      else s
    | _ => s) s) s

/-- A slot's PHASE has moved: the tasks of the cluster that wait for a PHASE other than `p`, and so for this one, return (R179). -/
def phaseReturn (s : State) (k i : Nat) : State :=
  let now := Bar.phase (barSlot s k i)
  (List.range 64).foldl (fun (s : State) j =>
    let a := 8 * k + j / 8
    let x := j % 8
    match (s.ctx a x).wait with
    | some ⟨.phase sl p d taint bytes, _, _⟩ =>
      if sl = i && p ≠ now.toNat then (acquire s a .die).complete a x bytes fun c => c.wG d (now.setWidth 64) taint else s
    | _ => s) s

/-- A cluster receives the release (R178). -/
def barRelease (s : State) (k i : Nat) : State :=
  let v := barSlot s k i
  let p := Bar.phase v
  let d := cluDie k
  let v' := putBits (putBits (putBits (putBits v 47 40 (Bar.ecnt v - Bar.drop v)) 39 32 0) 31 24 0) 55 48 (p.toNat + 1)
  let s := setSlot s k i v'
  let s := s.modClu k fun c => { c with bsSent := vset c.bsSent i false, bsEast := vset c.bsEast i false, bsSouth := vset c.bsSouth i false }
  let s := if cluX k = Bar.col0 v && cluY k < Bar.row0 v + Bar.rows v then
      s.pend (.barrierSweep (.release d (cluX k) (cluY k + 1) i p)) else s
  let s := if cluX k < Bar.col0 v + Bar.cols v then s.pend (.barrierSweep (.release d (cluX k + 1) (cluY k) i p)) else s
  let s := phaseReturn (barReturn s k i p) k i
  let all := Bar.clusters d v
  if all.all fun j => let w := barSlot s j i; Bar.phase w == Bar.phase v' && Bar.ecnt w == 0 then
    all.foldl (fun (s : State) j => setSlot s j i (setBit (barSlot s j i) 63 false)) s
  else barAdvance s k i

/-- BARRIER_SWEEP (R178): a token or a release of its phase arrives at a cluster. -/
def execBarrierSweep (s : State) : Out :=
  match s.ev with
  | some (.barrierSweep t) =>
    let s := s.took
    let live (k i : Nat) (p : BitVec 8) : Bool := let v := barSlot s k i; Bar.en v && Bar.phase v == p
    match t with
    | .west d x y i p =>
      let k := cluAt d x y
      if live k i p then .next (barAdvance (s.modClu k fun c => { c with bsEast := vset c.bsEast i true }) k i) else .next s
    | .north d x y i p =>
      let k := cluAt d x y
      if live k i p then .next (barAdvance (s.modClu k fun c => { c with bsSouth := vset c.bsSouth i true }) k i) else .next s
    | .release d x y i p =>
      let k := cluAt d x y
      if live k i p then answer (barRelease s k i) else .next s
  | _ => .next s

/-- A group that no ridge core may issue: fault 0x02 (R5). -/
def clusterOnly (i : Instr) (s : State) (go : State → State) : State := if isRidge s.curAgent then raise i s 0x02 else go s

/-- An operation on a slot that is bound to another kernel raises 0x07 (R289). -/
def slotForeign (s : State) (k i : Nat) (kid : BitVec 16) : Bool :=
  Bar.en (barSlot s k i) && vget (s.clu k).bsOwner i 0 != 0 && vget (s.clu k).bsOwner i 0 != kid

/-- An arrival form: release at `die` with R143, the count, then `go` with the phase (R177, R179). -/
def arrivalForm (i : Instr) (s : State) (slot : Nat) (drop : Bool) (limit : Nat) (go : BitVec 8 → State → State) : State :=
  clusterOnly i s fun s =>
    let k := agentClu s.curAgent
    if slotForeign s k slot s.cur.kid then raise i s 0x07 else
    let count (s : State) : State :=
      match barArrive s k slot drop with
      | none =>
        faultCur i s { code := 0x11, info := BitVec.ofNat 16 (slot * 256 + (Bar.phase (barSlot s k slot)).toNat) }
      | some (p, s) => go p s
    releaseThen s .die count limit

/-- BAR (R179, R300): waits for the release of its phase. -/
def execBar (o : OBar) (s : State) : Out :=
  issue (.bar o) s fun c =>
    let i : Instr := .bar o
    arrivalForm i s o.slot.toNat false (c.rG o.c).toNat fun p s =>
      waitFor s (.barrier (agentClu s.curAgent) o.slot.toNat p o.d (srcTaint i c) (Instr.bytes i)) (c.rG o.c).toNat

/-- BARARV (R179, R300). -/
def execBararv (o : OBarD) (s : State) : Out :=
  issue (.bararv o) s fun _ =>
    arrivalForm (.bararv o) s o.slot.toNat false 0 fun p s => s.setCur ((s.cur.wG o.d (p.setWidth 64)).past (.bararv o))

/-- BARDROP (R179, R300). -/
def execBardrop (o : OBar0) (s : State) : Out :=
  issue (.bardrop o) s fun _ => arrivalForm (.bardrop o) s o.slot.toNat true 0 fun _ s => done (.bardrop o) s

/-- BARWT (R179, R300). -/
def execBarwt (o : OBarwt) (s : State) : Out :=
  issue (.barwt o) s fun c =>
    let i : Instr := .barwt o
    clusterOnly i s fun s =>
      let k := agentClu s.curAgent
      let v := barSlot s k o.slot.toNat
      if slotForeign s k o.slot.toNat c.kid then raise i s 0x07
      else if (Bar.phase v).toNat = bitsOf (c.rG o.a) 7 0 then
        waitFor s (.phase o.slot.toNat (bitsOf (c.rG o.a) 7 0) o.d (srcTaint i c) (Instr.bytes i)) (c.rG o.c).toNat
      else
        let s := acquire s s.curAgent .die
        s.setCur ((s.cur.wG o.d ((Bar.phase v).setWidth 64) (srcTaint i c)).past i)

/-- BARRD (R300). -/
def execBarrd (o : OBarD) (s : State) : Out :=
  issue (.barrd o) s fun c =>
    clusterOnly (.barrd o) s fun s =>
      let k := agentClu s.curAgent
      if slotForeign s k o.slot.toNat c.kid then raise (.barrd o) s 0x07
      else s.setCur ((c.wG o.d (barSlot s k o.slot.toNat)).past (.barrd o))

/-- The 64 one-byte loads of a BARCFG array, checked in order. -/
def byteAddrs (va : Word) : List Word := (List.range 64).map fun (i : Nat) => (addAddr va i).getD 0

/-- Configure a slot in every cluster of its rectangle (R176). -/
def barConfigure (s : State) (slot die : Nat) (geo : Nat) (kid : BitVec 16) (ecnt : Nat → Nat) : State :=
  let w (k : Nat) : Word := BitVec.ofNat 64 (2 ^ 63 + ecnt (k % 64) % 256 * 2 ^ 40 + geo)
  let ks := Bar.clusters die (BitVec.ofNat 64 geo)
  let stale (e : Ev) : Bool := match e with
    | .barrierSweep (.west d x y i _) => i == slot && ks.contains (cluAt d x y)
    | .barrierSweep (.north d x y i _) => i == slot && ks.contains (cluAt d x y)
    | .barrierSweep (.release d x y i _) => i == slot && ks.contains (cluAt d x y)
    | _ => false
  let s := { s with pending := s.pending.filter fun e => !stale e }
  let s := ks.foldl (fun (s : State) k => s.modClu k fun c => { c with
    bs := vset c.bs slot (w k), bsOwner := vset c.bsOwner slot kid, bsSent := vset c.bsSent slot false
    bsEast := vset c.bsEast slot false, bsSouth := vset c.bsSouth slot false }) s
  ks.foldl (fun (s : State) k => barAdvance (phaseReturn s k slot) k slot) s

/-- BARCFG (R176, R300). -/
def execBarcfg (o : OBarcfg) (s : State) : Out :=
  issue (.barcfg o) s fun c =>
    let i : Instr := .barcfg o
    clusterOnly i s fun s =>
      let g := c.rG o.a
      let arr := c.rG o.b
      let slot := o.slot.toNat
      let die := agentDie s.curAgent
      let geo := bitsOf g 11 0
      let v := BitVec.ofNat 64 geo
      let ks := Bar.clusters die v
      let as_ := if arr = 0 then [] else byteAddrs arr
      match localCheck s (curAcc s) .rd (as_.map fun a => (a, 1, 1)) with
      | some f => faultCur i s f
      | none =>
        if bitsOf g 55 12 ≠ 0 || 7 < Bar.col0 v + Bar.cols v || 7 < Bar.row0 v + Bar.rows v || !ks.contains (agentClu s.curAgent)
            || (arr = 0 && 64 < bitsOf g 63 56) then raise i s 0x02
        else match accessAll s .rd .any (as_.map fun a => (a, 1, 1)) with
          | .error (_, va, e) => refuse i s va e
          | .ok ps =>
            let (xs, s) := ps.foldl (fun (r : List Nat × State) p =>
              let (b, s) := readPath r.2 (curAcc r.2) p 1
              (r.1 ++ [b], s)) ([], taintAcquire s (c.taintG o.b))
            let ecnt (k : Nat) : Nat := if arr = 0 then bitsOf g 63 56 else xs.getD k 0
            if ks.any fun k => 64 < ecnt (k % 64) || (Bar.en (barSlot s k slot) && Bar.arr (barSlot s k slot) != 0) then raise i s 0x02
            else if ks.any fun k => slotForeign s k slot c.kid then raise i s 0x07
            else done i (barConfigure s slot die geo c.kid ecnt)

/-! Queues (R174, R175). -/

def Qd.en (v : Word) : Bool := bit v 63
def Qd.broken (v : Word) : Bool := bit v 62
def Qd.head (v : Word) : Nat := bitsOf v 55 40
def Qd.tail (v : Word) : Nat := bitsOf v 39 24
def Qd.cap (v : Word) : Nat := 2 ^ bitsOf v 23 20
def Qd.core (v : Word) : Nat := bitsOf v 19 17
def Qd.offs (v : Word) : Nat := bitsOf v 16 0 * 8
def Qd.count (v : Word) : Nat := (Qd.tail v + 65536 - Qd.head v) % 65536
def Qd.entry (v : Word) (n : Nat) : Nat := Qd.offs v + 8 * (n % Qd.cap v)

def qdGet (s : State) (k q : Nat) : Word := vget (s.clu k).qd q 0
def qdSet (s : State) (k q : Nat) (v : Word) : State := s.modClu k fun c => { c with qd := vset c.qd q v }
def qForeign (s : State) (k q : Nat) (kid : BitVec 16) : Bool :=
  Qd.en (qdGet s k q) && vget (s.clu k).qOwner q 0 != 0 && vget (s.clu k).qOwner q 0 != kid

/-- Push an 8-byte entry at TAIL. -/
def qPush (s : State) (k q : Nat) (x : Word) : State :=
  let v := qdGet s k q
  qdSet (spWrite s (8 * k + Qd.core v) (Qd.entry v (Qd.tail v)) 8 x.toNat) k q (putBits v 39 24 (Qd.tail v + 1))

/-- An operation of a context on its cluster's queue: ridge, EN, kernel, BROKEN, in that order. -/
def queueForm (i : Instr) (s : State) (q : Nat) (go : Nat → Word → State → State) : State :=
  clusterOnly i s fun s =>
    let k := agentClu s.curAgent
    let v := qdGet s k q
    if !Qd.en v then raise i (dropWaits s s.curAgent s.curCtx) 0x02
    else if qForeign s k q s.cur.kid then raise i (dropWaits s s.curAgent s.curCtx) 0x07
    else if Qd.broken v then raise i (dropWaits s s.curAgent s.curCtx) 0x15
    else go k v s

/-- The first of a queue's waiters is the context, or nobody waits. -/
def firstOf (l : List (Nat × Nat × Nat)) (q a k : Nat) : Bool :=
  match l.find? fun w => w.1 == q with | none => true | some w => w.2.1 == a && w.2.2 == k

def joinQueue (l : List (Nat × Nat × Nat)) (w : Nat × Nat × Nat) : List (Nat × Nat × Nat) := if l.contains w then l else l ++ [w]

/-- QPUSH (R175, R302): first come, first served; a release at `clu`. -/
def execQpush (o : OQpush) (s : State) : Out :=
  issue (.qpush o) s fun c =>
    let q := o.q.toNat
    queueForm (.qpush o) s q fun k v s =>
      let a := s.curAgent
      let x := s.curCtx
      let off := Qd.entry v (Qd.tail v)
      let p := 8 * k + Qd.core v
      if Qd.cap v ≤ Qd.count v || !firstOf (s.clu k).pushers q a x || portBusy s p off 8 then
        let s := if Qd.count v < Qd.cap v && firstOf (s.clu k).pushers q a x then atPort s p else s
        waitFor (s.modClu k fun cl => { cl with pushers := joinQueue cl.pushers (q, a, x) }) (.queue k q) (c.rG o.c).toNat
      else releaseThen s .clu (fun s => done (.qpush o) (qPush (dropWaits s a x) k q (c.rG o.a))) (c.rG o.c).toNat

/-- QPOP (R175, R302): an acquire at `clu`. -/
def execQpop (o : OQpop) (s : State) : Out :=
  issue (.qpop o) s fun c =>
    let q := o.q.toNat
    queueForm (.qpop o) s q fun k v s =>
      let a := s.curAgent
      let x := s.curCtx
      if Qd.count v = 0 || !firstOf (s.clu k).poppers q a x then
        waitFor (s.modClu k fun cl => { cl with poppers := joinQueue cl.poppers (q, a, x) }) (.queue k q) (c.rG o.c).toNat
      else
        let w := 8 * k + Qd.core v
        let off := Qd.entry v (Qd.head v)
        if s.spPoison.contains (w, off / 64) then faultCur (.qpop o) (dropWaits s a x) { code := 0x1B, sub := 1 } else
        let e := (s.core w).spad.readNat off 8
        let s := acquire (qdSet (dropWaits s a x) k q (putBits v 55 40 (Qd.head v + 1))) a .clu
        s.setCur ((s.cur.wG o.d (BitVec.ofNat 64 e)).past (.qpop o))

/-- The queue logic tests a waiting context's instruction again. -/
def retest (s : State) (a k : Nat) : State :=
  let (ca, ck) := (s.curAgent, s.curCtx)
  let r : Out := match nextInstr { s with curAgent := a, curCtx := k } with
    | .run (.qpush o) t => execQpush o t
    | .run (.qpop o) t => execQpop o t
    | _ => .next s
  match r with | .next t => { t with curAgent := ca, curCtx := ck } | _ => s

/-- Every operation that waits on a queue is tested again, in arrival order (R174). -/
def retestQueue (s : State) (k q : Nat) : State :=
  let c := s.clu k
  ((c.pushers ++ c.poppers).filter fun w => w.1 == q).foldl (fun (s : State) w =>
    match (s.ctx w.2.1 w.2.2).wait with | some ⟨.queue _ _, _, _⟩ => retest s w.2.1 w.2.2 | _ => s) s

/-- QDWR (R174, R289, R302): what waits has been served as the old descriptor lets it, and is tested against the new one. -/
def execQdwr (o : OQA) (s : State) : Out :=
  issue (.qdwr o) s fun c =>
    clusterOnly (.qdwr o) s fun s =>
      let k := agentClu s.curAgent
      let q := o.q.toNat
      let v := c.rG o.a
      let lc := bitsOf v 23 20
      if bitsOf v 61 56 ≠ 0 || lc = 0 || 12 < lc then raise (.qdwr o) s 0x02
      else if !(s.core (8 * k + Qd.core v)).rangeLive (Qd.offs v) (8 * Qd.cap v) false then raise (.qdwr o) s 0x05
      else if qForeign s k q c.kid then raise (.qdwr o) s 0x07
      else
        let s := (qdSet (retestQueue s k q) k q v).modClu k fun cl => { cl with
          qOwner := vset cl.qOwner q c.kid, brokeSw := if Qd.broken v then cl.brokeSw else cl.brokeSw.filter fun b => b.1 != q }
        done (.qdwr o) (retestQueue s k q)

/-- QDRD (R302). -/
def execQdrd (o : OQD) (s : State) : Out :=
  issue (.qdrd o) s fun c =>
    clusterOnly (.qdrd o) s fun s =>
      let k := agentClu s.curAgent
      if qForeign s k o.q.toNat c.kid then raise (.qdrd o) s 0x07
      else s.setCur ((c.wG o.d (qdGet s k o.q.toNat)).past (.qdrd o))

/-! Work-lists (R182, R183, R303). -/

/-- The header of a work-list: on a REL page of this device. -/
def headerPath (s : State) (x : Acc) (va : Word) (k : AKind := .at) : Res (Path × Nat) :=
  if addrPart va % 64 ≠ 0 then faultAt 0x04 va
  else if 0xF0 ≤ addrPart va / 2 ^ 48 then faultAt 0x08 va
  else match resolve s x va 64 64 k .object with
    | .error e => .error e
    | .ok (.mem ia pa ty disc) => if ty == .rel then .ok (.mem ia pa .rel disc, pa) else faultAt 0x08 va ia pa
    | .ok _ => faultAt 0x08 va

/-- The header's live fields, written at its home. -/
def wlFields (w : WorkList) (h : Nat) : Nat :=
  let b := BitVec.ofNat 512 h
  (putBits (putBits (putBits (putBits b 319 288 w.entries.length) 287 256 w.spilled.toNat) 191 128 w.pops.toNat) 63 0 w.pushes.toNat).toNat

/-- One work-list operation on a bound header, at its home. -/
def wlOp (i : Instr) (s : State) (va : Word) (rel : Bool) (go : Nat → WorkList → State → (Nat → WorkList → State → State) → State)
    (k : AKind := .at) : State :=
  match headerPath s (curAcc s) va k with
  | .error e => refuse i s va e
  | .ok (p, pa) =>
    match s.workLists.find? pa with
    | none => raise i s 0x02
    | some w =>
      let put (r : Nat) (w' : WorkList) (s : State) : State :=
        let s := { s with workLists := s.workLists.set pa w' }
        let (_, s) := atomicPath s (curAcc s) p 64 .dev fun h => some (wlFields w' h)
        match i.roles.find? fun q => q.dst && !q.vec with
        | some q => s.setCur ((s.cur.wG q.reg (BitVec.ofNat 64 r) (srcTaint i s.cur)).past i)
        | none => done i s
      let s := taintAcquire s (s.cur.taintG (match i.roles.find? fun q => q.src with | some q => q.reg | none => 0))
      if rel then releaseThen s .dev fun s => go pa w s put else go pa w s put

/-- WLINIT (R182, R303). -/
def execWlinit (o : OA) (s : State) : Out :=
  issue (.wlinit o) s fun c =>
    let i : Instr := .wlinit o
    let va := c.rG o.a
    match headerPath s (curAcc s) va with
    | .error e => refuse i s va e
    | .ok (p, pa) =>
      releaseThen (taintAcquire s (c.taintG o.a)) .dev fun s =>
        let (h, s) := atomicPath s (curAcc s) p 64 .dev fun _ => none
        let hcap := recBytes h 0x28 4
        let scap := recBytes h 0x2C 4
        let spill := recBytes h 0x30 8
        if (s.workLists.find? pa).isSome || hcap < 16 || 4096 < hcap || 2 ^ hcap.log2 ≠ hcap || (scap ≠ 0 && (scap < 1024 || 1048576 < scap))
            || spill % 64 ≠ 0 then raise i s 0x02
        else
          let w : WorkList := ⟨hcap, scap, [], false, 0, 0, c.kid⟩
          let s := { s with workLists := s.workLists.set pa w }
          done i (atomicPath s (curAcc s) p 64 .dev fun h => some (wlFields w h)).2

/-- Append an entry: 0 added, 2 full. SPILLED stays set until WLINIT, also once the ring is empty again (DESIGN CHOICE, log 26: R183 does not
say when it clears). -/
def wlAdd (w : WorkList) (x : BitVec 32) : Nat × WorkList :=
  if w.hcap + w.scap ≤ w.entries.length then (2, w) else
  (0, { w with entries := w.entries ++ [x], pushes := w.pushes + 1, spilled := w.spilled || decide (w.hcap ≤ w.entries.length) })

/-- 0xFFFFFFFF is reserved: adding it faults, after the checks of the header's own address (R183, R209, R303). -/
def wlReserved (s : State) (va : Word) (x : BitVec 32) : Bool :=
  x = 0xFFFFFFFF && addrPart va / 2 ^ 48 < 0xF0 && (localCheck s (curAcc s) .at [(va, 64, 64)]).isNone

/-- WLPUSH (R183, R303). -/
def execWlpush (o : ODAB) (s : State) : Out :=
  issue (.wlpush o) s fun c =>
    let x := (c.rG o.b).setWidth 32
    if wlReserved s (c.rG o.a) x then raise (.wlpush o) s 0x02 else
    wlOp (.wlpush o) s (c.rG o.a) true fun _ w s put => let (r, w') := wlAdd w x; put r w' s

/-- WLINS (R183, R303): an entry that is present is not added. -/
def execWlins (o : ODAB) (s : State) : Out :=
  issue (.wlins o) s fun c =>
    let x := (c.rG o.b).setWidth 32
    if wlReserved s (c.rG o.a) x then raise (.wlins o) s 0x02 else
    wlOp (.wlins o) s (c.rG o.a) true fun _ w s put =>
      if w.entries.contains x then put 1 w s else let (r, w') := wlAdd w x; put r w' s

/-- WLPOPB (R183, R303): up to 16 oldest entries; an acquire at `dev`. -/
def execWlpopb (o : ODAB) (s : State) : Out :=
  issue (.wlpopb o) s fun c =>
    wlOp (.wlpopb o) s (c.rG o.a) false fun _ w s put =>
      let xs := w.entries.take 16
      let v := (List.range 16).foldl (fun v l => setLane v l (xs.getD l 0xFFFFFFFF).toNat) (0 : Line)
      let s := acquire (s.setCur (s.cur.wV o.b v (srcTaint (.wlpopb o) c))) s.curAgent .dev
      put xs.length { w with entries := w.entries.drop 16, pops := w.pops + BitVec.ofNat 64 xs.length } s

/-- WLSTAT (R303): a read at the home, with the permission of a load. -/
def execWlstat (o : ODA) (s : State) : Out :=
  issue (.wlstat o) s fun c =>
    wlOp (.wlstat o) s (c.rG o.a) false (fun _ w s put => put (w.spilled.toNat * 2 ^ 32 + w.entries.length) w s) .rd

/-- WLFREE (R303): the header keeps its final fields, and the list is unbound. -/
def execWlfree (o : OA) (s : State) : Out :=
  issue (.wlfree o) s fun c =>
    wlOp (.wlfree o) s (c.rG o.a) true fun pa w s put =>
      let s := put 0 w s
      { s with workLists := s.workLists.erase pa }

/-! Collectives (R184, R298). -/

/-- Slice-order mode (R50): a launch with the flag runs its kernel, every task of the KID, in the mode. DESIGN CHOICE (log 62): the mode lasts from
the queueing of the launch record until that launch resolves; the spec gives it no beginning and no end. -/
def sliceOrder (s : State) (kid : BitVec 16) : Bool :=
  (List.range 4).any fun d => (s.die d).launchq.any fun l => bit l.dem 0 && l.kid == kid

/-- COLL (R184, R298). The unit's number also names the home device. One caller alone receives its operand: of a scalar register the low bits
of the format, extended (DESIGN CHOICE, log 24: R298 does not say what the bits above the format become). -/
def execColl (o : OColl) (s : State) : Out :=
  issue (.coll o) s fun c =>
    let i : Instr := .coll o
    let desc := c.rG o.a
    let n := bitsOf desc 31 16
    let idx := bitsOf desc 15 0
    let id : BitVec 16 := desc.extractLsb' 32 16
    let dev : BitVec 6 := desc.extractLsb' 58 6
    let t := srcTaint i c
    if n = 0 then raise i s 0x14
    else if bitsOf desc 57 48 ≠ 0 || n ≤ idx || !domainDev s dev then raise i s 0x02
    else if n = 1 then
      s.setCur ((if o.vec then c.wV o.d (c.rV o.b) t
        else c.wG o.d (BitVec.ofNat 64 (extend o.fmt ((c.rG o.b).toNat % 2 ^ o.fmt.bits) 64)) t).past i)
    else
      let sc : Scope := if dev = s.devno then .dev else .sys
      let lim := (c.rG o.c).toNat
      let join (s : State) : State :=
        let v : Line := if o.vec then c.rV o.b else (c.rG o.b).setWidth 512
        let die := id.toNat / 64 % 4
        let unit := dev.toNat * 64 + id.toNat % 64
        let m : CollMsg := ⟨s.curAgent, s.curCtx, c.task, c.kid, dev, id, n, idx, o.op, o.vec, o.fmt, v, lim, sliceOrder s c.kid⟩
        (waitFor s (.coll die unit id idx o.vec o.d t o.fmt sc (Instr.bytes i)) lim).pend (.collArrive m)
      releaseThen s sc join lim

def collDie (m : CollMsg) : Nat := m.id.toNat / 64 % 4
def collUnit (m : CollMsg) : Nat := m.dev.toNat * 64 + m.id.toNat % 64

/-- The task of an arrival still waits at its COLL. -/
def collWaits (s : State) (m : CollMsg) : Bool :=
  match taskCtx s m.task with
  | some (_, c) => (match c.wait with | some ⟨.coll _ _ id i _ _ _ _ _ _, _, _⟩ => id == m.id && i == m.i | _ => false)
  | none => false

/-- The combined result (R46, R47, R50): per lane for vectors, with the OR of the flags. Where the kernel entered or left slice-order mode
between the arrivals, the mode at the first of them decides (DESIGN CHOICE, log 24: R16, R50 and R184 do not say). -/
def collResult (c : CollInst) : Fl Line :=
  let xs := (List.range c.n).map fun i => match c.arrived.find? fun m => m.i == i with | some m => m.value | none => 0
  let slice := (match c.arrived with | m :: _ => m.sliceOrd | [] => false) && c.fmt.isFloat && !c.op.bitwise
  let comb (l : List Nat) : Fl Nat := if slice then foldCombine (combine c.op c.fmt) l else treeCombine (combine c.op c.fmt) l
  if c.vec then mapLanes (List.range 16) 0 fun l => comb (xs.map fun x => lane x l)
  else let (r, f) := comb (xs.map fun x => x.toNat % 2 ^ c.fmt.bits); (BitVec.ofNat 512 (extend c.fmt r 64), f)

/-- The result reaches a caller: an acquire, the destination, the flags. -/
def collDeliver (s : State) (m : CollMsg) (r : Fl Line) : State :=
  match taskCtx s m.task with
  | some (a, c) =>
    match c.wait with
    | some ⟨.coll _ _ id i vec d t _ sc bytes, _, _⟩ =>
      if id ≠ m.id || i ≠ m.i then s else
      let s := if (s.findTask m.task).isSome then acquire s a sc else s
      updTask s m.task fun c =>
        let c := (if vec then c.wV d r.1 t else c.wG d (r.1.setWidth 64) t).orFlags r.2
        { c with pc := c.pc + BitVec.ofNat 64 bytes, wait := none }
    | _ => s
  | none => s

def collKey (m : CollMsg) (c : CollInst) : Bool := c.unit == collUnit m && c.kid == m.kid && c.id == m.id

/-- The fault of a short or unlike collective carries the arrived count (R212). -/
def collFault (n : Nat) : FInfo := { code := 0x14, info := BitVec.ofNat 16 n }

/-- The unit of this device makes no progress (R223, R229). A halt group stops it between combinations: an open one runs to completion (R219). -/
def collHeld (s : State) (m : CollMsg) (opens : Bool) : Bool :=
  let e : Engine := .coll (collDie m) (m.id.toNat % 64)
  m.dev == s.devno && (engStopped s e || (opens && engHalted s e))

/-- COLL_ARRIVE (R184). -/
def execCollArrive (s : State) : Out :=
  match s.ev with
  | some (.collArrive m) =>
    let d := collDie m
    let cs := (s.die d).colls
    if agentOk m.agent && !collWaits s m then .next s.took
    else if collHeld s m (cs.find? (collKey m)).isNone then .next s
    else match cs.find? (collKey m) with
      | none =>
        if 16 ≤ (cs.filter fun c => c.unit == collUnit m).length then .next s
        else
          let c : CollInst := ⟨collUnit m, m.kid, m.id, m.n, m.op, m.vec, m.fmt, m.limit, s.now, [m]⟩
          let s := s.took.modDie d fun x => { x with colls := x.colls ++ [c] }
          .next (if m.limit = 0 then s else s.pend (.collTimerExpire d (collUnit m) m.kid m.id))
      | some c =>
        let s := s.took
        if c.n ≠ m.n || c.op ≠ m.op || c.vec ≠ m.vec || c.fmt ≠ m.fmt || c.arrived.any (fun x => x.i == m.i) then
          answer (failTask s m.task (collFault c.arrived.length))
        else
          let c' := { c with arrived := c.arrived ++ [m] }
          if c'.arrived.length < c.n then
            .next (s.modDie d fun x => { x with colls := x.colls.map fun y => if collKey m y then c' else y })
          else
            let s := s.modDie d fun x => { x with colls := x.colls.filter fun y => !collKey m y }
            let r := collResult c'
            answer (c'.arrived.foldl (fun (s : State) x => collDeliver s x r) s)
  | _ => .next s

/-- COLL_TIMER_EXPIRE (R184): every waiting caller faults, and the instance is freed. -/
def execCollTimerExpire (s : State) : Out :=
  match s.ev with
  | some (.collTimerExpire d unit kid id) =>
    match (s.die d).colls.find? fun c => c.unit == unit && c.kid == kid && c.id == id with
    | none => .next s.took
    | some c =>
      if c.limit = 0 then .next s.took
      else if s.now < c.opened + c.limit then .next s
      else
        let s := s.took.modDie d fun x => { x with colls := x.colls.filter fun y => !(y.unit == unit && y.kid == kid && y.id == id) }
        answer (c.arrived.foldl (fun (s : State) m => if collWaits s m then failTask s m.task (collFault c.arrived.length) else s) s)
  | _ => .next s

/-! Bounded waits (R288). -/

/-- The fault of an expired wait: a queue's packet carries its state in VA (R175). -/
def expiryInfo (s : State) (w : WaitFor) : FInfo :=
  match w with
  | .queue k q =>
    let v := qdGet s k q
    { code := 0x12, va := BitVec.ofNat 64 (q * 2 ^ 32 + Qd.head v * 2 ^ 16 + Qd.tail v) }
  | _ => { code := 0x12 }

/-- A bounded BAR expires (R301): its arrival is withdrawn, or it waits on with no limit where its cluster is complete. -/
def barExpire (s : State) (a k clu slot : Nat) : State :=
  let v := barSlot s clu slot
  if Bar.arr v = Bar.ecnt v then
    s.modCtx a k fun c => { c with wait := c.wait.map fun w => { w with limit := 0 } }
  else failTask (setSlot s clu slot (Bar.setArr v (Bar.arr v - 1))) (s.ctx a k).task { code := 0x12 }

/-- A caller's own limit expires before the combination and before the timer (R184). -/
def collExpire (s : State) (d unit : Nat) (id : BitVec 16) (c : Ctx) : State :=
  let mine (m : CollMsg) : Bool := m.task == c.task
  let s := s.modDie d fun x => { x with colls := x.colls.map fun y =>
    if y.unit = unit && y.kid = c.kid && y.id = id then { y with arrived := y.arrived.filter fun m => !mine m } else y }
  let s := { s with pending := s.pending.filter fun e => match e with | .collArrive m => !mine m | _ => true }
  let n := match (s.die d).colls.find? fun y => y.unit == unit && y.kid == c.kid && y.id == id with | some y => y.arrived.length | none => 0
  failTask s c.task (collFault n)

/-- A bounded instruction expires at which the home has nothing yet: before its release is over (R143), or after a stop withdrew it (R288). The fault
is that of its own wait. -/
def issueExpire (s : State) (a k : Nat) (c : Ctx) : State :=
  match nextInstr { s with curAgent := a, curCtx := k } with
  | .run (.coll o) _ =>
    let id : BitVec 16 := (c.rG o.a).extractLsb' 32 16
    collExpire s (id.toNat / 64 % 4) (bitsOf (c.rG o.a) 63 58 * 64 + id.toNat % 64) id c
  | .run (.qpush o) _ => failTask s c.task (expiryInfo s (.queue (agentClu a) o.q.toNat))
  | .run (.qpop o) _ => failTask s c.task (expiryInfo s (.queue (agentClu a) o.q.toNat))
  | _ => failTask s c.task { code := 0x12 }

/-- A wait in a queue expires, unless the queue logic can serve it in this cycle. -/
def queueExpire (s : State) (a k : Nat) (w : WaitFor) : State :=
  let t := retest s a k
  match (t.ctx a k).wait with
  | some ⟨.queue _ _, _, _⟩ => failTask s (s.ctx a k).task (expiryInfo s w)
  | _ => t

/-- The wait of a task in a collective ends with the instance's timer: the opener's always, a later caller's where its own limit ends no
earlier (R184). -/
def timerEnds (y : CollInst) (w : Wait) (task : BitVec 32) : Bool :=
  let opener : Bool := match y.arrived with | m :: _ => m.task == task && w.limit == y.limit | [] => false
  y.limit != 0 && (opener || (decide (y.opened + y.limit ≤ w.since + w.limit) && y.arrived.any fun m => m.task == task))

/-- BOUNDED_WAIT_EXPIRE (R288). -/
def execBoundedWaitExpire (s : State) : Out :=
  match s.ev with
  | some (.boundedWaitExpire a k) =>
    let c := s.ctx a k
    match c.wait with
    | none => .next s.took
    | some w =>
      if c.st != .live || w.limit = 0 then .next s.took
      else if !c.expired s.now then .next s
      else match w.what with
        | .barrier clu slot _ _ _ _ => answer (barExpire s.took a k clu slot)
        | .coll d unit id _ _ _ _ _ _ _ =>
          match (s.die d).colls.find? fun y => y.unit == unit && y.kid == c.kid && y.id == id with
          | some y =>
            if timerEnds y w c.task then .next s
            else answer (collExpire s.took d unit id c)
          | none => answer (collExpire s.took d unit id c)
        | .lease => if (s.clu (agentClu a)).lease.holder = some (a, k) then .next s else answer (failTask s.took c.task { code := 0x12 })
        | .updates => answer (issueExpire s.took a k c)
        | .retry => answer (issueExpire s.took a k c)
        | .queue q n => answer (queueExpire s.took a k (.queue q n))
        | x => answer (failTask s.took c.task (expiryInfo s x))
  | _ => .next s

end Sys2Proof.Machine
end

