-- ==== Sys2Proof/Machine/Matrix.lean ====
section
/-! DEFINITION. Group 0x31: the matrix lease, tiles, staging, products and drains (R324 to R337), and the copy engine's active command
(R166). -/

namespace Sys2Proof.Machine

def bufBytes : Nat := 262144

/-! The lease (R165, R329). -/

/-- Request the lease: it is granted to the best waiter when it is free. -/
def leaseAsk (s : State) (k : Nat) (p : Nat × Nat) : State :=
  let l := (s.clu k).lease
  if l.holder = some p then s else
  leaseNext (s.modClu k fun c => { c with lease := { l with waiters := if l.waiters.contains p then l.waiters else l.waiters ++ [p] } }) k

/-- An instruction that needs the lease (R325): a holder whose array is not yet cleared, or whose grant has ended, waits, within the instruction's
cycle limit. -/
def leaseForm (i : Instr) (s : State) (go : State → State) (limit : Nat := 0) : State :=
  let k := agentClu s.curAgent
  let p := (s.curAgent, s.curCtx)
  let l := (s.clu k).lease
  if l.holder = some p then
    let s := arrayPass s k
    if (s.clu k).lease.due then waitFor s .retry limit else go s
  else if l.lapsed.contains p then waitFor (leaseAsk s k p) .retry limit
  else raise i s 0x17

/-- A counted command of the grant; the grant ends with the sixteenth (R165). -/
def leaseCount (s : State) (k : Nat) : State :=
  let l := (s.clu k).lease
  let s := s.modClu k fun c => { c with lease := { l with left := l.left - 1 } }
  if l.left ≤ 1 then leaseEnd s k else s

/-- MXLEASE (R329). -/
def execMxlease (o : OXC) (s : State) : Out :=
  issue (.mxlease o) s fun c =>
    clusterOnly (.mxlease o) s fun s =>
      let k := agentClu s.curAgent
      let p := (s.curAgent, s.curCtx)
      let s := leaseAsk s k p
      if (s.clu k).lease.holder = some p then done (.mxlease o) s else waitFor s .lease (c.rG o.c).toNat

/-- MXREL (R329). -/
def execMxrel (s : State) : Out :=
  issue .mxrel s fun _ =>
    clusterOnly .mxrel s fun s => done .mxrel (leaseDrop s (agentClu s.curAgent) (s.curAgent, s.curCtx))

/-- LEASE_GRANT_EXPIRE (R165): 65,536 cycles after the grant. -/
def execLeaseGrantExpire (s : State) : Out :=
  match s.ev with
  | some (.leaseGrantExpire k) =>
    let l := (s.clu k).lease
    if l.holder.isNone then .next s.took
    else if s.now < l.since + 65536 then .next s
    else answer (leaseEnd s.took k)
  | _ => .next s

/-! Tiles (R330). -/

def MxEntry.tileNo (e : MxEntry) : Option Nat := match e.cmd with | .stage .. => none | .mul _ t .. => some t | .drain t .. => some t
def tileBusy (c : Cluster) (t : Nat) : Bool := c.cmds.any fun e => e.inArray && e.tileNo == some t
def tileOf (c : Cluster) (t : Nat) : Tile := vget c.tiles t ⟨none, []⟩
def setTile (s : State) (k t : Nat) (x : Tile) : State := s.modClu k fun c => { c with tiles := vset c.tiles t x }

/-- TCFG (R330). -/
def execTcfg (o : OTA) (s : State) : Out :=
  issue (.tcfg o) s fun c =>
    clusterOnly (.tcfg o) s fun s =>
      let g := c.rG o.a
      let k := agentClu s.curAgent
      if bit g 7 || bit g 15 || bitsOf g 63 17 ≠ 0 then raise (.tcfg o) s 0x02 else
      leaseForm (.tcfg o) s fun s =>
        if tileBusy (s.clu k) o.t.toNat then raise (.tcfg o) s 0x16
        else done (.tcfg o) (setTile s k o.t.toNat ⟨some (bitsOf g 6 0 + 1, bitsOf g 14 8 + 1, bit g 16), []⟩)

/-- TREL (R330). -/
def execTrel (o : OT) (s : State) : Out :=
  issue (.trel o) s fun _ =>
    clusterOnly (.trel o) s fun s =>
      leaseForm (.trel o) s fun s =>
        let k := agentClu s.curAgent
        if tileBusy (s.clu k) o.t.toNat then waitFor s .retry
        else done (.trel o) (setTile s k o.t.toNat { tileOf (s.clu k) o.t.toNat with conf := none })

/-- MXWAIT (R330). -/
def execMxwait (o : OTC) (s : State) : Out :=
  issue (.mxwait o) s fun c =>
    clusterOnly (.mxwait o) s fun s =>
      leaseForm (.mxwait o) s (fun s =>
        if tileBusy (s.clu (agentClu s.curAgent)) o.t.toNat then waitFor s .retry (c.rG o.c).toNat else done (.mxwait o) s) (c.rG o.c).toNat

/-! The copy engine (R166). -/

/-- The active command is over. -/
def ceEnd (s : State) (k : Nat) : State := ceKick (s.modClu k fun c => { c with active := none }) k

/-- The issuing core's place is full (R166). -/
def placeFull (s : State) (a : Nat) : Bool := (s.clu (agentClu a)).places.any fun p => p.1 == coreIdx a
def cePut (s : State) (a : Nat) (e : CeEntry) : State :=
  ceKick (s.modClu (agentClu a) fun c => { c with places := c.places ++ [(coreIdx a, e)] }) (agentClu a)

/-! Issue of matrix commands (R326, R327). -/

/-- A disabled array: fault 0x1B, SUB 2 (R230). -/
def arrayUp (i : Instr) (s : State) (go : State → State) : State :=
  if (s.clu (agentClu s.curAgent)).disabled then faultCur i s { code := 0x1B, sub := 2 } else go s

/-- Both array sets are full (R166). -/
def setsFull (c : Cluster) : Bool := decide (2 ≤ (c.cmds.filter MxEntry.inArray).length)

/-- Stamp and queue a command: its issue number. -/
def mxPut (s : State) (cmd : MxCmd) : Nat × State :=
  let k := agentClu s.curAgent
  let c := s.clu k
  (c.nextNo, s.setClu k { c with cmds := c.cmds ++ [⟨c.nextNo, issuerOf s, cmd, false, ⟨none, []⟩⟩], nextNo := c.nextNo + 1 })

/-- The check at issue of an own-scratchpad range of an engine command (R417). -/
def ownRangeBad (s : State) (va : Word) (n : Nat) : Bool :=
  addrPart va / 2 ^ 48 == 0xF0
    && (isRidge s.curAgent || decide (s.cur.claim * wayBytes < addrPart va % 2 ^ 48 + n))

/-- An element of a record's tile that lies in the own scratchpad beyond the claim (R417). -/
def shapeOwnBad (s : State) (sh : Shape) (t : Nat) : Bool :=
  (List.range sh.count).any fun n => !sh.clipped t (sh.index n) && (match sh.addr t (sh.index n) with
    | some a => ownRangeBad s a (Shape.size sh.fmt) | none => false)

/-! Staging (R331). -/

/-- MXLDA and MXLDB. -/
def execStage (i : Instr) (o : OXABCE) (s : State) (toB : Bool) : Out :=
  issue i s fun c =>
    clusterOnly i s fun s =>
      let g := c.rG o.a
      let h := c.rG o.c
      let src := c.rG o.b
      let st := c.rG o.e
      let boff := bitsOf g 17 0
      let pitch := bitsOf g 49 32
      let rb := bitsOf h 17 0 + 1
      let rows := bitsOf h 47 32 + 1
      if bitsOf g 31 18 ≠ 0 || bitsOf g 63 50 ≠ 0 || bitsOf h 31 18 ≠ 0 || bitsOf h 63 48 ≠ 0 || bufBytes < boff + (rows - 1) * pitch + rb
          || (1 < rows && pitch < rb) then raise i s 0x02
      else if boff % 4 ≠ 0 || pitch % 4 ≠ 0 || rb % 4 ≠ 0 || src.toNat % 4 ≠ 0 || st.toNat % 4 ≠ 0 then raise i s 0x04
      else if (List.range rows).any fun r => match addAddr src (r * st.toInt) with | some a => ownRangeBad s a rb | none => false then
        raise i s 0x05 src
      else
        leaseForm i s fun s => arrayUp i s fun s =>
          if placeFull s s.curAgent then waitFor s .retry else
          releaseThen s .dev fun s =>
            let (no, s) := mxPut s (.stage toB boff pitch rb rows src st)
            done i (cePut s s.curAgent ⟨issuerOf s, .mx no, 0, 0⟩)

/-- MXLDA (R331). -/
def execMxlda (o : OXABCE) (s : State) : Out := execStage (.mxlda o) o s false
/-- MXLDB (R331). -/
def execMxldb (o : OXABCE) (s : State) : Out := execStage (.mxldb o) o s true

/-- The operand bytes of a product in buffer A or B: first byte and the byte after the last. -/
def mulRange (c : Cluster) (toB : Bool) (cmd : MxCmd) : Option (Nat × Nat) :=
  match cmd with
  | .mul _ t fa fb _ ka kb ao ap bo bp k _ =>
    match (tileOf c t).conf with
    | none => none
    | some (m, n, _) =>
      if toB then some (bo, bo + (n - 1) * bp + rowBytes fb kb k) else some (ao, ao + (m - 1) * ap + rowBytes fa ka k)
  | _ => none

def stageRange : MxCmd → Option (Bool × Nat × Nat)
  | .stage toB boff pitch rb rows _ _ => some (toB, boff, boff + (rows - 1) * pitch + rb)
  | _ => none

def overlaps (a b : Nat × Nat) : Bool := decide (a.1 < b.2) && decide (b.1 < a.2)

/-- An earlier command that a staging, or a product, must wait for (R326). -/
def mxWaits (c : Cluster) (e : MxEntry) : Bool :=
  c.cmds.any fun q => decide (q.no < e.no) && (match stageRange e.cmd, stageRange q.cmd with
    | some (b, x), some (b', y) => b == b' && overlaps x y
    | some (b, x), none => q.inArray && (match mulRange c b q.cmd with | some y => overlaps x y | none => false)
    | none, some (b, x) => (match mulRange c b e.cmd with | some y => overlaps x y | none => false)
    | none, none => false)

/-- Bytes of a staging from byte `pos` on, row by row, to the end of its 256-byte piece or of the `total`: where it stops it says why. -/
def stagePiece (s : State) (x : Acc) (k : Nat) (toB : Bool) (boff pitch rb total : Nat) (src st : Word) : Nat → Nat → State × Nat × Option (Word × AErr)
  | 0, pos => (s, pos, none)
  | f + 1, pos =>
    let r := pos / rb
    let o := pos % rb
    let n := min (min (rb - o) (256 - pos % 256)) (total - pos)
    match (addAddr src (r * st.toInt)).bind fun a => addAddr a o with
    | none => (s, pos, some (src, .fault { code := 0x0D, va := src }))
    | some a =>
      match engRead s x a n with
      | .error e => (s, pos, some e)
      | .ok (v, s) =>
        let at_ := boff + r * pitch + o
        let s := s.modClu k fun c => if toB then { c with bufB := c.bufB.writeNat at_ n v } else { c with bufA := c.bufA.writeNat at_ n v }
        if (pos + n) % 256 = 0 || total ≤ pos + n then (s, pos + n, none)
        else stagePiece s x k toB boff pitch rb total src st f (pos + n)

/-- The active command of a cluster's copy engine stands at unit `pos`, with the flags of its work so far. -/
def cePos (s : State) (k pos : Nat) (fl : Word := 0) : State :=
  s.modClu k fun c => { c with active := c.active.map fun p => (p.1, { p.2 with pos := pos, fl := p.2.fl ||| fl }) }

/-- The step of an engine met a refusal: it waits for a port, a frame's move, an ownership or a page, else it is over. -/
def refusedStep (s0 s : State) (i : Issuer) (e : Engine) (r : Word × AErr) (cmd : Nat := 0) : State :=
  match r.2 with
  | .busy a => { atPort s a with ev := s0.ev }
  | .moved _ => { s with ev := s0.ev }
  | .shared _ => { engRefused s i e r.1 r.2 cmd with ev := s0.ev }
  | .page _ _ _ => { engRefused s i e r.1 r.2 cmd with ev := s0.ev }
  | err => engRefused s.took i e r.1 err cmd

/-- STAGING_LANDED (R326, R331): one piece of at most 256 bytes. -/
def execStagingLanded (s : State) : Out :=
  match s.ev with
  | some (.stagingLanded k) =>
    let c := s.clu k
    match c.active with
    | some (_, ⟨_, .mx no, pos, _⟩) =>
      match c.cmds.find? fun q => q.no == no with
      | some ⟨no, iss, .stage toB boff pitch rb rows src st, rd, tl⟩ =>
        if engBlocked s (.copy k) || mxWaits c ⟨no, iss, .stage toB boff pitch rb rows src st, rd, tl⟩ then .next s else
        (match stagePiece s (iss.acc (.copy k)) k toB boff pitch rb (rows * rb) src st 64 pos with
        | (t, n, some e) => answer (refusedStep s (cePos t k n) iss (.copy k) e)
        | (t, n, none) =>
          if n < rows * rb then answer (ceKick (cePos t k n).took k) else
          let t := t.took.modClu k fun c => { c with cmds := c.cmds.filter fun q => q.no != no }
          answer (arrayPass (ceEnd t k) k))
      | _ => .next s.took
    | _ => .next s.took
  | _ => .next s

/-! Products (R332 to R334). -/

/-- The checks of R333 at issue, in its order: 0x02, then 0x04. -/
def mulCheck (c : Cluster) (o : OMx) (ga gb gk : Word) : Option (BitVec 8) :=
  let k := gk.toNat
  let int := Fmt.intPath o.fa o.fb
  let blk (f : Fmt) (kk : Nat) : Bool := match f.cls with | .block el => !blkLegal el kk || k % 2 ^ kk != 0 | _ => kk != 0
  let part (off pitch rows rb : Nat) : Bool := decide (bufBytes < off + (rows - 1) * pitch + rb) || (decide (1 < rows) && decide (pitch < rb))
  match (tileOf c o.t.toNat).conf with
  | none => some 0x02
  | some (m, n, tt) =>
    if tt != int || k = 0 || 256 < k || (128 < k && !o.fuse) || blk o.fa o.ka.toNat || blk o.fb o.kb.toNat || bitsOf ga 31 18 ≠ 0
        || bitsOf ga 63 50 ≠ 0 || bitsOf gb 31 18 ≠ 0 || bitsOf gb 63 50 ≠ 0
        || part (bitsOf ga 17 0) (bitsOf ga 49 32) m (rowBytes o.fa o.ka.toNat k)
        || part (bitsOf gb 17 0) (bitsOf gb 49 32) n (rowBytes o.fb o.kb.toNat k) then some 0x02
    else if bitsOf ga 17 0 % 4 ≠ 0 || bitsOf ga 49 32 % 4 ≠ 0 || bitsOf gb 17 0 % 4 ≠ 0 || bitsOf gb 49 32 % 4 ≠ 0 then some 0x04
    else none

/-- The next command joins its partner array (R334): it asks for the partner's lease as an ordinary waiter, also while an earlier fused command of
the task holds it, and holds it for itself alone. -/
def fuseLease (s : State) (k : Nat) (fuse : Bool) (go : State → State) : State :=
  let p := (s.curAgent, s.curCtx)
  let j := fusePartner k
  if !fuse || (s.clu k).fenced ≠ 0 || (s.clu j).fenced ≠ 0 || (s.clu j).disabled then go s else
  let mine (s : State) : Bool := (s.clu j).lease.holder == some p && (s.clu j).lease.fuse.isNone
  let s := if mine s then s else
    leaseNext (s.modClu j fun c => { c with lease := { c.lease with
      waiters := if c.lease.waiters.contains p then c.lease.waiters else c.lease.waiters ++ [p] } }) j
  let s := arrayPass s j
  if !mine s || (s.clu j).lease.due then waitFor s .retry else
  go (leaseCount (s.modClu j fun c => { c with lease := { c.lease with fuse := some (s.clu k).nextNo } }) j)

/-- MXMUL and MXTERN. -/
def execProduct (i : Instr) (o : OMx) (s : State) : Out :=
  issue i s fun c =>
    clusterOnly i s fun s =>
      let k := agentClu s.curAgent
      let ga := c.rG o.a
      let gb := c.rG o.b
      if o.sat && !Fmt.intPath o.fa o.fb then raise i s 0x01 else
      match mulCheck (s.clu k) o ga gb (c.rG o.c) with
      | some code => raise i s code
      | none =>
        leaseForm i s fun s => arrayUp i s fun s =>
          if setsFull (s.clu k) then waitFor s .retry else
          releaseThen s .dev fun s => fuseLease s k o.fuse fun s =>
            let (_, s) := mxPut s (.mul o.acc o.t.toNat o.fa o.fb o.sat o.ka.toNat o.kb.toNat (bitsOf ga 17 0) (bitsOf ga 49 32) (bitsOf gb 17 0)
              (bitsOf gb 49 32) (c.rG o.c).toNat o.fuse)
            done i (leaseCount (s.pendOnce (.matrixCommandComplete k)) k)

/-- MXMUL (R333). -/
def execMxmul (o : OMx) (s : State) : Out := execProduct (.mxmul o) o s
/-- MXTERN (R333). -/
def execMxtern (o : OMx) (s : State) : Out := execProduct (.mxtern o) o s

/-- Element (i, j) of a tile, and the list without its zeros. -/
def tileGet (t : Tile) (i j : Nat) : BitVec 32 := match t.el.find? fun q => q.1 == i * 128 + j with | some q => q.2 | none => 0
def tilePack (l : List (Nat × BitVec 32)) : List (Nat × BitVec 32) := l.filter fun q => q.2 != 0

/-- MatMul of R333. -/
def matMul (c : Cluster) (acc : Bool) (t : Nat) (fa fb : Fmt) (sat : Bool) (ka kb ao ap bo bp k : Nat) : Fl Tile :=
  let old := tileOf c t
  match old.conf with
  | none => (old, 0)
  | some (m, n, _) =>
    let cols := (List.range n).map fun j => rowVals (fun a b => c.bufB.readNat a b) (bo + j * bp) fb kb k
    let (el, fl) := (List.range m).foldl (fun (r : List (Nat × BitVec 32) × Word) i =>
      let a := rowVals (fun x y => c.bufA.readNat x y) (ao + i * ap) fa ka k
      let row := (List.range n).map fun j =>
        let b := cols.getD j ([], 0)
        let (v, f) := dot fa fb sat (if acc then (tileGet old i j).toNat else 0) a.1 b.1
        ((i * 128 + j, BitVec.ofNat 32 v), f ||| a.2 ||| b.2)
      (r.1 ++ row.map (fun x => x.1), row.foldl (fun f x => f ||| x.2) r.2)) ([], 0)
    (⟨old.conf, tilePack el⟩, fl)

/-- A fused command lets go of its partner's lease, if it still holds it; the task may be waiting for it again (R334). -/
def fuseDrop (s : State) (k no : Nat) : State :=
  let j := fusePartner k
  if (s.clu j).lease.fuse ≠ some no then s else
  leaseNext (s.modClu j fun c => { c with lease := { c.lease with holder := none, fuse := none } }) j

/-- The active command ends, none while it waits. -/
def mxActive (s : State) (k : Nat) : Option State :=
  let c := s.clu k
  match c.cmds.find? MxEntry.inArray with
  | none => none
  | some e =>
    if engBlocked s (.matrix k) || mxWaits c e then none else
    match e.cmd with
    | .mul acc t fa fb sat ka kb ao ap bo bp n _ =>
      let (tl, fl) := matMul c acc t fa fb sat ka kb ao ap bo bp n
      let s := setTile (s.modClu k fun c => { c with cmds := c.cmds.filter fun q => q.no != e.no }) k t tl
      some (arrayPass (fuseDrop (joinFlags s e.iss fl) k e.no) k)
    | .drain t _ _ _ =>
      if 2 ≤ (c.cmds.filter fun q => q.read).length then none else
      some (s.modClu k fun c => { c with cmds := c.cmds.map fun q => if q.no = e.no then { q with read := true, tile := tileOf c t } else q })
    | _ => none

/-- MATRIX_COMMAND_COMPLETE (R166): the active command ends; the shadow becomes active. -/
def execMatrixCommandComplete (s : State) : Out :=
  match s.ev with
  | some (.matrixCommandComplete k) =>
    if !(s.clu k).cmds.any MxEntry.inArray then .next s.took else
    match mxActive s k with
    | none => .next s
    | some t => answer (let t := t.took; if (t.clu k).cmds.any MxEntry.inArray then t.pendOnce (.matrixCommandComplete k) else t)
  | _ => .next s

/-! Drains (R336). -/

/-- MXDRAIN (R336): the record is loaded at issue, its address checked first. -/
def execMxdrain (o : OTABC) (s : State) : Out :=
  issue (.mxdrain o) s fun c =>
    let i : Instr := .mxdrain o
    clusterOnly i s fun s =>
      access i s (c.rG o.a) 64 64 .rd .any fun p =>
        let k := agentClu s.curAgent
        let (r, s) := readPath (taintAcquire s (c.taintG o.a)) (curAcc s) p 64
        let sh := Shape.parse r
        let sync := c.rG o.b
        let fut := c.rG o.c
        let badTile : Bool := match (tileOf (s.clu k) o.t.toNat).conf with
          | none => true
          | some (m, n, tt) => vget sh.ext 0 0 != n || vget sh.ext 1 0 != m || vget sh.ext 2 0 != 1 || vget sh.ext 3 0 != 1 || (tt && sh.op != 0)
        let badFmt : Bool := match sh.format with
          | none => true
          | some f => (match f.cls with | .tern => true | .block _ => true | _ => f.bits == 64) || (sh.op == 1 && f != .f32) || (sh.op == 2 && f != .bf16)
        if badTile || badFmt || 2 < sh.op || shapeBad r then raise i s 0x02
        else if sh.misaligned || addrPart sync % 16 ≠ 0 || addrPart fut % 16 ≠ 0 then raise i s 0x04
        else if shapeOwnBad s sh 0 then raise i s 0x05 sh.base
        else match syncCheck s sync, futCheck c.win fut with
          | some code, _ => raise i s code sync
          | none, some code => raise i s code fut
          | none, none =>
            leaseForm i s fun s => arrayUp i s fun s =>
              if setsFull (s.clu k) || placeFull s s.curAgent then waitFor s .retry else
              releaseThen s .dev fun s =>
                let (no, s) := mxPut s (.drain o.t.toNat sh sync fut)
                done i (leaseCount ((cePut s s.curAgent ⟨issuerOf s, .mx no, 0, 0⟩).pendOnce (.matrixCommandComplete k)) k)

/-- Bytes of a tile that its first `n` elements write: clipped elements are skipped. -/
def bytesBefore (d : Shape) (dt n : Nat) : Nat := ((List.range n).filter fun j => !d.clipped dt (d.index j)).length * Shape.size d.fmt
def shapeBytes (sh : Shape) (t : Nat) : Nat := bytesBefore sh t sh.count

/-- Elements of a drain from number `n` on, `w` bytes after its start, to the end of a 256-byte piece: it answers where it stopped. -/
def drainPiece (s : State) (x : Acc) (sh : Shape) (f : Fmt) (int : Bool) (el : List (Nat × BitVec 32)) (fl : Word) :
    Nat → Nat → Nat → State × Word × Nat × Option (Word × AErr)
  | 0, n, _ => (s, fl, n, none)
  | m + 1, n, w =>
    let ix := sh.index n
    if sh.clipped 0 ix then drainPiece s x sh f int el fl m (n + 1) w else
    match sh.addr 0 ix with
    | none => (s, fl, n, some (sh.base, .fault { code := 0x0D, va := sh.base }))
    | some a =>
      let v := (tileGet ⟨none, el⟩ (vget ix 1 0) (vget ix 0 0)).toNat
      let val : Val := if int then .ofInt (readInt v 32 true) else ffF32.decode v
      match elemWrite s x sh f a (val, 0) int with
      | .error e => (s, fl, n, some e)
      | .ok (s, g) =>
        if (w + Shape.size sh.fmt) % 256 = 0 then (s, fl ||| g, n + 1, none)
        else drainPiece s x sh f int el (fl ||| g) m (n + 1) (w + Shape.size sh.fmt)

/-- The completion of a command (R38, R114): its flags, the sync word, then the future. A sync word that has left its way is an engine fault. -/
def ceComplete (s0 s : State) (k : Nat) (i : Issuer) (fl : Word) (sync fut : Word) (bytes : Nat) (fin : State → State) : State :=
  let t := joinFlags s i fl
  match (if bytes = 0 then .ok t else syncAdd t (i.acc (.copy k)) sync bytes : RangeRes State) with
  | .error e => refusedStep s0 s i (.copy k) e
  | .ok s => fin (engFuture s.took i (.copy k) fut (some bytes) 1)

/-- DRAIN_WRITE_COMPLETE (R336): one piece of at most 256 bytes, or the completion. -/
def execDrainWriteComplete (s : State) : Out :=
  match s.ev with
  | some (.drainWriteComplete k) =>
    let c := s.clu k
    match c.active with
    | some (_, ⟨_, .mx no, pos, fl⟩) =>
      match c.cmds.find? fun q => q.no == no with
      | some ⟨_, iss, .drain _ sh sync fut, true, tl⟩ =>
        if engBlocked s (.copy k) then .next s else
        let int := match tl.conf with | some (_, _, tt) => tt | none => false
        let f := sh.format.getD .f32
        (match drainPiece s (iss.acc (.copy k)) sh f int tl.el 0 (sh.count - pos) pos (bytesBefore sh 0 pos) with
        | (t, g, n, some e) => answer (refusedStep s (cePos t k n g) iss (.copy k) e)
        | (t, g, n, none) =>
          if n < sh.count then answer (ceKick (cePos t k n g).took k) else
          answer (ceComplete s (cePos t k n g) k iss (fl ||| g) sync fut (shapeBytes sh 0) fun s =>
            arrayPass (ceEnd (s.modClu k fun c => { c with cmds := c.cmds.filter fun q => q.no != no }) k) k))
      | some _ => .next s
      | none => .next s.took
    | _ => .next s.took
  | _ => .next s

/-! Status (R337). -/

/-- MXSTAT (R337): an engine-status read. -/
def execMxstat (o : ORd) (s : State) : Out :=
  issue (.mxstat o) s fun _ =>
    clusterOnly (.mxstat o) s fun s =>
      let c := s.clu (agentClu s.curAgent)
      let n := (c.cmds.filter MxEntry.inArray).length
      let held := c.lease.holder == some (s.curAgent, s.curCtx)
      let bits (p : Nat → Bool) : Nat := (List.range 8).foldl (fun a i => a + (p i).toNat * 2 ^ i) 0
      let left := if c.lease.holder.isSome then c.lease.left else 0
      let lcore := match c.lease.holder with | some (a, _) => coreIdx a | none => 0
      let v := left * 2 ^ 32 + held.toNat * 2 ^ 31 + c.lease.holder.isSome.toNat * 2 ^ 30 + lcore * 2 ^ 27 + c.disabled.toNat * 2 ^ 26
        + c.fenced.toNat * 2 ^ 22 + c.stgerr.toNat * 2 ^ 21 + (decide (2 ≤ n)).toNat * 2 ^ 20 + (decide (1 ≤ n)).toNat * 2 ^ 19
        + bits (tileBusy c) * 2 ^ 8 + bits (fun t => (tileOf c t).conf.isSome)
      done (.mxstat o) (landG s o.d v)

end Sys2Proof.Machine
end

