-- ==== Sys2Proof/Machine/NearBank.lean ====
section
/-! DEFINITION. Group 0x32: near-bank matrices and their products (R338 to R341). -/

namespace Sys2Proof.Machine

/-- The path of a descriptor (R338): like a future's, 64-aligned. -/
def nbdPath (s : State) (x : Acc) (va : Word) (k : AKind) : Res Path :=
  if addrPart va % 64 ≠ 0 then faultAt 0x04 va
  else if 0xF0 ≤ addrPart va / 2 ^ 48 then faultAt 0x08 va
  else match resolve s x va 64 64 k .object with
    | .error e => .error e
    | .ok (.mem ia pa ty disc) => if ty == .prv || ty == .wso then faultAt 0x08 va ia pa else .ok (.mem ia pa ty disc)
    | .ok _ => faultAt 0x08 va

/-- The checks of a descriptor's address that need no memory. -/
def nbdLocal (s : State) (x : Acc) (va : Word) (k : AKind) : Option FInfo :=
  if addrPart va % 64 ≠ 0 then some { code := 0x04, va := va }
  else if 0xF0 ≤ addrPart va / 2 ^ 48 then some { code := 0x08, va := va }
  else localCheck s x k [(va, 64, 64)]

/-- An instruction on the descriptor at `va`: its IA, its PA, its bytes, after the release of R327. -/
def nbdOp (i : Instr) (s : State) (va : Word) (tainted : Bool) (go : Nat → Nat → Path → Nat → State → State) : State :=
  match nbdPath s (curAcc s) va .at with
  | .error e => refuse i s va e
  | .ok (.mem ia pa ty disc) =>
    releaseThen s .dev fun s =>
      let p : Path := .mem ia pa ty disc
      let (r, s) := atomicPath (taintAcquire s tainted) (curAcc s) p 64 .dev fun _ => none
      go ia pa p r s
  | .ok _ => s

/-! Fields (R338). -/

def nbdFmt (r : Nat) : Nat := fieldAt r 0x18 1
def nbdState (r : Nat) : Nat := fieldAt r 0x10 4
/-- The format of a near-bank matrix: any of MXMUL, `t2` or `sb.t2`. -/
def nbFormat (n : Nat) : Option Fmt :=
  if 32 ≤ n then none else
  match Fmt.of (BitVec.ofNat 5 n) with
  | none => none
  | some f => if f.isMx || f == .t2 || f == .sbt2 then some f else none

def nbScaleBad (f : Fmt) (blk cols : Nat) : Bool := match f.cls with | .block el => !blkLegal el blk || cols % 2 ^ blk != 0 | _ => false

/-- A field of a descriptor out of range (R338, R339). -/
def nbdBad (r : Nat) : Bool :=
  let rows := fieldAt r 0x20 4
  let cols := fieldAt r 0x1C 4
  (match nbFormat (nbdFmt r) with | none => true | some f => nbScaleBad f (fieldAt r 0x19 1) cols)
    || rows == 0 || decide (65536 < rows) || cols == 0 || decide (8192 < cols) || fieldAt r 0 16 != 0 || fieldAt r 0x38 8 != 0

def nbdMat (r stack : Nat) : NbMat where
  fmt := nbdFmt r
  blk := fieldAt r 0x19 1
  rows := fieldAt r 0x20 4
  cols := fieldAt r 0x1C 4
  dest := BitVec.ofNat 64 (fieldAt r 0x30 8)
  stack := stack

def NbMat.format (m : NbMat) : Fmt := (nbFormat m.fmt).getD .i8
/-- Bytes of a placed row, and rows of a unit (R339). -/
def NbMat.rb (m : NbMat) : Nat := roundUp (rowBytes m.format m.blk m.cols) 64
def NbMat.h (m : NbMat) : Nat := ceilDiv m.rows 64
/-- Where row `i` stands in the near-bank area. -/
def NbMat.rowOff (m : NbMat) (i : Nat) : Nat := i % 64 * m.h * m.rb + i / 64 * m.rb
def NbMat.span (m : NbMat) : Nat := 64 * m.h * m.rb

/-- The stack of the first frame of DEST, where it is mapped. -/
def destStack (s : State) (win : Vector Window 4) (dest : Word) : Nat :=
  match findWindow win (addrPart dest) with
  | none => 0
  | some w => match leaf s (w.ia (addrPart dest)) with | .ok e => frameStack (Pte.pfn e * 4096) | .error _ => 0

/-- NBCFG (R339). -/
def execNbcfg (o : OXAB) (s : State) : Out :=
  issue (.nbcfg o) s fun c =>
    let i : Instr := .nbcfg o
    let fut := c.rG o.b
    nbdOp i s (c.rG o.a) (c.taintG o.a) fun ia pa p r s =>
      if nbdBad r then raise i s 0x02
      else if fieldAt r 0x28 8 % 4 ≠ 0 || fieldAt r 0x24 4 % 4 ≠ 0 || fieldAt r 0x30 8 % 64 ≠ 0 then raise i s 0x04
      else if (List.range (fieldAt r 0x20 4)).any fun j => (match addAddr (BitVec.ofNat 64 (fieldAt r 0x28 8)) (j * fieldAt r 0x24 4) with
          | some a => ownRangeBad s a (rowBytes ((nbFormat (nbdFmt r)).getD .i8) (fieldAt r 0x19 1) (fieldAt r 0x1C 4)) | none => false) then raise i s 0x05
      else match futCheck c.win fut with
        | some code => raise i s code fut
        | none =>
          if nbdState r = 1 || nbdInuse r ≠ 0 then raise i s 0x16 else
          let m := nbdMat r 0
          let s := { s with nbMats := s.nbMats.set pa { m with stack := destStack s c.win m.dest } }
          let (_, s) := atomicPath s (curAcc s) p 64 .dev fun v => some (nbdStateSet 1 v)
          let (id, s) := s.newId
          let e : NbEntry := ⟨id, issuerOf s, .place ia (futIa c.win fut) (BitVec.ofNat 64 (fieldAt r 0x28 8)) (fieldAt r 0x24 4) 0, 0⟩
          done i (State.pend { s with nbCmds := s.nbCmds ++ [e] } (.nbcfgPlaced id))

/-! The copy into the near-bank area (R339). -/

/-- The copies of a descriptor at its home. -/
def nbMatOf (s : State) (nbd : Nat) : Option (Nat × NbMat) :=
  match objectPath s nbd with | some (.mem _ pa _ _) => (s.nbMats.find? pa).map fun m => (pa, m) | _ => none

/-- The stacks of DEST's frames, first one first. -/
def destFrames (s : State) (x : Acc) (dest : Word) : Nat → Nat → RangeRes (List Nat)
  | 0, _ => .ok []
  | n + 1, j =>
    match addAddr dest (4096 * j) with
    | none => .error (dest, .fault { code := 0x0D, va := dest })
    | some a =>
      match resolve s x a 1 1 .wr .wsoStore with
      | .error e => .error (a, e)
      | .ok (.mem _ pa _ _) => (match destFrames s x dest n (j + 1) with | .error e => .error e | .ok t => .ok (frameStack pa :: t))
      | .ok _ => .error (a, .fault { code := 0x08, va := a })

/-- Copy rows from `r` on. R31 has engines that write whole blocks write their padding as zero; whether a copy of rows of scaled blocks is such an
engine it does not say: the model copies the padding as it stands, here and in GATHER (DESIGN CHOICE, log 59). -/
def nbRows (s : State) (iss : Issuer) (m : NbMat) (src : Word) (pitch : Nat) : Nat → Nat → State × Nat × Option (Word × AErr)
  | 0, r => (s, r, none)
  | n + 1, r =>
    let x := iss.acc (.nearBank m.stack (r % 64))
    match addAddr src (r * pitch), addAddr m.dest (m.rowOff r) with
    | some a, some d =>
      (match engRead s x a (rowBytes m.format m.blk m.cols) with
      | .error e => (s, r, some e)
      | .ok (v, s) =>
        match engWrite s x d m.rb v with
        | .error e => (s, r, some e)
        | .ok s => nbRows s iss m src pitch n (r + 1))
    | _, _ => (s, r, some (src, .fault { code := 0x0D, va := src }))

/-- A near-bank command with its next row at `pos`, the flags of its rows so far, and the rows of the message being made. -/
def nbAt (s : State) (id pos : Nat) (fl : Word := 0) (part : List Nat := []) : State :=
  { s with nbCmds := s.nbCmds.map fun e => if e.id ≠ id then e else
      { e with fl := e.fl ||| fl, cmd := match e.cmd with
        | .place a b c d _ => .place a b c d pos
        | .mv a b c d f g h k l m _ _ => .mv a b c d f g h k l m pos part } }

/-- Rows from `pos` to the end of their 64-row block, one row for each unit of the stack (R219). -/
def nbBlock (pos rows : Nat) : Nat := min (64 - pos % 64) (rows - pos)

/-- A product stands before its first row, or at the end of a 64-row block. -/
def nbAtBlock (row0 pos : Nat) : Bool := pos == 0 || (row0 + pos) % 64 == 0

/-- A unit of the command makes no progress: it stands still, or it has reached a block's end and is halted or paused there (R219, R201). -/
def nbBlocked (s : State) (e : NbEntry) : Bool :=
  let held (stop : Bool) (st u : Nat) : Bool :=
    let f : Engine := .nearBank st u
    engStopped s f || (stop && (engHalted s f || powerPaused s f e.iss.kid))
  match nbEngine s e, e.cmd with
  | .nearBank st _, .mv _ _ _ _ _ _ _ row0 nrows _ pos _ =>
    (List.range (nbBlock (row0 + pos) (row0 + nrows))).any fun r => held (nbAtBlock row0 pos) st ((row0 + pos + r) % 64)
  | .nearBank st _, .place _ _ _ _ pos => (List.range 64).any fun u => held (pos % 64 == 0) st u
  | _, _ => true

/-- A command's step met a refusal, at the row where the command now stands. -/
def nbRefused (s0 s : State) (id : Nat) (r : Word × AErr) : State :=
  match s.nbCmds.find? fun e => e.id == id with
  | some e => refusedStep s0 s e.iss (nbEngine s e) r id
  | none => s

/-- NBCFG_PLACED (R339): one block of rows. -/
def execNbcfgPlaced (s : State) : Out :=
  match s.ev with
  | some (.nbcfgPlaced id) =>
    match s.nbCmds.find? fun e => e.id == id with
    | some ⟨_, iss, .place nbd fut src pitch pos, fl⟩ =>
      let e : NbEntry := ⟨id, iss, .place nbd fut src pitch pos, fl⟩
      (match nbMatOf s nbd with
      | none => .next s.took
      | some (pa, m) =>
        if nbBlocked s e then .next s else
        match destFrames s (iss.acc (nbEngine s e)) m.dest (ceilDiv (addrPart m.dest % 4096 + m.span) 4096) 0 with
        | .error r => answer (nbRefused s s id r)
        | .ok fs =>
          let st := fs.headD 0
          if fs.any fun f => f != st then answer (nbStop s.took e (some 2)) else
          let m := { m with stack := st }
          match nbRows { s with nbMats := s.nbMats.set pa m } iss m src pitch (nbBlock pos m.rows) pos with
          | (t, r, some f) => answer (nbRefused s (nbAt t id r) id f)
          | (t, r, none) =>
            if r < m.rows then answer ((nbAt t.took id r).pend (.nbcfgPlaced id)) else
            let t := { t.took with nbCmds := t.nbCmds.filter fun q => q.id != id }
            let t := objectUpdate t (iss.acc (nbEngine s e)) nbd fun v => nbdSet (nbdStateSet 2 v) 223 208 st
            answer (nbFuture t e fut (some 0) 1))
    | _ => .next s.took
  | _ => .next s

/-! Products (R340). -/

def nbRow0 (g : Word) : Nat := bitsOf g 15 0
def nbNrows (g : Word) : Nat := bitsOf g 31 16 + 1

/-- The local checks of x, piece by piece (R209). -/
def xLocal (s : State) (x : Acc) (va : Word) (n size : Nat) : Option (BitVec 8) :=
  if addrPart va % size ≠ 0 then some 0x04 else
  let go (q : Nat × Nat) : Option (BitVec 8) := match addAddr va q.1 with
    | none => some 0x0D
    | some a => match resolveLocal s x a q.2 1 .rd with | .error (.fault f) => some f.code | _ => none
  let fs := (linesOf va n).filterMap go
  if fs.contains 0x0D then some 0x0D else if fs.contains 0x05 then some 0x05 else fs.head?

/-- y lies wholly in the own-scratchpad or the cluster-shared window, within its limit. -/
def yLocal (s : State) (x : Acc) (y : Word) (n : Nat) : Bool :=
  (addrPart y / 2 ^ 48 == 0xF0 || addrPart y / 2 ^ 48 == 0xF1)
    && (match resolveLocal s x y n 1 .wr with | .ok (.inl (.scratch _ _)) => true | _ => false)

/-- The operand checks of NBMV in its order; `m` is the placed matrix of the descriptor. -/
def nbmvCheck (s : State) (c : Ctx) (o : ONbmv) (m : Option NbMat) (r : Nat) : Option (BitVec 8) :=
  let y := c.rG o.c
  let g := c.rG o.e
  let msg := bit g 63
  let bad : Bool := match m with | none => true | some m => nbdState r != 2 || decide (m.rows < nbRow0 g + nbNrows g)
  if bad || bitsOf g 61 32 ≠ 0 || (msg && bit g 62)
      || (msg && (headerCheck s c.priv false y).isSome) then some 0x02
  else if (!msg && y.toNat % 4 ≠ 0) || (c.rG o.f != 0 && addrPart (c.rG o.f) % 16 ≠ 0) then some 0x04
  else if !msg && !yLocal s (curAcc s) y (4 * nbNrows g) then some 0x05
  else syncCheck s (c.rG o.f)

/-- SAT where the matrix takes the float path (R340); a float x with SAT is no instruction. -/
def nbmvSatBad (o : ONbmv) (f : Option Fmt) : Bool := o.sat && (match f with | some f => !Fmt.intPath f o.fx | none => false)

/-- The elements of x. -/
def xList (v size n : Nat) : List (BitVec 64) := (List.range n).map fun j => BitVec.ofNat 64 (v / 2 ^ (8 * size * j) % 2 ^ (8 * size))

/-- The format and the columns of a descriptor: those it was placed with, else those its bytes name. -/
def nbdShape (m : Option NbMat) (r : Nat) : Option Fmt × Nat :=
  match m with | some m => (some m.format, m.cols) | none => (nbFormat (nbdFmt r), fieldAt r 0x1C 4)

/-- NBMV (R340): the checks of the addresses that need no memory, the descriptor, then x over its columns, then the operands. -/
def execNbmv (o : ONbmv) (s : State) : Out :=
  issue (.nbmv o) s fun c =>
    let i : Instr := .nbmv o
    let xa := c.rG o.b
    let g := c.rG o.e
    let size := o.fx.bits / 8
    match nbdLocal s (curAcc s) (c.rG o.a) .at, localCheck s (curAcc s) .rd [(xa, size, size)] with
    | some f, _ => faultCur i s f
    | none, some f => faultCur i s f
    | none, none =>
      nbdOp i s (c.rG o.a) (c.taintG o.a || c.taintG o.b) fun ia pa p r s =>
        let m := s.nbMats.find? pa
        let (f, cols) := nbdShape m r
        if nbmvSatBad o f then raise i s 0x01 else
        match xLocal s (curAcc s) xa (cols * size) size with
        | some code => raise i s code xa
        | none =>
          match nbmvCheck s c o m r with
          | some code => raise i s code
          | none =>
            if nbdInuse r = 65535 then waitFor s .retry else
            match engRead s (curAcc s) xa (cols * size) with
            | .error (va, e) => refuse i s va e
            | .ok (v, s) =>
              let (_, s) := atomicPath s (curAcc s) p 64 .dev fun v => some (nbdInuseSet (nbdInuse v + 1) v)
              let (id, s) := s.newId
              let e : NbEntry :=
                ⟨id, issuerOf s, .mv ia o.fx o.sat (bit g 62) (bit g 63) (xList v size cols) (c.rG o.c) (nbRow0 g) (nbNrows g) (c.rG o.f) 0 [], 0⟩
              done i (State.pend { s with nbCmds := s.nbCmds ++ [e] } (.nbmvComplete id))

/-- One element: row `i` times x from a starting value (R45). -/
def nbDot (m : NbMat) (fx : Fmt) (sat : Bool) (x : List (BitVec 64)) (row start : Nat) : Fl Nat :=
  let w := rowVals (fun a n => row / 2 ^ (8 * a) % 2 ^ (8 * n)) 0 m.format m.blk m.cols
  let xs := x.map fun b => elemVal fx b.toNat
  let (v, f) := dot m.format fx sat start w.1 (xs.map fun q => q.1)
  (v, f ||| w.2 ||| xs.foldl (fun a q => a ||| q.2) 0)

/-- Rows from `r` on, with their starting values. -/
def nbProduct (s : State) (iss : Issuer) (m : NbMat) (fx : Fmt) (sat : Bool) (x : List (BitVec 64)) (start : Nat → Nat) : Nat → Nat →
    RangeRes (List Nat × Word × State)
  | 0, _ => .ok ([], 0, s)
  | n + 1, r =>
    match addAddr m.dest (m.rowOff r) with
    | none => .error (m.dest, .fault { code := 0x0D, va := m.dest })
    | some a =>
      match engRead s (iss.acc (.nearBank m.stack (r % 64))) a (rowBytes m.format m.blk m.cols) with
      | .error e => .error e
      | .ok (row, s) =>
        let (v, f) := nbDot m fx sat x row (start r)
        match nbProduct s iss m fx sat x start n (r + 1) with
        | .error e => .error e
        | .ok (l, g, s) => .ok (v :: l, f ||| g, s)

/-- The message that carries some rows of y. -/
def nbMsg (s : State) (iss : Issuer) (h : Word) (row : Nat) (ys : List Nat) : Msg :=
  let k := ys.length
  let pay := row + k * 2 ^ 32 + ys.foldr (fun y a => y + 2 ^ 32 * a) 0 * 2 ^ 64
  ctxMsg s iss.agent iss.kid iss.task iss.pc (h.extractLsb' 58 6) (headerDst h) (h.extractLsb' 41 6) (1 + ceilDiv k 2) .task none
    (BitVec.ofNat 960 pay) none

/-- The command is over: its flags join, the sync word gains the bytes of y, INUSE goes down. -/
def nbmvEnd (s0 s : State) (e : NbEntry) (nbd nrows : Nat) (sync : Word) : State :=
  match syncAdd (joinFlags s e.iss e.fl) (e.iss.acc (nbEngine s e)) sync (4 * nrows) with
  | .error r => nbRefused s0 s e.id r
  | .ok s =>
    objectUpdate { s.took with nbCmds := s.nbCmds.filter fun q => q.id != e.id } (e.iss.acc (nbEngine s e)) nbd fun v =>
      nbdInuseSet (nbdInuse v - 1) v

/-- Rows of one step: to the end of the 64-row block, in the message form to that of the message, which holds 28 rows where so many are left. -/
def nbStepRows (msg : Bool) (row0 nrows pos part : Nat) : Nat :=
  let n := nbBlock (row0 + pos) (row0 + nrows)
  if msg then min (28 - part) n else n

/-- The step fills a message or makes the last one, which needs a retry place. -/
def nbSends (row0 nrows pos part : Nat) : Bool :=
  let n := nbStepRows true row0 nrows pos part
  decide (pos < nrows) && (part + n == 28 || pos + n == nrows)

/-- NBMV_COMPLETE (R340): the next rows, or the completion. -/
def execNbmvComplete (s : State) : Out :=
  match s.ev with
  | some (.nbmvComplete id) =>
    match s.nbCmds.find? fun e => e.id == id with
    | some ⟨_, iss, .mv nbd fx sat acc msg x y row0 nrows sync pos part, fl⟩ =>
      let e : NbEntry := ⟨id, iss, .mv nbd fx sat acc msg x y row0 nrows sync pos part, fl⟩
      (match nbMatOf s nbd with
      | none => .next s.took
      | some (_, m) =>
        if nbBlocked s e || (msg && nbSends row0 nrows pos part.length && retryFull s iss.agent) then .next s
        else if nrows ≤ pos then answer (nbmvEnd s s e nbd nrows sync) else
        let n := nbStepRows msg row0 nrows pos part.length
        let ax := iss.acc (nbEngine s e)
        let ya := (addAddr y (4 * pos)).getD y
        match (if acc then engRead s ax ya (4 * n) else .ok (0, s) : RangeRes (Nat × State)) with
        | .error r => answer (nbRefused s s id r)
        | .ok (old, _) =>
          match nbProduct s iss m fx sat x (fun r => old / 2 ^ (32 * (r - row0 - pos)) % 2 ^ 32) n (row0 + pos) with
          | .error r => answer (nbRefused s s id r)
          | .ok (ys, g, t) =>
            if msg then
              let all := part ++ ys
              answer (if nbSends row0 nrows pos part.length then
                  { sendMsg (nbAt t id (pos + n) g) iss.agent (nbMsg s iss y (row0 + pos - part.length) all) with ev := s.ev }
                else { nbAt t id (pos + n) g all with ev := s.ev })
            else
              match engWrite t ax ya (4 * n) (ys.foldr (fun v a => v + 2 ^ 32 * a) 0) with
              | .error r => answer (nbRefused s s id r)
              | .ok t => answer { nbAt t id (pos + n) g with ev := s.ev })
    | _ => .next s.took
  | _ => .next s

/-! Status (R341). -/

/-- NBSTAT (R341). -/
def execNbstat (o : OXDA) (s : State) : Out :=
  issue (.nbstat o) s fun c =>
    match nbdPath s (curAcc s) (c.rG o.a) .rd with
    | .error e => refuse (.nbstat o) s (c.rG o.a) e
    | .ok p =>
      let (r, s) := homeRead (taintAcquire s (c.taintG o.a)) (curAcc s) p 64
      done (.nbstat o) (landG s o.d (fieldAt r 0x1A 2 * 2 ^ 48 + nbdInuse r % 2 ^ 32 * 2 ^ 16 + nbdState r % 2 ^ 16))

end Sys2Proof.Machine
end

