-- ==== Sys2Proof/Machine/Engines.lean ====
section
/-! DEFINITION. Group 0x33 and the permits of group 0x1D: the copy engine (R344, R345), sync words (R346, R347), gathers (R348, R349), tile walks
(R185 to R187, R350, R351), status reads (R352), and the faults of engines (R343). -/

namespace Sys2Proof.Machine

/-! Records loaded at issue (R209 step 3). -/

/-- Load 64-byte records: the local checks of each come first, then the homes'. -/
def loadRecords (i : Instr) (s : State) (vas : List Word) (tainted : Bool) (go : List Nat → State → State) : State :=
  match localCheck s (curAcc s) .rd (vas.map fun v => (v, 64, 64)) with
  | some f => faultCur i s f
  | none =>
    match accessAll s .rd .any (vas.map fun v => (v, 64, 64)) with
    | .error (_, va, e) => refuse i s va e
    | .ok ps =>
      match ps.findSome? fun p => pathHold s (curAcc s) p 64 .rd with
      | some h => holdOn s (Instr.limit i s.cur) h
      | none =>
        let (l, s) := ps.foldl (fun (r : List Nat × State) p => let (v, s) := readPath r.2 (curAcc s) p 64; (r.1 ++ [v], s)) ([], taintAcquire s tainted)
        go l s

/-- The checks of a command's sync word and future at issue (R343). -/
def actionsCheck (i : Instr) (s : State) (sync fut : Word) (go : State → State) : State :=
  match syncCheck s sync, futCheck s.cur.win fut with
  | some code, _ => raise i s code sync
  | none, some code => raise i s code fut
  | none, none => go s

/-- A command enters the issuing core's copy-engine place (R166). -/
def copyIssue (i : Instr) (s : State) (cmd : CeCmd) : State :=
  if placeFull s s.curAgent then waitFor s .retry
  else releaseThen s .dev fun s => done i (cePut s s.curAgent ⟨issuerOf s, cmd, 0, 0⟩)

/-! CPY (R344). -/

/-- Ranges in one local window, or both translated, that overlap. -/
def rangesMeet (a b n : Nat) : Bool :=
  let w (x : Nat) := if x / 2 ^ 48 < 0xF0 then 0 else x / 2 ^ 48
  w a == w b && decide (a < b + n) && decide (b < a + n)

/-- CPY (R344). -/
def execCpy (o : OX5) (s : State) : Out :=
  issue (.cpy o) s fun c =>
    let i : Instr := .cpy o
    let dst := c.rG o.a
    let src := c.rG o.b
    let n := (c.rG o.c).toNat
    clusterOnly i s fun s =>
      if 2 ^ 32 < n then raise i s 0x02
      else if dst.toNat % 4 ≠ 0 || src.toNat % 4 ≠ 0 || n % 4 ≠ 0 then raise i s 0x04
      else if rangesMeet (addrPart dst) (addrPart src) n then raise i s 0x02
      else if n ≠ 0 && ownRangeBad s dst n then raise i s 0x05 dst
      else if n ≠ 0 && ownRangeBad s src n then raise i s 0x05 src
      else actionsCheck i s (c.rG o.e) (c.rG o.f) fun s => copyIssue i s (.cpy dst src n (c.rG o.e) (c.rG o.f))

/-! CPYT (R345). -/

/-- The field checks of two records, in the order of R345. -/
def cpytCheck (rd rs : Nat) (dt st : Nat) : Option (BitVec 8) :=
  let d := Shape.parse rd
  let s := Shape.parse rs
  let badFmt (x : Shape) : Bool := match x.format with
    | none => x.fmt != 0
    | some f => match f.cls with | .tern => true | .block _ => true | _ => false
  if d.misaligned || s.misaligned then some 0x04
  else if shapeBad rd || shapeBad rs || d.ext != s.ext || d.tiles ≤ dt || s.tiles ≤ st || s.op ≠ 0 || s.ctl ≠ 0 || badFmt d || badFmt s
      || (d.fmt == 0) != (s.fmt == 0) || 2 < d.op || (d.op = 1 && d.format != some .f32) || (d.op = 2 && d.format != some .bf16) then some 0x02
  else none

/-- A source element that will be read lies in the own scratchpad beyond the claim (R417); what the destination clips is not read. -/
def cpytOwnBad (s : State) (d r : Shape) (dt st : Nat) : Bool :=
  (List.range d.count).any fun n =>
    let ix := d.index n
    !d.clipped dt ix && !r.clipped st ix && (match r.addr st ix with | some a => ownRangeBad s a (Shape.size r.fmt) | none => false)

/-- CPYT (R345). -/
def execCpyt (o : OX5) (s : State) : Out :=
  issue (.cpyt o) s fun c =>
    let i : Instr := .cpyt o
    let dt := bitsOf (c.rG o.c) 31 0
    let st := bitsOf (c.rG o.c) 63 32
    clusterOnly i s fun s =>
      loadRecords i s [c.rG o.a, c.rG o.b] (c.taintG o.a || c.taintG o.b) fun l s =>
        let rd := l.getD 0 0
        let rs := l.getD 1 0
        match cpytCheck rd rs dt st with
        | some code => raise i s code
        | none =>
          let d := Shape.parse rd
          let r := Shape.parse rs
          if shapeOwnBad s d dt then raise i s 0x05 d.base
          else if cpytOwnBad s d r dt st then raise i s 0x05 r.base
          else actionsCheck i s (c.rG o.e) (c.rG o.f) fun s => copyIssue i s (.cpyt d r dt st (c.rG o.e) (c.rG o.f))

/-- One element: none where the destination clips it. -/
def cpytElem (s : State) (x : Acc) (d r : Shape) (dt st n : Nat) : RangeRes (State × Word × Nat) :=
  let ix := d.index n
  if d.clipped dt ix then .ok (s, 0, 0) else
  let sz := Shape.size d.fmt
  let src : RangeRes (Nat × State) :=
    if r.clipped st ix then .ok (0, s) else
    match r.addr st ix with
    | none => .error (r.base, .fault { code := 0x0D, va := r.base })
    | some a => engRead s x a (Shape.size r.fmt)
  match src, d.addr dt ix with
  | .error e, _ => .error e
  | _, none => .error (d.base, .fault { code := 0x0D, va := d.base })
  | .ok (v, s), some a =>
    match d.format, r.format with
    | some df, some rf =>
      let val : Fl Val := if r.clipped st ix then (Val.zero false, 0) else elemVal rf v
      (match elemWrite s x d df a val rf.isIntLike with | .error e => .error e | .ok (s, fl) => .ok (s, fl, sz))
    | _, _ => match engWrite s x a 1 v with | .error e => .error e | .ok s => .ok (s, 0, 1)

/-- Elements up to the next 256-byte boundary of the bytes written, or the end: state, flags, next element, bytes of the transfer. -/
def cpytPiece (s : State) (x : Acc) (d r : Shape) (dt st : Nat) (fl : Word) : Nat → Nat → Nat → State × Word × Nat × Nat × Option (Word × AErr)
  | 0, n, w => (s, fl, n, w, none)
  | m + 1, n, w =>
    match cpytElem s x d r dt st n with
    | .error e => (s, fl, n, w, some e)
    | .ok (s, g, k) =>
      if k ≠ 0 && (w + k) % 256 = 0 then (s, fl ||| g, n + 1, w + k, none)
      else cpytPiece s x d r dt st (fl ||| g) m (n + 1) (w + k)

/-- The port of the scratchpad that holds a sync word is held (R140). -/
def syncBusy (s : State) (x : Acc) (va : Word) : Bool :=
  va != 0 && (match syncPath s x va with | .error (_, .busy _) => true | _ => false)

/-! The copy engine runs (R344). -/

/-- Count a landed piece, then go on with the next. With the last piece the flags of the command join its issuer's, so that no step of the sync word
is seen before them (R38). -/
def pieceCounted (s0 s : State) (k : Nat) (iss : Issuer) (sync : Word) (n : Nat) (fl : Word) : State :=
  match (if n = 0 then .ok s else syncAdd s (iss.acc (.copy k)) sync n : RangeRes State) with
  | .error e => refusedStep s0 s iss (.copy k) e
  | .ok s => ceKick (joinFlags s iss fl).took k

/-- COPY_PIECE_LANDED (R344, R345): one piece of at most 256 bytes. -/
def execCopyPieceLanded (s : State) : Out :=
  match s.ev with
  | some (.copyPieceLanded k) =>
    match (s.clu k).active with
    | some (_, ⟨iss, .cpy dst src n sync _, pos, _⟩) =>
      let x := iss.acc (.copy k)
      if engBlocked s (.copy k) || syncBusy s x sync then .next s
      else if n ≤ pos then .next (ceKick s.took k) else
      let m := min 256 (n - pos)
      let r : RangeRes State := match addAddr src pos, addAddr dst pos with
        | some a, some b => (match engRead s x a m with | .error e => .error e | .ok (v, t) => engWrite t x b m v)
        | _, _ => .error (src, .fault { code := 0x0D, va := src })
      (match r with
      | .error e => answer (refusedStep s s iss (.copy k) e)
      | .ok t => answer (pieceCounted s (cePos t k (pos + m)) k iss sync m 0))
    | some (_, ⟨iss, .cpyt d r dt st sync _, pos, old⟩) =>
      let x := iss.acc (.copy k)
      if engBlocked s (.copy k) || syncBusy s x sync then .next s else
      let w := bytesBefore d dt pos
      (match cpytPiece s x d r dt st 0 (d.count - pos) pos w with
      | (t, fl, n, _, some e) => answer (refusedStep s (cePos t k n fl) iss (.copy k) e)
      | (t, fl, n, w', none) =>
        let m := if w' % 256 = 0 then (if w' = w then 0 else 256) else w' % 256
        answer (pieceCounted s (cePos t k n fl) k iss sync m (if n = d.count then old ||| fl else 0)))
    | _ => .next s.took
  | _ => .next s

/-- COPY_COMPLETE (R344): after the last write the future resolves with the bytes copied. -/
def execCopyComplete (s : State) : Out :=
  match s.ev with
  | some (.copyComplete k) =>
    if engBlocked s (.copy k) then .next s else
    match (s.clu k).active with
    | some (_, ⟨iss, .cpy _ _ n _ fut, pos, _⟩) =>
      if pos < n then .next (ceKick s.took k) else answer (ceComplete s s k iss 0 0 fut n fun s => ceEnd s k)
    | some (_, ⟨iss, .cpyt d _ dt _ _ fut, pos, _⟩) =>
      if pos < d.count then .next (ceKick s.took k) else answer (ceComplete s s k iss 0 0 fut (bytesBefore d dt d.count) fun s => ceEnd s k)
    | _ => .next s.took
  | _ => .next s

/-! Sync words (R346, R347). -/

/-- The sync word of a broken pipeline, until its cluster's queue is written again (R187). -/
def syncBroken (s : State) (a off : Nat) : Bool := (s.clu (agentClu a)).brokeSw.any fun b => b.2.1 == coreIdx a && b.2.2 == off

/-- An instruction on a sync word: the local checks of R343, the operand check, then the word's place. -/
def syncForm (i : Instr) (s : State) (va b : Word) (k : AKind) (tainted : Bool) (go : Nat → Nat → State → State) : State :=
  match syncPath s (curAcc s) va k with
  | .error (a, e) => refuse i s a e
  | .ok (a, off) => if bitsOf b 63 32 ≠ 0 then raise i s 0x02 else go a off (taintAcquire s tainted)

/-- SYNCWAIT (R346). -/
def execSyncwait (o : OSyncw) (s : State) : Out :=
  issue (.syncwait o) s fun c =>
    let i : Instr := .syncwait o
    syncForm i s (c.rG o.a) (c.rG o.b) .rd (c.taintG o.a) fun a off s =>
      let gen := swGen ((s.core a).spad.readNat off 16)
      if syncBroken s a off then raise i s 0x15
      else if gen = bitsOf (c.rG o.b) 31 0 then waitFor s (.sync a off) (c.rG o.c).toNat
      else
        let s := acquire s s.curAgent o.scope
        s.setCur ((s.cur.wG o.d (BitVec.ofNat 64 gen)).past i)

/-- SYNCADD (R347). -/
def execSyncadd (o : OSynca) (s : State) : Out :=
  issue (.syncadd o) s fun c =>
    let i : Instr := .syncadd o
    syncForm i s (c.rG o.a) (c.rG o.b) .at (c.taintG o.a) fun a off s =>
      releaseThen s o.scope fun s =>
        done i (spWrite s a off 16 (syncAddVal ((s.core a).spad.readNat off 16) (bitsOf (c.rG o.b) 31 0)))

/-! GATHER (R348, R349). -/

/-- The checks of R348, in its order; the answer is the row length. -/
def gatherCheck (s : State) (dst src idx e : Word) : Except (BitVec 8) Nat :=
  let n := bitsOf e 15 0
  let w := bitsOf e 31 16
  let own (a : Word) (m : Nat) : Bool := addrPart a / 2 ^ 48 != 0xF0 || ownRangeBad s a m
  match tagOf src with
  | none => .error 0x0D
  | some (f, k) =>
    let rb := rowBytes f k w
    let ragged : Bool := match f.cls with | .tern => w % 16 != 0 | .block _ => w % 2 ^ k != 0 | _ => false
    if rb % 4 ≠ 0 || dst.toNat % 4 ≠ 0 || idx.toNat % 8 ≠ 0 then .error 0x04
    else if 0xF0 ≤ addrPart src / 2 ^ 48 || own dst (n * rb) || own idx (8 * n) then .error 0x05
    else if bitsOf e 63 32 ≠ 0 || 4096 < n || w = 0 || 4096 < w || 4096 < rb || ragged
        || (addrPart dst < addrPart idx + 8 * n && addrPart idx < addrPart dst + n * rb) then .error 0x02
    else .ok rb

/-- GATHER (R348): the engine of the slice with the issuing cluster's index holds 8 commands (R343). -/
def execGather (o : OX5) (s : State) : Out :=
  issue (.gather o) s fun c =>
    let i : Instr := .gather o
    let n := bitsOf (c.rG o.e) 15 0
    clusterOnly i s fun s =>
      match gatherCheck s (c.rG o.a) (c.rG o.b) (c.rG o.c) (c.rG o.e) with
      | .error code => raise i s code
      | .ok rb =>
        actionsCheck i s (c.rG o.f) 0 fun s =>
          let d := agentDie s.curAgent
          let sl := agentClu s.curAgent % 64
          if 8 ≤ ((s.die d).gathers.filter fun q => q.1 == sl).length then waitFor s .retry else
          releaseThen s .dev fun s =>
            if n = 0 then done i s else
            let g : GatherCmd := ⟨issuerOf s, c.rG o.a, c.rG o.b, c.rG o.c, n, rb, c.rG o.f, 0⟩
            done i ((s.modDie d fun x => { x with gathers := x.gathers ++ [(sl, g)] }).pendOnce (.gatherBatchLanded d sl))

/-- Rows of packed weights or of blocks start at a multiple of 4 (R28, R29). -/
def rowAligned (a : Word) : Bool :=
  match tagOf a with
  | some (f, _) => (match f.cls with | .tern => addrPart a % 4 == 0 | .block _ => addrPart a % 4 == 0 | _ => true)
  | none => true

/-- One row, read at once at its frame's slice or thatch, or on another device (R349). -/
def gatherRow (s : State) (x : Acc) (g : GatherCmd) (e : Nat) : RangeRes (Nat × State) :=
  match addAddr g.src (e % 2 ^ 57 * g.rb) with
  | none => .error (g.src, .fault { code := 0x0D, va := g.src })
  | some a =>
    let dev := e / 2 ^ 57 % 64
    if !rowAligned a then .error (a, .fault { code := 0x04, va := a })
    else if e < 2 ^ 63 then engRead s x a g.rb
    else if !domainDev s (BitVec.ofNat 6 dev) then .error (a, .fault { code := 0x05, va := a })
    else
      (linesOf a g.rb).foldl (fun (r : RangeRes (Nat × State)) q => match r with
        | .error e => .error e
        | .ok (v, s) =>
          match addAddr a q.1 with
          | none => .error (a, .fault { code := 0x0D, va := a })
          | some b =>
            match resolveLocal s x b q.2 1 .rd with
            | .error e => .error (b, e)
            | .ok (.inl _) => .error (b, .fault { code := 0x05, va := b })
            | .ok (.inr ia) =>
              match resolveIa s x b (ia % 2 ^ 46 + dev * 2 ^ 46 + ia / 2 ^ 52 * 2 ^ 52) .rd .any q.2 with
              | .error e => .error (b, e)
              | .ok p => let (y, s) := homeRead s x p q.2; .ok (v + y * 2 ^ (8 * q.1), s)) (.ok (0, s))

/-- The distinct rows of a batch, each read once in the order of its first position. -/
def gatherRows (s : State) (x : Acc) (g : GatherCmd) : List Nat → List (Nat × Nat) → RangeRes (List (Nat × Nat) × State)
  | [], acc => .ok (acc, s)
  | e :: t, acc =>
    if acc.any fun q => q.1 == e then gatherRows s x g t acc else
    match gatherRow s x g e with
    | .error r => .error r
    | .ok (v, s) => gatherRows s x g t (acc ++ [(e, v)])

/-- The gather at the head of a slice. -/
def gatherHead (s : State) (d sl : Nat) : Option GatherCmd := ((s.die d).gathers.find? fun q => q.1 == sl).map fun q => q.2

/-- Replace the head by `f` of it, or drop it. -/
def gatherSet (s : State) (d sl : Nat) (f : GatherCmd → Option GatherCmd) : State :=
  let rec go : List (Nat × GatherCmd) → List (Nat × GatherCmd)
    | [] => []
    | q :: t => if q.1 = sl then (match f q.2 with | some g => (sl, g) :: t | none => t) else q :: go t
  s.modDie d fun x => { x with gathers := go x.gathers }

/-- The next batch of a slice is wanted. -/
def gatherKick (s : State) (d sl : Nat) : State :=
  match gatherHead s d sl with | some _ => s.pendOnce (.gatherBatchLanded d sl) | none => s

/-- GATHER_BATCH_LANDED (R349): 64 positions, or the last partial batch. -/
def execGatherBatchLanded (s : State) : Out :=
  match s.ev with
  | some (.gatherBatchLanded d sl) =>
    let e : Engine := .gather d sl
    match gatherHead s d sl with
    | none => .next s.took
    | some g =>
      let x := g.iss.acc e
      if engBlocked s e || syncBusy s x g.sync then .next s else
      let m := min 64 (g.n - g.pos)
      let batch : RangeRes State :=
        match addAddr g.idx (8 * g.pos) with
        | none => .error (g.idx, .fault { code := 0x0D, va := g.idx })
        | some ia =>
          match engRead s x ia (8 * m) with
          | .error r => .error r
          | .ok (list, t) =>
            let es := (List.range m).map fun j => list / 2 ^ (64 * j) % 2 ^ 64
            match gatherRows t x g es [] with
            | .error r => .error r
            | .ok (rows, t) =>
              engWriteAll t x ((List.range m).map fun (j : Nat) =>
                ((addAddr g.dst (Int.ofNat ((g.pos + j) * g.rb))).getD g.dst, g.rb, ((rows.find? fun q => q.1 == es.getD j 0).map fun q => q.2).getD 0))
      match batch with
      | .error r => answer (refusedStep s s g.iss e r)
      | .ok t =>
        match syncAdd t x g.sync (m * g.rb) with
        | .error r => answer (refusedStep s t g.iss e r)
        | .ok t => answer (gatherKick (gatherSet t.took d sl fun g => if g.pos + m < g.n then some { g with pos := g.pos + m } else none) d sl)
  | _ => .next s

/-! The tile-walk engine (R185 to R187, R350, R351). -/

/-- The fields of a descriptor (R185). -/
structure TwDesc where
  st     : Word
  ld     : Word
  tiles  : Nat
  tbytes : Nat
  swoff  : Nat
  bufoff : Nat
  qin    : Nat
  nbuf   : Nat
  bcore  : Nat
  rect   : Nat × Nat × Nat × Nat
  fut    : Word
  deriving DecidableEq, Repr

def TwDesc.parse (r : Nat) : TwDesc where
  st := BitVec.ofNat 64 (fieldAt r 0x38 8)
  ld := BitVec.ofNat 64 (fieldAt r 0x30 8)
  tiles := fieldAt r 0x2C 4
  tbytes := fieldAt r 0x28 4
  swoff := fieldAt r 0x24 4
  bufoff := fieldAt r 0x20 4
  qin := fieldAt r 0x1E 1
  nbuf := fieldAt r 0x1D 1
  bcore := fieldAt r 0x1C 1
  rect := rectOf r 0x18
  fut := BitVec.ofNat 64 (fieldAt r 0x10 8)

/-- A field outside R185; a sync word is 16-aligned (R94). -/
def twBad (r : Nat) : Bool :=
  let d := TwDesc.parse r
  let (x, y, w, h) := d.rect
  d.tiles == 0 || d.tbytes % 256 != 0 || decide (65536 < d.tbytes) || d.swoff % 16 != 0 || fieldAt r 0x1F 1 != 0 || decide (15 < d.qin)
    || d.nbuf == 0 || decide (16 < d.nbuf) || decide (7 < d.bcore) || rectBad x y w h || fieldAt r 0 16 != 0

/-- A shape record that a pipeline cannot use (R335): an element has whole bytes, OP is 0, and a tile is TBYTES long. -/
def twShapeBad (r tbytes : Nat) : Bool :=
  let sh := Shape.parse r
  let badFmt : Bool := match sh.format with | none => sh.fmt != 0 | some f => (match f.cls with | .tern => true | .block _ => true | _ => false)
  shapeBad r || sh.op != 0 || badFmt || sh.count * Shape.size sh.fmt != tbytes

/-- The checks of a pipeline against its clusters: 0x02, 0x07, then 0x05. -/
def twPlaceBad (s : State) (ks : List Nat) (d : TwDesc) (kid : BitVec 16) : Option (BitVec 8) :=
  if ks.any fun k => !Qd.en (qdGet s k d.qin) || decide (Qd.cap (qdGet s k d.qin) < d.nbuf) then some 0x02
  else if ks.any fun k => qForeign s k d.qin kid then some 0x07
  else if ks.any fun k => !(s.core (8 * k + d.bcore)).rangeLive d.bufoff (d.nbuf * d.tbytes) false
      || !(s.core (8 * k + d.bcore)).rangeLive d.swoff 16 false then some 0x05
  else none

/-- Any tile of the loader that lies in the own scratchpad beyond the claim (R417). -/
def twOwnBad (s : State) (sh : Shape) (tiles : Nat) : Bool := addrPart sh.base / 2 ^ 48 == 0xF0 && (List.range tiles).any fun t => shapeOwnBad s sh t

/-- The pipeline starts: each cluster holds a credit for each buffer. -/
def twStart (s : State) (k : Nat) (d : TwDesc) (ld : Shape) (st : Option Shape) : State :=
  let ks := rectClusters (cluDie k) d.rect
  let iss := issuerOf s
  (s.modClu k fun c => { c with tw :=
    { run := true, broken := false, iss := some iss, ld := some ld, st := st, tiles := d.tiles, tbytes := d.tbytes, swoff := d.swoff
      bufoff := d.bufoff, qin := d.qin, nbuf := d.nbuf, bcore := d.bcore, rect := d.rect, fut := d.fut, loaded := 0
      credits := ks.flatMap fun j => (List.range d.nbuf).map fun b => (j, b)
      stores := [], stored := 0, lastKid := iss.kid } }).pendOnce (.tileLoad k)

/-- TWRUN (R350). -/
def execTwrun (o : OXAC) (s : State) : Out :=
  issue (.twrun o) s fun c =>
    let i : Instr := .twrun o
    clusterOnly i s fun s =>
      let k := agentClu s.curAgent
      loadRecords i s [c.rG o.a] (c.taintG o.a) fun l s =>
        let r := l.headD 0
        let d := TwDesc.parse r
        let shapes := if d.st = 0 then [d.ld] else [d.ld, d.st]
        match localCheck s (curAcc s) .rd (shapes.map fun v => (v, 64, 64)) with
        | some f => faultCur i s f
        | none =>
        if twBad r then raise i s 0x02 else
        loadRecords i s shapes false fun l s =>
          let rl := l.getD 0 0
          let ld := Shape.parse rl
          if twShapeBad rl d.tbytes || (d.st ≠ 0 && twShapeBad (l.getD 1 0) d.tbytes) || ld.tiles < d.tiles then raise i s 0x02 else
          match twPlaceBad s (rectClusters (cluDie k) d.rect) d c.kid with
          | some code => raise i s code
          | none =>
            if twOwnBad s ld d.tiles then raise i s 0x05 ld.base else
            match futCheck c.win d.fut with
            | some code => raise i s code d.fut
            | none =>
              if (s.clu k).tw.run then waitFor s .retry (c.rG o.c).toNat else
              releaseThen s .dev (fun s => done i (twStart s k d ld (if d.st = 0 then none else some (Shape.parse (l.getD 1 0))))) (c.rG o.c).toNat

/-- TWSTOP (R351). -/
def execTwstop (s : State) : Out :=
  issue .twstop s fun c =>
    clusterOnly .twstop s fun s =>
      let k := agentClu s.curAgent
      let t := (s.clu k).tw
      if !t.run then done .twstop s
      else if t.lastKid ≠ c.kid then raise .twstop s 0x07
      else done .twstop (breakPipe s k)

/-- The pipeline ends when every tile is loaded and every credit is back (R186). -/
def twEnd (s : State) (k : Nat) : State :=
  let t := (s.clu k).tw
  let (_, _, w, h) := t.rect
  if !t.run || t.loaded < t.tiles || t.credits.length < w * h * t.nbuf || !t.stores.isEmpty then s else
  let s := s.modClu k fun c => { c with tw := { c.tw with run := false } }
  match t.iss with | some i => engFuture s i (.tileWalk k) t.fut (some t.stored) 1 | none => s

/-- The bytes of one tile: offset in the buffer, length, value; clipped elements leave the buffer as it is. -/
def tileRead (s : State) (x : Acc) (sh : Shape) (t : Nat) : Nat → Nat → RangeRes (List (Nat × Nat × Nat) × State)
  | 0, _ => .ok ([], s)
  | m + 1, n =>
    let z := Shape.size sh.fmt
    if sh.clipped t (sh.index n) then tileRead s x sh t m (n + 1) else
    match sh.addr t (sh.index n) with
    | none => .error (sh.base, .fault { code := 0x0D, va := sh.base })
    | some a =>
      match engRead s x a z with
      | .error e => .error e
      | .ok (v, s) =>
        match tileRead s x sh t m (n + 1) with
        | .error e => .error e
        | .ok (l, s) => .ok ((n * z, z, v) :: l, s)

/-- Bytes enter a cluster's buffer, its sync word counts them, and its queue gets the entry (R186 steps 2 to 4). -/
def tileLand (s : State) (w : TileWalk) (j t : Nat) (l : List (Nat × Nat × Nat)) : State :=
  let a := 8 * j + w.bcore
  let b := t % w.nbuf
  let s := l.foldl (fun (s : State) q => spWrite s a (w.bufoff + b * w.tbytes + q.1) q.2.1 q.2.2) s
  let s := spWrite s a w.swoff 16 (syncAddVal ((s.core a).spad.readNat w.swoff 16) w.tbytes)
  qPush s j w.qin (BitVec.ofNat 64 (t * 2 ^ 32 + b))

/-- What keeps the loader from a cluster: a fault, or a wait. The spec does not speak of a push of the loader onto a queue that is still
BROKEN, without QDWR, from an earlier pipeline: the model pushes with no fault (log 52). -/
def tileFault (s : State) (w : TileWalk) (j b : Nat) : Option (BitVec 8) :=
  let o := s.core (8 * j + w.bcore)
  if !Qd.en (qdGet s j w.qin) then some 0x02
  else if qForeign s j w.qin w.lastKid then some 0x07
  else if !o.rangeLive (w.bufoff + b * w.tbytes) w.tbytes false || !o.rangeLive w.swoff 16 false then some 0x05 else none

def tileWaits (s : State) (w : TileWalk) (j b : Nat) : Bool :=
  let v := qdGet s j w.qin
  let a := 8 * j + w.bcore
  !w.credits.contains (j, b) || decide (Qd.cap v ≤ Qd.count v) || portBusy s a (w.bufoff + b * w.tbytes) w.tbytes || portBusy s a w.swoff 16
    || portBusy s (8 * j + Qd.core v) (Qd.entry v (Qd.tail v)) 8

/-- TILE_LOAD (R186). -/
def execTileLoad (s : State) : Out :=
  match s.ev with
  | some (.tileLoad k) =>
    let e : Engine := .tileWalk k
    let w := (s.clu k).tw
    let ks := rectClusters (cluDie k) w.rect
    let t := w.loaded
    let b := t % w.nbuf
    (match w.run && decide (t < w.tiles), w.iss, w.ld with
    | true, some iss, some sh =>
      if engBlocked s e then .next s else
      (match ks.findSome? fun j => tileFault s w j b with
      | some code => answer (engRefused s.took iss e 0 (.fault { code := code }))
      | none =>
        if ks.any fun j => tileWaits s w j b then .next s else
        match tileRead s (iss.acc e) sh t sh.count 0 with
        | .error r => answer (refusedStep s s iss e r)
        | .ok (l, s') =>
          let s' := ks.foldl (fun (s : State) j => tileLand s w j t l) s'.took
          let s' := s'.modClu k fun c => { c with tw := { c.tw with loaded := t + 1, credits := c.tw.credits.filter fun q => q.2 != b } }
          answer (if t + 1 < w.tiles then s'.pendOnce (.tileLoad k) else s'))
    | _, _, _ => .next s.took)
  | _ => .next s

/-! Permits (R186, R302). -/

/-- A pipeline feeds a queue of a cluster. -/
def TileWalk.feeds (t : TileWalk) (k j q : Nat) : Bool :=
  t.run && cluDie k == cluDie j && t.qin == q && (rectClusters (cluDie k) t.rect).contains j
/-- The engine whose running pipeline feeds a queue. -/
def twOf (s : State) (j q : Nat) : Option Nat := s.clusters.some? fun k c => if c.tw.feeds k j q then some k else none
/-- A pre-emption has saved the pipeline that feeds a queue. -/
def twSaved (s : State) (j q : Nat) : Bool := s.saves.any fun (x : Nat × SaveArea) => x.2.tws.any fun t => t.2.feeds t.1 j q

/-- PERMIT: the pipeline, its kernel, BROKEN, then the buffer (R302, R289, R187, R186). A permit waits while a pre-emption has saved its
pipeline (log 53). -/
def permitForm (i : Instr) (s : State) (q b : Nat) (u : Option Nat) (go : Nat → State → State) : State :=
  clusterOnly i s fun s =>
    let j := agentClu s.curAgent
    let broke := (s.clu j).brokeSw.any fun x => x.1 == q
    match twOf s j q with
    | none =>
      if twSaved s j q then (if qForeign s j q s.cur.kid then raise i s 0x07 else waitFor s .retry)
      else if !broke then raise i s 0x02
      else if qForeign s j q s.cur.kid then raise i s 0x07 else raise i s 0x15
    | some k =>
      let t := (s.clu k).tw
      let badTile : Bool := match u, t.st with | none, _ => false | some _, none => true | some u, some sh => decide (sh.tiles ≤ u)
      if qForeign s j q s.cur.kid then raise i s 0x07
      else if broke || Qd.broken (qdGet s j q) then raise i s 0x15
      else if t.nbuf ≤ b || t.credits.contains (j, b) || badTile then raise i s 0x02
      else releaseThen s .clu (go k)

/-- A credit returns. -/
def creditBack (s : State) (k j b : Nat) : State :=
  twEnd (s.modClu k fun c => { c with tw := { c.tw with credits := if c.tw.credits.contains (j, b) then c.tw.credits else c.tw.credits ++ [(j, b)] } }) k

/-- PERMIT free (R186, R302). -/
def execPermitFree (o : OQA) (s : State) : Out :=
  issue (.permitFree o) s fun c =>
    let b := (c.rG o.a).toNat
    permitForm (.permitFree o) s o.q.toNat b none fun k s => done (.permitFree o) (creditBack s k (agentClu s.curAgent) b)

/-- PERMIT store (R186, R302). -/
def execPermitStore (o : OQAB) (s : State) : Out :=
  issue (.permitStore o) s fun c =>
    let b := (c.rG o.a).toNat
    let u := (c.rG o.b).toNat
    permitForm (.permitStore o) s o.q.toNat b (some u) fun k s =>
      let j := agentClu s.curAgent
      done (.permitStore o) ((s.modClu k fun c => { c with tw := { c.tw with stores := c.tw.stores ++ [(j, b, u)] } }).pendOnce (.storePermitAck k))

/-- STORE_PERMIT_ACK (R186): the storer writes the buffer to its output tile; the credit returns. -/
def execStorePermitAck (s : State) : Out :=
  match s.ev with
  | some (.storePermitAck k) =>
    let e : Engine := .tileWalk k
    let w := (s.clu k).tw
    (match w.stores, w.iss, w.st with
    | (j, b, u) :: rest, some iss, some sh =>
      if engBlocked s e then .next s else
      let a := 8 * j + w.bcore
      let z := Shape.size sh.fmt
      if !(s.core a).rangeLive (w.bufoff + b * w.tbytes) w.tbytes false then answer (engRefused s.took iss e 0 (.fault { code := 0x05 })) else
      if (List.range (w.tbytes / 64 + 1)).any fun i => decide (64 * i < w.tbytes) && s.spPoison.contains (a, (w.bufoff + b * w.tbytes) / 64 + i) then
        answer (engRefused s.took iss e 0 (.fault { code := 0x1B, sub := 1 })) else
      let elems := (List.range sh.count).filter fun n => !sh.clipped u (sh.index n)
      let carried : Bool := elems.any fun n => (sh.addr u (sh.index n)).isNone
      let l := elems.map fun n => ((sh.addr u (sh.index n)).getD 0, z, (s.core a).spad.readNat (w.bufoff + b * w.tbytes + n * z) z)
      (match (if carried then .error (sh.base, .fault { code := 0x0D, va := sh.base }) else engWriteAll s (iss.acc e) l : RangeRes State) with
      | .error r => answer (refusedStep s s iss e r)
      | .ok t =>
        let t := t.took.modClu k fun c => { c with tw := { c.tw with stores := rest, stored := w.stored + 1 } }
        answer (creditBack (if rest.isEmpty then t else t.pendOnce (.storePermitAck k)) k j b))
    | _, _, _ => .next s.took)
  | _ => .next s

/-! Faults of engines (R343, R331, R336, R187, R339). -/

/-- The physical address that the packet of an engine's fault carries until its record is made. -/
def packetAt (p : Packet) : Nat := p.insn.toNat / 2 ^ 64

/-- The record of a stopped command, with the issuer's part filled in. -/
def commandRecord (s : State) (i : Issuer) (e : Engine) (p : Packet) : State :=
  let pa := packetAt p
  s.sendPacket i.agent { engPacket s i e { code := p.code, sub := p.sub, info := p.info, va := p.va, ia := p.ia } with insn := 0 } pa

/-- ENGINE_FAULT (R343): the command is over without completion, its future is faulted and a record goes to its kernel. -/
def execEngineFault (s : State) : Out :=
  match s.ev with
  | some (.engineFault e p) =>
    let s := s.took
    match e with
    | .copy k =>
      (match (s.clu k).active with
      | some (_, ce) =>
        if ce.iss.task ≠ p.task then .next s else
        let cmd : Option MxEntry := match ce.cmd with | .mx no => (s.clu k).cmds.find? fun q => q.no == no | _ => none
        let fut := match cmd with | some q => mxFut q.cmd | none => ceFut ce.cmd
        let staging : Bool := match cmd with | some ⟨_, _, .stage .., _, _⟩ => true | _ => false
        let s := engFuture s ce.iss e fut none 2
        let s := s.modClu k fun c => { c with
          stgerr := c.stgerr || staging
          cmds := match cmd with | some q => c.cmds.filter fun r => r.no != q.no | none => c.cmds }
        answer (commandRecord (arrayPass (ceEnd s k) k) ce.iss e p)
      | none => .next s)
    | .gather d sl =>
      (match gatherHead s d sl with
      | some g => if g.iss.task ≠ p.task then .next s else answer (commandRecord (gatherKick (gatherSet s d sl fun _ => none) d sl) g.iss e p)
      | none => .next s)
    | .tileWalk k =>
      (match (s.clu k).tw.run, (s.clu k).tw.iss with
      | true, some i => if i.task ≠ p.task then .next s else answer (commandRecord (breakPipe s k) i e p)
      | _, _ => .next s)
    | .nearBank _ _ =>
      (match s.nbCmds.find? fun q => q.id == p.insn.toNat % 2 ^ 64 && q.iss.task == p.task with
      | some q => answer (commandRecord (nbStop s q (some 1)) q.iss e p)
      | none => .next s)
    | .gmu _ =>
      (match s.findTask p.task with
      | some (a, k) =>
        let c := s.ctx a k
        let s := s.modDie (agentDie a) fun x => { x with snaps := x.snaps.map fun q => if q.task = p.task then { q with failed := true } else q }
        answer (s.sendPacket a { p with ctx := BitVec.ofNat 3 k, kid := c.kid, stage := c.stage, core := agentNum a, pc := c.pc, insn := 0 } (packetAt p))
      | none => .next s)
    | _ => .next s
  | _ => .next s

/-! Status (R352). -/

/-- TWSTAT (R352). -/
def execTwstat (o : ORd) (s : State) : Out :=
  issue (.twstat o) s fun _ =>
    clusterOnly (.twstat o) s fun s =>
      let t := (s.clu (agentClu s.curAgent)).tw
      done (.twstat o) (landG s o.d (t.run.toNat * 2 ^ 63 + t.broken.toNat * 2 ^ 62 + t.st.isSome.toNat * 2 ^ 61 + t.lastKid.toNat * 2 ^ 32
        + t.loaded % 2 ^ 32))

/-- Bytes written by a cluster's active command. -/
def ceDone (c : Cluster) : Nat :=
  match c.active with
  | none => 0
  | some (_, e) => match e.cmd with
    | .cpy _ _ _ _ _ => e.pos
    | .cpyt d _ dt _ _ _ => bytesBefore d dt e.pos
    | .mx no => match c.cmds.find? fun q => q.no == no with
      | some ⟨_, _, .stage .., _, _⟩ => e.pos
      | some ⟨_, _, .drain _ sh _ _, _, _⟩ => bytesBefore sh 0 e.pos
      | _ => 0

/-- CESTAT (R352). -/
def execCestat (o : ORd) (s : State) : Out :=
  issue (.cestat o) s fun _ =>
    clusterOnly (.cestat o) s fun s =>
      let c := s.clu (agentClu s.curAgent)
      let places := (List.range 8).foldl (fun a j => a + (c.places.any fun p => p.1 == j).toNat * 2 ^ j) 0
      let core := match c.active with | some (j, _) => j | none => 0
      done (.cestat o) (landG s o.d (places * 2 ^ 40 + c.active.isSome.toNat * 2 ^ 39 + core * 2 ^ 36 + ceDone c % 2 ^ 32))

end Sys2Proof.Machine
end

