-- ==== Sys2Proof/Machine/Subs.lean ====
section
/-! DEFINITION. Subscriptions: binding, updates, acknowledgements, notifies and teardown (R137 to R145, R285 to R287). -/

namespace Sys2Proof.Machine

/-! Subscriber entries (R139). -/

def Sub.state (e : BitVec 128) : Nat := bitsOf e 126 125
def Sub.nen (e : BitVec 128) : Bool := bit e 124
def Sub.nch (e : BitVec 128) : BitVec 6 := e.extractLsb' 118 6
def Sub.kid (e : BitVec 128) : BitVec 16 := e.extractLsb' 96 16
def Sub.pub (e : BitVec 128) : Nat := bitsOf e 95 80
def Sub.pubIdx (e : BitVec 128) : Nat := bitsOf e 79 76
def Sub.seq (e : BitVec 128) : BitVec 32 := e.extractLsb' 32 32
def Sub.npend (e : BitVec 128) : Bool := bit e 0

def pubAt (s : State) (a i : Nat) : BitVec 128 := vget (s.core a).pubs i 0
def subAt (s : State) (a i : Nat) : BitVec 128 := vget (s.core a).subs i 0
def setPub (s : State) (a i : Nat) (e : BitVec 128) : State := s.modCore a fun o => { o with pubs := vset o.pubs i e }
def setSub (s : State) (a i : Nat) (e : BitVec 128) : State := s.modCore a fun o => { o with subs := vset o.subs i e }
def freePub (s : State) (a : Nat) : Option Nat := (List.range 16).find? fun i => !Pub.valid (pubAt s a i)
def freeSub (s : State) (a : Nat) : Option Nat := (List.range 16).find? fun i => !Sub.valid (subAt s a i)

/-- Region fields of an entry: OFFS and LEN. -/
def regionBits (off len : Nat) : Nat := off / 64 * 2 ^ 19 + (len / 64 - 1) * 2 ^ 13
def pubEntry (kid : BitVec 16) (sub subIdx off len : Nat) : BitVec 128 :=
  BitVec.ofNat 128 (2 ^ 127 + kid.toNat * 2 ^ 96 + sub * 2 ^ 80 + subIdx * 2 ^ 76 + regionBits off len)
/-- A new entry awaits its full update. -/
def subEntry (kid : BitVec 16) (nen : Bool) (nch : BitVec 6) (pub pubIdx off len : Nat) : BitVec 128 :=
  BitVec.ofNat 128 (2 ^ 127 + 2 ^ 125 + nen.toNat * 2 ^ 124 + nch.toNat * 2 ^ 118 + kid.toNat * 2 ^ 96 + pub * 2 ^ 80 + pubIdx * 2 ^ 76
    + regionBits off len)

/-! Updates (R140 to R142). -/

/-- Every block of a region, whole. -/
def regionBlocks (s : State) (a off len : Nat) : List (Nat × Mask × Line) :=
  (List.range (len / 64)).map fun b => (b, BitVec.allOnes 64, (s.core a).spad.readLine (off + 64 * b))

/-- An update leaves for the subscriber: it is counted in OUTST. -/
def sendUpdate (s : State) (a i : Nat) (blocks : List (Nat × Mask × Line)) (resid : Option (BitVec 32)) (cvg : Option (Nat × Nat))
    (full repoint : Bool) (bad : List Nat := []) : State :=
  let e := pubAt s a i
  let (no, s) := s.newId
  (setPub s a i (putBits e 75 64 (Pub.outst e + 1))).pend
    (.subscriptionUpdateApply ⟨no, a, i, Pub.sub e, Pub.subIdx e, Pub.kid e, blocks, resid, cvg, full, repoint, bad⟩)

/-- A full-region update (R137, R145), with the poison of its blocks (R228). -/
def sendFull (s : State) (a i : Nat) (repoint : Bool) : State :=
  let e := pubAt s a i
  sendUpdate s a i (regionBlocks s a (Pub.off e) (Pub.len e)) none none true repoint
    ((List.range (Pub.len e / 64)).filter fun b => s.spPoison.contains (a, Pub.off e / 64 + b))

/-- A fence or an arrival waits for the core's updates (R143). -/
def updatesWanted (s : State) (a : Nat) : Bool :=
  s.cores.any fun (b, o) => (o.ctxs.toList.any fun c => match c.wait with | some ⟨.updates, _, _⟩ => true | _ => false)
    && (clusterCores s b).contains a

/-- SUBSCRIPTION_UPDATE_SEND (R141): 32 cycles after the update opened, or at once when it is waited for. -/
def execSubscriptionUpdateSend (s : State) : Out :=
  match s.ev with
  | some (.subscriptionUpdateSend a i) =>
    let o := s.core a
    match o.pubPend.find? fun p => p.entry == i with
    | none => .next s.took
    | some p =>
      let e := vget o.pubs i 0
      if !Pub.valid e || Pub.state e = 2 then .next (s.took.setCore a { o with pubPend := o.pubPend.erase p })
      else if (s.now < p.opened + 32 && !updatesWanted s a) || Pub.outst e = 4095 then .next s
      else .next (sendUpdate (s.took.setCore a { o with pubPend := o.pubPend.erase p }) a i p.blocks p.resid p.cvg false false)
  | _ => .next s

/-! Notifies (R144). -/

/-- The larger residual; NaN ranks above every number. -/
def residMax (a b : Option (BitVec 32)) : Option (BitVec 32) :=
  match a, b with
  | none, y => y
  | x, none => x
  | some x, some y =>
    let u := ffF32.decode x.toNat
    let v := ffF32.decode y.toNat
    if u.isNan then some x else if v.isNan || u.lt v then some y else some x

/-- The message of a notify: what it delivers is its content when it is taken. -/
def notifyMsg (s : State) (a no : Nat) (kid : BitVec 16) (ch : BitVec 6) : Msg :=
  { hwMsg s a a ch 3 (BitVec.ofNat 960 (no * 2 ^ 192)) kid (agentWorld s a) with kind := .notify }

/-- Post a notify, or let the queued one absorb the content; a queued arrival takes its new level at once. -/
def postNotify (s : State) (a e : Nat) (mask : BitVec 64) (resid : Option (BitVec 32)) (cvg : Option (Nat × Nat)) (flags : BitVec 16) : State :=
  let x := subAt s a e
  if !Sub.nen x then s else
  let o := s.core a
  match (if Sub.npend x then o.notifies.find? fun n => n.live && n.entry == e else none) with
  | some n =>
    let n' : Notify := { n with
      seq := Sub.seq x, mask := n.mask ||| mask, resid := residMax n.resid resid, flags := n.flags ||| flags
      cvg := match cvg with | some c => some c | none => n.cvg }
    let lv := notifyLevel s n'
    s.setCore a { o with
      notifies := o.notifies.map fun q => if q.no = n.no then n' else q
      arrivals := o.arrivals.map fun v => if v.msg.kind == .notify && notifyOf o v.msg == some n then { v with level := lv } else v }
  | none =>
    let (no, s) := s.newId
    (s.setCore a { o with
      notifies := o.notifies ++ [⟨no, e, true, Sub.seq x, mask, resid, cvg, flags⟩]
      subs := vset o.subs e (setBit x 0 true) }).pend (.messageArrive (notifyMsg s a no (Sub.kid x) (Sub.nch x)))

/-- The entry is another's from now on: a notify that it has queued is delivered for itself. -/
def dropNotify (s : State) (a e : Nat) : State :=
  s.modCore a fun o => { o with notifies := o.notifies.map fun n => if n.entry = e then { n with live := false } else n }

/-! Applying updates (R142). -/

/-- The task that waits for the full update of an entry: its destination, taint, instruction length, and the link it makes. -/
def bindWaiter (s : State) (a e : Nat) : Option (BitVec 32 × Option (Nat × Nat × Word) × Reg × Bool × Nat) :=
  let mine (c : Ctx) : Option (BitVec 32 × Option (Nat × Nat × Word) × Reg × Bool × Nat) :=
    match c.wait with
    | some ⟨.bind i l d t n, _, _⟩ => if i = e && c.st != .free then some (c.task, l, d, t, n) else none
    | _ => none
  (s.core a).ctxs.toList.findSome? mine

/-- The link of a GLINK is recorded (R358 step 4). -/
def linkMade (s : State) (a e : Nat) (l : Option (Nat × Nat × Word)) : State :=
  match l with
  | none => s
  | some (off, j, vref) =>
    let s := spWrite s a (off + 0x20 + 8 * j) 8 vref.toNat
    s.modCore a fun o => { o with gmu := { o.gmu with facs := o.gmu.facs.map fun g =>
      if g.off = off then { g with links := setBit g.links j true, mirrors := g.mirrors ++ [(j, e)] } else g } }

/-- The port at which the link of a waiting GLINK must wait (R140). -/
def linkBusy (s : State) (a e : Nat) : Option Nat :=
  match bindWaiter s a e with
  | some (_, some (off, j, _), _) => if portBusy s a (off + 0x20 + 8 * j) 8 then some a else none
  | _ => none

/-- The bind has completed: SUBSCR or GLINK writes the entry's index. -/
def bindDone (s : State) (a e : Nat) : State :=
  match bindWaiter s a e with
  | none => s
  | some (t, l, d, taint, n) =>
    updTask (linkMade s a e l) t fun c => { c.wG d (BitVec.ofNat 64 e) taint with pc := c.pc + BitVec.ofNat 64 n, wait := none }

/-- Block masks of an update. -/
def blockMask (l : List (Nat × Mask × Line)) : BitVec 64 := BitVec.ofNat 64 ((l.map fun q => q.1).foldl (fun a b => a ||| 2 ^ b) 0)

/-- The masked bytes of a block land in the mirror; they are not forwarded again (R285). A whole block brings its poison, or clears what was
there (R228). -/
def landBlock (s : State) (a off : Nat) (bad : List Nat) (q : Nat × Mask × Line) : State :=
  let at_ := off + 64 * q.1
  let s := s.modCore a fun o => { o with spad := o.spad.writeMasked at_ q.2.2 q.2.1 }
  if q.2.1 ≠ BitVec.allOnes 64 then s
  else { s with spPoison := s.spPoison.erase (a, at_ / 64) ++ if bad.contains q.1 then [(a, at_ / 64)] else [] }

/-- SUBSCRIPTION_UPDATE_APPLY (R142): in the order of sending for each publisher entry; SEQ steps, then the acknowledgement. -/
def execSubscriptionUpdateApply (s : State) : Out :=
  match s.ev with
  | some (.subscriptionUpdateApply u) =>
    let earlier (e : Ev) : Bool := match e with
      | .subscriptionUpdateApply v => v.pub == u.pub && v.pubIdx == u.pubIdx && decide (v.no < u.no)
      | _ => false
    if s.pending.any earlier then .next s else
    match (if u.full then linkBusy s u.sub u.subIdx else none) with
    | some b => .next (atPort s b)
    | none =>
    let s := s.took
    let a := u.sub
    let x := subAt s a u.subIdx
    let mine := Sub.valid x && Sub.kid x == u.kid && Sub.pub x == u.pub && Sub.pubIdx x == u.pubIdx && Sub.state x != 2
    let s := if !mine then s else
      let s := u.blocks.foldl (fun (s : State) q => landBlock s a (Sub.off x) u.bad q) s
      let x := putBits x 63 32 (Sub.seq x).toNat.succ
      let s := setSub s a u.subIdx (if u.full then putBits x 126 125 0 else x)
      let s := if u.full then bindDone s a u.subIdx else s
      postNotify s a u.subIdx (blockMask u.blocks) u.resid u.cvg (if u.repoint then 2 else 0)
    .next (s.pend (.subscriptionAck u.pub u.pubIdx))
  | _ => .next s

/-- SUBSCRIPTION_ACK (R140): OUTST goes down. -/
def execSubscriptionAck (s : State) : Out :=
  match s.ev with
  | some (.subscriptionAck a i) =>
    let e := pubAt s a i
    let s := s.took
    .next (if Pub.valid e && Pub.outst e ≠ 0 then setPub s a i (putBits e 75 64 (Pub.outst e - 1)) else s)
  | _ => .next s

/-! Binding and teardown (R137, R145). -/

/-- The checks at the publisher core, in the order of R285. -/
def pubCheck (s : State) (a : Nat) (kid : BitVec 16) (pub off len : Nat) : Option (BitVec 8) :=
  let o := s.core pub
  if !o.wsets.toList.any fun w => w.kid == kid then some 0x07
  else if agentWorld s pub != agentWorld s a then some 0x0C
  else if !o.rangeLive off len false then some 0x05
  else if (freePub s pub).isNone then some 0x19
  else none

/-- Fill both entries and send the first, full update: the subscriber entry's index. -/
def subBind (s : State) (a : Nat) (kid : BitVec 16) (nen : Bool) (nch : BitVec 6) (off pub poff len : Nat) : Nat × State :=
  match freeSub s a, freePub s pub with
  | some i, some j =>
    let s := setSub s a i (subEntry kid nen nch pub j off len)
    (i, sendFull (setPub s pub j (pubEntry kid a i poff len)) pub j false)
  | _, _ => (0, s)

/-- A publisher entry is freed: nothing of it is on its way any more. -/
def freePubEntry (s : State) (a i : Nat) : State :=
  let dead (e : Ev) : Bool := match e with
    | .subscriptionUpdateApply u => u.pub == a && u.pubIdx == i
    | .subscriptionAck b j => b == a && j == i
    | .subscriptionUpdateSend b j => b == a && j == i
    | _ => false
  let s := { s with pending := s.pending.filter fun e => !dead e }
  leaveWays (s.modCore a fun o => { o with pubs := vset o.pubs i 0, pubPend := o.pubPend.filter fun p => p.entry != i }) a

/-- A subscriber entry that leaves its core is no factor's mirror any more (R365). -/
def dropMirror (s : State) (a i : Nat) : State :=
  s.modCore a fun o => { o with gmu := { o.gmu with facs := o.gmu.facs.map fun g => { g with mirrors := g.mirrors.filter fun q => q.2 != i } } }

/-- A subscriber entry is freed; an active one first sends its teardown. -/
def unsubscribe (s : State) (a i : Nat) : State :=
  let e := subAt s a i
  let s := dropMirror s a i
  let s := if Sub.state e = 2 then s else s.pend (.subscriptionTeardown (Sub.pub e) (Sub.pubIdx e) false (Sub.kid e) a i)
  leaveWays (setSub (dropNotify s a i) a i 0) a

/-- A publisher entry whose kernel is killed: its subscriber is told (R145), and it is freed. -/
def unpublish (s : State) (a i : Nat) : State :=
  let e := pubAt s a i
  freePubEntry (s.pend (.subscriptionTeardown (Pub.sub e) (Pub.subIdx e) true (Pub.kid e) a i)) a i

/-- SUBSCRIPTION_TEARDOWN (R145): at the publisher the entry is freed; at the subscriber it is torn down, with a notify. One that finds the entry
gone, or bound to another peer, changes nothing. -/
def execSubscriptionTeardown (s : State) : Out :=
  match s.ev with
  | some (.subscriptionTeardown a i toSub kid peer peerIdx) =>
    let s := s.took
    if toSub then
      let e := subAt s a i
      if !Sub.valid e || Sub.kid e ≠ kid || Sub.pub e ≠ peer || Sub.pubIdx e ≠ peerIdx then .next s
      else .next (postNotify (setSub s a i (putBits e 126 125 2)) a i 0 none none 1)
    else
      let e := pubAt s a i
      if !Pub.valid e || Pub.kid e ≠ kid || Pub.sub e ≠ peer || Pub.subIdx e ≠ peerIdx then .next s else .next (freePubEntry s a i)
  | _ => .next s

/-! Instructions (R285 to R287). -/

/-- SUBSCR (R285). -/
def execSubscr (o : ODAB) (s : State) : Out :=
  issue (.subscr o) s fun c =>
    let i : Instr := .subscr o
    let a := s.curAgent
    let va := c.rG o.a
    let g := c.rG o.b
    let off := addrPart va % 2 ^ 48
    let pub := bitsOf g 63 48
    let poff := bitsOf g 47 35 * 64
    let len := (bitsOf g 34 29 + 1) * 64
    if addrPart va % 64 ≠ 0 then raise i s 0x04 va
    else if addrPart va / 2 ^ 48 ≠ 0xF0 || isRidge a || c.claim * wayBytes < off + len || !(s.core a).rangeLive off len false then raise i s 0x05 va
    else if bitsOf g 21 0 ≠ 0 || 2048 ≤ pub then raise i s 0x02
    else if (freeSub s a).isNone then raise i s 0x19
    else match pubCheck s a c.kid pub poff len with
      | some code => raise i s code
      | none =>
        let (e, s) := subBind s a c.kid (bit g 28) (g.extractLsb' 22 6) off pub poff len
        waitFor s (.bind e none o.d (srcTaint i c) (Instr.bytes i))

/-- The checks of a subscriber entry's index (R286). -/
def subIndex (i : Instr) (s : State) (n : Nat) (go : BitVec 128 → State) : State :=
  if 15 < n || !Sub.valid (subAt s s.curAgent n) then raise i s 0x02
  else if Sub.kid (subAt s s.curAgent n) ≠ s.cur.kid then raise i s 0x07
  else go (subAt s s.curAgent n)

/-- UNSUB (R286). -/
def execUnsub (o : OA) (s : State) : Out :=
  issue (.unsub o) s fun c =>
    let n := (c.rG o.a).toNat
    subIndex (.unsub o) s n fun _ => done (.unsub o) (unsubscribe s s.curAgent n)

/-- SUBSTAT (R287): an acquire at its scope. -/
def execSubstat (o : OSubst) (s : State) : Out :=
  issue (.substat o) s fun c =>
    let n := (c.rG o.a).toNat
    subIndex (.substat o) s n fun e =>
      let v := (Sub.valid e).toNat * 2 ^ 35 + (Sub.npend e).toNat * 2 ^ 34 + Sub.state e * 2 ^ 32 + (Sub.seq e).toNat
      let s := acquire s s.curAgent o.scope
      s.setCur ((s.cur.wG o.d (BitVec.ofNat 64 v)).past (.substat o))

end Sys2Proof.Machine
end

