-- ==== Sys2Proof/Machine/Graph.lean ====
section
/-! DEFINITION. The Gaussian graph engine: objects (R56 to R60, R354, R356, R357), records (R61 to R63, R403), arrivals (R64, R65), messages
(R66 to R68), links (R358), beliefs (R74, R362), snapshots (R72, R73, R363) and freeing (R365). -/

namespace Sys2Proof.Machine

/-! Scratchpad bytes of an object. -/

def spRead (s : State) (a o n : Nat) : Nat := (s.core a).spad.readNat o n
/-- Stores of any length at a scratchpad port, block by block. -/
def spStore (s : State) (a off n v : Nat) : State :=
  ((linePieces off n (n / 64 + 2) 0).foldl (fun (r : Nat × State) q => (r.1 / 2 ^ (8 * q.2), spWrite r.2 a (off + q.1) q.2 (r.1 % 2 ^ (8 * q.2)))) (v, s)).2

/-- 32-bit values in a number, lowest first. -/
def words32 (v n : Nat) : List Nat := (List.range n).map fun i => v / 2 ^ (32 * i) % 2 ^ 32
def pack32 (l : List Nat) : Nat := l.foldr (fun x a => x % 2 ^ 32 + 2 ^ 32 * a) 0

/-! Layouts (R56, R58, R60). -/

def packedLen (d : Nat) : Nat := d + d * (d + 1) / 2
/-- Index of Λ[i][j], i ≤ j, in a packed form of dimension `d`. -/
def packedAt (d i j : Nat) : Nat := d + i * d - i * (i - 1) / 2 + (j - i)
def beliefBytes (d : Nat) : Nat := roundUp (4 * packedLen d) 64
def priorBytes (d : Nat) : Nat := roundUp (4 * packedLen d) 8
def slotBytes (d : Nat) : Nat := 8 + priorBytes d
def slotOff (d t : Nat) : Nat := 0x40 + beliefBytes d + priorBytes d + t * slotBytes d
def varExtent (d k : Nat) : Nat := roundUp (slotOff d k) 64

def facDim (dims : List Nat) : Nat := dims.foldl (fun a b => a + b) 0
def jointBytes (dims : List Nat) : Nat := roundUp (4 * packedLen (facDim dims)) 64
def lastOff (dims : List Nat) (j : Nat) : Nat := 0x40 + jointBytes dims + 4 * facDim ((dims.take j).map packedLen)
def lastBytes (dims : List Nat) : Nat := roundUp (4 * facDim (dims.map packedLen)) 64
def mirrorOff (dims : List Nat) (j : Nat) : Nat := 0x40 + jointBytes dims + lastBytes dims + facDim ((dims.take j).map beliefBytes)
def facExtent (dims : List Nat) : Nat := mirrorOff dims dims.length

/-- The dimensions of a factor's variables, from its header. -/
def facDims (s : State) (a off : Nat) : List Nat := (List.range (min 4 (spRead s a (off + 4) 1))).map fun j => spRead s a (off + 0x18 + j) 1

/-! Arithmetic. -/

abbrev f32One : Nat := 0x3F800000
abbrev f32Inf : Nat := 0x7F800000
def addF32 (x y : Nat) : Fl Nat := addF ffF32 x y
/-- `Neg` flips the sign bit. -/
def flipF32 (x : Nat) : Nat := (x + 2 ^ 31) % 2 ^ 32
def f32Bad (x : Nat) : Bool := match ffF32.decode x with | .fin s n _ => s || n == 0 | _ => true
/-- Sums element by element, with their flags. -/
def addForms : List Nat → List Nat → Fl (List Nat)
  | x :: xs, y :: ys => let (v, f) := addF32 x y; let (l, g) := addForms xs ys; (v :: l, f ||| g)
  | _, _ => ([], 0)

/-! Convergence records (R61 to R63, R403). -/

/-- The home of a record that an object of core `a` names, and its address there. -/
def recOf (a : Nat) (va : Nat) : Nat × Nat := (agentClu a * 8 + va / 2 ^ 18 % 8, va % 2 ^ 18)
def recAddr (r : Nat × Nat) : Nat := 0xF1 * 2 ^ 48 + coreIdx r.1 * 2 ^ 18 + r.2

/-- Every message of a GMU takes a place of its core's retry buffer (R155): an operation that would need more places than the buffers of the
cores `l` have waits until they are free. `t` is the state after it. -/
def gmuPlaced (t : State) (l : List Nat) : Bool := l.all fun b => decide ((t.core b).retry.length ≤ 8)

/-- The first core at whose port one of the stores (core, address, bytes) is held (R140). -/
def busyPort (s : State) (l : List (Nat × Nat × Nat)) : Option Nat := (l.find? fun q => portBusy s q.1 q.2.1 q.2.2).map fun q => q.1

/-- One indivisible update at the record's home, and the test. `bits` are set in CFLAGS. For a QCORE of 2,048 or more, or a QCH or ECH above 63, R61
gives no outcome: the messages go to the number's low 11 bits, the channel's low 6 (DESIGN CHOICE, log 57), here and in `gmuError`. -/
def recUpdate (s : State) (r : Nat × Nat) (kid : BitVec 16) (dU dI : Int) (dA : Nat) (fl : Word) (bits : Nat) : State :=
  let f o n := spRead s r.1 (r.2 + o) n
  let unset := wrapN (Int.ofNat (f 0 4) + dU) 32
  let inflight := wrapN (Int.ofNat (f 4 4) + dI) 32
  let applied := (f 8 8 + dA) % 2 ^ 64
  let cf := f 0x14 4 ||| (fl.toNat % 32 * 2 ^ 11) ||| bits
  let quiet := cf % 2 = 1 && unset = 0 && inflight = 0
  let cf := if quiet then (cf - 1) ||| 2 else cf
  let qgen := if quiet then (f 0x18 4 + 1) % 2 ^ 32 else f 0x18 4
  let s := spWrite s r.1 r.2 32
    (unset + inflight * 2 ^ 32 + applied * 2 ^ 64 + f 0x10 4 * 2 ^ 128 + cf * 2 ^ 160 + qgen * 2 ^ 192 + f 0x1C 4 * 2 ^ 224)
  if !quiet then s else
  sendMsg s r.1 (hwMsg s r.1 (f 0x10 2 % 2048) (BitVec.ofNat 6 (f 0x12 1)) 3 (BitVec.ofNat 960 (recAddr r + applied * 2 ^ 64 + qgen * 2 ^ 128)) kid
    (agentWorld s r.1))

def errBit : Nat := 8
def badPivotBit : Nat := 4

/-- A graph error message (R67). -/
def gmuError (s : State) (a : Nat) (r : Nat × Nat) (kid : BitVec 16) (cause origin slot piv fid off val : Nat) : State :=
  let pay := cause + origin * 2 ^ 8 + slot * 2 ^ 16 + piv * 2 ^ 24 + fid * 2 ^ 32 + off * 2 ^ 64 + val * 2 ^ 96 + recAddr r * 2 ^ 128
  sendMsg s a (hwMsg s a (spRead s r.1 (r.2 + 0x10) 2 % 2048) (BitVec.ofNat 6 (spRead s r.1 (r.2 + 0x13) 1)) 3 (BitVec.ofNat 960 pay) kid (agentWorld s a))

/-! Beliefs (R65, R69). -/

/-- A belief write is one update group for every publisher region that it meets (R141). -/
def beliefWrite (s : State) (a at_ n v : Nat) (resid : BitVec 32) (cvg : Nat × Nat) : State :=
  let s := s.modCore a fun o => { o with spad := o.spad.writeNat at_ n v }
  let s := { s with spPoison := s.spPoison.filter fun q => !(q.1 == a && decide (at_ / 64 ≤ q.2) && decide (q.2 < (at_ + n) / 64)) }
  (pubIdxs (s.core a) at_ n).foldl (fun (s : State) i =>
    let e := pubAt s a i
    let bs := (List.range (n / 64)).filterMap fun j =>
      let p := at_ + 64 * j
      if Pub.off e ≤ p && p < Pub.off e + Pub.len e then some ((p - Pub.off e) / 64, BitVec.allOnes 64, (s.core a).spad.readLine p) else none
    (s.modCore a fun o => { o with pubPend := o.pubPend ++ [⟨i, s.now, bs, some resid, some cvg, true⟩] }).pend (.subscriptionUpdateSend a i)) s

/-- The belief, RESID and SETTLED of a variable from its prior and its slots: `GmuArrive` from its loop onward. The answer is the state,
the change of UNSET and the flags. -/
def recompute (s : State) (a off : Nat) : State × Int × Word :=
  let d := spRead s a (off + 4) 1
  let k := spRead s a (off + 5) 1
  let n := packedLen d
  let form (o : Nat) : List Nat := words32 (spRead s a o (4 * n)) n
  let (acc, fl) := (List.range k).foldl (fun (r : Fl (List Nat)) t =>
    let (l, f) := addForms r.1 (form (off + slotOff d t + 8)); (l, r.2 ||| f)) (form (off + 0x40 + beliefBytes d), 0)
  let (diff, fl2) := addForms acc ((form (off + 0x40)).map flipF32)
  let r := diff.foldl (fun r x =>
    let y := x % 2 ^ 31
    let u := ffF32.decode r
    let v := ffF32.decode y
    if u.isNan || v.isNan then ffF32.nanBits else if u.lt v then y else r) 0
  let tau := ffF32.decode (spRead s a (off + 8) 4)
  let x := ffF32.decode r
  let settled := !x.isNan && !tau.isNan && !tau.lt x
  let vf := spRead s a (off + 6) 2
  let was := vf % 2 = 1
  let s := beliefWrite s a (off + 0x40) (beliefBytes d) (pack32 acc) (BitVec.ofNat 32 r) (recOf a (spRead s a (off + 0x10) 8))
  let s := spWrite s a (off + 0x0C) 4 r
  let s := spWrite s a (off + 6) 2 (vf / 2 * 2 + settled.toNat)
  (s, (if settled && !was then -1 else if was && !settled then 1 else 0), fl ||| fl2)

/-- GEN steps, and a slot takes it as its SEQ. -/
def stepGen (s : State) (a off slot : Nat) : State :=
  let g := (spRead s a (off + 0x18) 4 + 1) % 2 ^ 32
  spWrite (spWrite s a (off + 0x18) 4 g) a (off + slotOff (spRead s a (off + 4) 1) slot + 4) 4 g

/-! Arrivals (R64, R65). -/

def findVar (s : State) (a off : Nat) : Option GObj := (s.core a).gmu.vars.find? fun g => g.off == off
def findFac (s : State) (a off : Nat) : Option GObj := (s.core a).gmu.facs.find? fun g => g.off == off
def slotFid (s : State) (a off slot : Nat) : Nat := spRead s a (off + slotOff (spRead s a (off + 4) 1) slot) 4
def objPoison (s : State) (a off n : Nat) : Bool := s.spPoison.any fun q => q.1 == a && decide (off / 64 ≤ q.2) && decide (q.2 < (off + n + 63) / 64)

/-- The record of the factor that sent a message (R152). -/
def senderRec (m : Msg) : Nat × Nat := (agentClu (srcAgent m) * 8 + bitsOf m.tag 15 13, bitsOf m.tag 12 0 * 32)

/-- A dropped message. R67 does not say whose KID a GMU's error or quiescence message has where an arrival causes it: it has that of the graph
message, here and in `gmuApply` (DESIGN CHOICE, log 57). -/
def gmuDrop (s : State) (a : Nat) (m : Msg) (kind : Nat) : State :=
  let r := senderRec m
  let s := recUpdate s r m.kid 0 (-1) 0 0 errBit
  gmuError s a r m.kid kind 0 (bitsOf m.payload 39 32) 0xFF (bitsOf m.payload 95 64) (bitsOf m.payload 31 0) 0

/-- The decision of `GmuArrive` before `PendingPush`: a drop, or the variable. A message that waited there is past its channel's test. -/
def arrivalCheck (s : State) (a : Nat) (m : Msg) : Except Nat GObj :=
  let e := vget (s.core a).handlers m.ch.toNat 0
  let off := bitsOf m.payload 31 0
  let slot := bitsOf m.payload 39 32
  if (s.core a).gmu.late = 0 && (!Handler.valid e || !Handler.gmu e) then .error 5 else
  match findVar s a off with
  | none => .error 3
  | some g =>
    if objPoison s a off 64 then .error 6
    else if bitsOf m.payload 47 40 ≠ spRead s a (off + 4) 1 || spRead s a (off + 5) 1 ≤ slot then .error 4
    else if objPoison s a (off + slotOff (spRead s a (off + 4) 1) slot) 4 then .error 6
    else if slotFid s a off slot ≠ bitsOf m.payload 95 64 then .error 3 else .ok g

/-- What applying the message reads is poisoned: the belief, the prior and the forms of the other slots (R228). -/
def arrivalPoison (s : State) (a : Nat) (m : Msg) : Bool :=
  let off := bitsOf m.payload 31 0
  let d := spRead s a (off + 4) 1
  let n := 4 * packedLen d
  objPoison s a (off + 0x40) n || objPoison s a (off + 0x40 + beliefBytes d) n
    || (List.range (spRead s a (off + 5) 1)).any fun t => t != bitsOf m.payload 39 32 && objPoison s a (off + slotOff d t + 8) n

/-- The stores of applying it, by core, address and bytes. -/
def arrivalPorts (s : State) (a : Nat) (m : Msg) : List (Nat × Nat × Nat) :=
  let off := bitsOf m.payload 31 0
  let d := spRead s a (off + 4) 1
  let r := recOf a (spRead s a (off + 0x10) 8)
  [(a, off + slotOff d (bitsOf m.payload 39 32) + 4, 4 + 4 * packedLen d), (a, off, 64), (a, off + 0x40, beliefBytes d), (r.1, r.2, 32),
    ((senderRec m).1, (senderRec m).2, 32)]

/-- Apply a message to its variable: slot, belief, residual, then the records, the variable's first. -/
def gmuApply (s : State) (a : Nat) (m : Msg) : State :=
  let off := bitsOf m.payload 31 0
  let slot := bitsOf m.payload 39 32
  let d := spRead s a (off + 4) 1
  let n := 4 * packedLen d
  let s := spStore s a (off + slotOff d slot + 8) n (m.payload.toNat / 2 ^ 96 % 2 ^ (8 * n))
  let (s, dU, fl) := recompute (stepGen s a off slot) a off
  let r := recOf a (spRead s a (off + 0x10) 8)
  if r = senderRec m then recUpdate s r m.kid dU (-1) 1 fl 0
  else recUpdate (recUpdate s r m.kid dU 0 1 fl 0) (senderRec m) m.kid 0 (-1) 0 0 0

/-- A die runs. -/
def dieRuns (s : State) (d : Nat) : Bool := (s.die d).running && !(s.die d).stopped

/-- A GMU works: its die runs, its core's halt groups do not stop it (R223, R372), and the device is not quiesced (R231). -/
def gmuRuns (s : State) (a : Nat) : Bool := dieRuns s (agentDie a) && !(s.core a).halted && !s.quiesced

/-- A dropped arrival, with the record of a poisoned one. -/
def dropArrival (s : State) (a : Nat) (m : Msg) (kind : Nat) : State :=
  let s := gmuDrop s a m kind
  if kind = 6 then s.record 0x1B 1 7 0 m.kid m.task a 0 m.pc 0 0 else s

/-- The head of the input queue leaves it. -/
def popArrival (s : State) (a : Nat) (t : List Msg) : State :=
  s.modCore a fun o => { o with gmu := { o.gmu with inq := t, late := o.gmu.late - 1 } }

/-- A GMU operation takes effect when its ports take its stores (R140) and its messages find places (R155); until then it waits. -/
def gmuStep (s : State) (ports : List (Nat × Nat × Nat)) (homes : List Nat) (t : State) (fin : State → State) : Out :=
  match busyPort s ports with
  | some b => .next (atPort s b)
  | none => if gmuPlaced t homes then answer (fin t) else .next s

/-- GMU_ARRIVE (R65, R72): the head of the input queue; on a frozen core an arrival that passes the checks goes to the pending buffer. -/
def execGmuArrive (s : State) : Out :=
  match s.ev with
  | some (.gmuArrive a) =>
    (match (s.core a).gmu.inq with
    | [] => .next s.took
    | m :: t =>
      if !gmuRuns s a then .next s else
      let r := senderRec m
      let fin (s : State) : State := serve (if t.isEmpty then s else s.pendOnce (.gmuArrive a)) a
      let s1 := popArrival s.took a t
      let drop (kind : Nat) : Out := gmuStep s [(r.1, r.2, 32)] [r.1, a] (dropArrival s1 a m kind) fin
      match arrivalCheck s a m with
      | .error kind => drop kind
      | .ok v =>
        if (s.core a).gmu.frozen then answer (fin (s1.modCore a fun o => { o with gmu := { o.gmu with pend := o.gmu.pend ++ [m] } }))
        else if arrivalPoison s a m then drop 6
        else gmuStep s (arrivalPorts s a m) [(recOf a (spRead s a (v.off + 0x10) 8)).1, r.1] (gmuApply s1 a m) fin)
  | _ => .next s

/-! The shared checks of the group (R354). -/

/-- The first of a list of checks that fails. -/
def firstBad (l : List (Bool × BitVec 8)) : Option (BitVec 8) := (l.find? fun q => q.1).map fun q => q.2

def ownWin (s : State) (va : Word) : Bool := !isRidge s.curAgent && addrPart va / 2 ^ 48 == 0xF0
def offOf (va : Word) : Nat := addrPart va % 2 ^ 48
/-- Beyond the task's claim. -/
def pastClaim (s : State) (va : Word) (n : Nat) : Bool := decide (s.cur.claim * wayBytes < offOf va + n)
/-- A record's address that is outside the cluster-shared window, or beyond its limit. -/
def recBad (s : State) (va : Word) : Bool :=
  addrPart va / 2 ^ 48 != 0xF1 || (match resolveLocal s (curAcc s) va 32 1 .wr with | .ok _ => false | .error _ => true)

/-- Unbinds that have reached a core's GMU and wait there, each with the TIME of its arrival. -/
def unbindsAt (s : State) (a : Nat) : List Nat :=
  s.pending.filterMap fun e => match e with | .gmuUnbind r => if r.core = a then r.since else none | _ => none

/-- A context's operation waits for the unfreeze, for the arrivals that were pending then, and for its turn among the operations and unbinds that
waited with it (R355). -/
def gmuHeld (s : State) : Bool :=
  let o := s.core s.curAgent
  let mine := match s.cur.wait with | some w => w.since | none => s.now
  o.gmu.frozen || o.gmu.late != 0 || ((unbindsAt s s.curAgent).any fun t => decide (t < mine)) || (List.range 8).any fun k =>
    k != s.curCtx && (match (vget o.ctxs k Ctx.reset).wait with
      | some ⟨.gmu, _, t⟩ => decide (t < mine) || (t == mine && decide (k < s.curCtx))
      | _ => false)

/-- The operation of a context is under way at its core's GMU (R355): a GLINK from its bind to its link (R358), or a factor's GFREE until its unbinds are
acknowledged (R365). -/
def gmuBegun (s : State) (a k : Nat) : Bool :=
  let c := s.ctx a k
  match c.wait with
  | some ⟨.bind _ (some _) _ _ _, _, _⟩ => true
  | some ⟨.done, _, _⟩ => s.pending.any fun e => match e with | .gmuBind r => r.agent == a && r.task == c.task | _ => false
  | some ⟨.unbinds _ _, _, _⟩ => true
  | _ => false

/-- An unbind of a task is held by a freeze: its GFREE then holds back its own context alone (R355). -/
def unbindFrozen (s : State) (t : BitVec 32) : Bool :=
  s.pending.any fun e => match e with
    | .gmuUnbind r => r.task == t && ((s.core r.core).gmu.frozen || (s.core r.core).gmu.late != 0) | _ => false

/-- A core's GMU performs an operation that is not over. -/
def gmuBusy (s : State) (a : Nat) : Bool := (List.range 8).any fun k => gmuBegun s a k && !unbindFrozen s (s.ctx a k).task

/-- An instruction of the group waits while an earlier one of its core is under way (R355). -/
def gmuIssue (i : Instr) (s : State) (go : Ctx → State → State) : Out :=
  issue i s fun c => if gmuBusy s s.curAgent then waitFor s .retry else go c s

/-- The object of an instruction: its window, alignment, extent, directory entry, reserved bits, kernel (R354). `more` are checks of the
same rows on the other operands: misalignment, then range. -/
def objectForm (i : Instr) (s : State) (va : Word) (g : Option GObj) (noWin bad4 bad5 rsv : Bool) (go : GObj → State) : State :=
  let ext := match g with | some g => g.ext | none => 64
  match firstBad [(!ownWin s va || noWin, 0x05), (addrPart va % 64 != 0 || bad4, 0x04), (pastClaim s va ext || bad5, 0x05), (g.isNone, 0x02), (rsv, 0x02)] with
  | some code => raise i s code
  | none =>
    match g with
    | none => s
    | some g => if g.kid ≠ s.cur.kid then raise i s 0x07 else go g

/-- Write G[d] and finish. -/
def gmuDone (i : Instr) (s : State) (d : Reg) (v : Nat) : State := s.setCur ((s.cur.wG d (BitVec.ofNat 64 v) (srcTaint i s.cur)).past i)

/-- A poisoned line is read: `l` lists the core, the address and the bytes read (R228). -/
def orPoison (i : Instr) (s : State) (va : Word) (l : List (Nat × Nat × Nat)) (go : State) : State :=
  if l.any fun q => objPoison s q.1 q.2.1 q.2.2 then faultCur i s { code := 0x1B, sub := 1, va := va } else go

/-- An instruction's GMU operation takes effect when its ports take its stores (R140) and its messages find places (R155). -/
def gmuOp (s : State) (ports : List (Nat × Nat × Nat)) (homes : List Nat) (t : State) : State :=
  match busyPort s ports with
  | some b => waitPort s b
  | none => if gmuPlaced t homes then t else waitFor s .retry

/-! Creating objects (R356, R357). -/

def insertObj (g : GObj) : List GObj → List GObj
  | [] => [g]
  | h :: t => if g.off < h.off then g :: h :: t else h :: insertObj g t

/-- An extent that overlaps a live object. -/
def objOverlap (s : State) (a off n : Nat) : Bool :=
  let g := (s.core a).gmu
  (g.vars ++ g.facs).any fun o => decide (off < o.off + o.ext) && decide (o.off < off + n)

/-- τ: finite and not negative. -/
def tauBad (x : Nat) : Bool := match ffF32.decode x with | .fin s n _ => s && n != 0 | _ => true
/-- β: at least 0 and below 1. -/
def betaBad (x : Nat) : Bool := match ffF32.decode x with | .fin s n d => (s && n != 0) || decide (d ≤ n) | _ => true

/-- GVAR (R356). -/
def execGvar (o : OX6) (s : State) : Out :=
  gmuIssue (.gvar o) s fun c s =>
    let i : Instr := .gvar o
    let va := c.rG o.a
    let b := c.rG o.b
    let src := c.rG o.c
    let cvg := c.rG o.f
    let d := bitsOf b 39 32
    let k := bitsOf b 47 40
    let tau := bitsOf (c.rG o.e) 31 0
    let n := packedLen d
    let ext := varExtent d k
    let a := s.curAgent
    let off := offOf va
    match firstBad [(!ownWin s va || !ownWin s src, 0x05), (addrPart va % 64 != 0 || addrPart src % 4 != 0 || addrPart cvg % 32 != 0, 0x04),
        (pastClaim s va ext || pastClaim s src (4 * n), 0x05), (recBad s cvg, 0x05), (bitsOf b 63 48 != 0 || bitsOf (c.rG o.e) 63 32 != 0, 0x02),
        (bitsOf b 31 0 == 0xFFFFFFFF || d == 0 || decide (6 < d) || k == 0 || decide (16 < k) || tauBad tau || objOverlap s a off ext, 0x02)] with
    | some code => raise i s code
    | none =>
      orPoison i s src [(a, offOf src, 4 * n)] <|
      if gmuHeld s then waitFor s .gmu
      else if 1024 ≤ (s.core a).gmu.vars.length then gmuDone i s o.d 1
      else
        let r := recOf a cvg.toNat
        gmuOp s [(a, off, ext), (r.1, r.2, 32)] [r.1] <|
        let form := spRead s a (offOf src) (4 * n)
        let hdr := bitsOf b 31 0 + d * 2 ^ 32 + k * 2 ^ 40 + 2 * 2 ^ 48 + tau * 2 ^ 64 + f32Inf * 2 ^ 96 + cvg.toNat * 2 ^ 128
        let s := spWrite s a off 64 hdr
        let s := spStore s a (off + 0x40) (beliefBytes d) form
        let s := spStore s a (off + 0x40 + beliefBytes d) (priorBytes d) form
        let s := (List.range k).foldl (fun (s : State) t => spStore s a (off + slotOff d t) (slotBytes d) 0xFFFFFFFF) s
        let s := s.modCore a fun q => { q with gmu := { q.gmu with vars := insertObj ⟨off, ext, c.kid, 0, []⟩ q.gmu.vars } }
        gmuDone i (recUpdate s r c.kid 1 0 0 0 0) o.d 0

/-- GFAC (R357). -/
def execGfac (o : OX6) (s : State) : Out :=
  gmuIssue (.gfac o) s fun c s =>
    let i : Instr := .gfac o
    let va := c.rG o.a
    let b := c.rG o.b
    let g := c.rG o.c
    let src := c.rG o.e
    let cvg := c.rG o.f
    let arity := bitsOf g 39 32
    let dim (j : Nat) : Nat := g.toNat / 2 ^ (8 * j) % 256
    let dims := (List.range (min 4 arity)).map dim
    let dj := facDim dims
    let n := packedLen dj
    let ext := facExtent dims
    let a := s.curAgent
    let off := offOf va
    match firstBad [(!ownWin s va || !ownWin s src, 0x05), (addrPart va % 64 != 0 || addrPart src % 4 != 0 || addrPart cvg % 32 != 0, 0x04),
        (pastClaim s va ext || pastClaim s src (4 * n), 0x05), (recBad s cvg, 0x05), (bitsOf g 63 40 != 0, 0x02),
        (bitsOf b 31 0 == 0xFFFFFFFF || betaBad (bitsOf b 63 32) || arity == 0 || decide (4 < arity)
          || ((List.range 4).any fun j => if j < arity then dim j == 0 || decide (6 < dim j) else dim j != 0) || decide (12 < dj)
          || objOverlap s a off ext, 0x02)] with
    | some code => raise i s code
    | none =>
      orPoison i s src [(a, offOf src, 4 * n)] <|
      if 1024 ≤ (s.core a).gmu.facs.length then gmuDone i s o.d 1
      else if portBusy s a off ext then waitPort s a
      else
        let form := spRead s a (offOf src) (4 * n)
        let hdr := bitsOf b 31 0 + arity * 2 ^ 32 + dj * 2 ^ 40 + bitsOf b 63 32 * 2 ^ 64 + cvg.toNat * 2 ^ 128 + bitsOf g 31 0 * 2 ^ 192
        let s := spWrite s a off 64 hdr
        let s := spStore s a (off + 0x40) (ext - 0x40) form
        let s := s.modCore a fun q => { q with gmu := { q.gmu with facs := insertObj ⟨off, ext, c.kid, 0, []⟩ q.gmu.facs } }
        gmuDone i s o.d 0

/-! Linking (R358). -/

/-- GLINK (R358): its checks, then the bind request. -/
def execGlink (o : OXDABC) (s : State) : Out :=
  gmuIssue (.glink o) s fun c s =>
    let i : Instr := .glink o
    let va := c.rG o.a
    let b := c.rG o.b
    let v := c.rG o.c
    let a := s.curAgent
    let off := offOf va
    let j := bitsOf b 1 0
    let ch := bitsOf v 23 16
    objectForm i s va (findFac s a off) false false false (bitsOf b 63 9 != 0) fun g =>
      orPoison i s va [(a, off, 64)] <|
      if spRead s a (off + 4) 1 ≤ j || g.links.getLsbD j || bitsOf v 15 11 ≠ 0 then raise i s 0x02
      else if (ch ≤ 3 || ch = 7) && !c.priv then raise i s 0x1F
      else
        let r : BindReq := { agent := a, task := c.task, fac := off, j := j, core := bitsOf v 10 0, offs := bitsOf v 63 32, slot := bitsOf v 31 24
                             ch := ch, dim := spRead s a (off + 0x18 + j) 1, fid := BitVec.ofNat 32 (spRead s a off 4), kid := c.kid, nen := bit b 2
                             nch := b.extractLsb' 3 6, taint := srcTaint i c, d := o.d, bytes := Instr.bytes i }
        (waitFor s .done).pend (.gmuBind r)

/-- What the variable's side finds. -/
def bindReason (s : State) (r : BindReq) : Option Nat :=
  match findVar s r.core r.offs with
  | none => some 3
  | some g =>
    let e := vget (s.core r.core).handlers (r.ch % 64) 0
    if g.kid ≠ r.kid then some 3
    else if spRead s r.core (r.offs + 4) 1 ≠ r.dim || spRead s r.core (r.offs + 5) 1 ≤ r.slot then some 4
    else if 63 < r.ch || !Handler.valid e || !Handler.gmu e then some 5
    else if slotFid s r.core r.offs r.slot ≠ 0xFFFFFFFF then some 7 else none

/-- The reply of the bind reaches the factor's core. -/
def bindResult (s : State) (r : BindReq) (v : Nat) : State :=
  updTask s r.task fun c => { c.wG r.d (BitVec.ofNat 64 v) r.taint with pc := c.pc + BitVec.ofNat 64 r.bytes, wait := none }

/-- GMU_BIND (R358): the variable's checks, then the subscription's; a fault there undoes the bind. -/
def execGmuBind (s : State) : Out :=
  match s.ev with
  | some (.gmuBind r) =>
    if !gmuRuns s r.core then .next s else
    let n := 4 * packedLen r.dim
    match busyPort s [(r.core, r.offs + slotOff r.dim r.slot, 4), (r.agent, r.fac + lastOff (facDims s r.agent r.fac) r.j, n)] with
    | some b => .next (atPort s b)
    | none =>
    let s := s.took
    match taskCtx s r.task with
    | none => .next s
    | some _ =>
      match bindReason s r with
      | some n => .next (bindResult s r (2 ^ 63 + n))
      | none =>
        let dims := facDims s r.agent r.fac
        let off := r.fac + mirrorOff dims r.j
        let len := beliefBytes r.dim
        if (freeSub s r.agent).isNone then answer (failTask s r.task { code := 0x19 })
        else match pubCheck s r.agent r.kid r.core (r.offs + 0x40) len with
          | some code => answer (failTask s r.task { code := code })
          | none =>
            let s := spWrite s r.core (r.offs + slotOff r.dim r.slot) 4 r.fid.toNat
            let s := spStore s r.agent (r.fac + lastOff dims r.j) n 0
            let (e, s) := subBind s r.agent r.kid r.nen r.nch off r.core (r.offs + 0x40) len
            let vref := BitVec.ofNat 64 (r.core + r.ch * 2 ^ 16 + r.slot * 2 ^ 24 + r.offs * 2 ^ 32)
            answer (updTask s r.task fun c => { c with wait := some ⟨.bind e (some (r.fac, r.j, vref)) r.d r.taint r.bytes, 0, s.now⟩ })
  | _ => .next s

/-! Building a message (R66, R359). -/

/-- Positions in the joint form of the components of a variable of dimension `d` at joint index `o`, in packed order. -/
def blockAt (D o d : Nat) : List Nat :=
  (List.range d).map (fun i => o + i) ++ (List.range d).flatMap fun i => (List.range (d - i)).map fun j => packedAt D (o + i) (o + i + j)

/-- Λ[i][j] of a packed form. -/
def lamAt (D i j : Nat) : Nat := if i ≤ j then packedAt D i j else packedAt D j i

/-- Step 1: the cavity of every other variable enters the joint form. -/
def cavity (D : Nat) (J : List Nat) : List (Nat × Nat × List Nat × List Nat) → Fl (List Nat)
  | [] => (J, 0)
  | (o, d, b, l) :: t =>
    let (c, f1) := addForms b (l.map flipF32)
    let (J, f2) := ((blockAt D o d).zip c).foldl (fun (r : Fl (List Nat)) q =>
      let (v, f) := addF32 (r.1.getD q.1 0) q.2; (r.1.set q.1 v, r.2 ||| f)) (J, 0)
    let (J, f3) := cavity D J t
    (J, f1 ||| f2 ||| f3)

/-- Step 2 for one pivot. -/
def eliminate (D p : Nat) (live : List Nat) (J : List Nat) : Fl (List Nat) :=
  let (inv, f0) := divF32 f32One (J.getD (lamAt D p p) 0)
  live.foldl (fun (r : Fl (List Nat)) i =>
    let (li, f1) := mulF32 (r.1.getD (lamAt D i p) 0) inv
    let (J, f2) := (live.filter fun m => decide (i ≤ m)).foldl (fun (q : Fl (List Nat)) m =>
      let (v, f) := fmsF32 (q.1.getD (lamAt D i m) 0) li (q.1.getD (lamAt D p m) 0); (q.1.set (lamAt D i m) v, q.2 ||| f)) (r.1, 0)
    let (v, f3) := fmsF32 (J.getD i 0) li (J.getD p 0)
    (J.set i v, r.2 ||| f1 ||| f2 ||| f3)) (J, f0)

/-- Step 2: the bad pivot and its index, or the reduced form. -/
def eliminateAll (D : Nat) (J : List Nat) (live : List Nat) (fl : Word) : List Nat → Except (Nat × Nat × Word) (Fl (List Nat))
  | [] => .ok (J, fl)
  | p :: t =>
    let piv := J.getD (lamAt D p p) 0
    if f32Bad piv then .error (p, piv, fl ||| flagBADPIVOT) else
    let live := live.filter fun i => i != p
    let (J, f) := eliminate D p live J
    eliminateAll D J live (fl ||| f) t

/-- Step 3. -/
def damp (beta : Nat) (new old : List Nat) : Fl (List Nat) :=
  if (ffF32.decode beta).isZero then (new, 0) else
  let (a, f0) := addF32 f32One (flipF32 beta)
  (new.zip old).foldr (fun q (r : Fl (List Nat)) =>
    let (x, f1) := mulF32 a q.1
    let (y, f2) := mulF32 beta q.2
    let (v, f3) := addF32 x y
    (v :: r.1, r.2 ||| f1 ||| f2 ||| f3)) ([], f0)

/-- What a build gives: a form with its flags, or a status with pivot index, value and flags. -/
def buildMsg (s : State) (a off k : Nat) : Except (Nat × Nat × Nat × Word) (Fl (List Nat)) :=
  let dims := facDims s a off
  let D := facDim dims
  let beta := spRead s a (off + 8) 4
  if betaBad beta then .error (2, 0xFF, beta, 0) else
  let o (j : Nat) : Nat := facDim (dims.take j)
  let d (j : Nat) : Nat := dims.getD j 0
  let form (at_ j : Nat) : List Nat := words32 (spRead s a at_ (4 * packedLen (d j))) (packedLen (d j))
  let J := words32 (spRead s a (off + 0x40) (4 * packedLen D)) (packedLen D)
  let others := (List.range dims.length).filter fun j => j != k
  let (J, f1) := cavity D J (others.map fun j => (o j, d j, form (off + mirrorOff dims j) j, form (off + lastOff dims j) j))
  let e := (List.range D).filter fun p => decide (p < o k) || decide (o k + d k ≤ p)
  match eliminateAll D J (List.range D) f1 e with
  | .error (p, piv, fl) => .error (1, p, piv, fl)
  | .ok (J, f2) =>
    let (out, f3) := damp beta ((blockAt D (o k) (d k)).map fun q => J.getD q 0) (form (off + lastOff dims k) k)
    .ok (out, f2 ||| f3)

/-- What a build reads is poisoned (R228): the header, and, unless β is bad, the joint form, what the other variables' cavities read and, with
damping, the last message. -/
def buildPoison (s : State) (a off k : Nat) : Bool :=
  let dims := facDims s a off
  let beta := spRead s a (off + 8) 4
  let len (j : Nat) : Nat := 4 * packedLen (dims.getD j 0)
  objPoison s a off 64 || (!betaBad beta && (objPoison s a (off + 0x40) (4 * packedLen (facDim dims))
    || ((List.range dims.length).any fun j => j != k && (objPoison s a (off + mirrorOff dims j) (len j) || objPoison s a (off + lastOff dims j) (len j)))
    || (!(ffF32.decode beta).isZero && objPoison s a (off + lastOff dims k) (len k))))

/-- GFMSG (R66, R359): a message whose build reads poison is dropped (R228), and its status is then a free value. -/
def execGfmsg (o : OXDAB) (s : State) : Out :=
  gmuIssue (.gfmsg o) s fun c s =>
    let i : Instr := .gfmsg o
    let va := c.rG o.a
    let k := (c.rG o.b).toNat
    let a := s.curAgent
    let off := offOf va
    objectForm i s va (findFac s a off) false false false false fun g =>
      let arity := spRead s a (off + 4) 1
      if arity ≤ k || (List.range (min 4 arity)).any (fun j => !g.links.getLsbD j) then raise i s 0x02
      else
        let r := recOf a (spRead s a (off + 0x10) 8)
        gmuOp s [(a, off, g.ext), (r.1, r.2, 32)] [r.1, a] <|
        let fid := spRead s a off 4
        let lastBad (s : State) (b : Nat) : State := spWrite s a (off + 6) 2 (spRead s a (off + 6) 2 / 2 * 2 + b)
        if buildPoison s a off k then
          let s := recUpdate s r c.kid 0 0 0 0 errBit
          let s := gmuError s a r c.kid 6 1 k 0xFF fid off 0
          let s := s.record 0x1B 1 7 0 c.kid c.task a c.stage c.pc 0 0
          let (v, s) := s.freeBits 64
          gmuDone i s o.d v.toNat
        else match buildMsg s a off k with
          | .error (st, p, val, fl) =>
            let s := lastBad s 1
            let s := recUpdate s r c.kid 0 0 0 0 (errBit + if st = 1 then badPivotBit else 0)
            let s := gmuError s a r c.kid st 1 k p fid off val
            gmuDone i (s.setCur (s.cur.orFlags fl)) o.d st
          | .ok (out, fl) =>
            let dims := facDims s a off
            let n := 4 * packedLen (dims.getD k 0)
            let s := spStore s a (off + lastOff dims k) n (pack32 out)
            let s := recUpdate (lastBad s 0) r c.kid 0 1 0 0 0
            let v := spRead s a (off + 0x20 + 8 * k) 8
            let pay := v / 2 ^ 32 + v / 2 ^ 24 % 256 * 2 ^ 32 + dims.getD k 0 * 2 ^ 40 + fid * 2 ^ 64 + pack32 out * 2 ^ 96
            let m := ctxMsg s a c.kid c.task c.pc s.devno (v % 2048) (BitVec.ofNat 6 (v / 2 ^ 16)) (ceilDiv (12 + n) 8) .graph none
              (BitVec.ofNat 960 pay) none
            let m := { m with tag := BitVec.ofNat 16 (coreIdx r.1 * 2 ^ 13 + r.2 / 32) }
            let s := sendMsg s a m
            gmuDone i (s.setCur (s.cur.orFlags fl)) o.d 0

/-! Parameters (R360, R361, R364). -/

/-- GDAMP (R360). -/
def execGdamp (o : OXAB) (s : State) : Out :=
  gmuIssue (.gdamp o) s fun c s =>
    let i : Instr := .gdamp o
    let b := c.rG o.b
    let a := s.curAgent
    let off := offOf (c.rG o.a)
    objectForm i s (c.rG o.a) (findFac s a off) false false false (bitsOf b 63 32 != 0) fun _ =>
      if betaBad (bitsOf b 31 0) then raise i s 0x02
      else if portBusy s a (off + 8) 4 then waitPort s a else done i (spWrite s a (off + 8) 4 (bitsOf b 31 0))

/-- GTOL (R360). -/
def execGtol (o : OXAB) (s : State) : Out :=
  gmuIssue (.gtol o) s fun c s =>
    let i : Instr := .gtol o
    let b := c.rG o.b
    let a := s.curAgent
    let off := offOf (c.rG o.a)
    objectForm i s (c.rG o.a) (findVar s a off) false false false (bitsOf b 63 32 != 0) fun _ =>
      let tau := bitsOf b 31 0
      let r := recOf a (spRead s a (off + 0x10) 8)
      if tauBad tau then raise i s 0x02
      else orPoison i s (c.rG o.a) [(a, off, 64)] <|
      if gmuHeld s then waitFor s .gmu
      else
        gmuOp s [(a, off, 64), (r.1, r.2, 32)] [r.1] <|
        let x := ffF32.decode (spRead s a (off + 0x0C) 4)
        let settled := !x.isNan && !(ffF32.decode tau).lt x
        let vf := spRead s a (off + 6) 2
        let was := vf % 2 = 1
        let s := spWrite (spWrite s a (off + 8) 4 tau) a (off + 6) 2 (vf / 2 * 2 + settled.toNat)
        done i (if settled == was then s
          else recUpdate s r c.kid (if settled then -1 else 1) 0 0 0 0)

/-- GRELIN (R361, R71): the form is read whole first. -/
def execGrelin (o : OXAB) (s : State) : Out :=
  gmuIssue (.grelin o) s fun c s =>
    let i : Instr := .grelin o
    let src := c.rG o.b
    let a := s.curAgent
    let off := offOf (c.rG o.a)
    let n := 4 * packedLen (facDim (facDims s a off))
    objectForm i s (c.rG o.a) (findFac s a off) (!ownWin s src) (addrPart src % 4 != 0) ((findFac s a off).isSome && pastClaim s src n) false fun g =>
      orPoison i s src [(a, off, 64), (a, offOf src, n)] <|
      if portBusy s a off g.ext then waitPort s a else
      let s := spStore s a (off + 0x40) n (spRead s a (offOf src) n)
      done i (spWrite s a (off + 0x0C) 4 ((spRead s a (off + 0x0C) 4 + 1) % 2 ^ 32))

/-- GCVG (R364): arms the record, tests it, and reads QGEN. -/
def execGcvg (o : OXDA) (s : State) : Out :=
  gmuIssue (.gcvg o) s fun c s =>
    let i : Instr := .gcvg o
    let va := c.rG o.a
    match firstBad [(addrPart va % 32 != 0, 0x04), (isRidge s.curAgent || recBad s va, 0x05)] with
    | some code => raise i s code
    | none =>
      let r := recOf s.curAgent va.toNat
      orPoison i s va [(r.1, r.2, 32)] <| gmuOp s [(r.1, r.2, 32)] [r.1] <|
      let cf := spRead s r.1 (r.2 + 0x14) 4
      let s := spWrite s r.1 (r.2 + 0x14) 4 (cf / 4 * 4 + 1)
      let s := recUpdate s r c.kid 0 0 0 0 0
      gmuDone i s o.d (spRead s r.1 (r.2 + 0x18) 4)

/-! Reading a belief (R74, R362). -/

/-- Entries of a small matrix by row·8 + column. -/
abbrev Tab := List (Nat × Nat)
def Tab.get (t : Tab) (i j : Nat) : Nat := match t.find? fun q => q.1 == 8 * i + j with | some q => q.2 | none => 0
def Tab.put (t : Tab) (i j v : Nat) : Tab := (8 * i + j, v) :: t

/-- A chain of `FmsF32` over indices. -/
def fmsChain (x : Nat) (l : List (Nat × Nat)) : Fl Nat := l.foldl (fun (r : Fl Nat) q => let (v, f) := fmsF32 r.1 q.1 q.2; (v, r.2 ||| f)) (x, 0)

structure Ldlt where
  dd : List Nat
  l  : Tab
  u  : Tab
  fl : Word
  ok : Bool
  deriving DecidableEq, Repr

/-- Λ = L·D·Lᵀ in the fixed order. -/
def ldlt (d : Nat) (form : List Nat) : Ldlt :=
  let lam i j := form.getD (packedAt d i j) 0
  (List.range d).foldl (fun (r : Ldlt) j =>
    if !r.ok then r else
    let (dj, f) := fmsChain (lam j j) ((List.range j).map fun q => (r.u.get j q, r.l.get j q))
    if f32Bad dj then { r with fl := r.fl ||| f ||| flagBADPIVOT, ok := false } else
    ((List.range d).filter fun i => decide (j < i)).foldl (fun (r : Ldlt) i =>
      let (x, f1) := fmsChain (lam j i) ((List.range j).map fun q => (r.u.get i q, r.l.get j q))
      let (lij, f2) := divF32 x dj
      let (uij, f3) := mulF32 lij dj
      { r with l := r.l.put i j lij, u := r.u.put i j uij, fl := r.fl ||| f1 ||| f2 ||| f3 }) { r with dd := r.dd ++ [dj], fl := r.fl ||| f })
    ⟨[], [], [], 0, true⟩

/-- `Solve` of R74. -/
def solve (d : Nat) (r : Ldlt) (b : List Nat) : Fl (List Nat) :=
  let (z, f) := (List.range d).foldl (fun (q : Fl (List Nat)) i =>
    let (v, g) := fmsChain (b.getD i 0) ((List.range i).map fun p => (r.l.get i p, q.1.getD p 0)); (q.1 ++ [v], q.2 ||| g)) ([], 0)
  (List.range d).reverse.foldl (fun (x : Fl (List Nat)) i =>
    let (q, g1) := divF32 (z.getD i 0) (r.dd.getD i 0)
    let ps := (List.range d).reverse.filter fun p => decide (i < p)
    let (v, g2) := fmsChain q (ps.map fun p => (r.l.get p i, x.1.getD p 0))
    (x.1.set i v, x.2 ||| g1 ||| g2)) (List.replicate d 0, f)

/-- Mean and upper triangle of the covariance: the outputs, their flags, and whether the pivots were good. -/
def beliefRead (d : Nat) (form : List Nat) : List Nat × (Nat → Nat → Nat) × Word × Bool :=
  let r := ldlt d form
  if !r.ok then (List.replicate d ffF32.nanBits, fun _ _ => ffF32.nanBits, r.fl, false) else
  let (mu, f1) := solve d r (form.take d)
  let cols := (List.range d).map fun c => solve d r ((List.range d).map fun i => if i = c then f32One else 0)
  (mu, fun i c => (cols.getD c ([], 0)).1.getD i 0, r.fl ||| f1 ||| cols.foldl (fun f q => f ||| q.2) 0, true)

def lanesOf (l : List (Nat × Nat)) : Line := l.foldl (fun v q => setLane v q.1 q.2) 0

/-- GREAD (R362): a long-latency producer. -/
def execGread (o : OXDAB) (s : State) : Out :=
  gmuIssue (.gread o) s fun c s =>
    let i : Instr := .gread o
    let mode := (c.rG o.b).toNat
    let a := s.curAgent
    let off := offOf (c.rG o.a)
    objectForm i s (c.rG o.a) (findVar s a off) false false false false fun _ =>
      if 1 < mode || (mode = 1 && o.d = 31) then raise i s 0x02
      else if mode = 1 && !c.openName true (o.d + 1) then raise i s 0x01
      else if mode = 1 && !c.fullV (o.d + 1) then waitFor s .retry
      else
        let d := spRead s a (off + 4) 1
        let n := packedLen d
        orPoison i s (c.rG o.a) [(a, off, 64), (a, off + 0x40, 4 * n)] <|
        let (mu, cov, fl, ok) := beliefRead d (words32 (spRead s a (off + 0x40) (4 * n)) n)
        let gen := spRead s a (off + 0x18) 4
        let st := (!ok).toNat + d * 256
        let t := srcTaint i c
        if mode = 0 then
          let v := lanesOf (((List.range d).map fun j => (j, mu.getD j 0)) ++ ((List.range d).map fun j => (8 + j, cov j j)) ++ [(14, gen), (15, st)])
          done i (land s true o.d v fl t)
        else
          let out := mu ++ (List.range d).flatMap fun x => (List.range (d - x)).map fun y => cov x (x + y)
          let v := lanesOf ((List.range (min 16 out.length)).map fun j => (j, out.getD j 0))
          let w := lanesOf (((List.range (out.length - 16)).map fun j => (j, out.getD (16 + j) 0)) ++ [(14, gen), (15, st)])
          done i (land (land s true o.d v fl t) true (o.d + 1) w 0 t)

/-! Snapshots (R72, R73, R363). -/

/-- The destination lies in one local window, or in one range register with PW. -/
def snapRange (s : State) (c : Ctx) (va : Word) (n : Nat) : Option (BitVec 8) :=
  let a := addrPart va
  if n = 0 then none
  else if 0xF0 ≤ a / 2 ^ 48 then (match resolveLocal s (curAcc s) va n 1 .wr with | .error (.fault f) => some f.code | _ => none)
  else match findWindow c.win a, addAddr va (n - 1) with
    | some w, some e => if findWindow c.win (addrPart e) ≠ some w then some 0x05 else if w.allows .wr then none else some 0x07
    | _, _ => some 0x05

/-- The records of a snapshot: cy, cx and core ascending, then the object's offset. -/
def snapRecords (s : State) (die : Nat) (rect : Nat × Nat × Nat × Nat) (kid : BitVec 16) : List (Nat × Nat) :=
  (rectCores die rect).flatMap fun a => ((s.core a).gmu.vars.filter fun g => g.kid == kid).map fun g => (a, g.off)

/-- One record: its length and its bytes. -/
def snapRecord (s : State) (q : Nat × Nat) : Nat × Nat :=
  let (a, off) := q
  let d := spRead s a (off + 4) 1
  let n := 4 * packedLen d
  (roundUp (12 + n) 16, spRead s a off 4 + d * 2 ^ 32 + spRead s a (off + 6) 2 % 2 * 2 ^ 40 + spRead s a (off + 0x18) 4 * 2 ^ 64
    + spRead s a (off + 0x40) n * 2 ^ 96)

/-- Write records while they fit: the state, records and bytes written, and how it ended: 0 all, 1 truncated, or a refusal. -/
def snapWrite (s : State) (x : Acc) (dst : Word) (cap : Nat) : List (Nat × Nat) → Nat → Nat → State × Nat × Nat × Bool × Option (Word × AErr)
  | [], r, b => (s, r, b, false, none)
  | q :: t, r, b =>
    let (n, v) := snapRecord s q
    if objPoison s q.1 q.2 64 || objPoison s q.1 (q.2 + 0x40) (4 * packedLen (spRead s q.1 (q.2 + 4) 1)) then
      (s, r, b, false, some (dst, .fault { code := 0x1B, sub := 1 }))
    else if cap < b + n then (s, r, b, true, none) else
    match addAddr dst b with
    | none => (s, r, b, false, some (dst, .fault { code := 0x0D, va := dst }))
    | some a =>
      match engWrite s x a n v with
      | .error e => (s, r, b, false, some e)
      | .ok s => snapWrite s x dst cap t (r + 1) (b + n)

def setSnap (s : State) (d : Nat) (q : SnapReq) : State := s.modDie d fun x => { x with snaps := x.snaps.map fun r => if r.task = q.task then q else r }

/-- VFLAGS of the variables of a rectangle, which its freeze and its thaw write. -/
def flagPorts (s : State) (d : Nat) (rect : Nat × Nat × Nat × Nat) : List (Nat × Nat × Nat) :=
  (rectCores d rect).flatMap fun a => (s.core a).gmu.vars.map fun g => (a, g.off + 6, 2)

/-- The snapshot is over: the rectangle thaws and G[d] says how it went. -/
def snapDone (i : Instr) (s : State) (d : Nat) (reg : Reg) (trunc faulted : Bool) (bytes : Nat) : State :=
  gmuDone i (release (snapEnd s d s.cur.task) s.curAgent .dev) reg (trunc.toNat * 2 ^ 63 + faulted.toNat * 2 ^ 62 + bytes % 2 ^ 32)

/-- The head of the die's controller: first the freeze, then the copy. -/
def snapRun (i : Instr) (s : State) (d : Nat) (q : SnapReq) (reg : Reg) (dst : Word) (cap : Nat) : State :=
  match busyPort s (flagPorts s d q.rect) with
  | some b => waitPort s b
  | none =>
  if !q.frozen then
    waitFor ((rectCores d q.rect).foldl (fun (s : State) a => gmuFreeze s a) (setSnap s d { q with frozen := true })) .retry
  else if q.failed then snapDone i s d reg false true q.bytes
  else if s.engWaits.any fun w => w.agent == 7 && w.task == q.task then waitFor s .retry
  else
    let iss := issuerOf s
    let e : Engine := .gmu 0
    match snapWrite s (iss.acc e) dst cap ((snapRecords s d q.rect s.cur.kid).drop q.recs) q.recs q.bytes with
    | (s, _, b, tr, none) => snapDone i s d reg tr false b
    | (s, r, b, _, some (va, err)) =>
      let s := setSnap s d { q with recs := r, bytes := b }
      match err with
      | .fault f => snapDone i (s.sendPacket s.curAgent (engPacket s iss e { f with pa := 0 }) f.pa) d reg false true b
      | err => waitFor (engRefused s iss e va err) .retry

/-- GSNAP (R363): the snapshots of a die are served one at a time. -/
def execGsnap (o : OXDABC) (s : State) : Out :=
  gmuIssue (.gsnap o) s fun c s =>
    let i : Instr := .gsnap o
    let g := c.rG o.a
    let dst := c.rG o.b
    let cap := (c.rG o.c).toNat
    let rect := (bitsOf g 7 0, bitsOf g 15 8, bitsOf g 23 16, bitsOf g 31 24)
    let d := agentDie s.curAgent
    if bitsOf g 63 32 ≠ 0 || rectBad rect.1 rect.2.1 rect.2.2.1 rect.2.2.2 then raise i s 0x02
    else if addrPart dst % 16 ≠ 0 then raise i s 0x04 dst
    else match (if (s.die d).snaps.any fun q => q.task == c.task then none else snapRange s c dst cap) with
      | some code => raise i s code dst
      | none =>
        let s := if (s.die d).snaps.any fun q => q.task == c.task then s
          else s.modDie d fun x => { x with snaps := x.snaps ++ [⟨c.task, rect, false, 0, 0, false⟩] }
        match (s.die d).snaps.head? with
        | some q => if q.task = c.task then snapRun i s d q o.d dst cap else waitFor s .retry
        | none => waitFor s .retry

/-! Freeing (R365). -/

/-- The mirrors of a factor are unsubscribed. -/
def freeMirrors (s : State) (a : Nat) (g : GObj) : State :=
  g.mirrors.foldl (fun (s : State) q => if Sub.valid (subAt s a q.2) && Sub.kid (subAt s a q.2) == g.kid then unsubscribe s a q.2 else s) s

/-- GFREE (R365). -/
def execGfree (o : OXA) (s : State) : Out :=
  gmuIssue (.gfree o) s fun c s =>
    let i : Instr := .gfree o
    let a := s.curAgent
    let off := offOf (c.rG o.a)
    let obj := match findVar s a off with | some g => some g | none => findFac s a off
    objectForm i s (c.rG o.a) obj false false false false fun g =>
      orPoison i s (c.rG o.a) [(a, off, 64)] <|
      if gmuHeld s then waitFor s .gmu
      else if (findVar s a off).isSome then
        let vf := spRead s a (off + 6) 2
        let r := recOf a (spRead s a (off + 0x10) 8)
        gmuOp s [(a, off + 6, 2), (r.1, r.2, 32)] [r.1] <|
        let s := spWrite s a (off + 6) 2 (vf - vf / 2 % 2 * 2)
        let s := s.modCore a fun q => { q with gmu := { q.gmu with vars := q.gmu.vars.filter fun h => h.off != off } }
        done i (leaveWays (if vf % 2 = 0 then recUpdate s r c.kid (-1) 0 0 0 0 else s) a)
      else
        let fid := BitVec.ofNat 32 (spRead s a off 4)
        let js := (List.range 4).filter fun j => g.links.getLsbD j
        let reqs : List UnbindReq := js.map fun j =>
          let v := spRead s a (off + 0x20 + 8 * j) 8
          ⟨c.task, v % 2048, v / 2 ^ 32, v / 2 ^ 24 % 256, fid, none⟩
        let s := freeMirrors s a g
        let s := s.modCore a fun q => { q with gmu := { q.gmu with facs := q.gmu.facs.filter fun h => h.off != off } }
        let s := reqs.foldl (fun (s : State) r => s.pend (.gmuUnbind r)) (leaveWays s a)
        if reqs.isEmpty then done i s else waitFor s (.unbinds reqs.length (Instr.bytes i))

/-- An unbind is acknowledged, and its flags join the issuer's; the last one completes the GFREE. -/
def unbindAck (s : State) (t : BitVec 32) (fl : Word) : State :=
  updTask s t fun c =>
    let c := c.orFlags fl
    match c.wait with
    | some ⟨.unbinds n b, l, u⟩ =>
      if n ≤ 1 then { c with pc := c.pc + BitVec.ofNat 64 b, wait := none } else { c with wait := some ⟨.unbinds (n - 1) b, l, u⟩ }
    | _ => c

/-- An unbind waits at a core for the unfreeze, for the arrivals that were pending then, and for what reached the GMU before it (R355). -/
def unbindHeld (s : State) (a : Nat) (t : Nat) : Bool :=
  let o := s.core a
  o.gmu.frozen || o.gmu.late != 0 || ((unbindsAt s a).any fun u => decide (u < t)) || (List.range 8).any fun k =>
    match (vget o.ctxs k Ctx.reset).wait with | some ⟨.gmu, _, u⟩ => decide (u ≤ t) | _ => false

/-- GMU_UNBIND (R365): the slot is emptied, and the belief computed again; it waits while the variable's core is frozen. -/
def execGmuUnbind (s : State) : Out :=
  match s.ev with
  | some (.gmuUnbind r) =>
    let a := r.core
    let t := r.since.getD s.now
    if !gmuRuns s a then .next s
    else if unbindHeld s a t then .next { s with ev := some (.gmuUnbind { r with since := some t }) }
    else match findVar s a r.offs with
      | none => .next (unbindAck s.took r.task 0)
      | some v =>
        let d := spRead s a (r.offs + 4) 1
        if spRead s a (r.offs + 5) 1 ≤ r.slot || slotFid s a r.offs r.slot ≠ r.fid.toNat then .next (unbindAck s.took r.task 0)
        else
          let at_ := r.offs + slotOff d r.slot
          let rc := recOf a (spRead s a (r.offs + 0x10) 8)
          let t := spStore (spWrite s.took a at_ 4 0xFFFFFFFF) a (at_ + 8) (4 * packedLen d) 0
          let (t, dU, fl) := recompute (stepGen t a r.offs r.slot) a r.offs
          gmuStep s [(a, at_, 8 + 4 * packedLen d), (a, r.offs, 64), (a, r.offs + 0x40, beliefBytes d), (rc.1, rc.2, 32)] [rc.1]
            (recUpdate t rc v.kid dU 0 0 0 0) fun t => unbindAck t r.task fl
  | _ => .next s

end Sys2Proof.Machine
end

