-- ==== Sys2Proof/Machine/Hash.lean ====
section
/-! DEFINITION. SHA-512, which R203 and R204 name without describing: PRESUMED to be that of FIPS 180-4 (log 31). Bytes of a digest stand
lowest first in its 512 bits. -/

namespace Sys2Proof.Machine

/-- The round constants. -/
def shaK : List Word :=
  [0x428A2F98D728AE22, 0x7137449123EF65CD, 0xB5C0FBCFEC4D3B2F, 0xE9B5DBA58189DBBC,
   0x3956C25BF348B538, 0x59F111F1B605D019, 0x923F82A4AF194F9B, 0xAB1C5ED5DA6D8118,
   0xD807AA98A3030242, 0x12835B0145706FBE, 0x243185BE4EE4B28C, 0x550C7DC3D5FFB4E2,
   0x72BE5D74F27B896F, 0x80DEB1FE3B1696B1, 0x9BDC06A725C71235, 0xC19BF174CF692694,
   0xE49B69C19EF14AD2, 0xEFBE4786384F25E3, 0x0FC19DC68B8CD5B5, 0x240CA1CC77AC9C65,
   0x2DE92C6F592B0275, 0x4A7484AA6EA6E483, 0x5CB0A9DCBD41FBD4, 0x76F988DA831153B5,
   0x983E5152EE66DFAB, 0xA831C66D2DB43210, 0xB00327C898FB213F, 0xBF597FC7BEEF0EE4,
   0xC6E00BF33DA88FC2, 0xD5A79147930AA725, 0x06CA6351E003826F, 0x142929670A0E6E70,
   0x27B70A8546D22FFC, 0x2E1B21385C26C926, 0x4D2C6DFC5AC42AED, 0x53380D139D95B3DF,
   0x650A73548BAF63DE, 0x766A0ABB3C77B2A8, 0x81C2C92E47EDAEE6, 0x92722C851482353B,
   0xA2BFE8A14CF10364, 0xA81A664BBC423001, 0xC24B8B70D0F89791, 0xC76C51A30654BE30,
   0xD192E819D6EF5218, 0xD69906245565A910, 0xF40E35855771202A, 0x106AA07032BBD1B8,
   0x19A4C116B8D2D0C8, 0x1E376C085141AB53, 0x2748774CDF8EEB99, 0x34B0BCB5E19B48A8,
   0x391C0CB3C5C95A63, 0x4ED8AA4AE3418ACB, 0x5B9CCA4F7763E373, 0x682E6FF3D6B2B8A3,
   0x748F82EE5DEFB2FC, 0x78A5636F43172F60, 0x84C87814A1F0AB72, 0x8CC702081A6439EC,
   0x90BEFFFA23631E28, 0xA4506CEBDE82BDE9, 0xBEF9A3F7B2C67915, 0xC67178F2E372532B,
   0xCA273ECEEA26619C, 0xD186B8C721C0C207, 0xEADA7DD6CDE0EB1E, 0xF57D4F7FEE6ED178,
   0x06F067AA72176FBA, 0x0A637DC5A2C898A6, 0x113F9804BEF90DAE, 0x1B710B35131C471B,
   0x28DB77F523047D84, 0x32CAAB7B40C72493, 0x3C9EBE0A15C9BEBC, 0x431D67C49C100D4C,
   0x4CC5D4BECB3E42B6, 0x597F299CFC657E2A, 0x5FCB6FAB3AD6FAEC, 0x6C44198C4A475817]

/-- The initial chaining value. -/
def shaH : List Word :=
  [0x6A09E667F3BCC908, 0xBB67AE8584CAA73B, 0x3C6EF372FE94F82B, 0xA54FF53A5F1D36F1,
   0x510E527FADE682D1, 0x9B05688C2B3E6C1F, 0x1F83D9ABFB41BD6B, 0x5BE0CD19137E2179]

def rotr (x : Word) (n : Nat) : Word := x.rotateRight n

/-- Eight bytes, the first most significant. -/
def beWord (l : List Byte) : Word := BitVec.ofNat 64 (l.foldl (fun n b => n * 256 + b.toNat) 0)

/-- `n` words of a block. -/
def beWords : Nat → List Byte → List Word
  | 0, _ => []
  | n + 1, l => beWord (l.take 8) :: beWords n (l.drop 8)

/-- The schedule, newest word first. -/
def shaSched : Nat → List Word → List Word
  | 0, w => w
  | n + 1, w =>
    let a := w.getD 1 0
    let b := w.getD 14 0
    let s0 := rotr b 1 ^^^ rotr b 8 ^^^ (b >>> 7)
    let s1 := rotr a 19 ^^^ rotr a 61 ^^^ (a >>> 6)
    shaSched n ((w.getD 15 0 + s0 + w.getD 6 0 + s1) :: w)

/-- One round on the eight working words. -/
def shaRound (v : List Word) (q : Word × Word) : List Word :=
  match v with
  | [a, b, c, d, e, f, g, h] =>
    let s1 := rotr e 14 ^^^ rotr e 18 ^^^ rotr e 41
    let t1 := h + s1 + ((e &&& f) ^^^ (~~~ e &&& g)) + q.1 + q.2
    let s0 := rotr a 28 ^^^ rotr a 34 ^^^ rotr a 39
    let t2 := s0 + ((a &&& b) ^^^ (a &&& c) ^^^ (b &&& c))
    [t1 + t2, a, b, c, d + t1, e, f, g]
  | _ => v

def shaBlock (h : List Word) (l : List Byte) : List Word :=
  let w := (shaSched 64 (beWords 16 l).reverse).reverse
  List.zipWith (fun x y => x + y) h ((shaK.zip w).foldl shaRound h)

def shaBlocks : Nat → List Word → List Byte → List Word
  | 0, h, _ => h
  | n + 1, h, l => shaBlocks n (shaBlock h (l.take 128)) (l.drop 128)

/-- Sixteen bytes, most significant first. -/
def be128 (n : Nat) : List Byte := (List.range 16).map fun i => BitVec.ofNat 8 (n / 256 ^ (15 - i))

def shaPad (l : List Byte) : List Byte :=
  l ++ 0x80#8 :: List.replicate ((239 - l.length % 128) % 128) 0#8 ++ be128 (8 * l.length)

/-- SHA-512. -/
def sha512 (l : List Byte) : BitVec 512 :=
  let p := shaPad l
  let h := shaBlocks (p.length / 128) shaH p
  BitVec.ofNat 512 ((h.flatMap fun w => (List.range 8).map fun i => w.toNat / 256 ^ (7 - i) % 256).foldr (fun b n => b + 256 * n) 0)

/-- The bytes of a number, lowest first. -/
def leBytes (n : Nat) : Nat → List Byte
  | 0 => []
  | k + 1 => BitVec.ofNat 8 n :: leBytes (n / 256) k

/-- M := SHA-512(M, digest) (R204, R373). -/
def measExtend (m digest : BitVec 512) : BitVec 512 := sha512 (leBytes m.toNat 64 ++ leBytes digest.toNat 64)

end Sys2Proof.Machine
end

