-- ==== Sys2Proof/Machine/Recovery.lean ====
section
/-! DEFINITION. Ending a fault: RESUME, KILLT, KILLK (R196, R214, R369, R370); the debug window (R215, R371); TRAP (R375); halt groups (R223,
R379). -/

namespace Sys2Proof.Machine

/-! The form of the privileged groups (R367). -/

/-- The instruction is performed after every earlier access and before every later one, as between two `fence.dev.sc`. -/
def fenced (s : State) (go : State → State) : State := releaseThen s .dev fun s => go (acquire s s.curAgent .dev)

/-- The fence behind an instruction that has stored (R367): what it stored is pushed, and a store of it that is held (R130) is performed first. -/
def fenceAfter (s : State) (go : State → State) : State :=
  if releaseHeld s .dev then waitFor s .fence else go (acquire (release s s.curAgent .dev) s.curAgent .dev)

/-- The instruction has acted already, and waits for the fence behind it. -/
def Ctx.fencing (c : Ctx) : Bool := match c.wait with | some ⟨.fence, _, _⟩ => true | _ => false

/-- Write a destination of the current instruction and complete it. -/
def give (i : Instr) (s : State) (d : Reg) (v : Word) : State := s.setCur ((s.cur.wG d v (srcTaint i s.cur)).past i)

/-- The task bound to a handler (R369): the one that its packet's TASKID names. The ending instructions act on it where it is frozen, the debug
window where it is frozen or saved. -/
def Ctx.bound (c : Ctx) : Option (BitVec 32) := c.served.map fun p => p.task

/-- The ending instruction of a handler has acted already. -/
def Ctx.ending (c : Ctx) : Bool := match c.wait with | some ⟨.ending, _, _⟩ => true | _ => false

/-- The handler ends as HALT does, or waits for its children and landings (R157). -/
def handlerHalt (s : State) : State :=
  if s.cur.join ≠ 0 || !allLanded s s.curAgent s.curCtx then waitFor s .ending
  else endCtx (wcbDrain s s.curAgent) s.curAgent s.curCtx none false

/-- The ending instruction acts once, then the handler ends (R370). -/
def endHandler (s : State) (go : State → State) : State :=
  if s.cur.ending then handlerHalt s else fenced s fun s => handlerHalt (go s)

/-! RESUME, KILLT (R214, R222, R370). -/

/-- The frozen context goes LIVE at `pc`; a saved one goes LIVE there when it is restored (R222). -/
def resumeTask (s : State) (t : BitVec 32) (pc : Word) : State :=
  match s.findTask t with
  | none => s
  | some (a, k) =>
    let c := s.ctx a k
    if c.st == .frozen then s.setCtx a k (resumeAt c pc)
    else if c.st == .saved && c.frozenBy.isSome then s.setCtx a k { resumeAt c pc with st := .saved }
    else s

/-- RESUME (R370). -/
def execResume (o : OXA) (s : State) : Out :=
  issue (.resume o) s fun c =>
    let i : Instr := .resume o
    let pc := c.rG o.a &&& 0x00FFFFFFFFFFFFFF#64
    match c.bound with
    | none => raise i s 0x02
    | some t => if pc.toNat % 4 ≠ 0 then raise i s 0x04 else endHandler s fun s => resumeTask s t pc

/-- KILLT (R370). -/
def execKillt (s : State) : Out :=
  issue .killt s fun c =>
    match c.bound with
    | none => raise .killt s 0x02
    | some t => endHandler s fun s => killBound s t

/-! KILLK (R196, R370). -/

/-- Launches of the kernel leave their queues: nothing more is placed, and a launch without tasks resolves its future as faulted. -/
def killLaunches (s : State) (kid : BitVec 16) : State :=
  (List.range 4).foldl (fun (s : State) d =>
    let s := s.modDie d fun x => { x with launchq := x.launchq.map fun l => if l.kid = kid then { l with todo := [], started := true } else l }
    ((s.die d).launchq.filter fun l => l.kid == kid && l.live == 0).foldl (fun (s : State) l => launchResolve s d l 0 true) s) s

/-- Task-queue records of the kernel leave. -/
def killRecords (s : State) (a : Nat) (kid : BitVec 16) : State :=
  let rs := (s.core a).taskq.filter fun r => r.kid == kid
  let s := s.modCore a fun o => { o with taskq := o.taskq.filter fun r => r.kid != kid }
  rs.foldl (fun (s : State) r =>
    let s := match r.parent with | some p => joinDec s a p | none => s
    match r.launch with | some id => launchEnd s id true | none => s) s

/-- The head `e` of a flow has left without a reply: the message behind it, unless it is on its way itself, is sent now, or takes over the notice
or the timer that `e` waited for (R155). -/
def nextOfFlow (s : State) (a : Nat) (e : RetryEntry) : State :=
  match flowHead (s.core a) e.msg.dst e.msg.dstDev e.msg.ch with
  | none => s
  | some x =>
    if x.flying then s
    else if e.flying then resendEntry s a x
    else s.modCore a fun o => { o with retry := o.retry.map fun y => if y = x then { x with due := e.due } else y }

/-- Held messages of the kernel are discarded; a receiver that holds a reservation for one is told, and the messages of other kernels behind
them go on (R155). -/
def killHeld (s : State) (a : Nat) (kid : BitVec 16) : State :=
  let es := (s.core a).retry.filter fun e => e.msg.kid == kid
  let s := s.modCore a fun o => { o with retry := o.retry.filter fun e => e.msg.kid != kid }
  es.foldl (fun (s : State) e =>
    let m := e.msg
    let s := if e.sent then nextOfFlow s a e else s
    if m.dstDev == s.devno && (s.core m.dst).resv.any fun r => r.src == srcOf m && r.ch == m.ch then
      s.pendOnce (.withdrawal m.dst m.srcDev m.srcXR m.srcCore m.ch)
    else s) s

/-- A message that a program of the kernel sent, or that was accepted for the kernel. -/
def ofKernel (kid : BitVec 16) (m : Msg) : Bool := m.kid == kid && m.kind != .system

/-- Accepted arrivals of the kernel leave, and free their contexts. -/
def killArrivals (s : State) (a : Nat) (kid : BitVec 16) : State :=
  ((s.core a).arrivals.filter fun x => ofKernel kid x.msg).foldl (fun (s : State) x =>
    (s.modCore a fun o => { o with arrivals := o.arrivals.erase x }).modCtx a x.ctx fun c => { Ctx.reset with serial := c.serial }) s

/-- Subscription entries of the kernel leave both tables, each with its teardown to the other party (R145). -/
def killSubs (s : State) (a : Nat) (kid : BitVec 16) : State :=
  let s := s.modCore a fun o => { o with notifies := o.notifies.filter fun n => Sub.kid (vget o.subs n.entry 0) != kid }
  (List.range 16).foldl (fun (s : State) i =>
    let s := if Pub.valid (pubAt s a i) && Pub.kid (pubAt s a i) == kid then unpublish s a i else s
    if Sub.valid (subAt s a i) && Sub.kid (subAt s a i) == kid then unsubscribe s a i else s) s

/-- Graph objects of the kernel leave the directory, its messages the queues of the unit (R354). -/
def killGmu (s : State) (a : Nat) (kid : BitVec 16) : State :=
  let s := s.modCore a fun o => { o with gmu := { o.gmu with
    vars := o.gmu.vars.filter fun g => g.kid != kid
    facs := o.gmu.facs.filter fun g => g.kid != kid
    inq := o.gmu.inq.filter fun m => m.kid != kid
    pend := o.gmu.pend.filter fun m => m.kid != kid
    late := min o.gmu.late (o.gmu.inq.filter fun m => m.kid != kid).length } }
  leaveWays s a

/-- Everything of the kernel on one core. -/
def killCore (s : State) (a : Nat) (kid : BitVec 16) : State :=
  let s := killGmu (killSubs (killArrivals (killHeld (killRecords s a kid) a kid) a kid) a kid) a kid
  serve (s.modCore a fun o => { o with
    posted := o.posted.filter fun p => p.kid != kid
    overflow := o.overflow.filter fun m => m.kid != kid }) a

/-- The bindings of queues and barrier slots to the kernel end (R289); its collective instances go. -/
def killBindings (s : State) (kid : BitVec 16) : State :=
  { s with
    clusters := s.clusters.mapKV fun _ c => { c with
      qOwner := c.qOwner.map fun k => if k = kid then 0 else k
      bsOwner := c.bsOwner.map fun k => if k = kid then 0 else k }
    dies := s.dies.mapKV fun _ d => { d with
      colls := d.colls.filter fun c => c.kid != kid
      collWait := d.collWait.filter fun m => m.kid != kid }
    completions := s.completions.filter fun c => c.kid != kid }

/-- Contexts of the kernel, trap handlers left out (R216). -/
def kernelTasks (s : State) (kid : BitVec 16) : List (BitVec 32) :=
  s.cores.flatMap fun (_, o) => (o.ctxs.toList.filter fun c =>
    (c.st == .live || c.st == .frozen || c.st == .saved) && c.kid == kid && c.served.isNone).map fun c => c.task

/-- A message or a collective arrival that the kernel's tasks sent and that is on its way. A graph message still arrives, and is dropped there
(R354). -/
def inFlight (s : State) (kid : BitVec 16) (e : Ev) : Bool :=
  match e with
  | .messageArrive m => ofKernel kid m && m.kind != .graph && m.srcDev == s.devno && srcAgent m != hostAgent
  | .collArrive m => m.kid == kid
  | _ => false

/-- Every task of the KID ends, and everything of it goes (R196). -/
def killKernel (s : State) (kid : BitVec 16) : State :=
  let s := killLaunches s kid
  let s := (kernelTasks s kid).foldl (fun (s : State) t => killTask s t) s
  let s := stopCommands s fun _ k => k == kid
  let s := { s with pending := s.pending.filter fun e => !inFlight s kid e }
  killBindings (s.cores.foldl (fun (s : State) (q : Nat × Core) => killCore s q.1 kid) s) kid

/-- The KID of the context bound to a handler, that of its packet where the context no longer exists (R369, R370). -/
def boundKid (s : State) (c : Ctx) : BitVec 16 :=
  match c.served with
  | none => 0
  | some p => match s.findTask p.task with | some (a, k) => (s.ctx a k).kid | none => p.kid

/-- KILLK (R370): one that has been accepted is not checked again. -/
def execKillk (o : OXA) (s : State) : Out :=
  issue (.killk o) s fun c =>
    let i : Instr := .killk o
    let g := c.rG o.a
    let kid : BitVec 16 := if g = 0 then boundKid s c else g.setWidth 16
    if c.ending then handlerHalt s
    else if g = 0 && c.bound.isNone then raise i s 0x02
    else if 0xFFFF < g.toNat || kid = 0 || (s.ktIndex kid).isNone then raise i s 0x02
    else if g ≠ 0 && s.curAgent ≠ monitor && s.faultAgent kid ≠ s.curAgent then raise i s 0x1F
    else if c.served.isSome then endHandler s fun s => killKernel s kid
    else fenced s fun s =>
      let t := s.cur.task
      let s := killKernel s kid
      if s.cur.task = t && s.cur.st == .live then done i s else s

/-! The debug window (R215, R371). -/

/-- A later landing in a register is discarded. -/
def dropLanding (s : State) (a k : Nat) (vec : Bool) (r : Reg) : State :=
  let s := { s with pending := s.pending.filter fun e => match e with
    | .loadLand l => !(l.agent == a && l.ctx == k && l.vec == vec && l.reg == r)
    | _ => true }
  if vec then s else s.modCore a fun o => { o with posted := o.posted.map fun p => if p.ctx = k && p.reg = r then { p with reg := 0 } else p }

/-- What a selector names. -/
inductive DwItem | g (r : Reg) | v (r : Reg) (part : Nat) | pc | flags | full | taint | scopes | mem | bad
  deriving DecidableEq, Repr

def dwItem (sel : Nat) : DwItem :=
  if sel < 0x20 then .g (BitVec.ofNat 5 sel)
  else if 0x100 ≤ sel && sel < 0x200 then .v (BitVec.ofNat 5 ((sel - 0x100) / 8)) (sel % 8)
  else if sel = 0x200 then .pc
  else if sel = 0x201 then .flags
  else if sel = 0x202 then .full
  else if sel = 0x203 then .taint
  else if sel = 0x204 then .scopes
  else if sel = 0xFFF then .mem
  else .bad

/-- The value of an item, or the fault. -/
def dwRead (c : Ctx) : DwItem → Except (BitVec 8) Word
  | .g r => if c.openName false r then .ok (c.rG r) else .error 0x01
  | .v r p => if c.openName true r then .ok ((c.rV r).extractLsb' (64 * p) 64) else .error 0x01
  | .pc => .ok c.pc
  | .flags => .ok c.flags
  | .full => .ok (c.vFull ++ c.gFull)
  | .taint => .ok (c.vTaint ++ c.gTaint)
  | .scopes => .ok (BitVec.ofNat 64 (c.scopes.length + c.gOpen / 8 * 16 + c.vOpen / 8 * 256))
  | .mem => .error 0x01
  | .bad => .error 0x01

/-- Write an item of the bound context, or the fault. -/
def dwWrite (s : State) (a k : Nat) (x : Word) : DwItem → Except (BitVec 8) State
  | .g r => if (s.ctx a k).openName false r then .ok ((dropLanding s a k false r).modCtx a k fun c => c.wG r x) else .error 0x01
  | .v r p =>
    if (s.ctx a k).openName true r then
      .ok ((dropLanding s a k true r).modCtx a k fun c => c.wV r (putBits (c.rV r) (64 * p + 63) (64 * p) x.toNat))
    else .error 0x01
  | .pc => if x.toNat % 4 ≠ 0 then .error 0x04 else .ok (s.modCtx a k fun c => { c with pc := x })
  | .flags => .ok (s.modCtx a k fun c => { c with flags := x &&& 0x3FF })
  | .full => .ok (s.modCtx a k fun c => { c with gFull := c.gFull ||| x.setWidth 32, vFull := c.vFull ||| x.extractLsb' 32 32 })
  | .taint => .error 0x07
  | .scopes => .error 0x07
  | .mem => .error 0x01
  | .bad => .error 0x01

/-- The memory form: 8 bytes with the rights of the bound context. The handler's own path carries them, the owner's for a PRV page. -/
def dwMem (i : Instr) (s : State) (a k : Nat) (va : Word) (kind : AKind) (fault2 : State → State) (go : Acc → Path → State → State) : State :=
  let x := ctxAcc s a k
  match resolve s x va 8 8 kind (if kind == .wr then .wsoStore else .any) with
  | .error (.page _ _ _) => fault2 s
  | .error e => refuse i s va e
  | .ok p =>
    match pathHold s x p 8 kind with
    | some h => holdOn s 0 h
    | none =>
      let prv : Bool := match p with | .mem _ _ ty _ => ty == .prv | _ => false
      go (if prv then x else { x with agent := s.curAgent }) p s

/-- The form of both: the selector, the bound context, and whether it still exists. -/
def dwForm (i : Instr) (s : State) (sel : Word) (gone : State → State) (go : Nat → Nat → DwItem → State → State) : State :=
  match s.cur.bound with
  | none => raise i s 0x02
  | some t =>
    if bitsOf sel 63 12 ≠ 0 then raise i s 0x02
    else fenced s fun s =>
      match s.findTask t with
      | none => gone s
      | some (a, k) => if (s.ctx a k).st == .live then gone s else go a k (dwItem sel.toNat) s

/-- The status register of both, and the end of the instruction. -/
def dwStatus (i : Instr) (s : State) (c : Reg) (st : Nat) : State := give i s c (BitVec.ofNat 64 st)

/-- DWRD (R371). -/
def execDwrd (o : OXDABC) (s : State) : Out :=
  issue (.dwrd o) s fun c =>
    let i : Instr := .dwrd o
    let ok (v : Word) (s : State) : State := dwStatus i (s.setCur (s.cur.wG o.d v (srcTaint i s.cur))) o.c 0
    dwForm i s (c.rG o.a) (fun s => dwStatus i s o.c 1) fun a k it s =>
      if it = .mem then
        dwMem i s a k (c.rG o.b) .rd (fun s => dwStatus i s o.c 2) fun x p s =>
          let (v, s) := readPath s x p 8
          ok (BitVec.ofNat 64 v) s
      else match dwRead (s.ctx a k) it with
        | .error code => raise i s code
        | .ok v => ok v s

/-- DWWR (R371). The store of the memory form is the handler's own, fenced on both sides (R367). -/
def execDwwr (o : OXABCE) (s : State) : Out :=
  issue (.dwwr o) s fun c =>
    let i : Instr := .dwwr o
    if c.fencing then fenceAfter s fun s => dwStatus i s o.c 0 else
    dwForm i s (c.rG o.a) (fun s => dwStatus i s o.c 1) fun a k it s =>
      if it = .mem then
        dwMem i s a k (c.rG o.e) .wr (fun s => dwStatus i s o.c 2) fun x p s =>
          fenceAfter (writePath s { x with task := s.cur.task } p 8 (c.rG o.b).toNat) fun s => dwStatus i s o.c 0
      else match dwWrite s a k (c.rG o.b) it with
        | .error code => raise i s code
        | .ok s => dwStatus i s o.c 0

/-! TRAP (R375). -/

/-- The codes that R212 lists for a freeze or a record; 0x06 and 0x0B go by the service path alone. -/
def trapCode (n : Nat) : Bool :=
  (decide (n ≤ 0x0D) && n != 0x06 && n != 0x0B) || (decide (0x10 ≤ n) && decide (n ≤ 0x19)) || n == 0x1B || n == 0x1C || n == 0x1D || n == 0x1F

/-- TRAP (R375): the hardware writes NOCTX, CTX[2:0] and TIME; every other bit goes out as given. -/
def execTrap (o : OXA) (s : State) : Out :=
  issue (.trap o) s fun c =>
    let i : Instr := .trap o
    let v := c.rV o.a
    let kid : BitVec 16 := v.extractLsb' 64 16
    if !trapCode (bitsOf v 7 0) || 0x0D < bitsOf v 15 8 || (s.ktIndex kid).isNone then raise i s 0x02
    else fenced s fun s =>
      let dst := s.faultAgent kid
      let p : Line := putBits (putBits (putBits v 31 31 1) 26 24 0) 383 320 s.time.toNat
      done i (s.pend (.faultPacketArrive (hwMsg s s.curAgent dst 1 8 (p.setWidth 960) kid (dst == monitor))))

/-! Halt groups (R223, R379). -/

def hgForm (i : Instr) (s : State) (x : Word) (go : Nat → Nat → State → State) : State :=
  if bitsOf x 63 6 ≠ 0 then raise i s 0x02 else fenced s (go (bitsOf x 5 4) (bitsOf x 3 0))

/-- HGTRIG (R379): an issuing member stops once the instruction is complete. -/
def execHgtrig (o : OXA) (s : State) : Out :=
  issue (.hgtrig o) s fun c => hgForm (.hgtrig o) s (c.rG o.a) fun d g s => haltGroup (done (.hgtrig o) s) d g true

/-- HGREL (R379). -/
def execHgrel (o : OXA) (s : State) : Out :=
  issue (.hgrel o) s fun c => hgForm (.hgrel o) s (c.rG o.a) fun d g s => haltGroup (done (.hgrel o) s) d g false

/-- An engine that a trigger has reached still runs to its stop point: a collective unit with an open instance, which ends first (R219), or a near-bank
unit inside a 64-row block. -/
def engFinishes (s : State) (e : Engine) : Bool :=
  match e with
  | .coll d sl => (s.die d).colls.any fun c => c.unit == s.devno.toNat * 64 + sl
  | .nearBank st u => s.nbCmds.any fun q => (match nbEngine s q, q.cmd with
    | .nearBank t _, .place _ _ _ _ pos => t == st && pos % 64 != 0
    | .nearBank t _, .mv _ _ _ _ _ _ _ row0 nrows _ pos _ => t == st && !nbAtBlock row0 pos
        && (List.range (nbBlock (row0 + pos) (row0 + nrows))).any fun r => (row0 + pos + r) % 64 == u
    | _, _ => false)
  | _ => false

/-- Members of a group that are stopped now: cores, and engines by their code and instance. -/
def stoppedMembers (s : State) (die g : Nat) : Nat :=
  (s.cores.filter fun (q : Nat × Core) => agentDie q.1 == die && q.2.hgm.getLsbD g && q.2.halted).length
    + (s.hgmEng.filter fun (q : Nat × BitVec 16) =>
        q.2.getLsbD g && (let e := engineOf (BitVec.ofNat 8 (q.1 / 1024)) (q.1 % 1024); engDie e == die && engHalted s e && !engFinishes s e)).length

/-- HGSTAT (R379). -/
def execHgstat (o : OXDA) (s : State) : Out :=
  issue (.hgstat o) s fun c => hgForm (.hgstat o) s (c.rG o.a) fun d g s =>
    give (.hgstat o) s o.d (BitVec.ofNat 64 ((bit (s.die d).trig g).toNat * 2 ^ 63 + stoppedMembers s d g % 2 ^ 32))

end Sys2Proof.Machine
end

