-- ==== Sys2Proof/Machine/SysRegs.lean ====
section
/-! DEFINITION. System registers (R244, R372): SYSRD and SYSWR, the writes that other agents perform (R87, R89, R135, R190, R194, R195, R213,
R225, R413), MEXT (R373) and TLBSYNC (R374). -/

namespace Sys2Proof.Machine

/-! Numbers, indexes and subs (R244, R372). -/

def serviceCore (a : Nat) : Bool := isRidge a && a % 8 == 0

/-- A register number that R244 assigns. -/
def sysAssigned (n : Nat) : Bool :=
  decide (n ≤ 8) || (decide (0x10 ≤ n) && decide (n ≤ 0x17)) || (decide (0x100 ≤ n) && decide (n ≤ 0x10A)) || (decide (0x200 ≤ n) && decide (n ≤ 0x209))

/-- The instances of the engine with an AGENT code that has its own HGM (R211). -/
def hgmInstances (code : Nat) : Nat :=
  if code = 1 || code = 3 || code = 4 || code = 5 || code = 6 then 256 else if code = 2 then 1024 else 0

/-- INDEX of HGM. -/
def hgmIndexOk (x : Nat) : Bool :=
  let k := x / 2 ^ 14
  if k = 0 then x % 2 ^ 14 / 2 ^ 11 == 0
  else if k = 1 then x % 2 ^ 14 / 2 ^ 5 == 0
  else if k = 2 then decide (x % 2 ^ 10 < hgmInstances (x / 2 ^ 10 % 16))
  else false

/-- INDEX and SUB are in range and taken by the register. -/
def sysIndexOk (n x sub : Nat) : Bool :=
  if n = 0x100 || n = 0x101 || n = 0x103 || n = 0x104 || n = 0x107 || n = 0x204 || n = 0x205 || n = 0x206 then decide (x < 4) && sub == 0
  else if n = 0x207 then decide (x < 16) && sub == 0
  else if n = 0x106 then hgmIndexOk x && sub == 0
  else if n = 0x200 then decide (x < 64) && decide (sub < 2)
  else if n = 0x201 then decide (x < 2048) && decide (sub < 128) && decide (sub % 16 ≤ 8)
  else if n = 0x202 then decide (x < 16) && decide (sub < 2)
  else if n = 0x203 then decide (x < 64) && sub == 0
  else if n = 0x208 then decide (x < 4) && decide (sub < 8)
  else if n = 0x209 then decide (x < 32) && decide (sub < 128)
  else x == 0 && sub == 0

/-- The operand G[a] of SYSRD and SYSWR: number, INDEX, SUB; or the fault. -/
def sysOperand (g : Word) : Except (BitVec 8) (Nat × Nat × Nat) :=
  let n := bitsOf g 11 0
  let x := bitsOf g 31 16
  let sub := bitsOf g 39 32
  if !sysAssigned n then .error 0x01
  else if bitsOf g 63 40 ≠ 0 || bitsOf g 15 12 ≠ 0 || !sysIndexOk n x sub then .error 0x02
  else .ok (n, x, sub)

/-! Reading. -/

def half {w : Nat} (hi : Bool) (x : BitVec w) : Word := x.extractLsb' (if hi then 64 else 0) 64
def pick (hi : Bool) (p : Word × Word) : Word := if hi then p.2 else p.1

/-- HGM of a unit. -/
def hgmRead (s : State) (x : Nat) : Word :=
  if x / 2 ^ 14 = 0 then (s.core (x % 2 ^ 11)).hgm.setWidth 64
  else if x / 2 ^ 14 = 1 then (s.core (2048 + x % 2 ^ 5)).hgm.setWidth 64
  else (s.hgmEng.getD (x % 2 ^ 14) 0).setWidth 64

/-- A part of a window set: the KID, or a half of a range register. -/
def wsetPart (w : WSet) (p : Nat) : Word :=
  if p = 0 then w.kid.setWidth 64
  else let q := vget w.win ((p - 1) / 2) Window.reset; if p % 2 = 1 then q.lo else q.hi

/-- The frame that FTSEL of a ridge core selects, none beyond a stack's 48 GiB (R189). -/
def ftFrame (s : State) (a : Nat) : Option Nat :=
  let pa := (s.core a).ftsel.toNat * 4096
  if 0xC00000000 ≤ pa % 2 ^ 36 then none else some pa

/-- WPn.LO as it reads: IABASE bits below LOG2LEN are zero (R225). -/
def wpLo (v : Word) : Word := let n := min 52 (bitsOf v 5 0); if n ≤ 6 then v else putBits v (n - 1) 6 0

/-- The value of a register, for the context `c` of agent `a`; the entry of a frame that does not exist is a free value. -/
def sysRead (s : State) (a : Nat) (c : Ctx) (n x sub : Nat) : Word × State :=
  if n < 0x100 then (sysRegLow s c n, s)
  else if n = 0x10A then match ftFrame s a with | some pa => (ftEntry s pa, s) | none => s.freeBits 64
  else
    let d := s.die x
    let v : Word :=
      if n = 0x100 then BitVec.ofNat 64 d.dsp
      else if n = 0x101 then d.skgen.setWidth 64
      else if n = 0x102 then s.ptroot
      else if n = 0x103 then d.cec
      else if n = 0x104 then d.cethr
      else if n = 0x105 then (s.core a).fdrop
      else if n = 0x106 then hgmRead s x
      else if n = 0x107 then BitVec.ofNat 64 d.skSize
      else if n = 0x108 then flagWord s.thboot
      else if n = 0x109 then (s.core a).ftsel.setWidth 64
      else if n = 0x200 then pick (sub == 1) (vget s.kt x (0, 0))
      else if n = 0x201 then wsetPart (vget (s.core x).wsets (sub / 16) ⟨0xFFFF, Vector.replicate 4 Window.reset⟩) (sub % 16)
      else if n = 0x202 then (let w := vget s.wp x (0, 0); if sub = 1 then w.2 else wpLo w.1)
      else if n = 0x203 then vget s.mrgn x 0
      else if n = 0x204 then d.wclu
      else if n = 0x205 then d.wslice
      else if n = 0x206 then (if x = 0 then setBit d.wridge 7 true else d.wridge).setWidth 64
      else if n = 0x207 then vget s.wnb x 0
      else if n = 0x208 then (vget s.meas x 0).extractLsb' (64 * sub) 64
      else half (sub % 2 == 1) (vget (s.core (2048 + x)).trapt (sub / 2) 0)
    (v, s)

/-- SYSRD (R372): a read of FLAGS waits for the loads in flight (R37). -/
def execSysrd (o : OXDA) (s : State) : Out :=
  issue (.sysrd o) s fun c =>
    let i : Instr := .sysrd o
    match sysOperand (c.rG o.a) with
    | .error code => raise i s code
    | .ok (n, x, sub) =>
      if n = 0 && loadsInFlight s s.curAgent s.curCtx then waitFor s .retry
      else fenced s fun s =>
        let (v, s) := sysRead s s.curAgent s.cur n x sub
        give i s o.d v

/-! What a write must satisfy: who may write (0x1F, 0x0C), and its value (0x02). -/

/-- The world of a kernel's table entry. -/
def kernelWorld (s : State) (kid : BitVec 16) : Option Bool := (s.ktIndex kid).map fun n => bit (vget s.kt n (0, 0)).1 62

/-- A ridge core serves a kernel: its entry names it; the monitor stands for every kernel. -/
def serves (s : State) (a : Nat) (kid : BitVec 16) : Bool := a == monitor || ((s.ktIndex kid).isSome && s.faultAgent kid == a)

def Kt.valid (e : Word × Word) : Bool := bit e.1 63
def Kt.kid (e : Word × Word) : Nat := bitsOf e.1 47 32
def Kt.floor (e : Word × Word) : Nat := bitsOf e.1 31 16

/-- Entry `n` with a half replaced: SYSWR names one half, and the other stays as it stands (log 29). -/
def ktNew (s : State) (n : Nat) (hi : Bool) (v : Word) : Word × Word :=
  let e := vget s.kt n (0, 0)
  if hi then (e.1, v) else (v, e.2)

/-- Replaced halves of entries in the 128-bit format. -/
def entryNew (e : BitVec 128) (hi : Bool) (v : Word) : BitVec 128 := if hi then v ++ e.extractLsb' 0 64 else e.extractLsb' 64 64 ++ v

/-- The value checks of a kernel-table entry, whatever its VALID (R194); a valid one has a KID that can be assigned. -/
def ktBad (s : State) (n : Nat) (e : Word × Word) : Bool :=
  let others := (List.range 64).filter fun j => j != n && Kt.valid (vget s.kt j (0, 0))
  bitsOf e.1 56 48 != 0 || bitsOf e.2 63 56 != 0 || bit e.2 5 || decide (20 < bitsOf e.2 4 0)
    || (Kt.valid e && (Kt.kid e == 0 || Kt.kid e == 0xFFFF)) || (others.any fun j => Kt.kid (vget s.kt j (0, 0)) == Kt.kid e)
    || decide (1800 < Kt.floor e + (others.map fun j => Kt.floor (vget s.kt j (0, 0))).foldl (fun a b => a + b) 0)

/-- A kernel-table write by agent `a` (R194). -/
def ktCheck (s : State) (a n : Nat) (e : Word × Word) : Option (BitVec 8) :=
  let old := vget s.kt n (0, 0)
  let w := agentWorld s a
  if a ≠ monitor && (w != bit e.1 62 || (Kt.valid old && w != bit old.1 62)) then some 0x1F
  else if ktBad s n e then some 0x02
  else none

/-- Reserved bits of a part of a window set (R85). -/
def windowBad (lo : Bool) (v : Word) : Bool :=
  if lo then bitsOf v 63 56 != 0 || bitsOf v 19 7 != 0 else bitsOf v 63 52 != 0 || bitsOf v 19 3 != 0

/-- A window-set write (R195): the writer serves the kernel of the set, and the kernel it is given. A set that no kernel has takes a KID from
that kernel's server, and everything else from the monitor alone. -/
def wsetCheck (s : State) (a x sub : Nat) (v : Word) : Option (BitVec 8) :=
  let w := vget (s.core x).wsets (sub / 16) ⟨0xFFFF, Vector.replicate 4 Window.reset⟩
  let p := sub % 16
  let free : Bool := w.kid == 0xFFFF
  let ok : Bool := if p = 0 then (free || serves s a w.kid) && (serves s a (v.setWidth 16) || (bitsOf v 15 0 == 0xFFFF && !free)) else serves s a w.kid
  if !ok then some 0x1F
  else if p = 0 then (if bitsOf v 63 16 ≠ 0 then some 0x02 else none)
  else if windowBad (p % 2 == 1) v then some 0x02 else none

def Wp.owner (e : Word × Word) : BitVec 16 := BitVec.ofNat 16 (bitsOf e.2 63 48)

/-- A watchpoint write (R225): the world of its owner, and of the owner it had while in use. -/
def wpCheck (s : State) (a n : Nat) (hi : Bool) (v : Word) : Option (BitVec 8) :=
  let old := vget s.wp n (0, 0)
  let e := if hi then (old.1, v) else (v, old.2)
  let ok (k : BitVec 16) := kernelWorld s k == some (agentWorld s a)
  if a ≠ monitor && (!ok (Wp.owner e) || (bit old.1 63 && !ok (Wp.owner old))) then some 0x1F
  else if bitsOf e.1 54 52 ≠ 0 || (bit e.1 63 && (bitsOf e.1 5 0 < 6 || 46 < bitsOf e.1 5 0)) then some 0x02
  else none

/-- World-map and region registers are the monitor's (R190). -/
def monitorOnly (s : State) (a : Nat) (bad : Bool) : Option (BitVec 8) :=
  if a ≠ monitor then (if agentWorld s a then some 0x1F else some 0x0C) else if bad then some 0x02 else none

/-- A trap-table write (R213): the ridge core that the kernel-table entry names, in its own table, or the monitor. -/
def traptCheck (s : State) (a x n : Nat) (e : BitVec 128) : Option (BitVec 8) :=
  let k := vget s.kt n (0, 0)
  let mine := Kt.valid k && ridgeAgent (bitsOf k.1 58 57) (bitsOf k.1 61 59) == a && a == 2048 + x
  if a ≠ monitor && !mine then some 0x1F
  else if Handler.valid e && (!Kt.valid k || (Handler.kid e).toNat ≠ Kt.kid k || Handler.prio e < 20 || bitsOf e 125 124 ≠ 0
      || Handler.bad true e || Handler.spBad e || Handler.world e != bit k.1 62) then some 0x02
  else none

/-- The checks of a write, none where it may be performed. -/
def sysCheck (s : State) (r : SysReq) : Option (BitVec 8) :=
  let a := r.agent
  let n := r.num.toNat
  let v := r.value
  let hi := r.sub % 2 == 1
  let onlyIf (ok bad : Bool) : Option (BitVec 8) := if !ok then some 0x1F else if bad then some 0x02 else none
  if n < 0x10 then some 0x1F
  else if n < 0x18 then onlyIf true (windowBad (n % 2 == 0) v)
  else if n = 0x100 || n = 0x107 then onlyIf true (decide (8 < v.toNat))
  else if n = 0x101 || n = 0x208 then some 0x1F
  else if n = 0x102 then onlyIf (serviceCore a) (decide (2 ^ 40 ≤ v.toNat) || v.toNat % 1024 != 0)
  else if n = 0x103 || n = 0x104 || n = 0x105 || n = 0x108 then none
  else if n = 0x106 then onlyIf true (decide (2 ^ 16 ≤ v.toNat))
  else if n = 0x109 then onlyIf true (decide (2 ^ 28 ≤ v.toNat))
  else if n = 0x10A then onlyIf (serviceCore a || a == monitor) (bitsOf v 60 32 != 0)
  else if n = 0x200 then ktCheck s a r.index (ktNew s r.index hi v)
  else if n = 0x201 then wsetCheck s a r.index r.sub v
  else if n = 0x202 then wpCheck s a r.index hi v
  else if n = 0x203 then monitorOnly s a (bitsOf v 61 40 != 0 || bitsOf v 29 20 != 0 || bitsOf v 9 0 != 0 || decide (bitsOf v 19 10 < bitsOf v 39 30))
  else if n = 0x206 then monitorOnly s a (decide (256 ≤ v.toNat))
  else if n = 0x204 || n = 0x205 || n = 0x207 then monitorOnly s a false
  else traptCheck s a r.index (r.sub / 2) (entryNew (vget (s.core (2048 + r.index)).trapt (r.sub / 2) 0) hi v)

/-! Writing. -/

/-- HGM of a unit (R223). -/
def hgmWrite (s : State) (x : Nat) (v : BitVec 16) : State :=
  if x / 2 ^ 14 = 0 then s.modCore (x % 2 ^ 11) fun o => { o with hgm := v }
  else if x / 2 ^ 14 = 1 then s.modCore (2048 + x % 2 ^ 5) fun o => { o with hgm := v }
  else { s with hgmEng := s.hgmEng.set (x % 2 ^ 14) v }

/-- A half of a range register of the current context. -/
def winWrite (c : Ctx) (n : Nat) (v : Word) : Ctx :=
  let w := vget c.win ((n - 16) / 2) Window.reset
  { c with win := vset c.win ((n - 16) / 2) (if n % 2 = 0 then { w with lo := v } else { w with hi := v }) }

/-- A write that its own core or die performs at once, or the event by which the agent that holds the register performs it. -/
def sysNow (s : State) (r : SysReq) : State ⊕ Ev :=
  let n := r.num.toNat
  let v := r.value
  if n < 0x18 then .inl (s.setCur (winWrite s.cur n v))
  else if n = 0x102 then .inl { s with ptroot := v }
  else if n = 0x103 then .inl (s.modDie r.index fun d => { d with cec := v })
  else if n = 0x104 then .inl (s.modDie r.index fun d => { d with cethr := v })
  else if n = 0x105 then .inl (s.modCore r.agent fun o => { o with fdrop := v })
  else if n = 0x106 then .inl (hgmWrite s r.index (v.setWidth 16))
  else if n = 0x109 then .inl (s.modCore r.agent fun o => { o with ftsel := v.setWidth 28 })
  else if n = 0x100 then .inr (.dspcfgWrite r)
  else if n = 0x107 then .inr (.sksizeWrite r)
  else if n = 0x108 then .inr (.thbootWrite r)
  else if n = 0x10A then .inr (.fteWrite r)
  else if n = 0x200 then .inr (.ktWrite r)
  else if n = 0x201 then .inr (.wsetWrite r)
  else if n = 0x202 then .inr (.wpWrite r)
  else if n = 0x203 then .inr (.mrgnWrite r)
  else if n = 0x209 then .inr (.traptWrite r)
  else .inr (.worldMapWrite r)

/-- SYSWR (R372): checked whole, then performed; it completes when the write has taken effect everywhere. -/
def execSyswr (o : OXAB) (s : State) : Out :=
  issue (.syswr o) s fun c =>
    let i : Instr := .syswr o
    match sysOperand (c.rG o.a) with
    | .error code => raise i s code
    | .ok (n, x, sub) =>
      let r : SysReq := ⟨s.curAgent, s.curCtx, c.task, BitVec.ofNat 12 n, x, sub, c.rG o.b⟩
      match sysCheck s r with
      | some code => raise i s code
      | none => fenced s fun s =>
        match sysNow s r with
        | .inl s => done i s
        | .inr e => waitFor (s.pend e) .done

/-! The writes that other agents perform. -/

/-- The register write in hand: checked again as it is performed; `busy` says that it waits, with what it asks for meanwhile, `go` performs it,
and SYSWR completes. A writer that has left takes its write with it. -/
def sysPerform (s : State) (r : SysReq) (busy : State → Bool) (go : State → State) (ask : State → State := id) : Out :=
  let waits (q : Nat × Nat) : Bool :=
    let c := s.ctx q.1 q.2
    (c.st == .live || c.st == .saved) && (match c.wait with | some ⟨.done, _, _⟩ => true | _ => false)
  match (s.findTask r.task).filter waits with
  | none => .next s.took
  | some (a, k) =>
    match sysCheck s r with
    | some code => answer (takeFault s.took a k { code := code } (insnAt s a k))
    | none => if busy s then .next (ask s) else answer ((go s.took).complete a k 12 fun c => c)

/-- Every cached copy of the lines that `p` names by their physical address is pushed and dropped. -/
def purge (s : State) (p : Nat → Bool) : State :=
  let s := s.cores.foldl (fun (s : State) (q : Nat × Core) =>
    (q.2.wcb.filter fun e => p e.pa).foldl (fun (s : State) e => wcbEvict s q.1 e.line) s) s
  let s := s.clusters.foldl (fun (s : State) (q : Nat × Cluster) =>
    (q.2.l1.filter fun (l : Nat × CLine) => p l.2.pa).foldl (fun (s : State) l => l1Evict s q.1 l.1) s) s
  let s := s.dies.foldl (fun (s : State) (q : Nat × Die) =>
    (q.2.l2.filter fun (l : Nat × CLine) => p l.2.pa).foldl (fun (s : State) l => l2Evict s q.1 l.1) s) s
  { s with dies := s.dies.mapKV fun _ d => { d with sark := d.sark.filter fun (l : Nat × SLine) => !p l.2.pa } }

/-- The die scratchpad takes or gives back ways (R87): lines of taken ways are written back, and bytes of ways that come or go are zero. -/
def dspResize (s : State) (d n : Nat) : State :=
  let old := (s.die d).dsp
  let s := ((s.die d).l2.filter fun (q : Nat × CLine) => decide (16 - n ≤ q.2.way)).foldl (fun (s : State) q => l2Evict s d q.1) s
  let lo := min old n * 2 ^ 25
  let hi := max old n * 2 ^ 25
  { s.modDie d (fun e => { e with dsp := n, dspad := e.dspad.clear lo (hi - lo) }) with
      dsPoison := s.dsPoison.filter fun q => !(q.1 == d && decide (lo ≤ q.2 * 64) && decide (q.2 * 64 < hi)) }

/-- DSPCFG_WRITE (R87). -/
def execDspcfgWrite (s : State) : Out :=
  match s.ev with
  | some (.dspcfgWrite r) => sysPerform s r (fun _ => false) fun s => dspResize s r.index r.value.toNat
  | _ => .next s

/-- SKSIZE_WRITE (R89). -/
def execSksizeWrite (s : State) : Out :=
  match s.ev with
  | some (.sksizeWrite r) => sysPerform s r (fun _ => false) fun s =>
      s.modDie r.index fun d => { d with sark := [], skSize := r.value.toNat }
  | _ => .next s

/-- THBOOT_WRITE (R413): 0 ends boot mode, and every later write is ignored. -/
def execThbootWrite (s : State) : Out :=
  match s.ev with
  | some (.thbootWrite r) => sysPerform s r (fun _ => false) fun s =>
      if r.value ≠ 0 || !s.thboot then s else { s with thboot := false, tlb := [] }
  | _ => .next s

/-- The type that the frame table gives a frame (R134). -/
def frameType (s : State) (pa : Nat) : PType := ptypeOf (bitsOf (ftEntry s pa) 62 61)

/-- A frame's bytes become zero at its thatch, which marks it dirty and clears its poison (R135, R228). -/
def zeroFrame (s : State) (pa : Nat) : State :=
  let s := markDirty ((List.range 64).foldl (fun (s : State) i => physPut s (pa + 64 * i) 0 (BitVec.allOnes 64)) s) pa
  { s with poison := s.poison.filter fun l => l / 64 != pa / 4096 }

/-- A frame takes a TYPE and an OWNER (R133, R135): at a change of type copies leave for `dev`; a frame that is made WSO, again or for the first
time, is empty and zero (R110), and one that stops being WSO keeps its data. -/
def fteSet (s : State) (pa : Nat) (v : Word) : State :=
  let ty := ptypeOf (bitsOf v 62 61)
  let changed : Bool := frameType s pa != ty
  let s := if changed then purge s fun a => a / 4096 == pa / 4096 else s
  let s := if ty = .wso then zeroFrame s pa else s
  let s := if changed || ty == .wso then { s with wsoFull := s.wsoFull.filter fun w => w / 512 != pa / 4096 } else s
  physPutNat s (ftAddr pa) 8 (setBit v 63 (bit (ftEntry s pa) 63)).toNat

/-- REL pages, in the `n` frames from number `f`, that other devices hold or are asking for, or to which stores are held (R128). -/
def sharedPages (s : State) (f n : Nat) : List Nat :=
  ((s.homes.map fun q => q.1) ++ s.pages.map fun q => q.1).eraseDups.filter fun p =>
    ownShared s (p * 4096) && (match leaf s (p * 4096) with
      | .ok e => decide (f ≤ Pte.pfn e) && decide (Pte.pfn e < f + n) && frameType s (Pte.pfn e * 4096) == .rel
      | .error _ => false)

/-- A REL frame that is to take another type waits until this device owns its pages alone: other devices have pushed their dirty bytes and given
up their copies, and stores that are held have finished under the old type (R133). -/
def retypeHeld (s : State) (f n : Nat) (ty : PType) : List Nat := if ty = .rel then [] else sharedPages s f n
/-- The service core asks for those pages. -/
def askPages (s : State) (x : Acc) (l : List Nat) : State := l.foldl (fun (s : State) p => askOwn s x p) s

def fteHeld (s : State) (r : SysReq) : List Nat :=
  match ftFrame s r.agent with
  | some pa => retypeHeld s (pa / 4096) 1 (ptypeOf (bitsOf r.value 62 61))
  | none => []

/-- FTE_WRITE (R135): whole, at the frame's thatch; DIRTY stays. -/
def execFteWrite (s : State) : Out :=
  match s.ev with
  | some (.fteWrite r) =>
    sysPerform s r (fun s => !(fteHeld s r).isEmpty) (fun s => match ftFrame s r.agent with | some pa => fteSet s pa r.value | none => s)
      fun s => askPages s (ctxAcc s r.agent r.ctx) (fteHeld s r)
  | _ => .next s

/-- KT_WRITE (R194). -/
def execKtWrite (s : State) : Out :=
  match s.ev with
  | some (.ktWrite r) => sysPerform s r (fun _ => false) fun s => { s with kt := vset s.kt r.index (ktNew s r.index (r.sub % 2 == 1) r.value) }
  | _ => .next s

/-- A part of a window set. -/
def wsetSet (w : WSet) (p : Nat) (v : Word) : WSet :=
  if p = 0 then { w with kid := v.setWidth 16 }
  else
    let q := vget w.win ((p - 1) / 2) Window.reset
    { w with win := vset w.win ((p - 1) / 2) (if p % 2 = 1 then { q with lo := v } else { q with hi := v }) }

/-- WSET_WRITE (R195): tasks that start later load it. -/
def execWsetWrite (s : State) : Out :=
  match s.ev with
  | some (.wsetWrite r) => sysPerform s r (fun _ => false) fun s =>
      s.modCore r.index fun o =>
        let w := vget o.wsets (r.sub / 16) ⟨0xFFFF, Vector.replicate 4 Window.reset⟩
        { o with wsets := vset o.wsets (r.sub / 16) (wsetSet w (r.sub % 16) r.value) }
  | _ => .next s

/-- WP_WRITE (R225). -/
def execWpWrite (s : State) : Out :=
  match s.ev with
  | some (.wpWrite r) => sysPerform s r (fun _ => false) fun s =>
      let e := vget s.wp r.index (0, 0)
      { s with wp := vset s.wp r.index (if r.sub % 2 = 1 then (e.1, r.value) else (r.value, e.2)) }
  | _ => .next s

/-- A physical address in an enabled region. -/
def inRegion (r : Word) (pa : Nat) : Bool := bit r 63 && decide (bitsOf r 39 30 ≤ pa / 2 ^ 30) && decide (pa / 2 ^ 30 ≤ bitsOf r 19 10)

/-- MRGN_WRITE (R190): copies of the region's frames, as it was and as it becomes, are pushed and dropped first. -/
def execMrgnWrite (s : State) : Out :=
  match s.ev with
  | some (.mrgnWrite r) => sysPerform s r (fun _ => false) fun s =>
      let old := vget s.mrgn r.index 0
      let s := purge s fun pa => inRegion old pa || inRegion r.value pa
      { s with mrgn := vset s.mrgn r.index r.value }
  | _ => .next s

/-- TRAPT_WRITE (R213). -/
def execTraptWrite (s : State) : Out :=
  match s.ev with
  | some (.traptWrite r) => sysPerform s r (fun _ => false) fun s =>
      s.modCore (2048 + r.index) fun o => { o with trapt := vset o.trapt (r.sub / 2) (entryNew (vget o.trapt (r.sub / 2) 0) (r.sub % 2 == 1) r.value) }
  | _ => .next s

/-! World maps (R188, R190). -/

def coreEmpty (o : Core) : Bool := o.ctxs.toList.all fun c => c.st == .free

/-- A block still holds a context that is not FREE, or an engine command. -/
def cluBusy (s : State) (k : Nat) : Bool :=
  let c := s.clu k
  !((List.range 8).all fun i => coreEmpty (s.core (8 * k + i))) || !c.cmds.isEmpty || !c.places.isEmpty || c.active.isSome || c.tw.run
def sliceBusy (s : State) (d sl : Nat) : Bool :=
  let e := s.die d
  (e.gathers.any fun q => q.1 == sl) || e.colls.any fun c => c.unit % 64 == sl
def nbStackBusy (s : State) (st : Nat) : Bool :=
  s.nbCmds.any fun e => match nbEngine s e with | .nearBank x _ => x == st | _ => false

/-- The scrub of a core: scratchpad, lane slices, tables, queues and directory. -/
def scrubCore (s : State) (a : Nat) : State :=
  let s := if isRidge a then s else wcbDrain s a
  let s := { s with spPoison := s.spPoison.filter fun q => q.1 != a }
  s.modCore a fun o => { o with
    ways := Vector.replicate 20 .cache, nWays := 0, retain := none, spad := [], lanes := [], handlers := Vector.replicate 64 0, arrivals := []
    refq := [], resv := [], retry := [], posted := [], overflow := [], pubs := Vector.replicate 16 0, subs := Vector.replicate 16 0
    pubPend := [], notifies := [], gmu := ⟨[], [], [], [], false, 0⟩ }

/-- The scrub of a cluster; its dirty lines go to `dev`. -/
def scrubClu (s : State) (k : Nat) : State :=
  let s := (List.range 8).foldl (fun (s : State) i => scrubCore s (8 * k + i)) s
  let s := (s.clu k).l1.foldl (fun (s : State) (q : Nat × CLine) =>
    let s := l1Evict s k q.1
    if q.2.mask = 0 then s else l2Evict s (if q.2.ty = .seq then frameDie q.2.pa else cluDie k) q.1) s
  s.modClu k fun c => { c with
    tiles := Vector.replicate 8 ⟨none, []⟩, bufA := [], bufB := []
    qd := c.qd.map fun v => setBit v 63 false
    bs := c.bs.map fun v => setBit v 63 false
    pushers := [], poppers := [] }

/-- The scrub of an L2 slice: its die-scratchpad bytes and its engines' buffers. -/
def scrubSlice (s : State) (d sl : Nat) : State :=
  { s.modDie d (fun e => { e with
      dspad := e.dspad.filter fun q => q.1 / 64 % 64 != sl
      collWait := e.collWait.filter fun m => m.id.toNat % 64 != sl }) with
    dsPoison := s.dsPoison.filter fun q => !(q.1 == d && q.2 % 64 == sl) }

/-- The bits in which a world map changes. -/
def changedBits (a b : Word) : List Nat := (List.range 64).filter fun i => a.getLsbD i != b.getLsbD i

/-- The blocks that a write changes, as the map's number tells. -/
def worldBlocks (s : State) (r : SysReq) : List Nat :=
  let n := r.num.toNat
  let d := s.die r.index
  if n = 0x204 then changedBits d.wclu r.value
  else if n = 0x205 then changedBits d.wslice r.value
  else if n = 0x206 then (changedBits (d.wridge.setWidth 64) r.value).filter fun i => !(r.index == 0 && i == 7)
  else changedBits (vget s.wnb r.index 0) r.value

def worldBusy (s : State) (r : SysReq) : Bool :=
  let n := r.num.toNat
  (worldBlocks s r).any fun i =>
    if n = 0x204 then cluBusy s (64 * r.index + i)
    else if n = 0x205 then sliceBusy s r.index i
    else if n = 0x206 then !coreEmpty (s.core (ridgeAgent r.index i))
    else nbStackBusy s r.index

def worldScrub (s : State) (r : SysReq) : State :=
  let n := r.num.toNat
  (worldBlocks s r).foldl (fun (s : State) i =>
    if n = 0x204 then scrubClu s (64 * r.index + i)
    else if n = 0x205 then scrubSlice s r.index i
    else if n = 0x206 then scrubCore s (ridgeAgent r.index i)
    else s) s

/-- WORLD_MAP_WRITE (R190): waits for the changed blocks to be empty, and scrubs them. The monitor's bit reads 1 whatever is written. -/
def execWorldMapWrite (s : State) : Out :=
  match s.ev with
  | some (.worldMapWrite r) => sysPerform s r (fun s => worldBusy s r) fun s =>
      let s := worldScrub s r
      let n := r.num.toNat
      if n = 0x204 then s.modDie r.index fun d => { d with wclu := r.value }
      else if n = 0x205 then s.modDie r.index fun d => { d with wslice := r.value }
      else if n = 0x206 then s.modDie r.index fun d => { d with wridge := if r.index = 0 then setBit (r.value.setWidth 8) 7 true else r.value.setWidth 8 }
      else { s with wnb := vset s.wnb r.index r.value }
  | _ => .next s

/-! MEXT, TLBSYNC (R373, R374). -/

/-- MEXT (R373). -/
def execMext (o : OXAB) (s : State) : Out :=
  issue (.mext o) s fun c =>
    let i : Instr := .mext o
    let n := (c.rG o.a).toNat
    if s.curAgent ≠ monitor then raise i s 0x1F
    else match resolveLocal s (curAcc s) (c.rG o.b) 64 64 .rd with
      | .error e => refuse i s (c.rG o.b) e
      | .ok _ =>
        if n = 0 then raise i s 0x1F
        else if 3 < n then raise i s 0x02
        else access i s (c.rG o.b) 64 64 .rd .any fun p => fenced s fun s =>
          let (v, s) := readPath s (curAcc s) p 64
          done i { s with meas := vset s.meas n (measExtend (vget s.meas n 0) (BitVec.ofNat 512 v)) }

/-- Drop the cached translations of leaves that meet the `n` pages from page `p`, all of them for `n` = 0. -/
def tlbDrop (s : State) (p n : Nat) : State :=
  { s with tlb := s.tlb.filter fun (q : Nat × Tlb) =>
      let b := q.1 / q.2.pages * q.2.pages
      n != 0 && !(decide (p < b + q.2.pages) && decide (b < p + n)) }

/-- TLBSYNC (R374). -/
def execTlbsync (o : OXAB) (s : State) : Out :=
  issue (.tlbsync o) s fun c =>
    let i : Instr := .tlbsync o
    let a := c.rG o.a
    if !(serviceCore s.curAgent || s.curAgent == monitor) then raise i s 0x1F
    else if bitsOf a 11 0 ≠ 0 then raise i s 0x04
    else if bitsOf a 63 52 ≠ 0 then raise i s 0x02
    else fenced s fun s => done i (tlbDrop s (a.toNat / 4096) (c.rG o.b).toNat)

end Sys2Proof.Machine
end

