-- ==== Sys2Proof/Machine/Preempt.lean ====
section
/-! DEFINITION. Stopping and moving work: PREEMPT, its acknowledgements, RESTORE (R219 to R222, R376), MIGRATE (R136, R377), CKPT (R231, R232,
R234, R378). -/

namespace Sys2Proof.Machine

/-! The units of a set (R219). -/

/-- Work of a core or of a kernel belongs to a set. -/
def StopSet.has (set : StopSet) (agent : Nat) (kid : BitVec 16) : Bool :=
  match set with | .kernel k => kid == k | .cores l => l.contains agent | .device => !isRidge agent

def StopSet.hasIss (set : StopSet) (i : Issuer) : Bool := set.has i.agent i.kid

/-- The lease holder of a cluster is a context of the set. -/
def leaseIn (s : State) (set : StopSet) (k : Nat) : Bool :=
  match (s.clu k).lease.holder with | some (a, x) => set.has a (s.ctx a x).kid | none => false

/-- Contexts to stop: those that live or are frozen, but for the one that asks. -/
def ctxUnits (s : State) (set : StopSet) (me : BitVec 32) : List StopUnit :=
  s.cores.flatMap fun (a, o) =>
    (o.ctxs.toList.filter fun c => (c.st == .live || c.st == .frozen) && set.has a c.kid && c.task != me).map fun c => .ctx c.task

/-- Engines of a cluster to stop. -/
def cluUnits (s : State) (set : StopSet) (k : Nat) : List StopUnit :=
  let c := s.clu k
  let ce := c.places ++ c.active.toList
  (if leaseIn s set k || c.cmds.any (fun e => set.hasIss e.iss) then [StopUnit.eng (.matrix k)] else [])
    ++ (if ce.any fun q => set.hasIss q.2.iss then [StopUnit.eng (.copy k)] else [])
    ++ (if c.tw.run && (match c.tw.iss with | some i => set.hasIss i | none => false) then [StopUnit.eng (.tileWalk k)] else [])

def dieUnits (set : StopSet) (d : Nat) (e : Die) : List StopUnit :=
  ((List.range 64).filter fun sl => e.gathers.any fun q => q.1 == sl && set.hasIss q.2.iss).map fun sl => .eng (.gather d sl)

/-- Every unit of a set; those that another pre-emption is stopping are left out (R376). -/
def unitsOf (s : State) (set : StopSet) (me : BitVec 32) : List StopUnit :=
  let l := ctxUnits s set me ++ s.clusters.flatMap (fun q => cluUnits s set q.1) ++ s.dies.flatMap (fun q => dieUnits set q.1 q.2)
    ++ (s.nbCmds.filter fun e => set.hasIss e.iss).map fun e => .nearBank e.id
  l.filter fun u => !s.saves.any fun (q : Nat × SaveArea) => q.2.todo.contains u

/-- Bytes of the context images of a set (R221). -/
def imageBytes (s : State) (l : List StopUnit) : Nat :=
  l.foldl (fun n u => match u with
    | .ctx t => (match s.findTask t with | some (a, k) => n + 2432 + (if (s.ctx a k).lane then 32768 else 0) | none => n)
    | _ => n) 0

def SaveArea.empty (t : BitVec 32) (set : StopSet) : SaveArea := ⟨t, true, set, 0, [], [], [], [], [], [], [], [], []⟩

/-- Cores that the set holds: those that another pre-emption holds are left out (R376). -/
def heldCores (s : State) (set : StopSet) : List Nat := match set with | .cores l => l.filter fun a => !(s.core a).held | _ => []

/-- The stop begins: every unit is told, and cores of the set start nothing more. -/
def stopBegin (s : State) (key : Nat) (v : SaveArea) (l : List StopUnit) : State :=
  let mine := heldCores s v.set
  let s := { s with saves := s.saves.set key { v with todo := l, cores := mine } }
  let s := mine.foldl (fun (s : State) a => s.modCore a fun o => { o with held := true }) s
  l.foldl (fun (s : State) u => s.pend (.preemptAck u)) s

/-! PREEMPT (R376). -/

/-- G[a]: the set, none for a value out of range. -/
def stopSet (g : Word) : Option StopSet :=
  let k := bitsOf g 63 62
  if k = 0 then (if bitsOf g 61 16 = 0 then some (.kernel (g.setWidth 16)) else none)
  else if k = 1 then
    (if bitsOf g 61 18 = 0 && bitsOf g 15 14 = 0 then
      some (.cores (((List.range 8).filter fun i => bit g i).map fun i => (bitsOf g 17 16 * 64 + bitsOf g 13 8) * 8 + i))
    else none)
  else if k = 2 then (if bitsOf g 61 0 = 0 then some .device else none)
  else none

/-- What names a save area: where its first byte lies. -/
def areaKey (p : Path) : Nat :=
  match p with
  | .mem _ pa _ _ => pa
  | .remote ia => 2 ^ 52 + ia
  | .far ia _ => 2 ^ 52 + ia
  | .aperture h => 2 ^ 53 + h
  | .scratch _ _ => 0
  | .dieScratch _ _ => 0

/-- The area of an instruction: translated, 4 KiB-aligned. `bad` says that the other operands are out of range, which comes after the local checks
and before the home's (R209). -/
def areaAccess (i : Instr) (s : State) (va : Word) (k : AKind) (bad : Bool) (go : Nat → State) : State :=
  if va.toNat % 4096 ≠ 0 then raise i s 0x04 va
  else if 0xF0 ≤ addrPart va / 2 ^ 48 then raise i s 0x05 va
  else match localCheck s (curAcc s) k [(va, 64, 64)] with
    | some f => faultCur i s f
    | none => if bad then raise i s 0x02 else access i s va 64 64 k .any fun p => go (areaKey p)

/-- Line `j` of a context image (R221): registers from 0x080, vector registers from 0x180, lane slices from 0x980. The header's parts have no
places of their own there: none. -/
def imageLine (c : Ctx) (lanes : Option Mem) (j : Nat) : Option Nat :=
  if j < 2 then none
  else if j < 6 then some ((List.range 8).foldl (fun n i => n + (c.rG (BitVec.ofNat 5 (8 * (j - 2) + i))).toNat * 2 ^ (64 * i)) 0)
  else if j < 38 then some (c.rV (BitVec.ofNat 5 (j - 6))).toNat
  else lanes.map fun m => m.readNat (64 * (j - 38)) 64

/-- The lines of the context images of an area, one image after the other (log 30). -/
def imageLines (s : State) (v : SaveArea) : List (Option Nat) :=
  v.ctxs.flatMap fun x => match s.findTask x.task with
    | some (a, k) => (List.range (if x.lanes.isSome then 550 else 38)).map (imageLine (s.ctx a k) x.lanes)
    | none => []

/-- The bytes of the area: the context images, then what the device keeps there in a layout of its own (R376): free values. -/
def areaFill (s : State) (va : Word) (v : SaveArea) : State :=
  let l := imageLines s v
  (List.range (ceilDiv v.bytes 64)).foldl (fun (s : State) i =>
    match resolve s (curAcc s) (va + BitVec.ofNat 64 (64 * i)) 64 64 .wr .any with
    | .ok p => let (f, s) := s.freeBits 512; homeWrite s (curAcc s) p 64 ((l[i]?.join).getD f.toNat)
    | .error _ => s) s

/-- The first page of `n` bytes that the current context may not write. -/
def areaBad (s : State) (va : Word) (n : Nat) : Option (Word × AErr) :=
  (List.range (ceilDiv n 4096)).findSome? fun i =>
    let a := va + BitVec.ofNat 64 (4096 * i)
    match resolve s (curAcc s) a 64 64 .wr .any with | .error e => some (a, e) | .ok _ => none

/-- PREEMPT (R376): tried again until the last unit has acknowledged (R220). -/
def execPreempt (o : OXDABC) (s : State) : Out :=
  issue (.preempt o) s fun c =>
    let i : Instr := .preempt o
    areaAccess i s (c.rG o.b) .wr (stopSet (c.rG o.a)).isNone fun key =>
      match stopSet (c.rG o.a) with
      | none => s
      | some set => fenced s fun s =>
        match s.saves.find? key with
        | some v =>
          if v.busy && v.by_ = c.task then
            (if v.todo.isEmpty then
              match areaBad s (c.rG o.b) v.bytes with
              | some (va, e) => refuse i s va e
              | none => give i { areaFill s (c.rG o.b) v with saves := s.saves.set key { v with busy := false } } o.d (BitVec.ofNat 64 v.bytes)
            else waitFor s .retry)
          else if v.busy then waitFor s .retry else preemptNew i s key set
        | none => preemptNew i s key set
where
  /-- The size is computed before any unit stops; context images are 2,432 bytes and their lane slices, the rest is the device's own. -/
  preemptNew (i : Instr) (s : State) (key : Nat) (set : StopSet) : State :=
    let l := unitsOf s set s.cur.task
    let (f, s) := s.freeBits 32
    let n := imageBytes s l + f.toNat
    if s.cur.rG o.c < BitVec.ofNat 64 n then give i s o.d (BitVec.ofNat 64 (2 ^ 63 + n))
    else match areaBad s (s.cur.rG o.b) n with
    | some (va, e) => refuse i s va e
    | none => waitFor (stopBegin s key { SaveArea.empty s.cur.task set with bytes := n } l) .retry

/-! Acknowledgements (R219, R220). -/

/-- A wait as its context is saved: the cycles it has lasted; waits of the context's own instruction are replayed on restore (R218), those
that another agent completes go on. -/
def Wait.stopped (w : Wait) (now : Nat) : Option Wait :=
  match w.what with
  | .done => some { w with since := now - w.since }
  | .barrier _ _ _ _ _ _ => some { w with since := now - w.since }
  | .coll _ _ _ _ _ _ _ _ _ _ => some { w with since := now - w.since }
  | .bind _ _ _ _ _ => some { w with since := now - w.since }
  | .unbinds _ _ => some { w with since := now - w.since }
  | .ending => some { w with since := now - w.since }
  | .fence => some { w with since := now - w.since }
  | _ => if w.limit = 0 then none else some ⟨.retry, w.limit, now - w.since⟩

/-- The instruction that a context is in has begun a step of its own that must end first: a snapshot whose freeze has begun (R355), or a freeze on
its way. -/
def ctxBusy (s : State) (a k : Nat) : Bool :=
  let t := (s.ctx a k).task
  ((s.die (agentDie a)).snaps.any fun q => q.task == t && q.frozen)
    || s.pending.any fun e => match e with | .faultFreeze b j _ => b == a && j == k | _ => false

/-- A context is saved where it stands (log 30): its loads land, its waits for turns end, its lane slices leave, and what waits for its registers
is served (R154). -/
def ctxSave (s : State) (a k : Nat) : State × SavedCtx :=
  let s := withdraw (landAll s a k) a k
  let c := s.ctx a k
  let lanes := if c.lane then some (s.core a).lanes else none
  let s := if c.lane then s.modCore a fun o => { o with lanes := [] } else s
  (serve (s.setCtx a k { c with st := .saved, lane := false, vsp := false, recent := [], wait := c.wait.bind fun w => w.stopped s.now }) a, ⟨c.task, lanes, []⟩)

/-- The array of a cluster is saved with the remaining commands once its active command has ended, and its lease ends. -/
def matrixSave (s : State) (v : SaveArea) (k : Nat) : State × SaveArea :=
  let mine := match (s.clu k).cmds.find? MxEntry.inArray with | some e => v.set.hasIss e.iss | none => false
  let s := if mine then (mxActive s k).getD s else s
  let c := s.clu k
  let v := { v with
    mx := v.mx ++ (c.cmds.filter fun e => v.set.hasIss e.iss).map fun e => (k, e)
    arrays := v.arrays ++ [⟨k, c.tiles, c.bufA, c.bufB, c.lease.kid, c.stgerr⟩] }
  let s := s.setClu k { c with cmds := c.cmds.filter fun e => !v.set.hasIss e.iss }
  match c.lease.holder with
  | some (a, x) =>
    if !leaseIn s v.set k then (s, v) else
    (leaseDrop s k (a, x), { v with ctxs := v.ctxs.map fun y => if y.task = (s.ctx a x).task then { y with leases := y.leases ++ [k] } else y })
  | none => (s, v)

def copySave (s : State) (v : SaveArea) (k : Nat) : State × SaveArea :=
  let c := s.clu k
  let mine := (c.active.toList ++ c.places).filter fun q => v.set.hasIss q.2.iss
  let s := s.setClu k { c with
    places := c.places.filter fun q => !v.set.hasIss q.2.iss
    active := match c.active with | some q => if v.set.hasIss q.2.iss then none else some q | none => none }
  (ceKick s k, { v with ce := v.ce ++ mine.map fun q => (k, q.1, q.2) })

def gatherSave (s : State) (v : SaveArea) (d sl : Nat) : State × SaveArea :=
  let mine := (s.die d).gathers.filter fun q => q.1 == sl && v.set.hasIss q.2.iss
  let s := s.modDie d fun x => { x with gathers := x.gathers.filter fun q => !(q.1 == sl && v.set.hasIss q.2.iss) }
  (gatherKick s d sl, { v with gathers := v.gathers ++ mine.map fun q => (d, sl, q.2) })

/-- The pipeline of a cluster is saved at a tile boundary, with its next tile and its credits; its engine is free (R219). -/
def tileSave (s : State) (v : SaveArea) (k : Nat) : State × SaveArea :=
  let t := (s.clu k).tw
  let s := s.modClu k fun c => { c with tw := { c.tw with run := false, credits := [], stores := [] } }
  (s, { v with tws := v.tws ++ [(k, t)] })

/-- A near-bank command stands at the end of a 64-row block, or waits there for a page (R219). -/
def nbAtStop (s : State) (e : NbEntry) : Bool :=
  (s.engWaits.any fun w => w.agent == 2 && w.task == e.iss.task && w.cmd == e.id) ||
  match e.cmd with
  | .mv _ _ _ _ _ _ _ row0 _ _ pos _ => nbAtBlock row0 pos
  | .place _ _ _ _ pos => pos % 64 == 0

/-- An engine stops at its unit: its remaining commands are saved, and a wait for a page is abandoned (R218). -/
def engSave (s : State) (v : SaveArea) (e : Engine) : State × SaveArea :=
  let s := { s with engWaits := s.engWaits.filter fun w =>
    !(w.agent == engCode e && w.inst == engInst e && (match v.set with | .kernel k => w.kid == k | _ => true)) }
  match e with
  | .matrix k => matrixSave s v k
  | .copy k => copySave s v k
  | .gather d sl => gatherSave s v d sl
  | .tileWalk k => if (s.clu k).tw.run then tileSave s v k else (s, v)
  | .nearBank _ _ => (s, v)
  | .coll _ _ => (s, v)
  | .gmu _ => (s, v)
  | .launch _ => (s, v)

/-- A unit of a set stops: the state, the area, or none while it has not reached its stop point. Engines stop after the contexts that could
give them commands. -/
def unitStop (s : State) (v : SaveArea) (u : StopUnit) : Option (State × SaveArea) :=
  let ctxsLeft := v.todo.any fun x => match x with | .ctx _ => true | _ => false
  match u with
  | .ctx t =>
    match s.findTask t with
    | none => some (s, v)
    | some (a, k) =>
      if (s.ctx a k).st == .saved then some (s, v)
      else if ctxBusy s a k then none
      else let (s, x) := ctxSave s a k; some (s, { v with ctxs := v.ctxs ++ [x] })
  | .eng e =>
    if ctxsLeft || s.pending.any (fun ev => match ev with | .engineFault f _ => f == e | _ => false) then none else some (engSave s v e)
  | .nearBank id =>
    if ctxsLeft then none else
    match s.nbCmds.find? fun e => e.id == id with
    | none => some (s, v)
    | some e =>
      if !nbAtStop s e then none
      else if s.pending.any fun ev => match ev with | .engineFault f _ => f == nbEngine s e | _ => false then none else
      some ({ s with nbCmds := s.nbCmds.filter fun q => q.id != id }, { v with nb := v.nb ++ [e] })

/-- PREEMPT_ACK (R220): the unit has stopped and its state is saved. -/
def execPreemptAck (s : State) : Out :=
  match s.ev with
  | some (.preemptAck u) =>
    match s.saves.findP fun _ v => v.todo.contains u with
    | none => .next s.took
    | some (key, v) =>
      match unitStop s v u with
      | none => .next s
      | some (t, w) => answer { t.took with saves := t.saves.set key { w with todo := w.todo.erase u } }
  | _ => .next s

/-! RESTORE (R376, R222). -/

/-- A saved context takes registers and lane slices again, none while its core has no room (R160). -/
def ctxRestore (s : State) (x : SavedCtx) : Option State :=
  match s.findTask x.task with
  | none => some s
  | some (a, k) =>
    let c := s.ctx a k
    if c.st != .saved then some s
    else if !poolHas (s.core a) c.gOpen c.vOpen || (x.lanes.isSome && !lanesFree (s.core a)) then none
    else
      let s := match x.lanes with | some m => s.modCore a fun o => { o with lanes := m } | none => s
      let w : Option Wait := c.wait.map fun w => { w with since := s.now - w.since }
      let s := s.setCtx a k { c with st := if c.frozenBy.isSome then .frozen else .live, lane := x.lanes.isSome, wait := w }
      some (match w with | some ⟨_, n, _⟩ => if n = 0 then s else s.pendOnce (.boundedWaitExpire a k) | none => s)

def ctxsRestore (s : State) : List SavedCtx → Option State
  | [] => some s
  | x :: t => match ctxRestore s x with | some s => ctxsRestore s t | none => none

/-- A lease that a restored context held is granted to it anew. -/
def leaseRestore (s : State) (x : SavedCtx) (k : Nat) : State :=
  match s.findTask x.task with
  | none => s
  | some p => (s.modClu k fun c => { c with lease := { c.lease with holder := some p, left := 16, since := s.now } }).pendOnce (.leaseGrantExpire k)

def arrayRestore (s : State) (x : ArrayImage) : State :=
  s.modClu x.cluster fun c => { c with tiles := x.tiles, bufA := x.bufA, bufB := x.bufB, stgerr := x.stgerr, lease := { c.lease with kid := x.kid, due := false } }

/-- Saved commands go back to their engines, before any that came since. -/
def cmdsRestore (s : State) (v : SaveArea) : State :=
  let s := v.mx.foldl (fun (s : State) q => (s.modClu q.1 fun c => { c with cmds := c.cmds ++ [q.2] }).pendOnce (.matrixCommandComplete q.1)) s
  let s := v.ce.reverse.foldl (fun (s : State) q => s.modClu q.1 fun c => { c with places := q.2 :: c.places }) s
  let s := v.ce.foldl (fun (s : State) q => ceKick s q.1) s
  let s := v.gathers.reverse.foldl (fun (s : State) q => s.modDie q.1 fun d => { d with gathers := q.2 :: d.gathers }) s
  let s := v.gathers.foldl (fun (s : State) q => gatherKick s q.1 q.2.1) s
  v.nb.foldl (fun (s : State) e => State.pend { s with nbCmds := s.nbCmds ++ [e] } (match e.cmd with
    | .place _ _ _ _ _ => .nbcfgPlaced e.id
    | .mv _ _ _ _ _ _ _ _ _ _ _ _ => .nbmvComplete e.id)) s

/-- A saved pipeline goes on. -/
def tileRestore (s : State) (q : Nat × TileWalk) : State :=
  ((s.modClu q.1 fun c => { c with tw := q.2 }).pendOnce (.tileLoad q.1)).pendOnce (.storePermitAck q.1)

/-- The clusters whose arrays a restore needs. -/
def SaveArea.needs (v : SaveArea) : List Nat := v.arrays.map (fun x => x.cluster) ++ v.ctxs.flatMap (fun x => x.leases) ++ v.mx.map fun q => q.1

/-- The whole set comes back, none while something it needs is taken. -/
def areaRestore (s : State) (v : SaveArea) : Option State :=
  if (v.needs.any fun k => (s.clu k).lease.holder.isSome || !(s.clu k).cmds.isEmpty) || v.tws.any fun q => (s.clu q.1).tw.run then none else
  match ctxsRestore (v.arrays.foldl arrayRestore s) v.ctxs with
  | none => none
  | some s =>
    let s := v.ctxs.foldl (fun (s : State) x => x.leases.foldl (fun (s : State) k => leaseRestore s x k) s) s
    let s := cmdsRestore s v
    let s := v.tws.foldl tileRestore s
    some (v.cores.foldl (fun (s : State) a => (s.modCore a fun o => { o with held := false }).pendOnce (.taskStart a)) s)

/-- RESTORE (R376). -/
def execRestore (o : OXDA) (s : State) : Out :=
  issue (.restore o) s fun c =>
    let i : Instr := .restore o
    areaAccess i s (c.rG o.a) .rd false fun key => fenced s fun s =>
      match s.saves.find? key with
      | none => give i s o.d 1
      | some v =>
        if !v.todo.isEmpty || s.quiesced then waitFor s .retry else
        match areaRestore s v with
        | none => waitFor s .retry
        | some s => give i { s with saves := s.saves.erase key } o.d 0

/-! MIGRATE (R136, R145, R377). -/

/-- Subscriber and publisher entries whose regions lie in a task's claimed ways. -/
def subsIn (s : State) (a : Nat) (kid : BitVec 16) (q : Nat) : List Nat :=
  (List.range 16).filter fun i => let e := subAt s a i; Sub.valid e && Sub.kid e == kid && decide (Sub.off e + Sub.len e ≤ q * wayBytes)
def pubsIn (s : State) (a : Nat) (kid : BitVec 16) (q : Nat) : List Nat :=
  (List.range 16).filter fun i => let e := pubAt s a i; Pub.valid e && Pub.kid e == kid && decide (Pub.off e + Pub.len e ≤ q * wayBytes)

/-- A teardown on its way to an entry that moves finds it at its new place. -/
def followTeardown (s : State) (a i : Nat) (toSub : Bool) (b j : Nat) : State :=
  { s with pending := s.pending.map fun e => match e with
      | .subscriptionTeardown c n t kid p q => if c = a && n = i && t == toSub then .subscriptionTeardown b j t kid p q else e
      | _ => e }

/-- A subscriber entry moves: its publisher is re-pointed and sends one full update (R145). -/
def moveSub (s : State) (a b i : Nat) : State :=
  match freeSub s b with
  | none => s
  | some j =>
    let e := subAt s a i
    let s := followTeardown (setSub (dropMirror (dropNotify s a i) a i) a i 0) a i true b j
    if Sub.state e = 2 then setSub s b j e else
    let s := setSub s b j (putBits (putBits e 126 125 1) 0 0 0)
    let p := pubAt s (Sub.pub e) (Sub.pubIdx e)
    if !Pub.valid p || Pub.state p = 2 || Pub.sub p ≠ a || Pub.subIdx p ≠ i || Pub.kid p ≠ Sub.kid e then s else
    sendFull (setPub s (Sub.pub e) (Sub.pubIdx e) (putBits (putBits p 95 80 b) 79 76 j)) (Sub.pub e) (Sub.pubIdx e) true

/-- A publisher entry moves: the subscriber is re-pointed, and the new core sends one full update (R145). -/
def movePub (s : State) (a b i : Nat) : State :=
  match freePub s b with
  | none => s
  | some j =>
    let e := pubAt s a i
    let s := followTeardown (freePubEntry s a i) a i false b j
    let s := setPub s b j (putBits e 75 64 0)
    let x := subAt s (Pub.sub e) (Pub.subIdx e)
    if !Sub.valid x || Sub.state x = 2 || Sub.pub x ≠ a || Sub.pubIdx x ≠ i || Sub.kid x ≠ Pub.kid e then s else
    sendFull (setSub s (Pub.sub e) (Pub.subIdx e) (putBits (putBits (putBits x 95 80 b) 79 76 j) 126 125 1)) b j true

/-- The claimed bytes of a scratchpad move with their poison. -/
def moveWays (s : State) (a b q : Nat) : State :=
  let n := q * wayBytes
  let s := s.modCore b fun o => { o with spad := ((s.core a).spad.slice 0 n).foldl (fun m x => Mem.write m x.1 x.2) (o.spad.clear 0 n) }
  { s with spPoison := (s.spPoison.filter fun x => x.1 == a && decide (x.2 * 64 < n)).foldl (fun l x => if l.contains (b, x.2) then l else l ++ [(b, x.2)]) s.spPoison }

/-- What a move needs: at its target a FREE context, registers, lane slices, ways that no claim holds, and table entries; and that the
publishers of its subscriptions can count one update more (R140). -/
def moveRoom (s : State) (a b : Nat) (c : Ctx) : Bool :=
  let o := s.core b
  (freeCtx o).isSome && poolHas o c.gOpen c.vOpen && (!c.lane || lanesFree o)
    && ((List.range c.claim).all fun j => spWay o j != .live)
    && ((subsIn s a c.kid c.claim).all fun i => !pubFull (s.core (Sub.pub (subAt s a i))) (Sub.pubIdx (subAt s a i)))
    && decide ((subsIn s a c.kid c.claim).length ≤ ((List.range 16).filter fun i => !Sub.valid (subAt s b i)).length)
    && decide ((pubsIn s a c.kid c.claim).length ≤ ((List.range 16).filter fun i => !Pub.valid (pubAt s b i)).length)

/-- An operation of the task is under way at its core and ends first: one of its GMU, a snapshot, a freeze, or an update (R355, R143). -/
def moveBusy (s : State) (a k : Nat) : Bool := gmuBegun s a k || ctxBusy s a k || updatesOut s a

/-- A SUBSCR that waits for the full update of one of the entries that move waits for it at the entry's new place. -/
def bindMoved (s : State) (a b : Nat) (c : Ctx) (w : Wait) : Wait :=
  match w with
  | ⟨.bind e l d t n, u, v⟩ =>
    let places := (List.range 16).filter fun i => !Sub.valid (subAt s b i)
    ⟨.bind (places.getD ((subsIn s a c.kid c.claim).idxOf e) e) l d t n, u, v⟩
  | w => w

/-- The move: save, flush, restore, and the implicit acquire (R136). -/
def moveTask (s : State) (a k b : Nat) : State :=
  let s := withdraw (landAll s a k) a k
  let s := s.clusters.foldl (fun (s : State) (q : Nat × Cluster) => leaseDrop s q.1 (a, k)) s
  let s := pushTo s a .dev
  let c := s.ctx a k
  match freeCtx (s.core b) with
  | none => s
  | some j =>
    let s := claimWays s b c.claim none
    let s := moveWays s a b c.claim
    let s := if c.lane then (s.modCore b fun o => { o with lanes := (s.core a).lanes }).modCore a fun o => { o with lanes := [] } else s
    let w : Option Wait := (c.wait.bind fun w => w.stopped s.now).map fun w => bindMoved s a b c { w with since := s.now - w.since }
    let s := s.setCtx b j { c with wait := w, serial := (s.ctx b j).serial, priv := isRidge b, yielded := [], jumped := false, recent := [], vsp := false }
    let s := s.setCtx a k { Ctx.reset with serial := c.serial }
    let mine := (s.core a).posted.filter fun p => p.ctx == k && p.task == c.task
    let s := s.modCore a fun o => { o with posted := o.posted.filter fun p => p.ctx != k }
    let s := s.modCore b fun o => { o with posted := o.posted ++ mine.map fun p => { p with ctx := j } }
    let s := (subsIn s a c.kid c.claim).foldl (fun (s : State) i => moveSub s a b i) s
    let s := (pubsIn s a c.kid c.claim).foldl (fun (s : State) i => movePub s a b i) s
    let s := (serve (leaveWays s a) a).pendOnce (.taskStart a)
    let s := match w with | some ⟨_, n, _⟩ => if n = 0 then s else s.pendOnce (.boundedWaitExpire b j) | none => s
    acquire s b .dev

/-- Another live context of the old core claims the task's ways. -/
def waysShared (s : State) (a k : Nat) : Bool :=
  (s.ctx a k).claim != 0 && (List.range 8).any fun j => j != k && (s.ctx a j).st == .live && (s.ctx a j).claim != 0

/-- MIGRATE (R377). -/
def execMigrate (o : OXDABC) (s : State) : Out :=
  issue (.migrate o) s fun c =>
    let i : Instr := .migrate o
    let t := c.rG o.a
    let b := (c.rG o.b).toNat
    let limit := (c.rG o.c).toNat
    let found := if 2 ^ 32 ≤ t.toNat then none else s.findTask (t.setWidth 32)
    let foreign : Bool := match found with | some (a, k) => !serves s s.curAgent (s.ctx a k).kid | none => false
    if foreign then raise i s 0x1F
    else if 2048 ≤ b then raise i s 0x02
    else fenced s fun s =>
      match found with
      | none => give i s o.d 1
      | some (a, k) =>
        let m := s.ctx a k
        if m.st != .live then give i s o.d 1
        else if agentWorld s b != agentWorld s a then give i s o.d 4
        else if waysShared s a k then give i s o.d 3
        else if a = b then give i s o.d 0
        else if moveBusy s a k then waitFor s .retry
        else if !moveRoom s a b m then
          let since := match s.cur.wait with | some w => w.since | none => s.now
          if limit ≠ 0 && since + limit ≤ s.now then give i s o.d 2 else waitFor s .retry
        else moveTask (give i s o.d 0) a k b

/-! CKPT (R231, R232, R234, R378). -/

/-- The save area of a checkpoint, which no program names. -/
def ckptKey : Nat := 2 ^ 40

/-- Updates on their way anywhere (R231 step 2). -/
def anyUpdates (s : State) : Bool :=
  s.cores.any fun (_, o) => !o.pubPend.isEmpty || o.pubs.toList.any fun e => Pub.valid e && Pub.outst e != 0

/-- Every dirty line is written back to the thatch and stays, clean; then every thatch line goes to HBM (R231 step 3). -/
def flushAll (s : State) : State :=
  let s := s.cores.foldl (fun (s : State) (q : Nat × Core) => if isRidge q.1 then s else wcbDrain s q.1) s
  let s := s.clusters.foldl (fun (s : State) (q : Nat × Cluster) =>
    (s.clu q.1).l1.foldl (fun (s : State) (l : Nat × CLine) =>
      if l.2.mask = 0 then s else
      let s := if l.2.ty = .seq then seqHome s l.1 l.2 else outWrite s (cluDie q.1) l.1 l.2.pa l.2.ty l.2.data l.2.mask
      s.modClu q.1 fun c => { c with l1 := c.l1.set l.1 { l.2 with mask := 0 } }) s) s
  let s := s.dies.foldl (fun (s : State) (q : Nat × Die) =>
    (s.die q.1).l2.foldl (fun (s : State) (l : Nat × CLine) =>
      if l.2.mask = 0 then s else
      let s := physWrite s l.2.pa l.2.data l.2.mask
      s.modDie q.1 fun d => { d with l2 := d.l2.set l.1 { l.2 with mask := 0 } }) s) s
  thatchFlush s fun _ => true

/-- The top byte of a frame-table entry, which holds DIRTY, and the frame it describes. -/
def dirtyAt (x : Nat) : Option Nat :=
  let o := x % 2 ^ 36
  if o < ftBase || (o - ftBase) % 8 ≠ 7 || 0xC00000000 ≤ o then none else some (x / 2 ^ 36 * 2 ^ 36 + (o - ftBase) / 8 * 4096)

/-- Frames whose DIRTY bit is set. -/
def dirtyFrames (s : State) : List Nat :=
  s.hbm.filterMap fun q => match dirtyAt q.1 with | some f => if q.2.getLsbD 7 then some f else none | none => none

def dirtyClear (s : State) : State :=
  { s with hbm := s.hbm.filterMap fun q => match dirtyAt q.1 with
      | some _ => let b := setBit q.2 7 false; if b = Mem.dflt then none else some (q.1, b)
      | none => some q }

/-- What belongs to the ridge cores, the host or other devices, which no checkpoint stops: a message, its reply and its notices by their sender. -/
def ridgeEvent (e : Ev) : Bool :=
  let outer (m : Msg) (s : BitVec 6) : Bool := m.srcXR || m.srcDev != s
  match e with
  | .loadLand l => isRidge l.agent
  | .messageArrive m => outer m m.dstDev || (isRidge m.dst && m.ch == 1)
  | .messageReply m _ => m.srcXR
  | .contextFreeNotice a _ _ _ => isRidge a || a == hostAgent
  | .resendTimerExpire a _ _ _ => isRidge a || a == hostAgent
  | .withdrawal _ _ xr _ _ => xr
  | .faultPacketArrive _ => true
  | .pageFaultPost _ => true
  | .pageFaultReply m => isRidge m.dst
  | .accessAccept (.ctx a _) => isRidge a
  | .accessAccept (.device _) => true
  | .faultFreeze a _ _ => isRidge a
  | .taskStart a => isRidge a
  | .boundedWaitExpire a _ => isRidge a
  | .atomicMoved a _ => isRidge a
  | .remoteTimeout a _ => isRidge a
  | .apertureWriteTimeout a _ => isRidge a
  | .dspcfgWrite _ => true
  | .sksizeWrite _ => true
  | .thbootWrite _ => true
  | .fteWrite _ => true
  | .ktWrite _ => true
  | .wsetWrite _ => true
  | .wpWrite _ => true
  | .mrgnWrite _ => true
  | .worldMapWrite _ => true
  | .traptWrite _ => true
  | .pageCopyRequest _ => true
  | .ownershipRequest _ => true
  | .pageInvalidate _ => true
  | .ownershipGrant _ => true
  | e => (hostCmdIn e).isSome

/-- The image (R232). -/
def imageOf (s : State) (frames : Option (List Nat)) (bytes : Nat) (area : SaveArea) : Snapshot where
  frames := frames
  bytes := bytes
  hbm := match frames with | none => s.hbm | some l => s.hbm.filter fun q => l.contains (q.1 / 4096 * 4096)
  wsoFull := s.wsoFull
  poison := s.poison
  spPoison := s.spPoison
  dsPoison := s.dsPoison
  wls := s.workLists
  nbm := s.nbMats
  cores := s.cores
  clus := s.clusters
  dies := s.dies
  kt := s.kt
  pending := s.pending.filter fun e => !ridgeEvent e
  links := s.links
  completions := s.completions
  heldRes := s.heldRes
  saves := s.saves.erase ckptKey
  area := area

/-- Bytes of every frame: 48 GiB in each of 16 stacks (R189, R233). -/
def allFrames : Nat := 16 * 0xC00000000

/-- The quiesced device streams its image; G[d] is FAIL and the bytes streamed. A range too short, or no path to the tier, fails. -/
def ckptStream (s : State) (inc : Bool) (tier len : Nat) (area : SaveArea) : State × Word :=
  let s := flushAll s
  let frames := if inc then some (dirtyFrames s) else none
  let (f, s) := s.freeBits 32
  let n := (match frames with | some l => 4096 * l.length | none => allFrames) + f.toNat
  if len < n || (unreachable s tier && tier / 2 ^ 46 % 64 ≠ s.devno.toNat) then (s, BitVec.ofNat 64 (2 ^ 63))
  else
    let s := dirtyClear s
    ({ s with tiers := s.tiers.set tier (imageOf s frames n area) }, BitVec.ofNat 64 n)

/-- The frames of an image replace the device's. -/
def installFrames (m : Mem) (x : Snapshot) : Mem :=
  match x.frames with
  | none => x.hbm
  | some l => x.hbm.foldl (fun m q => Mem.write m q.1 q.2) (m.filter fun q => !l.contains (q.1 / 4096 * 4096))

/-- A ridge core keeps running; it takes the image's tables. -/
def installCore (s : State) (a : Nat) (o : Core) : Core :=
  if isRidge a then { s.core a with trapt := o.trapt, wsets := o.wsets } else o

def installClu (s : State) (k : Nat) (c : Cluster) : Cluster := { c with l1 := [], fenced := (s.clu k).fenced, disabled := (s.clu k).disabled }
def installDie (s : State) (d : Nat) (x : Die) : Die :=
  { s.die d with l2 := [], sark := [], dsp := x.dsp, dspad := x.dspad, launchq := x.launchq, gathers := x.gathers, colls := x.colls
                 collWait := x.collWait, snaps := x.snaps }

/-- Refused messages between the restored cores and the ridge cores are sent again: the entries that would call for them are of another time. -/
def resendAcross (s : State) : State :=
  s.cores.foldl (fun (s : State) (q : Nat × Core) => resendHeads s q.1 fun e => e.refused && e.msg.dstDev == s.devno && isRidge e.msg.dst != isRidge q.1) s

/-- The image is streamed in and its tables installed (R234); contexts come back afterwards. -/
def installImage (s : State) (x : Snapshot) : State :=
  let s := thatchFlush s fun _ => true
  resendAcross { s with
    hbm := installFrames s.hbm x, wsoFull := x.wsoFull, poison := x.poison, spPoison := x.spPoison, dsPoison := x.dsPoison
    workLists := x.wls, nbMats := x.nbm, nbCmds := [], kt := x.kt, dir := [], tlb := [], engWaits := [], links := x.links, completions := x.completions
    heldRes := x.heldRes
    cores := (s.cores.filter fun (q : Nat × Core) => isRidge q.1).foldl (fun m q => SMap.set m q.1 (installCore s q.1 (SMap.getD x.cores q.1 Core.reset)))
      (x.cores.filter fun (q : Nat × Core) => !isRidge q.1)
    clusters := x.clus.mapKV fun k c => installClu s k c
    dies := s.dies.mapKV fun d _ => installDie s d (x.dies.getD d Die.reset)
    pending := s.pending.filter ridgeEvent ++ x.pending
    saves := x.saves.set ckptKey x.area }

/-- The contexts of a quiesced device come back, and quiescence ends. -/
def unquiesce (s : State) : Option State :=
  match s.saves.find? ckptKey with
  | none => some { s with quiesced := false }
  | some v => (areaRestore s v).map fun s => { s with saves := s.saves.erase ckptKey, quiesced := false }

/-- One try of a checkpoint command, which `who` begins: its result, or none while it must wait. -/
def ckptTry (s : State) (mode tier len : Nat) (who : BitVec 32) : State × Option Word :=
  if mode ≤ 1 then
    if !s.quiesced then
      let v := SaveArea.empty who .device
      ({ stopBegin s ckptKey v (unitsOf s .device 0) with quiesced := true }, none)
    else match s.saves.find? ckptKey with
      | none => (s, none)
      | some v =>
        if s.saves.any (fun (q : Nat × SaveArea) => !q.2.todo.isEmpty) || !v.todo.isEmpty || anyUpdates s then (s, none)
        else let (s, r) := ckptStream s (mode == 1) tier len v; (s, some r)
  else if mode = 2 then
    match s.tiers.find? tier with
    | none => (s, some (BitVec.ofNat 64 (2 ^ 63)))
    | some x =>
      if len < x.bytes || (unreachable s tier && tier / 2 ^ 46 % 64 ≠ s.devno.toNat) then (s, some (BitVec.ofNat 64 (2 ^ 63)))
      else match unquiesce (installImage s x) with
        | none => (s, none)
        | some s => (s, some (BitVec.ofNat 64 x.bytes))
  else if !s.quiesced then (s, some 0)
  else if (match s.saves.find? ckptKey with | some v => !v.todo.isEmpty | none => false) then (s, none)
  else match unquiesce s with | none => (s, none) | some s => (s, some 0)

/-- CKPT (R378): the descriptor is read and checked, then the command runs. -/
def ckptForm (i : Instr) (o : OXDA) (s : State) : Out :=
  issue i s fun c =>
    if !(s.curAgent == 2048 || s.curAgent == monitor) then raise i s 0x1F
    else access i s (c.rG o.a) 32 32 .rd .any fun p => fenced s fun s =>
      let (r, s) := readPath (taintAcquire s (c.taintG o.a)) (curAcc s) p 32
      let tier := r % 2 ^ 64
      let len := r / 2 ^ 64 % 2 ^ 64
      let mode := r / 2 ^ 128 % 2 ^ 32
      if 3 < mode || r / 2 ^ 160 % 2 ^ 96 ≠ 0 || 2 ^ 52 ≤ tier then raise i s 0x02
      else if tier % 4096 ≠ 0 then raise i s 0x04
      else match ckptTry s mode tier len 0 with
        | (s, none) => waitFor s .retry
        | (s, some v) => give i s o.d v

/-- CKPT, MODE 0 of its descriptor. -/
def execCkptFull (o : OXDA) (s : State) : Out := ckptForm (.ckptFull o) o s
/-- CKPT, MODE 1. -/
def execCkptIncremental (o : OXDA) (s : State) : Out := ckptForm (.ckptIncremental o) o s
/-- CKPT, MODE 2. -/
def execCkptRestore (o : OXDA) (s : State) : Out := ckptForm (.ckptRestore o) o s
/-- CKPT, MODE 3. -/
def execCkptResume (o : OXDA) (s : State) : Out := ckptForm (.ckptResume o) o s

end Sys2Proof.Machine
end

