-- ==== Sys2Proof/Machine/Pages.lean ====
section
/-! DEFINITION. Steps of the memory system: the SEQ directory and write-backs (R122, R124, R126), pages between devices (R129 to R131), a frame's
migration (R132), and answers that do not come (R411, R414). -/

namespace Sys2Proof.Machine

/-! Lines (R122, R124, R126). -/

/-- DIRECTORY_REQUEST (R122): one request for a line of a SEQ page of this device; an access of another device is performed at the home. -/
def execDirectoryRequest (s : State) : Out :=
  match s.ev with
  | some (.directoryRequest clu line k) =>
    let t := s
    let s := s.took
    match leaf s (line * 64) with
    | .error _ => .next s
    | .ok e =>
      if 256 ≤ clu || Pte.ty e != .seq || line * 64 / 2 ^ 46 % 64 ≠ s.devno.toNat then .next s
      else match k with
        | .device r => if r.ia / 64 = line then answer ((deviceAccess s r).getD t) else .next s
        | k => answer (dirServe s clu line (Pte.pfn e * 4096 + line * 64 % 4096) k)
  | _ => .next s

/-- WRITEBACK_APPLY (R126): whole, at the home, bytes outside the mask left as they are; one that reaches a thatch updates a sarking copy of
its die on the way (R125). -/
def execWritebackApply (s : State) : Out :=
  match s.ev with
  | some (.writebackApply w) =>
    let s := s.took
    answer (match w.home with
      | .l1 k => l1Write s k w.line w.pa w.ty w.data w.mask
      | .l2 d => l2Write s d w.line w.pa w.ty w.data w.mask
      | .thatch => l2Through (physWrite (sarkUpdate s w.die w.line w.data w.mask) w.pa w.data w.mask) (frameDie w.pa) w.line w.data w.mask)
  | _ => .next s

/-- The bytes of a page at its home on another device. -/
def remotePage (s : State) (page : Nat) : Mem := s.remote.slice (page * 4096) 4096

/-- The dirty bytes of another device's page reach their home (R129). -/
def pushPage (s : State) (page : Nat) (p : PageCopy) : State := pushCopy s page p fun _ => true

/-- A copy of another device's page is given up, or, where this device owns the page, its dirty bytes are pushed (R129, R124). -/
def pageEvict (s : State) (page : Nat) : State :=
  match s.pages.find? page with
  | none => s
  | some p =>
    match p.st with
    | .rd => { s with pages := s.pages.erase page }
    | .ow => pushPage s page p
    | .op => s

/-- EVICTION (R124, R107): a copy leaves at a moment of its cache's choosing. -/
def execEviction (s : State) : Out :=
  match s.ev with
  | some (.eviction e) =>
    let s := s.took
    answer (match e with
      | .wcb a line => wcbEvict s a line
      | .l1 k line => l1Evict s k line
      | .l2 d line => l2Evict s d line
      | .sarking d line => s.modDie d fun x => { x with sark := x.sark.erase line }
      | .thatch line => thatchEvict s line
      | .page page => pageEvict s page)
  | _ => .next s

/-! Pages between devices (R128 to R131). -/

def ownPage (s : State) (page : Nat) : Bool := page / 2 ^ 34 % 64 == s.devno.toNat

/-- An own page whose frame is REL (R128, R134). -/
def relPage (s : State) (page : Nat) : Bool :=
  match leaf s (page * 4096) with | .ok e => frameType s (Pte.pfn e * 4096) == .rel | .error _ => false

/-- A request that keeps to a leaf's permissions. -/
def leafAllows (s : State) (e : Word) (k : AKind) : Bool := !badFrame s (Pte.pfn e * 4096) && (if k == .wr then bit e 57 else bit e 56)

/-- The home grants a request for an own page: this device's own, or one that keeps to the page's permissions and its world (R191), on a die that
is not stopped (R229). -/
def pageAsk (s : State) (r : PageReq) (k : AKind) : Bool :=
  relPage s r.page && (r.dev == s.devno.toNat || (match leaf s (r.page * 4096) with
    | .error _ => false
    | .ok e =>
      let pa := Pte.pfn e * 4096
      leafAllows s e k && Pte.ty e == .rel && !worldBad s (deviceAcc r.dev 0 r.kid r.world) pa && !(s.die (frameDie pa)).stopped))

/-- A request of another device that is refused changes nothing in memory; its answer leaves to the device (log 20). A crossing gives the monitor
its record (R192), a stopped die the requester's kernel (R229). -/
def pageRefused (s : State) (r : PageReq) (k : AKind) : State :=
  if r.dev = s.devno.toNat then s else
  match leaf s (r.page * 4096) with
  | .error _ => s
  | .ok e =>
    let x := deviceAcc r.dev 0 r.kid r.world
    let pa := Pte.pfn e * 4096
    if !leafAllows s e k then s
    else if worldBad s x pa then deviceCrossed s x { code := 0x0C, ia := BitVec.ofNat 64 (r.page * 4096), pa := pa }
    else if (s.die (frameDie pa)).stopped then storeDropped s x (r.page * 4096) else s

/-- A request of another device is accepted at the translation home (R226). -/
def pageAccept (s : State) (r : PageReq) (k : AKind) : State :=
  if r.dev = s.devno.toNat then s else
  watch (cacheLeaf s (r.page * 4096)) (deviceAcc r.dev 0 r.kid r.world) (r.page * 4096) k 4096

/-- Copies of an own page's lines are pushed and dropped. -/
def purgePage (s : State) (page : Nat) : State :=
  match leaf s (page * 4096) with
  | .ok e => purge s fun pa => pa / 4096 == Pte.pfn e
  | .error _ => s

/-- PAGE_COPY_REQUEST (R129): the home adds the device to its holders; this device fetches a page from its home; or, as the owner of another
device's page, it pushes its dirty bytes and keeps a copy. -/
def execPageCopyRequest (s : State) : Out :=
  match s.ev with
  | some (.pageCopyRequest r) =>
    let s := s.took
    let page := r.page
    let ask (s : State) : State := if r.store then s.pendOnce (.ownershipRequest r) else s
    if ownPage s page then
      if r.dev = s.devno.toNat then .next s
      else if !pageAsk s r .rd then answer (pageRefused s r .rd)
      else
      let s := pageAccept s r .rd
      let h := pageHome s page
      let h := { h with holders := if h.holders.contains r.dev then h.holders else h.holders ++ [r.dev]
                        owner := if h.owner = some r.dev then h.owner else none }
      answer (ask { s with homes := s.homes.set page h })
    else if r.dev ≠ s.devno.toNat then
      match s.pages.find? page with
      | some p =>
        if p.st != .ow then .next s else
        let s := pushPage s page p
        .next { s with pages := s.pages.set page { p with st := .rd, dirty := [] } }
      | none => .next s
    else if unreachable s (page * 4096) || (s.pages.find? page).isSome then .next s
    else .next (ask { s with pages := s.pages.set page ⟨if r.store then .op else .rd, remotePage s page, [], [], (0, 0, r.kid)⟩ })
  | _ => .next s

/-- The home begins to serve a request for ownership: every holder but the requester is invalidated, this device's copies among them
(R129). -/
def ownServe (s : State) (r : PageReq) (queue : List PageReq) : State :=
  let self : Bool := r.dev == s.devno.toNat
  let s := if self then s else purgePage (pageAccept s r .wr) r.page
  { s with homes := s.homes.set r.page ⟨if self then [] else [r.dev], none, some r.dev, queue⟩ }.pendOnce (.ownershipGrant r.page)

/-- The request for the ownership of another device's page waits for a path; after 2^24 cycles it is answered as by a stopped die (R414, R229). -/
def ownLeaves (s : State) (page : Nat) : State :=
  match s.pages.find? page with
  | none => s.took
  | some p =>
    if s.unacked.any fun u => u.what == .own && u.ia == page * 4096 then s else
    let (ag, t, kid) := p.by_
    leaves s { what := .own, agent := ag, ctx := 0, task := t, kid := kid, stage := 0, pc := 0, code := 0, inst := 0, ia := page * 4096, n := 0, v := 0
               since := s.now }

/-- A path leads to the home again. -/
def ownAnswered (s : State) (page : Nat) : State := { s with unacked := s.unacked.filter fun u => !(u.what == .own && u.ia == page * 4096) }

/-- OWNERSHIP_REQUEST (R129, R131): requests for a page are served one at a time, in the order of their arrival. -/
def execOwnershipRequest (s : State) : Out :=
  match s.ev with
  | some (.ownershipRequest r) =>
    let self : Bool := r.dev == s.devno.toNat
    if !ownPage s r.page then
      if !self then .next s.took
      else if unreachable s (r.page * 4096) then answer (ownLeaves s r.page) else .next ((ownAnswered s.took r.page).pendOnce (.ownershipGrant r.page))
    else if !pageAsk s r .wr then answer (pageRefused s.took r .wr)
    else
      let h := pageHome s r.page
      if h.op.isSome then .next { s.took with homes := s.homes.set r.page { h with queue := h.queue ++ [r] } }
      else answer (ownServe s.took r h.queue)
  | _ => .next s

/-- PAGE_INVALIDATE (R129, R131): dirty bytes are pushed and the copy is dropped; stores held in OP stay, over the page as it now is. -/
def execPageInvalidate (s : State) : Out :=
  match s.ev with
  | some (.pageInvalidate page) =>
    let s := s.took
    if ownPage s page then answer (purgePage s page) else
    match s.pages.find? page with
    | none => .next s
    | some p =>
      let s := pushPage s page p
      .next { s with pages := if p.st = .op then s.pages.set page ⟨.op, remotePage s page, [], p.held, p.by_⟩ else s.pages.erase page }
  | _ => .next s

/-- A held store of this device becomes visible at its own page's home, and in every copy on the device: what a cache holds of the bytes is
not older any more, and is not written back over it (R99). -/
def ownStore (s : State) (ia n v : Nat) : State :=
  match leaf s ia with
  | .error _ => s
  | .ok e =>
    let pa := Pte.pfn e * 4096 + ia % 4096
    let line := ia / 64
    let dat := Line.put (pa % 64) v
    let m := Mask.span (pa % 64) n
    let up (l : CLine) : CLine := { l with data := Line.merge l.data dat m, mask := l.mask &&& ~~~m, bad := l.poisoned && m != BitVec.allOnes 64 }
    let late (w : WcbEntry) : WcbEntry := if w.line = line then { w with mask := w.mask &&& ~~~m } else w
    let s := l2Through (physWrite s pa dat m) (frameDie pa) line dat m
    { s with
      cores := s.cores.mapKV fun _ o => { o with wcb := (o.wcb.map late).filter fun w => w.mask != 0 }
      clusters := s.clusters.mapKV fun _ c => { c with l1 := match c.l1.find? line with | some l => c.l1.set line (up l) | none => c.l1 }
      dies := s.dies.mapKV fun _ d => { d with
        sark := match d.sark.find? line with | some l => d.sark.set line { l with data := Line.merge l.data dat m, bad := l.bad && m != BitVec.allOnes 64 } | none => d.sark } }

/-- The next request that waits for a page is served (R131). -/
def nextOwner (s : State) (page : Nat) : State :=
  match (pageHome s page).queue with
  | [] => s
  | r :: t => ownServe s r t

/-- OWNERSHIP_GRANT (R130): every acknowledgement is in; the held stores become visible together, in program order, and what else waited for
the page goes on. -/
def execOwnershipGrant (s : State) : Out :=
  match s.ev with
  | some (.ownershipGrant page) =>
    let s := s.took
    if ownPage s page then
      let h := pageHome s page
      match h.op with
      | none => .next s
      | some d =>
        if d = s.devno.toNat then
          let held := match s.pages.find? page with | some p => p.held | none => []
          let s := { s with homes := s.homes.set page { h with owner := none, op := none }, pages := s.pages.erase page }
          let s := held.foldl (fun (s : State) q => ownStore s q.2.1 q.2.2.1 q.2.2.2) s
          answer (nextOwner (retryHeld s page 1) page)
        else answer (nextOwner { s with homes := s.homes.set page { h with owner := some d, op := none } } page)
    else match s.pages.find? page with
      | none => .next s
      | some p =>
        if p.st != .op then .next s else
        let data := p.held.foldl (fun m (_, a, k, v) => Mem.writeNat m a k v) (remotePage s page)
        let dirty := p.held.flatMap fun q => (List.range q.2.2.1).map fun i => q.2.1 + i
        .next { s with pages := s.pages.set page ⟨.ow, data, dirty.eraseDups, [], p.by_⟩ }
  | _ => .next s

/-! The migration of a frame (R132). -/

/-- Where the leaf of a page stands, the first of its group for a contiguous one, that leaf, and how many 4 KiB pages it maps. -/
def leafSlot (s : State) (ia : Nat) : Nat → Nat → Option (Nat × Word × Nat)
  | level, tbl =>
    let idx := if level = 3 then ia / 2 ^ 39 % 128 else ia / 2 ^ (12 + 9 * level) % 512
    let at_ := tbl + 8 * idx
    let e := walkRead s at_
    if !bit e 63 || Pte.bad s e level then none
    else if bit e 61 then
      let g := tbl + 8 * (idx / 16 * 16)
      if Pte.groupBad s tbl idx then none else some (g, walkRead s g, 16)
    else if bit e 62 then some (at_, e, 2 ^ (9 * level))
    else match level with
      | 0 => none
      | l + 1 => leafSlot s ia l (Pte.pfn e * 4096)

/-- A number within `n` frames of `k` items each, from frame `old`, becomes the same place in those from frame `new`. -/
def reframe (k old new n x : Nat) : Nat := if k * old ≤ x ∧ x < k * (old + n) then x - k * old + k * new else x
/-- What the new frames held is gone, and what the old ones held is theirs. -/
def reframeList (k old new n : Nat) (l : List Nat) : List Nat :=
  (l.filter fun x => !(decide (k * new ≤ x) && decide (x < k * (new + n)))).map (reframe k old new n)
/-- Keys of the frames' objects move with them. -/
def rekey {α : Type} (m : SMap α) (old new n : Nat) : SMap α := m.foldl (fun r q => SMap.set r (reframe 4096 old new n q.1) q.2) ([] : SMap α)

/-- The bytes of `n` frames, their table entries, full words, poison and objects go to the new frames (steps 4 and 5). -/
def moveFrame (s : State) (old new n : Nat) : State :=
  let within (f x : Nat) : Bool := decide (f ≤ x) && decide (x < f + n)
  let s := purge s fun pa => within old (pa / 4096)
  let s := thatchFlush s fun l => within old (l / 64) || within new (l / 64)
  let h := (s.hbm.slice (old * 4096) (4096 * n)).foldl (fun m q => Mem.write m (new * 4096 + q.1 - old * 4096) q.2) (s.hbm.clear (new * 4096) (4096 * n))
  let s := (List.range n).foldl (fun (s : State) i =>
    physPutNat s (ftAddr ((new + i) * 4096)) 8 (setBit (ftEntry s ((old + i) * 4096)) 63 true).toNat) { s with hbm := h }
  { s with
    wsoFull := reframeList 512 old new n s.wsoFull
    poison := reframeList 64 old new n s.poison
    nbMats := rekey s.nbMats old new n
    workLists := rekey s.workLists old new n }

/-- The leaf at `at_`, or the sixteen of its group, name the new frames; the writes are the table frame's (R135). -/
def moveLeaf (s : State) (at_ : Nat) (e : Word) (new : Nat) : State :=
  let k := if bit e 61 then 16 else 1
  let s := purge s fun pa => decide (at_ / 64 ≤ pa / 64) && decide (pa / 64 ≤ (at_ + 8 * k - 1) / 64)
  markDirty ((List.range k).foldl (fun (s : State) j =>
    physPutNat s (at_ + 8 * j) 8 (putBits (BitVec.ofNat 64 (physNat s (at_ + 8 * j) 8)) 39 12 (new + j)).toNat) s) at_

/-- FRAME_MIGRATION (R132): first the old stack stops accepting atomics; then the frames of the page are handed over, the leaf rewritten and its
translations dropped, and what was held goes on. -/
def execFrameMigration (s : State) : Out :=
  match s.ev with
  | some (.frameMigration page new) =>
    let s := s.took
    match leafSlot s (page * 4096) 3 s.ptroot.toNat with
    | none => .next { s with moving := s.moving.filter fun q => !(decide (q.1 ≤ page) && decide (page < q.1 + q.2.2)) }
    | some (at_, e, n) =>
      let base := page / n * n
      let old := Pte.pfn e
      let dst := new / 4096
      if new % 4096 ≠ 0 || dst % n ≠ 0 || 16 * 2 ^ 24 < dst + n || badFrame s new || badFrame s (new + 4096 * (n - 1)) || !ownPage s page
          || old = dst then .next s
      else if s.moving.contains (base, new, n) then
        let s := tlbDrop (moveLeaf (moveFrame s old dst n) at_ e dst) base n
        answer (retryHeld { s with moving := s.moving.filter fun q => q != (base, new, n) } base n)
      else if inMove s base then .next s
      else .next ({ s with moving := s.moving ++ [(base, new, n)] }.pend (.frameMigration page new))
  | _ => .next s

/-- ATOMIC_MOVED (R132): a held atomic is issued again, to the new stack. -/
def execAtomicMoved (s : State) : Out :=
  match s.ev with
  | some (.atomicMoved a k) =>
    match (s.ctx a k).wait with
    | some ⟨.moved page, l, t⟩ =>
      if inMove s page then .next s
      else .next (s.took.modCtx a k fun c => { c with wait := some ⟨.retry, l, t⟩ })
    | _ => .next s.took
  | _ => .next s

/-! No answer (R411, R414). -/

/-- The record of a write that is treated as one to a stopped die (R229). -/
def unackedRecord (s : State) (u : Unacked) (ia : Nat) : State :=
  s.record 0x1B 3 u.code u.inst u.kid u.task u.agent u.stage u.pc 0 (BitVec.ofNat 64 ia)

/-- What has left is not acknowledged within 2^24 cycles: it is dropped, with a record; a request for ownership drops the stores that it holds. -/
def unackedDrop (s : State) (u : Unacked) : State :=
  let s := { s with unacked := s.unacked.erase u }
  if u.what != .own then unackedRecord s u u.ia else
  match s.pages.find? (u.ia / 4096) with
  | none => s
  | some p =>
    let mine (e : Ev) : Bool := match e with | .ownershipRequest r => r.page == u.ia / 4096 | _ => false
    let s := { s with pages := s.pages.set (u.ia / 4096) { p with st := .rd, held := [] }, pending := s.pending.filter fun e => !mine e }
    p.held.foldl (fun (s : State) h => unackedRecord s { u with task := BitVec.ofNat 32 h.1 } h.2.1) s

/-- What a context's timer counts: the first of its writes to the host, or of what it sent to other devices. -/
def firstUnacked (s : State) (a k : Nat) (host : Bool) : Option Unacked := s.unacked.find? fun u => u.agent == a && u.ctx == k && u.host == host

/-- The timer of one such write, at its end. -/
def unackedDue (s : State) (u : Unacked) : Bool := decide (u.since + 2 ^ 24 ≤ s.now)

/-- REMOTE_TIMEOUT (R414, R229): 2^24 cycles after the request, an access of an unreachable device is answered with poison, a store dropped. -/
def execRemoteTimeout (s : State) : Out :=
  match s.ev with
  | some (.remoteTimeout a k) =>
    match firstUnacked s a k false, (s.ctx a k).wait with
    | some u, w =>
      if unackedDue s u then answer (unackedDrop s u) else
      (match w with
      | some ⟨.remote t, _, _⟩ =>
        if (s.ctx a k).st == .live && decide (t + 2 ^ 24 ≤ s.now) then answer (takeFault s a k { code := 0x1B, sub := 3 } (insnAt s a k)) else .next s
      | _ => .next s)
    | none, some ⟨.remote t, _, _⟩ =>
      if (s.ctx a k).st != .live then .next s.took
      else if s.now < t + 2 ^ 24 then .next s
      else answer (takeFault s.took a k { code := 0x1B, sub := 3 } (insnAt s a k))
    | none, _ => .next s.took
  | _ => .next s

/-- APERTURE_WRITE_TIMEOUT (R411, R229): a write that the host does not acknowledge within 2^24 cycles is dropped, and goes as a record to the
kernel of its context. -/
def execApertureWriteTimeout (s : State) : Out :=
  match s.ev with
  | some (.apertureWriteTimeout a k) =>
    match firstUnacked s a k true with
    | none => .next s.took
    | some u => if unackedDue s u then answer (unackedDrop s u) else .next s
  | _ => .next s

end Sys2Proof.Machine
end

