-- ==== Sys2Proof/Machine/Health.lean ====
section
/-! DEFINITION. Power (R200, R201), self-test (R230), soft and hard errors (R227 to R229), temperature (R416) and links (R414). -/

namespace Sys2Proof.Machine

/-! Power, in sixteenths of a watt (R200). -/

/-- One installed kernel's claim in an interval: its table index, what it may use, what it is granted. -/
structure Share where
  entry : Nat
  use   : Nat
  got   : Nat
  deriving DecidableEq, Repr

def Demand.total (d : Demand) : Nat := d.units.foldl (fun n u => n + u.2) 0

/-- The demand of an entry, none for one that reported nothing. -/
def demandOf (l : List Demand) (n : Nat) : Nat := match l.find? fun d => d.entry == n with | some d => Demand.total d | none => 0

/-- What each valid entry may use, granted up to its floor. -/
def floors (s : State) (l : List Demand) : List Share :=
  ((List.range 64).filter fun n => Kt.valid (vget s.kt n (0, 0))).map fun n =>
    let e := vget s.kt n (0, 0)
    let d := demandOf l n
    let cap := bitsOf e.1 15 0 * 16
    let u := if cap = 0 then d else min d cap
    ⟨n, u, min u (Kt.floor e * 16)⟩

/-- One step to each kernel that can use one, in table order, while any is left. -/
def shareRound : Nat → List Share → Nat × List Share
  | rm, [] => (rm, [])
  | rm, x :: t =>
    if rm ≠ 0 && x.got < x.use then
      let (r, l) := shareRound (rm - 1) t
      (r, { x with got := x.got + 1 } :: l)
    else
      let (r, l) := shareRound rm t
      (r, x :: l)

/-- Rounds until nothing is left or wanted; each round uses a step. -/
def shareAll : Nat → Nat → List Share → List Share
  | 0, _, l => l
  | n + 1, rm, l =>
    if rm = 0 || l.all (fun x => x.got == x.use) then l else
    let (r, l) := shareRound rm l
    shareAll n r l

/-- Allot (R200). -/
def allot (s : State) (unattributed : Nat) (l : List Demand) : List Share :=
  let b := max (2400 * 16 - unattributed) (1800 * 16)
  let f := floors s l
  let rm := b - f.foldl (fun n x => n + x.got) 0
  shareAll rm rm f

/-- Clusters and near-bank units in which a kernel's part is less than its demand. -/
def shortUnits (s : State) (l : List Demand) (x : Share) : List (Nat × BitVec 16) :=
  match l.find? fun d => d.entry == x.entry with
  | none => []
  | some d =>
    let t := Demand.total d
    let kid := BitVec.ofNat 16 (Kt.kid (vget s.kt x.entry (0, 0)))
    (d.units.filter fun u => decide (x.got * u.2 / t < u.2)).map fun u => (u.1, kid)

/-- A unit with a part that is less than its demand may use up its whole allotment. -/
def wholeUnits (l : List (Nat × BitVec 16)) : List (Nat × BitVec 16) := ((l.map fun u => u.1).eraseDups).map fun u => (u, 0xFFFF)

/-- A part or an allotment that is less than the demand is used up in the interval or not: the manual does not say what work draws. -/
def stallSome (s : State) : List (Nat × BitVec 16) → List (Nat × BitVec 16) × State
  | [] => ([], s)
  | u :: t =>
    let (b, s) := s.freeBits 1
    let (l, s) := stallSome s t
    (if b = 1 then u :: l else l, s)

/-- The module's draw in the interval that is over, in sixteenths of a watt: what no kernel accounts for, and of what the kernels were granted a part
that the spec does not give, a free value (log 36). -/
def drawn (s : State) (un : Nat) : Nat × State :=
  let g := s.grants.foldl (fun n q => n + q.2) 0
  let (f, s) := s.freeBits 16
  (min un (600 * 16) + f.toNat % (g + 1), s)

/-- Watts, averaged over intervals (R412). -/
def meanDraw (l : List Nat) : BitVec 32 := BitVec.ofNat 32 (l.foldl (fun a b => a + b) 0 / (16 * l.length))

/-- POWER_INTERVAL (R200, R201): once in each interval of 1,300 cycles; the stalls of the last one are over. POWER is the mean draw of the last 1,024
intervals (R412). -/
def execPowerInterval (s : State) : Out :=
  match s.ev with
  | some (.powerInterval un l) =>
    if powerInterval s ≤ s.powerAt then .next s else
    let s := s.took
    let sh := allot s un l
    let short := sh.flatMap fun x => shortUnits s l x
    let (st, s) := stallSome s (short ++ wholeUnits short)
    let (p, s) := drawn s un
    let ps := (p :: s.draws).take 1024
    .next { s with powerAt := powerInterval s, grants := sh.map fun x => (x.entry, x.got), stalled := st, draws := ps
                   mgmt := { s.mgmt with power := meanDraw ps } }
  | _ => .next s

/-! Self-test (R230). -/

/-- ARRAY_SELF_TEST (R230): a failing quadrant is fenced until reset, each with its record; two disable the array. -/
def execArraySelfTest (s : State) : Out :=
  match s.ev with
  | some (.arraySelfTest k failing) =>
    let s := s.took
    let c := s.clu k
    if 256 ≤ k then .next s else
    let new := (List.range 4).filter fun q => failing.getLsbD q && !c.fenced.getLsbD q
    let f := c.fenced ||| failing
    let n := ((List.range 4).filter fun q => f.getLsbD q).length
    let s := s.setClu k { c with fenced := f, disabled := c.disabled || decide (2 ≤ n) }
    .next (new.foldl (fun (s : State) _ => s.recordTo (ridgeAgent (cluDie k) 0) 0 1 1 k) s)
  | _ => .next s

/-! Errors (R227 to R229). -/

/-- ECC_CORRECTABLE (R227): corrected and counted; the record goes as the count passes the threshold. -/
def execEccCorrectable (s : State) : Out :=
  match s.ev with
  | some (.eccCorrectable d) =>
    let s := s.took
    let x := s.die d
    let s := s.setDie d { x with cec := x.cec + 1 }
    .next (if !(x.cec > x.cethr) && x.cec + 1 > x.cethr then s.recordTo (ridgeAgent d 0) 0 2 0x0D 0 else s)
  | _ => .next s

/-- POISON_MARK (R228). -/
def execPoisonMark (s : State) : Out :=
  match s.ev with
  | some (.poisonMark p) =>
    let s := s.took
    let add {α : Type} [BEq α] (l : List α) (x : α) : List α := if l.contains x then l else l ++ [x]
    .next (match p with
      | .hbm pa => { s with poison := add s.poison (pa / 64) }
      | .scratch a off => { s with spPoison := add s.spPoison (a, off / 64) }
      | .dieScratch d off => { s with dsPoison := add s.dsPoison (d, off / 64) })
  | _ => .next s

/-- A die stops: its cores and engines stand still (R229), and the hardware-event record goes to the secure monitor (R212, log 54). -/
def dieStop (s : State) (d : Nat) : State :=
  if (s.die d).stopped then s else (s.modDie d fun x => { x with stopped := true, running := false }).recordTo monitor 0 3 0x0D 0

/-- DIE_STOP (R229). -/
def execDieStop (s : State) : Out :=
  match s.ev with
  | some (.dieStop d) => .next (if d < 4 then dieStop s.took d else s.took)
  | _ => .next s

/-! Temperature and links (R414, R416). -/

/-- At 105 °C a die stops. -/
def thermalStop (s : State) (d : Nat) (t : Byte) : State :=
  let s := (dieStop s d).modDie d fun x => { x with warn := true, tstop := true, temp := t }
  { s with mgmt := { s.mgmt with bootst := 0xC0 } }

/-- THERMAL_WARNING (R416): a reading of 95 °C or more, which at 105 °C stops the die. -/
def execThermalWarning (s : State) : Out :=
  match s.ev with
  | some (.thermalWarning d t) =>
    .next (if 4 ≤ d || t.toNat < 95 then s.took
      else if 105 ≤ t.toNat then thermalStop s.took d t
      else s.took.modDie d fun x => { x with warn := true, temp := t })
  | _ => .next s

/-- THERMAL_STOP (R416): at 105 °C the die stops. -/
def execThermalStop (s : State) : Out :=
  match s.ev with
  | some (.thermalStop d) => .next (if d < 4 then thermalStop s.took d (if (s.die d).temp < 105 then 105 else (s.die d).temp) else s.took)
  | _ => .next s

/-- THERMAL_WARNING_CLEAR (R416): a reading below 95 °C. -/
def execThermalWarningClear (s : State) : Out :=
  match s.ev with
  | some (.thermalWarningClear d t) => .next (if d < 4 && t.toNat < 95 then s.took.modDie d fun x => { x with warn := false, temp := t } else s.took)
  | _ => .next s

/-- TWILL_LANE_FAIL (R414): traffic goes over the lanes that are left. -/
def execTwillLaneFail (s : State) : Out :=
  match s.ev with
  | some (.twillLaneFail n) => .next { s.took with lanesUp := s.lanesUp &&& ~~~ (BitVec.ofNat 72 (2 ^ n)) }
  | _ => .next s

end Sys2Proof.Machine
end

