-- ==== Sys2Proof/Machine/Host.lean ====
section
/-! DEFINITION. The outside: host messages and commands (R407 to R410), attestation (R205), management frames (R412), boot (R202, R203, R413)
and the supplies (R415). -/

namespace Sys2Proof.Machine

/-! Host messages (R408). -/

/-- The port discards a message whose header has another value than R408 gives. -/
def hostHeaderBad (s : State) (h : Word) : Bool :=
  bitsOf h 63 58 != s.devno.toNat || bitsOf h 57 52 != 0 || (bitsOf h 46 41 != 0 && bitsOf h 46 41 != 7) || bitsOf h 40 24 != 0
    || decide (bitsOf h 23 20 < 2) || bitsOf h 19 18 != 3 || !bit h 17 || bitsOf h 16 0 != 0

/-- The message as the port delivers it. -/
def hostMsgOf (s : State) (h : Word) (payload : BitVec 960) : Msg where
  dstDev := s.devno
  dst := 2048 + bitsOf h 51 47
  ch := h.extractLsb' 41 6
  srcDev := s.mgmt.hostnode.setWidth 6
  srcXR := true
  srcCore := 0x7FF
  len := h.extractLsb' 20 4
  kind := .system
  tagv := false
  tag := 0
  payload := payload
  kid := 0
  world := false
  resend := false
  acq := none
  task := 0
  pc := 0

/-- HOST_MESSAGE_ARRIVE (R408): while the port's buffer of 16 is full the host's link stalls. In reset the port holds what comes (R413). -/
def execHostMessageArrive (s : State) : Out :=
  match s.ev with
  | some (.hostMessageArrive h p) =>
    if !s.mgmt.auxUp then .next s.took
    else if hostHeaderBad s h then .next (hdropCount s.took)
    else if 16 ≤ s.hostRetry.length then .next s
    else .next (hostSend s.took (hostMsgOf s h p))
  | _ => .next s

/-! Serving a command (R409, R410). -/

/-- What a service comes to: a status, a VALUE and the new state; or it goes on later. -/
inductive Served
  | done (status : Nat) (value : Word) (s : State)
  | wait (s : State)
  deriving DecidableEq, Repr

/-- The course of a command, while the ridge core's die runs: its turn, its form (status 1), who serves it (2), then its own work. -/
def hostServe (s : State) (c : HostCmd) (minLen : Nat) (here : Bool) (go : State → Served) : Out :=
  if hostEarlier s c || !dieRuns s (agentDie c.agent) then .next s else
  let r := if c.len < minLen || c.rsv ≠ 0 then .done 1 0 s else if !here then .done 2 0 s else go s
  match r with
  | .wait t => .next t
  | .done st v t => answer (hostReply t.took c st v)

/-- The issuer that stands for the firmware of a ridge core. -/
def firmwareIssuer (s : State) (a : Nat) : Issuer where
  agent := a
  ctx := 0
  task := 0
  kid := 0
  world := agentWorld s a
  prio := 0
  priv := true
  pc := 0
  stage := 0
  claim := 0
  win := Vector.replicate 4 Window.reset

/-- HOST_LAUNCH (R409, R158). -/
def execHostLaunch (s : State) : Out :=
  match s.ev with
  | some (.hostLaunch c) =>
    hostServe s c 10 true fun s =>
      let r := hostArg c 0x10 64
      let i := firmwareIssuer s c.agent
      let fut := BitVec.ofNat 64 (recBytes r 8 8)
      if s.quiesced then .done 4 0 s
      else if launchBad s r then .done 3 2 s
      else match futCheck i.win fut with
        | some code => .done 3 (code.setWidth 64) s
        | none => if 64 ≤ (queuedLaunches (s.die (recBytes r 0x24 1))).length then .wait s else .done 0 0 (launchQueue s i r none)
  | _ => .next s

/-! MAP (R197, R198, R409). -/

/-- Bytes that a leaf of a level maps. -/
def leafBytes (level : Nat) : Nat := 4096 * 512 ^ level

/-- Where the entry of an IA at `level` stands: none where a table is missing, an error where a leaf of a higher level covers it. -/
inductive Slot
  | found (at_ : Nat)
  | missing (level at_ : Nat)
  | covered
  deriving DecidableEq, Repr

/-- Descend from a table at level `n` to the entry at `level`. -/
def slotOf (s : State) (ia level : Nat) : Nat → Nat → Slot
  | n, tbl =>
    let idx := if n = 3 then ia / 2 ^ 39 % 128 else ia / 2 ^ (12 + 9 * n) % 512
    let at_ := tbl + 8 * idx
    if n ≤ level then .found at_ else
    match n with
    | 0 => .found at_
    | m + 1 =>
      let e := walkRead s at_
      if !bit e 63 then .missing (m + 1) at_
      else if bit e 62 then .covered
      else slotOf s ia level m (Pte.pfn e * 4096)

/-- The frames of every table and leaf below a table, as first frame and count. -/
def usedFrames (s : State) : Nat → Nat → List (Nat × Nat)
  | n, tbl =>
    (List.range (if n = 3 then 128 else 512)).flatMap fun i =>
      let e := walkRead s (tbl + 8 * i)
      if !bit e 63 then [] else
      match n with
      | 0 => [(Pte.pfn e, 1)]
      | m + 1 => if bit e 62 then [(Pte.pfn e, 512 ^ (m + 1))] else (Pte.pfn e, 1) :: usedFrames s m (Pte.pfn e * 4096)

/-- The lowest frame above the boot range that no entry names and that holds no byte. -/
def freeFrame (s : State) (used : List (Nat × Nat)) : Nat → Nat → Option Nat
  | 0, _ => none
  | n + 1, f =>
    if badFrame s (f * 4096) || 2 ^ 28 ≤ f then none
    else match used.find? fun u => decide (u.1 ≤ f) && decide (f < u.1 + u.2) with
      | some u => freeFrame s used n (u.1 + u.2)
      | none => if (s.hbm.any fun c => c.1 / 4096 == f) || s.thatch.any fun c => c.1 / 64 == f then freeFrame s used n (f + 1) else some f

/-- An 8-byte entry written by the service core, seen by every later walk. -/
def pteWrite (s : State) (at_ : Nat) (e : Word) : State :=
  let s := purge s fun pa => pa / 64 == at_ / 64
  physWrite s at_ (Line.put (at_ % 64) e.toNat) (Mask.span (at_ % 64) 8)

/-- The entry at a level, with tables made as needed in frames that the new leaf `e` does not name either: none where no frame is left. -/
def slotMake (s : State) (e : Word) (ia level : Nat) : Nat → Option (Nat × State)
  | 0 => none
  | n + 1 =>
    match slotOf s ia level 3 s.ptroot.toNat with
    | .found at_ => some (at_, s)
    | .covered => none
    | .missing _ at_ =>
      let used := (Pte.pfn e, 512 ^ level) :: (s.ptroot.toNat / 4096, 1) :: usedFrames s 3 s.ptroot.toNat
      match freeFrame s used (used.length + s.hbm.length + s.thatch.length + 1) 24576 with
      | none => none
      | some f => slotMake (pteWrite s at_ (BitVec.ofNat 64 (2 ^ 63 + f * 4096))) e ia level n

/-- The checks of R198 for a leaf at a level, the group rule left out, and of the frames it names (R189, R135, R89). -/
def mapPteBad (s : State) (e : Word) (level : Nat) : Bool :=
  let pa := Pte.pfn e * 4096
  let o := pa % 2 ^ 36
  !bit e 62 || (bit e 61 && level != 0) || bitsOf e 54 40 != 0 || Pte.pfn e % 512 ^ level != 0
    || decide (ftBase - carve (s.die (frameDie pa)) < o + leafBytes level)

/-- A MAP command's refusal by a check. -/
def mapCheck (s : State) (ia : Nat) (e : Word) (level owner : Nat) : Option Word :=
  if 2 < level || 2 ^ 52 ≤ ia || ia / 2 ^ 46 % 64 ≠ s.devno.toNat then some 2
  else if ia % leafBytes level ≠ 0 then some 4
  else if slotOf s ia level 3 s.ptroot.toNat = .covered then some 2
  else if bit e 63 && mapPteBad s e level then some 2
  else if owner ≠ 0 && Pte.ty e != .prv then some 2
  else none

/-- The frame-table entries of a leaf's frames: TYPE, with OWNER in the same write for PRV (R133, R135). -/
def mapFrames (s : State) (e : Word) (level owner : Nat) : State :=
  let v : Word := BitVec.ofNat 64 (bitsOf e 60 59 * 2 ^ 61 + (if Pte.ty e == .prv then owner else 0))
  (List.range (512 ^ level)).foldl (fun (s : State) i => fteSet s ((Pte.pfn e + i) * 4096) v) s

/-- HOST_MAP (R409). -/
def execHostMap (s : State) : Out :=
  match s.ev with
  | some (.hostMap c) =>
    hostServe s c 5 (c.agent == 2048) fun s =>
      let ia := hostArg c 0x10 8
      let e := BitVec.ofNat 64 (hostArg c 0x18 8)
      let level := hostArg c 0x20 1
      let owner := hostArg c 0x24 4
      if s.quiesced then .done 4 0 s else
      match mapCheck s ia e level owner with
      | some v => .done 3 v s
      | none =>
        if !bit e 63 then
          (match slotOf s ia level 3 s.ptroot.toNat with
          | .found at_ => .done 0 0 (tlbDrop (pteWrite s at_ e) (ia / 4096) (512 ^ level))
          | _ => .done 0 0 s)
        else
        let held := retypeHeld s (Pte.pfn e) (512 ^ level) (Pte.ty e)
        if !held.isEmpty then .wait (askPages s (ctxAcc s c.agent 0) held) else match slotMake s e ia level 4 with
          | none => .done 5 0 s
          | some (at_, s) => .done 0 0 (tlbDrop (mapFrames (pteWrite s at_ e) e level owner) (ia / 4096) (512 ^ level))
  | _ => .next s

/-- HOST_KINST (R409, R194): an NS entry, never over an S one. -/
def execHostKinst (s : State) : Out :=
  match s.ev with
  | some (.hostKinst c) =>
    hostServe s c 5 (!agentWorld s c.agent) fun s =>
      let n := hostArg c 0x10 1
      let e : Word × Word := (setBit (BitVec.ofNat 64 (hostArg c 0x18 8)) 62 false, BitVec.ofNat 64 (hostArg c 0x20 8))
      let old := vget s.kt n (0, 0)
      if s.quiesced then .done 4 0 s
      else if 63 < n then .done 3 2 s
      else if Kt.valid old && bit old.1 62 then .done 3 0x1F s
      else if ktBad s n e then .done 3 2 s
      else .done 0 0 { s with kt := vset s.kt n e }
  | _ => .next s

/-- HOST_CKPT (R231, R378, R409). -/
def execHostCkpt (s : State) : Out :=
  match s.ev with
  | some (.hostCkpt c) =>
    hostServe s c 6 (c.agent == 2048) fun s =>
      let tier := hostArg c 0x10 8
      let len := hostArg c 0x18 8
      let mode := hostArg c 0x20 4
      let who := BitVec.ofNat 32 (c.no + 1)
      let other : Bool := match s.saves.find? ckptKey with | some v => !v.todo.isEmpty && v.by_ != who | none => false
      if 3 < mode || hostArg c 0x24 12 ≠ 0 || 2 ^ 52 ≤ tier then .done 3 2 s
      else if tier % 4096 ≠ 0 then .done 3 4 s
      else if other then .done 4 0 s
      else match ckptTry s mode tier len who with
        | (t, none) => .wait t
        | (t, some v) => .done (if bit v 63 then 5 else 0) v t
  | _ => .next s

/-! Attestation (R205, R206). -/

/-- The bytes that the signature covers. -/
def reportBody (s : State) (nonce : Nat) : List Byte :=
  leBytes 0x4B415452 4 ++ leBytes 1 4 ++ leBytes Config.serial.toNat 8 ++ leBytes nonce 32 ++ leBytes s.svn.toNat 4 ++ leBytes 0 4
    ++ leBytes (sha512 (s.mrgn.toList.flatMap fun r => leBytes r.toNat 8)).toNat 64
    ++ s.meas.toList.flatMap fun m => leBytes m.toNat 64

def bytesNat (l : List Byte) : Nat := l.foldr (fun b n => b.toNat + 256 * n) 0

/-- HOST_ATTEST (R205): the measurements as they are when it is signed (R206). -/
def execHostAttest (s : State) : Out :=
  match s.ev with
  | some (.hostAttest c) =>
    hostServe s c 6 (c.agent == monitor) fun s =>
      if c.reply = 0 then .done 0 440 s
      else if 2 ^ 44 < c.reply.toNat + 0x40 + 440 then .done 5 0 s
      else
        let b := reportBody s (hostArg c 0x10 32)
        .done 0 440 { s with hostMem := (s.hostMem.writeNat (c.reply.toNat + 0x40) 376 (bytesNat b)).writeNat (c.reply.toNat + 0x40 + 376) 64
                              (Config.edSign b).toNat }
  | _ => .next s

/-- A halt command on ch7 (R223, R409). -/
def hostHalt (s : State) (c : HostCmd) (on : Bool) : Out :=
  hostServe s c 3 true fun s =>
    let g := hostArg c 0x10 1
    let d := hostArg c 0x11 1
    if 15 < g || 3 < d then .done 3 2 s else .done 0 0 (haltGroup s d g on)

/-- HOST_HGTRIG (R409). -/
def execHostHgtrig (s : State) : Out := match s.ev with | some (.hostHgtrig c) => hostHalt s c true | _ => .next s
/-- HOST_HGREL (R409). -/
def execHostHgrel (s : State) : Out := match s.ev with | some (.hostHgrel c) => hostHalt s c false | _ => .next s

/-! Reset, boot and supplies (R202, R203, R412, R413, R415). -/

/-- A die in reset whose junction still reads what it read (R416). -/
def heldDie (s t : State) (d : Nat) : State :=
  let x := s.die d
  if x.temp = 0 && !x.warn then t else t.modDie d fun y => { y with temp := x.temp, warn := x.warn }

/-- The module in reset: nothing of it is kept but the management block's written fields and its temperatures, its fuses, and what lies outside it: host
memory, other devices and their pages, the tiers, the links. -/
def heldReset (s : State) (m : Mgmt) : State :=
  (List.range 4).foldl (heldDie s) { State.reset with
    agenda := s.agenda, turn := s.turn, fresh := s.fresh, nextId := s.nextId, hostMem := s.hostMem, hostUp := s.hostUp, remote := s.remote, far := s.far
    outbox := s.outbox, tiers := s.tiers, lanesUp := s.lanesUp, noPath := s.noPath, minSvn := s.minSvn, mgmt := { m with bootst := 0, held := true } }

/-- MGMT_CTRL_HOLD (R412): every die stops at once. -/
def execMgmtCtrlHold (s : State) : Out :=
  match s.ev with | some .mgmtCtrlHold => .next (if s.mgmt.auxUp then heldReset s s.mgmt else s.took) | _ => .next s

/-- MAIN_POWER_LOSS (R415): as CTRL = 2. -/
def execMainPowerLoss (s : State) : Out :=
  match s.ev with | some .mainPowerLoss => .next (heldReset s { s.mgmt with mainOn := false }) | _ => .next s

/-- MAIN_INPUT_RETURN (R415): the module stays in reset. -/
def execMainInputReturn (s : State) : Out :=
  match s.ev with | some .mainInputReturn => .next { s.took with mgmt := { s.mgmt with mainOn := true } } | _ => .next s

/-- AUX_POWER_UP (R413): the block reads BOOTST 0 and DIESTAT 0. -/
def execAuxPowerUp (s : State) : Out :=
  match s.ev with
  | some .auxPowerUp => .next (heldReset { s with dies := [] } { Mgmt.reset with mainOn := s.mgmt.mainOn })
  | _ => .next s

/-- The SVN that an image needs: the fused minimum, which signed requests raise (R203). -/
def fusedMin (s : State) : Nat := max Config.minSvn.toNat s.minSvn.toNat

/-- Fields of the image's header (R202). -/
def hdr (h o n : Nat) : Nat := h / 2 ^ (8 * o) % 2 ^ (8 * n)

/-- The first check of R203 that an image fails, 0 for none. -/
def bootCheck (min h : Nat) (body : List Byte) : Nat :=
  let len := hdr h 0x08 8
  let load := hdr h 0x10 8
  if hdr h 0 4 ≠ 0x46473946 || hdr h 0x38 8 ≠ 0 then 1
  else if hdr h 4 4 < min then 2
  else if len % 64 ≠ 0 || 2 ^ 26 < len || load % 64 ≠ 0 || 0x6000000 < load + len then 3
  else if sha512 (leBytes (hdr h 0x18 32) 32) ≠ Config.keyDigest then 4
  else if (sha512 body).toNat ≠ hdr h 0x40 64 then 5
  else if !Config.edVerify (BitVec.ofNat 256 (hdr h 0x18 32)) (leBytes h 0x80) (BitVec.ofNat 512 (hdr h 0x80 64)) then 6
  else 0

/-- A ridge core starts the body: ctx0, privileged, every name open, one window over the device's own addresses (log 14). -/
def firmwareCtx (s : State) (a pc : Nat) : Ctx :=
  { Ctx.reset with
      st := .live, pc := BitVec.ofNat 64 pc, priv := true, gOpen := 32, vOpen := 32, world := agentWorld s a, task := agentNum a ++ 0#20
      serial := 1
      win := vset (Vector.replicate 4 Window.reset) 0 ⟨BitVec.ofNat 64 (64 + 46), BitVec.ofNat 64 (s.devno.toNat * 2 ^ 46 + 7)⟩ }

/-- The boot ROM's work (R202, R203, R413): header and body come through the aperture, the body goes to LOAD, and the checks decide. -/
def bootRom (s : State) : State :=
  let at_ := s.mgmt.bootaddr.toNat % 2 ^ 44
  let h := s.hostMem.readNat at_ 192
  let len := hdr h 0x08 8
  let load := hdr h 0x10 8
  let legal := len % 64 == 0 && decide (len ≤ 2 ^ 26) && load % 64 == 0 && decide (load + len ≤ 0x6000000)
  let n := if legal then s.hostMem.readNat (at_ + 192) len else 0
  let body := if legal then leBytes n len else []
  let s := if legal then { s with hbm := Mem.writeNat s.hbm load len n } else s
  let k := bootCheck (fusedMin s) h body
  if k ≠ 0 then { s with mgmt := { s.mgmt with bootst := BitVec.ofNat 32 (0x80 + k) } } else
  let s := { s with
    meas := vset s.meas 0 (measExtend 0 (sha512 (leBytes h 192 ++ body)))
    svn := BitVec.ofNat 32 (hdr h 4 4)
    mgmt := { s.mgmt with bootst := 2 } }
  let s := (List.range 4).foldl (fun (s : State) d => s.modDie d fun x => { x with running := true }) s
  (List.range 32).foldl (fun (s : State) i => s.setCtx (2048 + i) 0 (firmwareCtx s (2048 + i) (load + Config.firmwareEntryOffset))) s

/-- Die 0 leaves reset: TIME starts at 0, BOOTST is 0x01 while the boot ROM runs, and what the port held for the host leaves. -/
def release0 (s : State) : State :=
  if !s.mgmt.held || !s.mgmt.auxUp || !s.mgmt.mainOn then s else
  let s := { s with time := 0, mgmt := { s.mgmt with held := false, bootst := 1 } }
  State.pend (hostRelease (s.modDie 0 fun d => { d with running := true })) .mgmtCtrlRelease

/-- MGMT_CTRL_RELEASE (R413): the release; then, as a step of its own, the end of the boot ROM's work, which needs a host that answers. -/
def execMgmtCtrlRelease (s : State) : Out :=
  match s.ev with
  | some .mgmtCtrlRelease =>
    if s.mgmt.held || s.mgmt.bootst ≠ 1 then answer (release0 s.took)
    else if hostReached s then answer (bootRom s.took)
    else .next s
  | _ => .next s

/-- MGMT_WRITE (R412): exactly one whole writable field; BOOTADDR, HOSTNODE and DEVNO only while held. -/
def execMgmtWrite (s : State) : Out :=
  match s.ev with
  | some (.mgmtWrite off len x) =>
    let s := s.took
    if !s.mgmt.auxUp then .next s
    else if off = 0x2C && len = 4 then
      (if x.setWidth 32 = 1#32 then answer (release0 s) else if x.setWidth 32 = 2#32 then .next (heldReset s s.mgmt) else .next s)
    else if !s.mgmt.held then .next s
    else if off = 0x18 && len = 8 then .next { s with mgmt := { s.mgmt with bootaddr := x } }
    else if off = 0x20 && len = 1 then .next { s with mgmt := { s.mgmt with hostnode := x.setWidth 8 } }
    else if off = 0x21 && len = 1 then .next { s with mgmt := { s.mgmt with devno := x.setWidth 8 } }
    else .next s
  | _ => .next s

/-! What happens outside (R203, R407, R411, R413, R414). -/

/-- A host node falls silent or answers again; paths to a device fail or work again; a Twill frame of another kind comes from a host node and is counted;
the firmware reports that bring-up is over; the monitor raises the fused minimum for a signed request. -/
def outsideStep (s : State) (o : Outside) : State :=
  match o with
  | .hostAnswers on => if on then hostBack s else { s with hostUp := false }
  | .path dev works => if works then pathBack s dev else if s.noPath.contains dev then s else { s with noPath := s.noPath ++ [dev] }
  | .hostFrame => if s.mgmt.auxUp then hdropCount s else s
  | .ready => if s.mgmt.bootst = 2 && !s.thboot then { s with mgmt := { s.mgmt with bootst := 3 } } else s
  | .raiseMin v => if dieRuns s 0 && !s.mgmt.held && s.minSvn.toNat < v.toNat then { s with minSvn := v } else s

/-- A byte of the management block, as a management frame reads it (R412). -/
def mgmtRead (s : State) (o : Nat) : Byte :=
  let m := s.mgmt
  let le (x b : Nat) : Byte := BitVec.ofNat 8 (x / 256 ^ (o - b))
  if o < 4 then le 0x4647394D 0
  else if o < 8 then le m.bootst.toNat 4
  else if o < 12 then
    let d := s.die (o - 8)
    BitVec.ofNat 8 (d.running.toNat + 2 * d.stopped.toNat + 4 * d.warn.toNat + 8 * d.tstop.toNat)
  else if o < 16 then (s.die (o - 12)).temp
  else if o < 0x14 then le m.power.toNat 0x10
  else if o < 0x18 then le m.hdrop.toNat 0x14
  else if o < 0x20 then le m.bootaddr.toNat 0x18
  else if o = 0x20 then m.hostnode
  else if o = 0x21 then m.devno
  else 0

end Sys2Proof.Machine
end

