-- ==== Sys2Proof/Machine/Vector.lean ====
section
/-! DEFINITION. Groups 0x20 to 0x2B and 0x30: lanes, vector memory, lane slices, three-address operations, reductions, top-k (R304 to
R323, R51). -/

namespace Sys2Proof.Machine

/-! Register forms (R305, R306). -/

/-- A vector result with the taint of the sources and the flags of its active lanes. -/
def vecOut (i : Instr) (c : Ctx) (d : Reg) (r : Fl Line) : Ctx := (c.wV d r.1 (srcTaint i c)).orFlags r.2

/-- An instruction that writes the active lanes of one vector register. -/
def execLanes (i : Instr) (s : State) (d : Reg) (form : VForm) (f : Ctx → Nat → Fl Nat) : Out :=
  issueReg i s fun c => vecOut i c d (mapLanes (lanesOn c form.mask) (c.rV d) (f c))

/-- Two lanes as operands of a 32-bit integer operation. -/
def lw (c : Ctx) (r : Reg) (l : Nat) : Word := BitVec.ofNat 64 (lane (c.rV r) l)
/-- A 32-bit result as a lane. -/
def lo32 (r : Fl Word) : Fl Nat := (r.1.toNat % 2 ^ 32, r.2)
/-- A lane as an f32. -/
def lf (c : Ctx) (r : Reg) (l : Nat) : Val := ffF32.decode (lane (c.rV r) l)

/-! OPC 0x20, 0x26, 0x27 (R307 to R309). -/

/-- VADD (R307). -/
def execVadd (o : OVSat) (s : State) : Out := execLanes (.vadd o) s o.d o.form fun c l => lo32 (intRes o.w.width o.sat (o.w.width.val (lw c o.a l) + o.w.width.val (lw c o.b l)))
/-- VSUB (R307). -/
def execVsub (o : OVSat) (s : State) : Out := execLanes (.vsub o) s o.d o.form fun c l => lo32 (intRes o.w.width o.sat (o.w.width.val (lw c o.a l) - o.w.width.val (lw c o.b l)))
/-- VAND (R307). -/
def execVand (o : OVBin) (s : State) : Out := execLanes (.vand o) s o.d o.form fun c l => (Nat.land (lane (c.rV o.a) l) (lane (c.rV o.b) l), 0)
/-- VOR (R307). -/
def execVor (o : OVBin) (s : State) : Out := execLanes (.vor o) s o.d o.form fun c l => (Nat.lor (lane (c.rV o.a) l) (lane (c.rV o.b) l), 0)
/-- VXOR (R307). -/
def execVxor (o : OVBin) (s : State) : Out := execLanes (.vxor o) s o.d o.form fun c l => (Nat.xor (lane (c.rV o.a) l) (lane (c.rV o.b) l), 0)
/-- VANDN (R307). -/
def execVandn (o : OVBin) (s : State) : Out := execLanes (.vandn o) s o.d o.form fun c l => (Nat.land (lane (c.rV o.a) l) (2 ^ 32 - 1 - lane (c.rV o.b) l), 0)
/-- VSHL (R307): count is lane b mod 32. -/
def execVshl (o : OVBin) (s : State) : Out := execLanes (.vshl o) s o.d o.form fun c l => lo32 (shl o.w.width (lw c o.a l) (lw c o.b l), 0)
/-- VSHR (R307): count is lane b mod 32. -/
def execVshr (o : OVBin) (s : State) : Out := execLanes (.vshr o) s o.d o.form fun c l => lo32 (shr o.w.width (lw c o.a l) (lw c o.b l), 0)
/-- VSRA (R307): count is lane b mod 32. -/
def execVsra (o : OVBin) (s : State) : Out := execLanes (.vsra o) s o.d o.form fun c l => lo32 (sra o.w.width (lw c o.a l) (lw c o.b l), 0)
/-- VMIN (R307). -/
def execVmin (o : OVBin) (s : State) : Out := execLanes (.vmin o) s o.d o.form fun c l => lo32 (o.w.width.ext (min (o.w.width.val (lw c o.a l)) (o.w.width.val (lw c o.b l))), 0)
/-- VMAX (R307). -/
def execVmax (o : OVBin) (s : State) : Out := execLanes (.vmax o) s o.d o.form fun c l => lo32 (o.w.width.ext (max (o.w.width.val (lw c o.a l)) (o.w.width.val (lw c o.b l))), 0)
/-- VMUL (R308). -/
def execVmul (o : OVBin) (s : State) : Out := execLanes (.vmul o) s o.d o.form fun c l => lo32 (o.w.width.ext (o.w.width.val (lw c o.a l) * o.w.width.val (lw c o.b l)), 0)
/-- VMULH (R308). -/
def execVmulh (o : OVBin) (s : State) : Out := execLanes (.vmulh o) s o.d o.form fun c l => lo32 (mulh o.w.width (lw c o.a l) (lw c o.b l), 0)
/-- VDIV (R308, R52). -/
def execVdiv (o : OVBin) (s : State) : Out := execLanes (.vdiv o) s o.d o.form fun c l => 
  let r := divRem o.w.width (o.w.width.val (lw c o.a l)) (o.w.width.val (lw c o.b l))
  lo32 (o.w.width.ext r.1.1, r.2)
/-- VREM (R308, R52). -/
def execVrem (o : OVBin) (s : State) : Out := execLanes (.vrem o) s o.d o.form fun c l => 
  let r := divRem o.w.width (o.w.width.val (lw c o.a l)) (o.w.width.val (lw c o.b l))
  lo32 (o.w.width.ext r.1.2, r.2)
/-- VSHLI (R309). -/
def execVshli (o : OVSh) (s : State) : Out := execLanes (.vshli o) s o.d o.form fun c l => lo32 (shl .n32 (lw c o.a l) (o.n.setWidth 64), 0)
/-- VSHRI (R309). -/
def execVshri (o : OVSh) (s : State) : Out := execLanes (.vshri o) s o.d o.form fun c l => lo32 (shr .n32 (lw c o.a l) (o.n.setWidth 64), 0)
/-- VSRAI (R309). -/
def execVsrai (o : OVSh) (s : State) : Out := execLanes (.vsrai o) s o.d o.form fun c l => lo32 (sra .n32 (lw c o.a l) (o.n.setWidth 64), 0)

/-! OPC 0x21 (R310). -/

/-- VFADD (R310). -/
def execVfadd (o : OVF) (s : State) : Out := execLanes (.vfadd o) s o.d o.form fun c l => fsum ffF32 (lf c o.a l) (lf c o.b l) o.rm o.sat
/-- VFSUB (R310). -/
def execVfsub (o : OVF) (s : State) : Out := execLanes (.vfsub o) s o.d o.form fun c l => fsum ffF32 (lf c o.a l) (lf c o.b l).neg o.rm o.sat
/-- VFMUL (R310). -/
def execVfmul (o : OVF) (s : State) : Out := execLanes (.vfmul o) s o.d o.form fun c l => fmulV ffF32 (lf c o.a l) (lf c o.b l) o.rm o.sat
/-- VFMA (R310): d is a source. -/
def execVfma (o : OVF) (s : State) : Out := execLanes (.vfma o) s o.d o.form fun c l => fmaV ffF32 (lf c o.d l) (lf c o.a l) (lf c o.b l) o.rm o.sat
/-- VFMIN (R310, R47). -/
def execVfmin (o : OV3) (s : State) : Out := execLanes (.vfmin o) s o.d o.form fun c l => (fmin ffF32 (lane (c.rV o.a) l) (lane (c.rV o.b) l), 0)
/-- VFMAX (R310, R47). -/
def execVfmax (o : OV3) (s : State) : Out := execLanes (.vfmax o) s o.d o.form fun c l => (fmax ffF32 (lane (c.rV o.a) l) (lane (c.rV o.b) l), 0)
/-- VFNEG (R310). -/
def execVfneg (o : OV2) (s : State) : Out := execLanes (.vfneg o) s o.d o.form fun c l => (fneg ffF32 (lane (c.rV o.a) l), 0)
/-- VRCP (R310, R53 to R55). -/
def execVrcp (o : OV2) (s : State) : Out := execLanes (.vrcp o) s o.d o.form fun c l => vrcp (lane (c.rV o.a) l)
/-- VRSQ (R310, R53 to R55). -/
def execVrsq (o : OV2) (s : State) : Out := execLanes (.vrsq o) s o.d o.form fun c l => vrsq (lane (c.rV o.a) l)

/-! OPC 0x22 (R311). -/

/-- A compare of lanes: bit l of the scalar result, zero for a masked-off lane. -/
def execVcmp (i : Instr) (s : State) (d : Reg) (form : VForm) (f : Ctx → Nat → Bool) : Out :=
  issueReg i s fun c =>
    aluOut i c d (BitVec.ofNat 64 ((lanesOn c form.mask).foldl (fun n l => if f c l then n + 2 ^ l else n) 0), 0)

/-- VCMPEQ (R311). -/
def execVcmpeq (o : OVBin) (s : State) : Out := execVcmp (.vcmpeq o) s o.d o.form fun c l => lane (c.rV o.a) l == lane (c.rV o.b) l
/-- VCMPNE (R311). -/
def execVcmpne (o : OVBin) (s : State) : Out := execVcmp (.vcmpne o) s o.d o.form fun c l => lane (c.rV o.a) l != lane (c.rV o.b) l
/-- VCMPLT (R311). -/
def execVcmplt (o : OVBin) (s : State) : Out := execVcmp (.vcmplt o) s o.d o.form fun c l => decide (o.w.width.val (lw c o.a l) < o.w.width.val (lw c o.b l))
/-- VCMPLE (R311). -/
def execVcmple (o : OVBin) (s : State) : Out := execVcmp (.vcmple o) s o.d o.form fun c l => decide (o.w.width.val (lw c o.a l) ≤ o.w.width.val (lw c o.b l))
/-- VFCMPEQ (R311). -/
def execVfcmpeq (o : OV3) (s : State) : Out := execVcmp (.vfcmpeq o) s o.d o.form fun c l => (lf c o.a l).eqv (lf c o.b l)
/-- VFCMPLT (R311). -/
def execVfcmplt (o : OV3) (s : State) : Out := execVcmp (.vfcmplt o) s o.d o.form fun c l => (lf c o.a l).lt (lf c o.b l)
/-- VFCMPLE (R311). -/
def execVfcmple (o : OV3) (s : State) : Out := execVcmp (.vfcmple o) s o.d o.form fun c l => (lf c o.a l).lt (lf c o.b l) || (lf c o.a l).eqv (lf c o.b l)
/-- VSEL (R311): bit l of G[b] chooses lane a, else the old lane. -/
def execVsel (o : OV3) (s : State) : Out := execLanes (.vsel o) s o.d o.form fun c l => 
  (if (c.rG o.b).getLsbD l then lane (c.rV o.a) l else lane (c.rV o.d) l, 0)

/-! OPC 0x23 to 0x25 (R312 to R314). -/

/-- VCVT (R312, R34, R304). -/
def execVcvt (o : OVCvt) (s : State) : Out := execLanes (.vcvt o) s o.d o.form fun c l => 
  let r := convert o.dfmt o.sfmt (lane (c.rV o.a) l % 2 ^ o.sfmt.bits) o.rm o.sat
  (extend o.dfmt r.1 32, r.2)
/-- VMOV (R313). -/
def execVmov (o : OV2) (s : State) : Out := execLanes (.vmov o) s o.d o.form fun c l => (lane (c.rV o.a) l, 0)
/-- VBCAST (R313): G[a][31:0] in every active lane. -/
def execVbcast (o : OV2) (s : State) : Out := execLanes (.vbcast o) s o.d o.form fun c _ => ((c.rG o.a).toNat % 2 ^ 32, 0)
/-- VIOTA (R313). -/
def execViota (o : OViota) (s : State) : Out := execLanes (.viota o) s o.d o.form fun _ l => (l, 0)
/-- VSHUF (R314): indexes 16 to 31 take the old destination, which is read before any lane is written. -/
def execVshuf (o : OV3) (s : State) : Out := execLanes (.vshuf o) s o.d o.form fun c l => 
  let j := lane (c.rV o.b) l % 32
  (if j < 16 then lane (c.rV o.a) j else lane (c.rV o.d) (j - 16), 0)
/-- VINS (R313): one lane, the others kept. -/
def execVins (o : OVins) (s : State) : Out :=
  issueReg (.vins o) s fun c => vecOut (.vins o) c o.d (setLane (c.rV o.d) o.l.toNat ((c.rG o.a).toNat % 2 ^ 32), 0)
/-- VEXT (R313): a lane, extended by W. -/
def execVext (o : OVext) (s : State) : Out :=
  issueReg (.vext o) s fun c => aluOut (.vext o) c o.d (o.w.width.ext (o.w.width.val (lw c o.a o.l.toNat)), 0)

/-! Vector memory (R315 to R318). -/

/-- A refused lane: the packet's VA is that lane's address, and INFO[31:16] the lane. -/
def refuseLane (i : Instr) (s : State) (va : Word) (l : Nat) (e : AErr) : State :=
  match e with
  | .fault f => faultCur i s { f with va := va, info := BitVec.ofNat 16 l }
  | .page code sub ia => pageFault s code sub va ia (Instr.limit i s.cur) false (BitVec.ofNat 16 l)
  | e => refuse i s va e

/-- A fault of a lane before its access. -/
def laneFault (i : Instr) (s : State) (va : Word) (l : Nat) (code : BitVec 8) : State :=
  faultCur i s { code := code, va := va, info := BitVec.ofNat 16 l }

/-- The store of the masked bytes of a line along a path (R315): one access. -/
def writeMask (s : State) (x : Acc) (p : Path) (on : List Nat) (v : Line) : State :=
  if on.length = 16 then writePath s x p 64 v.toNat else
  match p with
  | .mem ia pa ty _ =>
    let s := accepted s x p .wr
    let line := ia / 64
    let m := on.foldl (fun (m : Mask) l => m ||| Mask.span (4 * l) 4) 0
    if (s.die (frameDie pa)).stopped then storeDropped s x ia else
    if ty = .rel && ownShared s ia then on.foldl (fun (s : State) l => holdOwn s x (ia + 4 * l) 4 (lane v l)) s else
    (match ty with
    | .wso =>
      let s := physWrite s pa v m
      { s with wsoFull := on.foldl (fun f l => if f.contains (pa / 8 + l / 2) then f else f ++ [pa / 8 + l / 2]) s.wsoFull }
    | .seq =>
      if isRidge x.agent then l2Write (dirClear s line) (frameDie pa) line pa .seq v m
      else
        let k := agentClu x.agent
        let s := dirServe s k line pa .write
        match (s.clu k).l1.find? line with
        | some l => s.modClu k fun c => { c with l1 := c.l1.set line { l with data := Line.merge l.data v m, mask := l.mask ||| m } }
        | none => physWrite s pa v m
    | _ => if isRidge x.agent then outWrite s (agentDie x.agent) line pa ty v m else wcbStore s x.agent line pa ty v m)
  | .scratch a off => on.foldl (fun (s : State) l => spWrite s a (off + 4 * l) 4 (lane v l)) s
  | .dieScratch d off => on.foldl (fun (s : State) l => dsWrite s d (off + 4 * l) 4 (lane v l)) s
  | .aperture h => on.foldl (fun (s : State) l => writePath s x (.aperture (h + 4 * l)) 4 (lane v l)) s
  | .remote ia => on.foldl (fun (s : State) l => writePath s x (.remote (ia + 4 * l)) 4 (lane v l)) s
  | .far ia ty => on.foldl (fun (s : State) l => writePath s x (.far (ia + 4 * l) ty) 4 (lane v l)) s

/-- The 8-byte word that a lane touches is covered by both of its lanes (R315). -/
def pairWhole (on : List Nat) (l : Nat) : Bool := on.contains (2 * (l / 2)) && on.contains (2 * (l / 2) + 1)

/-- The path `n` bytes before another of its line. -/
def Path.back (p : Path) (n : Nat) : Path :=
  match p with
  | .scratch a off => .scratch a (off - n)
  | .dieScratch d off => .dieScratch d (off - n)
  | .mem ia pa ty disc => .mem (ia - n) (pa - n) ty disc
  | .aperture h => .aperture (h - n)
  | .remote ia => .remote (ia - n)
  | .far ia ty => .far (ia - n) ty

/-- The access of one lane's 4 bytes of a group. -/
def groupLane (s : State) (va : Word) (k : AKind) (on : List Nat) (l : Nat) : Res Path :=
  resolve s (curAcc s) (va + BitVec.ofNat 64 (4 * l)) 4 4 k (if k == .wr && pairWhole on l then .wsoStore else .any)

/-- The lowest of some lanes whose access of a group is refused. -/
def lanesRefused (s : State) (va : Word) (k : AKind) (on : List Nat) : List Nat → Option (Nat × AErr)
  | [] => none
  | l :: t => match groupLane s va k on l with | .error e => some (l, e) | .ok _ => lanesRefused s va k on t

/-- The path of a group whose lowest active lane is `l`: the access of all 64 bytes, or, where some lanes are masked off, of each active one. A
refused group names its lowest refused lane (R315). -/
def groupPath (s : State) (va : Word) (k : AKind) (on : List Nat) (l : Nat) : Except (Nat × AErr) Path :=
  let first (e : AErr) : Except (Nat × AErr) Path := .error ((lanesRefused s va k on on).getD (l, e))
  if addrPart va % 64 ≠ 0 then .error (l, .fault { code := 0x04, va := va })
  else if on.length = 16 then
    match resolve s (curAcc s) va 64 64 k (if k == .wr then .wsoStore else .any) with | .error e => first e | .ok p => .ok p
  else match lanesRefused s va k on on with
    | some e => .error e
    | none => match groupLane s va k on l with | .error e => .error (l, e) | .ok p => .ok (p.back (4 * l))

/-- The address of a 64-byte group; with no active lane nothing is accessed. -/
def groupForm (i : Instr) (o : OVMem) (s : State) (k : AKind) (go : Path → State → State) : State :=
  let c := s.cur
  let on := lanesOn c o.form.mask
  match effAddr (c.rG o.base) (stepOf o.off 64) o.pi, on with
  | none, l :: _ => laneFault i s 0 l 0x0D
  | none, [] => raise i s 0x0D
  | some (_, nb), [] => done i (postInc s o.base o.pi nb)
  | some (va, nb), l :: _ =>
    match groupPath s va k on l with
    | .error (l, e) => refuseLane i s (va + BitVec.ofNat 64 (4 * l)) l e
    | .ok p =>
      match pathHold s (curAcc s) p 64 k with
      | some h => holdOn s 0 h
      | none =>
        let s := if k == .wr && p.isWso then release s s.curAgent .dev else s
        go p (postInc (taintAcquire s (c.taintG o.base)) o.base o.pi nb)

/-- VLD (R316). -/
def execVld (o : OVMem) (s : State) : Out :=
  issue (.vld o) s fun c =>
    let on := lanesOn c o.form.mask
    groupForm (.vld o) o s .rd fun p s =>
      let (x, s) := readPath s (curAcc s) p 64
      let (v, _) := mapLanes on (c.rV o.r) fun l => (lane (BitVec.ofNat 512 x) l, 0)
      done (.vld o) (land s true o.r v)

/-- VST (R316, R315). -/
def execVst (o : OVMem) (s : State) : Out :=
  issue (.vst o) s fun c =>
    let on := lanesOn c o.form.mask
    groupForm (.vst o) o s .wr fun p s => done (.vst o) (writeMask s (curAcc s) p on (c.rV o.r))

/-- What a lane's access goes to: its path, its element and its scale's path. -/
structure LaneAcc where
  l    : Nat
  path : Path
  el   : Elem
  sc   : Option Path
  deriving DecidableEq, Repr

/-- The page at which a store along a path would be held (R130): an own page that other devices hold, or another's that is not owned here. -/
def heldPage (s : State) (p : Path) : Option Nat :=
  match p with
  | .mem ia pa ty _ => if ty = .rel && ownShared s ia && !(s.die (frameDie pa)).stopped then some (pageOf ia) else none
  | .remote ia => (s.pages.find? (pageOf ia)).bind fun q => if q.st = .ow then none else some (pageOf ia)
  | _ => none

/-- Ask for the ownership of a page before anything is stored to it (R129). -/
def askPage (s : State) (x : Acc) (page : Nat) : State :=
  match s.pages.find? page with
  | some p =>
    if p.st = .rd then { s with pages := s.pages.set page { p with st := .op } }.pend (.ownershipRequest (ownRequest s x page)) else s
  | none => askOwn s x page

/-- A page whose hold would let the store of a higher lane to another place be seen before that of a lower one: the lanes of a store act in
ascending order, which no context of the core may see broken (R117, R315). -/
def lanesSpread (s : State) (ps : List Path) : Option Nat :=
  (ps.findSome? (heldPage s)).bind fun page => if ps.all fun p => heldPage s p == some page then none else some page

/-- Check every active lane before any takes effect; `addr` gives a lane's addresses or a fault. The local checks of a lane's element and scale
come before either's home is asked (R209). The answer of a refused lane is the state it leaves; a port or a page that a lane waits for is waited
for. -/
def checkLanes (i : Instr) (s : State) (k : AKind) (addr : Nat → Except (BitVec 8 × Word) (Word × Elem × Option Word)) :
    List Nat → State ⊕ List LaneAcc
  | [] => .inr []
  | l :: t =>
    match addr l with
    | .error (code, va) => .inl (laneFault i s va l code)
    | .ok (va, el, sv) =>
      match localCheck s (curAcc s) k ((va, el.bytes, el.bytes) :: sv.toList.map fun a => (a, 2, 2)) with
      | some g => .inl (refuseLane i s va l (.fault g))
      | none =>
      match resolve s (curAcc s) va el.bytes el.bytes k with
      | .error e => .inl (refuseLane i s va l e)
      | .ok p =>
        let q : Res (Option Path) := match sv with
          | none => .ok none
          | some a => (resolve s (curAcc s) a 2 2 k).map some
        match q with
        | .error e => .inl (refuseLane i s va l e)
        | .ok q =>
          match checkLanes i s k addr t with
          | .inl s' => .inl s'
          | .inr ps =>
            match pathHold s (curAcc s) p el.bytes k with
            | some h => .inl (holdOn s 0 h)
            | none => .inr (⟨l, p, el, q⟩ :: ps)

/-- The checked lanes of an access; lanes that store wait for the pages that would break their order. -/
def lanePaths (i : Instr) (s : State) (k : AKind) (addr : Nat → Except (BitVec 8 × Word) (Word × Elem × Option Word)) (on : List Nat) :
    State ⊕ List LaneAcc :=
  match checkLanes i s k addr on with
  | .inl s => .inl s
  | .inr ps =>
    match lanesSpread s (ps.map fun a => a.path) with
    | some page => if k == .wr then .inl (waitFor (askPage s (curAcc s) page) .retry) else .inr ps
    | none => .inr ps

/-- A lane's value by VLDE (R317): integers and ternary as i32 or n32, floats and blocks as f32. -/
def laneLoad (s : State) (f : Fmt) (rm : Rm) (a : LaneAcc) : Fl Nat × State :=
  let (x, s) := readPath s (curAcc s) a.path a.el.bytes
  let (y, s) := match a.sc with | none => (0, s) | some q => readPath s (curAcc s) q 2
  (ldeValue f (elemRaw f a.el x) y rm 32, s)

/-- The address of a lane's element (R317). -/
def laneElem (base : Word) (f : Fmt) (k : Nat) (off : Int) (pi : Bool) (l : Nat) : Except (BitVec 8 × Word) (Word × Elem × Option Word) :=
  let el := elemAt f k (if pi then l else 16 * off + l)
  match addAddr base el.off with
  | none => .error (0x0D, 0)
  | some va =>
    if addrPart base % elemAlign f ≠ 0 then .error (0x04, va) else
    match el.scale with
    | none => .ok (va, el, none)
    | some so => match addAddr base so with | none => .error (0x0D, va) | some sv => .ok (va, el, some sv)

/-- The checks of VLDE and VSTE that concern the whole instruction: the tag and the new base. -/
def elemGroup (i : Instr) (s : State) (base : Reg) (off : BitVec 10) (pi : Bool) (go : Fmt → Nat → Word → State) : State :=
  let a := s.cur.rG base
  match tagOf a with
  | none => raise i s 0x0D a
  | some (f, k) =>
    if f.bits = 64 then raise i s 0x0D a
    else if !pi then go f k a
    else match elemDist f k (16 * off.toInt) with
      | none => raise i s 0x04 a
      | some d => match addAddr a d with | none => raise i s 0x0D a | some nb => go f k nb

/-- VLDE (R317). -/
def execVlde (o : OVlde) (s : State) : Out :=
  issue (.vlde o) s fun c =>
    elemGroup (.vlde o) s o.base o.off o.pi fun f k nb =>
      match lanePaths (.vlde o) s .rd (laneElem (c.rG o.base) f k o.off.toInt o.pi) (lanesOn c o.form.mask) with
      | .inl s => s
      | .inr ps =>
        let s := taintAcquire s (c.taintG o.base)
        let (v, fl, s) := ps.foldl (fun (v, fl, s) a =>
          let ((x, g), s) := laneLoad s f o.rm a
          (setLane v a.l x, fl ||| g, s)) (c.rV o.r, (0 : Word), s)
        done (.vlde o) (land (postInc s o.base o.pi nb) true o.r v fl)

/-- VSTE (R317). -/
def execVste (o : OVste) (s : State) : Out :=
  issue (.vste o) s fun c =>
    elemGroup (.vste o) s o.base o.off o.pi fun f k nb =>
      match lanePaths (.vste o) s .wr (fun l => (laneElem (c.rG o.base) f k o.off.toInt o.pi l).map fun (va, el, _) => (va, el, none))
          (lanesOn c o.form.mask) with
      | .inl s => s
      | .inr ps =>
        let s := taintAcquire s (c.taintG o.base)
        let (fl, s) := ps.foldl (fun (fl, s) a =>
          let (v, g) := steValue f (lane (c.rV o.r) a.l) 32 o.rm o.sat
          (fl ||| g, storeElem s a.path f a.el v)) ((0 : Word), s)
        let s := postInc s o.base o.pi nb
        done (.vste o) (s.setCur (s.cur.orFlags fl))

/-- Gather and scatter addresses (R318): base plus a signed 32-bit index. -/
def laneIndexed (base : Word) (x : Line) (l : Nat) : Except (BitVec 8 × Word) (Word × Elem × Option Word) :=
  match addAddr base (readInt (lane x l) 32 true) with
  | none => .error (0x0D, 0)
  | some va => .ok (va, ⟨0, 4, 0, none⟩, none)

/-- VLDX (R318). -/
def execVldx (o : OVldx) (s : State) : Out :=
  issue (.vldx o) s fun c =>
    match lanePaths (.vldx o) s .rd (laneIndexed (c.rG o.base) (c.rV o.x)) (lanesOn c o.form.mask) with
    | .inl s => s
    | .inr ps =>
      let s := taintAcquire s (c.taintG o.base || c.taintV o.x)
      let (v, s) := ps.foldl (fun (v, s) (a : LaneAcc) =>
        let (x, s) := readPath s (curAcc s) a.path 4
        (setLane v a.l x, s)) (c.rV o.r, s)
      done (.vldx o) (land s true o.r v)

/-- VSTX (R318): ascending lanes. -/
def execVstx (o : OVldx) (s : State) : Out :=
  issue (.vstx o) s fun c =>
    match lanePaths (.vstx o) s .wr (laneIndexed (c.rG o.base) (c.rV o.x)) (lanesOn c o.form.mask) with
    | .inl s => s
    | .inr ps =>
      let s := taintAcquire s (c.taintG o.base || c.taintV o.x)
      done (.vstx o) (ps.foldl (fun (s : State) a => writePath s (curAcc s) a.path 4 (lane (c.rV o.r) a.l)) s)

/-! Lane-private slices (R319, R76). -/

def sliceOffset (c : Ctx) (o : OVMem) (l : Nat) : Int := (lane (c.rV o.base) l : Nat) + (if o.pi then 0 else 4 * o.off.toInt)

/-- The fault of a lane's offset: slices that are held, then the order of R209. DEDUCED (log 33). -/
def sliceFault (c : Ctx) (o : OVMem) (l : Nat) : Option (BitVec 8) :=
  let x := sliceOffset c o l
  if !c.lane then some 0x07
  else if x % 4 ≠ 0 then some 0x04
  else if x < 0 || decide (2048 < x + 4) then some 0x05
  else none

/-- Slice addresses of a context's lanes. -/
def sliceAt (c : Ctx) (o : OVMem) (l : Nat) : Nat := 2048 * l + (sliceOffset c o l).toNat

/-- The advance of the active lanes of the base register, once the access has completed; the mask, a source, taints it too (R305). DESIGN CHOICE
(log 60): where the destination is the base, the advanced lanes remain. -/
def slicePost (c0 : Ctx) (o : OVMem) (on : List Nat) (c : Ctx) : Ctx :=
  if !o.pi then c else
  c.wV o.base (mapLanes on (c0.rV o.base) fun l => (wrapN ((lane (c0.rV o.base) l : Nat) + 4 * o.off.toInt) 32, 0)).1 
    (c0.taintV o.base || match o.form.mask with | some g => c0.taintG g | none => false)

/-- The checks of a lane-slice access, then `go` on its active lanes. A fault's packet names the lowest failing lane in INFO, and no VA, for a slice
has none. DESIGN CHOICE (log 60): R315's rule for the packet covers the groups 0x28 to 0x2A. -/
def execSlice (i : Instr) (o : OVMem) (s : State) (go : Ctx → List Nat → State) : Out :=
  issue i s fun c =>
    let on := lanesOn c o.form.mask
    match on.find? fun l => (sliceFault c o l).isSome with
    | some l => laneFault i s 0 l ((sliceFault c o l).getD 0)
    | none => if !c.lane then raise i s 0x07 else go c on

/-- VLSLD (R319): no long-latency producer; untainted. -/
def execVlsld (o : OVMem) (s : State) : Out :=
  execSlice (.vlsld o) o s fun c on =>
    let m := (s.core s.curAgent).lanes
    let v := (mapLanes on (c.rV o.r) fun l => (m.readNat (sliceAt c o l) 4, 0)).1
    s.setCur ((slicePost c o on (c.wV o.r v)).past (.vlsld o))

/-- VLSST (R319). -/
def execVlsst (o : OVMem) (s : State) : Out :=
  execSlice (.vlsst o) o s fun c on =>
    let s := s.modCore s.curAgent fun q =>
      { q with lanes := on.foldl (fun (m : Mem) l => m.writeNat (sliceAt c o l) 4 (lane (c.rV o.r) l)) q.lanes }
    s.setCur ((slicePost c o on c).past (.vlsst o))

/-! OPC 0x30 (R320 to R323). -/

def LFmt.fmt : LFmt → Fmt | .f32 => .f32 | .i32 => .i32 | .n32 => .n32
def LFmt.width : LFmt → Width | .n32 => .n32 | _ => .i32

/-- One lane of VSP. -/
def vspLane (op : VspOp) (f : LFmt) (rm : Rm) (sat : Bool) (x y z : Nat) : Fl Nat :=
  let dec := ffF32.decode
  let w := LFmt.width f
  let v (n : Nat) : Int := readInt n 32 w.signed
  match op, f with
  | .and, _ => (Nat.land x y, 0)
  | .or, _ => (Nat.lor x y, 0)
  | .xor, _ => (Nat.xor x y, 0)
  | .min, f => combine .min (LFmt.fmt f) x y
  | .max, f => combine .max (LFmt.fmt f) x y
  | .add, .f32 => fsum ffF32 (dec x) (dec y) rm sat
  | .sub, .f32 => fsum ffF32 (dec x) (dec y).neg rm sat
  | .mul, .f32 => fmulV ffF32 (dec x) (dec y) rm sat
  | .fma, .f32 => fmaV ffF32 (dec z) (dec x) (dec y) rm sat
  | .add, _ => intToInt (v x + v y) 32 w.signed sat
  | .sub, _ => intToInt (v x - v y) 32 w.signed sat
  | .mul, _ => (wrapN (v x * v y) 32, 0)
  | .fma, _ => (wrapN (v z + v x * v y) 32, 0)

/-- The local checks of VSP's pointers: 64-aligned, in the own-scratchpad window, within the claim (R321). The first fault. -/
def ownFault (s : State) : List Word → Option FInfo
  | [] => none
  | va :: t =>
    if addrPart va % 64 ≠ 0 then some { code := 0x04, va := va }
    else if addrPart va / 2 ^ 48 ≠ 0xF0 then some { code := 0x05, va := va }
    else match localCheck s (curAcc s) .at [(va, 64, 64)] with | some f => some f | none => ownFault s t

/-- VSP (R321), one 64-byte group at an issue; the instruction is complete with its last group, and between two groups it holds the vector unit
(R306). A mask register that is a pointer or the count is read again for each group, as pre-emption between groups would have it. DEDUCED
(log 60). -/
def execVsp (o : OVsp) (s : State) : Out :=
  issue (.vsp o) s fun c =>
    let n := (c.rG o.c).toNat
    if n = 0 then done (.vsp o) s else
    match ownFault s [c.rG o.a, c.rG o.b, c.rG o.d] with
    | some f => faultCur (.vsp o) s f
    | none =>
    let path (r : Reg) (k : AKind) := resolve s (curAcc s) (c.rG r) 64 64 k
    match path o.a .rd, path o.b .rd, path o.d .at with
    | .error e, _, _ => refuse (.vsp o) s (c.rG o.a) e
    | _, .error e, _ => refuse (.vsp o) s (c.rG o.b) e
    | _, _, .error e => refuse (.vsp o) s (c.rG o.d) e
    | .ok pa, .ok pb, .ok pd =>
      match pathHold s (curAcc s) pd 64 .wr with
      | some h => holdOn s 0 h
      | none =>
      let (x, s) := readPath s (curAcc s) pa 64
      let (y, s) := readPath s (curAcc s) pb 64
      let (z, s) := readPath s (curAcc s) pd 64
      let ln (v l : Nat) := lane (BitVec.ofNat 512 v) l
      let on := lanesOn c o.mask
      let (w, fl) := mapLanes on (BitVec.ofNat 512 z) fun l => vspLane o.op o.fmt o.rm o.sat (ln x l) (ln y l) (ln z l)
      let s := writeMask s (curAcc s) pd on w
      let adv (c : Ctx) (r : Reg) : Ctx := c.wG r (c.rG r + 64) (c.taintG r)
      let c := adv (adv (adv s.cur o.a) o.b) o.d
      let c := (c.wG o.c (c.rG o.c - 1) (c.taintG o.c)).orFlags fl
      s.setCur (if n = 1 then c.past (.vsp o) else { c with wait := none, vsp := true })

/-- VRED (R322): TreeCombine over the 16 lanes, inactive lanes at the identity. -/
def execVred (o : OVred) (s : State) : Out :=
  execAlu (.vred o) s o.d fun c =>
    let f := LFmt.fmt o.fmt
    let xs := (List.range 16).map fun l => if laneActive c o.mask l then lane (c.rV o.a) l else identity o.op f
    let r := treeCombine (combine o.op f) xs
    (BitVec.ofNat 64 (extend f r.1 64), r.2)

/-- A value to be ordered by VTOPK: greater first, NaN last, lower index first (R51). -/
def topLess (f : LFmt) (x y : Nat) : Bool :=
  match f with
  | .f32 =>
    let a := ffF32.decode x
    let b := ffF32.decode y
    if b.isNan then false else if a.isNan then true else a.lt b
  | .i32 => decide (readInt x 32 true < readInt y 32 true)
  | .n32 => decide (x < y)

/-- Insert an entry after every entry it does not exceed. -/
def topInsert (f : LFmt) (e : Nat × Nat) : List (Nat × Nat) → List (Nat × Nat)
  | [] => [e]
  | h :: t => if topLess f h.1 e.1 then e :: h :: t else h :: topInsert f e t

/-- The first `k` entries of a row in order. -/
def topK (f : LFmt) (k : Nat) (row : List Nat) : List (Nat × Nat) :=
  (row.zipIdx).foldl (fun acc e => (topInsert f e acc).take k) []

/-- An output pair: value, index, zero. -/
def topPair (f : LFmt) (e : Nat × Nat) : Nat :=
  let v := if f = .f32 && (ffF32.decode e.1).isNan then ffF32.nanBits else e.1
  v + e.2 * 2 ^ 32
def topPad (f : LFmt) : Nat :=
  (match f with | .f32 => ffF32.withSign true ffF32.infBits | .i32 => 2 ^ 31 | .n32 => 0) + 0xFFFF * 2 ^ 32

/-- A range of bytes in the own-scratchpad window and within the claim; an empty one needs only the window. -/
def ownRange (s : State) (va : Word) (n : Nat) : Bool :=
  !isRidge s.curAgent && addrPart va / 2 ^ 48 == 0xF0 && decide (addrPart va % 2 ^ 48 + n ≤ s.cur.claim * wayBytes)

/-- VTOPK (R323, R51), its checks in the order of R209. -/
def execVtopk (o : OVtopk) (s : State) : Out :=
  issue (.vtopk o) s fun c =>
    let i : Instr := .vtopk o
    let row := c.rG o.a
    let out := c.rG o.e
    let n := (c.rG o.b).toNat
    let k := (c.rG o.c).toNat
    let ra := addrPart row % 2 ^ 48
    let oa := addrPart out % 2 ^ 48
    if addrPart row % 4 ≠ 0 then raise i s 0x04 row
    else if !ownRange s row (n * 4) then raise i s 0x05 row
    else if addrPart out % 8 ≠ 0 then raise i s 0x04 out
    else if !ownRange s out (k * 8) then raise i s 0x05 out
    else if 65535 < n || 256 < k then raise i s 0x02
    else if n ≠ 0 && k ≠ 0 && decide (ra < oa + k * 8) && decide (oa < ra + n * 4) then raise i s 0x02
    else
      match (List.range n).find? fun j => s.spPoison.contains (s.curAgent, (ra + 4 * j) / 64) with
      | some j => faultCur i s { code := 0x1B, sub := 1, va := row + BitVec.ofNat 64 (4 * j) }
      | none =>
      if k ≠ 0 && behindHeld s (curAcc s) (.scratch s.curAgent oa) .wr then waitFor s .retry else
      if (List.range k).any fun j => portBusy s s.curAgent (oa + 8 * j) 8 then waitPort s s.curAgent else
      let m := (s.core s.curAgent).spad
      let best := topK o.fmt k ((List.range n).map fun j => m.readNat (ra + 4 * j) 4)
      let s := (List.range k).foldl (fun (s : State) j =>
        spWrite s s.curAgent (oa + 8 * j) 8 (match best[j]? with | some e => topPair o.fmt e | none => topPad o.fmt)) s
      s.setCur ((s.cur.wG o.d (BitVec.ofNat 64 (min k n)) (srcTaint i c)).past i)

end Sys2Proof.Machine
end

