-- ==== Sys2Proof/Machine/Dispatch.lean ====
section
/-! DEFINITION. The meaning of every row of the opcode table: one direct call each. -/

namespace Sys2Proof.Machine

def exec (i : Instr) (s : State) : Host.Outcome State Fault Refusal :=
  match i with
  | .add o => Sys2Proof.Machine.execAdd o s
  | .sub o => Sys2Proof.Machine.execSub o s
  | .and o => Sys2Proof.Machine.execAnd o s
  | .or o => Sys2Proof.Machine.execOr o s
  | .xor o => Sys2Proof.Machine.execXor o s
  | .andn o => Sys2Proof.Machine.execAndn o s
  | .shl o => Sys2Proof.Machine.execShl o s
  | .shr o => Sys2Proof.Machine.execShr o s
  | .sra o => Sys2Proof.Machine.execSra o s
  | .min o => Sys2Proof.Machine.execMin o s
  | .max o => Sys2Proof.Machine.execMax o s
  | .clz o => Sys2Proof.Machine.execClz o s
  | .ctz o => Sys2Proof.Machine.execCtz o s
  | .popc o => Sys2Proof.Machine.execPopc o s
  | .mov o => Sys2Proof.Machine.execMov o s
  | .addi o => Sys2Proof.Machine.execAddi o s
  | .addiLit o => Sys2Proof.Machine.execAddiLit o s
  | .adda o => Sys2Proof.Machine.execAdda o s
  | .suba o => Sys2Proof.Machine.execSuba o s
  | .tags o => Sys2Proof.Machine.execTags o s
  | .tagg o => Sys2Proof.Machine.execTagg o s
  | .mul o => Sys2Proof.Machine.execMul o s
  | .mulh o => Sys2Proof.Machine.execMulh o s
  | .div o => Sys2Proof.Machine.execDiv o s
  | .rem o => Sys2Proof.Machine.execRem o s
  | .bfxu o => Sys2Proof.Machine.execBfxu o s
  | .bfxs o => Sys2Proof.Machine.execBfxs o s
  | .bfi o => Sys2Proof.Machine.execBfi o s
  | .shli o => Sys2Proof.Machine.execShli o s
  | .shri o => Sys2Proof.Machine.execShri o s
  | .srai o => Sys2Proof.Machine.execSrai o s
  | .rori o => Sys2Proof.Machine.execRori o s
  | .movi o => Sys2Proof.Machine.execMovi o s
  | .moviLit o => Sys2Proof.Machine.execMoviLit o s
  | .cmpeq o => Sys2Proof.Machine.execCmpeq o s
  | .cmpne o => Sys2Proof.Machine.execCmpne o s
  | .cmplt o => Sys2Proof.Machine.execCmplt o s
  | .cmple o => Sys2Proof.Machine.execCmple o s
  | .sel o => Sys2Proof.Machine.execSel o s
  | .fadd o => Sys2Proof.Machine.execFadd o s
  | .fsub o => Sys2Proof.Machine.execFsub o s
  | .fmul o => Sys2Proof.Machine.execFmul o s
  | .fma o => Sys2Proof.Machine.execFma o s
  | .fmin o => Sys2Proof.Machine.execFmin o s
  | .fmax o => Sys2Proof.Machine.execFmax o s
  | .fneg o => Sys2Proof.Machine.execFneg o s
  | .fcmpeq o => Sys2Proof.Machine.execFcmpeq o s
  | .fcmplt o => Sys2Proof.Machine.execFcmplt o s
  | .fcmple o => Sys2Proof.Machine.execFcmple o s
  | .cvt o => Sys2Proof.Machine.execCvt o s
  | .beq o => Sys2Proof.Machine.execBeq o s
  | .bne o => Sys2Proof.Machine.execBne o s
  | .blt o => Sys2Proof.Machine.execBlt o s
  | .bge o => Sys2Proof.Machine.execBge o s
  | .bltu o => Sys2Proof.Machine.execBltu o s
  | .bgeu o => Sys2Proof.Machine.execBgeu o s
  | .jmp o => Sys2Proof.Machine.execJmp o s
  | .call o => Sys2Proof.Machine.execCall o s
  | .jmpi o => Sys2Proof.Machine.execJmpi o s
  | .calli o => Sys2Proof.Machine.execCalli o s
  | .ret => Sys2Proof.Machine.execRet s
  | .enter o => Sys2Proof.Machine.execEnter o s
  | .leave => Sys2Proof.Machine.execLeave s
  | .rdsr o => Sys2Proof.Machine.execRdsr o s
  | .probe o => Sys2Proof.Machine.execProbe o s
  | .brk o => Sys2Proof.Machine.execBrk o s
  | .nop => Sys2Proof.Machine.execNop s
  | .ld o => Sys2Proof.Machine.execLd o s
  | .st o => Sys2Proof.Machine.execSt o s
  | .lde o => Sys2Proof.Machine.execLde o s
  | .ste o => Sys2Proof.Machine.execSte o s
  | .ldAcq o => Sys2Proof.Machine.execLdAcq o s
  | .ldc o => Sys2Proof.Machine.execLdc o s
  | .lds o => Sys2Proof.Machine.execLds o s
  | .stRel o => Sys2Proof.Machine.execStRel o s
  | .amo o => Sys2Proof.Machine.execAmo o s
  | .fence o => Sys2Proof.Machine.execFence o s
  | .spresize o => Sys2Proof.Machine.execSpresize o s
  | .flushs o => Sys2Proof.Machine.execFlushs o s
  | .invs o => Sys2Proof.Machine.execInvs o s
  | .pref o => Sys2Proof.Machine.execPref o s
  | .send o => Sys2Proof.Machine.execSend o s
  | .tsend o => Sys2Proof.Machine.execTsend o s
  | .recv o => Sys2Proof.Machine.execRecv o s
  | .rcancel o => Sys2Proof.Machine.execRcancel o s
  | .chwr o => Sys2Proof.Machine.execChwr o s
  | .chmsk o => Sys2Proof.Machine.execChmsk o s
  | .chrd o => Sys2Proof.Machine.execChrd o s
  | .spawn o => Sys2Proof.Machine.execSpawn o s
  | .join => Sys2Proof.Machine.execJoin s
  | .halt => Sys2Proof.Machine.execHalt s
  | .haltr o => Sys2Proof.Machine.execHaltr o s
  | .yield => Sys2Proof.Machine.execYield s
  | .freg o => Sys2Proof.Machine.execFreg o s
  | .fres o => Sys2Proof.Machine.execFres o s
  | .fcancel o => Sys2Proof.Machine.execFcancel o s
  | .freset o => Sys2Proof.Machine.execFreset o s
  | .fwait o => Sys2Proof.Machine.execFwait o s
  | .barcfg o => Sys2Proof.Machine.execBarcfg o s
  | .bar o => Sys2Proof.Machine.execBar o s
  | .bararv o => Sys2Proof.Machine.execBararv o s
  | .bardrop o => Sys2Proof.Machine.execBardrop o s
  | .barwt o => Sys2Proof.Machine.execBarwt o s
  | .barrd o => Sys2Proof.Machine.execBarrd o s
  | .qpush o => Sys2Proof.Machine.execQpush o s
  | .qpop o => Sys2Proof.Machine.execQpop o s
  | .qdwr o => Sys2Proof.Machine.execQdwr o s
  | .qdrd o => Sys2Proof.Machine.execQdrd o s
  | .permitFree o => Sys2Proof.Machine.execPermitFree o s
  | .permitStore o => Sys2Proof.Machine.execPermitStore o s
  | .wlinit o => Sys2Proof.Machine.execWlinit o s
  | .wlpush o => Sys2Proof.Machine.execWlpush o s
  | .wlins o => Sys2Proof.Machine.execWlins o s
  | .wlpopb o => Sys2Proof.Machine.execWlpopb o s
  | .wlstat o => Sys2Proof.Machine.execWlstat o s
  | .wlfree o => Sys2Proof.Machine.execWlfree o s
  | .subscr o => Sys2Proof.Machine.execSubscr o s
  | .unsub o => Sys2Proof.Machine.execUnsub o s
  | .substat o => Sys2Proof.Machine.execSubstat o s
  | .vadd o => Sys2Proof.Machine.execVadd o s
  | .vsub o => Sys2Proof.Machine.execVsub o s
  | .vand o => Sys2Proof.Machine.execVand o s
  | .vor o => Sys2Proof.Machine.execVor o s
  | .vxor o => Sys2Proof.Machine.execVxor o s
  | .vandn o => Sys2Proof.Machine.execVandn o s
  | .vshl o => Sys2Proof.Machine.execVshl o s
  | .vshr o => Sys2Proof.Machine.execVshr o s
  | .vsra o => Sys2Proof.Machine.execVsra o s
  | .vmin o => Sys2Proof.Machine.execVmin o s
  | .vmax o => Sys2Proof.Machine.execVmax o s
  | .vfadd o => Sys2Proof.Machine.execVfadd o s
  | .vfsub o => Sys2Proof.Machine.execVfsub o s
  | .vfmul o => Sys2Proof.Machine.execVfmul o s
  | .vfma o => Sys2Proof.Machine.execVfma o s
  | .vfmin o => Sys2Proof.Machine.execVfmin o s
  | .vfmax o => Sys2Proof.Machine.execVfmax o s
  | .vfneg o => Sys2Proof.Machine.execVfneg o s
  | .vrcp o => Sys2Proof.Machine.execVrcp o s
  | .vrsq o => Sys2Proof.Machine.execVrsq o s
  | .vcmpeq o => Sys2Proof.Machine.execVcmpeq o s
  | .vcmpne o => Sys2Proof.Machine.execVcmpne o s
  | .vcmplt o => Sys2Proof.Machine.execVcmplt o s
  | .vcmple o => Sys2Proof.Machine.execVcmple o s
  | .vfcmpeq o => Sys2Proof.Machine.execVfcmpeq o s
  | .vfcmplt o => Sys2Proof.Machine.execVfcmplt o s
  | .vfcmple o => Sys2Proof.Machine.execVfcmple o s
  | .vsel o => Sys2Proof.Machine.execVsel o s
  | .vcvt o => Sys2Proof.Machine.execVcvt o s
  | .vmov o => Sys2Proof.Machine.execVmov o s
  | .vbcast o => Sys2Proof.Machine.execVbcast o s
  | .vins o => Sys2Proof.Machine.execVins o s
  | .vext o => Sys2Proof.Machine.execVext o s
  | .viota o => Sys2Proof.Machine.execViota o s
  | .vshuf o => Sys2Proof.Machine.execVshuf o s
  | .vmul o => Sys2Proof.Machine.execVmul o s
  | .vmulh o => Sys2Proof.Machine.execVmulh o s
  | .vdiv o => Sys2Proof.Machine.execVdiv o s
  | .vrem o => Sys2Proof.Machine.execVrem o s
  | .vshli o => Sys2Proof.Machine.execVshli o s
  | .vshri o => Sys2Proof.Machine.execVshri o s
  | .vsrai o => Sys2Proof.Machine.execVsrai o s
  | .vld o => Sys2Proof.Machine.execVld o s
  | .vst o => Sys2Proof.Machine.execVst o s
  | .vlde o => Sys2Proof.Machine.execVlde o s
  | .vste o => Sys2Proof.Machine.execVste o s
  | .vldx o => Sys2Proof.Machine.execVldx o s
  | .vstx o => Sys2Proof.Machine.execVstx o s
  | .vlsld o => Sys2Proof.Machine.execVlsld o s
  | .vlsst o => Sys2Proof.Machine.execVlsst o s
  | .vsp o => Sys2Proof.Machine.execVsp o s
  | .vred o => Sys2Proof.Machine.execVred o s
  | .vtopk o => Sys2Proof.Machine.execVtopk o s
  | .mxlease o => Sys2Proof.Machine.execMxlease o s
  | .mxrel => Sys2Proof.Machine.execMxrel s
  | .tcfg o => Sys2Proof.Machine.execTcfg o s
  | .trel o => Sys2Proof.Machine.execTrel o s
  | .mxwait o => Sys2Proof.Machine.execMxwait o s
  | .mxlda o => Sys2Proof.Machine.execMxlda o s
  | .mxldb o => Sys2Proof.Machine.execMxldb o s
  | .mxmul o => Sys2Proof.Machine.execMxmul o s
  | .mxtern o => Sys2Proof.Machine.execMxtern o s
  | .mxdrain o => Sys2Proof.Machine.execMxdrain o s
  | .mxstat o => Sys2Proof.Machine.execMxstat o s
  | .nbcfg o => Sys2Proof.Machine.execNbcfg o s
  | .nbmv o => Sys2Proof.Machine.execNbmv o s
  | .nbstat o => Sys2Proof.Machine.execNbstat o s
  | .cpy o => Sys2Proof.Machine.execCpy o s
  | .cpyt o => Sys2Proof.Machine.execCpyt o s
  | .syncwait o => Sys2Proof.Machine.execSyncwait o s
  | .syncadd o => Sys2Proof.Machine.execSyncadd o s
  | .gather o => Sys2Proof.Machine.execGather o s
  | .twrun o => Sys2Proof.Machine.execTwrun o s
  | .twstop => Sys2Proof.Machine.execTwstop s
  | .twstat o => Sys2Proof.Machine.execTwstat o s
  | .cestat o => Sys2Proof.Machine.execCestat o s
  | .gvar o => Sys2Proof.Machine.execGvar o s
  | .gfac o => Sys2Proof.Machine.execGfac o s
  | .glink o => Sys2Proof.Machine.execGlink o s
  | .gfmsg o => Sys2Proof.Machine.execGfmsg o s
  | .gdamp o => Sys2Proof.Machine.execGdamp o s
  | .gtol o => Sys2Proof.Machine.execGtol o s
  | .grelin o => Sys2Proof.Machine.execGrelin o s
  | .gread o => Sys2Proof.Machine.execGread o s
  | .gsnap o => Sys2Proof.Machine.execGsnap o s
  | .gcvg o => Sys2Proof.Machine.execGcvg o s
  | .gfree o => Sys2Proof.Machine.execGfree o s
  | .launch o => Sys2Proof.Machine.execLaunch o s
  | .coll o => Sys2Proof.Machine.execColl o s
  | .resume o => Sys2Proof.Machine.execResume o s
  | .killt => Sys2Proof.Machine.execKillt s
  | .killk o => Sys2Proof.Machine.execKillk o s
  | .dwrd o => Sys2Proof.Machine.execDwrd o s
  | .dwwr o => Sys2Proof.Machine.execDwwr o s
  | .sysrd o => Sys2Proof.Machine.execSysrd o s
  | .syswr o => Sys2Proof.Machine.execSyswr o s
  | .mext o => Sys2Proof.Machine.execMext o s
  | .tlbsync o => Sys2Proof.Machine.execTlbsync o s
  | .preempt o => Sys2Proof.Machine.execPreempt o s
  | .restore o => Sys2Proof.Machine.execRestore o s
  | .migrate o => Sys2Proof.Machine.execMigrate o s
  | .ckptFull o => Sys2Proof.Machine.execCkptFull o s
  | .ckptIncremental o => Sys2Proof.Machine.execCkptIncremental o s
  | .ckptRestore o => Sys2Proof.Machine.execCkptRestore o s
  | .ckptResume o => Sys2Proof.Machine.execCkptResume o s
  | .trap o => Sys2Proof.Machine.execTrap o s
  | .hgtrig o => Sys2Proof.Machine.execHgtrig o s
  | .hgrel o => Sys2Proof.Machine.execHgrel o s
  | .hgstat o => Sys2Proof.Machine.execHgstat o s
  | .dspcfgWrite => Sys2Proof.Machine.execDspcfgWrite s
  | .sksizeWrite => Sys2Proof.Machine.execSksizeWrite s
  | .thbootWrite => Sys2Proof.Machine.execThbootWrite s
  | .fteWrite => Sys2Proof.Machine.execFteWrite s
  | .ktWrite => Sys2Proof.Machine.execKtWrite s
  | .wsetWrite => Sys2Proof.Machine.execWsetWrite s
  | .wpWrite => Sys2Proof.Machine.execWpWrite s
  | .mrgnWrite => Sys2Proof.Machine.execMrgnWrite s
  | .worldMapWrite => Sys2Proof.Machine.execWorldMapWrite s
  | .traptWrite => Sys2Proof.Machine.execTraptWrite s
  | .messageArrive => Sys2Proof.Machine.execMessageArrive s
  | .messageReply => Sys2Proof.Machine.execMessageReply s
  | .contextFreeNotice => Sys2Proof.Machine.execContextFreeNotice s
  | .resendTimerExpire => Sys2Proof.Machine.execResendTimerExpire s
  | .withdrawal => Sys2Proof.Machine.execWithdrawal s
  | .taskStart => Sys2Proof.Machine.execTaskStart s
  | .launchPlace => Sys2Proof.Machine.execLaunchPlace s
  | .loadLand => Sys2Proof.Machine.execLoadLand s
  | .accessAccept => Sys2Proof.Machine.execAccessAccept s
  | .faultFreeze => Sys2Proof.Machine.execFaultFreeze s
  | .faultPacketArrive => Sys2Proof.Machine.execFaultPacketArrive s
  | .pageFaultPost => Sys2Proof.Machine.execPageFaultPost s
  | .pageFaultReply => Sys2Proof.Machine.execPageFaultReply s
  | .directoryRequest => Sys2Proof.Machine.execDirectoryRequest s
  | .writebackApply => Sys2Proof.Machine.execWritebackApply s
  | .pageCopyRequest => Sys2Proof.Machine.execPageCopyRequest s
  | .ownershipRequest => Sys2Proof.Machine.execOwnershipRequest s
  | .pageInvalidate => Sys2Proof.Machine.execPageInvalidate s
  | .ownershipGrant => Sys2Proof.Machine.execOwnershipGrant s
  | .atomicMoved => Sys2Proof.Machine.execAtomicMoved s
  | .subscriptionUpdateSend => Sys2Proof.Machine.execSubscriptionUpdateSend s
  | .subscriptionUpdateApply => Sys2Proof.Machine.execSubscriptionUpdateApply s
  | .subscriptionAck => Sys2Proof.Machine.execSubscriptionAck s
  | .subscriptionTeardown => Sys2Proof.Machine.execSubscriptionTeardown s
  | .gmuArrive => Sys2Proof.Machine.execGmuArrive s
  | .gmuBind => Sys2Proof.Machine.execGmuBind s
  | .gmuUnbind => Sys2Proof.Machine.execGmuUnbind s
  | .barrierSweep => Sys2Proof.Machine.execBarrierSweep s
  | .collArrive => Sys2Proof.Machine.execCollArrive s
  | .collTimerExpire => Sys2Proof.Machine.execCollTimerExpire s
  | .boundedWaitExpire => Sys2Proof.Machine.execBoundedWaitExpire s
  | .leaseGrantExpire => Sys2Proof.Machine.execLeaseGrantExpire s
  | .stagingLanded => Sys2Proof.Machine.execStagingLanded s
  | .matrixCommandComplete => Sys2Proof.Machine.execMatrixCommandComplete s
  | .drainWriteComplete => Sys2Proof.Machine.execDrainWriteComplete s
  | .copyPieceLanded => Sys2Proof.Machine.execCopyPieceLanded s
  | .copyComplete => Sys2Proof.Machine.execCopyComplete s
  | .engineFault => Sys2Proof.Machine.execEngineFault s
  | .gatherBatchLanded => Sys2Proof.Machine.execGatherBatchLanded s
  | .tileLoad => Sys2Proof.Machine.execTileLoad s
  | .storePermitAck => Sys2Proof.Machine.execStorePermitAck s
  | .nbcfgPlaced => Sys2Proof.Machine.execNbcfgPlaced s
  | .nbmvComplete => Sys2Proof.Machine.execNbmvComplete s
  | .preemptAck => Sys2Proof.Machine.execPreemptAck s
  | .powerInterval => Sys2Proof.Machine.execPowerInterval s
  | .arraySelfTest => Sys2Proof.Machine.execArraySelfTest s
  | .eccCorrectable => Sys2Proof.Machine.execEccCorrectable s
  | .poisonMark => Sys2Proof.Machine.execPoisonMark s
  | .dieStop => Sys2Proof.Machine.execDieStop s
  | .thermalWarning => Sys2Proof.Machine.execThermalWarning s
  | .thermalStop => Sys2Proof.Machine.execThermalStop s
  | .twillLaneFail => Sys2Proof.Machine.execTwillLaneFail s
  | .remoteTimeout => Sys2Proof.Machine.execRemoteTimeout s
  | .apertureWriteTimeout => Sys2Proof.Machine.execApertureWriteTimeout s
  | .hostMessageArrive => Sys2Proof.Machine.execHostMessageArrive s
  | .hostLaunch => Sys2Proof.Machine.execHostLaunch s
  | .hostMap => Sys2Proof.Machine.execHostMap s
  | .hostKinst => Sys2Proof.Machine.execHostKinst s
  | .hostCkpt => Sys2Proof.Machine.execHostCkpt s
  | .hostAttest => Sys2Proof.Machine.execHostAttest s
  | .hostHgtrig => Sys2Proof.Machine.execHostHgtrig s
  | .hostHgrel => Sys2Proof.Machine.execHostHgrel s
  | .mgmtCtrlRelease => Sys2Proof.Machine.execMgmtCtrlRelease s
  | .mgmtCtrlHold => Sys2Proof.Machine.execMgmtCtrlHold s
  | .mgmtWrite => Sys2Proof.Machine.execMgmtWrite s
  | .auxPowerUp => Sys2Proof.Machine.execAuxPowerUp s
  | .mainPowerLoss => Sys2Proof.Machine.execMainPowerLoss s
  | .eviction => Sys2Proof.Machine.execEviction s
  | .frameMigration => Sys2Proof.Machine.execFrameMigration s
  | .thermalWarningClear => Sys2Proof.Machine.execThermalWarningClear s
  | .mainInputReturn => Sys2Proof.Machine.execMainInputReturn s

end Sys2Proof.Machine
end

