-- ==== Sys2Proof/Machine/Select.lean ====
section
/-! DEFINITION. The context that issues (R163): the order in which a core tries its contexts, the try, the core whose turn it is; and the
moments at which limits and timers end (R15, R165, R184, R288). -/

namespace Sys2Proof.Machine

/-! One core (R163). -/

/-- The contexts of a core in ascending order from the one after `last`. -/
def rotation (last : Nat) : List Nat := (List.range 8).map fun i => (last + 1 + i) % 8

/-- A list with the elements that `p` holds for first. -/
def firstBy (p : Nat → Bool) (l : List Nat) : List Nat := l.filter p ++ l.filter fun k => !p k

/-- The registers that a context's next instruction reads. -/
def nextReads (s : State) (a k : Nat) : List (Bool × Reg) :=
  match nextInstr { s with curAgent := a, curCtx := k } with
  | .run i _ => (i.roles.filter fun r => r.src).map fun r => (r.vec, r.reg)
  | .stop _ => []

/-- The next instruction reads a register whose value may still be on its way (R254, R306). -/
def mayBeLate (s : State) (a k : Nat) : Bool := let w := (s.ctx a k).recent; !w.isEmpty && (nextReads s a k).any fun r => w.contains r

/-- A context has issued YIELD and nothing since. -/
def hasYielded (s : State) (a k : Nat) : Bool := (s.ctx a k).yielded.contains k

/-- Those that are still to issue before a context that has yielded come before it, and all others after it (R296). -/
def yieldOrder (s : State) (a : Nat) (l : List Nat) (y : Nat) : List Nat :=
  let first (k : Nat) : Bool := (s.ctx a y).yielded.contains k && k != y
  l.filter first ++ y :: l.filter fun k => !first k && k != y

/-- The order in which a core tries its contexts: those that did not jump in the last cycle (R254), those at a base of 20 to 23, the rotation; and a
YIELD's order above these. Of the contexts in `late` those whose next instruction reads a result of their last one are left out (R254). -/
def turnOrder (s : State) (a : Nat) (late : List Nat) : List Nat :=
  if !coreRuns s a then [] else
  let able := (rotation (s.core a).lastCtx).filter fun k => ctxAble s a k && !(late.contains k && mayBeLate s a k)
  let l := firstBy (fun k => !(s.ctx a k).jumped) (firstBy (fun k => decide (20 ≤ (s.ctx a k).base.toNat)) able)
  (l.filter (hasYielded s a)).foldl (yieldOrder s a) l

/-- Another context of the core is between two groups of a VSP (R306). -/
def vectorBusy (s : State) (a k : Nat) : Bool :=
  (List.range 8).any fun j => j != k && (let c := s.ctx a j; c.vsp && c.st == .live)

/-- Instructions of the vector unit: groups 0x20 to 0x2B and 0x30. -/
def Instr.vectorUnit (i : Instr) : Bool :=
  let opc := bitsOf ((encode i).headD 0) 7 2
  (decide (0x20 ≤ opc) && decide (opc ≤ 0x2B)) || opc == 0x30

/-- What a context's last issue left for its next one alone. -/
def Ctx.turned (c : Ctx) : Ctx := { c with jumped := false, vsp := false, recent := [], yielded := [] }

/-- A context tries its next instruction. -/
def attempt (s : State) (a k : Nat) : Out :=
  let s := { s with curAgent := a, curCtx := k }.modCtx a k Ctx.turned
  match nextInstr s with
  | .stop s => answer s
  | .run i s => if vectorBusy s a k && Instr.vectorUnit i then answer (waitFor s .retry) else exec i s

/-- A try that met an empty source or a stall, and so gave up the slot at once. -/
def stalledAt (s : State) (a k : Nat) : Bool := let c := s.ctx a k; c.wait.isSome && c.canIssue

/-- Context `k` has issued: the rotation goes on from it, those that yielded no longer wait for it, and the cycle a jump costs is over. -/
def notedIssue (o : Core) (k : Nat) : Core :=
  let out (c : Ctx) : Ctx := { c with yielded := c.yielded.erase k, jumped := false }
  { o with lastCtx := k, ctxs := vset (o.ctxs.map out) k (vget o.ctxs k Ctx.reset) }

/-- A context that has issued is noted at its core, and waits at no port. -/
def noted (s : State) (a k : Nat) : State := { s with portQ := s.portQ.filter fun q => q.2 != PortUser.ctx a k }.modCore a fun o => notedIssue o k

/-- Contexts try in order until one issues; one that stalls is as before, but for its wait. -/
def tryIssue (a : Nat) : List Nat → State → Out
  | [], s => .next s
  | k :: t, s =>
    match attempt s a k with
    | .next s' => if stalledAt s' a k then tryIssue a t (s'.modCtx a k fun c => { c with yielded := (s.ctx a k).yielded }) else .next (noted s' a k)
    | r => r

/-- The next core that has a context to try, after the one that had the last turn. -/
def pickCore (s : State) : Option Nat :=
  let go (p : Nat → Bool) := (s.cores.findP fun a _ => p a && !(turnOrder s a []).isEmpty).map fun q => q.1
  match go fun a => decide (s.lastCore < a) with
  | some a => some a
  | none => go fun a => decide (a ≤ s.lastCore)

/-! Limits and timers end at their cycle (R15). -/

/-- The TIME at which a pending event is due: the end of a bounded wait, of a collective's timer, of a lease's grant, of the 2^24 cycles of an
access or a write that no path carries (R411, R414). A wait whose grant has come, and a caller whose instance ends at the same cycle, are left to those. -/
def deadline (s : State) (e : Ev) : Option Nat :=
  match e with
  | .boundedWaitExpire a k =>
    let c := s.ctx a k
    match c.wait with
    | none => none
    | some w =>
      let held : Bool := match w.what with
        | .lease => (s.clu (agentClu a)).lease.holder == some (a, k)
        | .coll d unit id _ _ _ _ _ _ _ =>
          (match (s.die d).colls.find? fun y => y.unit == unit && y.kid == c.kid && y.id == id with | some y => timerEnds y w c.task | none => false)
        | _ => false
      if c.st != .live || w.limit = 0 || held then none else some (w.since + w.limit)
  | .collTimerExpire d unit kid id =>
    (match (s.die d).colls.find? fun c => c.unit == unit && c.kid == kid && c.id == id with
    | some c => if c.limit = 0 then none else some (c.opened + c.limit)
    | none => none)
  | .remoteTimeout a k =>
    let sent := (firstUnacked s a k false).map fun u => u.since + 2 ^ 24
    (match s.ctx a k with
    | { st := .live, wait := some ⟨.remote t, _, _⟩, .. } => some (min (t + 2 ^ 24) (sent.getD (t + 2 ^ 24)))
    | _ => sent)
  | .apertureWriteTimeout a k => (firstUnacked s a k true).map fun u => u.since + 2 ^ 24
  | .leaseGrantExpire k => let l := (s.clu k).lease; if l.holder.isSome then some (l.since + 65536) else none
  | _ => none

/-- The first pending event whose moment has come. -/
def dueEvent (s : State) : Option Nat :=
  s.pending.findIdx? fun e => match deadline s e with | some t => decide (t ≤ s.now) | none => false

/-- Of `n` cycles in which nothing happens, those up to the next moment at which something is due. -/
def idleCycles (s : State) (n : Nat) : Nat := (s.pending.filterMap (deadline s)).foldl (fun m t => min m (t - s.now)) n

end Sys2Proof.Machine
end

