-- ==== Sys2Proof/Machine/Step.lean ====
section
/-! DEFINITION. One step of the machine: which agent moves (log 1), what it does, and the clock (log 2); and the placing of one instruction
where the next step fetches it. -/

namespace Sys2Proof.Machine

/-- Packets from one source to one ridge core arrive in the order they were sent (R213, R216); replies to the messages of one flow arrive in the
order in which the receiver decided (log 49). -/
def sameStream (e f : Ev) : Bool :=
  match e, f with
  | .faultPacketArrive m, .faultPacketArrive n => srcAgent m == srcAgent n && m.dst == n.dst
  | .messageReply m _, .messageReply n _ => srcAgent m == srcAgent n && sameFlow m n
  | _, _ => false

/-- An event that did not happen waits again, before those that must follow it. -/
def requeue (e : Ev) (l : List Ev) : List Ev := (l.filter fun f => !sameStream e f) ++ e :: l.filter fun f => sameStream e f

/-- The first pending event that event `k` must not pass: itself, or an earlier one of its stream. -/
def streamHead (l : List Ev) (k : Nat) : Nat :=
  match l[k]? with | some e => (l.findIdx? fun f => sameStream e f).getD k | none => k

/-- After `exec`, the clock has moved by `n` cycles and the event in hand is put away; one that did not happen waits again. -/
def settle (n : Nat) (s : State) : State :=
  let s := match s.ev with | none => s | some e => { s with ev := none, pending := requeue e s.pending }
  if s.mgmt.held then s else { s with time := s.time + BitVec.ofNat 64 n }

/-- Settle the next state of an answer. -/
def settled (n : Nat) (o : Out) : Out :=
  match o with | .next s => .next (settle n s) | .fault f => .fault f | .refused r => .refused r

/-- A core has a cycle: its contexts try in their order, without those whose results are `late`. -/
def issueStep (s : State) (a : Nat) (late : List Nat) : Out :=
  let s := { s with lastCore := a }
  settled 1 (tryIssue a (turnOrder s a late) s)

/-- A caused event happens, or waits again. -/
def eventStep (s : State) (e : Ev) : Out := settled 1 (exec e.instr { s with ev := some e })

/-- An event from outside or by timing happens now, or is lost. -/
def envStep (s : State) (e : Ev) : Out :=
  match exec e.instr { s with ev := some e } with
  | .next s => .next (settle 1 { s with ev := none })
  | r => r

/-- Event `k` of the pending ones, or the one before it in its stream. -/
def pendingStep (s : State) (k : Nat) : Out :=
  let k := streamHead s.pending k
  match s.pending[k]? with
  | none => .next (settle 1 s)
  | some e => eventStep { s with pending := s.pending.eraseIdx k } e

/-- One choice. -/
def choiceStep (s : State) (c : Choice) : Out :=
  match c with
  | .issue a late => issueStep s a late
  | .event k => pendingStep s k
  | .env e => envStep s e
  | .outside o => .next (settle 1 (outsideStep s o))
  | .idle n => .next (settle (idleCycles s n) s)

/-- The default order: issuing and pending events take turns. -/
def defaultChoice (s : State) : Choice :=
  let ev : Choice := if s.pending.isEmpty then .idle 1 else .event 0
  if s.turn && !s.pending.isEmpty then ev
  else match pickCore s with | some a => .issue a [] | none => ev

/-- A limit or a timer that ends now, in no time of its own. -/
def dueStep (s : State) (k : Nat) : Out :=
  match s.pending[k]? with
  | none => .next s
  | some e => settled 0 (exec e.instr { s with pending := s.pending.eraseIdx k, ev := some e })

/-- One step. -/
def step (s : State) : Out :=
  match dueEvent s with
  | some k => dueStep s k
  | none =>
    match s.agenda with
    | c :: t => choiceStep { s with agenda := t } c
    | [] => choiceStep { s with turn := !s.turn } (defaultChoice s)

/-! One instruction where the next step fetches it. -/

/-- Its address, virtual, intermediate and physical. -/
def placeAt : Nat := 0x10000
/-- A root entry for the table at 0x1000, and there one leaf of 1 GiB, SEQ, readable, writable and executable (R198). -/
def placeRoot : Nat := 2 ^ 63 + 1 * 2 ^ 12
def placeLeaf : Nat := 2 ^ 63 + 2 ^ 62 + 2 ^ 57 + 2 ^ 56 + 2 ^ 55

/-- The privileged context that runs it: every name open, window 0 over the device's own addresses. -/
def placeCtx (dev : Nat) : Ctx :=
  { Ctx.reset with
      st := .live, pc := BitVec.ofNat 64 placeAt, priv := true, base := 20, gOpen := 32, vOpen := 32
      win := vset (Vector.replicate 4 Window.reset) 0 ⟨BitVec.ofNat 64 (64 + 46), BitVec.ofNat 64 (dev * 2 ^ 46 + 7)⟩ }

/-- `s` with the instruction of `nbits` bits `w` where the next step fetches: in memory, below page tables that map it, at the PC of
context 0 of the secure monitor, which alone has a turn next (log 5). -/
def State.withFetchWord (s : State) (nbits w : Nat) : State :=
  let m := Mem.writeNat s.hbm 0 8 placeRoot
  let m := Mem.writeNat m 0x1000 8 placeLeaf
  let m := Mem.writeNat m placeAt 20 (w % 2 ^ nbits)
  let s := { s with
    agenda := [.issue monitor []]
    pending := s.pending.filter fun e => (deadline s e).isNone, ptroot := 0, tlb := [], dir := [], thatch := [], hbm := m, quiesced := false, stalled := []
    homes := s.homes.erase (pageOf (s.devno.toNat * 2 ^ 46 + placeAt)), pages := s.pages.erase (pageOf (s.devno.toNat * 2 ^ 46 + placeAt))
    clusters := s.clusters.mapKV fun _ c => { c with l1 := [] }
    mgmt := { s.mgmt with held := false } }
  let s := s.modDie 0 fun d => { d with running := true, stopped := false, l2 := [], sark := [] }
  let s := s.modCore monitor fun o => { o with halted := false, lastCtx := 7, ctxs := o.ctxs.map fun c => { c with yielded := [], vsp := false } }
  s.setCtx monitor 0 { placeCtx s.devno.toNat with task := (s.ctx monitor 0).task }

end Sys2Proof.Machine
end

