-- ==== Sys2Proof/Safety.lean ====
section
/-! DEFINITION. The terms of the claims: when an instruction may take effect, what a step or a run stops with, the canonical memories, and
values written with bit-vector arithmetic or exact quotients, beside the machine's own. -/

namespace Sys2Proof.Machine

/-- The state and the operands let an instruction take effect (R209, R242): the context may issue, names are open, privilege holds, the
fields are legal, and every register it names is full. -/
def Ready (i : Instr) (s : State) : Prop :=
  s.cur.canIssue = true ∧ i.wf = true ∧ (Instr.privileged i = true → s.cur.priv = true) ∧
    ∀ r ∈ i.roles, s.cur.openName r.vec r.reg = true ∧ ((r.src || r.dst) = true → s.cur.fullR r = true)

/-- `Ready` as a test. -/
def readyB (i : Instr) (s : State) : Bool :=
  s.cur.canIssue && i.wf && (!Instr.privileged i || s.cur.priv)
    && i.roles.all fun r => s.cur.openName r.vec r.reg && (!(r.src || r.dst) || s.cur.fullR r)

/-- The context after a scalar result: full, with the taint of the sources, the flags added, and the PC past the instruction. -/
def wroteG (i : Instr) (c : Ctx) (d : Reg) (x : Word) (fl : Word) : Ctx := ((c.wG d x (srcTaint i c)).orFlags fl).past i
/-- The same for a vector result. -/
def wroteV (i : Instr) (c : Ctx) (d : Reg) (x : Line) (fl : Word) : Ctx := ((c.wV d x (srcTaint i c)).orFlags fl).past i

/-- A step that neither faults nor refuses. -/
def Steps (s : State) : Prop := ∃ t, step s = .next t

/-- A run of `n` steps to its end. -/
def Runs (n : Nat) (s : State) : Prop := ∃ t, Sys2Proof.core.run n s = .next t

/-- HBM, the host's memory and the HBM of every checkpoint image stand in canonical form (log 7). -/
def MemoriesCanonical (s : State) : Prop := s.hbm.wf = true ∧ s.hostMem.wf = true ∧ ∀ q ∈ s.tiers, q.2.hbm.wf = true

/-- No context of a cluster core is privileged, in a list of cores (R148). -/
def userCores (l : SMap Core) : Prop := ∀ q ∈ l, q.1 < 2048 → ∀ k, k < 8 → (vget q.2.ctxs k Ctx.reset).priv = false
/-- The same in the device and in every checkpoint image. -/
def UserCores (s : State) : Prop := userCores s.cores ∧ ∀ q ∈ s.tiers, userCores q.2.cores

end Sys2Proof.Machine

namespace Sys2Proof.Rule

open Sys2Proof.Machine

/-! Values of the rules, written with bit vectors (R252, R253). -/

/-- The low bits of a value, extended to 64 bits as the width says. -/
def narrow (w : Width) (x : Word) : Word :=
  match w with | .i64 => x | .n64 => x | .i32 => (x.setWidth 32).signExtend 64 | .n32 => (x.setWidth 32).setWidth 64
/-- The low bits with zeros above. -/
def low (w : Width) (x : Word) : Word := narrow (if w.bits = 64 then .n64 else .n32) x
/-- The low bits with sign copies above. -/
def lowS (w : Width) (x : Word) : Word := narrow (if w.bits = 64 then .i64 else .i32) x
/-- The integer a width reads. -/
def int (w : Width) (x : Word) : Int := if w.signed then ((narrow w x).toInt) else ((narrow w x).toNat : Int)
def count (w : Width) (b : Word) : Nat := b.toNat % w.bits
/-- An exact integer held to the range of a width, with SAT where it was outside (R255). -/
def clamped (w : Width) (v : Int) : Word × Word :=
  if v < minVal w.bits w.signed then (BitVec.ofInt 64 (minVal w.bits w.signed), flagSAT)
  else if maxVal w.bits w.signed < v then (BitVec.ofInt 64 (maxVal w.bits w.signed), flagSAT)
  else (BitVec.ofInt 64 v, 0)
/-- The quotient of R52. -/
def quotient (w : Width) (a b : Word) : Word :=
  let x := narrow w a
  let y := narrow w b
  if y = 0 then narrow w (BitVec.allOnes 64) else narrow w (if w.signed then x.sdiv y else x / y)
/-- The remainder of R52. -/
def remainder (w : Width) (a b : Word) : Word :=
  let x := narrow w a
  let y := narrow w b
  if y = 0 then x else narrow w (if w.signed then x.srem y else x % y)
def div0 (w : Width) (b : Word) : Word := if narrow w b = 0 then flagIDIV0 else 0
/-- The high half of the product of two operands. -/
def high (w : Width) (a b : Word) : Word :=
  match w with
  | .i64 => ((a.signExtend 128 * b.signExtend 128) >>> 64).setWidth 64
  | .n64 => ((a.setWidth 128 * b.setWidth 128) >>> 64).setWidth 64
  | .i32 => narrow .i32 ((narrow .i32 a * narrow .i32 b) >>> 32)
  | .n32 => narrow .n32 ((narrow .n32 a * narrow .n32 b) >>> 32)
def bool (b : Bool) : Word := if b then 1 else 0
/-- `n` one bits. -/
def ones (n : Nat) : Word := BitVec.ofNat 64 (2 ^ n - 1)

/-! Float patterns as ordered integers: sign and magnitude. -/

def magnitude (f : FF) (x : Nat) : Nat := x % 2 ^ (f.e + f.m)
def negative (f : FF) (x : Nat) : Bool := x / 2 ^ (f.e + f.m) % 2 == 1
def isNaN (f : FF) (x : Nat) : Bool := decide (f.infBits < magnitude f x)
def key (f : FF) (x : Nat) : Int := if negative f x then -(magnitude f x : Int) else magnitude f x
def fless (f : FF) (x y : Nat) : Bool := !isNaN f x && !isNaN f y && decide (key f x < key f y)
def fequal (f : FF) (x y : Nat) : Bool := !isNaN f x && !isNaN f y && decide (key f x = key f y)
/-- The lesser, with -0 below +0, and the canonical NaN where either is NaN (R47). -/
def lesser (f : FF) (x y : Nat) : Nat :=
  if isNaN f x || isNaN f y then f.nanBits
  else if key f x < key f y || (key f x = key f y && negative f x) then x else y
def greater (f : FF) (x y : Nat) : Nat :=
  if isNaN f x || isNaN f y then f.nanBits
  else if key f y < key f x || (key f x = key f y && !negative f x) then x else y
def negated (f : FF) (x : Nat) : Nat :=
  if isNaN f x then f.nanBits else if negative f x then magnitude f x else x + 2 ^ (f.e + f.m)

/-- The quotient a finite value stands for. -/
def quot (v : Val) : ℚ := match v with | .fin s n d => (if s then -((n : ℚ) / d) else (n : ℚ) / d) | _ => 0
def finite (v : Val) : Prop := match v with | .fin _ _ d => 0 < d | _ => False
def finiteB (v : Val) : Bool := match v with | .fin _ _ d => decide (0 < d) | _ => false

/-! Lanes. -/

def lane (v : Line) (l : Nat) : BitVec 32 := v.extractLsb' (32 * l) 32
def on (c : Ctx) (f : VForm) (l : Nat) : Bool := match f.mask with | none => true | some g => (c.rG g).getLsbD l

end Sys2Proof.Rule
end

