-- ==== Sys2Proof/Certificates/Slice0/Obligations.lean ====
section
/-! DEFINITION. The statements for the provers, with the tables of results they cite. An exact next state says also what an instruction
leaves as it was. -/

namespace Sys2Proof.Rule

open Sys2Proof.Machine

/-! Scalar results. -/

/-- Destination, value and flags of the integer instructions of R255 to R261 (and MOVI, PROBE, VEXT, VCMP forms elsewhere), from the
context's registers. -/
def intResult (i : Instr) (c : Ctx) : Option (Reg × Word × Word) :=
  match i with
  | .add o => let a := c.rG o.a; let b := c.rG o.b
    if o.sat then some (o.d, clamped o.w (int o.w a + int o.w b)) else some (o.d, narrow o.w (a + b), 0)
  | .sub o => let a := c.rG o.a; let b := c.rG o.b
    if o.sat then some (o.d, clamped o.w (int o.w a - int o.w b)) else some (o.d, narrow o.w (a - b), 0)
  | .and o => some (o.d, narrow o.w (c.rG o.a &&& c.rG o.b), 0)
  | .or o => some (o.d, narrow o.w (c.rG o.a ||| c.rG o.b), 0)
  | .xor o => some (o.d, narrow o.w (c.rG o.a ^^^ c.rG o.b), 0)
  | .andn o => some (o.d, narrow o.w (c.rG o.a &&& ~~~ c.rG o.b), 0)
  | .shl o => some (o.d, narrow o.w (c.rG o.a <<< count o.w (c.rG o.b)), 0)
  | .shr o => some (o.d, narrow o.w (low o.w (c.rG o.a) >>> count o.w (c.rG o.b)), 0)
  | .sra o => some (o.d, narrow o.w ((lowS o.w (c.rG o.a)).sshiftRight (count o.w (c.rG o.b))), 0)
  | .min o => some (o.d, narrow o.w (if int o.w (c.rG o.a) ≤ int o.w (c.rG o.b) then c.rG o.a else c.rG o.b), 0)
  | .max o => some (o.d, narrow o.w (if int o.w (c.rG o.a) ≤ int o.w (c.rG o.b) then c.rG o.b else c.rG o.a), 0)
  | .clz o => some (o.d, (if o.w.bits = 64 then (c.rG o.a).clz else (((c.rG o.a).setWidth 32).clz).setWidth 64), 0)
  | .ctz o => some (o.d, (if o.w.bits = 64 then (c.rG o.a).ctz else (((c.rG o.a).setWidth 32).ctz).setWidth 64), 0)
  | .popc o => some (o.d, (low o.w (c.rG o.a)).cpop, 0)
  | .mov o => some (o.d, narrow o.w (c.rG o.a), 0)
  | .addi o => some (o.d, c.rG o.a + o.imm.signExtend 64, 0)
  | .addiLit o => some (o.d, c.rG o.a + o.lit, 0)
  | .movi o => some (o.d, o.imm.signExtend 64, 0)
  | .moviLit o => some (o.d, o.lit, 0)
  | .tags o => some (o.d, ((Src.val o.src c).extractLsb' 0 8 ++ (c.rG o.a).extractLsb' 0 56), 0)
  | .tagg o => some (o.d, ((c.rG o.a).extractLsb' 56 8).setWidth 64, 0)
  | .mul o => some (o.d, narrow o.w (c.rG o.a * c.rG o.b), 0)
  | .mulh o => some (o.d, high o.w (c.rG o.a) (c.rG o.b), 0)
  | .div o => some (o.d, quotient o.w (c.rG o.a) (c.rG o.b), div0 o.w (c.rG o.b))
  | .rem o => some (o.d, remainder o.w (c.rG o.a) (c.rG o.b), div0 o.w (c.rG o.b))
  | .bfxu o => some (o.d, (c.rG o.a >>> o.pos.toNat) &&& ones (o.lm.toNat + 1), 0)
  | .bfxs o => some (o.d, ((c.rG o.a >>> o.pos.toNat) <<< (63 - o.lm.toNat)).sshiftRight (63 - o.lm.toNat), 0)
  | .bfi o => let m := ones (o.lm.toNat + 1) <<< o.pos.toNat
    some (o.d, (c.rG o.d &&& ~~~ m) ||| ((c.rG o.a <<< o.pos.toNat) &&& m), 0)
  | .shli o => some (o.d, c.rG o.a <<< o.pos.toNat, 0)
  | .shri o => some (o.d, c.rG o.a >>> o.pos.toNat, 0)
  | .srai o => some (o.d, (c.rG o.a).sshiftRight o.pos.toNat, 0)
  | .rori o => some (o.d, (c.rG o.a >>> o.pos.toNat) ||| (c.rG o.a <<< (64 - o.pos.toNat)), 0)
  | .cmpeq o => some (o.d, bool (narrow o.w (c.rG o.a) == narrow o.w (c.rG o.b)), 0)
  | .cmpne o => some (o.d, bool (narrow o.w (c.rG o.a) != narrow o.w (c.rG o.b)), 0)
  | .cmplt o => some (o.d, bool (decide (int o.w (c.rG o.a) < int o.w (c.rG o.b))), 0)
  | .cmple o => some (o.d, bool (decide (int o.w (c.rG o.a) ≤ int o.w (c.rG o.b))), 0)
  | .sel o => some (o.d, (if c.rG o.d = 0 then c.rG o.b else c.rG o.a), 0)
  | .vext o => some (o.d, narrow o.w.width ((lane (c.rV o.a) o.l.toNat).setWidth 64), 0)
  | _ => none

/-- The same for the float compares, minima, maxima and negation of R262, on patterns as signed magnitudes. -/
def fcmpResult (i : Instr) (c : Ctx) : Option (Reg × Word × Word) :=
  let x (t : FFmt) (r : Reg) : Nat := (c.rG r).toNat % 2 ^ t.ff.width
  match i with
  | .fmin o => some (o.d, BitVec.ofNat 64 (lesser o.fmt.ff (x o.fmt o.a) (x o.fmt o.b)), 0)
  | .fmax o => some (o.d, BitVec.ofNat 64 (greater o.fmt.ff (x o.fmt o.a) (x o.fmt o.b)), 0)
  | .fneg o => some (o.d, BitVec.ofNat 64 (negated o.fmt.ff (x o.fmt o.a)), 0)
  | .fcmpeq o => some (o.d, bool (fequal o.fmt.ff (x o.fmt o.a) (x o.fmt o.b)), 0)
  | .fcmplt o => some (o.d, bool (fless o.fmt.ff (x o.fmt o.a) (x o.fmt o.b)), 0)
  | .fcmple o => some (o.d, bool (fless o.fmt.ff (x o.fmt o.a) (x o.fmt o.b) || fequal o.fmt.ff (x o.fmt o.a) (x o.fmt o.b)), 0)
  | _ => none

/-- What FloatArith (R262) works on: format, rounding mode, saturation, the operands, the exact result of finite ones as a quotient, and the
addends, of which a product is one. -/
structure FloatCase where
  f    : FF
  rm   : Rm
  sat  : Bool
  args : List Val
  q    : ℚ
  adds : List Val

/-- A product as an addend: no value for zero times infinity, the sign being that of both. -/
def times (a b : Val) : Val :=
  let s := a.sign != b.sign
  if a.isNan || b.isNan || (a.isInf && b.isZero) || (a.isZero && b.isInf) then .nan
  else if a.isInf || b.isInf then .inf s
  else if a.isZero || b.isZero then .zero s
  else .fin s 1 1

/-- FADD, FSUB, FMUL and FMA: destination and case. -/
def floatCase (i : Instr) (c : Ctx) : Option (Reg × FloatCase) :=
  let v (t : FFmt) (r : Reg) : Val := t.ff.decode ((c.rG r).toNat % 2 ^ t.ff.width)
  match i with
  | .fadd o => let a := v o.fmt o.a; let b := v o.fmt o.b
    some (o.d, ⟨o.fmt.ff, o.rm, o.sat, [a, b], quot a + quot b, [a, b]⟩)
  | .fsub o => let a := v o.fmt o.a; let b := v o.fmt o.b
    some (o.d, ⟨o.fmt.ff, o.rm, o.sat, [a, b], quot a - quot b, [a, b.neg]⟩)
  | .fmul o => let a := v o.fmt o.a; let b := v o.fmt o.b
    some (o.d, ⟨o.fmt.ff, o.rm, o.sat, [a, b], quot a * quot b, [times a b]⟩)
  | .fma o => let a := v o.fmt o.a; let b := v o.fmt o.b; let d := v o.fmt o.d
    some (o.d, ⟨o.fmt.ff, o.rm, o.sat, [a, b, d], quot d + quot a * quot b, [d, times a b]⟩)
  | _ => none

/-- The result and the flags that FloatArith gives (R262, R33): NaN operands, invalid operations, infinities, exact zeros with their sign, and
every other value rounded once, however it is written as a quotient. -/
def floatOut (k : FloatCase) (x : Nat) (fl : Word) : Prop :=
  ((∃ v ∈ k.args, v = Val.nan) → x = k.f.nanBits ∧ fl = 0) ∧
  ((∀ v ∈ k.args, v ≠ Val.nan) →
    (Val.nan ∈ k.adds ∨ (Val.inf true ∈ k.adds ∧ Val.inf false ∈ k.adds) → x = k.f.nanBits ∧ fl = flagNV) ∧
    (∀ s, Val.nan ∉ k.adds → Val.inf s ∈ k.adds → Val.inf (!s) ∉ k.adds →
      x = k.f.withSign s (if k.sat then k.f.maxFin else k.f.infBits) ∧ fl = if k.sat then flagSAT else 0)) ∧
  ((∀ v ∈ k.args, finite v) →
    (k.q = 0 → fl = 0 ∧ x = k.f.withSign ((k.adds.all fun v => v.isZero && v.sign) || (k.rm == .rdn && !(k.adds.all fun v => v.isZero && !v.sign))) 0) ∧
    (k.q ≠ 0 → ∀ n m : Nat, 0 < m → |k.q| = (n : ℚ) / m → (x, fl) = roundFloat k.f (.fin (decide (k.q < 0)) n m) k.rm k.sat))

/-- Flags that gather those of the active lanes (R36). -/
def gathered (on : Nat → Bool) (g : Nat → Word) (fl : Word) : Prop :=
  ∀ b, b < 64 → (fl.getLsbD b = true ↔ ∃ l, l < 16 ∧ on l = true ∧ (g l).getLsbD b = true)

/-! Vector results: destination, form, and the value of each active lane. -/

/-- Lanes of the integer, logical, shift, select and move instructions of R307 to R309, R311, R313, R314, and of the float minima, maxima
and negation of R310. -/
def laneResult (i : Instr) (c : Ctx) : Option (Reg × VForm × (Nat → BitVec 32)) :=
  let x (r : Reg) (l : Nat) := lane (c.rV r) l
  let lt (w : VWidth) (a b : BitVec 32) : Bool := match w with | .i32 => a.slt b | .n32 => a.ult b
  let hi (w : VWidth) (a b : BitVec 32) : BitVec 32 := match w with
    | .i32 => ((a.signExtend 64 * b.signExtend 64) >>> 32).setWidth 32 | .n32 => ((a.setWidth 64 * b.setWidth 64) >>> 32).setWidth 32
  match i with
  | .vadd o => if o.sat then none else some (o.d, o.form, fun l => x o.a l + x o.b l)
  | .vsub o => if o.sat then none else some (o.d, o.form, fun l => x o.a l - x o.b l)
  | .vand o => some (o.d, o.form, fun l => x o.a l &&& x o.b l)
  | .vor o => some (o.d, o.form, fun l => x o.a l ||| x o.b l)
  | .vxor o => some (o.d, o.form, fun l => x o.a l ^^^ x o.b l)
  | .vandn o => some (o.d, o.form, fun l => x o.a l &&& ~~~ x o.b l)
  | .vshl o => some (o.d, o.form, fun l => x o.a l <<< ((x o.b l).toNat % 32))
  | .vshr o => some (o.d, o.form, fun l => x o.a l >>> ((x o.b l).toNat % 32))
  | .vsra o => some (o.d, o.form, fun l => (x o.a l).sshiftRight ((x o.b l).toNat % 32))
  | .vmin o => some (o.d, o.form, fun l => if lt o.w (x o.a l) (x o.b l) then x o.a l else x o.b l)
  | .vmax o => some (o.d, o.form, fun l => if lt o.w (x o.a l) (x o.b l) then x o.b l else x o.a l)
  | .vmul o => some (o.d, o.form, fun l => x o.a l * x o.b l)
  | .vmulh o => some (o.d, o.form, fun l => hi o.w (x o.a l) (x o.b l))
  | .vshli o => some (o.d, o.form, fun l => x o.a l <<< o.n.toNat)
  | .vshri o => some (o.d, o.form, fun l => x o.a l >>> o.n.toNat)
  | .vsrai o => some (o.d, o.form, fun l => (x o.a l).sshiftRight o.n.toNat)
  | .vsel o => some (o.d, o.form, fun l => if (c.rG o.b).getLsbD l then x o.a l else x o.d l)
  | .vmov o => some (o.d, o.form, fun l => x o.a l)
  | .vbcast o => some (o.d, o.form, fun _ => (c.rG o.a).setWidth 32)
  | .viota o => some (o.d, o.form, fun l => BitVec.ofNat 32 l)
  | .vshuf o => some (o.d, o.form, fun l =>
      let j := (x o.b l).toNat % 32
      if j < 16 then x o.a j else x o.d (j - 16))
  | .vfmin o => some (o.d, o.form, fun l => BitVec.ofNat 32 (lesser ffF32 (x o.a l).toNat (x o.b l).toNat))
  | .vfmax o => some (o.d, o.form, fun l => BitVec.ofNat 32 (greater ffF32 (x o.a l).toNat (x o.b l).toNat))
  | .vfneg o => some (o.d, o.form, fun l => BitVec.ofNat 32 (negated ffF32 (x o.a l).toNat))
  | .vins o => some (o.d, .base, fun l => if l = o.l.toNat then (c.rG o.a).setWidth 32 else x o.d l)
  | _ => none

/-- Lanes whose flags matter: the saturating and dividing forms of R307 and R308, with the flag each lane sets. -/
def laneFlagged (i : Instr) (c : Ctx) : Option (Reg × VForm × (Nat → BitVec 32 × Word)) :=
  let x (r : Reg) (l : Nat) : Word := (lane (c.rV r) l).setWidth 64
  let cut (r : Word × Word) : BitVec 32 × Word := (r.1.setWidth 32, r.2)
  match i with
  | .vadd o => if o.sat then some (o.d, o.form, fun l => cut (clamped o.w.width (int o.w.width (x o.a l) + int o.w.width (x o.b l)))) else none
  | .vsub o => if o.sat then some (o.d, o.form, fun l => cut (clamped o.w.width (int o.w.width (x o.a l) - int o.w.width (x o.b l)))) else none
  | .vdiv o => some (o.d, o.form, fun l => ((quotient o.w.width (x o.a l) (x o.b l)).setWidth 32, div0 o.w.width (x o.b l)))
  | .vrem o => some (o.d, o.form, fun l => ((remainder o.w.width (x o.a l) (x o.b l)).setWidth 32, div0 o.w.width (x o.b l)))
  | _ => none

/-- The bit of each active lane of the vector compares (R311). -/
def laneTest (i : Instr) (c : Ctx) : Option (Reg × VForm × (Nat → Bool)) :=
  let x (r : Reg) (l : Nat) := lane (c.rV r) l
  let n (r : Reg) (l : Nat) := (x r l).toNat
  let lt (w : VWidth) (a b : BitVec 32) : Bool := match w with | .i32 => a.slt b | .n32 => a.ult b
  match i with
  | .vcmpeq o => some (o.d, o.form, fun l => x o.a l == x o.b l)
  | .vcmpne o => some (o.d, o.form, fun l => x o.a l != x o.b l)
  | .vcmplt o => some (o.d, o.form, fun l => lt o.w (x o.a l) (x o.b l))
  | .vcmple o => some (o.d, o.form, fun l => !lt o.w (x o.b l) (x o.a l))
  | .vfcmpeq o => some (o.d, o.form, fun l => fequal ffF32 (n o.a l) (n o.b l))
  | .vfcmplt o => some (o.d, o.form, fun l => fless ffF32 (n o.a l) (n o.b l))
  | .vfcmple o => some (o.d, o.form, fun l => fless ffF32 (n o.a l) (n o.b l) || fequal ffF32 (n o.a l) (n o.b l))
  | _ => none

/-- Lane `l` of VFADD, VFSUB, VFMUL and VFMA (R310): destination, form and case. -/
def laneCase (i : Instr) (c : Ctx) (l : Nat) : Option (Reg × VForm × FloatCase) :=
  let v (r : Reg) : Val := ffF32.decode (lane (c.rV r) l).toNat
  match i with
  | .vfadd o => some (o.d, o.form, ⟨ffF32, o.rm, o.sat, [v o.a, v o.b], quot (v o.a) + quot (v o.b), [v o.a, v o.b]⟩)
  | .vfsub o => some (o.d, o.form, ⟨ffF32, o.rm, o.sat, [v o.a, v o.b], quot (v o.a) - quot (v o.b), [v o.a, (v o.b).neg]⟩)
  | .vfmul o => some (o.d, o.form, ⟨ffF32, o.rm, o.sat, [v o.a, v o.b], quot (v o.a) * quot (v o.b), [times (v o.a) (v o.b)]⟩)
  | .vfma o => some (o.d, o.form, ⟨ffF32, o.rm, o.sat, [v o.a, v o.b, v o.d], quot (v o.d) + quot (v o.a) * quot (v o.b), [v o.d, times (v o.a) (v o.b)]⟩)
  | _ => none

/-! Control. -/

/-- Whether a branch of R264 is taken. -/
def branch (i : Instr) (c : Ctx) : Option (BitVec 10 × Bool) :=
  match i with
  | .beq o => some (o.off, decide (c.rG o.a = c.rG o.b))
  | .bne o => some (o.off, decide (c.rG o.a ≠ c.rG o.b))
  | .blt o => some (o.off, decide ((c.rG o.a).toInt < (c.rG o.b).toInt))
  | .bge o => some (o.off, decide ((c.rG o.b).toInt ≤ (c.rG o.a).toInt))
  | .bltu o => some (o.off, decide ((c.rG o.a).toNat < (c.rG o.b).toNat))
  | .bgeu o => some (o.off, decide ((c.rG o.b).toNat ≤ (c.rG o.a).toNat))
  | _ => none

/-- The byte distance of ADDA and SUBA: destination, base, and the signed step (R258). -/
def addrStep (i : Instr) (c : Ctx) : Option (Reg × Reg × Int) :=
  match i with
  | .adda o => some (o.d, o.a, (Src.val o.src c).toInt * (2 ^ o.sh.toNat : Nat))
  | .suba o => some (o.d, o.a, -((Src.val o.src c).toInt * (2 ^ o.sh.toNat : Nat)))
  | _ => none

/-- The address in a register a jump goes to, and whether g7 keeps the return address (R266). -/
def jumpTarget (i : Instr) (c : Ctx) : Option (Word × Bool) :=
  match i with
  | .jmpi o => some (c.rG o.a, false)
  | .calli o => some (c.rG o.a, true)
  | .ret => some (c.rG 7, false)
  | _ => none

/-- Register state by number (R244), FLAGS apart. -/
def sysReg (s : State) (c : Ctx) (n : Nat) : Option Word :=
  match n with
  | 1 => some (c.task.setWidth 64)
  | 2 => some (c.kid.setWidth 64)
  | 3 => some (c.prio.setWidth 64)
  | 4 => some (c.stage.setWidth 64)
  | 5 => some (BitVec.ofNat 64 s.curAgent)
  | 6 => some s.time
  | 7 => some (BitVec.ofNat 64 (match s.ktIndex c.kid with
      | none => 7
      | some e => 8 * bitsOf (vget s.kt e (0, 0)).1 58 57 + bitsOf (vget s.kt e (0, 0)).1 61 59))
  | 8 => some (s.mgmt.devno.extractLsb' 0 6 |>.setWidth 64)
  | 16 => some (vget c.win 0 Window.reset).lo
  | 17 => some (vget c.win 0 Window.reset).hi
  | 18 => some (vget c.win 1 Window.reset).lo
  | 19 => some (vget c.win 1 Window.reset).hi
  | 20 => some (vget c.win 2 Window.reset).lo
  | 21 => some (vget c.win 2 Window.reset).hi
  | 22 => some (vget c.win 3 Window.reset).lo
  | 23 => some (vget c.win 3 Window.reset).hi
  | _ => none

/-- Conversions between integer formats wrap without SAT (R34); the pattern read as a 64-bit integer, cut and extended again. -/
def intPattern (f : Fmt) (x : Word) : Option Word :=
  match f with
  | .i8 => some ((x.setWidth 8).signExtend 64) | .n8 => some ((x.setWidth 8).setWidth 64)
  | .i16 => some ((x.setWidth 16).signExtend 64) | .n16 => some ((x.setWidth 16).setWidth 64)
  | .i32 => some ((x.setWidth 32).signExtend 64) | .n32 => some ((x.setWidth 32).setWidth 64)
  | .i64 => some x | .n64 => some x | _ => none

/-- The integer of an integer or ternary source, with TERNBAD for the ternary code 10 (R27). -/
def srcInt (f : Fmt) (x : Word) : Option (Int × Word) :=
  match f with
  | .t2 => some (if x.extractLsb' 0 2 = 1#2 then 1 else if x.extractLsb' 0 2 = 3#2 then -1 else 0, if x.extractLsb' 0 2 = 2#2 then flagTERNBAD else 0)
  | .i8 | .i16 | .i32 | .i64 => (intPattern f x).map fun y => (y.toInt, 0)
  | _ => (intPattern f x).map fun y => ((y.toNat : Int), 0)

/-- A rounded integer as a ternary code: beyond 1 it is clamped with SAT, or 0 with CVTBAD (ToTern of R34). -/
def ternOut (n : Int) (sat : Bool) (fl : Word) : Word × Word :=
  let code (n : Int) : Word := if n = 1 then 1 else if n = -1 then 3 else 0
  if -1 ≤ n ∧ n ≤ 1 then (code n, fl)
  else if sat then (code (if n < 0 then -1 else 1), fl ||| flagSAT) else (0, fl ||| flagCVTBAD)

/-- A rounded integer in an integer format, or an infinite one by its sign: outside the range CVTBAD, with the nearest end or the lowest integer
(ToInt of R34). -/
def intOut (w : Nat) (sg : Bool) (n : Int) (sat : Bool) (fl : Word) : Word × Word :=
  if n < minVal w sg then (BitVec.ofInt 64 (minVal w sg), flagCVTBAD)
  else if maxVal w sg < n then (BitVec.ofInt 64 (if sat then maxVal w sg else minVal w sg), flagCVTBAD)
  else (BitVec.ofInt 64 n, fl)

/-- The outcome of R34 for a source element: the result extended to 64 bits (R252), and the flags. A finite float is taken however it is written as
a quotient. -/
def converted (df sf : Fmt) (rm : Rm) (sat : Bool) (x z fl : Word) : Prop :=
  let word (r : Nat × Word) : Word × Word := (BitVec.ofNat 64 r.1, r.2)
  (∀ (n : Int) (t : Word), srcInt sf x = some (n, t) →
    (∀ w sg, df.cls = .int w sg →
      (sat = false → intPattern df (BitVec.ofInt 64 n) = some z ∧ fl = t) ∧
      (sat = true → z = BitVec.ofInt 64 (max (minVal w sg) (min n (maxVal w sg))) ∧
        fl = (if n < minVal w sg ∨ maxVal w sg < n then flagSAT else 0) ||| t)) ∧
    (∀ g, df.cls = .flt g →
      let r := roundFloat g (.fin (decide (n < 0)) n.natAbs 1) rm sat
      (z, fl) = word (r.1, r.2 ||| t)) ∧
    (df = .t2 → (z, fl) = ternOut n sat t)) ∧
  (∀ f, sf.cls = .flt f →
    let v := f.decode (x.toNat % 2 ^ f.width)
    (v = .nan →
      (∀ w sg, df.cls = .int w sg → (z, fl) = (BitVec.ofInt 64 (if sat then 0 else minVal w sg), flagCVTBAD)) ∧
      (∀ g, df.cls = .flt g → (z, fl) = word (g.nanBits, 0)) ∧ (df = .t2 → (z, fl) = (0, flagCVTBAD))) ∧
    (∀ s, v = .inf s →
      (∀ w sg, df.cls = .int w sg → (z, fl) = intOut w sg (if s then minVal w sg - 1 else maxVal w sg + 1) sat 0) ∧
      (∀ g, df.cls = .flt g → (z, fl) = word (overflowValue g s rm sat false)) ∧
      (df = .t2 → (z, fl) = ternOut (if s then -2 else 2) sat 0)) ∧
    (finite v → ∀ n m : Nat, 0 < m → |quot v| = (n : ℚ) / m →
      let k : Int := if v.sign then -(roundInt n m rm true : Int) else roundInt n m rm false
      let nx : Word := if n % m = 0 then 0 else flagNX
      (∀ w sg, df.cls = .int w sg → (z, fl) = intOut w sg k sat nx) ∧
      (∀ g, df.cls = .flt g → (z, fl) = word (roundFloat g (.fin v.sign n m) rm sat)) ∧
      (df = .t2 → (z, fl) = ternOut k sat nx)))

/-- The ridge core that serves a kernel's faults, or the monitor (R213). -/
def servedBy (s : State) (kid : BitVec 16) : Nat :=
  match s.ktIndex kid with
  | none => 2055
  | some e => 2048 + 8 * bitsOf (vget s.kt e (0, 0)).1 58 57 + bitsOf (vget s.kt e (0, 0)).1 61 59

/-- The packet of a context's fault (R210). -/
def packetOf (s : State) (a k : Nat) (f : FInfo) (insn : BitVec 128) (p : Packet) : Prop :=
  let c := s.ctx a k
  p.code = f.code ∧ p.sub = f.sub ∧ p.agent = 0 ∧ p.noctx = false ∧ p.ctx = BitVec.ofNat 3 k ∧ p.task = c.task ∧ p.kid = c.kid ∧
    p.core = BitVec.ofNat 12 a ∧ p.stage = c.stage ∧ p.pc = c.pc ∧ p.va = f.va ∧ p.ia = f.ia ∧ p.info = f.info ∧ p.inst = 0 ∧ p.time = s.time ∧
    p.insn = insn

/-- A message of ch1 whose eight payload words are a packet (R213). -/
def carries (m : Msg) (p : Packet) : Prop := m.ch = 1 ∧ m.len = 8 ∧ m.kind = .system ∧ m.payload = p.bits.setWidth 960

/-! Translation (R84 to R86, R91 to R93, R189, R197, R198). -/

/-- A range register matches an address (R85, R86). -/
def inWindow (w : Window) (a : Nat) : Prop :=
  let z := (w.lo.extractLsb' 0 6).toNat
  w.lo.getLsbD 6 = true ∧ 20 ≤ z ∧ z ≤ 46 ∧ a / 2 ^ z = (w.lo.extractLsb' 20 36).toNat * 2 ^ 20 / 2 ^ z
/-- The IA that it gives. -/
def windowIa (w : Window) (a : Nat) : Nat :=
  let z := (w.lo.extractLsb' 0 6).toNat
  (w.hi.extractLsb' 20 32).toNat * 2 ^ 20 / 2 ^ z * 2 ^ z + a % 2 ^ z
/-- It allows a kind of access. -/
def windowAllows (w : Window) (k : AKind) : Bool := match k with | .rd => w.hi.getLsbD 0 | .wr | .at => w.hi.getLsbD 1 | .fetch => w.hi.getLsbD 2

/-- The entry for an IA in a table at a level. -/
def entry (s : State) (ia level tbl : Nat) : Word := walkRead s (tbl + 8 * (if level = 3 then ia / 2 ^ 39 % 128 else ia / 2 ^ (12 + 9 * level) % 512))
def pfn (e : Word) : Nat := (e.extractLsb' 12 28).toNat
/-- An entry that is malformed at its level; the rule of a contiguous group apart. -/
def malformed (s : State) (e : Word) (level : Nat) : Prop :=
  (e.getLsbD 62 = true ∧ level = 3) ∨ (e.getLsbD 62 = false ∧ level = 0) ∨ (e.getLsbD 61 = true ∧ level ≠ 0) ∨ e.extractLsb' 40 15 ≠ 0#15 ∨
    (e.getLsbD 62 = true ∧ level = 1 ∧ pfn e % 2 ^ 9 ≠ 0) ∨ (e.getLsbD 62 = true ∧ level = 2 ∧ pfn e % 2 ^ 18 ≠ 0) ∨ badFrame s (pfn e * 4096) = true
/-- The table that `d` levels of valid table entries lead to from the root. -/
def tableAt (s : State) (ia : Nat) : Nat → Option Nat
  | 0 => some s.ptroot.toNat
  | d + 1 => (tableAt s ia d).bind fun t =>
    let e := entry s ia (3 - d) t
    if e.getLsbD 63 && !e.getLsbD 62 && !Pte.bad s e (3 - d) then some (pfn e * 4096) else none
/-- The leaf that maps an IA, and its frame: the home's cached one, or that of a walk. -/
def mapped (s : State) (ia : Nat) (e : Word) (f : Nat) : Prop :=
  (cached s (ia / 4096) = some e ∧ f = pfn e) ∨
    (cached s (ia / 4096) = none ∧ ∃ d t, d ≤ 3 ∧ tableAt s ia d = some t ∧ e = entry s ia (3 - d) t ∧ e.getLsbD 63 = true ∧ e.getLsbD 62 = true ∧
      e.getLsbD 61 = false ∧ ¬ malformed s e (3 - d) ∧ f = pfn e + ia / 4096 % 2 ^ (9 * (3 - d)))

/-- An access of the current context to its own scratchpad (R84): a cluster core, the window, aligned, inside the claim; `off` is the offset. -/
abbrev ownScratch (s : State) (va : Word) (n align off : Nat) : Prop :=
  s.curAgent < 2048 ∧ va.toNat % 2 ^ 56 = 0xF0 * 2 ^ 48 + off ∧ off < 2 ^ 48 ∧ off % align = 0 ∧ off + n ≤ s.cur.claim * 16384
/-- No poison on the line of an offset (R228). -/
abbrev unpoisoned (s : State) (off : Nat) : Prop := (s.curAgent, off / 64) ∉ s.spPoison
/-- No valid publisher region meets the bytes, no store waits at the port (R138, R140), and none of the context is held for a page (R117, R130). -/
abbrev unpublished (s : State) (off n : Nat) : Prop :=
  pubIdxs (s.core s.curAgent) off n = [] ∧ portAhead s s.curAgent = false ∧ storesHeld s s.cur.task = false
/-- The byte of the current core's scratchpad. -/
def spByte (s : State) (off : Nat) : Byte := (s.core s.curAgent).spad.read off

/-- A state whose other memories, caches and agents are those of `s`: only the current core's scratchpad and contexts, and pending
events, may differ. -/
def onlyScratch (s t : State) : Prop :=
  t.hbm = s.hbm ∧ t.hostMem = s.hostMem ∧ t.remote = s.remote ∧ t.pages = s.pages ∧ t.dies = s.dies ∧ t.clusters = s.clusters ∧
    t.dir = s.dir ∧ (∀ a, a ≠ s.curAgent → t.core a = s.core a)

/-- New value of an integer atomic (R278); the floats and SAT apart. -/
def amoInt (op : AmoOp) (f : Fmt) (old x y : Nat) : Option Nat :=
  match op with
  | .swap => some x
  | .cas => if old = y then some x else none
  | .and => some (old &&& x)
  | .or => some (old ||| x)
  | .xor => some (old ^^^ x)
  | .add => match f with | .i32 => some ((old + x) % 2 ^ 32) | .n32 => some ((old + x) % 2 ^ 32) | .i64 => some ((old + x) % 2 ^ 64) | .n64 => some ((old + x) % 2 ^ 64) | _ => none
  | .min => match f with
    | .n32 => some (Nat.min old x) | .n64 => some (Nat.min old x)
    | .i32 => some (if (BitVec.ofNat 32 x).slt (BitVec.ofNat 32 old) then x else old)
    | .i64 => some (if (BitVec.ofNat 64 x).slt (BitVec.ofNat 64 old) then x else old) | _ => none
  | .max => match f with
    | .n32 => some (Nat.max old x) | .n64 => some (Nat.max old x)
    | .i32 => some (if (BitVec.ofNat 32 old).slt (BitVec.ofNat 32 x) then x else old)
    | .i64 => some (if (BitVec.ofNat 64 old).slt (BitVec.ofNat 64 x) then x else old) | _ => none

/-- A release of the current context at a scope has nothing to wait for (R103, R143, R411). -/
abbrev releases (s : State) (sc : Scope) : Prop :=
  releaseHeld s sc = false ∧ (sc = .sys → unackedOut (release s s.curAgent sc) s.cur.task = false)

/-- A lane of VSP on integers, with its flag (R321, R255). -/
def vspInt (op : VspOp) (w : Width) (sat : Bool) (x y z : BitVec 32) : Option (BitVec 32 × Word) :=
  let v (a : BitVec 32) : Int := int w (a.setWidth 64)
  let cut (r : Word × Word) : BitVec 32 × Word := (r.1.setWidth 32, r.2)
  match op with
  | .add => some (if sat then cut (clamped w (v x + v y)) else (x + y, 0))
  | .sub => some (if sat then cut (clamped w (v x - v y)) else (x - y, 0))
  | .mul => some (x * y, 0) | .fma => some (z + x * y, 0)
  | .min => some (if v x ≤ v y then x else y, 0) | .max => some (if v x ≤ v y then y else x, 0)
  | .and => some (x &&& y, 0) | .or => some (x ||| y, 0) | .xor => some (x ^^^ y, 0)

/-- A lane of VSP on f32 that FloatArith computes (R321, R262). -/
def vspFloat (op : VspOp) (rm : Rm) (sat : Bool) (x y z : BitVec 32) : Option FloatCase :=
  let v (a : BitVec 32) : Val := ffF32.decode a.toNat
  let a := v x
  let b := v y
  match op with
  | .add => some ⟨ffF32, rm, sat, [a, b], quot a + quot b, [a, b]⟩
  | .sub => some ⟨ffF32, rm, sat, [a, b], quot a - quot b, [a, b.neg]⟩
  | .mul => some ⟨ffF32, rm, sat, [a, b], quot a * quot b, [times a b]⟩
  | .fma => some ⟨ffF32, rm, sat, [a, b, v z], quot (v z) + quot a * quot b, [v z, times a b]⟩
  | _ => none

/-- The base after VLDE and VSTE: advanced over whole groups of 16 elements by a post-increment (R250, R317), else as it was. -/
def stepped (c : Ctx) (base : Reg) (f : Fmt) (k : Nat) (off : BitVec 10) (pi : Bool) (nb : Word) : Prop :=
  if pi then ∃ d, elemDist f k (16 * off.toInt) = some d ∧ addAddr (c.rG base) d = some nb else nb = c.rG base

/-- The place of a lane's four bytes in its slice (R319). -/
def slice (c : Ctx) (o : OVMem) (l : Nat) : Nat :=
  2048 * l + (((lane (c.rV o.base) l).toNat : Int) + (if o.pi then 0 else 4 * o.off.toInt)).toNat
/-- The base register after VLSLD and VLSST: with PI each active lane has advanced by four times the offset (R319). -/
def advanced (c : Ctx) (o : OVMem) (w : Line) : Prop :=
  ∀ l, l < 16 → lane w l = if o.pi = true ∧ on c o.form l = true then lane (c.rV o.base) l + BitVec.ofInt 32 (4 * o.off.toInt) else lane (c.rV o.base) l
/-- Its write, with the taint of the base and of the mask (R305). -/
def sliceBase (t c : Ctx) (o : OVMem) (w : Line) : Ctx :=
  if o.pi then t.wV o.base w (c.taintV o.base || match o.form.mask with | some g => c.taintG g | none => false) else t

/-- The identity of a minimum or maximum of lanes (R47). -/
def endLane (f : LFmt) (min : Bool) : BitVec 32 :=
  match f, min with
  | .f32, true => 0x7F800000 | .f32, false => 0xFF800000
  | .i32, true => 0x7FFFFFFF | .i32, false => 0x80000000
  | .n32, true => 0xFFFFFFFF | .n32, false => 0

/-- A combining step of VRED on f32 (R47). -/
def redStep (op : CollOp) (x y r : Nat) (fl : Word) : Prop :=
  let a := ffF32.decode x
  let b := ffF32.decode y
  match op with
  | .add => floatOut ⟨ffF32, .rne, false, [a, b], quot a + quot b, [a, b]⟩ r fl
  | .min => r = lesser ffF32 x y ∧ fl = 0
  | .max => r = greater ffF32 x y ∧ fl = 0
  | _ => True

/-- VTOPK's order of two patterns: a NaN below every number, the zeros equal (R51). -/
def topBelow (f : LFmt) (x y : Nat) : Bool :=
  match f with
  | .n32 => decide (x < y)
  | .i32 => (BitVec.ofNat 32 x).slt (BitVec.ofNat 32 y)
  | .f32 => (isNaN ffF32 x && !isNaN ffF32 y) || fless ffF32 x y

/-- SEND and TSEND, and whether the form is tagged (R291). -/
def sendForm (i : Instr) : Option (OSend × Bool) :=
  match i with | .send o => some (o, false) | .tsend o => some (o, true) | _ => none

/-- The 64-bit word `j` of a message's source registers. -/
def sendWord (c : Ctx) (b : Reg) (j : Nat) : BitVec 64 :=
  if j < 8 then (c.rV b).extractLsb' (64 * j) 64 else (c.rV (b + 1)).extractLsb' (64 * (j - 8)) 64

/-- Nothing holds a release back: no update outstanding, no store held. -/
abbrev calm (s : State) : Prop := updatesOut s s.curAgent = false ∧ storesHeld s s.cur.task = false

/-- The current context runs on a cluster core. -/
abbrev onCore (s : State) : Prop := s.curAgent < 2048
/-- Its cluster. -/
def here (s : State) : Nat := s.curAgent / 8
/-- The registers of the current context in `t` are those in `s`, `d` left out, and its PC stands past `i`. -/
def onlyG (i : Instr) (s t : State) (d : Reg) : Prop :=
  (∀ r, r ≠ d → t.cur.rG r = s.cur.rG r) ∧ (∀ r, t.cur.rV r = s.cur.rV r) ∧ t.cur.flags = s.cur.flags ∧
    t.cur.pc = s.cur.pc + BitVec.ofNat 64 (Instr.bytes i)
/-- A future resolved: STATE, CLIST empty and the value, GEN and REG kept; one that is not pending stays (R170, R172). -/
def resolvedFuture (val : Option Nat) (st : Nat) (f : Nat) : Option Nat :=
  if f % 4 ≠ 0 then none
  else some (f % 2 ^ 32 / 4 * 4 + st + 0xFFFFFFFF * 2 ^ 32 + (match val with | some v => v % 2 ^ 64 | none => f / 2 ^ 64 % 2 ^ 64) * 2 ^ 64)
/-- The state after a future is resolved: its waiters have their answer, and its continuation list has run (R172). -/
def resolvedBy (s : State) (x : Acc) (w : Who) (p : Path) (val : Option Nat) (st : Nat) : State :=
  let r := atomicPath s x p 16 .dev (resolvedFuture val st)
  let u := futureAnswered r.2 p.ia (r.1 % 2 ^ 32 / 4 * 4 + st)
  completeList u w (st != 1) (listFuel u w.kid) (r.1 / 2 ^ 32 % 2 ^ 32)
/-- The same by the current task. -/
def resolved (s : State) (p : Path) (val : Option Nat) (st : Nat) : State := resolvedBy s (curAcc s) (ctxWho s) p val st
/-- A registration at a future: REG steps, and stays at its maximum; a pending one's CLIST becomes the link (R172). -/
def registeredFuture (link : Nat) (f : Nat) : Option Nat :=
  let reg := Nat.min 16383 (f / 4 % 2 ^ 14 + 1)
  some (f / 2 ^ 64 * 2 ^ 64 + (if f % 4 = 0 then link else f / 2 ^ 32 % 2 ^ 32) * 2 ^ 32 + f / 2 ^ 16 % 2 ^ 16 * 2 ^ 16 + reg * 4 + f % 4)
/-- Bits hi to lo of a record replaced. -/
def field (r : BitVec 512) (lo w v : Nat) : BitVec 512 :=
  (r &&& ~~~ (BitVec.ofNat 512 ((2 ^ w - 1) * 2 ^ lo))) ||| BitVec.ofNat 512 (v % 2 ^ w * 2 ^ lo)
/-- A record with slot `j` in use, behind it the list that a pending future had (R172). -/
def usedRecord (j : Nat) (behind : Option Nat) (r : Nat) : Option Nat :=
  let u := field (BitVec.ofNat 512 r) (100 + j) 1 1
  some (match behind with | some l => field u (128 + 32 * j) 32 l | none => u).toNat
/-- `Complete` on a record: BAD[j] and JCNT - 1 (R172). -/
def completedRecord (j : Nat) (bad : Bool) (r : Nat) : Nat :=
  (field (field (BitVec.ofNat 512 r) (96 + j) 1 (if bad then 1 else 0)) 64 8 (r / 2 ^ 64 % 256 + 255)).toNat
/-- FRESET's change of a future (R170, R172). -/
def resetFuture (f : Nat) : Option Nat :=
  if f % 4 = 0 then none else some (f / 2 ^ 64 * 2 ^ 64 + 0xFFFFFFFF * 2 ^ 32 + (f / 2 ^ 16 % 2 ^ 16 + 1) % 2 ^ 16 * 2 ^ 16)
/-- The first access of a future operation: the future's bytes. -/
def futureBytes (s : State) (p : Path) : Nat := (atomicPath s (curAcc s) p 16 .dev fun _ => none).1
/-- A queue of the cluster is open to the current context. -/
abbrev queueOpen (s : State) (q : Nat) : Prop :=
  onCore s ∧ Qd.en (qdGet s (here s) q) = true ∧ qForeign s (here s) q s.cur.kid = false ∧ Qd.broken (qdGet s (here s) q) = false
/-- The bytes of a sync word of core `a`. -/
def syncWord (s : State) (a off : Nat) : Nat := (s.core a).spad.readNat off 16

/-- The current context. -/
def me (s : State) : Nat × Nat := (s.curAgent, s.curCtx)
def lease (s : State) (k : Nat) : Lease := (s.clu k).lease
/-- The current context holds its cluster's lease, no earlier kernel's array is to be cleared, and it is enabled (R325, R328, R230). -/
abbrev holdsArray (s : State) : Prop :=
  onCore s ∧ (lease s (here s)).holder = some (me s) ∧ (lease s (here s)).due = false ∧ (s.clu (here s)).disabled = false
/-- Two spans of buffer bytes, first byte and the byte after the last, have a byte in common. -/
abbrev meets (a b : Nat × Nat) : Prop := a.1 < b.2 ∧ b.1 < a.2
/-- The bytes of buffer A, or B, that a command of the array stages or reads (R326, R331, R333). -/
def bufSpan (c : Cluster) (toB : Bool) (cmd : MxCmd) : Option (Nat × Nat) :=
  match cmd with
  | .stage b boff pitch rb rows _ _ => if b = toB then some (boff, boff + (rows - 1) * pitch + rb) else none
  | .mul _ t fa fb _ ka kb ao ap bo bp k _ => (tileOf c t).conf.map fun q =>
    if toB then (bo, bo + (q.2.1 - 1) * bp + rowBytes fb kb k) else (ao, ao + (q.1 - 1) * ap + rowBytes fa ka k)
  | .drain .. => none
/-- A command that stages. -/
def isStage (c : MxCmd) : Bool := match c with | .stage .. => true | _ => false
/-- A signed byte of a buffer. -/
def byteInt (m : Mem) (a : Nat) : Int := (Mem.read m a).toInt
/-- The sum of `k` products of signed bytes. -/
def dotBytes (x y : Mem) (a b : Nat) : Nat → Int
  | 0 => 0
  | k + 1 => dotBytes x y a b k + byteInt x (a + k) * byteInt y (b + k)

/-- A live graph object of the current core, in the task's claim and its kernel's (R354). -/
abbrev object (s : State) (va : Word) (g : GObj) : Prop :=
  onCore s ∧ va.toNat % 2 ^ 56 = 0xF0 * 2 ^ 48 + g.off ∧ g.off < 2 ^ 48 ∧ g.off % 64 = 0 ∧ g.off + g.ext ≤ s.cur.claim * 16384 ∧ g.kid = s.cur.kid
/-- A form in the own scratchpad, within the claim (R354). -/
abbrev formAt (s : State) (va : Word) (n : Nat) : Prop :=
  va.toNat % 2 ^ 56 / 2 ^ 48 = 0xF0 ∧ va.toNat % 4 = 0 ∧ va.toNat % 2 ^ 48 + n ≤ s.cur.claim * 16384
/-- The variables and factors of the current core. -/
def vars (s : State) : List GObj := (s.core s.curAgent).gmu.vars
def facs (s : State) : List GObj := (s.core s.curAgent).gmu.facs

/-- A record's 32 bytes and `n` bytes of core `a` do not meet. -/
abbrev apart (r : Nat × Nat) (a off n : Nat) : Prop := r.1 ≠ a ∨ r.2 + 32 ≤ off ∨ off + n ≤ r.2
/-- The packed form of dimension `d` at a place, as f32 patterns (R56). -/
def form (s : State) (a at_ d : Nat) : List Nat := words32 (spRead s a at_ (4 * packedLen d)) (packedLen d)
/-- A variable of `d` components and `k` slots as its header says. -/
abbrev variable_ (s : State) (a : Nat) (g : GObj) (d k : Nat) : Prop :=
  findVar s a g.off = some g ∧ spRead s a (g.off + 4) 1 = d ∧ spRead s a (g.off + 5) 1 = k ∧ 1 ≤ d ∧ d ≤ 6 ∧ g.ext = varExtent d k
/-- A factor whose header gives at most 4 variables of at most 6 components. -/
abbrev factor (s : State) (a : Nat) (g : GObj) : Prop :=
  findFac s a g.off = some g ∧ spRead s a (g.off + 4) 1 ≤ 4 ∧ (∀ d ∈ facDims s a g.off, 1 ≤ d ∧ d ≤ 6) ∧ g.ext = facExtent (facDims s a g.off)
/-- The record that an object names. -/
def recordOf (s : State) (a : Nat) (g : GObj) : Nat × Nat := recOf a (spRead s a (g.off + 0x10) 8)
/-- The stores of a GMU operation find their ports free (R140), and its messages find places in the retry buffers (R155). -/
abbrev gmuFree (s : State) (ports : List (Nat × Nat × Nat)) : Prop := busyPort s ports = none ∧ ∀ b, (s.core b).retry.length ≤ 6

/-- The state between the two `fence.dev.sc` of a privileged form (R367). -/
def both (s : State) : State := acquire (release s s.curAgent .dev) (release s s.curAgent .dev).curAgent .dev
/-- The end of a handler's context (R157, R369). -/
def handlerEnd (s : State) : State := endCtx (wcbDrain s s.curAgent) s.curAgent s.curCtx none false
/-- A handler that can end: no child, nothing in flight (R157). -/
abbrev canEnd (s : State) : Prop := s.cur.join = 0 ∧ allLanded s s.curAgent s.curCtx = true
/-- A handler whose ending instruction has acted ends where it can, and otherwise waits to end (R370). -/
def ends (i : Instr) (s u : State) : Prop :=
  (canEnd u → exec i s = .next (handlerEnd u)) ∧ (¬ canEnd u → exec i s = .next (waitFor u .ending))
/-- Context `k` of agent `a` waits for its register write to take effect. -/
def waitsDone (s : State) (a k : Nat) : Prop :=
  ((s.ctx a k).st = .live ∨ (s.ctx a k).st = .saved) ∧ ∃ l u, (s.ctx a k).wait = some ⟨.done, l, u⟩
/-- The SYSWR that a write belongs to still waits for it, in context `k` of agent `a`. -/
def writer (s : State) (r : SysReq) (a k : Nat) : Prop := s.findTask r.task = some (a, k) ∧ waitsDone s a k
/-- No task waits for the write any more. -/
def writerGone (s : State) (r : SysReq) : Prop := ∀ a k, s.findTask r.task = some (a, k) → ¬ waitsDone s a k
/-- The multiplication of an array, which ends though its task is killed. -/
def isMul (c : MxCmd) : Bool := match c with | .mul .. => true | _ => false
/-- The state in which the cores of a killed kernel are gone through: its launches, tasks and commands have ended, and its messages on the way are
gone (R196). -/
def killedTasks (s : State) (kid : BitVec 16) : State :=
  let v := killLaunches s kid
  let u := stopCommands ((kernelTasks v kid).foldl (fun (s : State) t => killTask s t) v) fun _ k => k == kid
  { u with pending := u.pending.filter fun e => !inFlight u kid e }
/-- The CKPT instructions (R378). -/
def ckptForm (i : Instr) : Option OXDA :=
  match i with | .ckptFull o => some o | .ckptIncremental o => some o | .ckptRestore o => some o | .ckptResume o => some o | _ => none
/-- A page of this device, and one of another. -/
abbrev ownPage (s : State) (page : Nat) : Prop := page / 2 ^ 34 % 64 = s.devno.toNat
/-- A host command that has its turn, on a die that runs, and its form (R409, R410). -/
abbrev hostOk (s : State) (c : HostCmd) (n : Nat) : Prop :=
  hostEarlier s c = false ∧ dieRuns s (agentDie c.agent) = true ∧ n ≤ c.len ∧ c.rsv = 0

/-- A window set under another KID. -/
def withKid (w : WSet) (k : BitVec 16) : WSet := { w with kid := k }

/-- The integer a 32-bit lane stands for. -/
def laneInt (w : VWidth) (x : BitVec 32) : Int := int w.width (x.setWidth 64)

/-- The quotient and the remainder that R52 gives for integers of a width: its two fixed cases, else truncation toward zero. -/
def quotInt (w : Width) (a b : Int) : Int :=
  if b = 0 then (if w.signed then -1 else 2 ^ w.bits - 1)
  else if w.signed = true ∧ a = -2 ^ (w.bits - 1) ∧ b = -1 then a else Int.tdiv a b
def remInt (a b : Int) : Int := if b = 0 then a else a - Int.tdiv a b * b

end Sys2Proof.Rule

open Sys2Proof Sys2Proof.Machine

/-- R252, R255 to R261, R313 (VEXT), R47, R262: each integer instruction writes the value its rule gives, with its flags, and nothing else; float minima,
maxima, negation and compares order patterns as signed magnitudes, NaN apart, with no flag. -/
def Obligations.ScalarInstructionsWriteTheirResult : Prop :=
  (
  ∀ (i : Instr) (s : State) (d : Reg) (x fl : Word), Rule.intResult i s.cur = some (d, x, fl) → Ready i s →
    exec i s = .next (s.setCur (wroteG i s.cur d x fl))) ∧
  (
  ∀ (i : Instr) (s : State) (d : Reg) (x fl : Word), Rule.fcmpResult i s.cur = some (d, x, fl) → Ready i s →
    exec i s = .next (s.setCur (wroteG i s.cur d x fl)))

/-- R262, R310, R33, R36: FADD, FSUB, FMUL and FMA, and the active lanes of VFADD, VFSUB, VFMUL and VFMA, complete on any operands: an exact result that
is not zero is rounded once, however it is written as a quotient; a zero result has the sign of the rule and no flags; a NaN operand gives the canonical NaN
without flags, an invalid operation with NV; an infinity stays one, or is the largest finite value with SAT. Inactive lanes are kept, and the flags are
those of the active ones. -/
def Obligations.FloatArithmeticRoundsTheExactResult : Prop :=
  (
  ∀ (i : Instr) (s : State) (d : Reg) (k : Rule.FloatCase), Rule.floatCase i s.cur = some (d, k) → Ready i s →
    ∃ (x : Nat) (fl : Word), exec i s = .next (s.setCur (wroteG i s.cur d (BitVec.ofNat 64 x) fl)) ∧ Rule.floatOut k x fl) ∧
  (
  ∀ (i : Instr) (s : State) (d : Reg) (form : VForm) (k : Rule.FloatCase), Rule.laneCase i s.cur 0 = some (d, form, k) → Ready i s →
    ∃ (v : Line) (g : Nat → Word) (fl : Word), exec i s = .next (s.setCur (wroteV i s.cur d v fl)) ∧ Rule.gathered (Rule.on s.cur form) g fl ∧
      ∀ l, l < 16 → (Rule.on s.cur form l = false → Rule.lane v l = Rule.lane (s.cur.rV d) l) ∧
        ∀ k : Rule.FloatCase, Rule.on s.cur form l = true → Rule.laneCase i s.cur l = some (d, form, k) →
          Rule.floatOut k (Rule.lane v l).toNat (g l))

/-- R305, R36, R52, R307 to R311, R313, R314: each active lane gets the value its rule gives and each inactive lane keeps its old value, without flags;
saturating adds and divisions by lane OR the flags of their active lanes; bit l of a compare is lane l's test where the lane is active and every other
bit is zero. -/
def Obligations.LaneInstructionsWriteActiveLanes : Prop :=
  (
  ∀ (i : Instr) (s : State) (d : Reg) (form : VForm) (r : Nat → BitVec 32), Rule.laneResult i s.cur = some (d, form, r) → Ready i s →
    ∃ v : Line, exec i s = .next (s.setCur (wroteV i s.cur d v 0)) ∧
      ∀ l, l < 16 → Rule.lane v l = if Rule.on s.cur form l then r l else Rule.lane (s.cur.rV d) l) ∧
  (
  ∀ (i : Instr) (s : State) (d : Reg) (form : VForm) (r : Nat → BitVec 32 × Word),
    Rule.laneFlagged i s.cur = some (d, form, r) → Ready i s →
    ∃ (v : Line) (fl : Word), exec i s = .next (s.setCur (wroteV i s.cur d v fl)) ∧
      (∀ l, l < 16 → Rule.lane v l = if Rule.on s.cur form l then (r l).1 else Rule.lane (s.cur.rV d) l) ∧
      Rule.gathered (Rule.on s.cur form) (fun l => (r l).2) fl) ∧
  (
  ∀ (i : Instr) (s : State) (d : Reg) (form : VForm) (r : Nat → Bool), Rule.laneTest i s.cur = some (d, form, r) → Ready i s →
    ∃ x : Word, exec i s = .next (s.setCur (wroteG i s.cur d x 0)) ∧
      ∀ l, l < 64 → x.getLsbD l = (decide (l < 16) && Rule.on s.cur form l && r l))

/-- R264, R236: a taken branch goes to PC + 4 times its signed offset, another to the next instruction; nothing else changes
but the model's mark that a taken branch costs its context a cycle (R254). -/
def Obligations.BranchesGoWhereTheirTestSays : Prop :=
  ∀ (i : Instr) (s : State) (off : BitVec 10) (taken : Bool), Rule.branch i s.cur = some (off, taken) → Ready i s →
    exec i s = .next (s.setCur { s.cur.past i with
      jumped := taken || s.cur.jumped, pc := if taken then s.cur.pc + BitVec.ofInt 64 (4 * off.toInt) else s.cur.pc + BitVec.ofNat 64 (Instr.bytes i) })

/-- R258: ADDA and SUBA step the 56-bit address part and keep the tag; a step out of the range is a fault 0x0D that writes nothing. -/
def Obligations.AddressArithmeticKeepsTheTag : Prop :=
  ∀ (i : Instr) (s : State) (d a : Reg) (n : Int), Rule.addrStep i s.cur = some (d, a, n) → Ready i s →
    let g := s.cur.rG a
    let v : Int := ((g.extractLsb' 0 56).toNat : Int) + n
    (0 ≤ v ∧ v < 2 ^ 56 → exec i s = .next (s.setCur (wroteG i s.cur d (g.extractLsb' 56 8 ++ BitVec.ofInt 56 v) 0))) ∧
      (v < 0 ∨ 2 ^ 56 ≤ v → exec i s = .next (faultCur i s { code := 0x0D }))

/-- R265, R266: jumps and calls by offset and by register: their words, their target, the return address, and the fault of a misaligned
target at the jump itself. -/
def Obligations.JumpsAndCallsReachTheirTarget : Prop :=
  (∀ off : BitVec 23, decodeWords [off ++ 0#1 ++ 0x2C#8] = .instr (.jmp ⟨off⟩) false ∧ decodeWords [off ++ 1#1 ++ 0x2C#8] = .instr (.call ⟨off⟩) false) ∧
  (∀ a : Reg, decodeWords [0#14 ++ a ++ 0#5 ++ 0x30#8] = .instr (.jmpi ⟨a⟩) false ∧
    decodeWords [0#4 ++ 1#5 ++ 0#5 ++ a ++ 0#5 ++ 0x30#8] = .instr (.calli ⟨a⟩) false) ∧
  decodeWords [0x01000030#32] = .instr .ret false ∧
  (∀ w : BitVec 32, w.extractLsb' 0 8 = 0x30#8 → 3 ≤ (w.extractLsb' 23 5).toNat → decodeWords [w] = .illegal) ∧
  (∀ w : BitVec 32, w.extractLsb' 0 8 = 0x30#8 → (w.extractLsb' 23 5).toNat ≤ 2 →
    (w &&& 0xF07C1F00#32 ≠ 0#32 ∨ (w.extractLsb' 23 5 = 2#5 ∧ w.extractLsb' 13 5 ≠ 0#5)) → ∃ i, decodeWords [w] = .instr i true) ∧
  (∀ (o : OJ) (s : State), Ready (.jmp o) s →
    exec (.jmp o) s = .next (s.setCur { s.cur.past (.jmp o) with jumped := true, pc := s.cur.pc + BitVec.ofInt 64 (4 * o.off.toInt) })) ∧
  (∀ (o : OJ) (s : State), Ready (.call o) s →
    exec (.call o) s = .next (s.setCur { s.cur.wG 7 (s.cur.pc + BitVec.ofNat 64 (Instr.bytes (.call o))) with
      wait := none, recent := [], vsp := false, jumped := true, pc := s.cur.pc + BitVec.ofInt 64 (4 * o.off.toInt) })) ∧
  (∀ (i : Instr) (s : State) (x : Word) (link : Bool), Rule.jumpTarget i s.cur = some (x, link) → Ready i s →
    let t : Word := (x.setWidth 56).setWidth 64
    let c := if link then s.cur.wG 7 (s.cur.pc + BitVec.ofNat 64 (Instr.bytes i)) else s.cur
    (t.toNat % 4 = 0 → exec i s = .next (s.setCur { c with wait := none, recent := [], vsp := false, jumped := true, pc := t })) ∧
      (t.toNat % 4 ≠ 0 → exec i s = .next (faultCur i s { code := 0x04, va := x })))

/-- R160, R268, R269: ENTER opens names that read zero, full and untainted, above the open ones, and keeps every other register; LEAVE closes the innermost
scope once its names are full, and keeps every register outside it; the core then serves its refused messages. -/
def Obligations.ScopesOpenAndCloseNames : Prop :=
  (
  ∀ (o : OEnter) (s : State), Ready (.enter o) s →
    let c := s.cur
    let g := 8 * o.s.toNat
    let v := 8 * o.v.toNat
    0 < g + v → c.gOpen + g ≤ 32 → c.vOpen + v ≤ 32 → c.scopes.length < 8 →
    poolUsed (s.core s.curAgent) false + g ≤ 128 → poolUsed (s.core s.curAgent) true + v ≤ 128 →
    ∃ t : Ctx, exec (.enter o) s = .next (s.setCur t) ∧
      t.gOpen = c.gOpen + g ∧ t.vOpen = c.vOpen + v ∧ t.scopes = (g, v) :: c.scopes ∧
      t.pc = c.pc + BitVec.ofNat 64 (Instr.bytes (.enter o)) ∧ t.flags = c.flags ∧ t.win = c.win ∧
      (∀ r : Reg, c.gOpen ≤ r.toNat → r.toNat < c.gOpen + g → t.rG r = 0 ∧ t.fullG r = true ∧ t.taintG r = false) ∧
      (∀ r : Reg, r.toNat < c.gOpen ∨ c.gOpen + g ≤ r.toNat → t.rG r = c.rG r ∧ t.fullG r = c.fullG r ∧ t.taintG r = c.taintG r) ∧
      (∀ r : Reg, c.vOpen ≤ r.toNat → r.toNat < c.vOpen + v → t.rV r = 0 ∧ t.fullV r = true ∧ t.taintV r = false) ∧
      (∀ r : Reg, r.toNat < c.vOpen ∨ c.vOpen + v ≤ r.toNat → t.rV r = c.rV r ∧ t.fullV r = c.fullV r ∧ t.taintV r = c.taintV r)) ∧
  (
  ∀ (s : State) (g v : Nat) (rest : List (Nat × Nat)), Ready .leave s → s.cur.scopes = (g, v) :: rest →
    let c := s.cur
    (∀ j, j < g → c.fullG (BitVec.ofNat 5 (c.gOpen - 1 - j)) = true) → (∀ j, j < v → c.fullV (BitVec.ofNat 5 (c.vOpen - 1 - j)) = true) →
    ∃ t : Ctx, exec .leave s = .next (serve (s.setCur t) s.curAgent) ∧
      t.gOpen = c.gOpen - g ∧ t.vOpen = c.vOpen - v ∧ t.scopes = rest ∧ t.pc = c.pc + BitVec.ofNat 64 (Instr.bytes .leave) ∧
      t.flags = c.flags ∧ t.win = c.win ∧
      (∀ r : Reg, (∀ j, j < g → r ≠ BitVec.ofNat 5 (c.gOpen - 1 - j)) → t.rG r = c.rG r ∧ t.fullG r = c.fullG r ∧ t.taintG r = c.taintG r) ∧
      (∀ r : Reg, (∀ j, j < v → r ≠ BitVec.ofNat 5 (c.vOpen - 1 - j)) → t.rV r = c.rV r ∧ t.fullV r = c.fullV r ∧ t.taintV r = c.taintV r))

/-- R244, R270, R271, R381: register state is read as its table says; FLAGS is read and the named flags cleared once no load is in flight;
PROBE answers whether a register is full without waiting; NOP moves the PC only. -/
def Obligations.RegisterStateIsReadAsListed : Prop :=
  (∀ (o : ORdsr) (s : State) (x : Word), Ready (.rdsr o) s → Rule.sysReg s s.cur o.sr.toNat = some x →
    exec (.rdsr o) s = .next (s.setCur ((s.cur.wG o.d x).past (.rdsr o)))) ∧
  (∀ (o : ORdsr) (s : State), Ready (.rdsr o) s → o.sr = 0 → loadsInFlight s s.curAgent s.curCtx = false →
    let named : Word := if o.a = o.d ∧ o.d ≠ 0 then s.cur.flags else s.cur.rG o.a
    exec (.rdsr o) s = .next (s.setCur (({ s.cur with flags := s.cur.flags &&& ~~~ named }.wG o.d s.cur.flags).past (.rdsr o)))) ∧
  (∀ (o : OProbe) (s : State), Ready (.probe o) s →
    exec (.probe o) s = .next (s.setCur
      ((s.cur.wG o.d (if (if o.vec then s.cur.fullV o.a else s.cur.fullG o.a) then 1 else 0)).past (.probe o)))) ∧
  (∀ s : State, Ready .nop s → exec .nop s = .next (s.setCur (s.cur.past .nop)))

/-- R380, R224: the words of BRK, whose reserved bits must be zero; BRK in any mode freezes its context with fault 0x1D at its own PC, and with H also
triggers group hg of its die in the same step. -/
def Obligations.BreakFreezesWithCode1D : Prop :=
  (∀ w : BitVec 32, w &&& 0x0F8000FF#32 = 0x02000034#32 → decodeWords [w] = .instr (.brk ⟨w.getLsbD 28, w.extractLsb' 8 4⟩)
    (decide (w &&& 0xE07FF000#32 ≠ 0#32))) ∧
  (∀ (w : BitVec 32) (s u : State), w &&& 0x0F8000FF#32 = 0x02000034#32 → w &&& 0xE07FF000#32 ≠ 0#32 → fetchInstr s s.cur.pc = .words [w] u →
    nextInstr s = .stop (takeFault u u.curAgent u.curCtx { code := 0x02 } (insnWords [w]))) ∧
  (∀ (o : OBrk) (s : State), Instr.privileged (.brk o) = false ∧ (Ready (.brk o) s →
    exec (.brk o) s = .next (faultCur (.brk o) (if o.h then haltGroup s (agentDie s.curAgent) o.hg.toNat true else s) { code := 0x1D })))

/-- R27, R34, R263, R312: CVT completes on every value, and so does VCVT on each active lane, with the result and the flags of the row of R34 for its
source and destination: integers wrap or saturate, become rounded floats and ternary codes; floats are rounded to floats, to integers with CVTBAD outside
the range, and to ternary codes. Inactive lanes are kept. -/
def Obligations.ConversionsFollowTheirFormats : Prop :=
  (
  ∀ (o : OCvt) (s : State), Ready (.cvt o) s →
    ∃ (x fl : Word), exec (.cvt o) s = .next (s.setCur (wroteG (.cvt o) s.cur o.d x fl)) ∧
      Rule.converted o.dfmt o.sfmt o.rm o.sat (s.cur.rG o.a) x fl) ∧
  (
  ∀ (o : OVCvt) (s : State), Ready (.vcvt o) s →
    ∃ (v : Line) (g : Nat → Word) (fl : Word), exec (.vcvt o) s = .next (s.setCur (wroteV (.vcvt o) s.cur o.d v fl)) ∧
      Rule.gathered (Rule.on s.cur o.form) g fl ∧
      ∀ l, l < 16 → (Rule.on s.cur o.form l = false → Rule.lane v l = Rule.lane (s.cur.rV o.d) l) ∧
        (Rule.on s.cur o.form l = true → ∃ z : Word, Rule.lane v l = z.setWidth 32 ∧
          Rule.converted o.dfmt o.sfmt o.rm o.sat ((Rule.lane (s.cur.rV o.a) l).setWidth 64) z (g l)))

/-- R310, R53, R55: VRCP and VRSQ complete on every operand; the active lanes that hold the special values of R53 are the rule's, with its flags, and
so is VRCP of 3. -/
def Obligations.ReciprocalsOfSpecialValues : Prop :=
  (∀ (o : OV2) (s : State), Ready (.vrcp o) s →
    ∃ (v : Line) (g : Nat → Word) (fl : Word), exec (.vrcp o) s = .next (s.setCur (wroteV (.vrcp o) s.cur o.d v fl)) ∧
      Rule.gathered (Rule.on s.cur o.form) g fl ∧
      ∀ l, l < 16 → (Rule.on s.cur o.form l = false → Rule.lane v l = Rule.lane (s.cur.rV o.d) l) ∧
        (Rule.on s.cur o.form l = true →
          let x := Rule.lane (s.cur.rV o.a) l
          let r := (Rule.lane v l, g l)
          let top (s : Bool) : BitVec 32 := if s then 0x80000000 else 0
          (Rule.isNaN ffF32 x.toNat = true → r = (0x7FC00000, 0)) ∧ (x = 0x40400000 → r = (0x3EAAAAAB, flagNX)) ∧
          (∀ s : Bool, (x = 0x7F800000 ||| top s → r = (top s, 0)) ∧ (x = top s → r = (0x7F800000 ||| top s, flagDZ)) ∧
            (∀ e : Nat, 1 ≤ e → e ≤ 253 → x = BitVec.ofNat 32 (e * 2 ^ 23) ||| top s → r = (BitVec.ofNat 32 ((254 - e) * 2 ^ 23) ||| top s, 0)) ∧
            (x = 0x7F000000 ||| top s → r = (0x00400000 ||| top s, 0)) ∧ (x = 0x00400000 ||| top s → r = (0x7F000000 ||| top s, 0)) ∧
            (∀ k : Nat, k ≤ 21 → x = BitVec.ofNat 32 (2 ^ k) ||| top s → r = (0x7F800000 ||| top s, flagOF ||| flagNX))))) ∧
  (∀ (o : OV2) (s : State), Ready (.vrsq o) s →
    ∃ (v : Line) (g : Nat → Word) (fl : Word), exec (.vrsq o) s = .next (s.setCur (wroteV (.vrsq o) s.cur o.d v fl)) ∧
      Rule.gathered (Rule.on s.cur o.form) g fl ∧
      ∀ l, l < 16 → (Rule.on s.cur o.form l = false → Rule.lane v l = Rule.lane (s.cur.rV o.d) l) ∧
        (Rule.on s.cur o.form l = true →
          let x := Rule.lane (s.cur.rV o.a) l
          let r := (Rule.lane v l, g l)
          (Rule.isNaN ffF32 x.toNat = true → r = (0x7FC00000, 0)) ∧ (x = 0x7F800000 → r = (0, 0)) ∧
          (x = 0 → r = (0x7F800000, flagDZ)) ∧ (x = 0x80000000 → r = (0xFF800000, flagDZ)) ∧
          (Rule.isNaN ffF32 x.toNat = false → Rule.negative ffF32 x.toNat = true → 0 < Rule.magnitude ffF32 x.toNat → r = (0x7FC00000, flagNV)) ∧
          (∀ e : Nat, e % 2 = 1 → e ≤ 253 → x = BitVec.ofNat 32 (e * 2 ^ 23) → r = (BitVec.ofNat 32 ((381 - e) / 2 * 2 ^ 23), 0)) ∧
          (∀ k : Nat, k % 2 = 1 → k ≤ 21 → x = BitVec.ofNat 32 (2 ^ k) → r = (BitVec.ofNat 32 ((127 + (149 - k) / 2) * 2 ^ 23), 0))))

/-- R192, R208, R210, R213, R216, R229: a fault of a live context with no load in flight freezes it at its PC, leaves every register as it was, and
sends its packet to ch1 of its kernel's fault agent. A world violation's packet there has no address, and the monitor gets the full record with the PA. A
read of what a stopped die or an unreachable device held also gives a record, which goes before. A trap handler that faults sends no packet there: it
freezes, and is killed with the context it served, and both packets go to the monitor. The bytes of a packet hold its fields, and give them back. -/
def Obligations.TakingAFaultFreezesTheContext : Prop :=
  (
  (∀ (s : State) (a k : Nat) (f : FInfo) (insn : BitVec 128), k < 8 → loadsInFlight s a k = false → (s.ctx a k).st = .live →
    ∃ (p : Packet) (u : State), Rule.packetOf s a k f insn p ∧
      (¬ (f.code = 0x1B ∧ f.sub = 3) → u = s) ∧
      (f.code = 0x1B → f.sub = 3 → ∃ n : Msg, u = s.pend (.faultPacketArrive n) ∧ n.payload.getLsbD 31 = true ∧ n.dst = Rule.servedBy s (s.ctx a k).kid) ∧
      let v := u.setCtx a k { s.ctx a k with st := .frozen, wait := none, frozenBy := some p }
      let full : Packet := { p with insn := insn.extractLsb' 64 64 ++ BitVec.ofNat 64 f.pa }
      ((s.ctx a k).served = none → f.code ≠ 0x0C → ∃ m : Msg, takeFault s a k f insn = v.pend (.faultPacketArrive m) ∧
        Rule.carries m p ∧ m.kid = (s.ctx a k).kid ∧ m.dst = Rule.servedBy s (s.ctx a k).kid) ∧
      ((s.ctx a k).served = none → f.code = 0x0C →
        ∃ m n : Msg, takeFault s a k f insn = (v.pend (.faultPacketArrive m)).pend (.faultPacketArrive n) ∧
          Rule.carries m { p with va := 0, ia := 0 } ∧ m.kid = (s.ctx a k).kid ∧ m.dst = Rule.servedBy s (s.ctx a k).kid ∧
          Rule.carries n full ∧ n.dst = 2055) ∧
      (∀ q, (s.ctx a k).served = some q → takeFault s a k f insn = v.pend (.faultFreeze a k (if f.code = 0x0C then full else p)))) ∧
  (∀ (s : State) (a k : Nat) (p q : Packet), s.ev = some (.faultFreeze a k p) → (s.ctx a k).task = p.task → (s.ctx a k).st = .frozen →
    (s.ctx a k).served = some q →
    ∃ m n : Msg, exec .faultFreeze s =
        .next (((killServed (killCtx s.took a k) (s.ctx a k)).pend (.faultPacketArrive m)).pend (.faultPacketArrive n)) ∧
      Rule.carries m p ∧ m.dst = 2055 ∧ Rule.carries n q ∧ n.dst = 2055)) ∧
  (
  ∀ p : Packet, Packet.ofBits p.bits = p ∧
    p.bits.extractLsb' 0 8 = p.code ∧ p.bits.extractLsb' 8 8 = p.agent ∧ p.bits.extractLsb' 16 8 = p.sub ∧
    p.bits.extractLsb' 24 3 = p.ctx ∧ p.bits.extractLsb' 27 4 = 0#4 ∧ p.bits.getLsbD 31 = p.noctx ∧
    p.bits.extractLsb' 32 32 = p.task ∧ p.bits.extractLsb' 64 16 = p.kid ∧ p.bits.extractLsb' 80 12 = p.core ∧
    p.bits.extractLsb' 92 4 = p.stage ∧ p.bits.extractLsb' 96 16 = p.inst ∧ p.bits.extractLsb' 112 16 = p.info ∧
    p.bits.extractLsb' 128 64 = p.pc ∧ p.bits.extractLsb' 192 64 = p.va ∧ p.bits.extractLsb' 256 64 = p.ia ∧
    p.bits.extractLsb' 320 64 = p.time ∧ p.bits.extractLsb' 384 128 = p.insn)

/-- R84 to R86, R91, R92, R161, R197, R198, R209, R242: an instruction that a check before its effect turns away freezes its context with that check's
code (open names 0x01, privilege 0x1F, field rules 0x02, an empty register named with a set E bit 0x03, in this order), or waits for an empty register.
A misaligned address is a fault 0x04; one above the local windows, beyond the claim, or in no range register a fault 0x05; one that the lowest matching
range register does not allow a fault 0x07. On this device the home's cached leaf, or the walk, decides: no valid entry and a malformed one go the way of a
page fault, a leaf that does not allow the access is a fault 0x07, another world's frame a fault 0x0C, and a load that nothing else refuses reads the frame
that the leaf names. -/
def Obligations.IssueChecksComeInOrder : Prop :=
  (
  ∀ (i : Instr) (s : State) (k : Ctx → State), s.cur.canIssue = true →
    let c := s.cur
    let opened := ∀ r ∈ i.roles, c.openName r.vec r.reg = true
    let allowed := Instr.privileged i = true → c.priv = true
    (¬ opened → issue i s k = .next (faultCur i s { code := 0x01 })) ∧
    (opened → ¬ allowed → issue i s k = .next (faultCur i s { code := 0x1F })) ∧
    (opened → allowed → i.wf = false → issue i s k = .next (faultCur i s { code := 0x02 })) ∧
    (opened → allowed → i.wf = true → (∃ r ∈ i.roles, r.src = true ∧ eSet i r = true ∧ c.fullR r = false) →
      ∃ r ∈ i.roles, r.src = true ∧ eSet i r = true ∧ c.fullR r = false ∧
        issue i s k = .next (faultCur i s { code := 0x03, info := r.reg.setWidth 16 })) ∧
    (opened → allowed → i.wf = true → (∀ r ∈ i.roles, r.src = true → eSet i r = true → c.fullR r = true) →
      (∃ r ∈ i.roles, (r.src || r.dst) = true ∧ c.fullR r = false) → issue i s k = .next (waitFor s .retry))) ∧
  (
  ∀ (s : State) (x : Acc) (va : Word) (n : Nat) (k : AKind), x.eng = none →
    let a := va.toNat % 2 ^ 56
    (∀ al, a % al ≠ 0 → resolve s x va n al k = faultAt 0x04 va) ∧
    (0xF2 < a / 2 ^ 48 → resolve s x va n 1 k = faultAt 0x05 va) ∧
    (∀ off, a = 0xF0 * 2 ^ 48 + off → off < 2 ^ 48 →
      (2048 ≤ x.agent ∨ x.claim * 16384 < off + n → resolve s x va n 1 k = faultAt 0x05 va) ∧
      (x.agent < 2048 → off + n ≤ x.claim * 16384 → (k = .fetch → resolve s x va n 1 k = faultAt 0x07 va) ∧
        (k ≠ .fetch → (x.agent, off / 64) ∉ s.spPoison → resolve s x va n 1 k = .ok (.scratch x.agent off)))) ∧
    (a / 2 ^ 48 < 0xF0 →
      ((∀ i : Fin 4, ¬ Rule.inWindow x.win[i] a) → resolve s x va n 1 k = faultAt 0x05 va) ∧
      (∀ i : Fin 4, Rule.inWindow x.win[i] a → (∀ j : Fin 4, j < i → ¬ Rule.inWindow x.win[j] a) →
        (Rule.windowAllows x.win[i] k = false → resolve s x va n 1 k = faultAt 0x07 va) ∧
        (Rule.windowAllows x.win[i] k = true → ∀ ia, ia = Rule.windowIa x.win[i] a → ia / 2 ^ 46 % 64 = s.devno.toNat → ia / 2 ^ 44 % 4 ≠ 3 →
          (cached s (ia / 4096) = none → s.thboot = false → ∀ d t, d ≤ 3 → Rule.tableAt s ia d = some t →
            let e := Rule.entry s ia (3 - d) t
            (e.getLsbD 63 = false → resolve s x va n 1 k = .error (.page 0x06 1 ia)) ∧
            (e.getLsbD 63 = true → Rule.malformed s e (3 - d) → resolve s x va n 1 k = .error (.page 0x06 2 ia))) ∧
          (∀ e f, Rule.mapped s ia e f → badFrame s (f * 4096) = false →
            let pa := f * 4096 + ia % 4096
            let perm := match k with | .rd => e.getLsbD 56 | .wr | .at => e.getLsbD 57 | .fetch => e.getLsbD 55
            (perm = false → resolve s x va n 1 k = faultAt 0x07 va ia pa) ∧
            (perm = true → x.agent ≠ 2055 → x.world ≠ frameWorld s pa → resolve s x va n 1 k = faultAt 0x0C va ia pa) ∧
            (∀ ty : PType, perm = true → k = .rd → (x.agent = 2055 ∨ x.world = frameWorld s pa) → ty = Pte.ty e →
              ptypeOf ((ftEntry s pa).extractLsb' 61 2).toNat = ty → (ty = .prv → ((ftEntry s pa).extractLsb' 0 32) = x.task) →
              (e.getLsbD 58 = true ∨ readsPoison s x ia pa ty .rd = false) → (s.die (frameDie pa)).stopped = false →
              resolve s x va n 1 k = .ok (.mem ia pa ty (e.getLsbD 58))))))))

/-- R274, R276, R272, R161, R110: LD, LD.ACQ and LDC complete on any accepted path: the value read along it lands later in the destination, which is
empty until then; LD extends it and may step its base; LD.ACQ acquires at its scope after it; LDC taints it and keeps its scope; LDS completes the same
way on a full word, acquiring at `dev`, and waits on an empty one. -/
def Obligations.LoadsLandWhatTheirPathReads : Prop :=
  (∀ (o : OLd) (s : State) (va nb : Word) (p : Path), Ready (.ld o) s →
    let n : Nat := 2 ^ o.sz.toNat
    effAddr (s.cur.rG o.base) (o.off.toInt * n) o.pi = some (va, nb) → resolve s (curAcc s) va n n .rd .any = .ok p →
    pathHold s (curAcc s) p n .rd = none →
    let r := readPath (taintAcquire s (s.cur.taintG o.base)) (curAcc s) p n
    let v := if o.sx then wrapN (readInt r.1 (8 * n) true) 64 else r.1 % 2 ^ (8 * n)
    exec (.ld o) s = .next (done (.ld o) (landG (postInc r.2 o.base o.pi nb) o.d v))) ∧
  (∀ (o : OLdo) (s : State) (va nb : Word) (p : Path), Ready (.ldAcq o) s →
    let n : Nat := 2 ^ o.sz.toNat
    effAddr (s.cur.rG o.base) (o.off.toInt * n) false = some (va, nb) → resolve s (curAcc s) va n n .rd .any = .ok p →
    pathHold s (curAcc s) p n .rd = none →
    let r := readPath (taintAcquire s (s.cur.taintG o.base)) (curAcc s) p n
    let t := acquire r.2 r.2.curAgent o.scope
    exec (.ldAcq o) s = .next (done (.ldAcq o) (landG t o.d r.1))) ∧
  (∀ (o : OLdo) (s : State) (va nb : Word) (p : Path), Ready (.ldc o) s →
    let n : Nat := 2 ^ o.sz.toNat
    effAddr (s.cur.rG o.base) (o.off.toInt * n) false = some (va, nb) → resolve s (curAcc s) va n n .rd .any = .ok p →
    pathHold s (curAcc s) p n .rd = none →
    let r := readPath (taintAcquire s (s.cur.taintG o.base)) (curAcc s) p n
    ∃ t : State, exec (.ldc o) s = .next t ∧ o.scope ∈ t.cur.ldcs ∧ (∀ x ∈ r.2.cur.ldcs, x ∈ t.cur.ldcs) ∧
      (o.d ≠ 0 → t.cur.taintG o.d = true ∧ t.cur.fullG o.d = false) ∧
      Ev.loadLand ⟨s.curAgent, s.curCtx, r.2.cur.task, false, o.d, BitVec.ofNat 512 (r.1 % 2 ^ 64), 0⟩ ∈ t.pending) ∧
  (∀ (o : OLds) (s : State) (va nb : Word) (ia pa : Nat) (ty : PType), Ready (.lds o) s →
    effAddr (s.cur.rG o.base) (o.off.toInt * 8) false = some (va, nb) → resolve s (curAcc s) va 8 8 .rd .lds = .ok (.mem ia pa ty false) →
    (pa / 8 ∈ s.wsoFull → let r := readPath (taintAcquire s (s.cur.taintG o.base)) (curAcc s) (.mem ia pa ty false) 8
      let t := acquire r.2 r.2.curAgent .dev
      exec (.lds o) s = .next (done (.lds o) (landG t o.d r.1))) ∧
    (pa / 8 ∉ s.wsoFull → exec (.lds o) s = .next (waitFor s .retry (s.cur.rG o.c).toNat)))

/-- R84, R107, R274: LD from the own scratchpad reads its bytes little-endian, extends them, and changes no memory. -/
def Obligations.ScratchpadLoadsReadLittleEndian : Prop :=
  ∀ (o : OLd) (s : State) (va nb : Word) (off : Nat), Ready (.ld o) s → s.cur.taintG o.base = false →
    let n : Nat := 2 ^ o.sz.toNat
    effAddr (s.cur.rG o.base) (o.off.toInt * n) o.pi = some (va, nb) → Rule.ownScratch s va n n off → Rule.unpoisoned s off →
    ∃ (x : Nat) (t : State), exec (.ld o) s = .next t ∧ x < 2 ^ (8 * n) ∧ (∀ j, j < n → x / 256 ^ j % 256 = (Rule.spByte s (off + j)).toNat) ∧
      t.pending = s.pending ++ [.loadLand ⟨s.curAgent, s.curCtx, s.cur.task, false, o.d,
        BitVec.ofNat 512 (if o.sx && decide (2 ^ (8 * n - 1) ≤ x) then x + (2 ^ 64 - 2 ^ (8 * n)) else x), 0⟩] ∧
      Rule.onlyScratch s t ∧ (∀ b, Rule.spByte t b = Rule.spByte s b) ∧
      (o.pi = true → o.base ≠ o.d → t.cur.rG o.base = if o.base = 0 then 0 else nb)

/-- R161: a landing value fills its register, adds its flags, and is dropped where its task has left. -/
def Obligations.LandingFillsTheRegister : Prop :=
  (∀ (s : State) (l : Landing), s.ev = some (.loadLand l) → (s.ctx l.agent l.ctx).task = l.task → l.ctx < 8 →
    (s.ctx l.agent l.ctx).st ≠ .free → (s.ctx l.agent l.ctx).st ≠ .reserved →
    ∃ t : State, exec .loadLand s = .next t ∧ t.ev = none ∧ (t.ctx l.agent l.ctx).flags = (s.ctx l.agent l.ctx).flags ||| l.flags ∧
      (l.vec = false → l.reg ≠ 0 → (t.ctx l.agent l.ctx).rG l.reg = l.value.setWidth 64 ∧ (t.ctx l.agent l.ctx).fullG l.reg = true ∧
        (t.ctx l.agent l.ctx).taintG l.reg = (s.ctx l.agent l.ctx).taintG l.reg) ∧
      (l.vec = true → (t.ctx l.agent l.ctx).rV l.reg = l.value ∧ (t.ctx l.agent l.ctx).fullV l.reg = true) ∧
      (∀ r, l.vec = true ∨ r ≠ l.reg → (t.ctx l.agent l.ctx).rG r = (s.ctx l.agent l.ctx).rG r) ∧
      (∀ r, l.vec = false ∨ r ≠ l.reg → (t.ctx l.agent l.ctx).rV r = (s.ctx l.agent l.ctx).rV r) ∧
      (t.ctx l.agent l.ctx).pc = (s.ctx l.agent l.ctx).pc ∧ t.hbm = s.hbm)

/-- R274, R277, R110: ST and ST.REL complete on any accepted path that does not hold them: the low bytes of the source go along it; on a
WSO page they release at `dev` or wider first; ST.REL releases at its scope once what it waits for is in. -/
def Obligations.StoresWriteTheirPath : Prop :=
  (∀ (o : OSt) (s : State) (va nb : Word) (p : Path), Ready (.st o) s →
    let n : Nat := 2 ^ o.sz.toNat
    effAddr (s.cur.rG o.base) (o.off.toInt * n) o.pi = some (va, nb) → resolve s (curAcc s) va n n .wr (if n = 8 then .wsoStore else .any) = .ok p →
    pathHold s (curAcc s) p n .wr = none →
    let s1 := taintAcquire (if p.isWso then release s s.curAgent .dev else s) (s.cur.taintG o.base)
    let t := writePath s1 (curAcc s1) p n ((s.cur.rG o.s).toNat % 2 ^ (8 * n))
    exec (.st o) s = .next (done (.st o) (postInc t o.base o.pi nb))) ∧
  (∀ (o : OSto) (s : State) (va nb : Word) (p : Path), Ready (.stRel o) s →
    let n : Nat := 2 ^ o.sz.toNat
    effAddr (s.cur.rG o.base) (o.off.toInt * n) false = some (va, nb) →
    resolve s (curAcc s) va n n .wr (if n = 8 then .wsoStore else .any) = .ok p →
    pathHold s (curAcc s) p n .wr = none →
    let sc := if p.isWso then Scope.max o.scope .dev else o.scope
    Rule.releases s sc →
    let s1 := taintAcquire (release s s.curAgent sc) (s.cur.taintG o.base)
    let t := writePath s1 (curAcc s1) p n ((s.cur.rG o.s).toNat % 2 ^ (8 * n))
    exec (.stRel o) s = .next (done (.stRel o) t))

/-- R84, R109, R274: ST to the own scratchpad changes exactly its bytes: they are the low bytes of the source, every other byte of every memory is
as it was, and every register but a stepped base. -/
def Obligations.ScratchpadStoresChangeTheirBytesOnly : Prop :=
  ∀ (o : OSt) (s : State) (va nb : Word) (off : Nat), Ready (.st o) s → s.cur.taintG o.base = false →
    let n : Nat := 2 ^ o.sz.toNat
    effAddr (s.cur.rG o.base) (o.off.toInt * n) o.pi = some (va, nb) → Rule.ownScratch s va n n off → Rule.unpublished s off n →
    ∃ t : State, exec (.st o) s = .next t ∧
      (∀ j, j < n → (Rule.spByte t (off + j)).toNat = (s.cur.rG o.s).toNat / 256 ^ j % 256) ∧
      (∀ b, b < off ∨ off + n ≤ b → Rule.spByte t b = Rule.spByte s b) ∧ Rule.onlyScratch s t ∧ t.pending = s.pending ∧
      t.cur.flags = s.cur.flags ∧ (∀ r, t.cur.rV r = s.cur.rV r) ∧
      (∀ r, r ≠ o.base ∨ o.pi = false → t.cur.rG r = s.cur.rG r) ∧ (o.pi = true → o.base ≠ 0 → t.cur.rG o.base = nb) ∧
      t.cur.pc = s.cur.pc + BitVec.ofNat 64 (Instr.bytes (.st o)) ∧ t.cur.win = s.cur.win

/-- R86, R107, R111, R411: ST through the host aperture changes exactly the host memory bytes at its aperture address, or while the host node is silent is
on its way, not acknowledged; a store of a cluster core to a REL or
PRV page enters its write-combining buffer, and while that has room nothing else of memory or the caches changes. -/
def Obligations.StoresReachTheirLevel : Prop :=
  (
  ∀ (o : OSt) (s : State) (va nb : Word) (h : Nat), Ready (.st o) s → s.cur.taintG o.base = false →
    let n : Nat := 2 ^ o.sz.toNat
    effAddr (s.cur.rG o.base) (o.off.toInt * n) o.pi = some (va, nb) →
    resolve s (curAcc s) va n n .wr (if n = 8 then .wsoStore else .any) = .ok (.aperture h) → storesHeld s s.cur.task = false →
    ∃ t : State, exec (.st o) s = .next t ∧
      (hostReached s = true →
        (∀ j, j < n → (t.hostMem.read (h + j)).toNat = (s.cur.rG o.s).toNat / 256 ^ j % 256) ∧
        (∀ b, b < h ∨ h + n ≤ b → t.hostMem.read b = s.hostMem.read b) ∧ t.unacked = s.unacked) ∧
      (hostReached s = false → t.hostMem = s.hostMem ∧
        ∃ u : Unacked, t.unacked = s.unacked ++ [u] ∧ u.host = true ∧ u.task = s.cur.task ∧ u.ia = apertureIa s h ∧ u.n = n ∧
          u.v = (s.cur.rG o.s).toNat % 2 ^ (8 * n) ∧ u.since = s.now) ∧
      t.hbm = s.hbm ∧ t.remote = s.remote ∧ t.dies = s.dies ∧ t.clusters = s.clusters ∧ (∀ a, (t.core a).spad = (s.core a).spad)) ∧
  (
  ∀ (o : OSt) (s : State) (va nb : Word) (ia pa : Nat) (ty : PType) (disc : Bool), Ready (.st o) s → s.cur.taintG o.base = false →
    let n : Nat := 2 ^ o.sz.toNat
    effAddr (s.cur.rG o.base) (o.off.toInt * n) o.pi = some (va, nb) →
    resolve s (curAcc s) va n n .wr (if n = 8 then .wsoStore else .any) = .ok (.mem ia pa ty disc) → ty = .rel ∨ ty = .prv →
    s.curAgent < 2048 → (s.die (frameDie pa)).stopped = false → ownShared s ia = false → storesHeld s s.cur.task = false →
    ((s.core s.curAgent).wcb.length < 16 ∨ ∃ e ∈ (s.core s.curAgent).wcb, e.line = ia / 64) →
    ∃ (t : State) (e : WcbEntry), exec (.st o) s = .next t ∧ t.hbm = s.hbm ∧ t.hostMem = s.hostMem ∧ t.remote = s.remote ∧
      (∀ k, (t.clu k).l1 = (s.clu k).l1) ∧ (∀ d, (t.die d).l2 = (s.die d).l2 ∧ (t.die d).sark = (s.die d).sark) ∧
      (∀ a, (t.core a).spad = (s.core a).spad) ∧ e ∈ (t.core s.curAgent).wcb ∧ e.line = ia / 64 ∧
      (∀ j, j < n → e.mask.getLsbD (pa % 64 + j) = true ∧
        (Line.byte e.data (pa % 64 + j)).toNat = (s.cur.rG o.s).toNat / 256 ^ j % 256) ∧
      (∀ x ∈ (s.core s.curAgent).wcb, x.line ≠ ia / 64 → x ∈ (t.core s.curAgent).wcb))

/-- R29, R32, R275: LDE and STE complete on any accepted element: LDE reads the element and its scale, STE writes the converted source; an element stands where
its tag's format says: whole sizes, two-bit ternary, and blocks with their scale after the elements. -/
def Obligations.TypedElementsFollowTheirTag : Prop :=
  (
  (∀ (o : OLde) (s : State) (f : Fmt) (k : Nat) (e : ElemAddr) (p : Path) (q : Option Path), Ready (.lde o) s →
    tagOf (s.cur.rG o.base) = some (f, k) → elemAddr (s.cur.rG o.base) f k o.off.toInt o.off.toInt o.pi = .ok e →
    resolve s (curAcc s) e.va e.el.bytes e.el.bytes .rd = .ok p → pathHold s (curAcc s) p e.el.bytes .rd = none →
    (match e.scale with | none => q = none | some sv => ∃ r, q = some r ∧ resolve s (curAcc s) sv 2 2 .rd = .ok r ∧ pathHold s (curAcc s) r 2 .rd = none) →
    let r1 := readPath (taintAcquire s (s.cur.taintG o.base)) (curAcc (taintAcquire s (s.cur.taintG o.base))) p e.el.bytes
    let r2 := match q with | none => (0, r1.2) | some q => readPath r1.2 (curAcc r1.2) q 2
    exec (.lde o) s = .next (done (.lde o) (landG (postInc r2.2 o.base o.pi e.nb) o.d
      (ldeValue f (r1.1 / 2 ^ e.el.bit % 2 ^ f.bits) r2.1 o.rm 64).1 (ldeValue f (r1.1 / 2 ^ e.el.bit % 2 ^ f.bits) r2.1 o.rm 64).2))) ∧
  (∀ (o : OSte) (s : State) (f : Fmt) (k : Nat) (e : ElemAddr) (p : Path), Ready (.ste o) s →
    tagOf (s.cur.rG o.base) = some (f, k) → elemAddr (s.cur.rG o.base) f k o.off.toInt o.off.toInt o.pi = .ok e →
    resolve s (curAcc s) e.va e.el.bytes e.el.bytes .wr = .ok p → pathHold s (curAcc s) p e.el.bytes .wr = none →
    let s1 := taintAcquire s (s.cur.taintG o.base)
    let v := steValue f (s.cur.rG o.s).toNat 64 o.rm o.sat
    let t := postInc (storeElem s1 p f e.el v.1) o.base o.pi e.nb
    exec (.ste o) s = .next (done (.ste o) (t.setCur (t.cur.orFlags v.2))))) ∧
  (
  ∀ (f : Fmt) (k : Nat) (e : Int),
    (f = .i32 ∨ f = .n32 ∨ f = .f32 → elemAt f k e = ⟨4 * e, 4, 0, none⟩) ∧
    (f = .i64 ∨ f = .n64 → elemAt f k e = ⟨8 * e, 8, 0, none⟩) ∧
    (f = .i16 ∨ f = .n16 ∨ f = .f16 ∨ f = .bf16 → elemAt f k e = ⟨2 * e, 2, 0, none⟩) ∧
    (f = .i8 ∨ f = .n8 ∨ f = .e4m3 ∨ f = .e5m2 → elemAt f k e = ⟨e, 1, 0, none⟩) ∧
    (f = .t2 → 4 * (elemAt f k e).off + ((elemAt f k e).bit / 2 : Nat) = e ∧ (elemAt f k e).bit < 8 ∧ (elemAt f k e).bytes = 1) ∧
    (f = .sbi8 ∨ f = .sbe4m3 → 2 ≤ k → k ≤ 7 → ∃ b j : Int, e = b * 2 ^ k + j ∧ 0 ≤ j ∧ j < 2 ^ k ∧
      (elemAt f k e).off = b * (2 ^ k + 4) + j ∧ (elemAt f k e).scale = some (b * (2 ^ k + 4) + 2 ^ k)))

/-- R278, R279: AMO completes on any accepted path, after its release and before its acquire where its order has them; on the own scratchpad it returns the old value, writes
what its operation gives, and leaves every other byte. -/
def Obligations.AtomicsReadAndWriteAtOnce : Prop :=
  (∀ (o : OAmo) (s : State) (va nb : Word) (p : Path), Ready (.amo o) s →
    let n : Nat := o.fmt.bits / 8
    effAddr (s.cur.rG o.base) (o.off.toInt * n) false = some (va, nb) → resolve s (curAcc s) va n n .at .any = .ok p →
    pathHold s (curAcc s) p n .at = none →
    let rel := o.order = .rel ∨ o.order = .acqrel
    (rel → Rule.releases s o.scope) →
    let x := (s.cur.rG o.c).toNat % 2 ^ (8 * n)
    let y := (s.cur.rG o.e).toNat % 2 ^ (8 * n)
    let s0 := if rel then release s s.curAgent o.scope else s
    let s1 := taintAcquire s0 (s.cur.taintG o.base)
    let r := atomicPath s1 (curAcc s1) p n o.scope fun old => (amoNew o.op o.fmt o.sat old x y).1
    let t := if o.order = .acq ∨ o.order = .acqrel then acquire r.2 r.2.curAgent o.scope else r.2
    exec (.amo o) s = .next (done (.amo o) (landG t o.d (extend o.fmt r.1 64) (amoNew o.op o.fmt o.sat r.1 x y).2))) ∧
  (∀ (o : OAmo) (s : State) (va nb : Word) (off : Nat) (new : Option Nat), Ready (.amo o) s → s.cur.taintG o.base = false →
    o.sat = false → o.order = .sc →
    let n : Nat := o.fmt.bits / 8
    effAddr (s.cur.rG o.base) (o.off.toInt * n) false = some (va, nb) → Rule.ownScratch s va n n off → Rule.unpoisoned s off →
    Rule.unpublished s off n →
    let old := (s.core s.curAgent).spad.readNat off n
    new = Rule.amoInt o.op o.fmt old ((s.cur.rG o.c).toNat % 2 ^ (8 * n)) ((s.cur.rG o.e).toNat % 2 ^ (8 * n)) →
    (new ≠ none ∨ o.op = .cas) →
    ∃ t : State, exec (.amo o) s = .next t ∧
      (∀ j, j < n → (Rule.spByte t (off + j)).toNat = (match new with | some v => v / 256 ^ j % 256 | none => (Rule.spByte s (off + j)).toNat)) ∧
      (∀ b, b < off ∨ off + n ≤ b → Rule.spByte t b = Rule.spByte s b) ∧ Rule.onlyScratch s t ∧
      t.pending = s.pending ++ [.loadLand ⟨s.curAgent, s.curCtx, s.cur.task, false, o.d, BitVec.ofNat 512 (extend o.fmt old 64), 0⟩])

/-- R103, R104, R143, R280, R418: fences of every agent complete (a release once what it waits for is in). A release at `clu` or wider empties a
cluster core's write-combining buffer, at `die` or wider it leaves its L1's REL lines clean, at `dev` or wider those of the die's L2; an acquire at `die` or
wider leaves no clean REL line in the cluster's L1; one of a ridge core leaves none in the die's L2 from `dev` on, and no valid sarking copy from `die`
on. -/
def Obligations.FencesPushAndDrop : Prop :=
  ∀ (o : OFence) (s : State), Ready (.fence o) s → (o.order ≠ .acq → Rule.releases s o.scope) →
    ∃ t : State, exec (.fence o) s = .next t ∧ t.cur.pc = s.cur.pc + BitVec.ofNat 64 (Instr.bytes (.fence o)) ∧
      (∀ r, t.cur.rG r = s.cur.rG r) ∧ t.cur.flags = s.cur.flags ∧
      (s.curAgent < 2048 →
        (o.order ≠ .acq → Scope.ge o.scope .clu = true → (t.core s.curAgent).wcb = []) ∧
        (o.order = .rel → Scope.ge o.scope .die = true →
          ∀ line l, (t.clu (agentClu s.curAgent)).l1.find? line = some l → l.ty = .rel → l.mask = 0) ∧
        (o.order = .acq → Scope.ge o.scope .die = true →
          ∀ line l, (t.clu (agentClu s.curAgent)).l1.find? line = some l → l.ty = .rel → l.mask ≠ 0)) ∧
      (o.order = .rel → Scope.ge o.scope .dev = true →
        ∀ line l, (t.die (agentDie s.curAgent)).l2.find? line = some l → l.ty = .rel → l.mask = 0) ∧
      (2048 ≤ s.curAgent →
        (o.order = .acq → Scope.ge o.scope .dev = true →
          ∀ line l, (t.die (agentDie s.curAgent)).l2.find? line = some l → l.ty = .rel → l.mask ≠ 0) ∧
        (o.order ≠ .rel → Scope.ge o.scope .die = true → ∀ line l, (s.die (agentDie s.curAgent)).sark.find? line = some l →
          l.gen = (s.die (agentDie s.curAgent)).skgen → sarkHit (t.die (agentDie s.curAgent)) line = none))

/-- R79, R130, R282 to R284: SPRESIZE within the array sets the claim to the ways that hold the bytes asked for and answers their size, beyond it fault 0x18,
and so on a ridge core for any size but 0 (DEDUCED, log 15); FLUSHS and INVS complete on ranges of up to 2^30 bytes that one range register holds and
whose mapped pages may be read, on empty ranges and on local windows, and fault 0x02 beyond 2^30; all three wait for the stores of their context that are
held; PREF completes whatever its address is. -/
def Obligations.SpresizeAndMaintenanceComplete : Prop :=
  (
  ∀ (o : ODA) (s : State), Ready (.spresize o) s →
    let n := (s.cur.rG o.a).toNat
    let q := (n + 16383) / 16384
    (s.curAgent < 2048 → q ≤ 18 → storesHeld s s.cur.task = true → exec (.spresize o) s = .next (waitFor s .updates)) ∧
    (s.curAgent < 2048 → q ≤ 18 → storesHeld s s.cur.task = false →
      ∃ t : State, exec (.spresize o) s = .next t ∧ t.cur.claim = q ∧ (o.d ≠ 0 → t.cur.rG o.d = BitVec.ofNat 64 (q * 16384)) ∧
        (s.cur.claim ≤ q → q ≤ (t.core s.curAgent).nWays) ∧ (∀ r, r ≠ o.d → t.cur.rG r = s.cur.rG r) ∧
        t.cur.pc = s.cur.pc + BitVec.ofNat 64 (Instr.bytes (.spresize o))) ∧
    (18 < q ∨ (2048 ≤ s.curAgent ∧ q ≠ 0) → exec (.spresize o) s = .next (faultCur (.spresize o) s { code := 0x18 }))) ∧
  (
  (∀ (o : ORange) (s : State) (lo hi : Nat), (s.cur.rG o.b).toNat ≤ 2 ^ 30 → (s.cur.rG o.b).toNat ≠ 0 →
    rangeIa s s.cur (s.cur.rG o.a) (s.cur.rG o.b).toNat = .ok (some (lo, hi)) → rangeNoRead s lo hi = false →
    (heldIn s s.cur.task lo hi = true → (Ready (.flushs o) s → exec (.flushs o) s = .next (waitFor s .updates)) ∧
      (Ready (.invs o) s → exec (.invs o) s = .next (waitFor s .updates))) ∧
    (heldIn s s.cur.task lo hi = false →
    (Ready (.flushs o) s → exec (.flushs o) s = .next (done (.flushs o) (pushTo s s.curAgent o.scope (relLine s lo hi)))) ∧
    (Ready (.invs o) s → ∃ t : State, exec (.invs o) s = .next t ∧ t.cur.pc = s.cur.pc + BitVec.ofNat 64 (Instr.bytes (.invs o)) ∧
      ∀ r, t.cur.rG r = s.cur.rG r))) ∧
  (∀ (o : ORange) (s : State), ((s.cur.rG o.b).toNat = 0 ∨
      ((s.cur.rG o.b).toNat ≤ 2 ^ 30 ∧ rangeIa s s.cur (s.cur.rG o.a) (s.cur.rG o.b).toNat = .ok none)) →
    (Ready (.flushs o) s → exec (.flushs o) s = .next (done (.flushs o) s)) ∧ (Ready (.invs o) s → exec (.invs o) s = .next (done (.invs o) s))) ∧
  (∀ (o : ORange) (s : State), 2 ^ 30 < (s.cur.rG o.b).toNat →
    (Ready (.flushs o) s → exec (.flushs o) s = .next (faultCur (.flushs o) s { code := 0x02 })) ∧
    (Ready (.invs o) s → exec (.invs o) s = .next (faultCur (.invs o) s { code := 0x02 }))) ∧
  (∀ (o : OPref) (s : State), Ready (.pref o) s →
    ∃ t : State, exec (.pref o) s = .next t ∧ t.cur.pc = s.cur.pc + BitVec.ofNat 64 (Instr.bytes (.pref o)) ∧ ∀ r, t.cur.rG r = s.cur.rG r))

/-- R76, R315, R316, R319: VLD and VST move the active lanes of a 64-byte group of the own scratchpad; VLSLD and VLSST move the active lanes of a lane-slice task
between a register and its slices, 2 KiB a lane, and advance the active lanes of the base with PI; other lanes and other bytes stay. -/
def Obligations.VectorMemoryMovesActiveLanes : Prop :=
  (
  (∀ (o : OVMem) (s : State) (va nb : Word) (off : Nat), Ready (.vld o) s → s.cur.taintG o.base = false →
    effAddr (s.cur.rG o.base) (o.off.toInt * 64) o.pi = some (va, nb) → Rule.ownScratch s va 64 64 off → Rule.unpoisoned s off →
    (∃ l, l < 16 ∧ Rule.on s.cur o.form l = true) →
    ∃ (v : Line) (t : State), exec (.vld o) s = .next t ∧
      t.pending = s.pending ++ [.loadLand ⟨s.curAgent, s.curCtx, s.cur.task, true, o.r, v, 0⟩] ∧ Rule.onlyScratch s t ∧
      (∀ b, Rule.spByte t b = Rule.spByte s b) ∧ t.cur.fullV o.r = false ∧
      ∀ l, l < 16 → Rule.lane v l = if Rule.on s.cur o.form l then BitVec.ofNat 32 ((s.core s.curAgent).spad.readNat (off + 4 * l) 4)
        else Rule.lane (s.cur.rV o.r) l) ∧
  (∀ (o : OVMem) (s : State) (va nb : Word) (off : Nat), Ready (.vst o) s → s.cur.taintG o.base = false →
    effAddr (s.cur.rG o.base) (o.off.toInt * 64) o.pi = some (va, nb) → Rule.ownScratch s va 64 64 off → Rule.unpublished s off 64 →
    (∃ l, l < 16 ∧ Rule.on s.cur o.form l = true) →
    ∃ t : State, exec (.vst o) s = .next t ∧ Rule.onlyScratch s t ∧
      (∀ l, l < 16 → BitVec.ofNat 32 ((t.core s.curAgent).spad.readNat (off + 4 * l) 4) =
        if Rule.on s.cur o.form l then Rule.lane (s.cur.rV o.r) l else BitVec.ofNat 32 ((s.core s.curAgent).spad.readNat (off + 4 * l) 4)) ∧
      (∀ b, b < off ∨ off + 64 ≤ b → Rule.spByte t b = Rule.spByte s b) ∧ (∀ r, t.cur.rV r = s.cur.rV r)) ∧
  (∀ (o : OVMem) (s : State) (va nb : Word), effAddr (s.cur.rG o.base) (o.off.toInt * 64) o.pi = some (va, nb) →
    (∀ l, l < 16 → Rule.on s.cur o.form l = false) →
    (Ready (.vld o) s → exec (.vld o) s = .next (done (.vld o) (postInc s o.base o.pi nb))) ∧
    (Ready (.vst o) s → exec (.vst o) s = .next (done (.vst o) (postInc s o.base o.pi nb))))) ∧
  (
  (∀ (o : OVMem) (s : State), Ready (.vlsld o) s → s.cur.lane = true →
    (∀ l, l < 16 → Rule.on s.cur o.form l = true → sliceFault s.cur o l = none) →
    ∃ v w : Line, exec (.vlsld o) s = .next (s.setCur (Rule.sliceBase (s.cur.wV o.r v) s.cur o w |>.past (.vlsld o))) ∧ Rule.advanced s.cur o w ∧
      ∀ l, l < 16 → Rule.lane v l = if Rule.on s.cur o.form l then BitVec.ofNat 32 ((s.core s.curAgent).lanes.readNat (Rule.slice s.cur o l) 4)
        else Rule.lane (s.cur.rV o.r) l) ∧
  (∀ (o : OVMem) (s : State), Ready (.vlsst o) s → s.cur.lane = true →
    (∀ l, l < 16 → Rule.on s.cur o.form l = true → sliceFault s.cur o l = none) →
    ∃ (w : Line) (t : State), exec (.vlsst o) s = .next t ∧ Rule.advanced s.cur o w ∧
      (∀ l, l < 16 → Rule.on s.cur o.form l = true →
        BitVec.ofNat 32 ((t.core s.curAgent).lanes.readNat (Rule.slice s.cur o l) 4) = Rule.lane (s.cur.rV o.r) l) ∧
      (∀ b, (∀ l, l < 16 → Rule.on s.cur o.form l = true → b < Rule.slice s.cur o l ∨ Rule.slice s.cur o l + 4 ≤ b) →
        (t.core s.curAgent).lanes.read b = (s.core s.curAgent).lanes.read b) ∧
      t.hbm = s.hbm ∧ (t.core s.curAgent).spad = (s.core s.curAgent).spad ∧ (∀ r, t.cur.rG r = s.cur.rG r) ∧
      (∀ r, t.cur.rV r = if o.pi = true ∧ r = o.base then w else s.cur.rV r)))

/-- R250, R317, R318: VLDE, VSTE, VLDX and VSTX complete once every active lane's access is accepted, their lanes taken in ascending order; with no
active lane they access nothing; a post-increment steps the base over 16 times its offset's elements, and another form keeps it. -/
def Obligations.LaneAccessesCompleteTogether : Prop :=
  (∀ (o : OVldx) (s : State) (ps : List LaneAcc), Ready (.vldx o) s →
    lanePaths (.vldx o) s .rd (laneIndexed (s.cur.rG o.base) (s.cur.rV o.x)) (lanesOn s.cur o.form.mask) = .inr ps →
    let s1 := taintAcquire s (s.cur.taintG o.base || s.cur.taintV o.x)
    let r := ps.foldl (fun (x : Line × State) (a : LaneAcc) =>
      let q := readPath x.2 (curAcc x.2) a.path 4
      (setLane x.1 a.l q.1, q.2)) (s.cur.rV o.r, s1)
    exec (.vldx o) s = .next (done (.vldx o) (land r.2 true o.r r.1)) ∧ ps.map (fun a => a.l) = lanesOn s.cur o.form.mask) ∧
  (∀ (o : OVldx) (s : State) (ps : List LaneAcc), Ready (.vstx o) s →
    lanePaths (.vstx o) s .wr (laneIndexed (s.cur.rG o.base) (s.cur.rV o.x)) (lanesOn s.cur o.form.mask) = .inr ps →
    let s1 := taintAcquire s (s.cur.taintG o.base || s.cur.taintV o.x)
    let t := ps.foldl (fun (u : State) (a : LaneAcc) => writePath u (curAcc u) a.path 4 (lane (s.cur.rV o.r) a.l)) s1
    exec (.vstx o) s = .next (done (.vstx o) t) ∧ ps.map (fun a => a.l) = lanesOn s.cur o.form.mask) ∧
  (∀ (o : OVlde) (s : State) (f : Fmt) (k : Nat), Ready (.vlde o) s → tagOf (s.cur.rG o.base) = some (f, k) → f.bits ≠ 64 → o.pi = false →
    lanesOn s.cur o.form.mask = [] → (∀ x ∈ s.cur.ldcs, False) →
    exec (.vlde o) s = .next (done (.vlde o) (land s true o.r (s.cur.rV o.r)))) ∧
  (∀ (o : OVlde) (s : State) (f : Fmt) (k : Nat) (nb : Word) (ps : List LaneAcc), Ready (.vlde o) s → tagOf (s.cur.rG o.base) = some (f, k) →
    f.bits ≠ 64 → Rule.stepped s.cur o.base f k o.off o.pi nb → lanePaths (.vlde o) s .rd (laneElem (s.cur.rG o.base) f k o.off.toInt o.pi) (lanesOn s.cur o.form.mask) = .inr ps →
    ∃ (v : Line) (fl : Word) (t : State), exec (.vlde o) s = .next t ∧
      Ev.loadLand ⟨s.curAgent, s.curCtx, s.cur.task, true, o.r, v, fl⟩ ∈ t.pending ∧ t.cur.fullV o.r = false ∧
      (∀ r, t.cur.rG r = if r = o.base ∧ r ≠ 0 then nb else s.cur.rG r) ∧ t.cur.pc = s.cur.pc + BitVec.ofNat 64 (Instr.bytes (.vlde o))) ∧
  (∀ (o : OVste) (s : State) (f : Fmt) (k : Nat) (nb : Word) (ps : List LaneAcc), Ready (.vste o) s → tagOf (s.cur.rG o.base) = some (f, k) →
    f.bits ≠ 64 → Rule.stepped s.cur o.base f k o.off o.pi nb →
    lanePaths (.vste o) s .wr (fun l => (laneElem (s.cur.rG o.base) f k o.off.toInt o.pi l).map fun (va, el, _) => (va, el, none))
      (lanesOn s.cur o.form.mask) = .inr ps →
    ∃ t : State, exec (.vste o) s = .next t ∧ t.cur.pc = s.cur.pc + BitVec.ofNat 64 (Instr.bytes (.vste o)) ∧
      (∀ r, t.cur.rG r = if r = o.base ∧ r ≠ 0 then nb else s.cur.rG r) ∧ (∀ r, t.cur.rV r = s.cur.rV r))

/-- R46, R47, R51, R321 to R323: VSP works on one 64-byte group of the own scratchpad at an issue, on integers and f32, with the flags of its active lanes,
and its last group completes it; VRED completes: on integers its result is that of the active lanes, whatever the order, on f32 that of the tree of the
lanes; VTOPK answers how many pairs it found and writes k pairs of value, index and zero in falling order of value, equal values by rising index, before
every entry it leaves out, the rest padded, changing no other byte. -/
def Obligations.GroupsReductionsAndTopK : Prop :=
  (
  (∀ (o : OVsp) (s : State), Ready (.vsp o) s → s.cur.rG o.c = 0 → exec (.vsp o) s = .next (done (.vsp o) s)) ∧
  (∀ (o : OVsp) (s : State) (oa ob od : Nat), Ready (.vsp o) s → 0 < (s.cur.rG o.c).toNat →
    Rule.ownScratch s (s.cur.rG o.a) 64 64 oa → Rule.ownScratch s (s.cur.rG o.b) 64 64 ob → Rule.ownScratch s (s.cur.rG o.d) 64 64 od →
    Rule.unpoisoned s oa → Rule.unpoisoned s ob → Rule.unpoisoned s od → Rule.unpublished s od 64 →
    let on (l : Nat) : Bool := match o.mask with | none => true | some g => (s.cur.rG g).getLsbD l
    let m (u : State) (off l : Nat) : BitVec 32 := BitVec.ofNat 32 ((u.core s.curAgent).spad.readNat (off + 4 * l) 4)
    ∃ (t : State) (g : Nat → Word) (fl : Word), exec (.vsp o) s = .next t ∧ t.cur.rG o.a = s.cur.rG o.a + 64 ∧ t.cur.rG o.b = s.cur.rG o.b + 64 ∧
      t.cur.rG o.d = s.cur.rG o.d + 64 ∧ t.cur.rG o.c = s.cur.rG o.c - 1 ∧
      t.cur.pc = (if s.cur.rG o.c = 1 then s.cur.pc + BitVec.ofNat 64 (Instr.bytes (.vsp o)) else s.cur.pc) ∧ Rule.onlyScratch s t ∧
      t.cur.flags = s.cur.flags ||| fl ∧ Rule.gathered on g fl ∧
      (∀ b, b < od ∨ od + 64 ≤ b → Rule.spByte t b = Rule.spByte s b) ∧
      ∀ l, l < 16 → (on l = false → m t od l = m s od l) ∧ (on l = true →
        (o.fmt ≠ .f32 → some (m t od l, g l) = Rule.vspInt o.op (if o.fmt = .n32 then .n32 else .i32) o.sat (m s oa l) (m s ob l) (m s od l)) ∧
        (o.fmt = .f32 →
          (∀ k, Rule.vspFloat o.op o.rm o.sat (m s oa l) (m s ob l) (m s od l) = some k → Rule.floatOut k (m t od l).toNat (g l)) ∧
          (o.op = .min → g l = 0 ∧ (m t od l).toNat = Rule.lesser ffF32 (m s oa l).toNat (m s ob l).toNat) ∧
          (o.op = .max → g l = 0 ∧ (m t od l).toNat = Rule.greater ffF32 (m s oa l).toNat (m s ob l).toNat))))) ∧
  (
  ∀ (o : OVred) (s : State), Ready (.vred o) s →
    ∃ x fl : Word, exec (.vred o) s = .next (s.setCur (wroteG (.vred o) s.cur o.d x fl)) ∧
      let on (l : Nat) : Bool := match o.mask with | none => true | some g => (s.cur.rG g).getLsbD l
      let v (l : Nat) : BitVec 32 := Rule.lane (s.cur.rV o.a) l
      let low : BitVec 32 := x.setWidth 32
      let w : Width := if o.fmt = .n32 then .n32 else .i32
      (o.fmt ≠ .f32 → fl = 0 ∧ x = Rule.narrow w x ∧
        (o.op = .add → low = (List.range 16).foldl (fun (n : BitVec 32) l => if on l then n + v l else n) 0) ∧
        (o.op = .xor → low = (List.range 16).foldl (fun (n : BitVec 32) l => if on l then n ^^^ v l else n) 0) ∧
        (o.op = .or → ∀ b, b < 32 → (low.getLsbD b = true ↔ ∃ l, l < 16 ∧ on l = true ∧ (v l).getLsbD b = true)) ∧
        (o.op = .and → ∀ b, b < 32 → (low.getLsbD b = true ↔ ∀ l, l < 16 → on l = true → (v l).getLsbD b = true)) ∧
        (o.op = .min ∨ o.op = .max →
          (∀ l, l < 16 → on l = true → (o.op = .min → Rule.int w x ≤ Rule.int w ((v l).setWidth 64)) ∧
            (o.op = .max → Rule.int w ((v l).setWidth 64) ≤ Rule.int w x)) ∧
          (low = Rule.endLane o.fmt (o.op == .min) ∨ ∃ l, l < 16 ∧ on l = true ∧ low = v l))) ∧
      (o.fmt = .f32 → ∃ (y : Nat → Nat → Nat) (g : Nat → Nat → Word),
        (∀ l, l < 16 → y 0 l = if on l then (v l).toNat else if o.op = .add then 0x80000000 else (Rule.endLane .f32 (o.op == .min)).toNat) ∧
        (∀ j i, j < 4 → i < 2 ^ (3 - j) → Rule.redStep o.op (y j (2 * i)) (y j (2 * i + 1)) (y (j + 1) i) (g (j + 1) i)) ∧
        x = BitVec.ofNat 64 (y 4 0) ∧
        ∀ b, b < 64 → (fl.getLsbD b = true ↔ ∃ j i, j < 4 ∧ i < 2 ^ (3 - j) ∧ (g (j + 1) i).getLsbD b = true))) ∧
  (
  ∀ (o : OVtopk) (s : State) (ra oa : Nat), Ready (.vtopk o) s →
    let n := (s.cur.rG o.b).toNat
    let k := (s.cur.rG o.c).toNat
    Rule.ownScratch s (s.cur.rG o.a) (4 * n) 4 ra → Rule.ownScratch s (s.cur.rG o.e) (8 * k) 8 oa → n ≤ 65535 → k ≤ 256 →
    (oa + 8 * k ≤ ra ∨ ra + 4 * n ≤ oa) → (∀ j, j < n → Rule.unpoisoned s (ra + 4 * j)) →
    (∀ j, j < k → Rule.unpublished s (oa + 8 * j) 8) →
    let row (i : Nat) : Nat := (s.core s.curAgent).spad.readNat (ra + 4 * i) 4
    ∃ t : State, exec (.vtopk o) s = .next t ∧ (o.d ≠ 0 → t.cur.rG o.d = BitVec.ofNat 64 (Nat.min k n)) ∧
      (∀ b, b < oa ∨ oa + 8 * k ≤ b → Rule.spByte t b = Rule.spByte s b) ∧ Rule.onlyScratch s t ∧
      t.cur.pc = s.cur.pc + BitVec.ofNat 64 (Instr.bytes (.vtopk o)) ∧ t.cur.flags = s.cur.flags ∧
      let val (j : Nat) : Nat := (t.core s.curAgent).spad.readNat (oa + 8 * j) 4
      let idx (j : Nat) : Nat := (t.core s.curAgent).spad.readNat (oa + 8 * j + 4) 2
      (∀ j, j < k → (t.core s.curAgent).spad.readNat (oa + 8 * j + 6) 2 = 0) ∧
      (∀ j, n ≤ j → j < k → idx j = 0xFFFF ∧ val j = (Rule.endLane o.fmt false).toNat) ∧
      (∀ j, j < Nat.min k n → idx j < n ∧ val j = if o.fmt = .f32 ∧ Rule.isNaN ffF32 (row (idx j)) = true then 0x7FC00000 else row (idx j)) ∧
      (∀ i j, i < j → j < Nat.min k n → Rule.topBelow o.fmt (row (idx i)) (row (idx j)) = false ∧
        (Rule.topBelow o.fmt (row (idx j)) (row (idx i)) = false → idx i < idx j)) ∧
      (∀ i j, i < n → j < Nat.min k n → (∀ e, e < Nat.min k n → idx e ≠ i) → Rule.topBelow o.fmt (row (idx j)) (row i) = false ∧
        (Rule.topBelow o.fmt (row i) (row (idx j)) = false → idx j < i)))

/-- R291, R152, R155, R414: SEND and TSEND with a legal header and a free retry place build the message from their registers, take the place, and send
it unless an earlier message of the same flow is held or no path leads to its device. -/
def Obligations.SendsBuildAndPlaceTheirMessage : Prop :=
  ∀ (i : Instr) (s : State) (o : OSend) (tagged : Bool), Rule.sendForm i = some (o, tagged) → Ready i s →
    let h := s.cur.rG o.a
    let len := (h.extractLsb' 20 4).toNat
    let a := s.curAgent
    headerCheck s s.cur.priv tagged h = none → (len ≤ 8 ∨ (o.b ≠ 31 ∧ s.cur.openName true (o.b + 1) = true ∧ s.cur.fullV (o.b + 1) = true)) →
    (s.core a).retry.length < 8 → (∀ sc, o.rel = some sc → Rule.releases s sc) →
    ∃ (m : Msg) (sent : Bool) (t : State), exec i s = .next t ∧
      (t.core a).retry = (s.core a).retry ++ [⟨m, sent, false, 0⟩] ∧
      (sent = true ↔ (m.dstDev = s.devno ∨ noPathTo s m.dstDev.toNat = false) ∧
        ∀ e ∈ (s.core a).retry, sameFlow e.msg m = true → e.sent = true ∧ e.refused = false) ∧
      (sent = true → m.dstDev = s.devno → Ev.messageArrive m ∈ t.pending) ∧
      m.dstDev = h.extractLsb' 58 6 ∧ m.dst = (if h.getLsbD 17 then 2048 + (h.extractLsb' 47 5).toNat else (h.extractLsb' 47 11).toNat) ∧
      m.ch = h.extractLsb' 41 6 ∧ m.len = h.extractLsb' 20 4 ∧ m.kind = .task ∧ m.tagv = tagged ∧
      (tagged = true → m.tag = h.setWidth 16) ∧ m.srcDev = s.devno ∧ m.srcXR = isRidge a ∧ m.kid = s.cur.kid ∧ m.acq = o.rel ∧
      (∀ j, j < len → m.payload.extractLsb' (64 * j) 64 = Rule.sendWord s.cur o.b j) ∧
      (∀ j, len ≤ j → j < 15 → m.payload.extractLsb' (64 * j) 64 = 0) ∧
      (∀ r, t.cur.rG r = s.cur.rG r) ∧ t.cur.pc = s.cur.pc + BitVec.ofNat 64 (Instr.bytes i)

/-- R153, R154: an untagged task message at a valid, unmasked entry of its kernel is accepted where a context, its registers and a buffer place
are free: the context is reserved with the entry's demand. With no free context it is refused and its source queued. -/
def Obligations.ArrivalsReserveAContextOrAreRefused : Prop :=
  ∀ (s : State) (m : Msg), let o := s.core m.dst
    let e := vget o.handlers m.ch.toNat 0
    s.quiesced = false → crossing s m = false → Handler.valid e = true → Handler.masked e = false → Handler.gmu e = false →
    (m.ch.toNat < 8 ∨ m.kid = Handler.kid e) → m.kind ≠ .graph → m.tagv = false → m.resend = false →
    (∀ r ∈ o.refq, r.src ≠ srcOf m ∨ r.ch ≠ m.ch) → (∀ r ∈ o.resv, r.src ≠ srcOf m ∨ r.ch ≠ m.ch) →
    (∀ k, o.arrivals.length + resvCount o .start < 16 → freeCtx o = some k → poolHas o (8 * Handler.gdem e) (8 * Handler.vdem e) = true →
      ∃ t : State, arrive s m = (t, .accepted) ∧ (t.ctx m.dst k).st = .reserved ∧ (t.ctx m.dst k).gOpen = 8 * Handler.gdem e ∧
        (t.ctx m.dst k).vOpen = 8 * Handler.vdem e ∧ (t.core m.dst).arrivals = o.arrivals ++ [⟨m, e, k, s.now, none⟩] ∧
        Ev.taskStart m.dst ∈ t.pending ∧ (∀ j, j ≠ k → t.ctx m.dst j = s.ctx m.dst j) ∧ t.hbm = s.hbm) ∧
    (freeCtx o = none → o.refq.length < 64 →
      ∃ t : State, arrive s m = (t, .refused) ∧ (t.core m.dst).refq = o.refq ++ [⟨srcOf m, m.ch, m.kind, m.tagv, m.kid⟩] ∧
        t.pending = s.pending ∧ (∀ j, t.ctx m.dst j = s.ctx m.dst j)) ∧
    (freeCtx o = none → 64 ≤ o.refq.length → arrive s m = (s, .refusedFull))

/-- R153 to R155: the travel of a message. An arrival is decided at its core and answered; an acceptance frees the sender's place and a refusal
holds it; a notice or the resend timer sends the held message again, marked; a withdrawal gives back its reservation. -/
def Obligations.MessageEventsAnswerTheSender : Prop :=
  (∀ (s : State) (m : Msg), s.ev = some (.messageArrive m) → m.ch ≠ 2 → m.ch ≠ 3 → (isRidge m.dst = false ∨ m.ch ≠ 1 ∨ m.kind ≠ .system) →
    m.srcDev = s.devno → heldBySender s m = true → flowAhead s m = false → srcAgent m ≠ hostAgent → landBusy s m = false →
    firmwareDrops s m = false →
    exec .messageArrive s = .next ((arrive s m).1.took.pend (.messageReply m (arrive s m).2))) ∧
  (∀ (s : State) (m : Msg) (e : RetryEntry), s.ev = some (.messageReply m .accepted) → srcAgent m ≠ hostAgent →
    (s.core (srcAgent m)).retry = [e] → e.sent = true → e.refused = false → e.msg = m →
    ∃ t : State, exec .messageReply s = .next t ∧ (t.core (srcAgent m)).retry = [] ∧ t.ev = none ∧ t.pending = s.pending) ∧
  (∀ (s : State) (m : Msg) (e : RetryEntry), s.ev = some (.messageReply m .refused) → srcAgent m ≠ hostAgent →
    (s.core (srcAgent m)).retry = [e] → e.sent = true → e.refused = false → e.msg = m →
    ∃ t : State, exec .messageReply s = .next t ∧ (t.core (srcAgent m)).retry = [{ e with refused := true }] ∧ t.ev = none ∧
      t.pending = s.pending) ∧
  (∀ (s : State) (a dst : Nat) (dev ch : BitVec 6) (e : RetryEntry), a ≠ hostAgent → (s.core a).retry = [e] → e.refused = true →
    e.msg.dst = dst → e.msg.dstDev = dev → e.msg.ch = ch → dev = s.devno →
    (s.ev = some (.contextFreeNotice a dst dev ch) → ∃ t : State, exec .contextFreeNotice s = .next t ∧ t.ev = none ∧
      (t.core a).retry = [⟨{ e.msg with resend := true }, true, false, 0⟩] ∧
      t.pending = s.pending ++ [.messageArrive { e.msg with resend := true }]) ∧
    (s.ev = some (.resendTimerExpire a dst dev ch) → e.due ≤ s.now → ∃ t : State, exec .resendTimerExpire s = .next t ∧ t.ev = none ∧
      (t.core a).retry = [⟨{ e.msg with resend := true }, true, false, 0⟩] ∧
      t.pending = s.pending ++ [.messageArrive { e.msg with resend := true }])) ∧
  (∀ (s : State) (dst : Nat) (dev ch : BitVec 6) (xr : Bool) (n : BitVec 11) (r : Resv), s.ev = some (.withdrawal dst dev xr n ch) →
    (s.core dst).resv = [r] → r.src = ⟨dev, xr, n⟩ → r.ch = ch → (s.core dst).refq = [] → r.ctx < 8 →
    ∃ t : State, exec .withdrawal s = .next t ∧ t.ev = none ∧ (t.core dst).resv = [] ∧
      (r.need = .start → (t.ctx dst r.ctx).st = .free) ∧ (r.need ≠ .start → ∀ k, t.ctx dst k = s.ctx dst k))

/-- R293, R294, R180: RECV posts a receive on its own scratchpad, its register empty until a message lands; RCANCEL withdraws one, with all
ones in the register and 1, or answers 0. -/
def Obligations.ReceivesArePostedAndCancelled : Prop :=
  (∀ (o : ODAB) (s : State) (off : Nat), Ready (.recv o) s → o.d ≠ 0 → Rule.ownScratch s (s.cur.rG o.b) 128 8 off →
    (s.cur.rG o.a).extractLsb' 0 6 = 0 → (∀ m ∈ (s.core s.curAgent).overflow,
      matches_ ⟨s.curCtx, s.cur.task, s.cur.kid, o.d, s.cur.rG o.a, off⟩ m = false) → (s.core s.curAgent).posted.length < 16 →
    ∃ t : State, exec (.recv o) s = .next t ∧
      (t.core s.curAgent).posted = (s.core s.curAgent).posted ++ [⟨s.curCtx, s.cur.task, s.cur.kid, o.d, s.cur.rG o.a, off⟩] ∧
      t.cur.fullG o.d = false ∧ t.cur.taintG o.d = false ∧ (∀ r, t.cur.rG r = s.cur.rG r) ∧
      t.cur.pc = s.cur.pc + BitVec.ofNat 64 (Instr.bytes (.recv o)) ∧ (t.core s.curAgent).spad = (s.core s.curAgent).spad) ∧
  (∀ (o : ODA) (s : State) (p : Posted), Ready (.rcancel o) s → (s.core s.curAgent).posted = [p] → p.ctx = s.curCtx → p.reg = o.a →
    ∃ t : State, exec (.rcancel o) s = .next t ∧ (t.core s.curAgent).posted = [] ∧ (o.d ≠ 0 → t.cur.rG o.d = 1) ∧
      (o.a ≠ 0 → o.a ≠ o.d → t.cur.rG o.a = BitVec.allOnes 64 ∧ t.cur.fullG o.a = true)) ∧
  (∀ (o : ODA) (s : State), Ready (.rcancel o) s → (∀ p ∈ (s.core s.curAgent).posted, p.ctx ≠ s.curCtx ∨ p.reg ≠ o.a) →
    exec (.rcancel o) s = .next (s.setCur ((s.cur.wG o.d 0).past (.rcancel o))))

/-- R149, R295: CHWR installs or clears an entry, CHMSK masks one and answers its old mask, CHRD reads a half of one. -/
def Obligations.HandlerEntriesAreWrittenAndRead : Prop :=
  (∀ (o : ODAB) (s : State), Ready (.chwr o) s → (s.cur.rG o.d).toNat ≤ 63 →
    let e : BitVec 128 := s.cur.rG o.a ++ s.cur.rG o.b
    let ch := (s.cur.rG o.d).toNat
    entryWrite s s.curAgent s.cur ch e = none → (s.core s.curAgent).refq = [] →
    ∃ t : State, exec (.chwr o) s = .next t ∧
      vget (t.core s.curAgent).handlers ch 0 = (if e.getLsbD 127 then e else 0) ∧
      (∀ c, c ≠ ch → vget (t.core s.curAgent).handlers c 0 = vget (s.core s.curAgent).handlers c 0) ∧
      Ev.taskStart s.curAgent ∈ t.pending ∧ (∀ r, t.cur.rG r = s.cur.rG r) ∧ t.cur.pc = s.cur.pc + BitVec.ofNat 64 (Instr.bytes (.chwr o))) ∧
  (∀ (o : ODAB) (s : State), Ready (.chmsk o) s → (s.cur.rG o.a).toNat ≤ 63 → (s.cur.rG o.b).toNat ≤ 1 →
    let ch := (s.cur.rG o.a).toNat
    let e := vget (s.core s.curAgent).handlers ch 0
    e.getLsbD 127 = true → (s.cur.priv = true ∨ e.extractLsb' 80 16 = s.cur.kid) → (s.core s.curAgent).refq = [] →
    ∃ t : State, exec (.chmsk o) s = .next t ∧
      (∀ b, b < 128 → (vget (t.core s.curAgent).handlers ch 0).getLsbD b = if b = 126 then decide (s.cur.rG o.b = 1) else e.getLsbD b) ∧
      (o.d ≠ 0 → t.cur.rG o.d = if e.getLsbD 126 then 1 else 0) ∧ Ev.taskStart s.curAgent ∈ t.pending) ∧
  (∀ (o : OChrd) (s : State), Ready (.chrd o) s → (s.cur.rG o.a).toNat ≤ 63 →
    let e := vget (s.core s.curAgent).handlers (s.cur.rG o.a).toNat 0
    (e.getLsbD 127 = false ∨ s.cur.priv = true ∨ e.extractLsb' 80 16 = s.cur.kid) →
    exec (.chrd o) s = .next (s.setCur (wroteG (.chrd o) s.cur o.d (if o.h then e.extractLsb' 64 64 else e.extractLsb' 0 64) 0)))

/-- R156, R157, R296: SPAWN queues a child with its record's PC and arguments and counts it; JOIN waits for the count or acquires; HALT and
HALTR end the context once its children and its loads are done; YIELD lets every other ready context issue first. -/
def Obligations.TasksSpawnJoinHaltAndYield : Prop :=
  (∀ (o : ORa) (s : State) (p : Path), Ready (.spawn o) s → resolve s (curAcc s) (s.cur.rG o.a) 32 32 .rd .any = .ok p →
    pathHold s (curAcc s) p 32 .rd = none → (s.core s.curAgent).taskq.length < 64 → s.cur.join ≠ 0xFFFF →
    let r := readPath (taintAcquire s (s.cur.taintG o.a)) (curAcc s) p 32
    releaseHeld r.2 .core = false →
    let ctl := BitVec.ofNat 32 (r.1 / 2 ^ 192)
    fieldsBad (isRidge s.curAgent) (Ctl.prio ctl) (Ctl.gdem ctl) (Ctl.vdem ctl) (Ctl.spreq ctl) (Ctl.lane ctl) true = false →
    ctl.extractLsb' 0 15 = 0 → (r.2.ktIndex s.cur.kid).isSome = true → (Ctl.prio ctl < 20 ∨ s.cur.priv = true) → Ctl.spreq ctl ≤ 18 →
    ∃ (t : State) (q : TaskRec), exec (.spawn o) s = .next t ∧ (t.core s.curAgent).taskq = (s.core s.curAgent).taskq ++ [q] ∧
      q.pc = BitVec.ofNat 64 r.1 ∧ q.arg0 = BitVec.ofNat 64 (r.1 / 2 ^ 64) ∧ q.arg1 = BitVec.ofNat 64 (r.1 / 2 ^ 128) ∧ q.ctl = ctl ∧
      q.parent = some s.cur.task ∧ q.kid = s.cur.kid ∧ q.win = some s.cur.win ∧ t.cur.join = s.cur.join + 1 ∧
      Ev.taskStart s.curAgent ∈ t.pending ∧ t.cur.pc = s.cur.pc + BitVec.ofNat 64 (Instr.bytes (.spawn o))) ∧
  (∀ s : State, Ready .join s → s.cur.join = 0 →
    exec .join s = .next (done .join (acquire s s.curAgent s.cur.joinScope))) ∧
  (∀ s : State, Ready .join s → s.cur.join ≠ 0 → exec .join s = .next (waitFor s .retry)) ∧
  (∀ s : State, Ready .halt s → s.cur.join = 0 → allLanded s s.curAgent s.curCtx = true → joinHeld s = false →
    let t := killServed (endCtx (wcbDrain s s.curAgent) s.curAgent s.curCtx none false) s.cur
    exec .halt s = .next t) ∧
  (∀ (o : ORa) (s : State), Ready (.haltr o) s → (s.cur.rG o.a).toNat ≤ 63 → s.cur.join = 0 → allLanded s s.curAgent s.curCtx = true →
    joinHeld s = false →
    let t := killServed (endCtx (wcbDrain s s.curAgent) s.curAgent s.curCtx (some (s.cur.rG o.a).toNat) false) s.cur
    exec (.haltr o) s = .next t) ∧
  (∀ s : State, Ready .yield s → ∃ c : Ctx, exec .yield s = .next (s.setCur c) ∧ c.pc = s.cur.pc + BitVec.ofNat 64 (Instr.bytes .yield) ∧
    (∀ k, k ∈ c.yielded ↔ k = s.curCtx ∨ (k < 8 ∧ k ≠ s.curCtx ∧ ctxAble s s.curAgent k = true)) ∧ (∀ r, c.rG r = s.cur.rG r) ∧ c.flags = s.cur.flags)

/-- R157: a task with no parent, launch or served packet that leaves a core with nothing waiting frees its context, its claim, its posted
receives and its task. -/
def Obligations.LeavingFreesTheContext : Prop :=
  ∀ (s : State) (a k : Nat), k < 8 → a < 2080 → (s.core a).refq = [] → (s.ctx a k).parent = none → (s.ctx a k).launch = none →
    let t := endCtx s a k none false
    (t.ctx a k).st = .free ∧ (t.ctx a k).claim = 0 ∧ (t.ctx a k).wait = none ∧ (t.ctx a k).serial = (s.ctx a k).serial ∧
      (∀ p ∈ (t.core a).posted, p.ctx ≠ k) ∧ (∀ j, j ≠ k → (t.ctx a j).st = (s.ctx a j).st ∧ (t.ctx a j).pc = (s.ctx a j).pc) ∧
      Ev.taskStart a ∈ t.pending

/-- R148, R162: a start runs the selected item in a context: live at its PC with the header or the arguments in g1 to g3 and the payload in v0
and v1, untainted and full, in privileged state only on a ridge core; a core that must not start, or has nothing selectable, keeps waiting. -/
def Obligations.TaskStartEntersAtThePc : Prop :=
  (∀ (s : State) (a k : Nat) (x : Start), k < 8 →
    let t := startTask s a k x
    (t.ctx a k).st = .live ∧ (t.ctx a k).pc = x.pc ∧ (t.ctx a k).rG 1 = x.g1 ∧ (t.ctx a k).rG 2 = x.g2 ∧
      (t.ctx a k).rG 3 = x.g3 ∧ (∀ r : Reg, 3 < r.toNat → (t.ctx a k).rG r = 0) ∧
      (t.ctx a k).rV 0 = x.v.setWidth 512 ∧ (t.ctx a k).rV 1 = x.v.extractLsb' 512 512 ∧ (t.ctx a k).gFull = BitVec.allOnes 32 ∧
      (t.ctx a k).gTaint = 0 ∧ (t.ctx a k).flags = 0 ∧ (t.ctx a k).kid = x.kid ∧ (t.ctx a k).win = x.win ∧
      (t.ctx a k).priv = decide (2048 ≤ a) ∧ (t.ctx a k).serial = (s.ctx a k).serial + 1) ∧
  (∀ (s : State) (a : Nat) (i : Item), s.ev = some (.taskStart a) → ((s.core a).arrivals ≠ [] ∨ (s.core a).taskq ≠ []) →
    coreRuns s a = true → startsHeld s a = false → selectStart (s.core a) s.now = some i →
    exec .taskStart s = .next (serve (startItem s a i) a)) ∧
  (∀ (s : State) (a : Nat), s.ev = some (.taskStart a) → (s.core a).arrivals = [] → (s.core a).taskq = [] →
    exec .taskStart s = .next s.took) ∧
  (∀ (s : State) (a : Nat), s.ev = some (.taskStart a) → ((s.core a).arrivals ≠ [] ∨ (s.core a).taskq ≠ []) →
    (coreRuns s a = false ∨ startsHeld s a = true ∨ selectStart (s.core a) s.now = none) →
    exec .taskStart s = .next s ∧ Ev.taskStart a ∈ (settle 1 s).pending)

/-- R158, R159: LAUNCH queues a checked record at its die, and the sequencer places the next record of the first launch that has room, with
the launch's PC and arguments and the placement's number. -/
def Obligations.LaunchesQueueAndPlace : Prop :=
  (∀ (o : ORa) (s : State) (p : Path), Ready (.launch o) s → resolve s (curAcc s) (s.cur.rG o.a) 64 64 .rd .any = .ok p →
    pathHold s (curAcc s) p 64 .rd = none → Rule.calm s →
    let r := readPath (taintAcquire (release s s.curAgent .dev) (s.cur.taintG o.a)) (curAcc (release s s.curAgent .dev)) p 64
    launchBad r.2 r.1 = false →
    (s.cur.priv = true ∨ (recBytes r.1 0x1E 1 < 20 ∧ BitVec.ofNat 16 (recBytes r.1 0x26 2) = s.cur.kid ∧
      decide (recBytes r.1 0x25 1 = 1) = s.cur.world)) →
    futCheck s.cur.win (BitVec.ofNat 64 (recBytes r.1 8 8)) = none → (queuedLaunches (r.2.die (recBytes r.1 0x24 1))).length < 64 →
    ∃ (t : State) (l : Launch), exec (.launch o) s = .next t ∧
      (t.die (recBytes r.1 0x24 1)).launchq = (r.2.die (recBytes r.1 0x24 1)).launchq ++ [l] ∧ l.pc = BitVec.ofNat 64 r.1 ∧
      l.arg0 = BitVec.ofNat 64 (recBytes r.1 0x30 8) ∧ l.kid = BitVec.ofNat 16 (recBytes r.1 0x26 2) ∧ l.placed = 0 ∧ l.live = 0 ∧
      l.todo = launchTodo (recBytes r.1 0x24 1) r.1 ∧ Ev.launchPlace (recBytes r.1 0x24 1) ∈ t.pending ∧
      t.cur.pc = r.2.cur.pc + BitVec.ofNat 64 (Instr.bytes (.launch o))) ∧
  (∀ (s : State) (d : Nat) (l : Launch) (a st : Nat) (rest : List (Nat × Nat)), s.ev = some (.launchPlace d) → s.quiesced = false →
    (s.die d).launchq = [l] → l.todo = (a, st) :: rest → rest ≠ [] → l.prio.toNat < 24 → ceilDiv l.spreq wayBytes ≤ 18 → agentWorld s a = l.world →
    (s.core a).taskq.length < 64 →
    ∃ (t : State) (q : TaskRec), exec .launchPlace s = .next t ∧ (t.core a).taskq = (s.core a).taskq ++ [q] ∧ q.pc = l.pc ∧ q.arg0 = l.arg0 ∧
      q.arg1 = l.arg1 ∧ q.arg2 = BitVec.ofNat 64 l.placed ∧ q.kid = l.kid ∧ q.launch = some l.id ∧ q.stage = BitVec.ofNat 4 st ∧
      (t.die d).launchq = [{ l with started := true, todo := rest, placed := l.placed + 1, live := l.live + 1 }] ∧
      Ev.taskStart a ∈ t.pending)

/-- R207, R208, R213, R216 to R218: packets and page-fault messages. A packet with a valid, unmasked entry waits for a context and is held; with
none FDROP counts, a record is discarded, and a context that is frozen is killed; a posted page fault travels as a message; a reply replays the access or fails it, and a failed access freezes. -/
def Obligations.FaultAndPageEventsReachTheirHandlers : Prop :=
  (∀ (s : State) (m : Msg) (k : Nat), s.ev = some (.faultPacketArrive m) →
    let p := Packet.ofBits (m.payload.setWidth 512)
    let e := packetEntry s m.dst m p
    crossing s m = false → Handler.valid e = true → Handler.masked e = false → (s.core m.dst).arrivals.length + resvCount (s.core m.dst) .start < 16 →
    freeCtx (s.core m.dst) = some k → poolHas (s.core m.dst) (8 * Handler.gdem e) (8 * Handler.vdem e) = true →
    ∃ t : State, exec .faultPacketArrive s = .next t ∧ t.ev = none ∧ (t.ctx m.dst k).st = .reserved ∧
      (t.core m.dst).arrivals = (s.core m.dst).arrivals ++ [⟨m, e, k, s.now, none⟩]) ∧
  (∀ (s : State) (m : Msg), s.ev = some (.faultPacketArrive m) → crossing s m = false →
    Handler.valid (packetEntry s m.dst m (Packet.ofBits (m.payload.setWidth 512))) = false →
    (m.payload.getLsbD 31 = true → ∃ t : State, exec .faultPacketArrive s = .next t ∧ t.ev = none ∧
      (t.core m.dst).fdrop = (s.core m.dst).fdrop + 1 ∧ (∀ k, t.ctx m.dst k = s.ctx m.dst k)) ∧
    (m.payload.getLsbD 31 = false → ∀ a k, s.findTask (m.payload.extractLsb' 32 32) = some (a, k) →
      let counted := s.took.modCore m.dst fun o => { o with fdrop := o.fdrop + 1 }
      exec .faultPacketArrive s =
        .next (if (s.ctx a k).st = .frozen ∨ ((s.ctx a k).st = .saved ∧ (s.ctx a k).frozenBy.isSome) then killCtx counted a k else counted))) ∧
  (∀ (s : State) (m : Msg), s.ev = some (.pageFaultPost m) →
    exec .pageFaultPost s = .next (s.took.pend (.messageArrive m))) ∧
  (∀ (s : State) (a k : Nat) (va ia : Word) (code sub : BitVec 8) (info : BitVec 16) (fetch : Bool) (l t0 : Nat),
    s.ev = some (.accessAccept (.ctx a k)) → k < 8 → (s.ctx a k).wait = some ⟨.page va ia code sub info fetch, l, t0⟩ →
    exec .accessAccept s = .next (s.took.setCtx a k
      { s.ctx a k with wait := if fetch then none else some ⟨.retry, l, t0⟩ })) ∧
  (∀ (s : State) (m : Msg) (a k : Nat) (f : FInfo), s.ev = some (.pageFaultReply m) →
    m.payload.extractLsb' 32 8 = 0 → m.payload.extractLsb' 48 16 = 0 → s.completions = [] →
    pageWaiter s.took (m.payload.extractLsb' 0 32) ((m.payload.extractLsb' 64 64).toNat / 4096) = some (a, k, f) →
    (m.payload.extractLsb' 40 8 = 0 → exec .pageFaultReply s = .next (s.took.pend (.accessAccept (.ctx a k)))) ∧
    (m.payload.extractLsb' 40 8 ≠ 0 → ∃ p : Packet, p.code = f.code ∧ p.sub = f.sub ∧ p.info = f.info ∧ p.va = f.va ∧ p.ia = f.ia ∧
      exec .pageFaultReply s = .next (s.took.pend (.faultFreeze a k p)))) ∧
  (∀ (s : State) (a k : Nat) (p : Packet), s.ev = some (.faultFreeze a k p) → (s.ctx a k).task = p.task → (s.ctx a k).st = .live →
    ∃ insn : BitVec 128, exec .faultFreeze s = .next
      (takeFault s.took a k { code := p.code, sub := p.sub, info := p.info, va := p.va, ia := p.ia } insn))

/-- R170 to R173, R299: at a future's home, with nothing that holds a release back: FRES and FCANCEL resolve a pending future, which answers its
waiters and runs its continuation list; FRES of another is a fault 0x10 in the resolving task; FRESET makes a resolved one pending again with
GEN + 1; FWAIT waits while it is pending, then acquires at `dev` and reads its low word, with the permission of a load (DEDUCED, log 15); FREG takes
a free slot of a record of the kernel's pool: USED, REG and the list, or `Complete` at once. `Complete` marks BAD, counts JCNT down, and at 0
posts the record's message; the list goes on at its LINK (log 51). -/
def Obligations.FuturesResolveOnce : Prop :=
  (∀ (o : OAB) (s : State) (p : Path), Ready (.fres o) s → s.cur.taintG o.a = false → futurePath s (curAcc s) (s.cur.rG o.a) = .ok p → Rule.calm s →
    let u := release s s.curAgent .dev
    exec (.fres o) s = .next (if Rule.futureBytes u p % 4 = 0 then done (.fres o) (Rule.resolved u p (some (s.cur.rG o.b).toNat) 1)
      else faultCur (.fres o) (atomicPath u (curAcc u) p 16 .dev fun _ => none).2 { code := 0x10, va := s.cur.rG o.a, ia := p.ia })) ∧
  (∀ (o : OA) (s : State) (p : Path), Ready (.fcancel o) s → s.cur.taintG o.a = false → futurePath s (curAcc s) (s.cur.rG o.a) = .ok p → Rule.calm s →
    let u := release s s.curAgent .dev
    exec (.fcancel o) s = .next (done (.fcancel o) (if Rule.futureBytes u p % 4 = 0 then Rule.resolved u p none 3
      else (atomicPath u (curAcc u) p 16 .dev fun _ => none).2))) ∧
  (∀ (s : State) (ia : Word) (st a k : Nat) (d : Reg) (n l t0 : Nat), k < 8 → (s.ctx a k).wait = some ⟨.future ia d n, l, t0⟩ →
    let t := futureAnswered s ia st
    (t.ctx a k).wait = none ∧ (t.ctx a k).pc = (s.ctx a k).pc + BitVec.ofNat 64 n ∧ (d ≠ 0 → (t.ctx a k).rG d = BitVec.ofNat 64 st) ∧
      (∀ r, r ≠ d → (t.ctx a k).rG r = (s.ctx a k).rG r)) ∧
  (∀ (o : OA) (s : State) (p : Path), Ready (.freset o) s → s.cur.taintG o.a = false → futurePath s (curAcc s) (s.cur.rG o.a) = .ok p → Rule.calm s →
    let u := release s s.curAgent .dev
    let r := atomicPath u (curAcc u) p 16 .dev Rule.resetFuture
    exec (.freset o) s = .next
      (if r.1 % 4 = 0 then faultCur (.freset o) r.2 { code := 0x10, va := s.cur.rG o.a, ia := p.ia } else done (.freset o) r.2)) ∧
  (∀ (o : OFwait) (s : State) (ia pa : Nat) (ty : PType) (disc : Bool), Ready (.fwait o) s → s.cur.taintG o.a = false →
    futurePath s (curAcc s) (s.cur.rG o.a) .rd = .ok (.mem ia pa ty disc) →
    let r := if disc then (0, s) else atomicPath s (curAcc s) (.mem ia pa ty disc) 16 .dev fun _ => none
    (r.1 % 4 = 0 → exec (.fwait o) s = .next (waitFor r.2 (.future (BitVec.ofNat 64 ia) o.d (Instr.bytes (.fwait o))) (s.cur.rG o.c).toNat)) ∧
      (r.1 % 4 ≠ 0 → let t := acquire r.2 r.2.curAgent .dev
        exec (.fwait o) s = .next (t.setCur ((t.cur.wG o.d (BitVec.ofNat 64 (r.1 % 2 ^ 32))).past (.fwait o))))) ∧
  (∀ (o : OFreg) (s : State) (p q : Path), Ready (.freg o) s → s.cur.taintG o.a = false → futurePath s (curAcc s) (s.cur.rG o.a) = .ok p →
    Rule.calm s →
    let u := release s s.curAgent .dev
    let n := (s.cur.rG o.b).toNat
    let j := o.j.toNat
    ((poolOf u s.cur.kid).2 ≤ n → exec (.freg o) s = .next (faultCur (.freg o) u { code := 0x02 })) ∧
    (n < (poolOf u s.cur.kid).2 → recordPath u s.cur.kid n = .ok q →
      let k := kernelAcc u s.cur.kid
      let r := atomicPath u k q 64 .dev fun _ => none
      (r.1 / 2 ^ (100 + j) % 2 = 1 ∨ r.1 / 2 ^ 64 % 256 = 0 → exec (.freg o) s = .next (faultCur (.freg o) r.2 { code := 0x02 })) ∧
      (r.1 / 2 ^ (100 + j) % 2 = 0 → r.1 / 2 ^ 64 % 256 ≠ 0 →
        let link := 4 * n + j
        let f := atomicPath r.2 (curAcc u) p 16 .dev (Rule.registeredFuture link)
        let clist := f.1 / 2 ^ 32 % 2 ^ 32
        let v := (atomicPath f.2 k q 64 .dev (Rule.usedRecord j (if f.1 % 4 = 0 then some clist else none))).2
        exec (.freg o) s = .next (done (.freg o) (if f.1 % 4 = 0 then { v with links := v.links.set (linkKey s.cur.kid link) clist }
          else (completeLink v (ctxWho v) link (f.1 % 4 != 1)).1))))) ∧
  (∀ (s : State) (w : Who) (link : Nat) (bad : Bool) (q : Path), recordPath s w.kid (link / 4) = .ok q → link < 2 ^ 32 →
    let r := atomicPath s (kernelAcc s w.kid) q 64 .dev fun r => some (Rule.completedRecord (link % 4) bad r)
    let new := Rule.completedRecord (link % 4) bad r.1
    (new / 2 ^ 64 % 256 ≠ 0 → completeLink s w link bad = (r.2, true)) ∧
    (new / 2 ^ 64 % 256 = 0 → ∃ m : Msg, completeLink s w link bad = (r.2.pend (.messageArrive m), true) ∧
      m.dst = new / 2 ^ 80 % 2048 ∧ m.ch.toNat = new / 2 ^ 72 % 64 ∧ m.kind = .task ∧ m.tagv = false ∧ m.kid = w.kid ∧ m.acq = some .dev ∧
      m.payload.toNat = new / 2 ^ 320 % 2 ^ 128 + link / 4 * 2 ^ 128 + new / 2 ^ 96 % 2 ^ 32 * 2 ^ 160)) ∧
  (∀ (s : State) (w : Who) (bad : Bool) (n link : Nat), link ≠ 0xFFFFFFFF →
    let r := completeLink s w link bad
    completeList s w bad n 0xFFFFFFFF = s ∧
      completeList s w bad (n + 1) link = if r.2 then completeList r.1 w bad n (linkAfter s w.kid link) else r.1)

/-- R176 to R179, R212, R300, R301: BARCFG writes its slot in every cluster of the rectangle; an arrival of BAR, BARARV or BARDROP is counted, or is a
fault 0x11 at a full or disabled slot, with INFO as log 24 lays it out (DESIGN CHOICE); BARARV answers the phase, BAR waits for its release; BARWT waits for another phase and
BARRD reads the slot; a release steps the phase, clears the count, and returns every waiter of the phase with it, and every BARWT that waited for a new one. -/
def Obligations.BarriersCountArrivals : Prop :=
  (∀ (o : OBarcfg) (s : State), Ready (.barcfg o) s → Rule.onCore s → s.cur.taintG o.b = false → s.cur.rG o.b = 0 →
    (∀ sl p d tn n l t0, s.cur.wait ≠ some ⟨.phase sl p d tn n, l, t0⟩) →
    let g := s.cur.rG o.a
    let geo := bitsOf g 11 0
    let v := BitVec.ofNat 64 geo
    let n := bitsOf g 63 56
    bitsOf g 55 12 = 0 → Bar.col0 v + Bar.cols v ≤ 7 → Bar.row0 v + Bar.rows v ≤ 7 → Rule.here s ∈ Bar.clusters (agentDie s.curAgent) v → n ≤ 64 →
    (∀ k ∈ Bar.clusters (agentDie s.curAgent) v, (Bar.en (barSlot s k o.slot.toNat) = false ∨ Bar.arr (barSlot s k o.slot.toNat) = 0) ∧
      slotForeign s k o.slot.toNat s.cur.kid = false) →
    ∃ t : State, exec (.barcfg o) s = .next t ∧ Rule.onlyG (.barcfg o) s t 0 ∧
      (∀ k ∈ Bar.clusters (agentDie s.curAgent) v, Bar.en (barSlot t k o.slot.toNat) = true ∧ Bar.ecnt (barSlot t k o.slot.toNat) = n ∧
        Bar.arr (barSlot t k o.slot.toNat) = 0 ∧ Bar.phase (barSlot t k o.slot.toNat) = 0 ∧ bitsOf (barSlot t k o.slot.toNat) 11 0 = geo ∧
        vget (t.clu k).bsOwner o.slot.toNat 0 = s.cur.kid) ∧
      (∀ k j, k ∉ Bar.clusters (agentDie s.curAgent) v ∨ j ≠ o.slot.toNat → barSlot t k j = barSlot s k j)) ∧
  (∀ (o : OBarcfg) (s : State) (ps : List Path), Ready (.barcfg o) s → Rule.onCore s → s.cur.rG o.b ≠ 0 →
    let g := s.cur.rG o.a
    let geo := bitsOf g 11 0
    let v := BitVec.ofNat 64 geo
    localCheck s (curAcc s) .rd ((byteAddrs (s.cur.rG o.b)).map fun a => (a, 1, 1)) = none →
    bitsOf g 55 12 = 0 → Bar.col0 v + Bar.cols v ≤ 7 → Bar.row0 v + Bar.rows v ≤ 7 → Rule.here s ∈ Bar.clusters (agentDie s.curAgent) v →
    accessAll s .rd .any ((byteAddrs (s.cur.rG o.b)).map fun a => (a, 1, 1)) = .ok ps →
    let r := ps.foldl (fun (r : List Nat × State) p => let (b, s) := readPath r.2 (curAcc r.2) p 1; (r.1 ++ [b], s)) ([], taintAcquire s (s.cur.taintG o.b))
    (∀ k ∈ Bar.clusters (agentDie s.curAgent) v, r.1.getD (k % 64) 0 ≤ 64 ∧
      (Bar.en (barSlot r.2 k o.slot.toNat) = false ∨ Bar.arr (barSlot r.2 k o.slot.toNat) = 0) ∧
      slotForeign r.2 k o.slot.toNat s.cur.kid = false) →
    exec (.barcfg o) s = .next (done (.barcfg o) (barConfigure r.2 o.slot.toNat (agentDie s.curAgent) geo s.cur.kid fun k => r.1.getD k 0))) ∧
  (∀ (s : State) (slot : Nat), slot < 8 → Rule.onCore s → slotForeign s (Rule.here s) slot s.cur.kid = false → Rule.calm s →
    let v := barSlot s (Rule.here s) slot
    (Bar.en v = true → Bar.arr v < Bar.ecnt v →
      (∀ o : OBarD, o.slot.toNat = slot → Ready (.bararv o) s → ∃ t : State, exec (.bararv o) s = .next t ∧ Rule.onlyG (.bararv o) s t o.d ∧
        (o.d ≠ 0 → t.cur.rG o.d = (Bar.phase v).setWidth 64) ∧ Bar.arr (barSlot t (Rule.here s) slot) = Bar.arr v + 1 ∧
        Bar.drop (barSlot t (Rule.here s) slot) = Bar.drop v) ∧
      (∀ o : OBar0, o.slot.toNat = slot → Bar.drop v < 255 → Ready (.bardrop o) s → ∃ t : State, exec (.bardrop o) s = .next t ∧
        Rule.onlyG (.bardrop o) s t 0 ∧ Bar.arr (barSlot t (Rule.here s) slot) = Bar.arr v + 1 ∧
        Bar.drop (barSlot t (Rule.here s) slot) = Bar.drop v + 1) ∧
      (∀ o : OBar, o.slot.toNat = slot → Ready (.bar o) s → ∃ (t : State) (since : Nat), exec (.bar o) s = .next t ∧
        t.cur.wait = some ⟨.barrier (Rule.here s) slot (Bar.phase v) o.d (srcTaint (.bar o) s.cur) (Instr.bytes (.bar o)), (s.cur.rG o.c).toNat, since⟩ ∧
        Bar.arr (barSlot t (Rule.here s) slot) = Bar.arr v + 1 ∧ t.cur.pc = s.cur.pc ∧ (∀ r, t.cur.rG r = s.cur.rG r))) ∧
    (Bar.en v = false ∨ Bar.arr v = Bar.ecnt v →
      let u := release s s.curAgent .die
      let f : FInfo := { code := 0x11, info := BitVec.ofNat 16 (slot * 256 + (Bar.phase v).toNat) }
      (∀ o : OBarD, o.slot.toNat = slot → Ready (.bararv o) s → exec (.bararv o) s = .next (faultCur (.bararv o) u f)) ∧
      (∀ o : OBar0, o.slot.toNat = slot → Ready (.bardrop o) s → exec (.bardrop o) s = .next (faultCur (.bardrop o) u f)) ∧
      (∀ o : OBar, o.slot.toNat = slot → Ready (.bar o) s → exec (.bar o) s = .next (faultCur (.bar o) u f)))) ∧
  (∀ (o : OBarwt) (s : State), Ready (.barwt o) s → Rule.onCore s → slotForeign s (Rule.here s) o.slot.toNat s.cur.kid = false →
    let p := Bar.phase (barSlot s (Rule.here s) o.slot.toNat)
    (p.toNat = (s.cur.rG o.a).toNat % 256 → exec (.barwt o) s = .next (waitFor s
      (.phase o.slot.toNat ((s.cur.rG o.a).toNat % 256) o.d (srcTaint (.barwt o) s.cur) (Instr.bytes (.barwt o))) (s.cur.rG o.c).toNat)) ∧
    (p.toNat ≠ (s.cur.rG o.a).toNat % 256 → let t := acquire s s.curAgent .die
      exec (.barwt o) s = .next (t.setCur ((t.cur.wG o.d (p.setWidth 64) (srcTaint (.barwt o) s.cur)).past (.barwt o))))) ∧
  (∀ (o : OBarD) (s : State), Ready (.barrd o) s → Rule.onCore s → slotForeign s (Rule.here s) o.slot.toNat s.cur.kid = false →
    exec (.barrd o) s = .next (s.setCur ((s.cur.wG o.d (barSlot s (Rule.here s) o.slot.toNat)).past (.barrd o)))) ∧
  (∀ (s : State) (d x y i : Nat) (p : BitVec 8), s.ev = some (.barrierSweep (.west d x y i p)) →
    let v := barSlot s (cluAt d x y) i
    exec .barrierSweep s = .next (if Bar.en v = true ∧ Bar.phase v = p then
      barAdvance (s.took.modClu (cluAt d x y) fun c => { c with bsEast := vset c.bsEast i true }) (cluAt d x y) i else s.took)) ∧
  (∀ (s : State) (d x y i : Nat) (p : BitVec 8), s.ev = some (.barrierSweep (.north d x y i p)) →
    let v := barSlot s (cluAt d x y) i
    exec .barrierSweep s = .next (if Bar.en v = true ∧ Bar.phase v = p then
      barAdvance (s.took.modClu (cluAt d x y) fun c => { c with bsSouth := vset c.bsSouth i true }) (cluAt d x y) i else s.took)) ∧
  (∀ (s : State) (d x y i : Nat) (p : BitVec 8), s.ev = some (.barrierSweep (.release d x y i p)) → i < 8 →
    let k := cluAt d x y
    let v := barSlot s k i
    Bar.en v = true → Bar.phase v = p →
    ∃ t : State, exec .barrierSweep s = .next t ∧ t.ev = none ∧ Bar.phase (barSlot t k i) = p + 1 ∧ Bar.arr (barSlot t k i) = 0 ∧
      Bar.drop (barSlot t k i) = 0 ∧ Bar.ecnt (barSlot t k i) = Bar.ecnt v - Bar.drop v ∧
      (∀ (a x : Nat) (r : Reg) (tn : Bool) (n l t0 : Nat), x < 8 → (s.ctx a x).wait = some ⟨.barrier k i p r tn n, l, t0⟩ →
        (t.ctx a x).wait = none ∧ (t.ctx a x).pc = (s.ctx a x).pc + BitVec.ofNat 64 n ∧ (r ≠ 0 → (t.ctx a x).rG r = p.setWidth 64)) ∧
      (∀ (a x q : Nat) (r : Reg) (tn : Bool) (n l t0 : Nat), a / 8 = k → x < 8 → (s.ctx a x).wait = some ⟨.phase i q r tn n, l, t0⟩ →
        q ≠ (p + 1).toNat →
        (t.ctx a x).wait = none ∧ (t.ctx a x).pc = (s.ctx a x).pc + BitVec.ofNat 64 n ∧ (r ≠ 0 → (t.ctx a x).rG r = (p + 1).setWidth 64)))

/-- R174, R175, R186, R289, R302: QPUSH puts its value at TAIL and steps it once the queue has room and its turn has come, else it joins the pushers;
QPOP takes the value at HEAD; QDWR writes a legal descriptor and binds an enabled queue, and the queue logic tests what waits there before and after;
QDRD reads it. Both act whatever EN and BROKEN say (DESIGN CHOICE, log 26). A disabled queue shuts no kernel out (R289). A PERMIT returns a buffer's credit or orders
its store. -/
def Obligations.QueuesPassEntriesInOrder : Prop :=
  (∀ (o : OQpush) (s : State), Ready (.qpush o) s → Rule.queueOpen s o.q.toNat →
    let k := Rule.here s
    let q := o.q.toNat
    let v := qdGet s k q
    (Qd.count v < Qd.cap v → firstOf (s.clu k).pushers q s.curAgent s.curCtx = true →
      portBusy s (8 * k + Qd.core v) (Qd.entry v (Qd.tail v)) 8 = false → Rule.calm s →
      ∃ t : State, exec (.qpush o) s = .next t ∧ Rule.onlyG (.qpush o) s t 0 ∧
        (t.core (8 * k + Qd.core v)).spad.readNat (Qd.entry v (Qd.tail v)) 8 = (s.cur.rG o.a).toNat ∧
        (∀ b, b < Qd.entry v (Qd.tail v) ∨ Qd.entry v (Qd.tail v) + 8 ≤ b →
          (t.core (8 * k + Qd.core v)).spad.read b = (s.core (8 * k + Qd.core v)).spad.read b) ∧
        Qd.tail (qdGet t k q) = (Qd.tail v + 1) % 65536 ∧ Qd.head (qdGet t k q) = Qd.head v) ∧
    (Qd.cap v ≤ Qd.count v → exec (.qpush o) s = .next (waitFor
      (s.modClu k fun c => { c with pushers := joinQueue c.pushers (q, s.curAgent, s.curCtx) }) (.queue k q) (s.cur.rG o.c).toNat))) ∧
  (∀ (o : OQpop) (s : State), Ready (.qpop o) s → Rule.queueOpen s o.q.toNat →
    let k := Rule.here s
    let q := o.q.toNat
    let v := qdGet s k q
    (Qd.count v ≠ 0 → firstOf (s.clu k).poppers q s.curAgent s.curCtx = true →
      s.spPoison.contains (8 * k + Qd.core v, Qd.entry v (Qd.head v) / 64) = false →
      ∃ t : State, exec (.qpop o) s = .next t ∧ Rule.onlyG (.qpop o) s t o.d ∧
        (o.d ≠ 0 → t.cur.rG o.d = BitVec.ofNat 64 ((s.core (8 * k + Qd.core v)).spad.readNat (Qd.entry v (Qd.head v)) 8)) ∧
        Qd.head (qdGet t k q) = (Qd.head v + 1) % 65536 ∧ Qd.tail (qdGet t k q) = Qd.tail v) ∧
    (Qd.count v = 0 → exec (.qpop o) s = .next (waitFor
      (s.modClu k fun c => { c with poppers := joinQueue c.poppers (q, s.curAgent, s.curCtx) }) (.queue k q) (s.cur.rG o.c).toNat))) ∧
  (∀ (o : OQA) (s : State), Ready (.qdwr o) s → Rule.onCore s →
    let k := Rule.here s
    let v := s.cur.rG o.a
    bitsOf v 61 56 = 0 → 1 ≤ bitsOf v 23 20 → bitsOf v 23 20 ≤ 12 → (s.core (8 * k + Qd.core v)).rangeLive (Qd.offs v) (8 * Qd.cap v) false = true →
    qForeign s k o.q.toNat s.cur.kid = false →
    let u := (qdSet (retestQueue s k o.q.toNat) k o.q.toNat v).modClu k fun cl => { cl with
        qOwner := vset cl.qOwner o.q.toNat s.cur.kid
        brokeSw := if Qd.broken v then cl.brokeSw else cl.brokeSw.filter fun b => b.1 != o.q.toNat }
    exec (.qdwr o) s = .next (done (.qdwr o) (retestQueue u k o.q.toNat)) ∧
    ((∀ w ∈ (s.clu k).pushers ++ (s.clu k).poppers, w.1 ≠ o.q.toNat) →
      ∃ t : State, exec (.qdwr o) s = .next t ∧ Rule.onlyG (.qdwr o) s t 0 ∧ qdGet t k o.q.toNat = v ∧
        (Qd.en v = true → vget (t.clu k).qOwner o.q.toNat 0 = s.cur.kid) ∧
        (Qd.en v = false → ∀ kid, qForeign t k o.q.toNat kid = false) ∧ (∀ j, j ≠ o.q.toNat → qdGet t k j = qdGet s k j))) ∧
  (∀ (o : OQD) (s : State), Ready (.qdrd o) s → Rule.onCore s → qForeign s (Rule.here s) o.q.toNat s.cur.kid = false →
    exec (.qdrd o) s = .next (s.setCur ((s.cur.wG o.d (qdGet s (Rule.here s) o.q.toNat)).past (.qdrd o)))) ∧
  (∀ (s : State) (q k b : Nat), Rule.onCore s → twOf s (Rule.here s) q = some k → qForeign s (Rule.here s) q s.cur.kid = false →
    (s.clu k).tw.run = true → Qd.broken (qdGet s (Rule.here s) q) = false →
    (∀ x ∈ (s.clu (Rule.here s)).brokeSw, x.1 ≠ q) → b < (s.clu k).tw.nbuf →
    (s.clu k).tw.credits.contains (Rule.here s, b) = false → Rule.calm s →
    let u := release s s.curAgent .clu
    (∀ o : OQA, Ready (.permitFree o) s → o.q.toNat = q → (s.cur.rG o.a).toNat = b →
      exec (.permitFree o) s = .next (done (.permitFree o) (creditBack u k (Rule.here s) b))) ∧
    (∀ (o : OQAB) (sh : Shape), Ready (.permitStore o) s → o.q.toNat = q → (s.cur.rG o.a).toNat = b → (s.clu k).tw.st = some sh →
      (s.cur.rG o.b).toNat < sh.tiles →
      exec (.permitStore o) s = .next (done (.permitStore o) ((u.modClu k fun c => { c with
        tw := { c.tw with stores := c.tw.stores ++ [(Rule.here s, b, (s.cur.rG o.b).toNat)] } }).pendOnce (.storePermitAck k)))))

/-- R182, R183, R303: every operation of a work-list completes. WLINIT binds a legal header; WLPUSH and WLINS append, up to HCAP + SCAP entries (answer 2), and WLINS answers 1 for an entry
that is there; WLPOPB takes up to 16 oldest entries, all ones in the other lanes; WLSTAT reads the count; WLFREE unbinds. -/
def Obligations.WorkListsKeepTheirEntries : Prop :=
  (∀ (o : OA) (s : State) (p : Path) (pa : Nat), Ready (.wlinit o) s → s.cur.taintG o.a = false →
    headerPath s (curAcc s) (s.cur.rG o.a) = .ok (p, pa) → Rule.calm s → s.workLists.find? pa = none →
    let u := release s s.curAgent .dev
    let h := (atomicPath u (curAcc u) p 64 .dev fun _ => none).1
    let hcap := recBytes h 0x28 4
    let scap := recBytes h 0x2C 4
    16 ≤ hcap → hcap ≤ 4096 → 2 ^ hcap.log2 = hcap → (scap = 0 ∨ (1024 ≤ scap ∧ scap ≤ 1048576)) → recBytes h 0x30 8 % 64 = 0 →
    ∃ t : State, exec (.wlinit o) s = .next t ∧ Rule.onlyG (.wlinit o) s t 0 ∧
      t.workLists.find? pa = some ⟨hcap, scap, [], false, 0, 0, s.cur.kid⟩) ∧
  (∀ (s : State) (va : Word) (p : Path) (pa : Nat) (w : WorkList), headerPath s (curAcc s) va = .ok (p, pa) → s.workLists.find? pa = some w →
    (∀ (o : ODAB), Ready (.wlpush o) s → s.cur.rG o.a = va → s.cur.taintG o.a = false → Rule.calm s →
      let x := (s.cur.rG o.b).setWidth 32
      x ≠ 0xFFFFFFFF → ∃ (t : State) (w' : WorkList), exec (.wlpush o) s = .next t ∧ Rule.onlyG (.wlpush o) s t o.d ∧ t.workLists.find? pa = some w' ∧
        (w.entries.length < w.hcap + w.scap → w'.entries = w.entries ++ [x] ∧ w'.pushes = w.pushes + 1 ∧ (o.d ≠ 0 → t.cur.rG o.d = 0)) ∧
        (w.hcap + w.scap ≤ w.entries.length → w' = w ∧ (o.d ≠ 0 → t.cur.rG o.d = 2))) ∧
    (∀ (o : ODAB), Ready (.wlins o) s → s.cur.rG o.a = va → s.cur.taintG o.a = false → Rule.calm s →
      let x := (s.cur.rG o.b).setWidth 32
      x ≠ 0xFFFFFFFF → ∃ (t : State) (w' : WorkList), exec (.wlins o) s = .next t ∧ Rule.onlyG (.wlins o) s t o.d ∧ t.workLists.find? pa = some w' ∧
        (x ∈ w.entries → w' = w ∧ (o.d ≠ 0 → t.cur.rG o.d = 1)) ∧
        (x ∉ w.entries → w.entries.length < w.hcap + w.scap → w'.entries = w.entries ++ [x] ∧ (o.d ≠ 0 → t.cur.rG o.d = 0))) ∧
    (∀ (o : ODAB), Ready (.wlpopb o) s → s.cur.rG o.a = va → s.cur.taintG o.a = false →
      ∃ (t : State) (w' : WorkList), exec (.wlpopb o) s = .next t ∧ t.workLists.find? pa = some w' ∧ w'.entries = w.entries.drop 16 ∧
        (o.d ≠ 0 → t.cur.rG o.d = BitVec.ofNat 64 (Nat.min 16 w.entries.length)) ∧ (∀ r, r ≠ o.d → t.cur.rG r = s.cur.rG r) ∧
        t.cur.pc = s.cur.pc + BitVec.ofNat 64 (Instr.bytes (.wlpopb o)) ∧
        (∀ l, l < 16 → Rule.lane (t.cur.rV o.b) l = w.entries.getD l 0xFFFFFFFF)) ∧
    (∀ (o : ODA), Ready (.wlstat o) s → s.cur.rG o.a = va → s.cur.taintG o.a = false → headerPath s (curAcc s) va .rd = .ok (p, pa) →
      ∃ t : State, exec (.wlstat o) s = .next t ∧ Rule.onlyG (.wlstat o) s t o.d ∧ t.workLists.find? pa = some w ∧
        (o.d ≠ 0 → t.cur.rG o.d = BitVec.ofNat 64 ((if w.spilled then 1 else 0) * 2 ^ 32 + w.entries.length))) ∧
    (∀ (o : OA), Ready (.wlfree o) s → s.cur.rG o.a = va → s.cur.taintG o.a = false → Rule.calm s →
      ∃ t : State, exec (.wlfree o) s = .next t ∧ Rule.onlyG (.wlfree o) s t 0 ∧ t.workLists.find? pa = none))

/-- R184, R288, R298: COLL of one caller is its own operand, of a scalar register the low bits of the format, extended (DESIGN CHOICE, log 24); of more it waits and sends its arrival; an arrival opens an instance, and the last one
gives every caller the combination; a timer that runs out, and a wait past its limit at its exact cycle (log 38), fault their callers: a COLL that a stop withdrew with 0x14. -/
def Obligations.CollectivesCombineTheirCallers : Prop :=
  (∀ (o : OColl) (s : State), Ready (.coll o) s →
    let desc := s.cur.rG o.a
    let n := bitsOf desc 31 16
    let i := bitsOf desc 15 0
    let dev : BitVec 6 := desc.extractLsb' 58 6
    let t := srcTaint (.coll o) s.cur
    (n = 0 → exec (.coll o) s = .next (faultCur (.coll o) s { code := 0x14 })) ∧
    (n = 1 → i = 0 → bitsOf desc 57 48 = 0 → domainDev s dev = true → exec (.coll o) s = .next (s.setCur
      ((if o.vec then s.cur.wV o.d (s.cur.rV o.b) t
        else s.cur.wG o.d (BitVec.ofNat 64 (extend o.fmt ((s.cur.rG o.b).toNat % 2 ^ o.fmt.bits) 64)) t).past (.coll o)))) ∧
    (2 ≤ n → i < n → bitsOf desc 57 48 = 0 → domainDev s dev = true → Rule.releases s (if dev = s.devno then .dev else .sys) →
      ∃ (u : State) (m : CollMsg) (w : Wait), exec (.coll o) s = .next u ∧ Ev.collArrive m ∈ u.pending ∧ m.task = s.cur.task ∧ m.kid = s.cur.kid ∧
        m.n = n ∧ m.i = i ∧ m.op = o.op ∧ m.fmt = o.fmt ∧ m.id = desc.extractLsb' 32 16 ∧
        m.value = (if o.vec then s.cur.rV o.b else (s.cur.rG o.b).setWidth 512) ∧ u.cur.wait = some w ∧ w.limit = (s.cur.rG o.c).toNat ∧
        u.cur.pc = s.cur.pc)) ∧
  (∀ (s : State) (m : CollMsg), s.ev = some (.collArrive m) → collWaits s m = true → (s.die (collDie m)).colls = [] →
    collHeld s m true = false →
    ∃ (t : State) (c : CollInst), exec .collArrive s = .next t ∧ t.ev = none ∧ (t.die (collDie m)).colls = [c] ∧ c.arrived = [m] ∧ c.n = m.n ∧
      c.op = m.op ∧ c.limit = m.limit ∧ (∀ a k, t.ctx a k = s.ctx a k)) ∧
  (∀ (s : State) (m : CollMsg) (c : CollInst), s.ev = some (.collArrive m) → collWaits s m = true → collHeld s m false = false →
    (s.die (collDie m)).colls.find? (collKey m) = some c → c.n = m.n → c.op = m.op → c.vec = m.vec → c.fmt = m.fmt →
    (∀ x ∈ c.arrived, x.i ≠ m.i) → c.arrived.length + 1 = c.n →
    let all : CollInst := { c with arrived := c.arrived ++ [m] }
    let u := s.took.modDie (collDie m) fun x => { x with colls := x.colls.filter fun y => !collKey m y }
    let t := all.arrived.foldl (fun (s : State) x => collDeliver s x (collResult all)) u
    exec .collArrive s = .next t) ∧
  (∀ c : CollInst, c.vec = false → c.op = .add → c.fmt = .n64 → 0 < c.n →
    (collResult c).2 = 0 ∧ ((collResult c).1.setWidth 64 : Word) =
      (List.range c.n).foldl (fun (n : Word) i => match c.arrived.find? fun m => m.i == i with | some m => n + m.value.setWidth 64 | none => n) 0) ∧
  (∀ (s : State) (d unit : Nat) (kid id : BitVec 16) (c : CollInst), s.ev = some (.collTimerExpire d unit kid id) →
    (s.die d).colls.find? (fun c => c.unit == unit && c.kid == kid && c.id == id) = some c → c.limit ≠ 0 → c.opened + c.limit ≤ s.now →
    let u := s.took.modDie d fun x => { x with colls := x.colls.filter fun y => !(y.unit == unit && y.kid == kid && y.id == id) }
    let t := c.arrived.foldl (fun (s : State) m => if collWaits s m then failTask s m.task { code := 0x14, info := BitVec.ofNat 16 c.arrived.length } else s) u
    exec .collTimerExpire s = .next t) ∧
  (∀ (s : State) (a k l t0 : Nat) (w : WaitFor), s.ev = some (.boundedWaitExpire a k) → (s.ctx a k).st = .live → (s.ctx a k).wait = some ⟨w, l, t0⟩ → l ≠ 0 →
    (s.now < t0 + l → exec .boundedWaitExpire s = .next s) ∧
    (t0 + l ≤ s.now →
      let late := exec .boundedWaitExpire s = .next (failTask s.took (s.ctx a k).task { code := 0x12 })
      (∀ ia d n, w = .future ia d n → late) ∧ (∀ i p d tn n, w = .phase i p d tn n → late) ∧ (∀ c off, w = .sync c off → late) ∧
      (w = .retry → ∀ i t, nextInstr { s.took with curAgent := a, curCtx := k } = .run i t →
        ((∀ o, i ≠ .coll o) → (∀ o, i ≠ .qpush o) → (∀ o, i ≠ .qpop o) → late) ∧
        (∀ o, i = .coll o → (∀ d, (s.die d).colls = []) →
          ∃ t : State, exec .boundedWaitExpire s = .next t ∧
            (∀ j c, s.findTask (s.ctx a k).task = some (j, c) → (t.ctx j c).frozenBy.map (fun p => (p.code, p.info)) = some (0x14, 0))))))

/-- R137, R140 to R142, R145, R285 to R287: SUBSCR fills an entry of each table, sends one full update and waits for it; UNSUB frees its entry and
tells the publisher; SUBSTAT reads state and SEQ after an acquire; an update is sent after 32 cycles and counted, its arrival steps SEQ and is
acknowledged, an acknowledgement counts down, and a teardown frees or marks the entry. -/
def Obligations.SubscriptionsForwardUpdates : Prop :=
  (∀ (o : ODAB) (s : State), Ready (.subscr o) s → Rule.onCore s →
    let va := s.cur.rG o.a
    let g := s.cur.rG o.b
    let off := addrPart va % 2 ^ 48
    let len := (bitsOf g 34 29 + 1) * 64
    let pub := bitsOf g 63 48
    addrPart va % 64 = 0 → addrPart va / 2 ^ 48 = 0xF0 → s.cur.claim ≤ 18 → off + len ≤ s.cur.claim * 16384 → (s.core s.curAgent).rangeLive off len false = true →
    bitsOf g 21 0 = 0 → pub < 2048 → (freeSub s s.curAgent).isSome = true → pubCheck s s.curAgent s.cur.kid pub (bitsOf g 47 35 * 64) len = none →
    ∃ (t : State) (i : Nat) (u : SubUpdate) (t0 : Nat), exec (.subscr o) s = .next t ∧ freeSub s s.curAgent = some i ∧
      t.pending = s.pending ++ [.subscriptionUpdateApply u] ∧ u.pub = pub ∧ u.sub = s.curAgent ∧ u.subIdx = i ∧ u.full = true ∧ u.kid = s.cur.kid ∧
      u.blocks.length * 64 = len ∧ Pub.valid (pubAt t pub u.pubIdx) = true ∧ Sub.valid (subAt t s.curAgent i) = true ∧
      Sub.state (subAt t s.curAgent i) = 1 ∧ Sub.seq (subAt t s.curAgent i) = 0 ∧
      t.cur.wait = some ⟨.bind i none o.d (srcTaint (.subscr o) s.cur) (Instr.bytes (.subscr o)), 0, t0⟩ ∧ t.cur.pc = s.cur.pc) ∧
  (∀ (o : OA) (s : State), Ready (.unsub o) s → (s.cur.rG o.a).toNat ≤ 15 → Sub.valid (subAt s s.curAgent (s.cur.rG o.a).toNat) = true →
    Sub.kid (subAt s s.curAgent (s.cur.rG o.a).toNat) = s.cur.kid →
    let e := subAt s s.curAgent (s.cur.rG o.a).toNat
    ∃ t : State, exec (.unsub o) s = .next t ∧ Rule.onlyG (.unsub o) s t 0 ∧ subAt t s.curAgent (s.cur.rG o.a).toNat = 0 ∧
      (Sub.state e ≠ 2 → Ev.subscriptionTeardown (Sub.pub e) (Sub.pubIdx e) false (Sub.kid e) s.curAgent (s.cur.rG o.a).toNat ∈ t.pending)) ∧
  (∀ (o : OSubst) (s : State), Ready (.substat o) s → (s.cur.rG o.a).toNat ≤ 15 → Sub.valid (subAt s s.curAgent (s.cur.rG o.a).toNat) = true →
    Sub.kid (subAt s s.curAgent (s.cur.rG o.a).toNat) = s.cur.kid →
    let e := subAt s s.curAgent (s.cur.rG o.a).toNat
    let u := acquire s s.curAgent o.scope
    exec (.substat o) s = .next (u.setCur ((u.cur.wG o.d
      (BitVec.ofNat 64 (2 ^ 35 + (if Sub.npend e then 2 ^ 34 else 0) + Sub.state e * 2 ^ 32 + (Sub.seq e).toNat))).past (.substat o)))) ∧
  (∀ (s : State) (a i : Nat) (p : PubPend), s.ev = some (.subscriptionUpdateSend a i) → (s.core a).pubPend = [p] → p.entry = i → i < 16 →
    Pub.valid (pubAt s a i) = true → Pub.state (pubAt s a i) ≠ 2 → Pub.outst (pubAt s a i) < 4095 →
    (p.opened + 32 ≤ s.now →
      ∃ (t : State) (u : SubUpdate), exec .subscriptionUpdateSend s = .next t ∧ t.ev = none ∧ (t.core a).pubPend = [] ∧
        t.pending = s.pending ++ [.subscriptionUpdateApply u] ∧ u.blocks = p.blocks ∧ u.sub = Pub.sub (pubAt s a i) ∧ u.full = false ∧
        Pub.outst (pubAt t a i) = Pub.outst (pubAt s a i) + 1) ∧
    (s.now < p.opened + 32 → updatesWanted s a = false → exec .subscriptionUpdateSend s = .next s)) ∧
  (∀ (s : State) (u : SubUpdate), s.ev = some (.subscriptionUpdateApply u) → s.pending = [] → u.subIdx < 16 →
    let x := subAt s u.sub u.subIdx
    Sub.valid x = true → Sub.kid x = u.kid → Sub.pub x = u.pub → Sub.pubIdx x = u.pubIdx → Sub.state x ≠ 2 →
    (u.full = true → linkBusy s u.sub u.subIdx = none) →
    ∃ t : State, exec .subscriptionUpdateApply s = .next t ∧ t.ev = none ∧ Sub.seq (subAt t u.sub u.subIdx) = Sub.seq x + 1 ∧
      Ev.subscriptionAck u.pub u.pubIdx ∈ t.pending ∧ (u.full = true → Sub.state (subAt t u.sub u.subIdx) = 0)) ∧
  (∀ (s : State) (a i : Nat), s.ev = some (.subscriptionAck a i) → i < 16 → Pub.valid (pubAt s a i) = true → Pub.outst (pubAt s a i) ≠ 0 →
    ∃ t : State, exec .subscriptionAck s = .next t ∧ t.ev = none ∧ Pub.outst (pubAt t a i) = Pub.outst (pubAt s a i) - 1 ∧ t.pending = s.pending) ∧
  (∀ (s : State) (a i p j : Nat) (kid : BitVec 16), i < 16 →
    (s.ev = some (.subscriptionTeardown a i false kid p j) → Pub.valid (pubAt s a i) = true → Pub.kid (pubAt s a i) = kid → Pub.sub (pubAt s a i) = p →
      Pub.subIdx (pubAt s a i) = j → ∃ t : State, exec .subscriptionTeardown s = .next t ∧ t.ev = none ∧ pubAt t a i = 0) ∧
    (s.ev = some (.subscriptionTeardown a i true kid p j) → Sub.valid (subAt s a i) = true → Sub.kid (subAt s a i) = kid → Sub.pub (subAt s a i) = p →
      Sub.pubIdx (subAt s a i) = j →
      ∃ t : State, exec .subscriptionTeardown s = .next t ∧ t.ev = none ∧ Sub.state (subAt t a i) = 2 ∧ Sub.valid (subAt t a i) = true))

/-- R165, R166, R324 to R337: MXLEASE on a free lease is granted 16 commands, MXREL lets it go, and a grant ends by time; under the lease TCFG sets a
tile, TREL releases and MXWAIT passes an idle one; MXLDA, MXLDB, MXMUL, MXTERN and MXDRAIN queue their command behind the others with the next
issue number, a fused one once it holds the partner's lease (none where an array is fenced or disabled, DEDUCED, log 23); MXSTAT reads the array; the
array takes its oldest command; a product, and a staging, waits for every earlier staging, and a staging for every earlier product, that touches its
bytes; a product (in one step, log 22), the drain that copies the tile (log 23), and the pieces of stagings and drains end as their events say; a
product of signed bytes is the sum of its products. -/
def Obligations.MatrixCommandsRunUnderTheLease : Prop :=
  (∀ (o : OXC) (s : State), Ready (.mxlease o) s → Rule.onCore s →
    let k := Rule.here s
    let u := leaseAsk s k (Rule.me s)
    ((Rule.lease s k).holder = none → (Rule.lease s k).waiters = [] → ∃ t : State, exec (.mxlease o) s = .next t ∧
      (Rule.lease t k).holder = some (Rule.me s) ∧ (Rule.lease t k).left = 16 ∧ (Rule.lease t k).since = s.now ∧ Rule.onlyG (.mxlease o) s t 0) ∧
    ((Rule.lease s k).holder = some (Rule.me s) → exec (.mxlease o) s = .next (done (.mxlease o) s)) ∧
    ((Rule.lease u k).holder ≠ some (Rule.me s) → exec (.mxlease o) s = .next (waitFor u .lease (s.cur.rG o.c).toNat))) ∧
  (∀ s : State, Ready .mxrel s → Rule.onCore s →
    exec .mxrel s = .next (done .mxrel (leaseDrop s (Rule.here s) (Rule.me s))) ∧
      ((Rule.lease s (Rule.here s)).waiters = [] → (Rule.lease (leaseDrop s (Rule.here s) (Rule.me s)) (Rule.here s)).holder ≠ some (Rule.me s))) ∧
  (∀ (s : State) (k : Nat), s.ev = some (.leaseGrantExpire k) → (Rule.lease s k).holder.isSome = true →
    (s.now < (Rule.lease s k).since + 65536 → exec .leaseGrantExpire s = .next s) ∧
    ((Rule.lease s k).since + 65536 ≤ s.now → exec .leaseGrantExpire s = .next (leaseEnd s.took k))) ∧
  (∀ s : State, Rule.holdsArray s →
    let k := Rule.here s
    (∀ o : OTA, Ready (.tcfg o) s → tileBusy (s.clu k) o.t.toNat = false →
      let g := s.cur.rG o.a
      g.getLsbD 7 = false → g.getLsbD 15 = false → bitsOf g 63 17 = 0 →
      exec (.tcfg o) s = .next (done (.tcfg o) (setTile s k o.t.toNat ⟨some (bitsOf g 6 0 + 1, bitsOf g 14 8 + 1, g.getLsbD 16), []⟩))) ∧
    (∀ o : OT, Ready (.trel o) s →
      (tileBusy (s.clu k) o.t.toNat = true → exec (.trel o) s = .next (waitFor s .retry)) ∧
      (tileBusy (s.clu k) o.t.toNat = false →
        exec (.trel o) s = .next (done (.trel o) (setTile s k o.t.toNat { tileOf (s.clu k) o.t.toNat with conf := none })))) ∧
    (∀ o : OTC, Ready (.mxwait o) s →
      (tileBusy (s.clu k) o.t.toNat = true → exec (.mxwait o) s = .next (waitFor s .retry (s.cur.rG o.c).toNat)) ∧
      (tileBusy (s.clu k) o.t.toNat = false → exec (.mxwait o) s = .next (done (.mxwait o) s)))) ∧
  (∀ (o : OXABCE) (toB : Bool) (s : State), let i : Instr := if toB then .mxldb o else .mxlda o
    Ready i s → Rule.holdsArray s → Rule.calm s → placeFull s s.curAgent = false →
    let g := s.cur.rG o.a
    let h := s.cur.rG o.c
    let src := s.cur.rG o.b
    let st := s.cur.rG o.e
    let rb := bitsOf h 17 0 + 1
    let rows := bitsOf h 47 32 + 1
    bitsOf g 31 18 = 0 → bitsOf g 63 50 = 0 → bitsOf h 31 18 = 0 → bitsOf h 63 48 = 0 → bitsOf g 17 0 + (rows - 1) * bitsOf g 49 32 + rb ≤ 262144 →
    (rows = 1 ∨ rb ≤ bitsOf g 49 32) → bitsOf g 17 0 % 4 = 0 → bitsOf g 49 32 % 4 = 0 → rb % 4 = 0 → src.toNat % 4 = 0 → st.toNat % 4 = 0 →
    (∀ (r : Nat) (a : Word), r < rows → addAddr src (r * st.toInt) = some a → ownRangeBad s a rb = false) →
    let u := release s s.curAgent .dev
    let x := mxPut u (.stage toB (bitsOf g 17 0) (bitsOf g 49 32) rb rows src st)
    exec i s = .next (done i (cePut x.2 x.2.curAgent ⟨issuerOf x.2, .mx x.1, 0, 0⟩))) ∧
  (∀ (o : OMx) (tern : Bool) (s : State), let i : Instr := if tern then .mxtern o else .mxmul o
    Ready i s → Rule.holdsArray s → Rule.calm s → setsFull (s.clu (Rule.here s)) = false →
    let k := Rule.here s
    let j := fusePartner k
    let ga := s.cur.rG o.a
    let gb := s.cur.rG o.b
    let cmd : MxCmd := .mul o.acc o.t.toNat o.fa o.fb o.sat o.ka.toNat o.kb.toNat (bitsOf ga 17 0) (bitsOf ga 49 32) (bitsOf gb 17 0) (bitsOf gb 49 32)
      (s.cur.rG o.c).toNat o.fuse
    let u := release s s.curAgent .dev
    let go (s : State) : State := done i (leaseCount ((mxPut s cmd).2.pendOnce (.matrixCommandComplete k)) k)
    (o.sat = true → Fmt.intPath o.fa o.fb = true) → mulCheck (s.clu k) o ga gb (s.cur.rG o.c) = none →
    ((o.fuse = false ∨ (u.clu k).fenced ≠ 0 ∨ (u.clu j).fenced ≠ 0 ∨ (u.clu j).disabled = true) → exec i s = .next (go u)) ∧
    (o.fuse = true → (u.clu k).fenced = 0 → (u.clu j).fenced = 0 → (u.clu j).disabled = false →
      let mine (s : State) : Prop := (Rule.lease s j).holder = some (Rule.me u) ∧ (Rule.lease s j).fuse = none
      let asked := leaseNext (u.modClu j fun c => { c with lease := { c.lease with waiters :=
        if (Rule.me u) ∈ c.lease.waiters then c.lease.waiters else c.lease.waiters ++ [Rule.me u] } }) j
      ∃ w : State, (mine u → w = arrayPass u j) ∧ (¬ mine u → w = arrayPass asked j) ∧
        (mine w → (Rule.lease w j).due = false →
          exec i s = .next (go (leaseCount (w.modClu j fun c => { c with lease := { c.lease with fuse := some (w.clu k).nextNo } }) j))) ∧
        (¬ mine w ∨ (Rule.lease w j).due = true → exec i s = .next (waitFor w .retry)))) ∧
  (∀ (s : State) (c : MxCmd), let k := agentClu s.curAgent
    let r := mxPut s c
    r.1 = (s.clu k).nextNo ∧ (r.2.clu k).nextNo = (s.clu k).nextNo + 1 ∧ ∃ e : MxEntry, (r.2.clu k).cmds = (s.clu k).cmds ++ [e] ∧ e.no = r.1 ∧ e.cmd = c ∧
      e.iss.task = s.cur.task) ∧
  (∀ (s : State) (k : Nat) (e q : MxEntry) (toB : Bool) (x y : Nat × Nat), s.ev = some (.matrixCommandComplete k) →
    (s.clu k).cmds.find? MxEntry.inArray = some e → q ∈ (s.clu k).cmds → q.no < e.no → Rule.isStage e.cmd = false → Rule.isStage q.cmd = true →
    Rule.bufSpan (s.clu k) toB e.cmd = some x → Rule.bufSpan (s.clu k) toB q.cmd = some y → Rule.meets x y → exec .matrixCommandComplete s = .next s) ∧
  (∀ (s : State) (k j pos : Nat) (b : Issuer) (fl : Word) (e q : MxEntry) (toB : Bool) (x y : Nat × Nat), s.ev = some (.stagingLanded k) →
    (s.clu k).active = some (j, ⟨b, .mx e.no, pos, fl⟩) → (s.clu k).cmds.find? (fun r => r.no == e.no) = some e → q ∈ (s.clu k).cmds → q.no < e.no →
    Rule.isStage e.cmd = true → (Rule.isStage q.cmd = true ∨ q.inArray = true) →
    Rule.bufSpan (s.clu k) toB e.cmd = some x → Rule.bufSpan (s.clu k) toB q.cmd = some y → Rule.meets x y → exec .stagingLanded s = .next s) ∧
  (∀ (o : OTABC) (s : State) (p : Path) (f : Fmt) (m n : Nat) (tt : Bool), Ready (.mxdrain o) s → Rule.onCore s →
    resolve s (curAcc s) (s.cur.rG o.a) 64 64 .rd .any = .ok p → pathHold s (curAcc s) p 64 .rd = none →
    let r := readPath (taintAcquire s (s.cur.taintG o.a)) (curAcc s) p 64
    let v := r.2
    let k := Rule.here s
    let sh := Shape.parse r.1
    let u := release v v.curAgent .dev
    let x := mxPut u (.drain o.t.toNat sh (s.cur.rG o.b) (s.cur.rG o.c))
    (tileOf (v.clu k) o.t.toNat).conf = some (m, n, tt) → sh.ext = #v[n, m, 1, 1] → (tt = true → sh.op = 0) → sh.format = some f →
    (match f.cls with | .tern => False | .block _ => False | _ => f.bits ≠ 64) → sh.op ≤ 2 → (sh.op = 1 → f = .f32) → (sh.op = 2 → f = .bf16) →
    shapeBad r.1 = false → sh.misaligned = false → addrPart (s.cur.rG o.b) % 16 = 0 → addrPart (s.cur.rG o.c) % 16 = 0 → shapeOwnBad v sh 0 = false →
    syncCheck v (s.cur.rG o.b) = none → futCheck s.cur.win (s.cur.rG o.c) = none → Rule.holdsArray v → setsFull (v.clu k) = false →
    placeFull v v.curAgent = false → Rule.calm v →
    exec (.mxdrain o) s = .next (done (.mxdrain o)
      (leaseCount ((cePut x.2 x.2.curAgent ⟨issuerOf x.2, .mx x.1, 0, 0⟩).pendOnce (.matrixCommandComplete k)) k))) ∧
  (∀ (o : ORd) (s : State), Ready (.mxstat o) s → Rule.onCore s →
    let c := s.clu (Rule.here s)
    ∃ v : Nat, exec (.mxstat o) s = .next (done (.mxstat o) (landG s o.d v)) ∧ (v / 2 ^ 30 % 2 = 1 ↔ c.lease.holder.isSome = true) ∧
      (v / 2 ^ 31 % 2 = 1 ↔ c.lease.holder = some (Rule.me s)) ∧ (v / 2 ^ 26 % 2 = 1 ↔ c.disabled = true) ∧ v / 2 ^ 22 % 16 = c.fenced.toNat ∧
      (v / 2 ^ 21 % 2 = 1 ↔ c.stgerr = true) ∧ (∀ t, t < 8 → (v / 2 ^ t % 2 = 1 ↔ (tileOf c t).conf.isSome = true)) ∧
      (∀ t, t < 8 → (v / 2 ^ (8 + t) % 2 = 1 ↔ tileBusy c t = true))) ∧
  (∀ (s : State) (k j no pos boff pitch rb rows : Nat) (b : Issuer) (iss : Issuer) (toB rd : Bool) (src st fl : Word) (tl : Tile),
    s.ev = some (.stagingLanded k) → (s.clu k).active = some (j, ⟨b, .mx no, pos, fl⟩) →
    (s.clu k).cmds.find? (fun q => q.no == no) = some ⟨no, iss, .stage toB boff pitch rb rows src st, rd, tl⟩ → engBlocked s (.copy k) = false →
    mxWaits (s.clu k) ⟨no, iss, .stage toB boff pitch rb rows src st, rd, tl⟩ = false →
    ∀ (t : State) (n : Nat), stagePiece s (iss.acc (.copy k)) k toB boff pitch rb (rows * rb) src st 64 pos = (t, n, none) →
      (n < rows * rb → exec .stagingLanded s = .next (ceKick (cePos t k n).took k)) ∧
      (rows * rb ≤ n → let t := arrayPass (ceEnd (t.took.modClu k fun c => { c with cmds := c.cmds.filter fun q => q.no != no }) k) k
        exec .stagingLanded s = .next t)) ∧
  (∀ (s : State) (k : Nat) (e : MxEntry), s.ev = some (.matrixCommandComplete k) → (s.clu k).cmds.find? MxEntry.inArray = some e →
    engBlocked s (.matrix k) = false → mxWaits (s.clu k) e = false →
    let again (s : State) : State := if (s.took.clu k).cmds.any MxEntry.inArray then s.took.pendOnce (.matrixCommandComplete k) else s.took
    (∀ (acc : Bool) (t : Nat) (fa fb : Fmt) (sat : Bool) (ka kb ao ap bo bp n : Nat) (fuse : Bool), e.cmd = .mul acc t fa fb sat ka kb ao ap bo bp n fuse →
      let r := matMul (s.clu k) acc t fa fb sat ka kb ao ap bo bp n
      let u := setTile (s.modClu k fun c => { c with cmds := c.cmds.filter fun q => q.no != e.no }) k t r.1
      let w := again (arrayPass (fuseDrop (joinFlags u e.iss r.2) k e.no) k)
      exec .matrixCommandComplete s = .next w) ∧
    (∀ (t : Nat) (sh : Shape) (sync fut : Word), e.cmd = .drain t sh sync fut → ((s.clu k).cmds.filter fun q => q.read).length < 2 →
      let w := again (s.modClu k fun c => { c with
        cmds := c.cmds.map fun q => if q.no = e.no then { q with read := true, tile := tileOf (s.clu k) t } else q })
      exec .matrixCommandComplete s = .next w)) ∧
  (∀ (s : State) (k j no pos tn : Nat) (b iss : Issuer) (sh : Shape) (sync fut fl : Word) (tl : Tile),
    s.ev = some (.drainWriteComplete k) → (s.clu k).active = some (j, ⟨b, .mx no, pos, fl⟩) →
    (s.clu k).cmds.find? (fun q => q.no == no) = some ⟨no, iss, .drain tn sh sync fut, true, tl⟩ → engBlocked s (.copy k) = false →
    ∀ (t : State) (g : Word) (n : Nat),
      drainPiece s (iss.acc (.copy k)) sh (sh.format.getD .f32) (match tl.conf with | some (_, _, tt) => tt | none => false) tl.el 0
        (sh.count - pos) pos (bytesBefore sh 0 pos) = (t, g, n, none) →
      (n < sh.count → exec .drainWriteComplete s = .next (ceKick (cePos t k n g).took k)) ∧
      (sh.count ≤ n →
        let u := ceComplete s (cePos t k n g) k iss (fl ||| g) sync fut (shapeBytes sh 0) fun s =>
          arrayPass (ceEnd (s.modClu k fun c => { c with cmds := c.cmds.filter fun q => q.no != no }) k) k
        exec .drainWriteComplete s = .next u)) ∧
  (∀ (c : Cluster) (acc : Bool) (t ao ap bo bp k m n : Nat), (tileOf c t).conf = some (m, n, true) → m ≤ 128 → n ≤ 128 →
    ∀ i j, i < m → j < n → tileGet (matMul c acc t .i8 .i8 false 0 0 ao ap bo bp k).1 i j =
      (if acc then tileGet (tileOf c t) i j else 0) + BitVec.ofInt 32 (Rule.dotBytes c.bufA c.bufB (ao + i * ap) (bo + j * bp) k))

/-- R338 to R341: NBCFG on a legal descriptor that no command uses starts a copy, and its copy ends it PLACED; NBMV on a placed one starts a product
with x as it is now, whose steps write y, or send it in messages of 28 rows, and whose last one lets the descriptor go; NBSTAT reads STATE and INUSE. -/
def Obligations.NearBankCommandsFollowTheirDescriptor : Prop :=
  (∀ (o : OXAB) (s : State) (ia pa : Nat) (ty : PType) (disc : Bool), Ready (.nbcfg o) s → s.cur.taintG o.a = false →
    nbdPath s (curAcc s) (s.cur.rG o.a) .at = .ok (.mem ia pa ty disc) → Rule.calm s →
    let u := release s s.curAgent .dev
    let r := atomicPath u (curAcc u) (.mem ia pa ty disc) 64 .dev fun _ => none
    nbdBad r.1 = false → fieldAt r.1 0x28 8 % 4 = 0 → fieldAt r.1 0x24 4 % 4 = 0 → fieldAt r.1 0x30 8 % 64 = 0 →
    (∀ (j : Nat) (a : Word), j < fieldAt r.1 0x20 4 → addAddr (BitVec.ofNat 64 (fieldAt r.1 0x28 8)) (j * fieldAt r.1 0x24 4) = some a →
      ownRangeBad r.2 a (rowBytes ((nbFormat (nbdFmt r.1)).getD .i8) (fieldAt r.1 0x19 1) (fieldAt r.1 0x1C 4)) = false) →
    futCheck s.cur.win (s.cur.rG o.b) = none → nbdState r.1 ≠ 1 → nbdInuse r.1 = 0 →
    ∃ (t : State) (e : NbEntry) (m : NbMat), exec (.nbcfg o) s = .next t ∧ Rule.onlyG (.nbcfg o) s t 0 ∧ t.nbCmds = r.2.nbCmds ++ [e] ∧
      e.cmd = .place ia (futIa s.cur.win (s.cur.rG o.b)) (BitVec.ofNat 64 (fieldAt r.1 0x28 8)) (fieldAt r.1 0x24 4) 0 ∧ e.iss.task = s.cur.task ∧
      Ev.nbcfgPlaced e.id ∈ t.pending ∧ t.nbMats.find? pa = some m ∧ m.rows = fieldAt r.1 0x20 4 ∧ m.cols = fieldAt r.1 0x1C 4 ∧ m.fmt = nbdFmt r.1) ∧
  (∀ (o : ONbmv) (s : State) (ia pa : Nat) (ty : PType) (disc : Bool) (m : NbMat), Ready (.nbmv o) s → s.cur.taintG o.a = false →
    s.cur.taintG o.b = false → nbdPath s (curAcc s) (s.cur.rG o.a) .at = .ok (.mem ia pa ty disc) → Rule.calm s →
    let u := release s s.curAgent .dev
    let r := atomicPath u (curAcc u) (.mem ia pa ty disc) 64 .dev fun _ => none
    let z := o.fx.bits / 8
    let g := s.cur.rG o.e
    nbdLocal s (curAcc s) (s.cur.rG o.a) .at = none → localCheck s (curAcc s) .rd [(s.cur.rG o.b, z, z)] = none →
    nbmvSatBad o none = false → nbmvSatBad o (some m.format) = false →
    r.2.nbMats.find? pa = some m → xLocal r.2 (curAcc r.2) (s.cur.rG o.b) (m.cols * z) z = none → nbmvCheck r.2 s.cur o (some m) r.1 = none →
    nbdInuse r.1 ≠ 65535 → ∀ (v : Nat) (w : State), engRead r.2 (curAcc r.2) (s.cur.rG o.b) (m.cols * z) = .ok (v, w) →
    ∃ (t : State) (e : NbEntry), exec (.nbmv o) s = .next t ∧ Rule.onlyG (.nbmv o) s t 0 ∧ t.nbCmds = w.nbCmds ++ [e] ∧
      e.cmd = .mv ia o.fx o.sat (g.getLsbD 62) (g.getLsbD 63) (xList v z m.cols) (s.cur.rG o.c) (bitsOf g 15 0) (bitsOf g 31 16 + 1) (s.cur.rG o.f) 0 [] ∧
      Ev.nbmvComplete e.id ∈ t.pending) ∧
  (∀ (o : OXDA) (s : State) (p : Path), Ready (.nbstat o) s → nbdPath s (curAcc s) (s.cur.rG o.a) .rd = .ok p →
    let r := homeRead (taintAcquire s (s.cur.taintG o.a)) (curAcc s) p 64
    ∃ v : Nat, exec (.nbstat o) s = .next (done (.nbstat o) (landG r.2 o.d v)) ∧ v % 2 ^ 16 = nbdState r.1 % 2 ^ 16 ∧
      v / 2 ^ 16 % 2 ^ 32 = nbdInuse r.1 ∧ v / 2 ^ 48 = fieldAt r.1 0x1A 2) ∧
  (∀ (s : State) (id nbd pa pitch pos : Nat) (iss : Issuer) (fut : Option Nat) (src fl : Word) (m : NbMat) (fs : List Nat),
    let e : NbEntry := ⟨id, iss, .place nbd fut src pitch pos, fl⟩
    s.ev = some (.nbcfgPlaced id) → s.nbCmds.find? (fun e => e.id == id) = some e → nbMatOf s nbd = some (pa, m) → nbBlocked s e = false →
    destFrames s (iss.acc (nbEngine s e)) m.dest (ceilDiv (addrPart m.dest % 4096 + m.span) 4096) 0 = .ok fs → (∀ f ∈ fs, f = fs.headD 0) →
    let m' : NbMat := { m with stack := fs.headD 0 }
    ∀ (t : State) (n : Nat), nbRows { s with nbMats := s.nbMats.set pa m' } iss m' src pitch (nbBlock pos m.rows) pos = (t, n, none) →
      (n < m.rows → exec .nbcfgPlaced s = .next ((nbAt t.took id n).pend (.nbcfgPlaced id))) ∧
      (m.rows ≤ n →
        let t := { t.took with nbCmds := t.nbCmds.filter fun q => q.id != id }
        let t := objectUpdate t (iss.acc (nbEngine s e)) nbd fun v => nbdSet (nbdStateSet 2 v) 223 208 (fs.headD 0)
        let t := nbFuture t e fut (some 0) 1
        exec .nbcfgPlaced s = .next t)) ∧
  (∀ (s : State) (id nbd pa row0 nrows pos : Nat) (iss : Issuer) (fx : Fmt) (sat acc msg : Bool) (x : List (BitVec 64)) (y sync fl : Word) (m : NbMat)
      (part : List Nat), let e : NbEntry := ⟨id, iss, .mv nbd fx sat acc msg x y row0 nrows sync pos part, fl⟩
    s.ev = some (.nbmvComplete id) → s.nbCmds.find? (fun e => e.id == id) = some e → nbMatOf s nbd = some (pa, m) → nbBlocked s e = false →
    (nrows ≤ pos → exec .nbmvComplete s = .next (nbmvEnd s s e nbd nrows sync)) ∧
    (pos < nrows → msg = false → acc = false → ∀ (ys : List Nat) (g : Word) (t u : State),
      let n := nbBlock (row0 + pos) (row0 + nrows)
      nbProduct s iss m fx sat x (fun _ => 0) n (row0 + pos) = .ok (ys, g, t) →
      engWrite t (iss.acc (nbEngine s e)) ((addAddr y (4 * pos)).getD y) (4 * n) (ys.foldr (fun v a => v + 2 ^ 32 * a) 0) = .ok u →
      exec .nbmvComplete s = .next { nbAt u id (pos + n) g with ev := s.ev }) ∧
    (pos < nrows → msg = true → acc = false → ∀ (ys : List Nat) (g : Word) (t : State),
      let n := Nat.min (28 - part.length) (nbBlock (row0 + pos) (row0 + nrows))
      let full := part.length + n = 28 ∨ pos + n = nrows
      (full → retryFull s iss.agent = false) → nbProduct s iss m fx sat x (fun _ => 0) n (row0 + pos) = .ok (ys, g, t) →
      (full → exec .nbmvComplete s = .next
        { sendMsg (nbAt t id (pos + n) g) iss.agent (nbMsg s iss y (row0 + pos - part.length) (part ++ ys)) with ev := s.ev }) ∧
      (¬ full → exec .nbmvComplete s = .next { nbAt t id (pos + n) g (part ++ ys) with ev := s.ev })))

/-- R166, R343 to R347, R352: CPY and CPYT with legal operands enter the core's place; a piece that lands moves its bytes and counts them; the last
piece joins the flags, and then the command completes with its future resolved; an engine fault ends it with its future faulted and a record; SYNCADD adds, SYNCWAIT waits for
another generation; CESTAT reads the engine. -/
def Obligations.CopiesMoveAndCount : Prop :=
  (∀ (o : OX5) (s : State), Ready (.cpy o) s → Rule.onCore s → Rule.calm s → placeFull s s.curAgent = false →
    let dst := s.cur.rG o.a
    let src := s.cur.rG o.b
    let n := (s.cur.rG o.c).toNat
    n ≤ 2 ^ 32 → dst.toNat % 4 = 0 → src.toNat % 4 = 0 → n % 4 = 0 → rangesMeet (addrPart dst) (addrPart src) n = false →
    (n = 0 ∨ (ownRangeBad s dst n = false ∧ ownRangeBad s src n = false)) → syncCheck s (s.cur.rG o.e) = none → futCheck s.cur.win (s.cur.rG o.f) = none →
    let u := release s s.curAgent .dev
    exec (.cpy o) s = .next (done (.cpy o)
      (cePut u u.curAgent ⟨issuerOf u, .cpy dst src n (s.cur.rG o.e) (s.cur.rG o.f), 0, 0⟩))) ∧
  (∀ (o : OX5) (s : State) (p q : Path), Ready (.cpyt o) s → Rule.onCore s → localCheck s (curAcc s) .rd [(s.cur.rG o.a, 64, 64), (s.cur.rG o.b, 64, 64)] = none →
    resolve s (curAcc s) (s.cur.rG o.a) 64 64 .rd .any = .ok p → resolve s (curAcc s) (s.cur.rG o.b) 64 64 .rd .any = .ok q →
    pathHold s (curAcc s) p 64 .rd = none → pathHold s (curAcc s) q 64 .rd = none →
    let s1 := taintAcquire s (s.cur.taintG o.a || s.cur.taintG o.b)
    let x := readPath s1 (curAcc s) p 64
    let y := readPath x.2 (curAcc s) q 64
    let v := y.2
    let dt := bitsOf (s.cur.rG o.c) 31 0
    let st := bitsOf (s.cur.rG o.c) 63 32
    let d := Shape.parse x.1
    let r := Shape.parse y.1
    let u := release v v.curAgent .dev
    cpytCheck x.1 y.1 dt st = none → shapeOwnBad v d dt = false → cpytOwnBad v d r dt st = false → syncCheck v (s.cur.rG o.e) = none →
    futCheck v.cur.win (s.cur.rG o.f) = none → placeFull v v.curAgent = false → Rule.calm v →
    exec (.cpyt o) s = .next (done (.cpyt o) (cePut u u.curAgent ⟨issuerOf u, .cpyt d r dt st (s.cur.rG o.e) (s.cur.rG o.f), 0, 0⟩))) ∧
  (∀ (s : State) (k j n pos : Nat) (iss : Issuer) (dst src sync fut a b fl : Word) (v : Nat) (t u : State), s.ev = some (.copyPieceLanded k) →
    (s.clu k).active = some (j, ⟨iss, .cpy dst src n sync fut, pos, fl⟩) → engBlocked s (.copy k) = false → syncBusy s (iss.acc (.copy k)) sync = false →
    pos < n → addAddr src pos = some a → addAddr dst pos = some b →
    let m := Nat.min 256 (n - pos)
    engRead s (iss.acc (.copy k)) a m = .ok (v, t) → engWrite t (iss.acc (.copy k)) b m v = .ok u →
    let w := pieceCounted s (cePos u k (pos + m)) k iss sync m 0
    exec .copyPieceLanded s = .next w) ∧
  (∀ (s : State) (k j dt st pos n b : Nat) (iss : Issuer) (d r : Shape) (sync fut old fl : Word) (t : State), s.ev = some (.copyPieceLanded k) →
    (s.clu k).active = some (j, ⟨iss, .cpyt d r dt st sync fut, pos, old⟩) → engBlocked s (.copy k) = false →
    syncBusy s (iss.acc (.copy k)) sync = false →
    let a := bytesBefore d dt pos
    cpytPiece s (iss.acc (.copy k)) d r dt st 0 (d.count - pos) pos a = (t, fl, n, b, none) →
    let m := if b % 256 = 0 then (if b = a then 0 else 256) else b % 256
    exec .copyPieceLanded s = .next (pieceCounted s (cePos t k n fl) k iss sync m (if n = d.count then old ||| fl else 0))) ∧
  (∀ (s s0 u : State) (k n : Nat) (iss : Issuer) (sync fl : Word), n ≠ 0 → syncAdd s (iss.acc (.copy k)) sync n = .ok u →
    pieceCounted s0 s k iss sync n fl = ceKick (joinFlags u iss fl).took k) ∧
  (∀ (s : State) (k j n pos : Nat) (iss : Issuer) (dst src sync fut fl : Word), s.ev = some (.copyComplete k) →
    (s.clu k).active = some (j, ⟨iss, .cpy dst src n sync fut, pos, fl⟩) → engBlocked s (.copy k) = false → n ≤ pos →
    let w := ceEnd (engFuture (joinFlags s iss 0).took iss (.copy k) fut (some n) 1) k
    exec .copyComplete s = .next w) ∧
  (∀ (s : State) (k j dt st pos : Nat) (iss : Issuer) (d r : Shape) (sync fut fl : Word), s.ev = some (.copyComplete k) →
    (s.clu k).active = some (j, ⟨iss, .cpyt d r dt st sync fut, pos, fl⟩) → engBlocked s (.copy k) = false → d.count ≤ pos →
    let w := ceEnd (engFuture (joinFlags s iss 0).took iss (.copy k) fut (some (bytesBefore d dt d.count)) 1) k
    exec .copyComplete s = .next w) ∧
  (∀ (s : State) (i : Issuer) (e : Engine) (fut : Word) (val : Option Nat) (st ia pa : Nat) (ty : PType) (disc : Bool) (w : Window), fut ≠ 0 →
    findWindow i.win (addrPart fut) = some w → resolveIa s (i.acc e) 0 (w.ia (addrPart fut)) .at .future 16 = .ok (.mem ia pa ty disc) →
    (atomicPath s (i.acc e) (.mem ia pa ty disc) 16 .dev fun _ => none).1 % 4 = 0 →
    engFuture s i e fut val st = Rule.resolvedBy s (i.acc e) (i.who e) (.mem ia pa ty disc) val st) ∧
  (∀ (s : State) (k j n pos : Nat) (iss : Issuer) (dst src sync fut fl : Word) (p : Packet), s.ev = some (.engineFault (.copy k) p) →
    (s.clu k).active = some (j, ⟨iss, .cpy dst src n sync fut, pos, fl⟩) → iss.task = p.task →
    ∃ t : State, exec .engineFault s = .next t ∧
      t = commandRecord (arrayPass (ceEnd ((engFuture s.took iss (.copy k) fut none 2).modClu k id) k) k) iss (.copy k) p ∧ (∀ q, (t.clu k).active = some q → q ∈ (s.clu k).places) ∧
      (∃ m : Msg, Ev.faultPacketArrive m ∈ t.pending ∧ (Packet.ofBits (m.payload.setWidth 512)).code = p.code ∧
        (Packet.ofBits (m.payload.setWidth 512)).noctx = true ∧ (Packet.ofBits (m.payload.setWidth 512)).task = iss.task)) ∧
  (∀ (o : OSyncw) (s : State) (a off : Nat), Ready (.syncwait o) s → syncPath s (curAcc s) (s.cur.rG o.a) .rd = .ok (a, off) →
    s.cur.taintG o.a = false → (s.cur.rG o.b).toNat < 2 ^ 32 → syncBroken s a off = false →
    (Rule.syncWord s a off / 2 ^ 64 % 2 ^ 32 = (s.cur.rG o.b).toNat → exec (.syncwait o) s = .next (waitFor s (.sync a off) (s.cur.rG o.c).toNat)) ∧
    (Rule.syncWord s a off / 2 ^ 64 % 2 ^ 32 ≠ (s.cur.rG o.b).toNat → let t := acquire s s.curAgent o.scope
      exec (.syncwait o) s = .next (t.setCur ((t.cur.wG o.d (BitVec.ofNat 64 (Rule.syncWord s a off / 2 ^ 64 % 2 ^ 32))).past (.syncwait o))))) ∧
  (∀ (o : OSynca) (s : State) (a off : Nat), Ready (.syncadd o) s → syncPath s (curAcc s) (s.cur.rG o.a) .at = .ok (a, off) →
    s.cur.taintG o.a = false → (s.cur.rG o.b).toNat < 2 ^ 32 → Rule.releases s o.scope →
    ∃ t : State, exec (.syncadd o) s = .next t ∧ Rule.onlyG (.syncadd o) s t 0 ∧
      Rule.syncWord t a off = syncAddVal (Rule.syncWord s a off) (s.cur.rG o.b).toNat ∧
      (∀ b, b < off ∨ off + 16 ≤ b → (t.core a).spad.read b = (s.core a).spad.read b)) ∧
  (∀ w n : Nat, w < 2 ^ 128 → n < 2 ^ 32 →
    let target := w % 2 ^ 32
    let count := w / 2 ^ 32 % 2 ^ 32
    let v := syncAddVal w n
    (0 < target → count + n < target → v = w + n * 2 ^ 32) ∧
    (0 < target → target ≤ count + n → v / 2 ^ 32 % 2 ^ 32 = (count + n - target) % 2 ^ 32 ∧ v / 2 ^ 64 % 2 ^ 32 = (w / 2 ^ 64 + 1) % 2 ^ 32 ∧
      v % 2 ^ 32 = target)) ∧
  (∀ (o : ORd) (s : State), Ready (.cestat o) s → Rule.onCore s →
    let c := s.clu (Rule.here s)
    (∀ q, c.active = some q → q.1 < 8) → ∃ v : Nat, exec (.cestat o) s = .next (done (.cestat o) (landG s o.d v)) ∧ v % 2 ^ 32 = ceDone c % 2 ^ 32 ∧
      (v / 2 ^ 39 % 2 = 1 ↔ c.active.isSome = true))

/-- R185 to R187, R348 to R352: GATHER with legal operands joins its slice's engine, and a batch that lands reads its rows and writes them; TWRUN
starts a pipeline with a credit for each buffer, TWSTOP breaks it, TWSTAT reads it; a tile is loaded into every cluster of its rectangle, and a
stored buffer gives its credit back. -/
def Obligations.GathersAndTileWalksRun : Prop :=
  (∀ (o : OX5) (s : State) (rb : Nat), Ready (.gather o) s → Rule.onCore s → Rule.calm s →
    let d := agentDie s.curAgent
    let sl := Rule.here s % 64
    let n := bitsOf (s.cur.rG o.e) 15 0
    gatherCheck s (s.cur.rG o.a) (s.cur.rG o.b) (s.cur.rG o.c) (s.cur.rG o.e) = .ok rb → syncCheck s (s.cur.rG o.f) = none →
    ((s.die d).gathers.filter fun q => q.1 == sl).length < 8 →
    let u := release s s.curAgent .dev
    (n = 0 → exec (.gather o) s = .next (done (.gather o) u)) ∧
      (n ≠ 0 → exec (.gather o) s = .next (done (.gather o) ((u.modDie d fun x => { x with gathers := x.gathers ++
        [(sl, ⟨issuerOf u, s.cur.rG o.a, s.cur.rG o.b, s.cur.rG o.c, n, rb, s.cur.rG o.f, 0⟩)] }).pendOnce (.gatherBatchLanded d sl))))) ∧
  (∀ (s : State) (d sl : Nat) (g : GatherCmd) (ia : Word) (list : Nat) (t u v w : State) (rows : List (Nat × Nat)), s.ev = some (.gatherBatchLanded d sl) →
    gatherHead s d sl = some g → engBlocked s (.gather d sl) = false → syncBusy s (g.iss.acc (.gather d sl)) g.sync = false →
    let x := g.iss.acc (.gather d sl)
    let m := Nat.min 64 (g.n - g.pos)
    addAddr g.idx (8 * g.pos) = some ia → engRead s x ia (8 * m) = .ok (list, t) →
    let es := (List.range m).map fun j => list / 2 ^ (64 * j) % 2 ^ 64
    gatherRows t x g es [] = .ok (rows, u) →
    engWriteAll u x ((List.range m).map fun (j : Nat) => ((addAddr g.dst (Int.ofNat ((g.pos + j) * g.rb))).getD g.dst, g.rb,
      ((rows.find? fun q => q.1 == es.getD j 0).map fun q => q.2).getD 0)) = .ok v →
    syncAdd v x g.sync (m * g.rb) = .ok w →
    exec .gatherBatchLanded s = .next (gatherKick (gatherSet w.took d sl fun g => if g.pos + m < g.n then some { g with pos := g.pos + m } else none) d sl)) ∧
  (∀ (s : State), Ready .twstop s → Rule.onCore s →
    let k := Rule.here s
    let t := (s.clu k).tw
    (t.run = false → exec .twstop s = .next (done .twstop s)) ∧
    (t.run = true → t.lastKid ≠ s.cur.kid → exec .twstop s = .next (faultCur .twstop s { code := 0x07 })) ∧
    (t.run = true → t.lastKid = s.cur.kid → exec .twstop s = .next (done .twstop (breakPipe s k)))) ∧
  (∀ (o : OXAC) (s : State) (p q : Path), Ready (.twrun o) s → Rule.onCore s → s.cur.taintG o.a = false →
    localCheck s (curAcc s) .rd [(s.cur.rG o.a, 64, 64)] = none → resolve s (curAcc s) (s.cur.rG o.a) 64 64 .rd .any = .ok p → pathHold s (curAcc s) p 64 .rd = none →
    let r := readPath s (curAcc s) p 64
    let d := TwDesc.parse r.1
    let v := r.2
    let k := Rule.here s
    twBad r.1 = false → d.st = 0 → localCheck v (curAcc v) .rd [(d.ld, 64, 64)] = none → resolve v (curAcc v) d.ld 64 64 .rd .any = .ok q →
    pathHold v (curAcc v) q 64 .rd = none →
    let l := readPath v (curAcc v) q 64
    let w := l.2
    let ld := Shape.parse l.1
    twShapeBad l.1 d.tbytes = false → d.tiles ≤ ld.tiles → twPlaceBad w (rectClusters (cluDie k) d.rect) d s.cur.kid = none →
    twOwnBad w ld d.tiles = false → futCheck s.cur.win d.fut = none → (w.clu k).tw.run = false → Rule.calm w →
    let u := release w w.curAgent .dev
    exec (.twrun o) s = .next (done (.twrun o) (twStart u k d ld none)) ∧ (((twStart u k d ld none).clu k).tw.run = true ∧
      ((twStart u k d ld none).clu k).tw.credits.length = d.rect.2.2.1 * d.rect.2.2.2 * d.nbuf)) ∧
  (∀ (o : ORd) (s : State), Ready (.twstat o) s → Rule.onCore s →
    let t := (s.clu (Rule.here s)).tw
    exec (.twstat o) s = .next (done (.twstat o) (landG s o.d ((if t.run then 2 ^ 63 else 0) + (if t.broken then 2 ^ 62 else 0) +
      (if t.st.isSome then 2 ^ 61 else 0) + t.lastKid.toNat * 2 ^ 32 + t.loaded % 2 ^ 32)))) ∧
  (∀ (s : State) (k : Nat) (iss : Issuer) (sh : Shape) (l : List (Nat × Nat × Nat)) (u : State),
    let w := (s.clu k).tw
    let ks := rectClusters (cluDie k) w.rect
    let t := w.loaded
    let b := t % w.nbuf
    s.ev = some (.tileLoad k) → w.run = true → t < w.tiles → w.iss = some iss → w.ld = some sh → engBlocked s (.tileWalk k) = false →
    (∀ j ∈ ks, tileFault s w j b = none ∧ tileWaits s w j b = false) → tileRead s (iss.acc (.tileWalk k)) sh t sh.count 0 = .ok (l, u) →
    let v := (ks.foldl (fun (s : State) j => tileLand s w j t l) u.took).modClu k fun c => { c with
      tw := { c.tw with loaded := t + 1, credits := c.tw.credits.filter fun q => q.2 != b } }
    exec .tileLoad s = .next (if t + 1 < w.tiles then v.pendOnce (.tileLoad k) else v)) ∧
  (∀ (s : State) (k j b n : Nat) (rest : List (Nat × Nat × Nat)) (iss : Issuer) (sh : Shape) (t : State),
    let w := (s.clu k).tw
    let a := 8 * j + w.bcore
    let z := Shape.size sh.fmt
    let elems := (List.range sh.count).filter fun m => !sh.clipped n (sh.index m)
    s.ev = some (.storePermitAck k) → w.stores = (j, b, n) :: rest → w.iss = some iss → w.st = some sh → engBlocked s (.tileWalk k) = false →
    (s.core a).rangeLive (w.bufoff + b * w.tbytes) w.tbytes false = true →
    (∀ i, i ≤ w.tbytes / 64 → s.spPoison.contains (a, (w.bufoff + b * w.tbytes) / 64 + i) = false) → (∀ m ∈ elems, (sh.addr n (sh.index m)).isSome = true) →
    engWriteAll s (iss.acc (.tileWalk k)) (elems.map fun m => ((sh.addr n (sh.index m)).getD 0, z, (s.core a).spad.readNat (w.bufoff + b * w.tbytes + m * z) z))
      = .ok t →
    let u := t.took.modClu k fun c => { c with tw := { c.tw with stores := rest, stored := w.stored + 1 } }
    let v := creditBack (if rest.isEmpty then u else u.pendOnce (.storePermitAck k)) k j b
    exec .storePermitAck s = .next v)

/-- R56 to R74, R354 to R365: GVAR and GFAC make an object from a form or answer that the directory is full; GLINK asks for a bind, which answers a
reason or binds; GFMSG writes what its build gives; an arrival fills its slot and sums the belief; GDAMP, GTOL, GRELIN and GCVG write their field;
GREAD reads mean and covariance; GSNAP freezes in one step, then copies every record and thaws in the next (DEDUCED, log 42); GFREE and unbinds empty
what they name, an unbind once no freeze holds it. An operation here finds no earlier one of its core under way (R355). -/
def Obligations.GraphObjectsAreMadeAndUpdated : Prop :=
  (∀ (o : OX6) (s : State) (off : Nat), Ready (.gvar o) s → gmuBusy s s.curAgent = false → Rule.onCore s →
    let a := s.curAgent
    let b := s.cur.rG o.b
    let src := (s.cur.rG o.c).toNat % 2 ^ 48
    let cvg := s.cur.rG o.f
    let d := bitsOf b 39 32
    let k := bitsOf b 47 40
    let tau := bitsOf (s.cur.rG o.e) 31 0
    let ext := varExtent d k
    let r := recOf a cvg.toNat
    (s.cur.rG o.a).toNat % 2 ^ 56 = 0xF0 * 2 ^ 48 + off → off % 64 = 0 → off + ext ≤ s.cur.claim * 16384 → off < 2 ^ 48 →
    Rule.formAt s (s.cur.rG o.c) (4 * packedLen d) → cvg.toNat % 32 = 0 → recBad s cvg = false → bitsOf b 63 48 = 0 → bitsOf (s.cur.rG o.e) 63 32 = 0 →
    bitsOf b 31 0 ≠ 0xFFFFFFFF → 1 ≤ d → d ≤ 6 → 1 ≤ k → k ≤ 16 → tauBad tau = false → objOverlap s a off ext = false → gmuHeld s = false →
    objPoison s a src (4 * packedLen d) = false →
    (1024 ≤ (Rule.vars s).length → exec (.gvar o) s = .next (s.setCur (wroteG (.gvar o) s.cur o.d 1 0))) ∧
    ((Rule.vars s).length < 1024 → Rule.gmuFree s [(a, off, ext), (r.1, r.2, 32)] → ∃ t : State, exec (.gvar o) s = .next t ∧ Rule.onlyG (.gvar o) s t o.d ∧
      (o.d ≠ 0 → t.cur.rG o.d = 0) ∧ (⟨off, ext, s.cur.kid, 0, []⟩ : GObj) ∈ (t.core a).gmu.vars ∧
      (Rule.apart r a off ext → spRead t a off 4 = bitsOf b 31 0 ∧ spRead t a (off + 4) 1 = d ∧ spRead t a (off + 5) 1 = k ∧
        spRead t a (off + 8) 4 = tau ∧ spRead t a (off + 0xC) 4 = 0x7F800000 ∧ Rule.form t a (off + 0x40) d = Rule.form s a src d ∧
        Rule.form t a (off + 0x40 + beliefBytes d) d = Rule.form s a src d ∧
        (∀ j, j < k → slotFid t a off j = 0xFFFFFFFF ∧ spRead t a (off + slotOff d j + 4) (slotBytes d - 4) = 0) ∧
        spRead t r.1 r.2 4 = (spRead s r.1 r.2 4 + 1) % 2 ^ 32))) ∧
  (∀ (o : OX6) (s : State) (off : Nat), Ready (.gfac o) s → gmuBusy s s.curAgent = false → Rule.onCore s →
    let a := s.curAgent
    let b := s.cur.rG o.b
    let g := s.cur.rG o.c
    let src := (s.cur.rG o.e).toNat % 2 ^ 48
    let cvg := s.cur.rG o.f
    let arity := bitsOf g 39 32
    let dim (j : Nat) : Nat := g.toNat / 2 ^ (8 * j) % 256
    let dims := (List.range arity).map dim
    let dj := facDim dims
    let ext := facExtent dims
    (s.cur.rG o.a).toNat % 2 ^ 56 = 0xF0 * 2 ^ 48 + off → off % 64 = 0 → off + ext ≤ s.cur.claim * 16384 → off < 2 ^ 48 →
    Rule.formAt s (s.cur.rG o.e) (4 * packedLen dj) → cvg.toNat % 32 = 0 → recBad s cvg = false → bitsOf g 63 40 = 0 → bitsOf b 31 0 ≠ 0xFFFFFFFF →
    betaBad (bitsOf b 63 32) = false → 1 ≤ arity → arity ≤ 4 → (∀ j, j < arity → 1 ≤ dim j ∧ dim j ≤ 6) → (∀ j, arity ≤ j → j < 4 → dim j = 0) →
    dj ≤ 12 → objOverlap s a off ext = false → objPoison s a src (4 * packedLen dj) = false →
    (1024 ≤ (Rule.facs s).length → exec (.gfac o) s = .next (s.setCur (wroteG (.gfac o) s.cur o.d 1 0))) ∧
    ((Rule.facs s).length < 1024 → portBusy s a off ext = false → ∃ t : State, exec (.gfac o) s = .next t ∧ Rule.onlyG (.gfac o) s t o.d ∧
      (o.d ≠ 0 → t.cur.rG o.d = 0) ∧ (⟨off, ext, s.cur.kid, 0, []⟩ : GObj) ∈ (t.core a).gmu.facs ∧ spRead t a off 4 = bitsOf b 31 0 ∧
      spRead t a (off + 4) 1 = arity ∧ spRead t a (off + 5) 1 = dj ∧ spRead t a (off + 8) 4 = bitsOf b 63 32 ∧ spRead t a (off + 0x10) 8 = cvg.toNat ∧
      facDims t a off = dims ∧ Rule.form t a (off + 0x40) dj = Rule.form s a src dj ∧
      spRead t a (off + 0x40 + 4 * packedLen dj) (ext - 0x40 - 4 * packedLen dj) = 0)) ∧
  (∀ (o : OXDABC) (s : State) (g : GObj), Ready (.glink o) s → gmuBusy s s.curAgent = false → Rule.object s (s.cur.rG o.a) g → Rule.factor s s.curAgent g →
    let b := s.cur.rG o.b
    let v := s.cur.rG o.c
    let j := bitsOf b 1 0
    bitsOf b 63 9 = 0 → j < spRead s s.curAgent (g.off + 4) 1 → g.links.getLsbD j = false → bitsOf v 15 11 = 0 →
    (s.cur.priv = true ∨ (3 < bitsOf v 23 16 ∧ bitsOf v 23 16 ≠ 7)) → objPoison s s.curAgent g.off 64 = false →
    ∃ r : BindReq, exec (.glink o) s = .next ((waitFor s .done).pend (.gmuBind r)) ∧ r.agent = s.curAgent ∧ r.task = s.cur.task ∧ r.fac = g.off ∧ r.j = j ∧
      r.core = bitsOf v 10 0 ∧ r.offs = bitsOf v 63 32 ∧ r.slot = bitsOf v 31 24 ∧ r.ch = bitsOf v 23 16 ∧ r.kid = s.cur.kid ∧ r.d = o.d ∧
      r.dim = spRead s s.curAgent (g.off + 0x18 + j) 1 ∧ r.fid = BitVec.ofNat 32 (spRead s s.curAgent g.off 4) ∧ r.nen = b.getLsbD 2) ∧
  (∀ (s : State) (r : BindReq) (a k : Nat), s.ev = some (.gmuBind r) → s.findTask r.task = some (a, k) → gmuRuns s r.core = true →
    busyPort s [(r.core, r.offs + slotOff r.dim r.slot, 4), (r.agent, r.fac + lastOff (facDims s r.agent r.fac) r.j, 4 * packedLen r.dim)] = none →
    (∀ n, bindReason s r = some n → exec .gmuBind s = .next (bindResult s.took r (2 ^ 63 + n))) ∧
    (findVar s r.core r.offs = none → bindReason s r = some 3) ∧
    (∀ g, Rule.variable_ s r.core g r.dim (spRead s r.core (r.offs + 5) 1) → g.off = r.offs → g.kid = r.kid → r.slot < spRead s r.core (r.offs + 5) 1 →
      r.ch ≤ 63 → Handler.valid (vget (s.core r.core).handlers r.ch 0) = true → Handler.gmu (vget (s.core r.core).handlers r.ch 0) = true →
      (slotFid s r.core r.offs r.slot ≠ 0xFFFFFFFF → bindReason s r = some 7) ∧
      (slotFid s r.core r.offs r.slot = 0xFFFFFFFF → bindReason s r = none ∧
        ∀ e, freeSub s r.agent = some e → pubCheck s r.agent r.kid r.core (r.offs + 0x40) (beliefBytes r.dim) = none →
          ∃ (t : State) (u : SubUpdate), exec .gmuBind s = .next t ∧ t.ev = none ∧ Ev.subscriptionUpdateApply u ∈ t.pending ∧ u.full = true ∧
            u.pub = r.core ∧ u.sub = r.agent ∧ (t.ctx a k).wait = some ⟨.bind e (some (r.fac, r.j,
              BitVec.ofNat 64 (r.core + r.ch * 2 ^ 16 + r.slot * 2 ^ 24 + r.offs * 2 ^ 32))) r.d r.taint r.bytes, 0, s.now⟩))) ∧
  (∀ (o : OXDAB) (s : State) (g : GObj), Ready (.gfmsg o) s → gmuBusy s s.curAgent = false → Rule.object s (s.cur.rG o.a) g → Rule.factor s s.curAgent g →
    let a := s.curAgent
    let k := (s.cur.rG o.b).toNat
    let arity := spRead s a (g.off + 4) 1
    k < arity → (∀ j, j < arity → g.links.getLsbD j = true) → buildPoison s a g.off k = false →
    Rule.gmuFree s [(a, g.off, g.ext), ((Rule.recordOf s a g).1, (Rule.recordOf s a g).2, 32)] → Rule.apart (Rule.recordOf s a g) a g.off g.ext →
    (∀ (st p val : Nat) (fl : Word), buildMsg s a g.off k = .error (st, p, val, fl) → ∃ t : State, exec (.gfmsg o) s = .next t ∧
      (o.d ≠ 0 → t.cur.rG o.d = BitVec.ofNat 64 st) ∧ t.cur.flags = s.cur.flags ||| fl ∧ (∀ r, r ≠ o.d → t.cur.rG r = s.cur.rG r) ∧
      t.cur.pc = s.cur.pc + BitVec.ofNat 64 (Instr.bytes (.gfmsg o)) ∧ spRead t a (g.off + 6) 2 % 2 = 1) ∧
    (∀ (out : List Nat) (fl : Word), buildMsg s a g.off k = .ok (out, fl) →
      let v := spRead s a (g.off + 0x20 + 8 * k) 8
      ∃ (t : State) (e : RetryEntry), exec (.gfmsg o) s = .next t ∧ (o.d ≠ 0 → t.cur.rG o.d = 0) ∧ t.cur.flags = s.cur.flags ||| fl ∧
        (∀ r, r ≠ o.d → t.cur.rG r = s.cur.rG r) ∧ t.cur.pc = s.cur.pc + BitVec.ofNat 64 (Instr.bytes (.gfmsg o)) ∧ e ∈ (t.core a).retry ∧
        e.msg.kind = .graph ∧ e.msg.dst = v % 2048 ∧ e.msg.ch = BitVec.ofNat 6 (v / 2 ^ 16) ∧ e.msg.payload.extractLsb' 0 32 = BitVec.ofNat 32 (v / 2 ^ 32) ∧
        e.msg.payload.extractLsb' 32 8 = BitVec.ofNat 8 (v / 2 ^ 24) ∧ e.msg.payload.extractLsb' 40 8 = BitVec.ofNat 8 ((facDims s a g.off).getD k 0) ∧
        e.msg.payload.extractLsb' 64 32 = BitVec.ofNat 32 (spRead s a g.off 4) ∧
        (∀ j, j < packedLen ((facDims s a g.off).getD k 0) → e.msg.payload.extractLsb' (96 + 32 * j) 32 = BitVec.ofNat 32 (out.getD j 0)) ∧
        Rule.form t a (g.off + lastOff (facDims s a g.off) k) ((facDims s a g.off).getD k 0) = out ∧ spRead t a (g.off + 6) 2 % 2 = 0)) ∧
  (∀ (s : State) (a d k : Nat) (m : Msg) (rest : List Msg) (v : GObj), s.ev = some (.gmuArrive a) → (s.core a).gmu.inq = m :: rest →
    gmuRuns s a = true → (s.core a).refq = [] →
    let off := bitsOf m.payload 31 0
    let slot := bitsOf m.payload 39 32
    ((s.core a).gmu.frozen = true → arrivalCheck s a m = .ok v → ∃ t : State, exec .gmuArrive s = .next t ∧ t.ev = none ∧ (t.core a).gmu.inq = rest ∧
      (t.core a).gmu.pend = (s.core a).gmu.pend ++ [m] ∧ (t.core a).spad = (s.core a).spad) ∧
    ((s.core a).gmu.frozen = false → arrivalCheck s a m = .ok v → Rule.variable_ s a v d k → arrivalPoison s a m = false →
      Rule.gmuFree s (arrivalPorts s a m) → Rule.apart (senderRec m) a v.off v.ext →
      Rule.apart (Rule.recordOf s a v) a v.off v.ext → ∃ t : State, exec .gmuArrive s = .next t ∧ t.ev = none ∧ (t.core a).gmu.inq = rest ∧
        (∀ j, j < packedLen d → (Rule.form t a (off + slotOff d slot + 8) d).getD j 0 = (m.payload.extractLsb' (96 + 32 * j) 32).toNat) ∧
        spRead t a (off + 0x18) 4 = (spRead s a (off + 0x18) 4 + 1) % 2 ^ 32 ∧
        spRead t a (off + slotOff d slot + 4) 4 = (spRead s a (off + 0x18) 4 + 1) % 2 ^ 32 ∧
        Rule.form t a (off + 0x40) d = (List.range k).foldl (fun l j => (addForms l (Rule.form t a (off + slotOff d j + 8) d)).1)
          (Rule.form s a (off + 0x40 + beliefBytes d) d)) ∧
    (∀ n, arrivalCheck s a m = .error n → Rule.gmuFree s [((senderRec m).1, (senderRec m).2, 32)] → ∃ t : State, exec .gmuArrive s = .next t ∧ t.ev = none ∧ (t.core a).gmu.inq = rest ∧
      (t.core a).gmu.vars = (s.core a).gmu.vars ∧
      spRead t (senderRec m).1 ((senderRec m).2 + 4) 4 = (spRead s (senderRec m).1 ((senderRec m).2 + 4) 4 + 2 ^ 32 - 1) % 2 ^ 32)) ∧
  (∀ (o : OXAB) (s : State) (g : GObj), Ready (.gdamp o) s → gmuBusy s s.curAgent = false → Rule.object s (s.cur.rG o.a) g → findFac s s.curAgent g.off = some g →
    bitsOf (s.cur.rG o.b) 63 32 = 0 → betaBad (bitsOf (s.cur.rG o.b) 31 0) = false → portBusy s s.curAgent (g.off + 8) 4 = false →
    exec (.gdamp o) s = .next (done (.gdamp o) (spWrite s s.curAgent (g.off + 8) 4 (bitsOf (s.cur.rG o.b) 31 0)))) ∧
  (∀ (o : OXAB) (s : State) (g : GObj), Ready (.gtol o) s → gmuBusy s s.curAgent = false → Rule.object s (s.cur.rG o.a) g → findVar s s.curAgent g.off = some g → 64 ≤ g.ext →
    let a := s.curAgent
    let tau := bitsOf (s.cur.rG o.b) 31 0
    bitsOf (s.cur.rG o.b) 63 32 = 0 → tauBad tau = false → gmuHeld s = false → objPoison s a g.off 64 = false →
    Rule.gmuFree s [(a, g.off, 64), ((Rule.recordOf s a g).1, (Rule.recordOf s a g).2, 32)] →
    Rule.apart (Rule.recordOf s a g) a g.off g.ext → ∃ t : State, exec (.gtol o) s = .next t ∧ Rule.onlyG (.gtol o) s t 0 ∧
      spRead t a (g.off + 8) 4 = tau ∧ (spRead t a (g.off + 6) 2 % 2 = 1 ↔
        Rule.isNaN ffF32 (spRead s a (g.off + 0xC) 4) = false ∧ Rule.fless ffF32 tau (spRead s a (g.off + 0xC) 4) = false)) ∧
  (∀ (o : OXAB) (s : State) (g : GObj), Ready (.grelin o) s → gmuBusy s s.curAgent = false → Rule.object s (s.cur.rG o.a) g → findFac s s.curAgent g.off = some g →
    let a := s.curAgent
    let D := facDim (facDims s a g.off)
    Rule.formAt s (s.cur.rG o.b) (4 * packedLen D) → portBusy s a g.off g.ext = false → objPoison s a g.off 64 = false →
    objPoison s a ((s.cur.rG o.b).toNat % 2 ^ 48) (4 * packedLen D) = false → ∃ t : State, exec (.grelin o) s = .next t ∧
      Rule.onlyG (.grelin o) s t 0 ∧ Rule.form t a (g.off + 0x40) D = Rule.form s a ((s.cur.rG o.b).toNat % 2 ^ 48) D ∧
      spRead t a (g.off + 0xC) 4 = (spRead s a (g.off + 0xC) 4 + 1) % 2 ^ 32 ∧
      (∀ b, b < g.off + 0xC ∨ g.off + 0x40 + 4 * packedLen D ≤ b → (t.core a).spad.read b = (s.core a).spad.read b)) ∧
  (∀ (o : OXDA) (s : State), Ready (.gcvg o) s → gmuBusy s s.curAgent = false → Rule.onCore s → (s.cur.rG o.a).toNat % 32 = 0 → recBad s (s.cur.rG o.a) = false →
    let r := recOf s.curAgent (s.cur.rG o.a).toNat
    let q := spRead s r.1 (r.2 + 0x18) 4
    objPoison s r.1 r.2 32 = false → Rule.gmuFree s [(r.1, r.2, 32)] → ∃ t : State, exec (.gcvg o) s = .next t ∧ Rule.onlyG (.gcvg o) s t o.d ∧
      (spRead s r.1 r.2 8 = 0 → spRead t r.1 (r.2 + 0x14) 4 % 4 = 2 ∧ spRead t r.1 (r.2 + 0x18) 4 = (q + 1) % 2 ^ 32 ∧
        (o.d ≠ 0 → t.cur.rG o.d = BitVec.ofNat 64 ((q + 1) % 2 ^ 32))) ∧
      (spRead s r.1 r.2 8 ≠ 0 → spRead t r.1 (r.2 + 0x14) 4 % 4 = 1 ∧ spRead t r.1 (r.2 + 0x18) 4 = q ∧
        (o.d ≠ 0 → t.cur.rG o.d = BitVec.ofNat 64 q))) ∧
  (∀ (o : OXDAB) (s : State) (g : GObj) (d k : Nat) (mu : List Nat) (cov : Nat → Nat → Nat) (fl : Word) (ok : Bool), Ready (.gread o) s → gmuBusy s s.curAgent = false →
    Rule.object s (s.cur.rG o.a) g → Rule.variable_ s s.curAgent g d k → objPoison s s.curAgent g.off 64 = false →
    objPoison s s.curAgent (g.off + 0x40) (4 * packedLen d) = false → beliefRead d (Rule.form s s.curAgent (g.off + 0x40) d) = (mu, cov, fl, ok) →
    let gen := spRead s s.curAgent (g.off + 0x18) 4
    let st := (if ok then 0 else 1) + d * 256
    let t := srcTaint (.gread o) s.cur
    let out := mu ++ (List.range d).flatMap fun x => (List.range (d - x)).map fun y => cov x (x + y)
    (s.cur.rG o.b = 0 → ∃ v : Line, exec (.gread o) s = .next (done (.gread o) (land s true o.d v fl t)) ∧
      (∀ j, j < d → Rule.lane v j = BitVec.ofNat 32 (mu.getD j 0) ∧ Rule.lane v (8 + j) = BitVec.ofNat 32 (cov j j)) ∧
      Rule.lane v 14 = BitVec.ofNat 32 gen ∧ Rule.lane v 15 = BitVec.ofNat 32 st) ∧
    (s.cur.rG o.b = 1 → o.d ≠ 31 → s.cur.openName true (o.d + 1) = true → s.cur.fullV (o.d + 1) = true →
      ∃ v w : Line, exec (.gread o) s = .next (done (.gread o) (land (land s true o.d v fl t) true (o.d + 1) w 0 t)) ∧
        (∀ j, j < 16 → Rule.lane v j = BitVec.ofNat 32 (out.getD j 0)) ∧ (∀ j, j < 14 → Rule.lane w j = BitVec.ofNat 32 (out.getD (16 + j) 0)) ∧
        Rule.lane w 14 = BitVec.ofNat 32 gen ∧ Rule.lane w 15 = BitVec.ofNat 32 st)) ∧
  (∀ eta lam : Nat, f32Bad lam = false → (beliefRead 1 [eta, lam]).1 = [(divF32 eta lam).1] ∧ (beliefRead 1 [eta, lam]).2.2.2 = true) ∧
  (∀ (d : Nat) (l : List Nat), f32Bad (l.getD d 0) = true → 1 ≤ d → beliefRead d l = (List.replicate d ffF32.nanBits, (beliefRead d l).2.1,
    (beliefRead d l).2.2.1, false)) ∧
  (∀ (o : OXDABC) (s : State) (q : SnapReq), Ready (.gsnap o) s → gmuBusy s s.curAgent = false →
    let g := s.cur.rG o.a
    let dst := s.cur.rG o.b
    let d := agentDie s.curAgent
    bitsOf g 63 32 = 0 → rectBad (bitsOf g 7 0) (bitsOf g 15 8) (bitsOf g 23 16) (bitsOf g 31 24) = false → dst.toNat % 16 = 0 →
    (s.die d).snaps.head? = some q → q.task = s.cur.task → q.failed = false →
    busyPort s (flagPorts s d q.rect) = none →
    (q.frozen = false → ∃ t : State, exec (.gsnap o) s = .next t ∧ t.cur.pc = s.cur.pc ∧ (∃ w, t.cur.wait = some w ∧ w.what = .retry) ∧
      (∀ a ∈ rectCores d q.rect, (t.core a).gmu.frozen = true)) ∧
    (q.frozen = true → (∀ w ∈ s.engWaits, w.agent ≠ 7 ∨ w.task ≠ s.cur.task) → ∀ (u : State) (r b : Nat) (tr : Bool),
      snapWrite s ((issuerOf s).acc (.gmu 0)) dst (s.cur.rG o.c).toNat ((snapRecords s d q.rect s.cur.kid).drop q.recs) q.recs q.bytes = (u, r, b, tr, none) →
      exec (.gsnap o) s = .next (snapDone (.gsnap o) u d o.d tr false b))) ∧
  (∀ (o : OXA) (s : State) (g : GObj), Ready (.gfree o) s → gmuBusy s s.curAgent = false → Rule.object s (s.cur.rG o.a) g → gmuHeld s = false →
    objPoison s s.curAgent g.off 64 = false →
    (findVar s s.curAgent g.off = some g → Rule.gmuFree s [(s.curAgent, g.off + 6, 2), ((Rule.recordOf s s.curAgent g).1, (Rule.recordOf s s.curAgent g).2, 32)] → ∃ t : State, exec (.gfree o) s = .next t ∧
      Rule.onlyG (.gfree o) s t 0 ∧ (t.core s.curAgent).gmu.vars = (Rule.vars s).filter (fun h => h.off != g.off) ∧
      (t.core s.curAgent).gmu.facs = Rule.facs s) ∧
    (findVar s s.curAgent g.off = none → findFac s s.curAgent g.off = some g →
      (g.links = 0 → ∃ t : State, exec (.gfree o) s = .next t ∧ Rule.onlyG (.gfree o) s t 0 ∧
        (t.core s.curAgent).gmu.facs = (Rule.facs s).filter fun h => h.off != g.off) ∧
      (g.links ≠ 0 → ∃ (t : State) (n : Nat) (w : Wait), exec (.gfree o) s = .next t ∧ t.cur.pc = s.cur.pc ∧ t.cur.wait = some w ∧
        w.what = .unbinds n (Instr.bytes (.gfree o)) ∧ n = ((List.range 4).filter fun j => g.links.getLsbD j).length ∧
        (∀ j, j < 4 → g.links.getLsbD j = true → let v := spRead s s.curAgent (g.off + 0x20 + 8 * j) 8
          Ev.gmuUnbind ⟨s.cur.task, v % 2048, v / 2 ^ 32, v / 2 ^ 24 % 256, BitVec.ofNat 32 (spRead s s.curAgent g.off 4), none⟩ ∈ t.pending)))) ∧
  (∀ (s : State) (r : UnbindReq), s.ev = some (.gmuUnbind r) → gmuRuns s r.core = true →
    let since := r.since.getD s.now
    (unbindHeld s r.core since = true → exec .gmuUnbind s = .next { s with ev := some (.gmuUnbind { r with since := some since }) }) ∧
    (unbindHeld s r.core since = false → findVar s r.core r.offs = none → exec .gmuUnbind s = .next (unbindAck s.took r.task 0)) ∧
    (∀ (v : GObj) (d k : Nat), unbindHeld s r.core since = false → Rule.variable_ s r.core v d k → v.off = r.offs → r.slot < k → slotFid s r.core r.offs r.slot = r.fid.toNat →
      Rule.gmuFree s [(r.core, r.offs + slotOff d r.slot, 8 + 4 * packedLen d), (r.core, r.offs, 64), (r.core, r.offs + 0x40, beliefBytes d),
        ((Rule.recordOf s r.core v).1, (Rule.recordOf s r.core v).2, 32)] →
      Rule.apart (Rule.recordOf s r.core v) r.core v.off v.ext →
      ∃ t : State, exec .gmuUnbind s = .next t ∧ t.ev = none ∧ slotFid t r.core r.offs r.slot = 0xFFFFFFFF ∧
        spRead t r.core (r.offs + slotOff d r.slot + 8) (4 * packedLen d) = 0))

/-- R196, R214, R215, R222, R223, R369 to R371, R375, R379: RESUME continues the bound task at the given PC and KILLT ends it, and both end the handler;
a killed context is FREE with its posted receives gone and no engine command of its task left, but for a multiplication that its array ends; KILLK ends
a kernel's tasks so, and on each core its records, messages, receives, entries and objects, and everywhere its bindings, collectives and completions;
DWRD and DWWR reach the bound context; TRAP sends its packet; halt groups stop and release their members. The model's readings (DEDUCED, log 18): an
ending instruction acts at its issue and its handler then waits to end, a LIVE bound context answers status 1, and the memory form of the debug window
is the ridge core's own access but for a PRV page. -/
def Obligations.RecoveryEndsOrResumesTasks : Prop :=
  (∀ (o : OXA) (s : State) (t : BitVec 32), Ready (.resume o) s → s.cur.bound = some t → (s.cur.rG o.a).toNat % 4 = 0 → s.cur.ending = false →
    Rule.calm s → Rule.ends (.resume o) s (resumeTask (Rule.both s) t (s.cur.rG o.a &&& 0x00FFFFFFFFFFFFFF#64))) ∧
  (∀ (s : State) (t : BitVec 32) (pc : Word) (a k : Nat), s.findTask t = some (a, k) → (s.ctx a k).st = .frozen →
    let u := resumeTask s t pc
    (u.ctx a k).st = .live ∧ (u.ctx a k).pc = pc ∧ (u.ctx a k).g = (s.ctx a k).g ∧ (u.ctx a k).v = (s.ctx a k).v ∧
      (u.ctx a k).flags = (s.ctx a k).flags ∧ u.hbm = s.hbm ∧ ∀ b j, (b ≠ a ∨ j ≠ k) → u.ctx b j = s.ctx b j) ∧
  (∀ (s : State) (t : BitVec 32), Ready .killt s → s.cur.bound = some t → s.cur.ending = false → Rule.calm s →
    Rule.ends .killt s (killBound (Rule.both s) t)) ∧
  (∀ (s : State) (t : BitVec 32) (a k : Nat), s.findTask t = some (a, k) →
    killTask s t = killCtx s a k ∧ ((s.ctx a k).st = .frozen → killBound s t = killCtx s a k) ∧ ((s.ctx a k).st = .live → killBound s t = s)) ∧
  (∀ (s : State) (a k : Nat), k < 8 → a < 2080 → (s.core a).refq = [] → (s.ctx a k).parent = none → (s.ctx a k).launch = none →
    let t := killCtx s a k
    (t.ctx a k).st = .free ∧ (t.ctx a k).claim = 0 ∧ (t.ctx a k).wait = none ∧ (∀ p ∈ (t.core a).posted, p.ctx ≠ k) ∧ Ev.taskStart a ∈ t.pending) ∧
  (∀ (s : State) (p : BitVec 32 → BitVec 16 → Bool), let t := stopCommands s p
    (∀ c, (∀ e ∈ (t.clu c).cmds, p e.iss.task e.iss.kid = true → Rule.isMul e.cmd = true) ∧
      (∀ q ∈ (t.clu c).places, p q.2.iss.task q.2.iss.kid = false) ∧ (∀ q, (t.clu c).active = some q → p q.2.iss.task q.2.iss.kid = false)) ∧
    (∀ e ∈ t.nbCmds, p e.iss.task e.iss.kid = false) ∧ (∀ w ∈ t.engWaits, p w.task w.kid = false) ∧
    (∀ d, ∀ q ∈ (t.die d).gathers, p q.2.iss.task q.2.iss.kid = false)) ∧
  (∀ (s : State) (a k : Nat), ∃ u, killCtx s a k = endCtx (stopCommands u fun t _ => t == (s.ctx a k).task) a k none true ∧ u = release s a .dev) ∧
  (∀ (s : State) (kid : BitVec 16), let u := Rule.killedTasks s kid
    killKernel s kid = killBindings (u.cores.foldl (fun (s : State) (q : Nat × Core) => killCore s q.1 kid) u) kid ∧
    (∀ m, Ev.messageArrive m ∈ u.pending → m.kid = kid → m.kind ≠ .system → m.kind ≠ .graph → m.srcDev = u.devno → srcAgent m = hostAgent) ∧
    (∀ m, Ev.collArrive m ∈ u.pending → m.kid ≠ kid)) ∧
  (∀ (s : State) (a : Nat) (kid : BitVec 16), let t := killCore s a kid
    (∀ r ∈ (t.core a).taskq, r.kid ≠ kid) ∧ (∀ p ∈ (t.core a).posted, p.kid ≠ kid) ∧ (∀ m ∈ (t.core a).overflow, m.kid ≠ kid) ∧
    (∀ e ∈ (t.core a).retry, e.msg.kid ≠ kid) ∧ (∀ x ∈ (t.core a).arrivals, x.msg.kid = kid → x.msg.kind = .system) ∧
    (∀ g ∈ (t.core a).gmu.vars, g.kid ≠ kid) ∧ (∀ g ∈ (t.core a).gmu.facs, g.kid ≠ kid) ∧ (∀ m ∈ (t.core a).gmu.inq, m.kid ≠ kid) ∧
    ∀ i, i < 16 → (Sub.valid (subAt t a i) = true → Sub.kid (subAt t a i) ≠ kid) ∧ (Pub.valid (pubAt t a i) = true → Pub.kid (pubAt t a i) ≠ kid)) ∧
  (∀ (s : State) (kid : BitVec 16), kid ≠ 0 → let t := killBindings s kid
    (∀ c q, vget (t.clu c).qOwner q 0 ≠ kid ∧ vget (t.clu c).bsOwner q 0 ≠ kid) ∧ (∀ d, ∀ x ∈ (t.die d).colls, x.kid ≠ kid) ∧
    (∀ d, ∀ m ∈ (t.die d).collWait, m.kid ≠ kid) ∧ (∀ c ∈ t.completions, c.kid ≠ kid)) ∧
  (∀ (o : OXA) (s : State) (t : BitVec 32) (a k : Nat), Ready (.killk o) s → s.cur.rG o.a = 0 → s.cur.bound = some t → s.findTask t = some (a, k) →
    (s.ctx a k).kid ≠ 0 → (s.ktIndex (s.ctx a k).kid).isSome = true → s.cur.ending = false → Rule.calm s →
    Rule.ends (.killk o) s (killKernel (Rule.both s) (s.ctx a k).kid)) ∧
  (∀ (o : OXA) (s : State), Ready (.killk o) s → s.cur.rG o.a ≠ 0 → (s.cur.rG o.a).toNat ≤ 0xFFFF → s.cur.ending = false → Rule.calm s →
    let kid : BitVec 16 := (s.cur.rG o.a).setWidth 16
    (s.ktIndex kid).isSome = true → (s.curAgent = monitor ∨ s.faultAgent kid = s.curAgent) →
    (s.cur.served = none → let u := Rule.both s
      let w := killKernel u kid
      let t := if w.cur.task = u.cur.task && w.cur.st == .live then done (.killk o) w else w
      exec (.killk o) s = .next t) ∧
    (s.cur.served.isSome = true → Rule.ends (.killk o) s (killKernel (Rule.both s) kid))) ∧
  (∀ (o : OXDABC) (s : State) (t : BitVec 32), Ready (.dwrd o) s → s.cur.bound = some t → (s.cur.rG o.a).toNat < 4096 → Rule.calm s →
    let u := Rule.both s
    (u.findTask t = none → exec (.dwrd o) s = .next (give (.dwrd o) u o.c 1)) ∧
    (∀ a k, u.findTask t = some (a, k) →
      ((u.ctx a k).st = .live → exec (.dwrd o) s = .next (give (.dwrd o) u o.c 1)) ∧
      ((u.ctx a k).st ≠ .live → ∀ x, dwRead (u.ctx a k) (dwItem (s.cur.rG o.a).toNat) = .ok x →
        exec (.dwrd o) s = .next (give (.dwrd o) (u.setCur (u.cur.wG o.d x (srcTaint (.dwrd o) u.cur))) o.c 0)) ∧
      ((u.ctx a k).st ≠ .live → s.cur.rG o.a = 0xFFF → ∀ p, resolve u (ctxAcc u a k) (s.cur.rG o.b) 8 8 .rd .any = .ok p →
          pathHold u (ctxAcc u a k) p 8 .rd = none →
        let prv : Bool := match p with | .mem _ _ ty _ => ty == .prv | _ => false
        let x : Acc := if prv then ctxAcc u a k else { ctxAcc u a k with agent := u.curAgent }
        let r := readPath u x p 8
        exec (.dwrd o) s = .next
          (give (.dwrd o) (r.2.setCur (r.2.cur.wG o.d (BitVec.ofNat 64 r.1) (srcTaint (.dwrd o) r.2.cur))) o.c 0)))) ∧
  (∀ c : Ctx, (∀ r : Reg, c.openName false r = true → dwRead c (dwItem r.toNat) = .ok (c.rG r)) ∧
    (∀ (r : Reg) (p : Nat), p < 8 → c.openName true r = true → dwRead c (dwItem (0x100 + 8 * r.toNat + p)) = .ok ((c.rV r).extractLsb' (64 * p) 64)) ∧
    dwRead c (dwItem 0x200) = .ok c.pc ∧ dwRead c (dwItem 0x201) = .ok c.flags ∧ dwRead c (dwItem 0x202) = .ok (c.vFull ++ c.gFull) ∧
    dwRead c (dwItem 0x203) = .ok (c.vTaint ++ c.gTaint)) ∧
  (∀ (o : OXABCE) (s : State) (t : BitVec 32) (a k : Nat), Ready (.dwwr o) s → s.cur.bound = some t → s.cur.fencing = false →
    (s.cur.rG o.a).toNat < 4096 → Rule.calm s →
    let u := Rule.both s
    let x := s.cur.rG o.b
    u.findTask t = some (a, k) → (u.ctx a k).st ≠ .live →
    (∀ w, dwWrite u a k x (dwItem (s.cur.rG o.a).toNat) = .ok w → exec (.dwwr o) s = .next (give (.dwwr o) w o.c 0)) ∧
    (s.cur.rG o.a = 0xFFF → ∀ p, resolve u (ctxAcc u a k) (s.cur.rG o.e) 8 8 .wr .wsoStore = .ok p → pathHold u (ctxAcc u a k) p 8 .wr = none →
        let prv : Bool := match p with | .mem _ _ ty _ => ty == .prv | _ => false
        let y : Acc := if prv then ctxAcc u a k else { ctxAcc u a k with agent := u.curAgent }
        let w := writePath u { y with task := u.cur.task } p 8 x.toNat
        releaseHeld w .dev = false → exec (.dwwr o) s = .next (give (.dwwr o) (acquire (release w w.curAgent .dev) w.curAgent .dev) o.c 0)) ∧
    (s.cur.rG o.a = 0x200 → x.toNat % 4 = 0 → ∃ w, dwWrite u a k x .pc = .ok w ∧ (w.ctx a k).pc = x ∧ (w.ctx a k).g = (u.ctx a k).g) ∧
    (∀ r : Reg, r ≠ 0 → (u.ctx a k).openName false r = true → ∃ w, dwWrite u a k x (.g r) = .ok w ∧ (w.ctx a k).rG r = x ∧
      (w.ctx a k).fullG r = true ∧ ∀ q : Reg, q ≠ r → (w.ctx a k).rG q = (u.ctx a k).rG q)) ∧
  (∀ (o : OXA) (s : State), Ready (.trap o) s → Rule.calm s →
    let v := s.cur.rV o.a
    let kid : BitVec 16 := v.extractLsb' 64 16
    let u := Rule.both s
    trapCode (v.extractLsb' 0 8).toNat = true → (v.extractLsb' 8 8).toNat ≤ 13 → (s.ktIndex kid).isSome = true →
    ∃ m : Msg, exec (.trap o) s = .next (done (.trap o) (u.pend (.faultPacketArrive m))) ∧ m.dst = u.faultAgent kid ∧ m.ch = 1 ∧ m.len = 8 ∧ m.kid = kid ∧
      m.payload.getLsbD 31 = true ∧ m.payload.extractLsb' 24 3 = 0 ∧ m.payload.extractLsb' 320 64 = u.time ∧
      ∀ b, b < 512 → b ≠ 31 → (b < 24 ∨ 26 < b) → (b < 320 ∨ 383 < b) → m.payload.getLsbD b = v.getLsbD b) ∧
  (∀ (o : OXA) (on : Bool) (s : State), let i : Instr := if on then .hgtrig o else .hgrel o
    Ready i s → (s.cur.rG o.a).toNat < 64 → Rule.calm s →
    let w := haltGroup (done i (Rule.both s)) ((s.cur.rG o.a).toNat / 16) ((s.cur.rG o.a).toNat % 16) on
    exec i s = .next w) ∧
  (∀ (s : State) (d g : Nat) (on : Bool), g < 16 → ((haltGroup s d g on).die d).trig.getLsbD g = on ∧
    ∀ a, ((haltGroup s d g on).core a).halted = (if agentDie a = d ∧ (s.core a).hgm.getLsbD g = true then on else (s.core a).halted)) ∧
  (∀ (o : OXDA) (s : State), Ready (.hgstat o) s → (s.cur.rG o.a).toNat < 64 → Rule.calm s →
    let u := Rule.both s
    let d := (s.cur.rG o.a).toNat / 16
    let g := (s.cur.rG o.a).toNat % 16
    ∃ v : Word, exec (.hgstat o) s = .next (give (.hgstat o) u o.d v) ∧ v.getLsbD 63 = (u.die d).trig.getLsbD g ∧
      v.toNat % 2 ^ 32 = stoppedMembers u d g % 2 ^ 32)

/-- R87, R89, R135, R190, R194, R195, R213, R225, R244, R372 to R374, R413: SYSRD reads each register; a SYSWR that passes its checks is performed at once
or by the agent that holds the register, and one that fails faults; MEXT extends a measurement; TLBSYNC drops translations. The model's choices and
readings (log 29): a write of one half of a kernel-table entry keeps the other half, PTROOT's range and alignment, ridge core 0 of a die as a service
core, a write that another agent performs as a step of its own, and its loss where its task has left. -/
def Obligations.SystemRegistersAreReadAndWritten : Prop :=
  (∀ (o : OXDA) (s : State) (n x sub : Nat), Ready (.sysrd o) s → sysOperand (s.cur.rG o.a) = .ok (n, x, sub) →
    (n ≠ 0 ∨ loadsInFlight s s.curAgent s.curCtx = false) → Rule.calm s →
    let u := Rule.both s
    let r := sysRead u u.curAgent u.cur n x sub
    exec (.sysrd o) s = .next (give (.sysrd o) r.2 o.d r.1)) ∧
  (∀ (s : State) (a : Nat) (c : Ctx) (x sub : Nat), let rd (n : Nat) : Word := (sysRead s a c n x sub).1
    rd 0 = c.flags ∧ rd 1 = c.task.setWidth 64 ∧ rd 2 = c.kid.setWidth 64 ∧ rd 3 = c.prio.setWidth 64 ∧ rd 6 = s.time ∧
    rd 0x100 = BitVec.ofNat 64 (s.die x).dsp ∧ rd 0x101 = (s.die x).skgen.setWidth 64 ∧ rd 0x102 = s.ptroot ∧ rd 0x103 = (s.die x).cec ∧
    rd 0x104 = (s.die x).cethr ∧ rd 0x105 = (s.core a).fdrop ∧ rd 0x107 = BitVec.ofNat 64 (s.die x).skSize ∧ rd 0x108 = (if s.thboot then 1 else 0) ∧
    rd 0x109 = (s.core a).ftsel.setWidth 64 ∧ rd 0x200 = (if sub = 1 then (vget s.kt x (0, 0)).2 else (vget s.kt x (0, 0)).1) ∧
    rd 0x202 = (if sub = 1 then (vget s.wp x (0, 0)).2 else wpLo (vget s.wp x (0, 0)).1) ∧ rd 0x203 = vget s.mrgn x 0 ∧ rd 0x204 = (s.die x).wclu ∧
    rd 0x205 = (s.die x).wslice ∧ rd 0x207 = vget s.wnb x 0 ∧ rd 0x208 = (vget s.meas x 0).extractLsb' (64 * sub) 64 ∧
    (x = 0 → (rd 0x206).getLsbD 7 = true)) ∧
  (∀ (v : Word) (b : Nat), b < 64 → (wpLo v).getLsbD b = (decide (b < 6 ∨ 52 ≤ b ∨ v.toNat % 64 ≤ b) && v.getLsbD b)) ∧
  (∀ (o : OXAB) (s : State) (n x sub : Nat), Ready (.syswr o) s → sysOperand (s.cur.rG o.a) = .ok (n, x, sub) →
    let r : SysReq := ⟨s.curAgent, s.curCtx, s.cur.task, BitVec.ofNat 12 n, x, sub, s.cur.rG o.b⟩
    (∀ code, sysCheck s r = some code → exec (.syswr o) s = .next (faultCur (.syswr o) s { code := code })) ∧
    (sysCheck s r = none → Rule.calm s →
      (∀ w, sysNow (Rule.both s) r = .inl w → exec (.syswr o) s = .next (done (.syswr o) w)) ∧
      (∀ e, sysNow (Rule.both s) r = .inr e → exec (.syswr o) s = .next (waitFor ((Rule.both s).pend e) .done)))) ∧
  (∀ (s : State) (r : SysReq), r.num = 0x102 → (sysCheck s r = none ↔ isRidge r.agent = true ∧ r.agent % 8 = 0 ∧ r.value.toNat < 2 ^ 40 ∧
    r.value.toNat % 1024 = 0) ∧ ∃ w, sysNow s r = .inl w ∧ w.ptroot = r.value ∧ w.hbm = s.hbm ∧ w.cores = s.cores) ∧
  (∀ (s : State) (r : SysReq), r.num.toNat < 0x10 → sysCheck s r = some 0x1F) ∧
  (∀ (s : State) (r : SysReq), r.num = 0x203 → r.agent ≠ monitor → sysCheck s r = some (if agentWorld s r.agent then 0x1F else 0x0C)) ∧
  (∀ (s : State) (r : SysReq) (a k : Nat), Rule.writer s r a k → sysCheck s r = none → let u := s.took
    let performed (i : Instr) (w : State) : Prop := exec i s = .next (w.complete a k 12 fun c => c)
    (s.ev = some (.dspcfgWrite r) → performed .dspcfgWrite (dspResize u r.index r.value.toNat)) ∧
    (s.ev = some (.sksizeWrite r) → performed .sksizeWrite (u.modDie r.index fun d => { d with sark := [], skSize := r.value.toNat })) ∧
    (s.ev = some (.thbootWrite r) → r.value = 0 → s.thboot = true →
      performed .thbootWrite { u with thboot := false, tlb := [] }) ∧
    (s.ev = some (.thbootWrite r) → (r.value ≠ 0 ∨ s.thboot = false) → performed .thbootWrite u) ∧
    (∀ pa, s.ev = some (.fteWrite r) → ftFrame s r.agent = some pa → fteHeld s r = [] → performed .fteWrite (fteSet u pa r.value)) ∧
    (s.ev = some (.ktWrite r) → let e := if r.sub % 2 = 1 then ((vget s.kt r.index (0, 0)).1, r.value) else (r.value, (vget s.kt r.index (0, 0)).2)
      performed .ktWrite { u with kt := vset u.kt r.index e }) ∧
    (s.ev = some (.wsetWrite r) → r.sub % 16 = 0 → performed .wsetWrite (u.modCore r.index fun o =>
      let w := Rule.withKid (vget o.wsets (r.sub / 16) ⟨0xFFFF, Vector.replicate 4 Window.reset⟩) (r.value.setWidth 16)
      { o with wsets := vset o.wsets (r.sub / 16) w })) ∧
    (s.ev = some (.wpWrite r) → let e := if r.sub % 2 = 1 then ((vget s.wp r.index (0, 0)).1, r.value) else (r.value, (vget s.wp r.index (0, 0)).2)
      performed .wpWrite { u with wp := vset u.wp r.index e }) ∧
    (s.ev = some (.mrgnWrite r) → let v := purge u fun pa => inRegion (vget s.mrgn r.index 0) pa || inRegion r.value pa
      performed .mrgnWrite { v with mrgn := vset v.mrgn r.index r.value }) ∧
    (s.ev = some (.traptWrite r) → performed .traptWrite (u.modCore (2048 + r.index) fun o =>
      let e := vget o.trapt (r.sub / 2) 0
      { o with trapt := vset o.trapt (r.sub / 2) (if r.sub % 2 = 1 then r.value ++ e.extractLsb' 0 64 else e.extractLsb' 64 64 ++ r.value) })) ∧
    (s.ev = some (.worldMapWrite r) → (worldBusy s r = true → exec .worldMapWrite s = .next s) ∧
      (worldBusy s r = false → r.num = 0x204 → performed .worldMapWrite ((worldScrub u r).modDie r.index fun d => { d with wclu := r.value })))) ∧
  (∀ (s : State) (r : SysReq), Rule.writerGone s r →
    (s.ev = some (.ktWrite r) → exec .ktWrite s = .next s.took) ∧ (s.ev = some (.fteWrite r) → exec .fteWrite s = .next s.took)) ∧
  (∀ (s : State) (r : SysReq) (a k : Nat), s.ev = some (.fteWrite r) → Rule.writer s r a k → sysCheck s r = none → fteHeld s r ≠ [] →
    ∃ w, exec .fteWrite s = .next w ∧ w.ev = s.ev ∧ w.hbm = s.hbm ∧ w.ctx a k = s.ctx a k) ∧
  (∀ core sub : Nat, sysIndexOk 0x201 core sub = true → core < 2048 ∧ sub < 128 ∧ sub % 16 ≤ 8) ∧
  (∀ (o : OXAB) (s : State) (p : Path), Ready (.mext o) s → s.curAgent = monitor → resolve s (curAcc s) (s.cur.rG o.b) 64 64 .rd .any = .ok p →
    pathHold s (curAcc s) p 64 .rd = none → Rule.calm s →
    let n := (s.cur.rG o.a).toNat
    let u := Rule.both s
    let r := readPath u (curAcc u) p 64
    1 ≤ n → n ≤ 3 → exec (.mext o) s = .next (done (.mext o) { r.2 with
      meas := vset r.2.meas n (sha512 (leBytes (vget r.2.meas n 0).toNat 64 ++ leBytes (BitVec.ofNat 512 r.1).toNat 64)) })) ∧
  (∀ (o : OXAB) (s : State), Ready (.tlbsync o) s → isRidge s.curAgent = true → (s.curAgent % 8 = 0 ∨ s.curAgent = monitor) →
    (s.cur.rG o.a).toNat % 4096 = 0 → (s.cur.rG o.a).toNat < 2 ^ 52 → Rule.calm s →
    let u := Rule.both s
    let w := tlbDrop u ((s.cur.rG o.a).toNat / 4096) (s.cur.rG o.b).toNat
    exec (.tlbsync o) s = .next (done (.tlbsync o) w)) ∧
  (∀ (s : State) (p n : Nat) (q : Nat × Tlb), q ∈ (tlbDrop s p n).tlb ↔ q ∈ s.tlb ∧ n ≠ 0 ∧
    (q.1 / q.2.pages * q.2.pages + q.2.pages ≤ p ∨ p + n ≤ q.1 / q.2.pages * q.2.pages))

/-- R136, R219 to R222, R231 to R234, R376 to R378: PREEMPT names its units and waits for their acknowledgements, each of which saves its unit; RESTORE brings
a whole set back; MIGRATE moves a task or answers why not; CKPT quiesces, streams, restores and resumes. The model's choices: MIGRATE to the task's own
core answers 0 (log 10); the size that PREEMPT asks for has a free part for what the device keeps in a layout of its own, and the area holds structured
state that RESTORE takes out (logs 13, 19, 30, 34). -/
def Obligations.WorkIsStoppedSavedAndMoved : Prop :=
  (∀ (o : OXDABC) (s : State) (p : Path) (set : StopSet), Ready (.preempt o) s → (s.cur.rG o.b).toNat % 4096 = 0 → addrPart (s.cur.rG o.b) / 2 ^ 48 < 0xF0 →
    resolve s (curAcc s) (s.cur.rG o.b) 64 64 .wr .any = .ok p → pathHold s (curAcc s) p 64 .wr = none →
    stopSet (s.cur.rG o.a) = some set → Rule.calm s →
    let u := Rule.both s
    let key := areaKey p
    ((∀ v, u.saves.find? key = some v → v.busy = false) →
      let l := unitsOf u set u.cur.task
      let f := u.freeBits 32
      let n := imageBytes f.2 l + f.1.toNat
      (u.cur.rG o.c < BitVec.ofNat 64 n → exec (.preempt o) s = .next (give (.preempt o) f.2 o.d (BitVec.ofNat 64 (2 ^ 63 + n)))) ∧
      (∀ x e, BitVec.ofNat 64 n ≤ u.cur.rG o.c → areaBad f.2 (u.cur.rG o.b) n = some (x, e) → exec (.preempt o) s = .next (refuse (.preempt o) f.2 x e)) ∧
      (BitVec.ofNat 64 n ≤ u.cur.rG o.c → areaBad f.2 (u.cur.rG o.b) n = none → let w := f.2
        exec (.preempt o) s = .next (waitFor (stopBegin w key { SaveArea.empty w.cur.task set with bytes := n } l) .retry))) ∧
    (∀ v, u.saves.find? key = some v → v.busy = true → v.by_ = s.cur.task → v.todo = [] → areaBad u (u.cur.rG o.b) v.bytes = none →
      exec (.preempt o) s = .next (give (.preempt o) { areaFill u (u.cur.rG o.b) v with saves := u.saves.set key { v with busy := false } } o.d
        (BitVec.ofNat 64 v.bytes))) ∧
    (∀ v, u.saves.find? key = some v → v.busy = true → (v.by_ ≠ s.cur.task ∨ v.todo ≠ []) → exec (.preempt o) s = .next (waitFor u .retry))) ∧
  (∀ (o : OXDABC) (s : State) (p : Path ⊕ Nat), Ready (.preempt o) s → (s.cur.rG o.b).toNat % 4096 = 0 → addrPart (s.cur.rG o.b) / 2 ^ 48 < 0xF0 →
    resolveLocal s (curAcc s) (s.cur.rG o.b) 64 64 .wr = .ok p → stopSet (s.cur.rG o.a) = none →
    exec (.preempt o) s = .next (faultCur (.preempt o) s { code := 0x02 })) ∧
  (∀ (s : State) (key : Nat) (v : SaveArea) (l : List StopUnit) (a : Nat), let t := stopBegin s key v l
    ((t.core a).held = true ↔ (s.core a).held = true ∨ ∃ m, v.set = .cores m ∧ a ∈ m) ∧
      ∀ w, t.saves.find? key = some w → w.todo = l ∧ ∀ b ∈ w.cores, (s.core b).held = false) ∧
  (∀ g : Word, (g.toNat < 2 ^ 16 → stopSet g = some (.kernel (g.setWidth 16))) ∧ (g = 2 ^ 63 → stopSet g = some .device) ∧
    (3 * 2 ^ 62 ≤ g.toNat → stopSet g = none)) ∧
  (∀ (s t : State) (u : StopUnit) (key : Nat) (v w : SaveArea), s.ev = some (.preemptAck u) →
    s.saves.findP (fun _ v => v.todo.contains u) = some (key, v) →
    (unitStop s v u = none → exec .preemptAck s = .next s) ∧
    (unitStop s v u = some (t, w) →
      exec .preemptAck s = .next { t.took with saves := t.saves.set key { w with todo := w.todo.erase u } })) ∧
  (∀ (s : State) (a k : Nat), k < 8 → let t := (ctxSave s a k).1
    (t.ctx a k).st = .saved ∧ (t.ctx a k).pc = (s.ctx a k).pc ∧ (t.ctx a k).task = (s.ctx a k).task ∧ (t.ctx a k).lane = false ∧
      (t.ctx a k).vsp = false) ∧
  (∀ (o : OXDA) (s : State) (p : Path), Ready (.restore o) s → (s.cur.rG o.a).toNat % 4096 = 0 → addrPart (s.cur.rG o.a) / 2 ^ 48 < 0xF0 →
    resolve s (curAcc s) (s.cur.rG o.a) 64 64 .rd .any = .ok p → pathHold s (curAcc s) p 64 .rd = none → Rule.calm s →
    s.quiesced = false →
    let u := Rule.both s
    let key := areaKey p
    (u.saves.find? key = none → exec (.restore o) s = .next (give (.restore o) u o.d 1)) ∧
    (∀ v w, u.saves.find? key = some v → v.todo = [] → areaRestore u v = some w →
      exec (.restore o) s = .next (give (.restore o) { w with saves := w.saves.erase key } o.d 0)) ∧
    (∀ v, u.saves.find? key = some v → v.todo = [] → areaRestore u v = none → exec (.restore o) s = .next (waitFor u .retry))) ∧
  (∀ (s t : State) (x : SavedCtx) (a k : Nat), s.findTask x.task = some (a, k) → (s.ctx a k).st = .saved → ctxRestore s x = some t →
    (t.ctx a k).st = (if (s.ctx a k).frozenBy.isSome then .frozen else .live) ∧ (t.ctx a k).pc = (s.ctx a k).pc ∧ (t.ctx a k).g = (s.ctx a k).g) ∧
  (∀ (o : OXDABC) (s : State) (a k : Nat), Ready (.migrate o) s → (s.cur.rG o.a).toNat < 2 ^ 32 → (s.cur.rG o.b).toNat < 2048 → Rule.calm s →
    let u := Rule.both s
    let b := (s.cur.rG o.b).toNat
    (s.findTask ((s.cur.rG o.a).setWidth 32) = none → exec (.migrate o) s = .next (give (.migrate o) u o.d 1)) ∧
    (s.findTask ((s.cur.rG o.a).setWidth 32) = some (a, k) → serves s s.curAgent (s.ctx a k).kid = true →
      ((u.ctx a k).st ≠ .live → exec (.migrate o) s = .next (give (.migrate o) u o.d 1)) ∧
      ((u.ctx a k).st = .live → agentWorld u b ≠ agentWorld u a → exec (.migrate o) s = .next (give (.migrate o) u o.d 4)) ∧
      ((u.ctx a k).st = .live → agentWorld u b = agentWorld u a →
        (waysShared u a k = true → exec (.migrate o) s = .next (give (.migrate o) u o.d 3)) ∧
        (waysShared u a k = false → a = b → exec (.migrate o) s = .next (give (.migrate o) u o.d 0)) ∧
        (waysShared u a k = false → a ≠ b →
          (moveBusy u a k = true → exec (.migrate o) s = .next (waitFor u .retry)) ∧
          (moveBusy u a k = false →
            (moveRoom u a b (u.ctx a k) = true → exec (.migrate o) s = .next (moveTask (give (.migrate o) u o.d 0) a k b)) ∧
            (moveRoom u a b (u.ctx a k) = false →
              let limit := (s.cur.rG o.c).toNat
              let since := match u.cur.wait with | some w => w.since | none => u.now
              exec (.migrate o) s = .next (if limit ≠ 0 ∧ since + limit ≤ u.now then give (.migrate o) u o.d 2 else waitFor u .retry))))))) ∧
  (∀ (s : State) (a k : Nat), waysShared s a k = true ↔
    (s.ctx a k).claim ≠ 0 ∧ ∃ j, j < 8 ∧ j ≠ k ∧ (s.ctx a j).st = .live ∧ (s.ctx a j).claim ≠ 0) ∧
  (∀ (i : Instr) (o : OXDA) (s : State) (p : Path), Rule.ckptForm i = some o → Ready i s → (s.curAgent = 2048 ∨ s.curAgent = monitor) →
    resolve s (curAcc s) (s.cur.rG o.a) 32 32 .rd .any = .ok p → pathHold s (curAcc s) p 32 .rd = none →
    Rule.calm s →
    let u := Rule.both s
    let r := readPath (taintAcquire u (s.cur.taintG o.a)) (curAcc u) p 32
    let tier := r.1 % 2 ^ 64
    let len := r.1 / 2 ^ 64 % 2 ^ 64
    let mode := r.1 / 2 ^ 128 % 2 ^ 32
    let bad : Prop := 3 < mode ∨ r.1 / 2 ^ 160 % 2 ^ 96 ≠ 0 ∨ 2 ^ 52 ≤ tier
    (bad → exec i s = .next (faultCur i r.2 { code := 0x02 })) ∧
    (¬ bad → tier % 4096 ≠ 0 → exec i s = .next (faultCur i r.2 { code := 0x04 })) ∧
    (¬ bad → tier % 4096 = 0 →
      (∀ w v, ckptTry r.2 mode tier len 0 = (w, some v) → exec i s = .next (give i w o.d v)) ∧
      (∀ w, ckptTry r.2 mode tier len 0 = (w, none) → exec i s = .next (waitFor w .retry)))) ∧
  (∀ (s : State) (tier len : Nat) (who : BitVec 32),
    (s.quiesced = false → ckptTry s 3 tier len who = (s, some 0) ∧ (ckptTry s 0 tier len who).1.quiesced = true ∧ (ckptTry s 0 tier len who).2 = none) ∧
    (s.tiers.find? tier = none → ckptTry s 2 tier len who = (s, some (BitVec.ofNat 64 (2 ^ 63)))) ∧
    (∀ w v, s.quiesced = true → ckptTry s 0 tier len who = (w, some v) → v.toNat < 2 ^ 63 →
      ∃ x, w.tiers.find? tier = some x ∧ x.frames = none ∧ x.bytes ≤ len ∧ x.kt = s.kt))

/-- R89, R90, R107, R122 to R132, R229, R411, R414: a directory request is served at the line's home; a write-back writes its masked bytes; a copy
leaves its cache; a page of another device is copied, owned and given up, and one of this device is lent; a frame moves in two steps; an access
without an answer becomes a fault or a record. Each event completes in the state it names. The model's choices and readings: a frame's move in two
steps and the timeout of a write that is not acknowledged (log 35), pages of other devices and the memory called `remote` (log 20), the lines that
thatch and sarking hold (log 46). -/
def Obligations.PagesAndLinesMoveByTheirEvents : Prop :=
  (∀ (s : State) (k line : Nat) (q : DirReq) (e : Word), s.ev = some (.directoryRequest k line q) → leaf s (line * 64) = .ok e → Pte.ty e = .seq →
    k < 256 → line * 64 / 2 ^ 46 % 64 = s.devno.toNat →
    ((∀ r, q ≠ .device r) → exec .directoryRequest s = .next (dirServe s.took k line (Pte.pfn e * 4096 + line * 64 % 4096) q)) ∧
    (∀ r w, q = .device r → r.ia / 64 = line → deviceAccess s.took r = some w → exec .directoryRequest s = .next w) ∧
    (∀ r, q = .device r → r.ia / 64 = line → deviceAccess s.took r = none → exec .directoryRequest s = .next s)) ∧
  (∀ (s : State) (r : DevAcc), let kind : AKind := match r.op with | .load => .rd | .store _ => .wr | .atomic .. => .at
    let x := deviceAcc r.dev.toNat r.task r.kid r.world
    (∀ page, homeChecks s x 0 r.ia kind (wsoNeed r.bytes) r.bytes = .error (.moved page) → deviceAccess s r = none) ∧
    (∀ f, homeChecks s x 0 r.ia kind (wsoNeed r.bytes) r.bytes = .error (.fault f) → ∃ t, deviceAccess s r = some t ∧ t.hbm = s.hbm ∧ t.dies = s.dies ∧
      t.pending.length = s.pending.length + (if f.code = 0x0C ∨ (f.code = 0x1B ∧ f.sub = 3) then 1 else 0)) ∧
    (∀ ia pa ty disc, homeChecks s x 0 r.ia kind (wsoNeed r.bytes) r.bytes = .ok (.mem ia pa ty disc) → let u := accepted s x (.mem ia pa ty disc) kind
      deviceAccess s r = some (if (u.die (frameDie pa)).stopped then storeDropped u x ia else devicePerform u r ia pa ty))) ∧
  (∀ (s : State) (w : WriteBack), s.ev = some (.writebackApply w) → w.home = .thatch → w.pa % 64 = 0 → w.pa % 2 ^ 36 < ftBase → s.dies = [] → s.thboot = false →
    ∃ t : State, exec .writebackApply s = .next t ∧ t.ev = none ∧ physLine t w.pa = Line.merge (physLine s w.pa) w.data w.mask ∧
      (∀ b, b / 64 ≠ w.pa / 64 → b % 2 ^ 36 < ftBase → physLine t b = physLine s b)) ∧
  (∀ s : State,
    (∀ a line, s.ev = some (.eviction (.wcb a line)) → exec .eviction s = .next (wcbEvict s.took a line)) ∧
    (∀ k line, s.ev = some (.eviction (.l1 k line)) → exec .eviction s = .next (l1Evict s.took k line)) ∧
    (∀ d line, s.ev = some (.eviction (.l2 d line)) → exec .eviction s = .next (l2Evict s.took d line)) ∧
    (∀ d line, s.ev = some (.eviction (.sarking d line)) → ∃ t : State, exec .eviction s = .next t ∧ (t.die d).sark.find? line = none ∧ t.hbm = s.hbm ∧
      ∀ l, l ≠ line → (t.die d).sark.find? l = (s.die d).sark.find? l) ∧
    (∀ line, s.ev = some (.eviction (.thatch line)) → (∀ x, s.thatch.find? line = some x → x.dirty = true) → ∃ t : State,
      exec .eviction s = .next t ∧ t.thatch.find? line = none ∧ ∀ pa, physLine t pa = physLine s pa) ∧
    (∀ page p, s.ev = some (.eviction (.page page)) → s.pages.find? page = some p → p.st ≠ .op → unreachable s (page * 4096) = false →
      ∃ t : State, exec .eviction s = .next t ∧
      t.pages.find? page = (if p.st = .ow then some { p with dirty := [] } else none) ∧
      ∀ a, t.remote.read a = if p.st = .ow ∧ a ∈ p.dirty then p.data.read a else s.remote.read a) ∧
    (∀ page p, s.ev = some (.eviction (.page page)) → s.pages.find? page = some p → p.st = .ow → p.dirty ≠ [] → unreachable s (page * 4096) = true →
      ∃ (t : State) (u : Unacked), exec .eviction s = .next t ∧ t.pages.find? page = some { p with dirty := [] } ∧ t.remote = s.remote ∧
        t.unacked = s.unacked ++ [u] ∧ u.what = .push ∧ u.ia / 4096 = (p.dirty.headD 0) / 4096 ∧ u.kid = p.by_.2.2 ∧ u.since = s.now)) ∧
  (∀ (s : State) (r : PageReq), s.ev = some (.pageCopyRequest r) →
    (Rule.ownPage s r.page → r.dev ≠ s.devno.toNat → pageAsk s r .rd = true → ∃ (t : State) (h : PageHome), exec .pageCopyRequest s = .next t ∧
      t.homes.find? r.page = some h ∧ r.dev ∈ h.holders ∧ (h.owner = none ∨ h.owner = some r.dev) ∧ (r.store = true → Ev.ownershipRequest r ∈ t.pending)) ∧
    (¬ Rule.ownPage s r.page → r.dev = s.devno.toNat → unreachable s (r.page * 4096) = false → s.pages.find? r.page = none → ∃ t : State,
      exec .pageCopyRequest s = .next t ∧ t.pages.find? r.page = some ⟨if r.store then .op else .rd, remotePage s r.page, [], [], (0, 0, r.kid)⟩ ∧ t.hbm = s.hbm) ∧
    (∀ p, ¬ Rule.ownPage s r.page → r.dev ≠ s.devno.toNat → s.pages.find? r.page = some p → p.st = .ow → unreachable s (r.page * 4096) = false → ∃ t : State,
      exec .pageCopyRequest s = .next t ∧ t.pages.find? r.page = some { p with st := .rd, dirty := [] } ∧ t.hbm = s.hbm ∧
      (∀ a, a ∈ p.dirty → t.remote.read a = p.data.read a) ∧ (∀ a, a ∉ p.dirty → t.remote.read a = s.remote.read a))) ∧
  (∀ (s : State) (r : PageReq), s.ev = some (.ownershipRequest r) →
    (Rule.ownPage s r.page → pageAsk s r .wr = true → (pageHome s r.page).op = none → r.dev = s.devno.toNat → ∃ t : State,
      exec .ownershipRequest s = .next t ∧ t.homes.find? r.page = some ⟨[], none, some r.dev, (pageHome s r.page).queue⟩ ∧
      Ev.ownershipGrant r.page ∈ t.pending) ∧
    (Rule.ownPage s r.page → pageAsk s r .wr = true → (pageHome s r.page).op.isSome = true → exec .ownershipRequest s =
      .next { s.took with homes := s.homes.set r.page { pageHome s r.page with queue := (pageHome s r.page).queue ++ [r] } }) ∧
    (¬ Rule.ownPage s r.page → r.dev = s.devno.toNat → unreachable s (r.page * 4096) = false →
      exec .ownershipRequest s = .next ((ownAnswered s.took r.page).pendOnce (.ownershipGrant r.page))) ∧
    (∀ p, ¬ Rule.ownPage s r.page → r.dev = s.devno.toNat → unreachable s (r.page * 4096) = true → s.pages.find? r.page = some p →
      (∀ u ∈ s.unacked, u.what = .own → u.ia ≠ r.page * 4096) → ∃ (t : State) (u : Unacked), exec .ownershipRequest s = .next t ∧
        t.unacked = s.unacked ++ [u] ∧ u.what = .own ∧ u.ia = r.page * 4096 ∧ u.since = s.now ∧ t.pages = s.pages)) ∧
  (∀ (s : State) (page : Nat) (p : PageCopy), s.ev = some (.pageInvalidate page) → ¬ Rule.ownPage s page → s.pages.find? page = some p → p.st ≠ .op →
    unreachable s (page * 4096) = false → ∃ t : State, exec .pageInvalidate s = .next t ∧ t.pages.find? page = none ∧ t.hbm = s.hbm ∧
      (∀ a, a ∈ p.dirty → t.remote.read a = p.data.read a) ∧ (∀ a, a ∉ p.dirty → t.remote.read a = s.remote.read a)) ∧
  (∀ (s : State) (page : Nat) (p : PageCopy), s.ev = some (.ownershipGrant page) → ¬ Rule.ownPage s page → s.pages.find? page = some p → p.st = .op →
    ∃ (t : State) (q : PageCopy), exec .ownershipGrant s = .next t ∧ t.pages.find? page = some q ∧ q.st = .ow ∧ q.held = [] ∧
      q.data = p.held.foldl (fun m x => Mem.writeNat m x.2.1 x.2.2.1 x.2.2.2) (remotePage s page) ∧
      (∀ a, a ∈ q.dirty ↔ ∃ x ∈ p.held, x.2.1 ≤ a ∧ a < x.2.1 + x.2.2.1)) ∧
  (∀ (s : State) (page d : Nat), s.ev = some (.ownershipGrant page) → Rule.ownPage s page → (pageHome s page).op = some d → d ≠ s.devno.toNat →
    (pageHome s page).queue = [] → ∃ t : State, exec .ownershipGrant s = .next t ∧
      t.homes.find? page = some { pageHome s page with owner := some d, op := none } ∧ t.hbm = s.hbm) ∧
  (∀ (s : State) (page new at_ n : Nat) (e : Word), s.ev = some (.frameMigration page new) → leafSlot s (page * 4096) 3 s.ptroot.toNat = some (at_, e, n) →
    new % 4096 = 0 → new / 4096 % n = 0 → new / 4096 + n ≤ 16 * 2 ^ 24 → badFrame s new = false → badFrame s (new + 4096 * (n - 1)) = false →
    Rule.ownPage s page → Pte.pfn e ≠ new / 4096 →
    (inMove s (page / n * n) = false → s.moving.contains (page / n * n, new, n) = false → ∃ t : State, exec .frameMigration s = .next t ∧
      (page / n * n, new, n) ∈ t.moving ∧ Ev.frameMigration page new ∈ t.pending ∧ t.hbm = s.hbm) ∧
    ((page / n * n, new, n) ∈ s.moving →
      let w := tlbDrop (moveLeaf (moveFrame s.took (Pte.pfn e) (new / 4096) n) at_ e (new / 4096)) (page / n * n) n
      exec .frameMigration s = .next (retryHeld { w with moving := w.moving.filter fun q => q != (page / n * n, new, n) } (page / n * n) n))) ∧
  (∀ (s : State) (a k page l u : Nat), s.ev = some (.atomicMoved a k) → (s.ctx a k).wait = some ⟨.moved page, l, u⟩ →
    (inMove s page = true → exec .atomicMoved s = .next s) ∧
    (inMove s page = false → exec .atomicMoved s = .next (s.took.modCtx a k fun c => { c with wait := some ⟨.retry, l, u⟩ }))) ∧
  (∀ (s : State) (a k l t0 u : Nat), s.ev = some (.remoteTimeout a k) → (s.ctx a k).wait = some ⟨.remote t0, l, u⟩ → (s.ctx a k).st = .live →
    firstUnacked s a k false = none →
    (s.now < t0 + 2 ^ 24 → exec .remoteTimeout s = .next s) ∧
    (t0 + 2 ^ 24 ≤ s.now → exec .remoteTimeout s = .next (takeFault s.took a k { code := 0x1B, sub := 3 } (insnAt s.took a k)))) ∧
  (∀ (s : State) (a k : Nat) (host : Bool) (u : Unacked), s.ev = some (if host then .apertureWriteTimeout a k else .remoteTimeout a k) →
    firstUnacked s a k host = some u → (s.ctx a k).wait = none → let i : Instr := if host then .apertureWriteTimeout else .remoteTimeout
    (s.now < u.since + 2 ^ 24 → exec i s = .next s) ∧
    (u.since + 2 ^ 24 ≤ s.now → u.what ≠ .own → ∃ (t : State) (m : Msg), exec i s = .next t ∧ t.unacked = s.unacked.erase u ∧ t.hostMem = s.hostMem ∧
      t.remote = s.remote ∧ t.pending = s.pending ++ [.faultPacketArrive m] ∧ m.kid = u.kid ∧ m.dst = s.faultAgent u.kid ∧
      (Packet.ofBits (m.payload.setWidth 512)).code = 0x1B ∧ (Packet.ofBits (m.payload.setWidth 512)).sub = 3 ∧
      (Packet.ofBits (m.payload.setWidth 512)).ia = BitVec.ofNat 64 u.ia ∧ ∀ b j, t.ctx b j = s.ctx b j)) ∧
  (∀ (s : State) (u : Unacked) (p : PageCopy), u.what = .own → s.pages.find? (u.ia / 4096) = some p → let t := unackedDrop s u
    t.pages.find? (u.ia / 4096) = some { p with st := .rd, held := [] } ∧ t.remote = s.remote ∧ t.unacked = s.unacked.erase u)

/-- R200, R201, R227 to R230, R414, R416: an interval grants each kernel between its floor and its use, within the budget or the floors; a self-test fences
quadrants and disables an array of two; a corrected error counts and a threshold records; a mark poisons its place; a die stops; temperature warns and
stops; a lane goes down. The model's choices: demands are an input, and which of the parts that are too small stall is free, as is the module's draw
(log 36); one allotment in each interval of TIME (log 2); what a stopped die leaves (log 37). -/
def Obligations.PowerErrorsAndTemperatureAreHandled : Prop :=
  (∀ (s : State) (un : Nat) (l : List Demand), s.ev = some (.powerInterval un l) → (powerInterval s ≤ s.powerAt → exec .powerInterval s = .next s) ∧
    (s.powerAt < powerInterval s → ∃ t : State, exec .powerInterval s = .next t ∧ t.ev = none ∧
    t.grants = (allot s un l).map (fun x => (x.entry, x.got)) ∧ t.hbm = s.hbm ∧ t.cores = s.cores ∧
    t.powerAt = powerInterval s ∧ (∃ p, t.draws = (p :: s.draws).take 1024) ∧ t.mgmt.power = meanDraw t.draws ∧
    (∀ u ∈ t.stalled, ∃ d ∈ l, ∃ w ∈ d.units, w.1 = u.1))) ∧
  (∀ (s : State) (un : Nat) (l : List Demand), (∀ x ∈ allot s un l, x.got ≤ x.use ∧
      Nat.min x.use (16 * ((vget s.kt x.entry (0, 0)).1.extractLsb' 16 16).toNat) ≤ x.got) ∧
    (allot s un l).foldl (fun n x => n + x.got) 0 ≤ Nat.max (Nat.max (2400 * 16 - un) (1800 * 16)) ((floors s l).foldl (fun n x => n + x.got) 0)) ∧
  (∀ (s : State) (k : Nat) (f : BitVec 4), s.ev = some (.arraySelfTest k f) → k < 256 → ∃ t : State, exec .arraySelfTest s = .next t ∧ t.ev = none ∧
    (t.clu k).fenced = (s.clu k).fenced ||| f ∧
    ((t.clu k).disabled = true ↔ (s.clu k).disabled = true ∨ ∃ i j : Nat, i < j ∧ j < 4 ∧ (t.clu k).fenced.getLsbD i = true ∧ (t.clu k).fenced.getLsbD j = true) ∧
    t.pending.length = s.pending.length + ((List.range 4).filter fun q => f.getLsbD q && !(s.clu k).fenced.getLsbD q).length ∧
    ∀ j, j ≠ k → t.clu j = s.clu j) ∧
  (∀ (s : State) (d : Nat), s.ev = some (.eccCorrectable d) → ∃ t : State, exec .eccCorrectable s = .next t ∧ t.ev = none ∧ (t.die d).cec = (s.die d).cec + 1 ∧
    t.pending.length = s.pending.length + (if (s.die d).cec ≤ (s.die d).cethr ∧ (s.die d).cethr < (s.die d).cec + 1 then 1 else 0) ∧ t.hbm = s.hbm) ∧
  (∀ (s : State) (p : Place), s.ev = some (.poisonMark p) → ∃ t : State, exec .poisonMark s = .next t ∧ t.ev = none ∧ t.hbm = s.hbm ∧
    (∀ pa, p = .hbm pa → pa / 64 ∈ t.poison) ∧ (∀ a off, p = .scratch a off → (a, off / 64) ∈ t.spPoison) ∧
    (∀ d off, p = .dieScratch d off → (d, off / 64) ∈ t.dsPoison)) ∧
  (∀ (s : State) (d : Nat) (x : Byte), d < 4 → ((s.die d).stopped = true → (s.die d).running = false) →
    (s.ev = some (.dieStop d) → ∃ t : State, exec .dieStop s = .next t ∧ t.ev = none ∧ (t.die d).stopped = true ∧ (t.die d).running = false ∧
      (∀ e, e ≠ d → t.die e = s.die e) ∧ t.hbm = s.hbm) ∧
    (s.ev = some (.thermalWarning d x) → 95 ≤ x.toNat → x.toNat < 105 → ∃ t : State, exec .thermalWarning s = .next t ∧ t.ev = none ∧ (t.die d).warn = true ∧ (t.die d).temp = x ∧
      (t.die d).running = (s.die d).running) ∧
    (s.ev = some (.thermalWarning d x) → 105 ≤ x.toNat → ∃ t : State, exec .thermalWarning s = .next t ∧ t.ev = none ∧ (t.die d).tstop = true ∧
      (t.die d).temp = x ∧ (t.die d).stopped = true ∧ (t.die d).running = false ∧ t.mgmt.bootst = 0xC0) ∧
    (s.ev = some (.thermalWarningClear d x) → x.toNat < 95 → ∃ t : State, exec .thermalWarningClear s = .next t ∧ t.ev = none ∧ (t.die d).warn = false ∧
      (t.die d).temp = x) ∧
    (s.ev = some (.thermalStop d) → ∃ t : State, exec .thermalStop s = .next t ∧ t.ev = none ∧ (t.die d).tstop = true ∧ (t.die d).stopped = true ∧
      (t.die d).running = false ∧ t.mgmt.bootst = 0xC0)) ∧
  (∀ (s : State) (n : Nat), s.ev = some (.twillLaneFail n) → n < 72 → ∃ t : State, exec .twillLaneFail s = .next t ∧ t.ev = none ∧
    ∀ j, j < 72 → t.lanesUp.getLsbD j = (decide (j ≠ n) && s.lanesUp.getLsbD j))

/-- R194, R202, R203, R205, R223, R231, R408 to R413, R415: a host message is delivered, stalled or discarded; a command in its turn is served with its reply
record; management writes reach their field; a module in reset is held, its port holds what the host sends, and a release boots it once the host answers; what
happens outside the module changes what it can reach. The model's choices: host commands are served by a rule of the machine, with its place for the
tables that MAP makes and its order of statuses (log 32); the release and the end of the boot ROM's work are two steps, and BOOTST becomes 3 where the
firmware says so (logs 5, 14); a HOST_MAP and the boot ROM's work are one step each (log 22). -/
def Obligations.HostAndManagementReachTheDevice : Prop :=
  (∀ (s : State) (h : Word) (p : BitVec 960), s.ev = some (.hostMessageArrive h p) → s.mgmt.auxUp = true →
    (hostHeaderBad s h = true → s.mgmt.hdrop ≠ 0xFFFFFFFF → ∃ t : State, exec .hostMessageArrive s = .next t ∧ t.mgmt.hdrop = s.mgmt.hdrop + 1 ∧
      t.pending = s.pending) ∧
    (hostHeaderBad s h = false → 16 ≤ s.hostRetry.length → exec .hostMessageArrive s = .next s) ∧
    (hostHeaderBad s h = false → s.hostRetry = [] → ∃ (t : State) (m : Msg), exec .hostMessageArrive s = .next t ∧
      (s.mgmt.held = false → t.pending = s.pending ++ [.messageArrive m] ∧ t.hostRetry = [⟨m, true, false, 0⟩]) ∧
      (s.mgmt.held = true → t.pending = s.pending ∧ t.hostRetry = [⟨m, false, false, 0⟩]) ∧ m.dst = 2048 + (h.extractLsb' 47 5).toNat ∧ m.ch = h.extractLsb' 41 6 ∧ m.len = h.extractLsb' 20 4 ∧
      m.payload = p ∧ m.kind = .system ∧ m.srcXR = true ∧ m.srcCore = 0x7FF)) ∧
  (∀ (s : State) (c : HostCmd), s.ev = some (.hostLaunch c) → Rule.hostOk s c 10 → s.quiesced = false →
    let r := hostArg c 0x10 64
    (launchBad s r = true → exec .hostLaunch s = .next (hostReply s.took c 3 2)) ∧
    (launchBad s r = false → recBytes r 8 8 = 0 → (queuedLaunches (s.die (recBytes r 0x24 1))).length < 64 → ∃ (t : State) (x : Launch),
      exec .hostLaunch s = .next t ∧ (t.die (recBytes r 0x24 1)).launchq = (s.die (recBytes r 0x24 1)).launchq ++ [x] ∧
      x.pc = BitVec.ofNat 64 (recBytes r 0 8) ∧ x.kid = BitVec.ofNat 16 (recBytes r 0x26 2) ∧ x.live = 0 ∧ x.started = false)) ∧
  (∀ (s : State) (c : HostCmd), s.ev = some (.hostMap c) → Rule.hostOk s c 5 →
    let ia := hostArg c 0x10 8
    let e := BitVec.ofNat 64 (hostArg c 0x18 8)
    let level := hostArg c 0x20 1
    let owner := hostArg c 0x24 4
    (c.agent ≠ 2048 → exec .hostMap s = .next (hostReply s.took c 2 0)) ∧
    (c.agent = 2048 → s.quiesced = false → ∀ v, mapCheck s ia e level owner = some v → exec .hostMap s = .next (hostReply s.took c 3 v)) ∧
    (c.agent = 2048 → s.quiesced = false → mapCheck s ia e level owner = none → e.getLsbD 63 = true →
      retypeHeld s (Pte.pfn e) (512 ^ level) (Pte.ty e) = [] → ∀ at_ u, slotMake s e ia level 4 = some (at_, u) →
      let t := hostReply (tlbDrop (mapFrames (pteWrite u at_ e) e level owner) (ia / 4096) (512 ^ level)).took c 0 0
      exec .hostMap s = .next t)) ∧
  (∀ (s : State) (c : HostCmd), s.ev = some (.hostKinst c) → Rule.hostOk s c 5 → agentWorld s c.agent = false → s.quiesced = false →
    let n := hostArg c 0x10 1
    let e : Word × Word := (BitVec.ofNat 64 (hostArg c 0x18 8) &&& ~~~ (2 ^ 62), BitVec.ofNat 64 (hostArg c 0x20 8))
    n ≤ 63 → (Kt.valid (vget s.kt n (0, 0)) = true → (vget s.kt n (0, 0)).1.getLsbD 62 = false) → ktBad s n e = false →
    ∃ t : State, exec .hostKinst s = .next t ∧ vget t.kt n (0, 0) = e ∧ (∀ j, j ≠ n → vget t.kt j (0, 0) = vget s.kt j (0, 0)) ∧ t.hbm = s.hbm ∧
      (c.reply ≠ 0 → t.hostMem.readNat (c.reply.toNat + 56) 8 = 2 ^ 63 + c.seq.toNat ∧ t.hostMem.readNat (c.reply.toNat + 4) 4 = 0)) ∧
  (∀ (s : State) (c : HostCmd), s.ev = some (.hostCkpt c) → Rule.hostOk s c 6 → c.agent = 2048 →
    let tier := hostArg c 0x10 8
    let mode := hostArg c 0x20 4
    mode ≤ 3 → hostArg c 0x24 12 = 0 → tier < 2 ^ 52 → tier % 4096 = 0 → s.saves.find? ckptKey = none →
    (∀ t v, ckptTry s mode tier (hostArg c 0x18 8) (BitVec.ofNat 32 (c.no + 1)) = (t, some v) →
      exec .hostCkpt s = .next (hostReply t.took c (if v.getLsbD 63 then 5 else 0) v)) ∧
    (∀ t, ckptTry s mode tier (hostArg c 0x18 8) (BitVec.ofNat 32 (c.no + 1)) = (t, none) → exec .hostCkpt s = .next t)) ∧
  (∀ (s : State) (c : HostCmd), s.ev = some (.hostAttest c) → Rule.hostOk s c 6 → c.agent = monitor →
    (c.reply = 0 → exec .hostAttest s = .next s.took) ∧
    (c.reply ≠ 0 → c.reply.toNat + 0x40 + 440 ≤ 2 ^ 44 → ∃ t : State, exec .hostAttest s = .next t ∧
      (∀ j, j < 376 → t.hostMem.read (c.reply.toNat + 0x40 + j) = (reportBody s (hostArg c 0x10 32)).getD j 0) ∧
      t.hostMem.readNat (c.reply.toNat + 0x40 + 376) 64 = (Config.edSign (reportBody s (hostArg c 0x10 32))).toNat ∧
      t.hostMem.readNat (c.reply.toNat + 8) 8 = 440)) ∧
  (∀ (s : State) (c : HostCmd) (on : Bool), s.ev = some (if on then .hostHgtrig c else .hostHgrel c) → Rule.hostOk s c 3 → hostArg c 0x10 1 ≤ 15 →
    hostArg c 0x11 1 ≤ 3 → let t := hostReply (haltGroup s (hostArg c 0x11 1) (hostArg c 0x10 1) on).took c 0 0
    exec (if on then .hostHgtrig else .hostHgrel) s = .next t) ∧
  (∀ s : State, s.ev = some .mgmtCtrlHold → s.mgmt.auxUp = true → ∃ t : State, exec .mgmtCtrlHold s = .next t ∧ t.mgmt.held = true ∧ t.mgmt.bootst = 0 ∧
    t.cores = State.reset.cores ∧ t.clusters = State.reset.clusters ∧
    (∀ d, d < 4 → t.die d = { State.reset.die d with temp := (s.die d).temp, warn := (s.die d).warn }) ∧ t.minSvn = s.minSvn ∧ t.hbm = [] ∧ t.hostMem = s.hostMem ∧
    t.mgmt.bootaddr = s.mgmt.bootaddr ∧ t.mgmt.devno = s.mgmt.devno) ∧
  (∀ s : State, s.ev = some .mainPowerLoss → ∃ t : State, exec .mainPowerLoss s = .next t ∧ t.mgmt.held = true ∧ t.mgmt.mainOn = false ∧ t.hbm = [] ∧
    t.hostMem = s.hostMem) ∧
  (∀ s : State, s.ev = some .mainInputReturn → ∃ t : State, exec .mainInputReturn s = .next t ∧ t.mgmt.mainOn = true ∧ t.mgmt.held = s.mgmt.held ∧
    t.cores = s.cores ∧ t.hbm = s.hbm) ∧
  (∀ s : State, s.ev = some .auxPowerUp → ∃ t : State, exec .auxPowerUp s = .next t ∧ t.mgmt.held = true ∧ t.mgmt.bootst = 0 ∧ t.mgmt.bootaddr = 0 ∧
    t.mgmt.hostnode = 0 ∧ t.mgmt.devno = 0) ∧
  (∀ s : State, s.ev = some .mgmtCtrlRelease →
    ((s.mgmt.held = true ∨ s.mgmt.bootst ≠ 1) → exec .mgmtCtrlRelease s = .next (release0 s.took)) ∧
    (s.mgmt.held = false → s.mgmt.bootst = 1 → hostReached s = true → exec .mgmtCtrlRelease s = .next (bootRom s.took)) ∧
    (s.mgmt.held = false → s.mgmt.bootst = 1 → hostReached s = false → exec .mgmtCtrlRelease s = .next s)) ∧
  (∀ s : State, s.mgmt.held = true → s.mgmt.auxUp = true → s.mgmt.mainOn = true → let t := release0 s
    t.time = 0 ∧ t.mgmt.held = false ∧ (t.die 0).running = true ∧ t.mgmt.bootst = 1 ∧ Ev.mgmtCtrlRelease ∈ t.pending ∧ t.cores = s.cores ∧
      (∀ e, s.hostRetry = [e] → e.sent = false → t.hostRetry = [{ e with sent := true }] ∧ Ev.messageArrive e.msg ∈ t.pending)) ∧
  (∀ s : State, let t := bootRom s
    let at_ := s.mgmt.bootaddr.toNat % 2 ^ 44
    (t.mgmt.bootst = 2 ∨ (0x81 ≤ t.mgmt.bootst.toNat ∧ t.mgmt.bootst.toNat ≤ 0x86)) ∧
      (s.hostMem.readNat at_ 4 ≠ 0x46473946 → t.mgmt.bootst = 0x81) ∧ (t.mgmt.bootst ≠ 2 → t.cores = s.cores) ∧
      (t.mgmt.bootst = 2 → fusedMin s ≤ t.svn.toNat ∧ (∀ d, d < 4 → (t.die d).running = true) ∧
        ∀ i, i < 32 → (t.ctx (2048 + i) 0).st = .live ∧ (t.ctx (2048 + i) 0).priv = true ∧ (t.ctx (2048 + i) 0).kid = 0)) ∧
  (∀ s : State, (s.mgmt.held = false ∨ s.mgmt.mainOn = false) → release0 s = s) ∧
  (∀ (s : State) (x : Word), s.mgmt.auxUp = true → s.mgmt.held = true →
    (s.ev = some (.mgmtWrite 0x18 8 x) → ∃ t : State, exec .mgmtWrite s = .next t ∧ t.mgmt = { s.mgmt with bootaddr := x }) ∧
    (s.ev = some (.mgmtWrite 0x20 1 x) → ∃ t : State, exec .mgmtWrite s = .next t ∧ t.mgmt = { s.mgmt with hostnode := x.setWidth 8 }) ∧
    (s.ev = some (.mgmtWrite 0x21 1 x) → ∃ t : State, exec .mgmtWrite s = .next t ∧ t.mgmt = { s.mgmt with devno := x.setWidth 8 })) ∧
  (∀ (s : State) (x : Word) (off len : Nat), s.mgmt.auxUp = true → s.mgmt.held = false → off ≠ 0x2C → s.ev = some (.mgmtWrite off len x) →
    exec .mgmtWrite s = .next s.took) ∧
  (∀ (s : State) (o : Outside) (rest : List Choice), s.agenda = .outside o :: rest → dueEvent s = none →
    step s = .next (settle 1 (outsideStep { s with agenda := rest } o))) ∧
  (∀ s : State,
    (s.mgmt.bootst = 2 → s.thboot = false → outsideStep s .ready = { s with mgmt := { s.mgmt with bootst := 3 } }) ∧
    ((s.mgmt.bootst ≠ 2 ∨ s.thboot = true) → outsideStep s .ready = s) ∧
    (s.mgmt.auxUp = true → s.mgmt.hdrop ≠ 0xFFFFFFFF →
      outsideStep s .hostFrame = { s with mgmt := { s.mgmt with hdrop := s.mgmt.hdrop + 1 } }) ∧
    (∀ v, outsideStep s (.raiseMin v) = s ∨ (s.minSvn.toNat < v.toNat ∧ outsideStep s (.raiseMin v) = { s with minSvn := v })) ∧
    hostReached (outsideStep s (.hostAnswers false)) = false ∧
    (∀ u, s.lanesUp ≠ 0 → s.unacked = [u] → u.what = .host → let t := outsideStep s (.hostAnswers true)
      t.unacked = [] ∧ t.hostMem = s.hostMem.writeNat (u.ia % 2 ^ 44) u.n u.v) ∧
    (∀ dev, noPathTo (outsideStep s (.path dev false)) dev = true ∧ (s.lanesUp ≠ 0 → noPathTo (outsideStep s (.path dev true)) dev = false)))

/-- R52: a scalar or vector division truncates toward zero and its remainder is dividend - quotient × divisor; the two fixed cases; the flag IDIV0
for a zero divisor of an active lane; no fault. -/
def Obligations.DivisionTruncatesTowardZero : Prop :=
  (∀ (o : OAlu) (s : State), let a := Rule.int o.w (s.cur.rG o.a)
    let b := Rule.int o.w (s.cur.rG o.b)
    let fl : Word := if b = 0 then flagIDIV0 else 0
    (Ready (.div o) s → ∃ x : Word, exec (.div o) s = .next (s.setCur (wroteG (.div o) s.cur o.d x fl)) ∧ Rule.int o.w x = Rule.quotInt o.w a b) ∧
    (Ready (.rem o) s → ∃ x : Word, exec (.rem o) s = .next (s.setCur (wroteG (.rem o) s.cur o.d x fl)) ∧ Rule.int o.w x = Rule.remInt a b)) ∧
  (∀ (o : OVBin) (s : State), let a (l : Nat) := Rule.laneInt o.w (Rule.lane (s.cur.rV o.a) l)
    let b (l : Nat) := Rule.laneInt o.w (Rule.lane (s.cur.rV o.b) l)
    let fl : Word := if (List.range 16).any fun l => Rule.on s.cur o.form l && decide (b l = 0) then flagIDIV0 else 0
    (Ready (.vdiv o) s → ∃ v : Line, exec (.vdiv o) s = .next (s.setCur (wroteV (.vdiv o) s.cur o.d v fl)) ∧
      ∀ l, l < 16 → Rule.on s.cur o.form l = true → Rule.laneInt o.w (Rule.lane v l) = Rule.quotInt o.w.width (a l) (b l)) ∧
    (Ready (.vrem o) s → ∃ v : Line, exec (.vrem o) s = .next (s.setCur (wroteV (.vrem o) s.cur o.d v fl)) ∧
      ∀ l, l < 16 → Rule.on s.cur o.form l = true → Rule.laneInt o.w (Rule.lane v l) = Rule.remInt (a l) (b l)))

/-- R163, R236, R242: in a step whose choice is a core, the first context in its order fetches at its PC and runs the decoded instruction, and has the
slot where it does not stall, as a vector instruction does between the groups of another context's VSP (R306); illegal words freeze it with 0x01 and words with a reserved field set with 0x02; a step whose choice is an event runs
that event; with nothing chosen from outside the model's own order decides (log 1); TIME moves by one (log 2), and limits and timers end at their
cycle, in no time. -/
def Obligations.AStepRunsTheDecodedInstruction : Prop :=
  (∀ (s u : State) (a k : Nat) (rest : List Choice) (late tail : List Nat) (ws : List (BitVec 32)), s.agenda = .issue a late :: rest → dueEvent s = none →
    let v : State := { s with agenda := rest, lastCore := a }
    let w := State.modCtx { v with curAgent := a, curCtx := k } a k Ctx.turned
    let issued (t : State) : State := settle 1 (noted t a k)
    let back (t : State) : State := t.modCtx a k fun c => { c with yielded := (v.ctx a k).yielded }
    turnOrder v a late = k :: tail → fetchInstr w w.cur.pc = .words ws u →
    let busy (i : Instr) : Bool := vectorBusy u a k && Instr.vectorUnit i
    (∀ i t, decodeWords ws = .instr i false → busy i = false → exec i u = .next t → stalledAt t a k = false → step s = .next (issued t)) ∧
    (∀ i t, decodeWords ws = .instr i false → busy i = false → exec i u = .next t → stalledAt t a k = true → tail = [] →
      step s = .next (settle 1 (back t))) ∧
    (∀ i, decodeWords ws = .instr i false → busy i = true → stalledAt (waitFor u .retry) a k = true → tail = [] →
      step s = .next (settle 1 (back (waitFor u .retry)))) ∧
    (decodeWords ws = .illegal → stalledAt (decodeFault u 0x01 ws) a k = false → step s = .next (issued (decodeFault u 0x01 ws))) ∧
    (∀ i, decodeWords ws = .instr i true → (∀ r ∈ i.roles, w.cur.openName r.vec r.reg = true) → (Instr.privileged i = true → w.cur.priv = true) →
      stalledAt (decodeFault u 0x02 ws) a k = false → step s = .next (issued (decodeFault u 0x02 ws)))) ∧
  (∀ (s : State) (k : Nat) (e : Ev) (rest : List Choice), s.agenda = .event k :: rest → dueEvent s = none → streamHead s.pending k = k →
    s.pending[k]? = some e → step s = settled 1 (exec e.instr { s with agenda := rest, pending := s.pending.eraseIdx k, ev := some e })) ∧
  (∀ (s : State) (k : Nat) (e : Ev), dueEvent s = some k → s.pending[k]? = some e →
    step s = settled 0 (exec e.instr { s with pending := s.pending.eraseIdx k, ev := some e })) ∧
  (∀ (s : State) (a : Nat), s.agenda = [] → dueEvent s = none → pickCore s = some a → (s.turn = false ∨ s.pending = []) →
    step s = step { s with turn := !s.turn, agenda := [.issue a []] }) ∧
  (∀ s : State, s.agenda = [] → dueEvent s = none → s.pending ≠ [] → (s.turn = true ∨ pickCore s = none) →
    step s = step { s with turn := !s.turn, agenda := [.event 0] }) ∧
  (∀ (n : Nat) (s : State), (settle n s).ev = none ∧ (s.ev = none → (settle n s).pending = s.pending) ∧
    (settle n s).time = (if s.mgmt.held then s.time else s.time + BitVec.ofNat 64 n))

/-- R245, R264 to R266, R297, R308, R310, R339: words the manual works out decode to the instructions it says they are. -/
def Obligations.DecodedWordsMeanTheirInstruction : Prop :=
  decodeWords [0xFFE08408#32] = .instr (.addi ⟨4, 4, -8⟩) false ∧
  decodeWords [0x3018850C#32] = .instr (.adda ⟨3, 5, 4, .reg 6, .base⟩) false ∧
  decodeWords [0x001CC520#32] = .instr (.fadd ⟨.f32, .rne, false, 5, 6, 7, .base⟩) false ∧
  decodeWords [0x0100A428#32] = .instr (.beq ⟨4, 4, 5⟩) false ∧
  decodeWords [0x01000030#32] = .instr .ret false ∧
  decodeWords [0x80008750#32] = .instr (.stRel ⟨2, .dev, 0, 4, 7, .base⟩) false ∧
  decodeWords [0x101CC580#32] = .instr (.vadd ⟨.i32, false, 5, 6, 7, .base⟩) false ∧
  decodeWords [0x019CC584#32] = .instr (.vfma ⟨.rne, false, 5, 6, 7, .base⟩) false ∧
  decodeWords [0x000080D6#32, 0, 0] = .instr (.launch ⟨4⟩) false ∧
  decodeWords [0x050005C6#32, 0, 0] = .instr (.mxstat ⟨5⟩) false ∧
  decodeWords [0x001480CA#32, 0, 0] = .instr (.nbcfg ⟨4, 5, 0⟩) false

/-- R237 to R242: the decoder gives back every well-formed instruction that has words, with every operand at every value. -/
def Obligations.EncodedInstructionsDecodeToThemselves : Prop :=
  ∀ i : Instr, i.wf = true → i.encoded = true → decodeWords (encode i) = .instr i false

/-- Log 7: whatever a step does, HBM, host memory and the HBM of checkpoint images stay in their canonical form. -/
def Obligations.MemoryStaysCanonicalInEveryStep : Prop :=
  ∀ s t : State, MemoriesCanonical s → step s = .next t → MemoriesCanonical t

/-- R148, R194, R203: whatever a step does, no context of a cluster core becomes privileged, in the device or in an image of it. -/
def Obligations.PrivilegeStaysOnRidgeCores : Prop :=
  ∀ s t : State, UserCores s → step s = .next t → UserCores t

/-- R246, R188, R204: what reset leaves, the values that R246 gives; the invariants of every step hold there. -/
def Obligations.ResetLeavesWhatTheManualLists : Prop :=
  let s := State.reset
  MemoriesCanonical s ∧ UserCores s ∧
  (∀ a k, (s.ctx a k).st = .free ∧ (s.ctx a k).lane = false) ∧
  (∀ a, let o := s.core a
    o.taskq = [] ∧ o.arrivals = [] ∧ o.refq = [] ∧ o.retry = [] ∧ o.posted = [] ∧ o.overflow = [] ∧ o.nWays = 0 ∧ o.retain = none ∧ o.wcb = [] ∧
      (∀ j, j < 20 → vget o.ways j .live = .cache) ∧ (∀ c, Handler.valid (vget o.handlers c 0) = false) ∧
      (∀ j, (vget o.trapt j 0).getLsbD 127 = false) ∧ (∀ j, Pub.valid (vget o.pubs j 0) = false ∧ Sub.valid (vget o.subs j 0) = false) ∧
      o.gmu.vars = [] ∧ o.gmu.facs = [] ∧ o.hgm = 0 ∧ o.halted = false ∧ o.fdrop = 0 ∧ o.ftsel = 0 ∧
      (∀ j, j < 8 → ∀ x, (vget o.wsets j x).kid = 0xFFFF ∧ ∀ w, w < 4 → ∀ y, (vget (vget o.wsets j x).win w y) = ⟨0, 0⟩)) ∧
  (∀ k, let c := s.clu k
    c.l1 = [] ∧ (∀ q, Qd.en (vget c.qd q 0) = false) ∧ (∀ q, (vget c.bs q 0).getLsbD 63 = false) ∧ c.bufA = [] ∧ c.bufB = [] ∧
      (∀ t, (tileOf c t).conf = none) ∧ c.lease.holder = none ∧ c.stgerr = false ∧ c.fenced = 0 ∧ c.cmds = [] ∧ c.places = [] ∧ c.active = none ∧
      c.tw.run = false) ∧
  (∀ d, let x := s.die d
    x.dsp = 0 ∧ x.skSize = 4 ∧ x.skgen = 0 ∧ x.cec = 0 ∧ x.cethr = 0xFFFFFFFF ∧ x.trig = 0 ∧ x.l2 = [] ∧ x.sark = [] ∧ x.gathers = [] ∧ x.colls = [] ∧
      x.launchq = [] ∧ x.wclu = 0 ∧ x.wslice = 0 ∧ x.wridge = (if d = 0 then 0x80 else 0) ∧ x.running = false) ∧
  (∀ j, Kt.valid (vget s.kt j (0, 0)) = false) ∧ (∀ j, (vget s.wp j (0, 0)) = (0, 0)) ∧ (∀ j, (vget s.mrgn j 0).getLsbD 63 = false) ∧
  (∀ j, vget s.meas j 0 = 0) ∧ (∀ j, vget s.wnb j 0 = 0) ∧ s.thboot = true ∧ s.ptroot = 0 ∧ s.time = 0 ∧ s.dir = [] ∧ s.nbCmds = [] ∧ s.pending = [] ∧
  s.mgmt.bootst = 0 ∧ s.mgmt.held = true
end

