-- ==== Sys2Proof/Laws/Mem.lean ====
section
/-! SUPPORT. Laws of byte memories and sparse tables: what a read gives after a write, and that every operation keeps the canonical form. -/

namespace Sys2Proof

/-! Reads. -/

@[simp] theorem Mem.read_nil (a : Nat) : Mem.read [] a = Mem.dflt := rfl

theorem Mem.read_insert (m : Mem) (a b : Nat) (x : Byte) : Mem.read (Mem.insert m a x) b = if a = b then x else Mem.read m b := by
  induction m with
  | nil => simp [Mem.insert, Mem.read]
  | cons c t ih =>
    obtain ⟨k, y⟩ := c
    simp only [Mem.insert]
    split
    · simp [Mem.read]
    · split
      · subst_vars; simp only [Mem.read]; split <;> rfl
      · simp only [Mem.read, ih]; split
        · subst_vars; split
          · subst_vars; contradiction
          · rfl
        · rfl

theorem Mem.read_filter (m : Mem) (p : Nat → Bool) (b : Nat) :
    Mem.read (List.filter (fun c => p c.1) m) b = if p b then Mem.read m b else Mem.dflt := by
  induction m with
  | nil => simp [Mem.read]
  | cons c t ih =>
    obtain ⟨k, y⟩ := c
    by_cases hk : p k = true
    · simp only [List.filter_cons, hk, if_true, Mem.read, ih]
      split
      · subst_vars; simp [hk]
      · rfl
    · have hk' : p k = false := by simpa using hk
      simp only [List.filter_cons, hk', Bool.false_eq_true, if_false, Mem.read, ih]
      by_cases e : k = b
      · subst_vars; simp [hk']
      · simp [e]

theorem Mem.read_write (m : Mem) (a b : Nat) (x : Byte) : Mem.read (Mem.write m a x) b = if a = b then x else Mem.read m b := by
  unfold Mem.write
  split
  · rename_i h
    rw [Mem.read_filter m (fun k => k != a) b]
    by_cases e : a = b
    · subst_vars; simp
    · simp [e, Ne.symm e]
  · exact Mem.read_insert m a b x

@[simp] theorem Mem.read_write_same (m : Mem) (a : Nat) (x : Byte) : Mem.read (Mem.write m a x) a = x := by simp [Mem.read_write]

theorem Mem.read_write_other (m : Mem) (a b : Nat) (x : Byte) (h : a ≠ b) : Mem.read (Mem.write m a x) b = Mem.read m b := by
  simp [Mem.read_write, h]

/-- After a write of `n` bytes, a byte inside is its part of the value and a byte outside is as before. -/
theorem Mem.read_writeNat (m : Mem) (a n x b : Nat) :
    Mem.read (Mem.writeNat m a n x) b = if a ≤ b ∧ b < a + n then BitVec.ofNat 8 (x / 256 ^ (b - a)) else Mem.read m b := by
  induction n generalizing m a x with
  | zero => simp only [Mem.writeNat]; split <;> [omega; rfl]
  | succ n ih =>
    simp only [Mem.writeNat, ih]
    by_cases e : b = a
    · subst e
      have h' : b ≤ b ∧ b < b + (n + 1) := by omega
      simp [h']
    · by_cases i : a + 1 ≤ b ∧ b < a + 1 + n
      · have i' : a ≤ b ∧ b < a + (n + 1) := by omega
        have q : b - a = (b - (a + 1)) + 1 := by omega
        simp only [i, i', and_self, if_true]
        rw [q, pow_succ, Nat.div_div_eq_div_mul, Nat.mul_comm (256 ^ _) 256]
      · have i' : ¬ (a ≤ b ∧ b < a + (n + 1)) := by omega
        simp only [i, i', if_false]
        exact Mem.read_write_other m a b _ (fun h => e h.symm)

theorem Mem.read_writeNat_outside (m : Mem) (a n x b : Nat) (h : b < a ∨ a + n ≤ b) : Mem.read (Mem.writeNat m a n x) b = Mem.read m b := by
  rw [Mem.read_writeNat]; split <;> [omega; rfl]

/-- A value of `n` bytes is its bytes. -/
theorem Mem.readNat_lt (m : Mem) (a n : Nat) : Mem.readNat m a n < 256 ^ n := by
  induction n generalizing a with
  | zero => simp [Mem.readNat]
  | succ n ih =>
    have h := ih (a + 1)
    have b := (Mem.read m a).isLt
    rw [Mem.readNat, pow_succ]
    omega

theorem Mem.readNat_congr (m m' : Mem) (a n : Nat) (h : ∀ b, a ≤ b → b < a + n → Mem.read m b = Mem.read m' b) :
    Mem.readNat m a n = Mem.readNat m' a n := by
  induction n generalizing a with
  | zero => rfl
  | succ n ih => rw [Mem.readNat, Mem.readNat, h a (by omega) (by omega), ih (a + 1) (fun b p q => h b (by omega) (by omega))]

/-- Reading what was written gives its low bytes. -/
theorem Mem.readNat_writeNat (m : Mem) (a n x : Nat) : Mem.readNat (Mem.writeNat m a n x) a n = x % 256 ^ n := by
  induction n generalizing m a x with
  | zero => simp [Mem.readNat, Nat.mod_one]
  | succ n ih =>
    rw [Mem.readNat, Mem.read_writeNat]
    have h : a ≤ a ∧ a < a + (n + 1) := by omega
    simp only [h, and_self, if_true, Nat.sub_self, pow_zero, Nat.div_one, Mem.writeNat, ih, BitVec.toNat_ofNat]
    have e : (256 : Nat) ^ (n + 1) = 2 ^ 8 * 256 ^ n := by rw [pow_succ, Nat.mul_comm]; norm_num
    rw [e, Nat.mod_mul]; norm_num

theorem Mem.readNat_writeNat_outside (m : Mem) (a n x b k : Nat) (h : b + k ≤ a ∨ a + n ≤ b) :
    Mem.readNat (Mem.writeNat m a n x) b k = Mem.readNat m b k :=
  Mem.readNat_congr _ _ _ _ fun c p q => Mem.read_writeNat_outside m a n x c (by omega)

theorem Mem.read_clear (m : Mem) (a n b : Nat) : Mem.read (Mem.clear m a n) b = if a ≤ b ∧ b < a + n then Mem.dflt else Mem.read m b := by
  unfold Mem.clear
  rw [Mem.read_filter m (fun k => !(decide (a ≤ k) && decide (k < a + n))) b]
  by_cases h : a ≤ b ∧ b < a + n
  · simp [h]
  · have : ¬ (a ≤ b) ∨ ¬ (b < a + n) := by omega
    rcases this with h' | h' <;> simp [h']

theorem Mem.read_slice (m : Mem) (a n b : Nat) : Mem.read (Mem.slice m a n) b = if a ≤ b ∧ b < a + n then Mem.read m b else Mem.dflt := by
  unfold Mem.slice
  rw [Mem.read_filter m (fun k => decide (a ≤ k) && decide (k < a + n)) b]
  by_cases h : a ≤ b ∧ b < a + n
  · simp [h]
  · have : ¬ (a ≤ b) ∨ ¬ (b < a + n) := by omega
    rcases this with h' | h' <;> simp [h']

/-! The canonical form. -/

theorem Mem.wfFrom_mono {lo hi : Nat} {m : Mem} (h : Mem.wfFrom hi m = true) (l : lo ≤ hi) : Mem.wfFrom lo m = true := by
  cases m with
  | nil => rfl
  | cons c t =>
    obtain ⟨k, y⟩ := c
    simp only [Mem.wfFrom, Bool.and_eq_true, decide_eq_true_eq] at h ⊢
    exact ⟨⟨by omega, h.1.2⟩, h.2⟩

theorem Mem.wfFrom_insert {lo : Nat} {m : Mem} (h : Mem.wfFrom lo m = true) (a : Nat) (x : Byte) (l : lo ≤ a) (nz : x ≠ Mem.dflt) :
    Mem.wfFrom lo (Mem.insert m a x) = true := by
  induction m generalizing lo with
  | nil => simp [Mem.insert, Mem.wfFrom, l, nz]
  | cons c t ih =>
    obtain ⟨k, y⟩ := c
    simp only [Mem.wfFrom, Bool.and_eq_true, decide_eq_true_eq] at h
    simp only [Mem.insert]
    split
    · simp only [Mem.wfFrom, Bool.and_eq_true, decide_eq_true_eq, bne_iff_ne]
      exact ⟨⟨l, nz⟩, ⟨by omega, by simpa using h.1.2⟩, h.2⟩
    · split
      · subst_vars
        simp only [Mem.wfFrom, Bool.and_eq_true, decide_eq_true_eq, bne_iff_ne]
        exact ⟨⟨l, nz⟩, h.2⟩
      · simp only [Mem.wfFrom, Bool.and_eq_true, decide_eq_true_eq]
        exact ⟨h.1, ih h.2 (by omega)⟩

theorem Mem.wfFrom_filter {lo : Nat} {m : Mem} (h : Mem.wfFrom lo m = true) (p : Host.Cell → Bool) : Mem.wfFrom lo (List.filter p m) = true := by
  induction m generalizing lo with
  | nil => rfl
  | cons c t ih =>
    obtain ⟨k, y⟩ := c
    simp only [Mem.wfFrom, Bool.and_eq_true, decide_eq_true_eq] at h
    simp only [List.filter_cons]
    split
    · simp only [Mem.wfFrom, Bool.and_eq_true, decide_eq_true_eq]
      exact ⟨h.1, ih h.2⟩
    · exact Mem.wfFrom_mono (ih h.2) (by omega)

@[simp] theorem Mem.wf_nil : Mem.wf [] = true := rfl

theorem Mem.wf_filter {m : Mem} (h : m.wf = true) (p : Host.Cell → Bool) : Mem.wf (List.filter p m) = true := Mem.wfFrom_filter h p

theorem Mem.wf_write {m : Mem} (h : m.wf = true) (a : Nat) (x : Byte) : (m.write a x).wf = true := by
  unfold Mem.write
  split
  · exact Mem.wf_filter h _
  · rename_i nz
    exact Mem.wfFrom_insert h a x (Nat.zero_le a) nz

theorem Mem.wf_writeNat {m : Mem} (h : m.wf = true) (a n x : Nat) : (m.writeNat a n x).wf = true := by
  induction n generalizing m a x with
  | zero => exact h
  | succ n ih => exact ih (Mem.wf_write h _ _) _ _

theorem Mem.wf_writeMaskedFrom {m : Mem} (h : m.wf = true) (a : Nat) (d : Line) (k : Mask) (n : Nat) : (m.writeMaskedFrom a d k n).wf = true := by
  induction n generalizing m with
  | zero => exact h
  | succ n ih =>
    simp only [Mem.writeMaskedFrom]
    split
    · exact ih (Mem.wf_write h _ _)
    · exact ih h

theorem Mem.wf_writeMasked {m : Mem} (h : m.wf = true) (a : Nat) (d : Line) (k : Mask) : (m.writeMasked a d k).wf = true :=
  Mem.wf_writeMaskedFrom h a d k 64

theorem Mem.wf_clear {m : Mem} (h : m.wf = true) (a n : Nat) : (m.clear a n).wf = true := Mem.wf_filter h _

theorem Mem.wf_slice {m : Mem} (h : m.wf = true) (a n : Nat) : (m.slice a n).wf = true := Mem.wf_filter h _

/-- A fold of writes keeps the form. -/
theorem Mem.wf_foldl_write {α : Type} {m : Mem} (h : m.wf = true) (l : List α) (f : Mem → α → Nat) (g : Mem → α → Byte) :
    Mem.wf (l.foldl (fun m q => Mem.write m (f m q) (g m q)) m) = true := by
  induction l generalizing m with
  | nil => exact h
  | cons q t ih => exact ih (Mem.wf_write h _ _)

/-- Equal reads of canonical memories make equal memories. -/
theorem Mem.wfFrom_read_lt {lo : Nat} {m : Mem} (h : Mem.wfFrom lo m = true) (a : Nat) (l : a < lo) : Mem.read m a = Mem.dflt := by
  induction m generalizing lo with
  | nil => rfl
  | cons c t ih =>
    obtain ⟨k, y⟩ := c
    simp only [Mem.wfFrom, Bool.and_eq_true, decide_eq_true_eq] at h
    simp only [Mem.read]
    split
    · omega
    · exact ih h.2 (by omega)

theorem Mem.wfFrom_ext {lo : Nat} {m m' : Mem} (h : Mem.wfFrom lo m = true) (h' : Mem.wfFrom lo m' = true)
    (e : ∀ a, Mem.read m a = Mem.read m' a) : m = m' := by
  induction m generalizing lo m' with
  | nil =>
    cases m' with
    | nil => rfl
    | cons c t =>
      obtain ⟨k, y⟩ := c
      have q := e k
      simp only [Mem.wfFrom, Bool.and_eq_true, decide_eq_true_eq, bne_iff_ne] at h'
      simp [Mem.read] at q
      exact absurd q.symm h'.1.2
  | cons c t ih =>
    obtain ⟨k, y⟩ := c
    simp only [Mem.wfFrom, Bool.and_eq_true, decide_eq_true_eq, bne_iff_ne] at h
    cases m' with
    | nil =>
      have q := e k
      simp [Mem.read] at q
      exact absurd q h.1.2
    | cons c' t' =>
      obtain ⟨k', y'⟩ := c'
      simp only [Mem.wfFrom, Bool.and_eq_true, decide_eq_true_eq, bne_iff_ne] at h'
      have hk : k = k' := by
        rcases Nat.lt_trichotomy k k' with l | l | l
        · have q := e k
          have z := Mem.wfFrom_read_lt h'.2 k (by omega)
          simp only [Mem.read, if_true] at q
          rw [if_neg (by omega), z] at q
          exact absurd q h.1.2
        · exact l
        · have q := e k'
          have z := Mem.wfFrom_read_lt h.2 k' (by omega)
          simp only [Mem.read, if_true] at q
          rw [if_neg (by omega), z] at q
          exact absurd q.symm h'.1.2
      subst hk
      have hy : y = y' := by have q := e k; simpa [Mem.read] using q
      subst hy
      have ht : t = t' := by
        refine ih h.2 h'.2 fun a => ?_
        by_cases ea : k = a
        · subst ea; rw [Mem.wfFrom_read_lt h.2 k (by omega), Mem.wfFrom_read_lt h'.2 k (by omega)]
        · have q := e a; simpa [Mem.read, ea] using q
      rw [ht]

/-- Two canonical memories that read alike are the same list. -/
theorem Mem.ext_read {m m' : Mem} (h : m.wf = true) (h' : m'.wf = true) (e : ∀ a, Mem.read m a = Mem.read m' a) : m = m' :=
  Mem.wfFrom_ext h h' e

theorem reset_memory_wf : Machine.State.reset.hbm.wf = true := rfl

/-! Sparse tables. -/

variable {α : Type}

theorem SMap.find?_set (m : SMap α) (a b : Nat) (x : α) : SMap.find? (SMap.set m a x) b = if a = b then some x else SMap.find? m b := by
  induction m with
  | nil => simp [SMap.set, SMap.find?]
  | cons c t ih =>
    obtain ⟨k, y⟩ := c
    simp only [SMap.set]
    split
    · simp [SMap.find?]
    · split
      · subst_vars; simp only [SMap.find?]; split <;> rfl
      · simp only [SMap.find?, ih]; split
        · subst_vars; split
          · subst_vars; contradiction
          · rfl
        · rfl

theorem SMap.getD_set (m : SMap α) (a b : Nat) (x d : α) : SMap.getD (SMap.set m a x) b d = if a = b then x else SMap.getD m b d := by
  unfold SMap.getD; rw [SMap.find?_set]; split <;> rfl

@[simp] theorem SMap.getD_set_same (m : SMap α) (a : Nat) (x d : α) : SMap.getD (SMap.set m a x) a d = x := by simp [SMap.getD_set]

theorem SMap.mem_set {m : SMap α} {a : Nat} {x : α} {q : Nat × α} (h : q ∈ SMap.set m a x) : q = (a, x) ∨ q ∈ m := by
  induction m with
  | nil => simpa [SMap.set] using h
  | cons c t ih =>
    obtain ⟨k, y⟩ := c
    simp only [SMap.set] at h
    split at h
    · simpa using h
    · split at h
      · rcases List.mem_cons.1 h with r | r
        · exact .inl r
        · exact .inr (List.mem_cons_of_mem _ r)
      · rcases List.mem_cons.1 h with r | r
        · exact .inr (by rw [r]; exact List.mem_cons_self)
        · rcases ih r with r | r
          · exact .inl r
          · exact .inr (List.mem_cons_of_mem _ r)

theorem SMap.find?_erase (m : SMap α) (a b : Nat) : SMap.find? (SMap.erase m a) b = if a = b then none else SMap.find? m b := by
  unfold SMap.erase
  induction m with
  | nil => simp [SMap.find?]
  | cons c t ih =>
    obtain ⟨k, y⟩ := c
    by_cases e : k = a
    · subst e
      simp only [List.filter_cons, bne_self_eq_false, SMap.find?]
      by_cases e' : k = b
      · subst e'; simpa using ih
      · simpa [e'] using ih
    · have e2 : (k != a) = true := by simpa using e
      simp only [List.filter_cons, e2, if_true, SMap.find?, ih]
      by_cases e' : k = b
      · subst e'; simp [Ne.symm e]
      · simp [e']

end Sys2Proof
end

