-- ==== Sys2Proof/Laws/State.lean ====
section
/-! SUPPORT. What each update of the state leaves: one lemma for each field and update, by rfl, and what reading a core, cluster, die or context
gives after one was written. `modCore`, `modClu`, `modDie`, `modCtx` and `setCur` rewrite to the updates they are. -/

namespace Sys2Proof.Machine

@[simp] theorem State.modCore_eq (s : State) (a : Nat) (f : Core → Core) : s.modCore a f = s.setCore a (f (s.core a)) := rfl
@[simp] theorem State.modClu_eq (s : State) (k : Nat) (f : Cluster → Cluster) : s.modClu k f = s.setClu k (f (s.clu k)) := rfl
@[simp] theorem State.modDie_eq (s : State) (d : Nat) (f : Die → Die) : s.modDie d f = s.setDie d (f (s.die d)) := rfl
@[simp] theorem State.modCtx_eq (s : State) (a k : Nat) (f : Ctx → Ctx) : s.modCtx a k f = s.setCtx a k (f (s.ctx a k)) := rfl
@[simp] theorem State.setCur_eq (s : State) (c : Ctx) : s.setCur c = s.setCtx s.curAgent s.curCtx c := rfl

/-! Fields. -/


@[simp] theorem State.setCore_curAgent (s : State) (a : Nat) (c : Core) : (s.setCore a c).curAgent = s.curAgent := rfl
@[simp] theorem State.setCore_curCtx (s : State) (a : Nat) (c : Core) : (s.setCore a c).curCtx = s.curCtx := rfl
@[simp] theorem State.setCore_agenda (s : State) (a : Nat) (c : Core) : (s.setCore a c).agenda = s.agenda := rfl
@[simp] theorem State.setCore_pending (s : State) (a : Nat) (c : Core) : (s.setCore a c).pending = s.pending := rfl
@[simp] theorem State.setCore_ev (s : State) (a : Nat) (c : Core) : (s.setCore a c).ev = s.ev := rfl
@[simp] theorem State.setCore_turn (s : State) (a : Nat) (c : Core) : (s.setCore a c).turn = s.turn := rfl
@[simp] theorem State.setCore_fresh (s : State) (a : Nat) (c : Core) : (s.setCore a c).fresh = s.fresh := rfl
@[simp] theorem State.setCore_time (s : State) (a : Nat) (c : Core) : (s.setCore a c).time = s.time := rfl
@[simp] theorem State.setCore_ptroot (s : State) (a : Nat) (c : Core) : (s.setCore a c).ptroot = s.ptroot := rfl
@[simp] theorem State.setCore_kt (s : State) (a : Nat) (c : Core) : (s.setCore a c).kt = s.kt := rfl
@[simp] theorem State.setCore_wp (s : State) (a : Nat) (c : Core) : (s.setCore a c).wp = s.wp := rfl
@[simp] theorem State.setCore_mrgn (s : State) (a : Nat) (c : Core) : (s.setCore a c).mrgn = s.mrgn := rfl
@[simp] theorem State.setCore_meas (s : State) (a : Nat) (c : Core) : (s.setCore a c).meas = s.meas := rfl
@[simp] theorem State.setCore_svn (s : State) (a : Nat) (c : Core) : (s.setCore a c).svn = s.svn := rfl
@[simp] theorem State.setCore_minSvn (s : State) (a : Nat) (c : Core) : (s.setCore a c).minSvn = s.minSvn := rfl
@[simp] theorem State.setCore_thboot (s : State) (a : Nat) (c : Core) : (s.setCore a c).thboot = s.thboot := rfl
@[simp] theorem State.setCore_wnb (s : State) (a : Nat) (c : Core) : (s.setCore a c).wnb = s.wnb := rfl
@[simp] theorem State.setCore_clusters (s : State) (a : Nat) (c : Core) : (s.setCore a c).clusters = s.clusters := rfl
@[simp] theorem State.setCore_dies (s : State) (a : Nat) (c : Core) : (s.setCore a c).dies = s.dies := rfl
@[simp] theorem State.setCore_lastCore (s : State) (a : Nat) (c : Core) : (s.setCore a c).lastCore = s.lastCore := rfl
@[simp] theorem State.setCore_hgmEng (s : State) (a : Nat) (c : Core) : (s.setCore a c).hgmEng = s.hgmEng := rfl
@[simp] theorem State.setCore_hbm (s : State) (a : Nat) (c : Core) : (s.setCore a c).hbm = s.hbm := rfl
@[simp] theorem State.setCore_wsoFull (s : State) (a : Nat) (c : Core) : (s.setCore a c).wsoFull = s.wsoFull := rfl
@[simp] theorem State.setCore_poison (s : State) (a : Nat) (c : Core) : (s.setCore a c).poison = s.poison := rfl
@[simp] theorem State.setCore_spPoison (s : State) (a : Nat) (c : Core) : (s.setCore a c).spPoison = s.spPoison := rfl
@[simp] theorem State.setCore_dsPoison (s : State) (a : Nat) (c : Core) : (s.setCore a c).dsPoison = s.dsPoison := rfl
@[simp] theorem State.setCore_thatch (s : State) (a : Nat) (c : Core) : (s.setCore a c).thatch = s.thatch := rfl
@[simp] theorem State.setCore_tlb (s : State) (a : Nat) (c : Core) : (s.setCore a c).tlb = s.tlb := rfl
@[simp] theorem State.setCore_dir (s : State) (a : Nat) (c : Core) : (s.setCore a c).dir = s.dir := rfl
@[simp] theorem State.setCore_nbMats (s : State) (a : Nat) (c : Core) : (s.setCore a c).nbMats = s.nbMats := rfl
@[simp] theorem State.setCore_nbCmds (s : State) (a : Nat) (c : Core) : (s.setCore a c).nbCmds = s.nbCmds := rfl
@[simp] theorem State.setCore_nextId (s : State) (a : Nat) (c : Core) : (s.setCore a c).nextId = s.nextId := rfl
@[simp] theorem State.setCore_haltNb (s : State) (a : Nat) (c : Core) : (s.setCore a c).haltNb = s.haltNb := rfl
@[simp] theorem State.setCore_workLists (s : State) (a : Nat) (c : Core) : (s.setCore a c).workLists = s.workLists := rfl
@[simp] theorem State.setCore_links (s : State) (a : Nat) (c : Core) : (s.setCore a c).links = s.links := rfl
@[simp] theorem State.setCore_completions (s : State) (a : Nat) (c : Core) : (s.setCore a c).completions = s.completions := rfl
@[simp] theorem State.setCore_heldRes (s : State) (a : Nat) (c : Core) : (s.setCore a c).heldRes = s.heldRes := rfl
@[simp] theorem State.setCore_engWaits (s : State) (a : Nat) (c : Core) : (s.setCore a c).engWaits = s.engWaits := rfl
@[simp] theorem State.setCore_saves (s : State) (a : Nat) (c : Core) : (s.setCore a c).saves = s.saves := rfl
@[simp] theorem State.setCore_quiesced (s : State) (a : Nat) (c : Core) : (s.setCore a c).quiesced = s.quiesced := rfl
@[simp] theorem State.setCore_tiers (s : State) (a : Nat) (c : Core) : (s.setCore a c).tiers = s.tiers := rfl
@[simp] theorem State.setCore_pages (s : State) (a : Nat) (c : Core) : (s.setCore a c).pages = s.pages := rfl
@[simp] theorem State.setCore_homes (s : State) (a : Nat) (c : Core) : (s.setCore a c).homes = s.homes := rfl
@[simp] theorem State.setCore_moving (s : State) (a : Nat) (c : Core) : (s.setCore a c).moving = s.moving := rfl
@[simp] theorem State.setCore_remote (s : State) (a : Nat) (c : Core) : (s.setCore a c).remote = s.remote := rfl
@[simp] theorem State.setCore_far (s : State) (a : Nat) (c : Core) : (s.setCore a c).far = s.far := rfl
@[simp] theorem State.setCore_portQ (s : State) (a : Nat) (c : Core) : (s.setCore a c).portQ = s.portQ := rfl
@[simp] theorem State.setCore_outbox (s : State) (a : Nat) (c : Core) : (s.setCore a c).outbox = s.outbox := rfl
@[simp] theorem State.setCore_hostMem (s : State) (a : Nat) (c : Core) : (s.setCore a c).hostMem = s.hostMem := rfl
@[simp] theorem State.setCore_hostRetry (s : State) (a : Nat) (c : Core) : (s.setCore a c).hostRetry = s.hostRetry := rfl
@[simp] theorem State.setCore_hostUp (s : State) (a : Nat) (c : Core) : (s.setCore a c).hostUp = s.hostUp := rfl
@[simp] theorem State.setCore_unacked (s : State) (a : Nat) (c : Core) : (s.setCore a c).unacked = s.unacked := rfl
@[simp] theorem State.setCore_lanesUp (s : State) (a : Nat) (c : Core) : (s.setCore a c).lanesUp = s.lanesUp := rfl
@[simp] theorem State.setCore_noPath (s : State) (a : Nat) (c : Core) : (s.setCore a c).noPath = s.noPath := rfl
@[simp] theorem State.setCore_grants (s : State) (a : Nat) (c : Core) : (s.setCore a c).grants = s.grants := rfl
@[simp] theorem State.setCore_stalled (s : State) (a : Nat) (c : Core) : (s.setCore a c).stalled = s.stalled := rfl
@[simp] theorem State.setCore_powerAt (s : State) (a : Nat) (c : Core) : (s.setCore a c).powerAt = s.powerAt := rfl
@[simp] theorem State.setCore_draws (s : State) (a : Nat) (c : Core) : (s.setCore a c).draws = s.draws := rfl
@[simp] theorem State.setCore_mgmt (s : State) (a : Nat) (c : Core) : (s.setCore a c).mgmt = s.mgmt := rfl

@[simp] theorem State.setClu_curAgent (s : State) (k : Nat) (c : Cluster) : (s.setClu k c).curAgent = s.curAgent := rfl
@[simp] theorem State.setClu_curCtx (s : State) (k : Nat) (c : Cluster) : (s.setClu k c).curCtx = s.curCtx := rfl
@[simp] theorem State.setClu_agenda (s : State) (k : Nat) (c : Cluster) : (s.setClu k c).agenda = s.agenda := rfl
@[simp] theorem State.setClu_pending (s : State) (k : Nat) (c : Cluster) : (s.setClu k c).pending = s.pending := rfl
@[simp] theorem State.setClu_ev (s : State) (k : Nat) (c : Cluster) : (s.setClu k c).ev = s.ev := rfl
@[simp] theorem State.setClu_turn (s : State) (k : Nat) (c : Cluster) : (s.setClu k c).turn = s.turn := rfl
@[simp] theorem State.setClu_fresh (s : State) (k : Nat) (c : Cluster) : (s.setClu k c).fresh = s.fresh := rfl
@[simp] theorem State.setClu_time (s : State) (k : Nat) (c : Cluster) : (s.setClu k c).time = s.time := rfl
@[simp] theorem State.setClu_ptroot (s : State) (k : Nat) (c : Cluster) : (s.setClu k c).ptroot = s.ptroot := rfl
@[simp] theorem State.setClu_kt (s : State) (k : Nat) (c : Cluster) : (s.setClu k c).kt = s.kt := rfl
@[simp] theorem State.setClu_wp (s : State) (k : Nat) (c : Cluster) : (s.setClu k c).wp = s.wp := rfl
@[simp] theorem State.setClu_mrgn (s : State) (k : Nat) (c : Cluster) : (s.setClu k c).mrgn = s.mrgn := rfl
@[simp] theorem State.setClu_meas (s : State) (k : Nat) (c : Cluster) : (s.setClu k c).meas = s.meas := rfl
@[simp] theorem State.setClu_svn (s : State) (k : Nat) (c : Cluster) : (s.setClu k c).svn = s.svn := rfl
@[simp] theorem State.setClu_minSvn (s : State) (k : Nat) (c : Cluster) : (s.setClu k c).minSvn = s.minSvn := rfl
@[simp] theorem State.setClu_thboot (s : State) (k : Nat) (c : Cluster) : (s.setClu k c).thboot = s.thboot := rfl
@[simp] theorem State.setClu_wnb (s : State) (k : Nat) (c : Cluster) : (s.setClu k c).wnb = s.wnb := rfl
@[simp] theorem State.setClu_cores (s : State) (k : Nat) (c : Cluster) : (s.setClu k c).cores = s.cores := rfl
@[simp] theorem State.setClu_dies (s : State) (k : Nat) (c : Cluster) : (s.setClu k c).dies = s.dies := rfl
@[simp] theorem State.setClu_lastCore (s : State) (k : Nat) (c : Cluster) : (s.setClu k c).lastCore = s.lastCore := rfl
@[simp] theorem State.setClu_hgmEng (s : State) (k : Nat) (c : Cluster) : (s.setClu k c).hgmEng = s.hgmEng := rfl
@[simp] theorem State.setClu_hbm (s : State) (k : Nat) (c : Cluster) : (s.setClu k c).hbm = s.hbm := rfl
@[simp] theorem State.setClu_wsoFull (s : State) (k : Nat) (c : Cluster) : (s.setClu k c).wsoFull = s.wsoFull := rfl
@[simp] theorem State.setClu_poison (s : State) (k : Nat) (c : Cluster) : (s.setClu k c).poison = s.poison := rfl
@[simp] theorem State.setClu_spPoison (s : State) (k : Nat) (c : Cluster) : (s.setClu k c).spPoison = s.spPoison := rfl
@[simp] theorem State.setClu_dsPoison (s : State) (k : Nat) (c : Cluster) : (s.setClu k c).dsPoison = s.dsPoison := rfl
@[simp] theorem State.setClu_thatch (s : State) (k : Nat) (c : Cluster) : (s.setClu k c).thatch = s.thatch := rfl
@[simp] theorem State.setClu_tlb (s : State) (k : Nat) (c : Cluster) : (s.setClu k c).tlb = s.tlb := rfl
@[simp] theorem State.setClu_dir (s : State) (k : Nat) (c : Cluster) : (s.setClu k c).dir = s.dir := rfl
@[simp] theorem State.setClu_nbMats (s : State) (k : Nat) (c : Cluster) : (s.setClu k c).nbMats = s.nbMats := rfl
@[simp] theorem State.setClu_nbCmds (s : State) (k : Nat) (c : Cluster) : (s.setClu k c).nbCmds = s.nbCmds := rfl
@[simp] theorem State.setClu_nextId (s : State) (k : Nat) (c : Cluster) : (s.setClu k c).nextId = s.nextId := rfl
@[simp] theorem State.setClu_haltNb (s : State) (k : Nat) (c : Cluster) : (s.setClu k c).haltNb = s.haltNb := rfl
@[simp] theorem State.setClu_workLists (s : State) (k : Nat) (c : Cluster) : (s.setClu k c).workLists = s.workLists := rfl
@[simp] theorem State.setClu_links (s : State) (k : Nat) (c : Cluster) : (s.setClu k c).links = s.links := rfl
@[simp] theorem State.setClu_completions (s : State) (k : Nat) (c : Cluster) : (s.setClu k c).completions = s.completions := rfl
@[simp] theorem State.setClu_heldRes (s : State) (k : Nat) (c : Cluster) : (s.setClu k c).heldRes = s.heldRes := rfl
@[simp] theorem State.setClu_engWaits (s : State) (k : Nat) (c : Cluster) : (s.setClu k c).engWaits = s.engWaits := rfl
@[simp] theorem State.setClu_saves (s : State) (k : Nat) (c : Cluster) : (s.setClu k c).saves = s.saves := rfl
@[simp] theorem State.setClu_quiesced (s : State) (k : Nat) (c : Cluster) : (s.setClu k c).quiesced = s.quiesced := rfl
@[simp] theorem State.setClu_tiers (s : State) (k : Nat) (c : Cluster) : (s.setClu k c).tiers = s.tiers := rfl
@[simp] theorem State.setClu_pages (s : State) (k : Nat) (c : Cluster) : (s.setClu k c).pages = s.pages := rfl
@[simp] theorem State.setClu_homes (s : State) (k : Nat) (c : Cluster) : (s.setClu k c).homes = s.homes := rfl
@[simp] theorem State.setClu_moving (s : State) (k : Nat) (c : Cluster) : (s.setClu k c).moving = s.moving := rfl
@[simp] theorem State.setClu_remote (s : State) (k : Nat) (c : Cluster) : (s.setClu k c).remote = s.remote := rfl
@[simp] theorem State.setClu_far (s : State) (k : Nat) (c : Cluster) : (s.setClu k c).far = s.far := rfl
@[simp] theorem State.setClu_portQ (s : State) (k : Nat) (c : Cluster) : (s.setClu k c).portQ = s.portQ := rfl
@[simp] theorem State.setClu_outbox (s : State) (k : Nat) (c : Cluster) : (s.setClu k c).outbox = s.outbox := rfl
@[simp] theorem State.setClu_hostMem (s : State) (k : Nat) (c : Cluster) : (s.setClu k c).hostMem = s.hostMem := rfl
@[simp] theorem State.setClu_hostRetry (s : State) (k : Nat) (c : Cluster) : (s.setClu k c).hostRetry = s.hostRetry := rfl
@[simp] theorem State.setClu_hostUp (s : State) (k : Nat) (c : Cluster) : (s.setClu k c).hostUp = s.hostUp := rfl
@[simp] theorem State.setClu_unacked (s : State) (k : Nat) (c : Cluster) : (s.setClu k c).unacked = s.unacked := rfl
@[simp] theorem State.setClu_lanesUp (s : State) (k : Nat) (c : Cluster) : (s.setClu k c).lanesUp = s.lanesUp := rfl
@[simp] theorem State.setClu_noPath (s : State) (k : Nat) (c : Cluster) : (s.setClu k c).noPath = s.noPath := rfl
@[simp] theorem State.setClu_grants (s : State) (k : Nat) (c : Cluster) : (s.setClu k c).grants = s.grants := rfl
@[simp] theorem State.setClu_stalled (s : State) (k : Nat) (c : Cluster) : (s.setClu k c).stalled = s.stalled := rfl
@[simp] theorem State.setClu_powerAt (s : State) (k : Nat) (c : Cluster) : (s.setClu k c).powerAt = s.powerAt := rfl
@[simp] theorem State.setClu_draws (s : State) (k : Nat) (c : Cluster) : (s.setClu k c).draws = s.draws := rfl
@[simp] theorem State.setClu_mgmt (s : State) (k : Nat) (c : Cluster) : (s.setClu k c).mgmt = s.mgmt := rfl

@[simp] theorem State.setDie_curAgent (s : State) (d : Nat) (x : Die) : (s.setDie d x).curAgent = s.curAgent := rfl
@[simp] theorem State.setDie_curCtx (s : State) (d : Nat) (x : Die) : (s.setDie d x).curCtx = s.curCtx := rfl
@[simp] theorem State.setDie_agenda (s : State) (d : Nat) (x : Die) : (s.setDie d x).agenda = s.agenda := rfl
@[simp] theorem State.setDie_pending (s : State) (d : Nat) (x : Die) : (s.setDie d x).pending = s.pending := rfl
@[simp] theorem State.setDie_ev (s : State) (d : Nat) (x : Die) : (s.setDie d x).ev = s.ev := rfl
@[simp] theorem State.setDie_turn (s : State) (d : Nat) (x : Die) : (s.setDie d x).turn = s.turn := rfl
@[simp] theorem State.setDie_fresh (s : State) (d : Nat) (x : Die) : (s.setDie d x).fresh = s.fresh := rfl
@[simp] theorem State.setDie_time (s : State) (d : Nat) (x : Die) : (s.setDie d x).time = s.time := rfl
@[simp] theorem State.setDie_ptroot (s : State) (d : Nat) (x : Die) : (s.setDie d x).ptroot = s.ptroot := rfl
@[simp] theorem State.setDie_kt (s : State) (d : Nat) (x : Die) : (s.setDie d x).kt = s.kt := rfl
@[simp] theorem State.setDie_wp (s : State) (d : Nat) (x : Die) : (s.setDie d x).wp = s.wp := rfl
@[simp] theorem State.setDie_mrgn (s : State) (d : Nat) (x : Die) : (s.setDie d x).mrgn = s.mrgn := rfl
@[simp] theorem State.setDie_meas (s : State) (d : Nat) (x : Die) : (s.setDie d x).meas = s.meas := rfl
@[simp] theorem State.setDie_svn (s : State) (d : Nat) (x : Die) : (s.setDie d x).svn = s.svn := rfl
@[simp] theorem State.setDie_minSvn (s : State) (d : Nat) (x : Die) : (s.setDie d x).minSvn = s.minSvn := rfl
@[simp] theorem State.setDie_thboot (s : State) (d : Nat) (x : Die) : (s.setDie d x).thboot = s.thboot := rfl
@[simp] theorem State.setDie_wnb (s : State) (d : Nat) (x : Die) : (s.setDie d x).wnb = s.wnb := rfl
@[simp] theorem State.setDie_cores (s : State) (d : Nat) (x : Die) : (s.setDie d x).cores = s.cores := rfl
@[simp] theorem State.setDie_clusters (s : State) (d : Nat) (x : Die) : (s.setDie d x).clusters = s.clusters := rfl
@[simp] theorem State.setDie_lastCore (s : State) (d : Nat) (x : Die) : (s.setDie d x).lastCore = s.lastCore := rfl
@[simp] theorem State.setDie_hgmEng (s : State) (d : Nat) (x : Die) : (s.setDie d x).hgmEng = s.hgmEng := rfl
@[simp] theorem State.setDie_hbm (s : State) (d : Nat) (x : Die) : (s.setDie d x).hbm = s.hbm := rfl
@[simp] theorem State.setDie_wsoFull (s : State) (d : Nat) (x : Die) : (s.setDie d x).wsoFull = s.wsoFull := rfl
@[simp] theorem State.setDie_poison (s : State) (d : Nat) (x : Die) : (s.setDie d x).poison = s.poison := rfl
@[simp] theorem State.setDie_spPoison (s : State) (d : Nat) (x : Die) : (s.setDie d x).spPoison = s.spPoison := rfl
@[simp] theorem State.setDie_dsPoison (s : State) (d : Nat) (x : Die) : (s.setDie d x).dsPoison = s.dsPoison := rfl
@[simp] theorem State.setDie_thatch (s : State) (d : Nat) (x : Die) : (s.setDie d x).thatch = s.thatch := rfl
@[simp] theorem State.setDie_tlb (s : State) (d : Nat) (x : Die) : (s.setDie d x).tlb = s.tlb := rfl
@[simp] theorem State.setDie_dir (s : State) (d : Nat) (x : Die) : (s.setDie d x).dir = s.dir := rfl
@[simp] theorem State.setDie_nbMats (s : State) (d : Nat) (x : Die) : (s.setDie d x).nbMats = s.nbMats := rfl
@[simp] theorem State.setDie_nbCmds (s : State) (d : Nat) (x : Die) : (s.setDie d x).nbCmds = s.nbCmds := rfl
@[simp] theorem State.setDie_nextId (s : State) (d : Nat) (x : Die) : (s.setDie d x).nextId = s.nextId := rfl
@[simp] theorem State.setDie_haltNb (s : State) (d : Nat) (x : Die) : (s.setDie d x).haltNb = s.haltNb := rfl
@[simp] theorem State.setDie_workLists (s : State) (d : Nat) (x : Die) : (s.setDie d x).workLists = s.workLists := rfl
@[simp] theorem State.setDie_links (s : State) (d : Nat) (x : Die) : (s.setDie d x).links = s.links := rfl
@[simp] theorem State.setDie_completions (s : State) (d : Nat) (x : Die) : (s.setDie d x).completions = s.completions := rfl
@[simp] theorem State.setDie_heldRes (s : State) (d : Nat) (x : Die) : (s.setDie d x).heldRes = s.heldRes := rfl
@[simp] theorem State.setDie_engWaits (s : State) (d : Nat) (x : Die) : (s.setDie d x).engWaits = s.engWaits := rfl
@[simp] theorem State.setDie_saves (s : State) (d : Nat) (x : Die) : (s.setDie d x).saves = s.saves := rfl
@[simp] theorem State.setDie_quiesced (s : State) (d : Nat) (x : Die) : (s.setDie d x).quiesced = s.quiesced := rfl
@[simp] theorem State.setDie_tiers (s : State) (d : Nat) (x : Die) : (s.setDie d x).tiers = s.tiers := rfl
@[simp] theorem State.setDie_pages (s : State) (d : Nat) (x : Die) : (s.setDie d x).pages = s.pages := rfl
@[simp] theorem State.setDie_homes (s : State) (d : Nat) (x : Die) : (s.setDie d x).homes = s.homes := rfl
@[simp] theorem State.setDie_moving (s : State) (d : Nat) (x : Die) : (s.setDie d x).moving = s.moving := rfl
@[simp] theorem State.setDie_remote (s : State) (d : Nat) (x : Die) : (s.setDie d x).remote = s.remote := rfl
@[simp] theorem State.setDie_far (s : State) (d : Nat) (x : Die) : (s.setDie d x).far = s.far := rfl
@[simp] theorem State.setDie_portQ (s : State) (d : Nat) (x : Die) : (s.setDie d x).portQ = s.portQ := rfl
@[simp] theorem State.setDie_outbox (s : State) (d : Nat) (x : Die) : (s.setDie d x).outbox = s.outbox := rfl
@[simp] theorem State.setDie_hostMem (s : State) (d : Nat) (x : Die) : (s.setDie d x).hostMem = s.hostMem := rfl
@[simp] theorem State.setDie_hostRetry (s : State) (d : Nat) (x : Die) : (s.setDie d x).hostRetry = s.hostRetry := rfl
@[simp] theorem State.setDie_hostUp (s : State) (d : Nat) (x : Die) : (s.setDie d x).hostUp = s.hostUp := rfl
@[simp] theorem State.setDie_unacked (s : State) (d : Nat) (x : Die) : (s.setDie d x).unacked = s.unacked := rfl
@[simp] theorem State.setDie_lanesUp (s : State) (d : Nat) (x : Die) : (s.setDie d x).lanesUp = s.lanesUp := rfl
@[simp] theorem State.setDie_noPath (s : State) (d : Nat) (x : Die) : (s.setDie d x).noPath = s.noPath := rfl
@[simp] theorem State.setDie_grants (s : State) (d : Nat) (x : Die) : (s.setDie d x).grants = s.grants := rfl
@[simp] theorem State.setDie_stalled (s : State) (d : Nat) (x : Die) : (s.setDie d x).stalled = s.stalled := rfl
@[simp] theorem State.setDie_powerAt (s : State) (d : Nat) (x : Die) : (s.setDie d x).powerAt = s.powerAt := rfl
@[simp] theorem State.setDie_draws (s : State) (d : Nat) (x : Die) : (s.setDie d x).draws = s.draws := rfl
@[simp] theorem State.setDie_mgmt (s : State) (d : Nat) (x : Die) : (s.setDie d x).mgmt = s.mgmt := rfl

@[simp] theorem State.setCtx_curAgent (s : State) (a k : Nat) (c : Ctx) : (s.setCtx a k c).curAgent = s.curAgent := rfl
@[simp] theorem State.setCtx_curCtx (s : State) (a k : Nat) (c : Ctx) : (s.setCtx a k c).curCtx = s.curCtx := rfl
@[simp] theorem State.setCtx_agenda (s : State) (a k : Nat) (c : Ctx) : (s.setCtx a k c).agenda = s.agenda := rfl
@[simp] theorem State.setCtx_pending (s : State) (a k : Nat) (c : Ctx) : (s.setCtx a k c).pending = s.pending := rfl
@[simp] theorem State.setCtx_ev (s : State) (a k : Nat) (c : Ctx) : (s.setCtx a k c).ev = s.ev := rfl
@[simp] theorem State.setCtx_turn (s : State) (a k : Nat) (c : Ctx) : (s.setCtx a k c).turn = s.turn := rfl
@[simp] theorem State.setCtx_fresh (s : State) (a k : Nat) (c : Ctx) : (s.setCtx a k c).fresh = s.fresh := rfl
@[simp] theorem State.setCtx_time (s : State) (a k : Nat) (c : Ctx) : (s.setCtx a k c).time = s.time := rfl
@[simp] theorem State.setCtx_ptroot (s : State) (a k : Nat) (c : Ctx) : (s.setCtx a k c).ptroot = s.ptroot := rfl
@[simp] theorem State.setCtx_kt (s : State) (a k : Nat) (c : Ctx) : (s.setCtx a k c).kt = s.kt := rfl
@[simp] theorem State.setCtx_wp (s : State) (a k : Nat) (c : Ctx) : (s.setCtx a k c).wp = s.wp := rfl
@[simp] theorem State.setCtx_mrgn (s : State) (a k : Nat) (c : Ctx) : (s.setCtx a k c).mrgn = s.mrgn := rfl
@[simp] theorem State.setCtx_meas (s : State) (a k : Nat) (c : Ctx) : (s.setCtx a k c).meas = s.meas := rfl
@[simp] theorem State.setCtx_svn (s : State) (a k : Nat) (c : Ctx) : (s.setCtx a k c).svn = s.svn := rfl
@[simp] theorem State.setCtx_minSvn (s : State) (a k : Nat) (c : Ctx) : (s.setCtx a k c).minSvn = s.minSvn := rfl
@[simp] theorem State.setCtx_thboot (s : State) (a k : Nat) (c : Ctx) : (s.setCtx a k c).thboot = s.thboot := rfl
@[simp] theorem State.setCtx_wnb (s : State) (a k : Nat) (c : Ctx) : (s.setCtx a k c).wnb = s.wnb := rfl
@[simp] theorem State.setCtx_clusters (s : State) (a k : Nat) (c : Ctx) : (s.setCtx a k c).clusters = s.clusters := rfl
@[simp] theorem State.setCtx_dies (s : State) (a k : Nat) (c : Ctx) : (s.setCtx a k c).dies = s.dies := rfl
@[simp] theorem State.setCtx_lastCore (s : State) (a k : Nat) (c : Ctx) : (s.setCtx a k c).lastCore = s.lastCore := rfl
@[simp] theorem State.setCtx_hgmEng (s : State) (a k : Nat) (c : Ctx) : (s.setCtx a k c).hgmEng = s.hgmEng := rfl
@[simp] theorem State.setCtx_hbm (s : State) (a k : Nat) (c : Ctx) : (s.setCtx a k c).hbm = s.hbm := rfl
@[simp] theorem State.setCtx_wsoFull (s : State) (a k : Nat) (c : Ctx) : (s.setCtx a k c).wsoFull = s.wsoFull := rfl
@[simp] theorem State.setCtx_poison (s : State) (a k : Nat) (c : Ctx) : (s.setCtx a k c).poison = s.poison := rfl
@[simp] theorem State.setCtx_spPoison (s : State) (a k : Nat) (c : Ctx) : (s.setCtx a k c).spPoison = s.spPoison := rfl
@[simp] theorem State.setCtx_dsPoison (s : State) (a k : Nat) (c : Ctx) : (s.setCtx a k c).dsPoison = s.dsPoison := rfl
@[simp] theorem State.setCtx_thatch (s : State) (a k : Nat) (c : Ctx) : (s.setCtx a k c).thatch = s.thatch := rfl
@[simp] theorem State.setCtx_tlb (s : State) (a k : Nat) (c : Ctx) : (s.setCtx a k c).tlb = s.tlb := rfl
@[simp] theorem State.setCtx_dir (s : State) (a k : Nat) (c : Ctx) : (s.setCtx a k c).dir = s.dir := rfl
@[simp] theorem State.setCtx_nbMats (s : State) (a k : Nat) (c : Ctx) : (s.setCtx a k c).nbMats = s.nbMats := rfl
@[simp] theorem State.setCtx_nbCmds (s : State) (a k : Nat) (c : Ctx) : (s.setCtx a k c).nbCmds = s.nbCmds := rfl
@[simp] theorem State.setCtx_nextId (s : State) (a k : Nat) (c : Ctx) : (s.setCtx a k c).nextId = s.nextId := rfl
@[simp] theorem State.setCtx_haltNb (s : State) (a k : Nat) (c : Ctx) : (s.setCtx a k c).haltNb = s.haltNb := rfl
@[simp] theorem State.setCtx_workLists (s : State) (a k : Nat) (c : Ctx) : (s.setCtx a k c).workLists = s.workLists := rfl
@[simp] theorem State.setCtx_links (s : State) (a k : Nat) (c : Ctx) : (s.setCtx a k c).links = s.links := rfl
@[simp] theorem State.setCtx_completions (s : State) (a k : Nat) (c : Ctx) : (s.setCtx a k c).completions = s.completions := rfl
@[simp] theorem State.setCtx_heldRes (s : State) (a k : Nat) (c : Ctx) : (s.setCtx a k c).heldRes = s.heldRes := rfl
@[simp] theorem State.setCtx_engWaits (s : State) (a k : Nat) (c : Ctx) : (s.setCtx a k c).engWaits = s.engWaits := rfl
@[simp] theorem State.setCtx_saves (s : State) (a k : Nat) (c : Ctx) : (s.setCtx a k c).saves = s.saves := rfl
@[simp] theorem State.setCtx_quiesced (s : State) (a k : Nat) (c : Ctx) : (s.setCtx a k c).quiesced = s.quiesced := rfl
@[simp] theorem State.setCtx_tiers (s : State) (a k : Nat) (c : Ctx) : (s.setCtx a k c).tiers = s.tiers := rfl
@[simp] theorem State.setCtx_pages (s : State) (a k : Nat) (c : Ctx) : (s.setCtx a k c).pages = s.pages := rfl
@[simp] theorem State.setCtx_homes (s : State) (a k : Nat) (c : Ctx) : (s.setCtx a k c).homes = s.homes := rfl
@[simp] theorem State.setCtx_moving (s : State) (a k : Nat) (c : Ctx) : (s.setCtx a k c).moving = s.moving := rfl
@[simp] theorem State.setCtx_remote (s : State) (a k : Nat) (c : Ctx) : (s.setCtx a k c).remote = s.remote := rfl
@[simp] theorem State.setCtx_far (s : State) (a k : Nat) (c : Ctx) : (s.setCtx a k c).far = s.far := rfl
@[simp] theorem State.setCtx_portQ (s : State) (a k : Nat) (c : Ctx) : (s.setCtx a k c).portQ = s.portQ := rfl
@[simp] theorem State.setCtx_outbox (s : State) (a k : Nat) (c : Ctx) : (s.setCtx a k c).outbox = s.outbox := rfl
@[simp] theorem State.setCtx_hostMem (s : State) (a k : Nat) (c : Ctx) : (s.setCtx a k c).hostMem = s.hostMem := rfl
@[simp] theorem State.setCtx_hostRetry (s : State) (a k : Nat) (c : Ctx) : (s.setCtx a k c).hostRetry = s.hostRetry := rfl
@[simp] theorem State.setCtx_hostUp (s : State) (a k : Nat) (c : Ctx) : (s.setCtx a k c).hostUp = s.hostUp := rfl
@[simp] theorem State.setCtx_unacked (s : State) (a k : Nat) (c : Ctx) : (s.setCtx a k c).unacked = s.unacked := rfl
@[simp] theorem State.setCtx_lanesUp (s : State) (a k : Nat) (c : Ctx) : (s.setCtx a k c).lanesUp = s.lanesUp := rfl
@[simp] theorem State.setCtx_noPath (s : State) (a k : Nat) (c : Ctx) : (s.setCtx a k c).noPath = s.noPath := rfl
@[simp] theorem State.setCtx_grants (s : State) (a k : Nat) (c : Ctx) : (s.setCtx a k c).grants = s.grants := rfl
@[simp] theorem State.setCtx_stalled (s : State) (a k : Nat) (c : Ctx) : (s.setCtx a k c).stalled = s.stalled := rfl
@[simp] theorem State.setCtx_powerAt (s : State) (a k : Nat) (c : Ctx) : (s.setCtx a k c).powerAt = s.powerAt := rfl
@[simp] theorem State.setCtx_draws (s : State) (a k : Nat) (c : Ctx) : (s.setCtx a k c).draws = s.draws := rfl
@[simp] theorem State.setCtx_mgmt (s : State) (a k : Nat) (c : Ctx) : (s.setCtx a k c).mgmt = s.mgmt := rfl

@[simp] theorem State.pend_curAgent (s : State) (e : Ev) : (s.pend e).curAgent = s.curAgent := rfl
@[simp] theorem State.pend_curCtx (s : State) (e : Ev) : (s.pend e).curCtx = s.curCtx := rfl
@[simp] theorem State.pend_agenda (s : State) (e : Ev) : (s.pend e).agenda = s.agenda := rfl
@[simp] theorem State.pend_ev (s : State) (e : Ev) : (s.pend e).ev = s.ev := rfl
@[simp] theorem State.pend_turn (s : State) (e : Ev) : (s.pend e).turn = s.turn := rfl
@[simp] theorem State.pend_fresh (s : State) (e : Ev) : (s.pend e).fresh = s.fresh := rfl
@[simp] theorem State.pend_time (s : State) (e : Ev) : (s.pend e).time = s.time := rfl
@[simp] theorem State.pend_ptroot (s : State) (e : Ev) : (s.pend e).ptroot = s.ptroot := rfl
@[simp] theorem State.pend_kt (s : State) (e : Ev) : (s.pend e).kt = s.kt := rfl
@[simp] theorem State.pend_wp (s : State) (e : Ev) : (s.pend e).wp = s.wp := rfl
@[simp] theorem State.pend_mrgn (s : State) (e : Ev) : (s.pend e).mrgn = s.mrgn := rfl
@[simp] theorem State.pend_meas (s : State) (e : Ev) : (s.pend e).meas = s.meas := rfl
@[simp] theorem State.pend_svn (s : State) (e : Ev) : (s.pend e).svn = s.svn := rfl
@[simp] theorem State.pend_minSvn (s : State) (e : Ev) : (s.pend e).minSvn = s.minSvn := rfl
@[simp] theorem State.pend_thboot (s : State) (e : Ev) : (s.pend e).thboot = s.thboot := rfl
@[simp] theorem State.pend_wnb (s : State) (e : Ev) : (s.pend e).wnb = s.wnb := rfl
@[simp] theorem State.pend_cores (s : State) (e : Ev) : (s.pend e).cores = s.cores := rfl
@[simp] theorem State.pend_clusters (s : State) (e : Ev) : (s.pend e).clusters = s.clusters := rfl
@[simp] theorem State.pend_dies (s : State) (e : Ev) : (s.pend e).dies = s.dies := rfl
@[simp] theorem State.pend_lastCore (s : State) (e : Ev) : (s.pend e).lastCore = s.lastCore := rfl
@[simp] theorem State.pend_hgmEng (s : State) (e : Ev) : (s.pend e).hgmEng = s.hgmEng := rfl
@[simp] theorem State.pend_hbm (s : State) (e : Ev) : (s.pend e).hbm = s.hbm := rfl
@[simp] theorem State.pend_wsoFull (s : State) (e : Ev) : (s.pend e).wsoFull = s.wsoFull := rfl
@[simp] theorem State.pend_poison (s : State) (e : Ev) : (s.pend e).poison = s.poison := rfl
@[simp] theorem State.pend_spPoison (s : State) (e : Ev) : (s.pend e).spPoison = s.spPoison := rfl
@[simp] theorem State.pend_dsPoison (s : State) (e : Ev) : (s.pend e).dsPoison = s.dsPoison := rfl
@[simp] theorem State.pend_thatch (s : State) (e : Ev) : (s.pend e).thatch = s.thatch := rfl
@[simp] theorem State.pend_tlb (s : State) (e : Ev) : (s.pend e).tlb = s.tlb := rfl
@[simp] theorem State.pend_dir (s : State) (e : Ev) : (s.pend e).dir = s.dir := rfl
@[simp] theorem State.pend_nbMats (s : State) (e : Ev) : (s.pend e).nbMats = s.nbMats := rfl
@[simp] theorem State.pend_nbCmds (s : State) (e : Ev) : (s.pend e).nbCmds = s.nbCmds := rfl
@[simp] theorem State.pend_nextId (s : State) (e : Ev) : (s.pend e).nextId = s.nextId := rfl
@[simp] theorem State.pend_haltNb (s : State) (e : Ev) : (s.pend e).haltNb = s.haltNb := rfl
@[simp] theorem State.pend_workLists (s : State) (e : Ev) : (s.pend e).workLists = s.workLists := rfl
@[simp] theorem State.pend_links (s : State) (e : Ev) : (s.pend e).links = s.links := rfl
@[simp] theorem State.pend_completions (s : State) (e : Ev) : (s.pend e).completions = s.completions := rfl
@[simp] theorem State.pend_heldRes (s : State) (e : Ev) : (s.pend e).heldRes = s.heldRes := rfl
@[simp] theorem State.pend_engWaits (s : State) (e : Ev) : (s.pend e).engWaits = s.engWaits := rfl
@[simp] theorem State.pend_saves (s : State) (e : Ev) : (s.pend e).saves = s.saves := rfl
@[simp] theorem State.pend_quiesced (s : State) (e : Ev) : (s.pend e).quiesced = s.quiesced := rfl
@[simp] theorem State.pend_tiers (s : State) (e : Ev) : (s.pend e).tiers = s.tiers := rfl
@[simp] theorem State.pend_pages (s : State) (e : Ev) : (s.pend e).pages = s.pages := rfl
@[simp] theorem State.pend_homes (s : State) (e : Ev) : (s.pend e).homes = s.homes := rfl
@[simp] theorem State.pend_moving (s : State) (e : Ev) : (s.pend e).moving = s.moving := rfl
@[simp] theorem State.pend_remote (s : State) (e : Ev) : (s.pend e).remote = s.remote := rfl
@[simp] theorem State.pend_far (s : State) (e : Ev) : (s.pend e).far = s.far := rfl
@[simp] theorem State.pend_portQ (s : State) (e : Ev) : (s.pend e).portQ = s.portQ := rfl
@[simp] theorem State.pend_outbox (s : State) (e : Ev) : (s.pend e).outbox = s.outbox := rfl
@[simp] theorem State.pend_hostMem (s : State) (e : Ev) : (s.pend e).hostMem = s.hostMem := rfl
@[simp] theorem State.pend_hostRetry (s : State) (e : Ev) : (s.pend e).hostRetry = s.hostRetry := rfl
@[simp] theorem State.pend_hostUp (s : State) (e : Ev) : (s.pend e).hostUp = s.hostUp := rfl
@[simp] theorem State.pend_unacked (s : State) (e : Ev) : (s.pend e).unacked = s.unacked := rfl
@[simp] theorem State.pend_lanesUp (s : State) (e : Ev) : (s.pend e).lanesUp = s.lanesUp := rfl
@[simp] theorem State.pend_noPath (s : State) (e : Ev) : (s.pend e).noPath = s.noPath := rfl
@[simp] theorem State.pend_grants (s : State) (e : Ev) : (s.pend e).grants = s.grants := rfl
@[simp] theorem State.pend_stalled (s : State) (e : Ev) : (s.pend e).stalled = s.stalled := rfl
@[simp] theorem State.pend_powerAt (s : State) (e : Ev) : (s.pend e).powerAt = s.powerAt := rfl
@[simp] theorem State.pend_draws (s : State) (e : Ev) : (s.pend e).draws = s.draws := rfl
@[simp] theorem State.pend_mgmt (s : State) (e : Ev) : (s.pend e).mgmt = s.mgmt := rfl
@[simp] theorem State.pend_pending (s : State) (e : Ev) : (s.pend e).pending = s.pending ++ [e] := rfl

/-! Cores, clusters, dies and contexts. -/

theorem State.core_setCore (s : State) (a b : Nat) (c : Core) : (s.setCore a c).core b = if a = b then c else s.core b :=
  SMap.getD_set s.cores a b c Core.reset
@[simp] theorem State.core_setCore_same (s : State) (a : Nat) (c : Core) : (s.setCore a c).core a = c := by simp [State.core_setCore]
theorem State.core_setCore_other (s : State) (a b : Nat) (c : Core) (h : a ≠ b) : (s.setCore a c).core b = s.core b := by simp [State.core_setCore, h]
theorem State.clu_setClu (s : State) (a b : Nat) (c : Cluster) : (s.setClu a c).clu b = if a = b then c else s.clu b :=
  SMap.getD_set s.clusters a b c Cluster.reset
@[simp] theorem State.clu_setClu_same (s : State) (a : Nat) (c : Cluster) : (s.setClu a c).clu a = c := by simp [State.clu_setClu]
theorem State.clu_setClu_other (s : State) (a b : Nat) (c : Cluster) (h : a ≠ b) : (s.setClu a c).clu b = s.clu b := by simp [State.clu_setClu, h]
theorem State.die_setDie (s : State) (a b : Nat) (x : Die) : (s.setDie a x).die b = if a = b then x else s.die b :=
  SMap.getD_set s.dies a b x Die.reset
@[simp] theorem State.die_setDie_same (s : State) (a : Nat) (x : Die) : (s.setDie a x).die a = x := by simp [State.die_setDie]
theorem State.die_setDie_other (s : State) (a b : Nat) (x : Die) (h : a ≠ b) : (s.setDie a x).die b = s.die b := by simp [State.die_setDie, h]
@[simp] theorem State.core_setClu (s : State) (k b : Nat) (c : Cluster) : (s.setClu k c).core b = s.core b := rfl
@[simp] theorem State.core_setDie (s : State) (d b : Nat) (x : Die) : (s.setDie d x).core b = s.core b := rfl
@[simp] theorem State.core_pend (s : State) (e : Ev) (b : Nat) : (s.pend e).core b = s.core b := rfl
@[simp] theorem State.clu_setCore (s : State) (a b : Nat) (c : Core) : (s.setCore a c).clu b = s.clu b := rfl
@[simp] theorem State.clu_setDie (s : State) (d b : Nat) (x : Die) : (s.setDie d x).clu b = s.clu b := rfl
@[simp] theorem State.clu_setCtx (s : State) (a k b : Nat) (c : Ctx) : (s.setCtx a k c).clu b = s.clu b := rfl
@[simp] theorem State.clu_pend (s : State) (e : Ev) (b : Nat) : (s.pend e).clu b = s.clu b := rfl
@[simp] theorem State.die_setCore (s : State) (a b : Nat) (c : Core) : (s.setCore a c).die b = s.die b := rfl
@[simp] theorem State.die_setClu (s : State) (k b : Nat) (c : Cluster) : (s.setClu k c).die b = s.die b := rfl
@[simp] theorem State.die_setCtx (s : State) (a k b : Nat) (c : Ctx) : (s.setCtx a k c).die b = s.die b := rfl
@[simp] theorem State.die_pend (s : State) (e : Ev) (b : Nat) : (s.pend e).die b = s.die b := rfl
@[simp] theorem State.ctx_setClu (s : State) (k a j : Nat) (c : Cluster) : (s.setClu k c).ctx a j = s.ctx a j := rfl
@[simp] theorem State.ctx_setDie (s : State) (d a j : Nat) (x : Die) : (s.setDie d x).ctx a j = s.ctx a j := rfl
@[simp] theorem State.ctx_pend (s : State) (e : Ev) (a j : Nat) : (s.pend e).ctx a j = s.ctx a j := rfl
@[simp] theorem State.cur_pend (s : State) (e : Ev) : (s.pend e).cur = s.cur := rfl
@[simp] theorem State.cur_setClu (s : State) (k : Nat) (c : Cluster) : (s.setClu k c).cur = s.cur := rfl
@[simp] theorem State.cur_setDie (s : State) (d : Nat) (x : Die) : (s.setDie d x).cur = s.cur := rfl

theorem vget_vset {α : Type} {n : Nat} (v : Vector α n) (i j : Nat) (x d : α) :
    vget (vset v i x) j d = if i = j ∧ i < n then x else vget v j d := by
  unfold vget vset
  by_cases h : i = j
  · subst h
    by_cases l : i < n
    · simp [l]
    · simp [l]
  · rw [Vector.getElem?_setIfInBounds_ne h]; simp [h]

theorem State.core_setCtx (s : State) (a k b : Nat) (c : Ctx) :
    (s.setCtx a k c).core b = if a = b then { s.core a with ctxs := vset (s.core a).ctxs k c } else s.core b :=
  State.core_setCore s a b _

theorem State.ctx_setCtx (s : State) (a k b j : Nat) (c : Ctx) :
    (s.setCtx a k c).ctx b j = if a = b ∧ k = j ∧ k < 8 then c else s.ctx b j := by
  unfold State.ctx
  rw [State.core_setCtx]
  by_cases h : a = b
  · subst h
    simp only [if_true, vget_vset, true_and]
  · simp [h]

/-- A context written is read back. -/
theorem State.ctx_setCtx_same (s : State) (a k : Nat) (c : Ctx) (h : k < 8) : (s.setCtx a k c).ctx a k = c := by simp [State.ctx_setCtx, h]
theorem State.ctx_setCtx_other (s : State) (a k b j : Nat) (c : Ctx) (h : a ≠ b ∨ k ≠ j) : (s.setCtx a k c).ctx b j = s.ctx b j := by
  rw [State.ctx_setCtx]; split
  · rename_i e; rcases h with h | h
    · exact absurd e.1 h
    · exact absurd e.2.1 h
  · rfl
theorem State.cur_setCur (s : State) (c : Ctx) (h : s.curCtx < 8) : (s.setCur c).cur = c := State.ctx_setCtx_same s s.curAgent s.curCtx c h

@[simp] theorem State.core_setCtx_ways (s : State) (a k b : Nat) (c : Ctx) : ((s.setCtx a k c).core b).ways = (s.core b).ways := by
  rw [State.core_setCtx]; split <;> [(subst_vars; rfl); rfl]
@[simp] theorem State.core_setCtx_nWays (s : State) (a k b : Nat) (c : Ctx) : ((s.setCtx a k c).core b).nWays = (s.core b).nWays := by
  rw [State.core_setCtx]; split <;> [(subst_vars; rfl); rfl]
@[simp] theorem State.core_setCtx_retain (s : State) (a k b : Nat) (c : Ctx) : ((s.setCtx a k c).core b).retain = (s.core b).retain := by
  rw [State.core_setCtx]; split <;> [(subst_vars; rfl); rfl]
@[simp] theorem State.core_setCtx_spad (s : State) (a k b : Nat) (c : Ctx) : ((s.setCtx a k c).core b).spad = (s.core b).spad := by
  rw [State.core_setCtx]; split <;> [(subst_vars; rfl); rfl]
@[simp] theorem State.core_setCtx_lanes (s : State) (a k b : Nat) (c : Ctx) : ((s.setCtx a k c).core b).lanes = (s.core b).lanes := by
  rw [State.core_setCtx]; split <;> [(subst_vars; rfl); rfl]
@[simp] theorem State.core_setCtx_wcb (s : State) (a k b : Nat) (c : Ctx) : ((s.setCtx a k c).core b).wcb = (s.core b).wcb := by
  rw [State.core_setCtx]; split <;> [(subst_vars; rfl); rfl]
@[simp] theorem State.core_setCtx_handlers (s : State) (a k b : Nat) (c : Ctx) : ((s.setCtx a k c).core b).handlers = (s.core b).handlers := by
  rw [State.core_setCtx]; split <;> [(subst_vars; rfl); rfl]
@[simp] theorem State.core_setCtx_arrivals (s : State) (a k b : Nat) (c : Ctx) : ((s.setCtx a k c).core b).arrivals = (s.core b).arrivals := by
  rw [State.core_setCtx]; split <;> [(subst_vars; rfl); rfl]
@[simp] theorem State.core_setCtx_refq (s : State) (a k b : Nat) (c : Ctx) : ((s.setCtx a k c).core b).refq = (s.core b).refq := by
  rw [State.core_setCtx]; split <;> [(subst_vars; rfl); rfl]
@[simp] theorem State.core_setCtx_resv (s : State) (a k b : Nat) (c : Ctx) : ((s.setCtx a k c).core b).resv = (s.core b).resv := by
  rw [State.core_setCtx]; split <;> [(subst_vars; rfl); rfl]
@[simp] theorem State.core_setCtx_retry (s : State) (a k b : Nat) (c : Ctx) : ((s.setCtx a k c).core b).retry = (s.core b).retry := by
  rw [State.core_setCtx]; split <;> [(subst_vars; rfl); rfl]
@[simp] theorem State.core_setCtx_taskq (s : State) (a k b : Nat) (c : Ctx) : ((s.setCtx a k c).core b).taskq = (s.core b).taskq := by
  rw [State.core_setCtx]; split <;> [(subst_vars; rfl); rfl]
@[simp] theorem State.core_setCtx_lastSel (s : State) (a k b : Nat) (c : Ctx) : ((s.setCtx a k c).core b).lastSel = (s.core b).lastSel := by
  rw [State.core_setCtx]; split <;> [(subst_vars; rfl); rfl]
@[simp] theorem State.core_setCtx_lastCtx (s : State) (a k b : Nat) (c : Ctx) : ((s.setCtx a k c).core b).lastCtx = (s.core b).lastCtx := by
  rw [State.core_setCtx]; split <;> [(subst_vars; rfl); rfl]
@[simp] theorem State.core_setCtx_posted (s : State) (a k b : Nat) (c : Ctx) : ((s.setCtx a k c).core b).posted = (s.core b).posted := by
  rw [State.core_setCtx]; split <;> [(subst_vars; rfl); rfl]
@[simp] theorem State.core_setCtx_overflow (s : State) (a k b : Nat) (c : Ctx) : ((s.setCtx a k c).core b).overflow = (s.core b).overflow := by
  rw [State.core_setCtx]; split <;> [(subst_vars; rfl); rfl]
@[simp] theorem State.core_setCtx_pubs (s : State) (a k b : Nat) (c : Ctx) : ((s.setCtx a k c).core b).pubs = (s.core b).pubs := by
  rw [State.core_setCtx]; split <;> [(subst_vars; rfl); rfl]
@[simp] theorem State.core_setCtx_subs (s : State) (a k b : Nat) (c : Ctx) : ((s.setCtx a k c).core b).subs = (s.core b).subs := by
  rw [State.core_setCtx]; split <;> [(subst_vars; rfl); rfl]
@[simp] theorem State.core_setCtx_pubPend (s : State) (a k b : Nat) (c : Ctx) : ((s.setCtx a k c).core b).pubPend = (s.core b).pubPend := by
  rw [State.core_setCtx]; split <;> [(subst_vars; rfl); rfl]
@[simp] theorem State.core_setCtx_notifies (s : State) (a k b : Nat) (c : Ctx) : ((s.setCtx a k c).core b).notifies = (s.core b).notifies := by
  rw [State.core_setCtx]; split <;> [(subst_vars; rfl); rfl]
@[simp] theorem State.core_setCtx_gmu (s : State) (a k b : Nat) (c : Ctx) : ((s.setCtx a k c).core b).gmu = (s.core b).gmu := by
  rw [State.core_setCtx]; split <;> [(subst_vars; rfl); rfl]
@[simp] theorem State.core_setCtx_wsets (s : State) (a k b : Nat) (c : Ctx) : ((s.setCtx a k c).core b).wsets = (s.core b).wsets := by
  rw [State.core_setCtx]; split <;> [(subst_vars; rfl); rfl]
@[simp] theorem State.core_setCtx_hgm (s : State) (a k b : Nat) (c : Ctx) : ((s.setCtx a k c).core b).hgm = (s.core b).hgm := by
  rw [State.core_setCtx]; split <;> [(subst_vars; rfl); rfl]
@[simp] theorem State.core_setCtx_halted (s : State) (a k b : Nat) (c : Ctx) : ((s.setCtx a k c).core b).halted = (s.core b).halted := by
  rw [State.core_setCtx]; split <;> [(subst_vars; rfl); rfl]
@[simp] theorem State.core_setCtx_held (s : State) (a k b : Nat) (c : Ctx) : ((s.setCtx a k c).core b).held = (s.core b).held := by
  rw [State.core_setCtx]; split <;> [(subst_vars; rfl); rfl]
@[simp] theorem State.core_setCtx_trapt (s : State) (a k b : Nat) (c : Ctx) : ((s.setCtx a k c).core b).trapt = (s.core b).trapt := by
  rw [State.core_setCtx]; split <;> [(subst_vars; rfl); rfl]
@[simp] theorem State.core_setCtx_fdrop (s : State) (a k b : Nat) (c : Ctx) : ((s.setCtx a k c).core b).fdrop = (s.core b).fdrop := by
  rw [State.core_setCtx]; split <;> [(subst_vars; rfl); rfl]
@[simp] theorem State.core_setCtx_ftsel (s : State) (a k b : Nat) (c : Ctx) : ((s.setCtx a k c).core b).ftsel = (s.core b).ftsel := by
  rw [State.core_setCtx]; split <;> [(subst_vars; rfl); rfl]

/-! Fields of a context. -/

@[simp] theorem Ctx.wG_st (c : Ctx) (r : Reg) (x : Word) (t : Bool) : (c.wG r x t).st = c.st := by unfold Ctx.wG; split <;> rfl
@[simp] theorem Ctx.wG_v (c : Ctx) (r : Reg) (x : Word) (t : Bool) : (c.wG r x t).v = c.v := by unfold Ctx.wG; split <;> rfl
@[simp] theorem Ctx.wG_vFull (c : Ctx) (r : Reg) (x : Word) (t : Bool) : (c.wG r x t).vFull = c.vFull := by unfold Ctx.wG; split <;> rfl
@[simp] theorem Ctx.wG_vTaint (c : Ctx) (r : Reg) (x : Word) (t : Bool) : (c.wG r x t).vTaint = c.vTaint := by unfold Ctx.wG; split <;> rfl
@[simp] theorem Ctx.wG_pc (c : Ctx) (r : Reg) (x : Word) (t : Bool) : (c.wG r x t).pc = c.pc := by unfold Ctx.wG; split <;> rfl
@[simp] theorem Ctx.wG_flags (c : Ctx) (r : Reg) (x : Word) (t : Bool) : (c.wG r x t).flags = c.flags := by unfold Ctx.wG; split <;> rfl
@[simp] theorem Ctx.wG_gOpen (c : Ctx) (r : Reg) (x : Word) (t : Bool) : (c.wG r x t).gOpen = c.gOpen := by unfold Ctx.wG; split <;> rfl
@[simp] theorem Ctx.wG_vOpen (c : Ctx) (r : Reg) (x : Word) (t : Bool) : (c.wG r x t).vOpen = c.vOpen := by unfold Ctx.wG; split <;> rfl
@[simp] theorem Ctx.wG_scopes (c : Ctx) (r : Reg) (x : Word) (t : Bool) : (c.wG r x t).scopes = c.scopes := by unfold Ctx.wG; split <;> rfl
@[simp] theorem Ctx.wG_win (c : Ctx) (r : Reg) (x : Word) (t : Bool) : (c.wG r x t).win = c.win := by unfold Ctx.wG; split <;> rfl
@[simp] theorem Ctx.wG_task (c : Ctx) (r : Reg) (x : Word) (t : Bool) : (c.wG r x t).task = c.task := by unfold Ctx.wG; split <;> rfl
@[simp] theorem Ctx.wG_kid (c : Ctx) (r : Reg) (x : Word) (t : Bool) : (c.wG r x t).kid = c.kid := by unfold Ctx.wG; split <;> rfl
@[simp] theorem Ctx.wG_world (c : Ctx) (r : Reg) (x : Word) (t : Bool) : (c.wG r x t).world = c.world := by unfold Ctx.wG; split <;> rfl
@[simp] theorem Ctx.wG_base (c : Ctx) (r : Reg) (x : Word) (t : Bool) : (c.wG r x t).base = c.base := by unfold Ctx.wG; split <;> rfl
@[simp] theorem Ctx.wG_prio (c : Ctx) (r : Reg) (x : Word) (t : Bool) : (c.wG r x t).prio = c.prio := by unfold Ctx.wG; split <;> rfl
@[simp] theorem Ctx.wG_stage (c : Ctx) (r : Reg) (x : Word) (t : Bool) : (c.wG r x t).stage = c.stage := by unfold Ctx.wG; split <;> rfl
@[simp] theorem Ctx.wG_priv (c : Ctx) (r : Reg) (x : Word) (t : Bool) : (c.wG r x t).priv = c.priv := by unfold Ctx.wG; split <;> rfl
@[simp] theorem Ctx.wG_chan (c : Ctx) (r : Reg) (x : Word) (t : Bool) : (c.wG r x t).chan = c.chan := by unfold Ctx.wG; split <;> rfl
@[simp] theorem Ctx.wG_join (c : Ctx) (r : Reg) (x : Word) (t : Bool) : (c.wG r x t).join = c.join := by unfold Ctx.wG; split <;> rfl
@[simp] theorem Ctx.wG_joinScope (c : Ctx) (r : Reg) (x : Word) (t : Bool) : (c.wG r x t).joinScope = c.joinScope := by unfold Ctx.wG; split <;> rfl
@[simp] theorem Ctx.wG_parent (c : Ctx) (r : Reg) (x : Word) (t : Bool) : (c.wG r x t).parent = c.parent := by unfold Ctx.wG; split <;> rfl
@[simp] theorem Ctx.wG_launch (c : Ctx) (r : Reg) (x : Word) (t : Bool) : (c.wG r x t).launch = c.launch := by unfold Ctx.wG; split <;> rfl
@[simp] theorem Ctx.wG_claim (c : Ctx) (r : Reg) (x : Word) (t : Bool) : (c.wG r x t).claim = c.claim := by unfold Ctx.wG; split <;> rfl
@[simp] theorem Ctx.wG_lane (c : Ctx) (r : Reg) (x : Word) (t : Bool) : (c.wG r x t).lane = c.lane := by unfold Ctx.wG; split <;> rfl
@[simp] theorem Ctx.wG_serial (c : Ctx) (r : Reg) (x : Word) (t : Bool) : (c.wG r x t).serial = c.serial := by unfold Ctx.wG; split <;> rfl
@[simp] theorem Ctx.wG_wait (c : Ctx) (r : Reg) (x : Word) (t : Bool) : (c.wG r x t).wait = c.wait := by unfold Ctx.wG; split <;> rfl
@[simp] theorem Ctx.wG_served (c : Ctx) (r : Reg) (x : Word) (t : Bool) : (c.wG r x t).served = c.served := by unfold Ctx.wG; split <;> rfl
@[simp] theorem Ctx.wG_ldcs (c : Ctx) (r : Reg) (x : Word) (t : Bool) : (c.wG r x t).ldcs = c.ldcs := by unfold Ctx.wG; split <;> rfl
@[simp] theorem Ctx.wG_frozenBy (c : Ctx) (r : Reg) (x : Word) (t : Bool) : (c.wG r x t).frozenBy = c.frozenBy := by unfold Ctx.wG; split <;> rfl
@[simp] theorem Ctx.wG_yielded (c : Ctx) (r : Reg) (x : Word) (t : Bool) : (c.wG r x t).yielded = c.yielded := by unfold Ctx.wG; split <;> rfl
@[simp] theorem Ctx.wG_jumped (c : Ctx) (r : Reg) (x : Word) (t : Bool) : (c.wG r x t).jumped = c.jumped := by unfold Ctx.wG; split <;> rfl
@[simp] theorem Ctx.wG_recent (c : Ctx) (r : Reg) (x : Word) (t : Bool) : (c.wG r x t).recent = c.recent := by unfold Ctx.wG; split <;> rfl
@[simp] theorem Ctx.wG_vsp (c : Ctx) (r : Reg) (x : Word) (t : Bool) : (c.wG r x t).vsp = c.vsp := by unfold Ctx.wG; split <;> rfl

@[simp] theorem Ctx.wV_st (c : Ctx) (r : Reg) (x : Line) (t : Bool) : (c.wV r x t).st = c.st := rfl
@[simp] theorem Ctx.wV_g (c : Ctx) (r : Reg) (x : Line) (t : Bool) : (c.wV r x t).g = c.g := rfl
@[simp] theorem Ctx.wV_gFull (c : Ctx) (r : Reg) (x : Line) (t : Bool) : (c.wV r x t).gFull = c.gFull := rfl
@[simp] theorem Ctx.wV_gTaint (c : Ctx) (r : Reg) (x : Line) (t : Bool) : (c.wV r x t).gTaint = c.gTaint := rfl
@[simp] theorem Ctx.wV_pc (c : Ctx) (r : Reg) (x : Line) (t : Bool) : (c.wV r x t).pc = c.pc := rfl
@[simp] theorem Ctx.wV_flags (c : Ctx) (r : Reg) (x : Line) (t : Bool) : (c.wV r x t).flags = c.flags := rfl
@[simp] theorem Ctx.wV_gOpen (c : Ctx) (r : Reg) (x : Line) (t : Bool) : (c.wV r x t).gOpen = c.gOpen := rfl
@[simp] theorem Ctx.wV_vOpen (c : Ctx) (r : Reg) (x : Line) (t : Bool) : (c.wV r x t).vOpen = c.vOpen := rfl
@[simp] theorem Ctx.wV_scopes (c : Ctx) (r : Reg) (x : Line) (t : Bool) : (c.wV r x t).scopes = c.scopes := rfl
@[simp] theorem Ctx.wV_win (c : Ctx) (r : Reg) (x : Line) (t : Bool) : (c.wV r x t).win = c.win := rfl
@[simp] theorem Ctx.wV_task (c : Ctx) (r : Reg) (x : Line) (t : Bool) : (c.wV r x t).task = c.task := rfl
@[simp] theorem Ctx.wV_kid (c : Ctx) (r : Reg) (x : Line) (t : Bool) : (c.wV r x t).kid = c.kid := rfl
@[simp] theorem Ctx.wV_world (c : Ctx) (r : Reg) (x : Line) (t : Bool) : (c.wV r x t).world = c.world := rfl
@[simp] theorem Ctx.wV_base (c : Ctx) (r : Reg) (x : Line) (t : Bool) : (c.wV r x t).base = c.base := rfl
@[simp] theorem Ctx.wV_prio (c : Ctx) (r : Reg) (x : Line) (t : Bool) : (c.wV r x t).prio = c.prio := rfl
@[simp] theorem Ctx.wV_stage (c : Ctx) (r : Reg) (x : Line) (t : Bool) : (c.wV r x t).stage = c.stage := rfl
@[simp] theorem Ctx.wV_priv (c : Ctx) (r : Reg) (x : Line) (t : Bool) : (c.wV r x t).priv = c.priv := rfl
@[simp] theorem Ctx.wV_chan (c : Ctx) (r : Reg) (x : Line) (t : Bool) : (c.wV r x t).chan = c.chan := rfl
@[simp] theorem Ctx.wV_join (c : Ctx) (r : Reg) (x : Line) (t : Bool) : (c.wV r x t).join = c.join := rfl
@[simp] theorem Ctx.wV_joinScope (c : Ctx) (r : Reg) (x : Line) (t : Bool) : (c.wV r x t).joinScope = c.joinScope := rfl
@[simp] theorem Ctx.wV_parent (c : Ctx) (r : Reg) (x : Line) (t : Bool) : (c.wV r x t).parent = c.parent := rfl
@[simp] theorem Ctx.wV_launch (c : Ctx) (r : Reg) (x : Line) (t : Bool) : (c.wV r x t).launch = c.launch := rfl
@[simp] theorem Ctx.wV_claim (c : Ctx) (r : Reg) (x : Line) (t : Bool) : (c.wV r x t).claim = c.claim := rfl
@[simp] theorem Ctx.wV_lane (c : Ctx) (r : Reg) (x : Line) (t : Bool) : (c.wV r x t).lane = c.lane := rfl
@[simp] theorem Ctx.wV_serial (c : Ctx) (r : Reg) (x : Line) (t : Bool) : (c.wV r x t).serial = c.serial := rfl
@[simp] theorem Ctx.wV_wait (c : Ctx) (r : Reg) (x : Line) (t : Bool) : (c.wV r x t).wait = c.wait := rfl
@[simp] theorem Ctx.wV_served (c : Ctx) (r : Reg) (x : Line) (t : Bool) : (c.wV r x t).served = c.served := rfl
@[simp] theorem Ctx.wV_ldcs (c : Ctx) (r : Reg) (x : Line) (t : Bool) : (c.wV r x t).ldcs = c.ldcs := rfl
@[simp] theorem Ctx.wV_frozenBy (c : Ctx) (r : Reg) (x : Line) (t : Bool) : (c.wV r x t).frozenBy = c.frozenBy := rfl
@[simp] theorem Ctx.wV_yielded (c : Ctx) (r : Reg) (x : Line) (t : Bool) : (c.wV r x t).yielded = c.yielded := rfl
@[simp] theorem Ctx.wV_jumped (c : Ctx) (r : Reg) (x : Line) (t : Bool) : (c.wV r x t).jumped = c.jumped := rfl
@[simp] theorem Ctx.wV_recent (c : Ctx) (r : Reg) (x : Line) (t : Bool) : (c.wV r x t).recent = c.recent := rfl
@[simp] theorem Ctx.wV_vsp (c : Ctx) (r : Reg) (x : Line) (t : Bool) : (c.wV r x t).vsp = c.vsp := rfl

@[simp] theorem Ctx.emptyG_st (c : Ctx) (r : Reg) : (c.emptyG r).st = c.st := by unfold Ctx.emptyG; split <;> rfl
@[simp] theorem Ctx.emptyG_g (c : Ctx) (r : Reg) : (c.emptyG r).g = c.g := by unfold Ctx.emptyG; split <;> rfl
@[simp] theorem Ctx.emptyG_v (c : Ctx) (r : Reg) : (c.emptyG r).v = c.v := by unfold Ctx.emptyG; split <;> rfl
@[simp] theorem Ctx.emptyG_vFull (c : Ctx) (r : Reg) : (c.emptyG r).vFull = c.vFull := by unfold Ctx.emptyG; split <;> rfl
@[simp] theorem Ctx.emptyG_gTaint (c : Ctx) (r : Reg) : (c.emptyG r).gTaint = c.gTaint := by unfold Ctx.emptyG; split <;> rfl
@[simp] theorem Ctx.emptyG_vTaint (c : Ctx) (r : Reg) : (c.emptyG r).vTaint = c.vTaint := by unfold Ctx.emptyG; split <;> rfl
@[simp] theorem Ctx.emptyG_pc (c : Ctx) (r : Reg) : (c.emptyG r).pc = c.pc := by unfold Ctx.emptyG; split <;> rfl
@[simp] theorem Ctx.emptyG_flags (c : Ctx) (r : Reg) : (c.emptyG r).flags = c.flags := by unfold Ctx.emptyG; split <;> rfl
@[simp] theorem Ctx.emptyG_gOpen (c : Ctx) (r : Reg) : (c.emptyG r).gOpen = c.gOpen := by unfold Ctx.emptyG; split <;> rfl
@[simp] theorem Ctx.emptyG_vOpen (c : Ctx) (r : Reg) : (c.emptyG r).vOpen = c.vOpen := by unfold Ctx.emptyG; split <;> rfl
@[simp] theorem Ctx.emptyG_scopes (c : Ctx) (r : Reg) : (c.emptyG r).scopes = c.scopes := by unfold Ctx.emptyG; split <;> rfl
@[simp] theorem Ctx.emptyG_win (c : Ctx) (r : Reg) : (c.emptyG r).win = c.win := by unfold Ctx.emptyG; split <;> rfl
@[simp] theorem Ctx.emptyG_task (c : Ctx) (r : Reg) : (c.emptyG r).task = c.task := by unfold Ctx.emptyG; split <;> rfl
@[simp] theorem Ctx.emptyG_kid (c : Ctx) (r : Reg) : (c.emptyG r).kid = c.kid := by unfold Ctx.emptyG; split <;> rfl
@[simp] theorem Ctx.emptyG_world (c : Ctx) (r : Reg) : (c.emptyG r).world = c.world := by unfold Ctx.emptyG; split <;> rfl
@[simp] theorem Ctx.emptyG_base (c : Ctx) (r : Reg) : (c.emptyG r).base = c.base := by unfold Ctx.emptyG; split <;> rfl
@[simp] theorem Ctx.emptyG_prio (c : Ctx) (r : Reg) : (c.emptyG r).prio = c.prio := by unfold Ctx.emptyG; split <;> rfl
@[simp] theorem Ctx.emptyG_stage (c : Ctx) (r : Reg) : (c.emptyG r).stage = c.stage := by unfold Ctx.emptyG; split <;> rfl
@[simp] theorem Ctx.emptyG_priv (c : Ctx) (r : Reg) : (c.emptyG r).priv = c.priv := by unfold Ctx.emptyG; split <;> rfl
@[simp] theorem Ctx.emptyG_chan (c : Ctx) (r : Reg) : (c.emptyG r).chan = c.chan := by unfold Ctx.emptyG; split <;> rfl
@[simp] theorem Ctx.emptyG_join (c : Ctx) (r : Reg) : (c.emptyG r).join = c.join := by unfold Ctx.emptyG; split <;> rfl
@[simp] theorem Ctx.emptyG_joinScope (c : Ctx) (r : Reg) : (c.emptyG r).joinScope = c.joinScope := by unfold Ctx.emptyG; split <;> rfl
@[simp] theorem Ctx.emptyG_parent (c : Ctx) (r : Reg) : (c.emptyG r).parent = c.parent := by unfold Ctx.emptyG; split <;> rfl
@[simp] theorem Ctx.emptyG_launch (c : Ctx) (r : Reg) : (c.emptyG r).launch = c.launch := by unfold Ctx.emptyG; split <;> rfl
@[simp] theorem Ctx.emptyG_claim (c : Ctx) (r : Reg) : (c.emptyG r).claim = c.claim := by unfold Ctx.emptyG; split <;> rfl
@[simp] theorem Ctx.emptyG_lane (c : Ctx) (r : Reg) : (c.emptyG r).lane = c.lane := by unfold Ctx.emptyG; split <;> rfl
@[simp] theorem Ctx.emptyG_serial (c : Ctx) (r : Reg) : (c.emptyG r).serial = c.serial := by unfold Ctx.emptyG; split <;> rfl
@[simp] theorem Ctx.emptyG_wait (c : Ctx) (r : Reg) : (c.emptyG r).wait = c.wait := by unfold Ctx.emptyG; split <;> rfl
@[simp] theorem Ctx.emptyG_served (c : Ctx) (r : Reg) : (c.emptyG r).served = c.served := by unfold Ctx.emptyG; split <;> rfl
@[simp] theorem Ctx.emptyG_ldcs (c : Ctx) (r : Reg) : (c.emptyG r).ldcs = c.ldcs := by unfold Ctx.emptyG; split <;> rfl
@[simp] theorem Ctx.emptyG_frozenBy (c : Ctx) (r : Reg) : (c.emptyG r).frozenBy = c.frozenBy := by unfold Ctx.emptyG; split <;> rfl
@[simp] theorem Ctx.emptyG_yielded (c : Ctx) (r : Reg) : (c.emptyG r).yielded = c.yielded := by unfold Ctx.emptyG; split <;> rfl
@[simp] theorem Ctx.emptyG_jumped (c : Ctx) (r : Reg) : (c.emptyG r).jumped = c.jumped := by unfold Ctx.emptyG; split <;> rfl
@[simp] theorem Ctx.emptyG_recent (c : Ctx) (r : Reg) : (c.emptyG r).recent = c.recent := by unfold Ctx.emptyG; split <;> rfl
@[simp] theorem Ctx.emptyG_vsp (c : Ctx) (r : Reg) : (c.emptyG r).vsp = c.vsp := by unfold Ctx.emptyG; split <;> rfl

@[simp] theorem Ctx.emptyV_st (c : Ctx) (r : Reg) : (c.emptyV r).st = c.st := rfl
@[simp] theorem Ctx.emptyV_g (c : Ctx) (r : Reg) : (c.emptyV r).g = c.g := rfl
@[simp] theorem Ctx.emptyV_v (c : Ctx) (r : Reg) : (c.emptyV r).v = c.v := rfl
@[simp] theorem Ctx.emptyV_gFull (c : Ctx) (r : Reg) : (c.emptyV r).gFull = c.gFull := rfl
@[simp] theorem Ctx.emptyV_gTaint (c : Ctx) (r : Reg) : (c.emptyV r).gTaint = c.gTaint := rfl
@[simp] theorem Ctx.emptyV_vTaint (c : Ctx) (r : Reg) : (c.emptyV r).vTaint = c.vTaint := rfl
@[simp] theorem Ctx.emptyV_pc (c : Ctx) (r : Reg) : (c.emptyV r).pc = c.pc := rfl
@[simp] theorem Ctx.emptyV_flags (c : Ctx) (r : Reg) : (c.emptyV r).flags = c.flags := rfl
@[simp] theorem Ctx.emptyV_gOpen (c : Ctx) (r : Reg) : (c.emptyV r).gOpen = c.gOpen := rfl
@[simp] theorem Ctx.emptyV_vOpen (c : Ctx) (r : Reg) : (c.emptyV r).vOpen = c.vOpen := rfl
@[simp] theorem Ctx.emptyV_scopes (c : Ctx) (r : Reg) : (c.emptyV r).scopes = c.scopes := rfl
@[simp] theorem Ctx.emptyV_win (c : Ctx) (r : Reg) : (c.emptyV r).win = c.win := rfl
@[simp] theorem Ctx.emptyV_task (c : Ctx) (r : Reg) : (c.emptyV r).task = c.task := rfl
@[simp] theorem Ctx.emptyV_kid (c : Ctx) (r : Reg) : (c.emptyV r).kid = c.kid := rfl
@[simp] theorem Ctx.emptyV_world (c : Ctx) (r : Reg) : (c.emptyV r).world = c.world := rfl
@[simp] theorem Ctx.emptyV_base (c : Ctx) (r : Reg) : (c.emptyV r).base = c.base := rfl
@[simp] theorem Ctx.emptyV_prio (c : Ctx) (r : Reg) : (c.emptyV r).prio = c.prio := rfl
@[simp] theorem Ctx.emptyV_stage (c : Ctx) (r : Reg) : (c.emptyV r).stage = c.stage := rfl
@[simp] theorem Ctx.emptyV_priv (c : Ctx) (r : Reg) : (c.emptyV r).priv = c.priv := rfl
@[simp] theorem Ctx.emptyV_chan (c : Ctx) (r : Reg) : (c.emptyV r).chan = c.chan := rfl
@[simp] theorem Ctx.emptyV_join (c : Ctx) (r : Reg) : (c.emptyV r).join = c.join := rfl
@[simp] theorem Ctx.emptyV_joinScope (c : Ctx) (r : Reg) : (c.emptyV r).joinScope = c.joinScope := rfl
@[simp] theorem Ctx.emptyV_parent (c : Ctx) (r : Reg) : (c.emptyV r).parent = c.parent := rfl
@[simp] theorem Ctx.emptyV_launch (c : Ctx) (r : Reg) : (c.emptyV r).launch = c.launch := rfl
@[simp] theorem Ctx.emptyV_claim (c : Ctx) (r : Reg) : (c.emptyV r).claim = c.claim := rfl
@[simp] theorem Ctx.emptyV_lane (c : Ctx) (r : Reg) : (c.emptyV r).lane = c.lane := rfl
@[simp] theorem Ctx.emptyV_serial (c : Ctx) (r : Reg) : (c.emptyV r).serial = c.serial := rfl
@[simp] theorem Ctx.emptyV_wait (c : Ctx) (r : Reg) : (c.emptyV r).wait = c.wait := rfl
@[simp] theorem Ctx.emptyV_served (c : Ctx) (r : Reg) : (c.emptyV r).served = c.served := rfl
@[simp] theorem Ctx.emptyV_ldcs (c : Ctx) (r : Reg) : (c.emptyV r).ldcs = c.ldcs := rfl
@[simp] theorem Ctx.emptyV_frozenBy (c : Ctx) (r : Reg) : (c.emptyV r).frozenBy = c.frozenBy := rfl
@[simp] theorem Ctx.emptyV_yielded (c : Ctx) (r : Reg) : (c.emptyV r).yielded = c.yielded := rfl
@[simp] theorem Ctx.emptyV_jumped (c : Ctx) (r : Reg) : (c.emptyV r).jumped = c.jumped := rfl
@[simp] theorem Ctx.emptyV_recent (c : Ctx) (r : Reg) : (c.emptyV r).recent = c.recent := rfl
@[simp] theorem Ctx.emptyV_vsp (c : Ctx) (r : Reg) : (c.emptyV r).vsp = c.vsp := rfl

@[simp] theorem Ctx.orFlags_st (c : Ctx) (x : Word) : (c.orFlags x).st = c.st := rfl
@[simp] theorem Ctx.orFlags_g (c : Ctx) (x : Word) : (c.orFlags x).g = c.g := rfl
@[simp] theorem Ctx.orFlags_v (c : Ctx) (x : Word) : (c.orFlags x).v = c.v := rfl
@[simp] theorem Ctx.orFlags_gFull (c : Ctx) (x : Word) : (c.orFlags x).gFull = c.gFull := rfl
@[simp] theorem Ctx.orFlags_vFull (c : Ctx) (x : Word) : (c.orFlags x).vFull = c.vFull := rfl
@[simp] theorem Ctx.orFlags_gTaint (c : Ctx) (x : Word) : (c.orFlags x).gTaint = c.gTaint := rfl
@[simp] theorem Ctx.orFlags_vTaint (c : Ctx) (x : Word) : (c.orFlags x).vTaint = c.vTaint := rfl
@[simp] theorem Ctx.orFlags_pc (c : Ctx) (x : Word) : (c.orFlags x).pc = c.pc := rfl
@[simp] theorem Ctx.orFlags_gOpen (c : Ctx) (x : Word) : (c.orFlags x).gOpen = c.gOpen := rfl
@[simp] theorem Ctx.orFlags_vOpen (c : Ctx) (x : Word) : (c.orFlags x).vOpen = c.vOpen := rfl
@[simp] theorem Ctx.orFlags_scopes (c : Ctx) (x : Word) : (c.orFlags x).scopes = c.scopes := rfl
@[simp] theorem Ctx.orFlags_win (c : Ctx) (x : Word) : (c.orFlags x).win = c.win := rfl
@[simp] theorem Ctx.orFlags_task (c : Ctx) (x : Word) : (c.orFlags x).task = c.task := rfl
@[simp] theorem Ctx.orFlags_kid (c : Ctx) (x : Word) : (c.orFlags x).kid = c.kid := rfl
@[simp] theorem Ctx.orFlags_world (c : Ctx) (x : Word) : (c.orFlags x).world = c.world := rfl
@[simp] theorem Ctx.orFlags_base (c : Ctx) (x : Word) : (c.orFlags x).base = c.base := rfl
@[simp] theorem Ctx.orFlags_prio (c : Ctx) (x : Word) : (c.orFlags x).prio = c.prio := rfl
@[simp] theorem Ctx.orFlags_stage (c : Ctx) (x : Word) : (c.orFlags x).stage = c.stage := rfl
@[simp] theorem Ctx.orFlags_priv (c : Ctx) (x : Word) : (c.orFlags x).priv = c.priv := rfl
@[simp] theorem Ctx.orFlags_chan (c : Ctx) (x : Word) : (c.orFlags x).chan = c.chan := rfl
@[simp] theorem Ctx.orFlags_join (c : Ctx) (x : Word) : (c.orFlags x).join = c.join := rfl
@[simp] theorem Ctx.orFlags_joinScope (c : Ctx) (x : Word) : (c.orFlags x).joinScope = c.joinScope := rfl
@[simp] theorem Ctx.orFlags_parent (c : Ctx) (x : Word) : (c.orFlags x).parent = c.parent := rfl
@[simp] theorem Ctx.orFlags_launch (c : Ctx) (x : Word) : (c.orFlags x).launch = c.launch := rfl
@[simp] theorem Ctx.orFlags_claim (c : Ctx) (x : Word) : (c.orFlags x).claim = c.claim := rfl
@[simp] theorem Ctx.orFlags_lane (c : Ctx) (x : Word) : (c.orFlags x).lane = c.lane := rfl
@[simp] theorem Ctx.orFlags_serial (c : Ctx) (x : Word) : (c.orFlags x).serial = c.serial := rfl
@[simp] theorem Ctx.orFlags_wait (c : Ctx) (x : Word) : (c.orFlags x).wait = c.wait := rfl
@[simp] theorem Ctx.orFlags_served (c : Ctx) (x : Word) : (c.orFlags x).served = c.served := rfl
@[simp] theorem Ctx.orFlags_ldcs (c : Ctx) (x : Word) : (c.orFlags x).ldcs = c.ldcs := rfl
@[simp] theorem Ctx.orFlags_frozenBy (c : Ctx) (x : Word) : (c.orFlags x).frozenBy = c.frozenBy := rfl
@[simp] theorem Ctx.orFlags_yielded (c : Ctx) (x : Word) : (c.orFlags x).yielded = c.yielded := rfl
@[simp] theorem Ctx.orFlags_jumped (c : Ctx) (x : Word) : (c.orFlags x).jumped = c.jumped := rfl
@[simp] theorem Ctx.orFlags_recent (c : Ctx) (x : Word) : (c.orFlags x).recent = c.recent := rfl
@[simp] theorem Ctx.orFlags_vsp (c : Ctx) (x : Word) : (c.orFlags x).vsp = c.vsp := rfl

@[simp] theorem Ctx.past_st (c : Ctx) (i : Instr) : (c.past i).st = c.st := rfl
@[simp] theorem Ctx.past_g (c : Ctx) (i : Instr) : (c.past i).g = c.g := rfl
@[simp] theorem Ctx.past_v (c : Ctx) (i : Instr) : (c.past i).v = c.v := rfl
@[simp] theorem Ctx.past_gFull (c : Ctx) (i : Instr) : (c.past i).gFull = c.gFull := rfl
@[simp] theorem Ctx.past_vFull (c : Ctx) (i : Instr) : (c.past i).vFull = c.vFull := rfl
@[simp] theorem Ctx.past_gTaint (c : Ctx) (i : Instr) : (c.past i).gTaint = c.gTaint := rfl
@[simp] theorem Ctx.past_vTaint (c : Ctx) (i : Instr) : (c.past i).vTaint = c.vTaint := rfl
@[simp] theorem Ctx.past_flags (c : Ctx) (i : Instr) : (c.past i).flags = c.flags := rfl
@[simp] theorem Ctx.past_gOpen (c : Ctx) (i : Instr) : (c.past i).gOpen = c.gOpen := rfl
@[simp] theorem Ctx.past_vOpen (c : Ctx) (i : Instr) : (c.past i).vOpen = c.vOpen := rfl
@[simp] theorem Ctx.past_scopes (c : Ctx) (i : Instr) : (c.past i).scopes = c.scopes := rfl
@[simp] theorem Ctx.past_win (c : Ctx) (i : Instr) : (c.past i).win = c.win := rfl
@[simp] theorem Ctx.past_task (c : Ctx) (i : Instr) : (c.past i).task = c.task := rfl
@[simp] theorem Ctx.past_kid (c : Ctx) (i : Instr) : (c.past i).kid = c.kid := rfl
@[simp] theorem Ctx.past_world (c : Ctx) (i : Instr) : (c.past i).world = c.world := rfl
@[simp] theorem Ctx.past_base (c : Ctx) (i : Instr) : (c.past i).base = c.base := rfl
@[simp] theorem Ctx.past_prio (c : Ctx) (i : Instr) : (c.past i).prio = c.prio := rfl
@[simp] theorem Ctx.past_stage (c : Ctx) (i : Instr) : (c.past i).stage = c.stage := rfl
@[simp] theorem Ctx.past_priv (c : Ctx) (i : Instr) : (c.past i).priv = c.priv := rfl
@[simp] theorem Ctx.past_chan (c : Ctx) (i : Instr) : (c.past i).chan = c.chan := rfl
@[simp] theorem Ctx.past_join (c : Ctx) (i : Instr) : (c.past i).join = c.join := rfl
@[simp] theorem Ctx.past_joinScope (c : Ctx) (i : Instr) : (c.past i).joinScope = c.joinScope := rfl
@[simp] theorem Ctx.past_parent (c : Ctx) (i : Instr) : (c.past i).parent = c.parent := rfl
@[simp] theorem Ctx.past_launch (c : Ctx) (i : Instr) : (c.past i).launch = c.launch := rfl
@[simp] theorem Ctx.past_claim (c : Ctx) (i : Instr) : (c.past i).claim = c.claim := rfl
@[simp] theorem Ctx.past_lane (c : Ctx) (i : Instr) : (c.past i).lane = c.lane := rfl
@[simp] theorem Ctx.past_serial (c : Ctx) (i : Instr) : (c.past i).serial = c.serial := rfl
@[simp] theorem Ctx.past_served (c : Ctx) (i : Instr) : (c.past i).served = c.served := rfl
@[simp] theorem Ctx.past_ldcs (c : Ctx) (i : Instr) : (c.past i).ldcs = c.ldcs := rfl
@[simp] theorem Ctx.past_frozenBy (c : Ctx) (i : Instr) : (c.past i).frozenBy = c.frozenBy := rfl
@[simp] theorem Ctx.past_yielded (c : Ctx) (i : Instr) : (c.past i).yielded = c.yielded := rfl
@[simp] theorem Ctx.past_jumped (c : Ctx) (i : Instr) : (c.past i).jumped = c.jumped := rfl

@[simp] theorem Ctx.past_wait (c : Ctx) (i : Instr) : (c.past i).wait = none := rfl
@[simp] theorem Ctx.past_pc (c : Ctx) (i : Instr) : (c.past i).pc = c.pc + BitVec.ofNat 64 (Instr.bytes i) := rfl
@[simp] theorem Ctx.orFlags_flags (c : Ctx) (x : Word) : (c.orFlags x).flags = c.flags ||| x := rfl

/-! Registers. -/

@[simp] theorem Ctx.rG_zero (c : Ctx) : c.rG 0 = 0 := rfl
/-- g0 takes no write; another register reads what was written. -/
theorem Ctx.rG_wG (c : Ctx) (r q : Reg) (x : Word) (t : Bool) : (c.wG r x t).rG q = if r = q ∧ r ≠ 0 then x else c.rG q := by
  unfold Ctx.wG Ctx.rG
  by_cases z : r = 0
  · simp [z]
  · simp only [z, if_false, vget_vset]
    by_cases e : r = q
    · subst e; have l : r.toNat < 32 := r.isLt
      simp only [l, if_true, z, not_false_eq_true, and_self, ne_eq, if_false]
    · have e' : ¬ (r.toNat = q.toNat) := fun h => e (BitVec.eq_of_toNat_eq h)
      simp [e, e']
theorem Ctx.rV_wV (c : Ctx) (r q : Reg) (x : Line) (t : Bool) : (c.wV r x t).rV q = if r = q then x else c.rV q := by
  unfold Ctx.wV Ctx.rV
  simp only [vget_vset]
  by_cases e : r = q
  · subst e; have l : r.toNat < 32 := r.isLt
    simp [l]
  · have e' : ¬ (r.toNat = q.toNat) := fun h => e (BitVec.eq_of_toNat_eq h)
    simp [e, e']
@[simp] theorem Ctx.rG_wV (c : Ctx) (r q : Reg) (x : Line) (t : Bool) : (c.wV r x t).rG q = c.rG q := rfl
@[simp] theorem Ctx.rV_wG (c : Ctx) (r q : Reg) (x : Word) (t : Bool) : (c.wG r x t).rV q = c.rV q := by unfold Ctx.wG; split <;> rfl
@[simp] theorem Ctx.rG_past (c : Ctx) (i : Instr) (q : Reg) : (c.past i).rG q = c.rG q := rfl
@[simp] theorem Ctx.rV_past (c : Ctx) (i : Instr) (q : Reg) : (c.past i).rV q = c.rV q := rfl
@[simp] theorem Ctx.rG_orFlags (c : Ctx) (x : Word) (q : Reg) : (c.orFlags x).rG q = c.rG q := rfl
@[simp] theorem Ctx.rV_orFlags (c : Ctx) (x : Word) (q : Reg) : (c.orFlags x).rV q = c.rV q := rfl
@[simp] theorem Ctx.rG_emptyG (c : Ctx) (r q : Reg) : (c.emptyG r).rG q = c.rG q := by unfold Ctx.emptyG; split <;> rfl
@[simp] theorem Ctx.rV_emptyV (c : Ctx) (r q : Reg) : (c.emptyV r).rV q = c.rV q := rfl

end Sys2Proof.Machine
end

