-- ==== Sys2Proof/Laws/Ops.lean ====
section
/-! SUPPORT. What the shared operations can do: issuing, waiting, taking a fault, an access, a landing, completing, and the step around them. -/

namespace Sys2Proof.Machine

/-! Answers. -/

@[simp] theorem answer_eq (s : State) : answer s = .next s := rfl

theorem answer_next {s t : State} (h : answer s = .next t) : t = s := by injection h with h; exact h.symm

theorem answer_not_refused (s : State) (r : Refusal) : answer s ≠ .refused r := nofun

/-- Nothing stops the model with a fault. -/
theorem out_not_fault (o : Out) (f : Fault) : o ≠ .fault f := nomatch f

/-! Issue. -/

theorem not_or_imp (p q : Bool) : (!p || q) = true ↔ (p = true → q = true) := by cases p <;> simp

theorem ready_iff (i : Instr) (s : State) : readyB i s = true ↔ Ready i s := by
  simp only [readyB, Ready, and_assoc, Bool.and_eq_true, not_or_imp, List.all_eq_true]

theorem ready_of {i : Instr} {s : State} : readyB i s = true → Ready i s := (ready_iff i s).mp

/-- What stops an instruction that is ready: nothing. -/
theorem gate_pass {i : Instr} {s : State} (h : Ready i s) : gate i s.cur = .pass := by
  have named : ∀ r ∈ i.roles, ¬ (!s.cur.openName r.vec r.reg) = true := fun r m => by rw [(h.2.2.2 r m).1]; exact nofun
  have full : ∀ r ∈ i.roles, (r.src || r.dst) = true → s.cur.fullR r = true := fun r m => (h.2.2.2 r m).2
  have may : ¬ (Instr.privileged i && !s.cur.priv) = true := fun q => by
    have q := Bool.and_eq_true_iff.mp q
    rw [h.2.2.1 q.1] at q
    exact nomatch q.2
  have eset : i.roles.find? (fun r => r.src && eSet i r && !s.cur.fullR r) = none := List.find?_eq_none.mpr fun r m q => by
    cases e : r.src <;> simp_all
  unfold gate
  rw [if_neg (mt List.any_eq_true.mp fun ⟨r, m, q⟩ => named r m q), if_neg may, h.2.1, if_neg nofun, eset]
  exact if_neg (mt List.any_eq_true.mp fun ⟨r, m, q⟩ => by
    have q := Bool.and_eq_true_iff.mp q
    rw [full r m q.1] at q
    exact nomatch q.2)

/-- A ready instruction has its effect. -/
theorem issue_ready {i : Instr} {s : State} (h : Ready i s) (k : Ctx → State) : issue i s k = answer (k s.cur) := by
  unfold issue
  simp only [h.1, gate_pass h, Bool.not_true, Bool.false_eq_true, if_false]

theorem issueReg_ready {i : Instr} {s : State} (h : Ready i s) (k : Ctx → Ctx) : issueReg i s k = .next (s.setCur ((k s.cur).past i)) := by
  unfold issueReg
  rw [issue_ready h]; rfl

/-- Everything an issue can do: nothing, a freeze by a check, a wait for a register, or the effect. -/
theorem issue_cases (i : Instr) (s : State) (k : Ctx → State) :
    (s.cur.canIssue = false ∧ issue i s k = .next s) ∨
    (∃ code info, gate i s.cur = .fault code info ∧ issue i s k = answer (faultCur i s { code := code, info := info })) ∨
    (gate i s.cur = .wait ∧ issue i s k = answer (waitFor s .retry)) ∨ (gate i s.cur = .pass ∧ issue i s k = answer (k s.cur)) := by
  unfold issue
  by_cases c : s.cur.canIssue = true
  · simp only [c, Bool.not_true, Bool.false_eq_true, if_false]
    cases g : gate i s.cur with
    | pass => simp
    | wait => simp
    | fault code info => simp
  · rw [Bool.not_eq_true] at c
    simp only [c, Bool.not_false, if_true]
    simp

/-! Waiting: only the wait of the current context, and with a limit its expiry. -/

theorem waitFor_frame (s : State) (w : WaitFor) (n : Nat) :
    (waitFor s w n).hbm = s.hbm ∧ (waitFor s w n).hostMem = s.hostMem ∧ (waitFor s w n).tiers = s.tiers ∧
      (waitFor s w n).clusters = s.clusters ∧ (waitFor s w n).dies = s.dies ∧ (waitFor s w n).time = s.time := by
  unfold waitFor State.pendOnce
  simp only
  repeat' split
  all_goals exact ⟨rfl, rfl, rfl, rfl, rfl, rfl⟩

@[simp] theorem waitFor_hbm (s : State) (w : WaitFor) (n : Nat) : (waitFor s w n).hbm = s.hbm := (waitFor_frame s w n).1
@[simp] theorem waitFor_hostMem (s : State) (w : WaitFor) (n : Nat) : (waitFor s w n).hostMem = s.hostMem := (waitFor_frame s w n).2.1
@[simp] theorem waitFor_tiers (s : State) (w : WaitFor) (n : Nat) : (waitFor s w n).tiers = s.tiers := (waitFor_frame s w n).2.2.1

/-! Landing and completing. -/

theorem land_frame (s : State) (vec : Bool) (r : Reg) (x : Line) (fl : Word) (t : Bool) :
    (land s vec r x fl t).hbm = s.hbm ∧ (land s vec r x fl t).hostMem = s.hostMem ∧ (land s vec r x fl t).tiers = s.tiers ∧
      (land s vec r x fl t).clusters = s.clusters ∧ (land s vec r x fl t).dies = s.dies ∧
      (land s vec r x fl t).pending = s.pending ++ [.loadLand ⟨s.curAgent, s.curCtx, s.cur.task, vec, r, x, fl⟩] :=
  ⟨rfl, rfl, rfl, rfl, rfl, rfl⟩

@[simp] theorem land_hbm (s : State) (vec : Bool) (r : Reg) (x : Line) (fl : Word) (t : Bool) : (land s vec r x fl t).hbm = s.hbm := rfl
@[simp] theorem landG_hbm (s : State) (r : Reg) (x : Nat) (fl : Word) (t : Bool) : (landG s r x fl t).hbm = s.hbm := rfl
@[simp] theorem done_hbm (i : Instr) (s : State) : (done i s).hbm = s.hbm := rfl
@[simp] theorem done_hostMem (i : Instr) (s : State) : (done i s).hostMem = s.hostMem := rfl
@[simp] theorem done_tiers (i : Instr) (s : State) : (done i s).tiers = s.tiers := rfl
@[simp] theorem done_pending (i : Instr) (s : State) : (done i s).pending = s.pending := rfl
@[simp] theorem complete_hbm (s : State) (a k n : Nat) (f : Ctx → Ctx) : (s.complete a k n f).hbm = s.hbm := rfl

/-! Accesses. -/

/-- Everything an access can do: it is refused, something holds it, or it goes on along its path. -/
theorem access_cases (i : Instr) (s : State) (va : Word) (n al : Nat) (k : AKind) (need : TyNeed) (go : Path → State) :
    (∃ e, resolve s (curAcc s) va n al k need = .error e ∧ access i s va n al k need go = refuse i s va e) ∨
    (∃ p h, resolve s (curAcc s) va n al k need = .ok p ∧ pathHold s (curAcc s) p n k = some h ∧
      access i s va n al k need go = holdOn s (Instr.limit i s.cur) h) ∨
    (∃ p, resolve s (curAcc s) va n al k need = .ok p ∧ pathHold s (curAcc s) p n k = none ∧ access i s va n al k need go = go p) := by
  unfold access
  cases r : resolve s (curAcc s) va n al k need with
  | error e => exact .inl ⟨e, rfl, rfl⟩
  | ok p =>
    cases q : pathHold s (curAcc s) p n k with
    | some h => exact .inr (.inl ⟨p, h, rfl, q, by simp only [q]⟩)
    | none => exact .inr (.inr ⟨p, rfl, q, by simp only [q]⟩)

/-- An accepted access goes on. -/
theorem access_ok {i : Instr} {s : State} {va : Word} {n al : Nat} {k : AKind} {need : TyNeed} {p : Path} (go : Path → State)
    (r : resolve s (curAcc s) va n al k need = .ok p) (q : pathHold s (curAcc s) p n k = none) :
    access i s va n al k need go = go p := by
  unfold access; simp only [r, q]

/-- A scratchpad port holds no load (R140). -/
theorem portHeld_rd (s : State) (p : Path) (n : Nat) : portHeld s p n .rd = false := by
  unfold portHeld; cases p <;> rfl

/-! The step. -/

@[simp] theorem settle_ev (n : Nat) (s : State) : (settle n s).ev = none := by
  unfold settle; cases h : s.ev <;> simp only <;> split <;> simp_all
@[simp] theorem settle_hbm (n : Nat) (s : State) : (settle n s).hbm = s.hbm := by
  unfold settle; cases s.ev <;> simp only <;> split <;> rfl
@[simp] theorem settle_hostMem (n : Nat) (s : State) : (settle n s).hostMem = s.hostMem := by
  unfold settle; cases s.ev <;> simp only <;> split <;> rfl
@[simp] theorem settle_tiers (n : Nat) (s : State) : (settle n s).tiers = s.tiers := by
  unfold settle; cases s.ev <;> simp only <;> split <;> rfl
@[simp] theorem settle_cores (n : Nat) (s : State) : (settle n s).cores = s.cores := by
  unfold settle; cases s.ev <;> simp only <;> split <;> rfl

/-- What a settled answer was before. -/
theorem settled_next {n : Nat} {o : Out} {t : State} (h : settled n o = .next t) : ∃ u, o = .next u ∧ t = settle n u := by
  cases o with
  | next u => exact ⟨u, rfl, by injection h with h; exact h.symm⟩
  | fault f => cases h
  | refused r => cases h

/-- A step in which nothing is due is one choice, taken from the agenda or by the default order. -/
theorem step_choice {s : State} (h : dueEvent s = none) :
    step s = (match s.agenda with
      | c :: t => choiceStep { s with agenda := t } c
      | [] => choiceStep { s with turn := !s.turn } (defaultChoice s)) := by
  unfold step; rw [h] <;> rfl

theorem reset_canonical : MemoriesCanonical State.reset := ⟨rfl, rfl, nofun⟩
theorem reset_userCores : UserCores State.reset := ⟨nofun, nofun⟩

end Sys2Proof.Machine
end

