-- ==== Sys2Proof/Tests/Small.lean ====
section
/-! SUPPORT. Small states for the tests: a user context of a cluster core with a scratchpad claim, one window and four cached translations, and
a privileged context of a ridge core. -/

namespace Sys2Proof.Tests

open Sys2Proof.Machine

/-- A leaf that allows everything, of page type `ty`, for frame `f` (R198). -/
def leafOf (ty f : Nat) : Word := BitVec.ofNat 64 (2 ^ 63 + 2 ^ 62 + ty * 2 ^ 59 + 2 ^ 57 + 2 ^ 56 + 2 ^ 55 + f * 2 ^ 12)

/-- Pages 0x10 (SEQ), 0x11 (REL), 0x12 (WSO) and 0x13 (SEQ), each on the frame of its number. -/
def tlb : SMap Tlb := [(0x10, ⟨1, leafOf 0 0x10⟩), (0x11, ⟨1, leafOf 1 0x11⟩), (0x12, ⟨1, leafOf 2 0x12⟩), (0x13, ⟨1, leafOf 0 0x13⟩)]

/-- The frame-table bytes that give frames 0x11 and 0x12 their types (R135). -/
def frames : Mem := [(0xBFA000000 + 8 * 0x11 + 7, 0x20), (0xBFA000000 + 8 * 0x12 + 7, 0x40)]

/-- A window over the device's first 2^46 addresses (R85). -/
def win0 : Vector Window 4 := vset (Vector.replicate 4 Window.reset) 0 ⟨BitVec.ofNat 64 (64 + 46), 7⟩

def regs (l : List (Nat × Nat)) : Vector Word 32 := l.foldl (fun v p => vset v p.1 (BitVec.ofNat 64 p.2)) (Vector.replicate 32 0)
def vregs (l : List (Nat × Nat)) : Vector Line 32 := l.foldl (fun v p => vset v p.1 (BitVec.ofNat 512 p.2)) (Vector.replicate 32 0)

/-- A live context with every name open. -/
def live (g v : List (Nat × Nat)) : Ctx :=
  { Ctx.reset with st := .live, g := regs g, v := vregs v, pc := 0x10000, gOpen := 32, vOpen := 32, win := win0, task := 0x12345, kid := 5, claim := 2 }

/-- A core whose scratchpad has two ways, with `x` in context 0. -/
def coreOf (x : Ctx) : Core :=
  { Core.reset with nWays := 2, ways := vset (vset (Vector.replicate 20 .cache) 19 .live) 18 .live, ctxs := vset (Vector.replicate 8 Ctx.reset) 0 x }

/-- The device after bring-up, with kernel 5 in the table, its memory in world N, and `x` issuing on agent `a`. -/
def board (a : Nat) (o : Core) : State :=
  { State.reset with
    curAgent := a, thboot := false, tlb := tlb, hbm := frames, mgmt := { Mgmt.reset with held := false, bootst := 3 }
    mrgn := vset (Vector.replicate 64 0) 0 (BitVec.ofNat 64 (2 ^ 63)), kt := vset (Vector.replicate 64 (0, 0)) 0 (BitVec.ofNat 64 (2 ^ 63 + 5 * 2 ^ 32), 0)
    dies := [(0, { Die.reset with running := true, wridge := 0x80 })], cores := [(a, o)] }

/-- A user context on cluster core 0, with its registers. -/
def user (g : List (Nat × Nat)) (v : List (Nat × Nat) := []) : State := board 0 (coreOf (live g v))
/-- A privileged context on a ridge core, over the whole device. -/
def ridge (a : Nat) (g : List (Nat × Nat)) (v : List (Nat × Nat) := []) : State :=
  board a { Core.reset with ctxs := vset (Vector.replicate 8 Ctx.reset) 0 { live g v with priv := true, claim := 0 } }

/-- Offset `n` of the own scratchpad (R84). -/
def own (n : Nat) : Nat := 0xF0 * 2 ^ 48 + n

/-- The state that an answer goes on with, or `s`. -/
def after (o : Out) (s : State) : State := match o with | .next t => t | _ => s

def isNext (o : Out) : Bool := match o with | .next _ => true | _ => false

/-- Retry buffers with two free places in every core that is listed are so in every core. -/
theorem places_free {s : State} (h : (s.cores.all fun q => decide (q.2.retry.length ≤ 6)) = true) (b : Nat) : (s.core b).retry.length ≤ 6 := by
  show ((SMap.find? s.cores b).getD Core.reset).retry.length ≤ 6
  revert h
  induction s.cores with
  | nil => exact fun _ => Nat.zero_le 6
  | cons q t ih =>
    intro h
    rw [List.all_cons, Bool.and_eq_true, decide_eq_true_eq] at h
    unfold SMap.find?
    split
    · exact h.1
    · exact ih h.2

end Sys2Proof.Tests
end

