-- ==== Sys2Proof/Tests/Slice0.lean ====
section
/-! SUPPORT. Tests from the manual: its worked instruction words, one ill-formed term for each check of WellFormed, and its worked results.
Every expected value stands in the manual or follows from its tables by hand. -/

namespace Sys2Proof.Tests

set_option Elab.async false

open Sys2Proof.Machine

/-- Every word of a list decodes to the instruction beside it, with no reserved field set. -/
def reads (l : List (List (BitVec 32) × Instr)) : Bool := l.all fun p => decodeWords p.1 == .instr p.2 false

/-- The worked words of the manual's scalar and control entries. -/
theorem test_words_scalar_and_control : reads [
    ([0x101CC504], .add ⟨.i32, false, 5, 6, 7, .base⟩),
    ([0xFFE08408], .addi ⟨4, 4, 16376⟩),
    ([0x01000418], .movi ⟨4, 64⟩),
    ([0x00000419, 0x00140100, 0x00F10000], .moviLit ⟨4, 0xF1000000140100⟩),
    ([0x3018850C], .adda ⟨3, 5, 4, .reg 6, .base⟩),
    ([0xC300A414], .shli ⟨4, 5, 3⟩),
    ([0x080CA414], .bfxu ⟨4, 5, 8, 3⟩),
    ([0x001CC520], .fadd ⟨.f32, .rne, false, 5, 6, 7, .base⟩),
    ([0x20B4A424], .cvt ⟨.rtz, false, .i8, .f32, 4, 5, .base⟩),
    ([0x0100A428], .beq ⟨4, 4, 5⟩),
    ([0xFFFFFD2C], .call ⟨0x7FFFFE⟩),
    ([0x01000030], .ret),
    ([0x00002234], .enter ⟨2, 1⟩),
    ([0x00800034], .leave),
    ([0x01180534], .rdsr ⟨5, 6, 0⟩),
    ([0x11806534], .probe ⟨true, 5, 3⟩),
    ([0x02000034], .brk ⟨false, 0⟩),
    ([0x12000334], .brk ⟨true, 3⟩),
    ([0x00000008], .nop)] = true := by decide +kernel

/-- The worked words of the manual's memory and subscriptions entries. -/
theorem test_words_memory_and_subscriptions : reads [
    ([0x90088540], .ld ⟨2, false, true, 2, 4, 5, .base⟩),
    ([0xC0088542, 0x00008000, 0], .ld ⟨3, false, false, 2, 4, 5, .ext 16⟩),
    ([0xA004C744], .st ⟨2, true, 1, 6, 7, .base⟩),
    ([0x000C8548], .lde ⟨false, 3, 4, 5, .rne, .base⟩),
    ([0xC000414C], .ldAcq ⟨3, .dev, 0, 2, 1, .base⟩),
    ([0xD000414C], .ldc ⟨3, .dev, 0, 2, 1, .base⟩),
    ([0xE000414C], .lds ⟨0, 2, 1, 0, .base⟩),
    ([0x80008750], .stRel ⟨2, .dev, 0, 4, 7, .base⟩),
    ([0x80108556, 0x30000206, 0], .amo ⟨4, 4, 5, 6, 0, .clu, .sc, .i32, .add, false, 0⟩),
    ([0x41000058], .fence ⟨.dev, .rel, .base⟩),
    ([0x40000058], .fence ⟨.dev, .sc, .base⟩),
    ([0x20800058], .fence ⟨.clu, .acq, .base⟩),
    ([0x0000C55C], .spresize ⟨5, 6, .base⟩),
    ([0x001CC57C], .subscr ⟨5, 6, 7, .base⟩),
    ([0x0100C57C], .substat ⟨5, 6, .core, .base⟩)] = true := by decide +kernel

/-- The worked words of the manual's tasks and messages entries. -/
theorem test_words_tasks_and_messages : reads [
    ([0x00208060], .send ⟨4, 8, none, .base⟩),
    ([0x00A08060], .tsend ⟨4, 8, none, .base⟩),
    ([0x001CC564], .recv ⟨5, 6, 7, .base⟩),
    ([0x0080C564], .rcancel ⟨5, 6, .base⟩),
    ([0x011CC564], .chwr ⟨5, 6, 7, .base⟩),
    ([0x019CC564], .chmsk ⟨5, 6, 7, .base⟩),
    ([0x1200C564], .chrd ⟨true, 5, 6, .base⟩),
    ([0x00008068], .spawn ⟨4⟩),
    ([0x00800068], .join),
    ([0x01000068], .halt),
    ([0x11008068], .haltr ⟨4⟩),
    ([0x01800068], .yield),
    ([0x000080D6, 0, 0], .launch ⟨4⟩),
    ([0x009CC5D6, 0x4000001A, 0], .coll ⟨.add, false, .f32, 5, 6, 7, 8, 0⟩)] = true := by decide +kernel

/-- The worked words of the manual's synchronisation entries. -/
theorem test_words_synchronisation : reads [
    ([0x2014806C], .freg ⟨2, 4, 5, .base⟩),
    ([0x0094806C], .fres ⟨4, 5, .base⟩),
    ([0x0100806C], .fcancel ⟨4, .base⟩),
    ([0x0180806C], .freset ⟨4, .base⟩),
    ([0x0200856C], .fwait ⟨5, 4, 0, .base⟩),
    ([0x20148070], .barcfg ⟨2, 4, 5, .base⟩),
    ([0x20800070], .bar ⟨2, 0, 0, .base⟩),
    ([0x21000570], .bararv ⟨2, 5, .base⟩),
    ([0x21800070], .bardrop ⟨2, .base⟩),
    ([0x2200C570], .barwt ⟨2, 5, 6, 0, .base⟩),
    ([0x22800570], .barrd ⟨2, 5, .base⟩),
    ([0x3000A074], .qpush ⟨3, 5, 0, .base⟩),
    ([0x30800674], .qpop ⟨3, 6, 0, .base⟩),
    ([0x3100A074], .qdwr ⟨3, 5, .base⟩),
    ([0x31800674], .qdrd ⟨3, 6, .base⟩),
    ([0x3200A074], .permitFree ⟨3, 5, .base⟩),
    ([0x3298A074], .permitStore ⟨3, 5, 6, .base⟩),
    ([0x00008078], .wlinit ⟨4, .base⟩),
    ([0x00988578], .wlpush ⟨5, 4, 6, .base⟩),
    ([0x01188578], .wlins ⟨5, 4, 6, .base⟩),
    ([0x01988578], .wlpopb ⟨5, 4, 6, .base⟩),
    ([0x02008578], .wlstat ⟨5, 4, .base⟩),
    ([0x02808078], .wlfree ⟨4, .base⟩)] = true := by decide +kernel

/-- The worked words of the manual's vector entries. -/
theorem test_words_vector : reads [
    ([0x101CC580], .vadd ⟨.i32, false, 5, 6, 7, .base⟩),
    ([0x019CC584], .vfma ⟨.rne, false, 5, 6, 7, .base⟩),
    ([0x111CC588], .vcmplt ⟨.i32, 5, 6, 7, .base⟩),
    ([0x21B4A48C], .vcvt ⟨.rtz, false, .i32, .f32, 4, 5, .base⟩),
    ([0x0000C590], .vmov ⟨5, 6, .base⟩),
    ([0x0080C590], .vbcast ⟨5, 6, .base⟩),
    ([0x010CC590], .vins ⟨3, 5, 6, .base⟩),
    ([0x118CC590], .vext ⟨.i32, 3, 5, 6, .base⟩),
    ([0x02000590], .viota ⟨5, .base⟩),
    ([0x001CC594], .vshuf ⟨5, 6, 7, .base⟩),
    ([0x101CC598], .vmul ⟨.i32, 5, 6, 7, .base⟩),
    ([0x000CC59C], .vshli ⟨3, 5, 6, .base⟩),
    ([0x000885A0], .vld ⟨false, 2, 4, 5, .base⟩),
    ([0x600485A0], .vst ⟨true, 1, 4, 5, .base⟩),
    ([0x000485A4], .vlde ⟨false, 1, 4, 5, .rne, .base⟩),
    ([0x001885A8], .vldx ⟨4, 5, 6, .base⟩),
    ([0x0008C5AC], .vlsld ⟨false, 2, 6, 5, .base⟩),
    ([0x0018A4C2, 0x3800001A, 0], .vsp ⟨.add, .f32, .rne, false, 4, 5, 6, 7, none, 0⟩),
    ([0x0080C5C2, 0x0000001A, 0], .vred ⟨.add, .f32, 5, 6, none, 0⟩),
    ([0x011CC5C2, 0x4240001A, 0], .vtopk ⟨.f32, 5, 6, 7, 8, 9, 0⟩)] = true := by decide +kernel

/-- The worked words of the manual's matrix and near bank entries. -/
theorem test_words_matrix_and_near_bank : reads [
    ([0x000000C6, 0x40000000, 0], .mxlease ⟨8, 0⟩),
    ([0x008000C6, 0, 0], .mxrel),
    ([0x029480C6, 0x31C00000, 0], .mxlda ⟨4, 5, 6, 7, 0⟩),
    ([0x031480C6, 0x31C00000, 0], .mxldb ⟨4, 5, 6, 7, 0⟩),
    ([0x310080C6, 0, 0], .tcfg ⟨3, 4, 0⟩),
    ([0x318000C6, 0, 0], .trel ⟨3⟩),
    ([0x320000C6, 0, 0], .mxwait ⟨3, 0, 0⟩),
    ([0xA39480C6, 0x30000012, 0x48000000], .mxmul ⟨true, 2, .e4m3, .e4m3, false, 0, 0, false, 4, 5, 6, 0⟩),
    ([0x041480C6, 0x30000002, 0x70000000], .mxtern ⟨false, 0, .i8, .t2, false, 0, 0, false, 4, 5, 6, 0⟩),
    ([0x249480C6, 0x30000000, 0], .mxdrain ⟨2, 4, 5, 6, 0⟩),
    ([0x050005C6, 0, 0], .mxstat ⟨5⟩),
    ([0x001480CA, 0, 0], .nbcfg ⟨4, 5, 0⟩),
    ([0x009480CA, 0x31D00012, 0], .nbmv ⟨false, .e4m3, 4, 5, 6, 7, 8, 0⟩),
    ([0x010085CA, 0, 0], .nbstat ⟨5, 4, 0⟩)] = true := by decide +kernel

/-- The worked words of the manual's engines entries. -/
theorem test_words_engines : reads [
    ([0x001480CE, 0x31D00000, 0], .cpy ⟨4, 5, 6, 7, 8, 0⟩),
    ([0x009480CE, 0x31D00000, 0], .cpyt ⟨4, 5, 6, 7, 8, 0⟩),
    ([0x011CC5CE, 0x00000400, 0], .syncwait ⟨.dev, 5, 6, 7, 0, 0⟩),
    ([0x019CC0CE, 0x00000400, 0], .syncadd ⟨.dev, 6, 7, 0⟩),
    ([0x021480CE, 0x31D00000, 0], .gather ⟨4, 5, 6, 7, 8, 0⟩),
    ([0x028080CE, 0, 0], .twrun ⟨4, 0, 0⟩),
    ([0x030000CE, 0, 0], .twstop),
    ([0x038005CE, 0, 0], .twstat ⟨5⟩),
    ([0x040005CE, 0, 0], .cestat ⟨5⟩)] = true := by decide +kernel

/-- The worked words of the manual's graph entries. -/
theorem test_words_graph : reads [
    ([0x001CC5D2, 0x42540000, 0], .gvar ⟨5, 6, 7, 8, 9, 10, 0⟩),
    ([0x009CC5D2, 0x42540000, 0], .gfac ⟨5, 6, 7, 8, 9, 10, 0⟩),
    ([0x011CC5D2, 0x40000000, 0], .glink ⟨5, 6, 7, 8, 0⟩),
    ([0x019CC5D2, 0, 0], .gfmsg ⟨5, 6, 7, 0⟩),
    ([0x021CC0D2, 0, 0], .gdamp ⟨6, 7, 0⟩),
    ([0x029CC0D2, 0, 0], .gtol ⟨6, 7, 0⟩),
    ([0x031CC0D2, 0, 0], .grelin ⟨6, 7, 0⟩),
    ([0x039CC5D2, 0, 0], .gread ⟨5, 6, 7, 0⟩),
    ([0x041CC5D2, 0x40000000, 0], .gsnap ⟨5, 6, 7, 8, 0⟩),
    ([0x0480C5D2, 0, 0], .gcvg ⟨5, 6, 0⟩),
    ([0x0500C0D2, 0, 0], .gfree ⟨6, 0⟩)] = true := by decide +kernel

/-- The worked words of the manual's system entries. -/
theorem test_words_system : reads [
    ([0x000080DA, 0, 0], .resume ⟨4, 0⟩),
    ([0x008000DA, 0, 0], .killt),
    ([0x010080DA, 0, 0], .killk ⟨4, 0⟩),
    ([0x01A0E5DA, 0x30000000, 0], .dwrd ⟨5, 7, 8, 6, 0⟩),
    ([0x0220E0DA, 0x32400000, 0], .dwwr ⟨7, 8, 6, 9, 0⟩),
    ([0x0280C5DA, 0, 0], .sysrd ⟨5, 6, 0⟩),
    ([0x031CC0DA, 0, 0], .syswr ⟨6, 7, 0⟩),
    ([0x039CC0DA, 0, 0], .mext ⟨6, 7, 0⟩),
    ([0x041CC0DA, 0, 0], .tlbsync ⟨6, 7, 0⟩),
    ([0x049CC5DA, 0x40000000, 0], .preempt ⟨5, 6, 7, 8, 0⟩),
    ([0x0500C5DA, 0, 0], .restore ⟨5, 6, 0⟩),
    ([0x059CC5DA, 0x40000000, 0], .migrate ⟨5, 6, 7, 8, 0⟩),
    ([0x0600C5DA, 0, 0], .ckptFull ⟨5, 6, 0⟩),
    ([0x068080DA, 0, 0], .trap ⟨4, 0⟩),
    ([0x000080DE, 0, 0], .hgtrig ⟨4, 0⟩),
    ([0x008080DE, 0, 0], .hgrel ⟨4, 0⟩),
    ([0x010085DE, 0, 0], .hgstat ⟨5, 4, 0⟩)] = true := by decide +kernel

/-- Groups 0x04 and 0x07, by format A: W 00, fn 0, b = 7, a = 6, d = 5. -/
theorem test_words_by_hand : reads [
    ([0x001CC510], .mul ⟨.i64, 5, 6, 7, .base⟩),
    ([0x001CC51C], .cmpeq ⟨.i64, 5, 6, 7, .base⟩),
    ([0x021CC51C], .sel ⟨5, 6, 7, .base⟩)] = true := by decide +kernel

/-- R264, R266, R268: unassigned fn and cond values are illegal; R380: a reserved bit is reported. -/
theorem test_words_refused : decodeWords [0x05800030] = .illegal ∧ decodeWords [0x0118A428] = .illegal ∧ decodeWords [0x03000034] = .illegal ∧
    decodeWords [0x22000034] = .instr (.brk ⟨false, 0⟩) true := by decide +kernel

/-- The manual's fetched literal and x-form lie little-endian in memory (R18, R237). -/
theorem test_table_word : decodeTableWord 32 0x101CC504 = some (.add ⟨.i32, false, 5, 6, 7, .base⟩) := by decide +kernel

/-! WellFormed refuses one ill-formed term for each of its checks. -/

theorem test_wf_e_bit_on_no_source : Instr.wf (.spresize ⟨5, 6, .ext 0x20⟩) = false := by decide +kernel
theorem test_wf_nop_is_not_addi : Instr.wf (.addi ⟨0, 0, 0⟩) = false := by decide +kernel
theorem test_wf_bit_field_past_63 : Instr.wf (.bfxu ⟨5, 6, 60, 4⟩) = false ∧ Instr.wf (.bfxs ⟨5, 6, 1, 63⟩) = false ∧ Instr.wf (.bfi ⟨5, 6, 63, 1⟩) = false ∧
    Instr.wf (.bfi ⟨5, 6, 63, 0⟩) = true := by decide +kernel
theorem test_wf_base_float_is_f32 : ([.fadd ⟨.f16, .rne, false, 5, 6, 7, .base⟩, .fneg ⟨.bf16, .rne, false, 5, 6, .base⟩,
    .fcmple ⟨.f16, .rne, false, 5, 6, 7, .base⟩] : List Instr).all (fun i => !i.wf) = true := by decide +kernel
theorem test_wf_cvt_no_scaled : Instr.wf (.cvt ⟨.rne, false, .sbi8, .f32, 5, 6, .base⟩) = false := by decide +kernel
theorem test_wf_rdsr_number : Instr.wf (.rdsr ⟨5, 9, 0⟩) = false ∧ Instr.wf (.rdsr ⟨5, 6, 7⟩) = false := by decide +kernel
theorem test_wf_ld_sx_and_base : Instr.wf (.ld ⟨3, false, true, 0, 4, 5, .base⟩) = false ∧ Instr.wf (.ld ⟨2, true, false, 1, 0, 5, .base⟩) = false ∧
    Instr.wf (.st ⟨2, true, 1, 0, 5, .base⟩) = false ∧ Instr.wf (.lde ⟨false, 0, 4, 5, .rtz, .base⟩) = false ∧
    Instr.wf (.ste ⟨false, 0, 4, 5, .rne, true, .base⟩) = false := by decide +kernel
theorem test_wf_base_scopes : Instr.wf (.ldAcq ⟨3, .clu, 0, 4, 5, .base⟩) = false ∧ Instr.wf (.stRel ⟨3, .sys, 0, 4, 5, .base⟩) = false ∧
    Instr.wf (.lds ⟨0, 4, 5, 6, .base⟩) = false ∧ Instr.wf (.send ⟨4, 8, some .dev, .base⟩) = false ∧ Instr.wf (.substat ⟨5, 6, .ctx, .ext 0⟩) = false := by
  decide +kernel
theorem test_wf_limits_need_the_x_form : Instr.wf (.fwait ⟨5, 4, 6, .base⟩) = false ∧ Instr.wf (.bar ⟨2, 5, 6, .base⟩) = false ∧
    Instr.wf (.qpush ⟨3, 5, 6, .base⟩) = false := by decide +kernel
theorem test_wf_amo : Instr.wf (.amo ⟨0, 4, 5, 6, 7, .dev, .sc, .i32, .add, false, 0⟩) = false ∧
    Instr.wf (.amo ⟨0, 4, 5, 6, 0, .dev, .sc, .f32, .and, false, 0⟩) = false := by decide +kernel
theorem test_wf_vector : Instr.wf (.vcvt ⟨.rne, false, .i64, .f32, 5, 6, .base⟩) = false ∧ Instr.wf (.vred ⟨.and, .f32, 5, 6, none, 0⟩) = false ∧
    Instr.wf (.vsp ⟨.add, .i32, .rtz, false, 4, 5, 6, 7, none, 0⟩) = false := by decide +kernel
theorem test_wf_engines : Instr.wf (.mxmul ⟨false, 0, .t2, .t2, false, 0, 0, false, 4, 5, 6, 0⟩) = false ∧
    Instr.wf (.nbmv ⟨false, .i64, 4, 5, 6, 7, 8, 0⟩) = false ∧ Instr.wf (.syncwait ⟨.ctx, 5, 6, 7, 0, 0⟩) = false ∧
    Instr.wf (.coll ⟨.and, false, .f32, 5, 6, 7, 8, 0⟩) = false := by decide +kernel

/-! Worked results. -/

/-- The scalar result of an instruction in register 5, with FLAGS. -/
def g5 (i : Instr) (g : List (Nat × Nat)) (v : List (Nat × Nat) := []) : Word × Word :=
  let t := after (exec i (user g v)) (user g v)
  (t.cur.rG 5, t.cur.flags)

/-- R255: add.i32 wraps; with .sat it holds and sets SAT. -/
theorem test_add : g5 (.add ⟨.i32, false, 5, 6, 7, .base⟩) [(6, 0x7FFFFFFF), (7, 1)] = (0xFFFFFFFF80000000, 0) ∧
    g5 (.add ⟨.i32, true, 5, 6, 7, .base⟩) [(6, 0x7FFFFFFF), (7, 1)] = (0x7FFFFFFF, flagSAT) := by decide +kernel
/-- R261. -/
theorem test_cmplt : g5 (.cmplt ⟨.i32, 5, 6, 7, .base⟩) [(6, 0xFFFFFFFF), (7, 1)] = (1, 0) ∧
    g5 (.cmplt ⟨.n32, 5, 6, 7, .base⟩) [(6, 0xFFFFFFFF), (7, 1)] = (0, 0) := by decide +kernel
/-- R262: a tie goes to even; rup gives the next value. -/
theorem test_fadd : g5 (.fadd ⟨.f32, .rne, false, 5, 6, 7, .base⟩) [(6, 0x3F800000), (7, 0x33800000)] = (0x3F800000, flagNX) ∧
    (g5 (.fadd ⟨.f32, .rup, false, 5, 6, 7, .base⟩) [(6, 0x3F800000), (7, 0x33800000)]).1 = 0x3F800001 := by decide +kernel
/-- R263. -/
theorem test_cvt : g5 (.cvt ⟨.rtz, false, .i8, .f32, 5, 6, .base⟩) [(6, 0xC0600000)] = (0xFFFFFFFFFFFFFFFD, flagNX) := by decide +kernel
/-- R260. -/
theorem test_bfxu : (g5 (.bfxu ⟨5, 6, 8, 3⟩) [(6, 0xA5C)]).1 = 0xA := by decide +kernel
/-- R52: a zero divisor, and MinVal ÷ -1. -/
theorem test_div : g5 (.div ⟨.n32, 5, 6, 7, .base⟩) [(6, 7)] = (0xFFFFFFFF, flagIDIV0) ∧
    g5 (.div ⟨.i32, 5, 6, 7, .base⟩) [(6, 0x80000000), (7, 0xFFFFFFFF)] = (0xFFFFFFFF80000000, 0) := by decide +kernel
/-- R47: the tree of the manual's example. -/
theorem test_vred : (g5 (.vred ⟨.add, .f32, 5, 6, none, 0⟩) [] [(6, 0x4B800000 + 2 ^ 32 * 0x3F800000 + 2 ^ 64 * 0x3F800000 + 2 ^ 96 * 0x3F800000)]).1
    = 0x4B800001 := by decide +kernel
/-- R264: taken and not taken. -/
theorem test_beq : (after (exec (.beq ⟨4, 4, 5⟩) (user [(4, 9), (5, 9)])) (user [])).cur.pc = 0x10010 ∧
    (after (exec (.beq ⟨4, 4, 5⟩) (user [(4, 9), (5, 8)])) (user [])).cur.pc = 0x10004 := by decide +kernel
/-- R84, R18: a store to the scratchpad and its bytes. -/
theorem test_st : (((after (exec (.st ⟨2, false, 2, 4, 7, .base⟩) (user [(4, own 0x40), (7, 0x11223344)])) (user [])).core 0).spad) =
    [(0x48, 0x44), (0x49, 0x33), (0x4A, 0x22), (0x4B, 0x11)] := by decide +kernel
/-- R210: the first word of the manual's packet. -/
theorem test_packet : (Packet.bits ⟨0x1D, 0, 0, false, 2, 0, 0, 0, 0, 0, 0, 0, 0, 0, 0, 0⟩).extractLsb' 0 32 = 0x0200001D := by decide +kernel
/-- The placed word is the next step's instruction: nop moves the PC of the monitor's context and TIME. -/
theorem test_step_runs_the_placed_word : let t := after (step (State.reset.withFetchWord 32 8)) State.reset
    t.time = 1 ∧ (t.ctx 2055 0).pc = 0x10004 ∧ (t.ctx 2055 0).st = .live := by decide +kernel

end Sys2Proof.Tests
end

