-- ==== Sys2Proof/Tests/WitnessEngines.lean ====
section
/-! SUPPORT. Witnesses for the statements about the matrix array, near-bank units, the copy engine, gathers and tile walks. -/

namespace Sys2Proof.Tests

set_option Elab.async false

open Sys2Proof.Machine

/-- The issuer that a context of core 0 is. -/
def iss0 : Issuer := ⟨0, 0, 0x12345, 5, false, 0, false, 0x10000, 0, 2, win0⟩

/-- A shape record (R335): base, format code, extents n and m, stride 16 in dimension 1, g tiles. -/
def shapeRec (base fmt n m g : Nat) : Nat :=
  base + n * 2 ^ 64 + m * 2 ^ 80 + 2 ^ 96 + 2 ^ 112 + 16 * 2 ^ 128 + fmt * 2 ^ 224 + g * 2 ^ 320 + 2 ^ 336 + 2 ^ 352 + 2 ^ 368

/-- Cluster 0: the context holds the lease of 16 commands for kernel 5; tile 0 is 2 by 2 integer, tile 1 is 2 by 2 float; `l` are commands. -/
def array (l : List MxEntry) : Cluster :=
  { Cluster.reset with
    lease := ⟨some (0, 0), 5, false, none, 16, 0, [], [], []⟩
    tiles := vset (vset (Vector.replicate 8 ⟨none, []⟩) 0 ⟨some (2, 2, true), []⟩) 1 ⟨some (2, 2, false), []⟩
    cmds := l, nextNo := l.length }

def holding (l : List MxEntry) (g : List (Nat × Nat)) : State :=
  { board 0 { coreOf (live g []) with spad := Mem.writeNat [] 0x240 64 (shapeRec 0x13000 0x0D 2 2 1) } with clusters := [(0, array l), (1, array [])] }

/-- Product, staging and drain as entries (R331 to R336). -/
def mul0 : MxEntry := ⟨0, iss0, .mul false 0 .i8 .i8 false 0 0 0 8 0 8 4 false, false, ⟨none, []⟩⟩
def stage0 : MxEntry := ⟨0, iss0, .stage false 0 8 8 2 0x13000 8, false, ⟨none, []⟩⟩
def drain0 (read : Bool) : MxEntry := ⟨0, iss0, .drain 1 (Shape.parse (shapeRec 0x13000 0x0D 2 2 1)) 0 0, read, ⟨some (2, 2, false), []⟩⟩

theorem witness_MatrixCommandsRunUnderTheLease :
    let buf := 8 * 2 ^ 32
    let s := holding [] [(4, 257), (5, 7 + 2 ^ 32), (6, 0x13000), (7, 8), (8, buf), (9, 4), (10, own 0x240)]
    let b := holding [mul0] []
    let f := user []
    let w := { f with clusters := [(0, { Cluster.reset with lease := ⟨some (1, 0), 5, false, none, 16, 0, [], [], []⟩ })] }
    let p : Path := .scratch 0 0x240
    let u := release s s.curAgent .dev
    let v := (readPath (taintAcquire s (s.cur.taintG 10)) (curAcc s) p 64).2
    let fused : OMx := ⟨true, 0, .i8, .i8, true, 0, 0, true, 8, 8, 9, 0⟩
    let h := { s with clusters := [(0, array []), (1, { array [] with lease := ⟨some (9, 0), 6, false, none, 16, 0, [], [], []⟩ })] }
    let hu := release h h.curAgent .dev
    (readyB (.mxlease ⟨0, 0⟩) f = true ∧ (Rule.lease f 0).holder = none ∧ readyB (.mxlease ⟨0, 0⟩) s = true ∧ (Rule.lease s 0).holder = some (Rule.me s) ∧
      readyB (.mxlease ⟨0, 0⟩) w = true ∧ (Rule.lease (leaseAsk w 0 (Rule.me w)) 0).holder ≠ some (Rule.me w) ∧ readyB .mxrel s = true ∧
      (Rule.lease s 0).waiters = []) ∧
    (s.now < (Rule.lease s 0).since + 65536 ∧ (Rule.lease s 0).since + 65536 ≤ ({ s with time := 65536 } : State).now) ∧
    (Rule.holdsArray s ∧ readyB (.tcfg ⟨0, 4, 0⟩) s = true ∧ tileBusy (s.clu 0) 0 = false ∧ bitsOf (s.cur.rG 4) 63 17 = 0 ∧ (s.cur.rG 4).getLsbD 7 = false ∧
      readyB (.trel ⟨0⟩) s = true ∧ readyB (.mxwait ⟨0, 0, 0⟩) s = true ∧ Rule.holdsArray b ∧ readyB (.trel ⟨0⟩) b = true ∧
      readyB (.mxwait ⟨0, 0, 0⟩) b = true ∧ tileBusy (b.clu 0) 0 = true) ∧
    (∀ i ∈ ([.mxlda ⟨5, 6, 5, 7, 0⟩, .mxldb ⟨5, 6, 5, 7, 0⟩] : List Instr), readyB i s = true) ∧
    (Rule.calm s ∧ placeFull s 0 = false ∧ bitsOf (s.cur.rG 5) 17 0 = 7) ∧
    (readyB (.mxmul ⟨true, 0, .i8, .i8, true, 0, 0, false, 8, 8, 9, 0⟩) s = true ∧ setsFull (s.clu 0) = false ∧ Fmt.intPath .i8 .i8 = true ∧
      mulCheck (s.clu 0) ⟨true, 0, .i8, .i8, true, 0, 0, false, 8, 8, 9, 0⟩ (s.cur.rG 8) (s.cur.rG 8) (s.cur.rG 9) = none ∧
      readyB (.mxmul fused) s = true ∧ mulCheck (s.clu 0) fused (s.cur.rG 8) (s.cur.rG 8) (s.cur.rG 9) = none ∧
      (u.clu 0).fenced = 0 ∧ (u.clu (fusePartner 0)).fenced = 0 ∧ (u.clu (fusePartner 0)).disabled = false ∧
      (Rule.lease u 1).holder = some (Rule.me u) ∧ (Rule.lease u 1).fuse = none ∧ fusePartner 0 = 1 ∧
      (Rule.lease (arrayPass u 1) 1).holder = some (Rule.me u) ∧ (Rule.lease (arrayPass u 1) 1).due = false ∧ (Rule.lease (arrayPass u 1) 1).fuse = none) ∧
    (readyB (.mxmul fused) h = true ∧ Rule.holdsArray h ∧ Rule.calm h ∧ setsFull (h.clu 0) = false ∧
      mulCheck (h.clu 0) fused (h.cur.rG 8) (h.cur.rG 8) (h.cur.rG 9) = none ∧ (hu.clu 0).fenced = 0 ∧ (hu.clu 1).fenced = 0 ∧ (hu.clu 1).disabled = false ∧
      (Rule.lease hu 1).holder ≠ some (Rule.me hu) ∧ (Rule.lease (arrayPass (leaseNext (hu.modClu 1 fun c => { c with lease := { c.lease with waiters :=
        if (Rule.me hu) ∈ c.lease.waiters then c.lease.waiters else c.lease.waiters ++ [Rule.me hu] } }) 1) 1) 1).holder ≠ some (Rule.me hu)) ∧
    (readyB (.mxdrain ⟨1, 10, 0, 0, 0⟩) s = true ∧ resolve s (curAcc s) (s.cur.rG 10) 64 64 .rd .any = .ok p ∧
      pathHold s (curAcc s) p 64 .rd = none ∧ setsFull (v.clu 0) = false ∧ Rule.calm v ∧ (tileOf (v.clu 0) 1).conf = some (2, 2, false) ∧ Rule.holdsArray v ∧ placeFull v 0 = false ∧
      shapeBad (shapeRec 0x13000 0x0D 2 2 1) = false ∧ (Shape.parse (shapeRec 0x13000 0x0D 2 2 1)).ext = #v[2, 2, 1, 1] ∧
      (Shape.parse (shapeRec 0x13000 0x0D 2 2 1)).format = some .f32 ∧ (Shape.parse (shapeRec 0x13000 0x0D 2 2 1)).misaligned = false ∧
      shapeOwnBad v (Shape.parse (shapeRec 0x13000 0x0D 2 2 1)) 0 = false ∧ syncCheck v 0 = none ∧ futCheck s.cur.win 0 = none ∧
      readyB (.mxstat ⟨5⟩) s = true) := by
  intros; and_intros <;> decide +kernel

/-- Bytes that an earlier command touches hold back a product behind a staging, and a staging behind a staging or a product (R326). -/
theorem witness_matrix_order :
    let mul1 : MxEntry := { mul0 with no := 1 }
    let stage1 : MxEntry := { stage0 with no := 1 }
    let st (q : MxEntry) : State := { holding [q, stage1] [] with clusters := [(0, { array [q, stage1] with active := some (0, ⟨iss0, .mx 1, 0, 0⟩) })] }
    let m := holding [stage0, mul1] []
    ((m.clu 0).cmds.find? MxEntry.inArray = some mul1 ∧ stage0 ∈ (m.clu 0).cmds ∧ Rule.isStage mul1.cmd = false ∧ Rule.isStage stage0.cmd = true ∧
      Rule.bufSpan (m.clu 0) false mul1.cmd = some (0, 12) ∧ Rule.bufSpan (m.clu 0) false stage0.cmd = some (0, 16) ∧ Rule.meets (0, 12) (0, 16)) ∧
    (∀ q ∈ [stage0, mul0], ((st q).clu 0).active = some (0, ⟨iss0, .mx 1, 0, 0⟩) ∧ ((st q).clu 0).cmds.find? (fun r => r.no == 1) = some stage1 ∧
      q ∈ ((st q).clu 0).cmds ∧ q.no < 1 ∧ Rule.isStage stage1.cmd = true ∧ (Rule.isStage q.cmd = true ∨ q.inArray = true)) ∧
    Rule.bufSpan ((st stage0).clu 0) false stage0.cmd = some (0, 16) ∧ Rule.bufSpan ((st mul0).clu 0) false mul0.cmd = some (0, 12) := by decide +kernel

/-- A staging that lands has 8-byte rows with g5 = 4 + 8·2^32 (offset 4, pitch 8) and g7 = 7 + 2^32 (two rows). -/
theorem witness_matrix_staging :
    let s := holding [] [(5, 4 + 8 * 2 ^ 32), (7, 7 + 2 ^ 32), (6, 0x13000), (9, 8)]
    let g := s.cur.rG 5
    let h := s.cur.rG 7
    readyB (.mxlda ⟨5, 6, 7, 9, 0⟩) s = true ∧ readyB (.mxldb ⟨5, 6, 7, 9, 0⟩) s = true ∧ bitsOf g 31 18 = 0 ∧ bitsOf g 63 50 = 0 ∧ bitsOf h 31 18 = 0 ∧
    bitsOf h 63 48 = 0 ∧ bitsOf h 17 0 + 1 ≤ bitsOf g 49 32 ∧ bitsOf g 17 0 % 4 = 0 ∧ bitsOf g 49 32 % 4 = 0 ∧
    (∀ r ∈ List.range 2, (match addAddr (s.cur.rG 6) (r * (s.cur.rG 9).toInt) with | some a => !ownRangeBad s a 8 | none => true) = true) := by decide +kernel

/-- The four events of the array and its copies. -/
theorem witness_matrix_events :
    let a (l : List MxEntry) (n : Nat) : State :=
      { holding l [] with clusters := [(0, { array l with active := some (0, ⟨iss0, .mx n, 0, 0⟩) })] }
    let wide : MxEntry := { stage0 with cmd := .stage false 0 256 256 2 0x13000 256 }
    let long : Shape := Shape.parse (shapeRec 0x13000 0x0D 128 2 1)
    let st := a [stage0] 0
    let m := a [mul0] 1
    let d := a [drain0 false] 1
    let r := a [drain0 true] 0
    (engBlocked st (.copy 0) = false ∧ mxWaits (st.clu 0) stage0 = false ∧ (st.clu 0).cmds.find? (fun q => q.no == 0) = some stage0 ∧
      (stagePiece st (iss0.acc (.copy 0)) 0 false 0 8 8 16 0x13000 8 64 0).2 = (16, none) ∧ (a [wide] 0).clu 0 = { array [wide] with
        active := some (0, ⟨iss0, .mx 0, 0, 0⟩) } ∧ (stagePiece (a [wide] 0) (iss0.acc (.copy 0)) 0 false 0 256 256 512 0x13000 256 64 0).2 = (256, none)) ∧
    ((m.clu 0).cmds.find? MxEntry.inArray = some mul0 ∧ engBlocked m (.matrix 0) = false ∧ mxWaits (m.clu 0) mul0 = false) ∧
    ((d.clu 0).cmds.find? MxEntry.inArray = some (drain0 false) ∧ mxWaits (d.clu 0) (drain0 false) = false ∧
      ((d.clu 0).cmds.filter fun q => q.read).length < 2) ∧
    ((r.clu 0).cmds.find? (fun q => q.no == 0) = some (drain0 true) ∧ engBlocked r (.copy 0) = false ∧
      (drainPiece r (iss0.acc (.copy 0)) (Shape.parse (shapeRec 0x13000 0x0D 2 2 1)) .f32 false [] 0 4 0 0).2.2 = (4, none) ∧
      (drainPiece r (iss0.acc (.copy 0)) long .f32 false [] 0 256 0 0).2.2 = (64, none) ∧ long.count = 256) ∧
    (tileOf (m.clu 0) 0).conf = some (2, 2, true) := by decide +kernel

def okB {α β : Type} (x : Except α β) : Bool := match x with | .ok _ => true | .error _ => false

/-- A near-bank descriptor at 0x13040: format i8, 2 rows (or 100) of 4 columns, pitch 4, source 0x13080, destination 0x10000; its STATE (R338). -/
def descRec (state : Nat) (rows : Nat := 2) : Nat := state * 2 ^ 128 + 2 ^ 192 + 4 * 2 ^ 224 + rows * 2 ^ 256 + 4 * 2 ^ 288 + 0x13080 * 2 ^ 320 + 0x10000 * 2 ^ 384
def mat0 : NbMat := nbdMat (descRec 2) 0
def tall : NbMat := nbdMat (descRec 2 100) 0
def nearBank (state : Nat) (l : List NbEntry) : State :=
  let s := user [(4, 0x13040), (5, own 0x100), (6, own 0x140), (7, 2 ^ 16), (8, 0)]
  { s with hbm := s.hbm.writeNat 0x13040 64 (descRec state), nbMats := if state = 2 then [(0x13040, mat0)] else [], nbCmds := l, nextId := l.length }

theorem witness_NearBankCommandsFollowTheirDescriptor :
    let p : Path := .mem 0x13040 0x13040 .seq false
    let s := nearBank 0 []
    let t := nearBank 2 []
    let o : ONbmv := ⟨false, .i8, 4, 5, 6, 7, 8, 0⟩
    let c : NbEntry := ⟨0, iss0, .place 0x13040 none 0x13080 4 0, 0⟩
    let m (n : Nat) : NbEntry := ⟨0, iss0, .mv 0x13040 .i8 false false false [1, 2, 3, 4] (BitVec.ofNat 64 (own 0x140)) 0 2 0 n [], 0⟩
    let x := { nearBank 2 [c] with ev := some (.nbcfgPlaced 0) }
    let r := (atomicPath (release s 0 .dev) (curAcc (release s 0 .dev)) p 64 .dev fun _ => none).1
    (readyB (.nbcfg ⟨4, 8, 0⟩) s = true ∧ nbdPath s (curAcc s) (s.cur.rG 4) .at = .ok p ∧ Rule.calm s ∧ s.thboot = false ∧ nbdBad r = false ∧
      r = descRec 0 ∧ (∀ j ∈ List.range 2, ownRangeBad s (BitVec.ofNat 64 (0x13080 + 4 * j)) 4 = false) ∧ futCheck s.cur.win (s.cur.rG 8) = none ∧
      nbdState r ≠ 1 ∧ nbdInuse r = 0) ∧
    (readyB (.nbmv ⟨false, .i8, 4, 5, 6, 7, 8, 0⟩) t = true ∧ nbdPath t (curAcc t) (t.cur.rG 4) .at = .ok p ∧ t.nbMats.find? 0x13040 = some mat0 ∧
      nbdLocal t (curAcc t) (t.cur.rG 4) .at = none ∧ localCheck t (curAcc t) .rd [(t.cur.rG 5, 1, 1)] = none ∧ nbmvSatBad o none = false ∧
      nbmvSatBad o (some mat0.format) = false ∧ xLocal t (curAcc t) (t.cur.rG 5) 4 1 = none ∧ nbmvCheck t t.cur o (some mat0) (descRec 2) = none ∧
      okB (engRead t (curAcc t) (t.cur.rG 5) 4) = true ∧ readyB (.nbstat ⟨8, 4, 0⟩) t = true ∧ nbdPath t (curAcc t) (t.cur.rG 4) .rd = .ok p) ∧
    (nbMatOf x 0x13040 = some (0x13040, mat0) ∧ nbBlocked x c = false ∧
      destFrames x (iss0.acc (nbEngine x c)) mat0.dest (ceilDiv (addrPart mat0.dest % 4096 + mat0.span) 4096) 0 = .ok [0] ∧
      (nbRows x iss0 mat0 0x13080 4 (nbBlock 0 2) 0).2 = (2, none) ∧ (nbRows x iss0 tall 0x13080 4 (nbBlock 0 100) 0).2 = (64, none)) ∧
    (nbBlocked (nearBank 2 [m 0]) (m 0) = false ∧ okB (nbProduct (nearBank 2 [m 0]) iss0 mat0 .i8 false [1, 2, 3, 4] (fun _ => 0) (nbBlock 0 2) 0) = true ∧
      okB (engWrite (nearBank 2 [m 0]) (iss0.acc (nbEngine (nearBank 2 [m 0]) (m 0))) (BitVec.ofNat 64 (own 0x140)) 8 7) = true ∧
      nbBlocked (nearBank 2 [m 2]) (m 2) = false) ∧
    (let w : NbEntry := ⟨0, iss0, .mv 0x13040 .i8 false false true [1, 2, 3, 4] 0 0 2 0 0 [], 0⟩
     let v : NbEntry := ⟨0, iss0, .mv 0x13040 .i8 false false true [1, 2, 3, 4] 0 0 40 0 0 (List.replicate 27 7), 0⟩
     let z := { nearBank 2 [] with nbMats := [(0x13040, tall)] }
     nbBlocked (nearBank 2 [w]) w = false ∧ retryFull (nearBank 2 [w]) 0 = false ∧ Nat.min (28 - 0) (nbBlock 0 2) = 2 ∧
     okB (nbProduct (nearBank 2 [w]) iss0 mat0 .i8 false [1, 2, 3, 4] (fun _ => 0) 2 0) = true ∧
     nbBlocked { z with nbCmds := [v] } v = false ∧ Nat.min (28 - 27) (nbBlock 0 40) = 1 ∧
     okB (nbProduct { z with nbCmds := [v] } iss0 tall .i8 false [1, 2, 3, 4] (fun _ => 0) 1 0) = true) := by decide +kernel

/-- A copy from 0x13000 to 0x13800 of `n` bytes, `pos` of them done, active on cluster 0. -/
def copying (n pos : Nat) : State :=
  { user [] with clusters := [(0, { Cluster.reset with active := some (0, ⟨iss0, .cpy 0x13800 0x13000 n 0 0, pos, 0⟩) })] }

/-- A shaped copy of four elements to f32, `pos` of them done. -/
def shaping (pos : Nat) : State :=
  { user [] with clusters := [(0, { Cluster.reset with active := some (0, ⟨iss0, .cpyt (Shape.parse (shapeRec 0x13800 0x0D 2 2 1))
    (Shape.parse (shapeRec 0x13000 0x0C 2 2 1)) 0 0 0 0, pos, 0⟩) })] }

theorem witness_CopiesMoveAndCount :
    let s := user [(4, 0x13800), (5, 0x13000), (6, 260), (7, own 0x100), (8, 1), (9, 0)]
    let c := board 0 { coreOf (live [(4, own 0x240), (5, own 0x280), (6, 0)] []) with
      spad := (Mem.writeNat [] 0x240 64 (shapeRec 0x13800 0x0D 2 2 1)).writeNat 0x280 64 (shapeRec 0x13000 0x0C 2 2 1) }
    let r := shapeRec 0x13800 0x0D 2 2 1
    let q := shapeRec 0x13000 0x0C 2 2 1
    (readyB (.cpy ⟨4, 5, 6, 0, 0, 0⟩) s = true ∧ Rule.onCore s ∧ Rule.calm s ∧ placeFull s 0 = false ∧ (s.cur.rG 6).toNat ≤ 2 ^ 32 ∧
      rangesMeet (addrPart (s.cur.rG 4)) (addrPart (s.cur.rG 5)) 260 = false ∧ ownRangeBad s (s.cur.rG 4) 260 = false ∧
      ownRangeBad s (s.cur.rG 5) 260 = false ∧ syncCheck s 0 = none ∧ futCheck s.cur.win 0 = none) ∧
    (readyB (.cpyt ⟨4, 5, 6, 0, 0, 0⟩) c = true ∧ localCheck c (curAcc c) .rd [(c.cur.rG 4, 64, 64), (c.cur.rG 5, 64, 64)] = none ∧
      pathHold c (curAcc c) (.scratch 0 0x240) 64 .rd = none ∧ pathHold c (curAcc c) (.scratch 0 0x280) 64 .rd = none ∧
      resolve c (curAcc c) (c.cur.rG 4) 64 64 .rd .any = .ok (.scratch 0 0x240) ∧ resolve c (curAcc c) (c.cur.rG 5) 64 64 .rd .any = .ok (.scratch 0 0x280) ∧
      (readPath c (curAcc c) (.scratch 0 0x240) 64).1 = r ∧ (readPath c (curAcc c) (.scratch 0 0x280) 64).1 = q ∧ cpytCheck r q 0 0 = none ∧
      shapeOwnBad c (Shape.parse r) 0 = false ∧ shapeOwnBad c (Shape.parse q) 0 = false ∧ placeFull c 0 = false ∧ Rule.calm c) ∧
    (let k := copying 260 0
     engBlocked k (.copy 0) = false ∧ syncBusy k (iss0.acc (.copy 0)) 0 = false ∧ okB (engRead k (iss0.acc (.copy 0)) 0x13000 256) = true ∧
      okB (engWrite k (iss0.acc (.copy 0)) 0x13800 256 0) = true ∧ addAddr 0x13800 0 = some 0x13800) ∧
    (readyB (.syncwait ⟨.dev, 10, 7, 8, 0, 0⟩) s = true ∧ readyB (.syncwait ⟨.dev, 10, 7, 9, 0, 0⟩) s = true ∧
      syncPath s (curAcc s) (s.cur.rG 7) .rd = .ok (0, 0x100) ∧ syncBroken s 0 0x100 = false ∧ Rule.syncWord s 0 0x100 = 0 ∧
      readyB (.syncadd ⟨.dev, 7, 8, 0⟩) s = true ∧ syncPath s (curAcc s) (s.cur.rG 7) .at = .ok (0, 0x100) ∧ Rule.calm s) ∧
    (readyB (.cestat ⟨5⟩) (copying 4 0) = true ∧ ((copying 4 0).clu 0).active.map (·.1) = some 0) := by decide +kernel

/-- The last pieces of both copies, a future that an engine resolves, and the fault of a copy's task. -/
theorem witness_copy_events :
    let k := shaping 0
    let d := Shape.parse (shapeRec 0x13800 0x0D 2 2 1)
    engBlocked k (.copy 0) = false ∧ d.count = 4 ∧ bytesBefore d 0 0 = 0 ∧
      (cpytPiece k (iss0.acc (.copy 0)) d (Shape.parse (shapeRec 0x13000 0x0C 2 2 1)) 0 0 0 4 0 0).2.2 = (4, 16, none) ∧
      okB (syncAdd k (iss0.acc (.copy 0)) (BitVec.ofNat 64 (own 0x100)) 16) = true ∧ engBlocked (shaping 4) (.copy 0) = false ∧
      engBlocked (copying 260 260) (.copy 0) = false ∧
      findWindow iss0.win (addrPart 0x13900) = some (vget win0 0 Window.reset) ∧ (vget win0 0 Window.reset).ia (addrPart 0x13900) = 0x13900 ∧
      resolveIa k (iss0.acc (.copy 0)) 0 0x13900 .at .future 16 = .ok (.mem 0x13900 0x13900 .seq false) ∧
        (atomicPath k (iss0.acc (.copy 0)) (.mem 0x13900 0x13900 .seq false) 16 .dev fun _ => none).1 % 4 = 0 ∧
      ((copying 4 0).clu 0).active.isSome = true ∧ iss0.task = (engPacket (copying 4 0) iss0 (.copy 0) { code := 0x05 }).task := by
  decide +kernel

/-- A pipeline descriptor at 0x300 (2 tiles of 256 bytes, 2 buffers at 0x1000, sync word at 0x500, queue 0, loader record at 0x240; R185) and its
loader record of 64 f32 elements. -/
def twRec : Nat :=
  2 ^ 208 + 2 ^ 216 + 2 * 2 ^ 232 + 0x1000 * 2 ^ 256 + 0x500 * 2 ^ 288 + 256 * 2 ^ 320 + 2 * 2 ^ 352 + own 0x240 * 2 ^ 384
def ldRec : Nat := shapeRec 0x13000 0x0D 64 1 2
/-- Cluster 0 with queue 0 of two entries; its pipeline runs where `w` says. -/
def walked (w : TileWalk) : State :=
  { board 0 { coreOf (live [(4, own 0x300)] []) with spad := (Mem.writeNat [] 0x240 64 ldRec).writeNat 0x300 64 twRec } with
    clusters := [(0, { Cluster.reset with
      qd := vset (Vector.replicate 16 0) 0 (BitVec.ofNat 64 (2 ^ 63 + 2 ^ 20 + 0xC0)), qOwner := vset (Vector.replicate 16 0) 0 5, tw := w })] }
def walk (stores : List (Nat × Nat × Nat)) : TileWalk :=
  { TileWalk.reset with
    run := true, iss := some iss0, ld := some (Shape.parse ldRec), st := some (Shape.parse ldRec), tiles := 2, tbytes := 256, swoff := 0x500
    bufoff := 0x1000, nbuf := 2, rect := (0, 0, 1, 1), credits := [(0, 0), (0, 1)], stores := stores, lastKid := 5 }
/-- A gather of two 4-byte rows (R348). -/
def gat0 : GatherCmd := ⟨iss0, BitVec.ofNat 64 (own 0x200), BitVec.ofNat 64 (0x0D * 2 ^ 59 + 0x13000), BitVec.ofNat 64 (own 0x100), 2, 4, 0, 0⟩
def gathering : State := { user [] with dies := [(0, { Die.reset with running := true, gathers := [(0, gat0)] })] }

theorem witness_GathersAndTileWalksRun :
    let s := user [(4, own 0x200), (5, 0x0D * 2 ^ 59 + 0x13000), (6, own 0x100), (7, 2 + 2 ^ 16), (8, 2 ^ 16)]
    let x := gat0.iss.acc (.gather 0 0)
    let i := walked TileWalk.reset
    let r := walked (walk [])
    let p := walked (walk [(0, 0, 0)])
    (readyB (.gather ⟨4, 5, 6, 7, 0, 0⟩) s = true ∧ gatherCheck s (s.cur.rG 4) (s.cur.rG 5) (s.cur.rG 6) (s.cur.rG 7) = .ok 4 ∧
      readyB (.gather ⟨4, 5, 6, 8, 0, 0⟩) s = true ∧ gatherCheck s (s.cur.rG 4) (s.cur.rG 5) (s.cur.rG 6) (s.cur.rG 8) = .ok 4 ∧
      syncCheck s 0 = none ∧ Rule.calm s ∧ ((s.die 0).gathers.filter fun q => q.1 == 0).length < 8) ∧
    (gatherHead gathering 0 0 = some gat0 ∧ engBlocked gathering (.gather 0 0) = false ∧ syncBusy gathering x 0 = false ∧
      okB (engRead gathering x gat0.idx 16) = true ∧ okB (gatherRows gathering x gat0 [0, 0] []) = true ∧
      okB (engWriteAll gathering x [(gat0.dst, 4, 0), (gat0.dst + 4, 4, 0)]) = true) ∧
    (readyB .twstop i = true ∧ (i.clu 0).tw.run = false ∧ readyB .twstop r = true ∧ (r.clu 0).tw.lastKid = r.cur.kid ∧
      readyB .twstop (walked { walk [] with lastKid := 6 }) = true ∧ readyB (.twstat ⟨5⟩) r = true) ∧
    (readyB (.twrun ⟨4, 0, 0⟩) i = true ∧ resolve i (curAcc i) (i.cur.rG 4) 64 64 .rd .any = .ok (.scratch 0 0x300) ∧
      pathHold i (curAcc i) (.scratch 0 0x300) 64 .rd = none ∧ pathHold i (curAcc i) (.scratch 0 0x240) 64 .rd = none ∧
      localCheck i (curAcc i) .rd [(i.cur.rG 4, 64, 64)] = none ∧ (readPath i (curAcc i) (.scratch 0 0x300) 64).1 = twRec ∧ twBad twRec = false ∧
      (TwDesc.parse twRec).st = 0 ∧ (TwDesc.parse twRec).ld = BitVec.ofNat 64 (own 0x240) ∧
      localCheck i (curAcc i) .rd [((TwDesc.parse twRec).ld, 64, 64)] = none ∧
      resolve i (curAcc i) (TwDesc.parse twRec).ld 64 64 .rd .any = .ok (.scratch 0 0x240) ∧ twShapeBad ldRec 256 = false ∧
      twPlaceBad i [0] (TwDesc.parse twRec) i.cur.kid = none ∧ twOwnBad i (Shape.parse ldRec) 2 = false ∧ (Shape.parse ldRec).tiles = 2 ∧ Rule.calm i) ∧
    (engBlocked r (.tileWalk 0) = false ∧ tileFault r (walk []) 0 0 = none ∧ tileWaits r (walk []) 0 0 = false ∧
      okB (tileRead r (iss0.acc (.tileWalk 0)) (Shape.parse ldRec) 0 64 0) = true) ∧
    ((p.core 0).rangeLive 0x1000 256 false = true ∧ (∀ i ∈ List.range 5, p.spPoison.contains (0, 0x1000 / 64 + i) = false) ∧
      (∀ n ∈ List.range 64, ((Shape.parse ldRec).addr 0 ((Shape.parse ldRec).index n)).isSome = true) ∧
      okB (engWriteAll p (iss0.acc (.tileWalk 0)) ((List.range 64).map fun n => (((Shape.parse ldRec).addr 0 ((Shape.parse ldRec).index n)).getD 0, 4, 0))) = true) := by
  decide +kernel

end Sys2Proof.Tests
end

