-- ==== Sys2Proof/Tests/WitnessGraph.lean ====
section
/-! SUPPORT. Witnesses for the statement about graph objects. -/

namespace Sys2Proof.Tests

set_option Elab.async false

open Sys2Proof.Machine

/-- The variable at 0x1000 (one component, one slot; `fid` in its slot) and the factor at 0x2000 (over one variable, damping `beta`, link to the
variable's slot through channel 9), with ones in both forms (R57 to R63). -/
def objects (fid beta : Nat) : Mem :=
  let v := (((Mem.writeNat [] 0x1000 8 (3 + 2 ^ 32 + 2 ^ 40)).writeNat 0x1008 4 0x3F800000).writeNat 0x1040 8 (0x3F800000 * (1 + 2 ^ 32))).writeNat
    (0x1000 + slotOff 1 0) 4 fid
  ((((v.writeNat 0x2000 6 (9 + 2 ^ 32 + 2 ^ 40)).writeNat 0x2008 4 beta).writeNat 0x2018 1 1).writeNat 0x2020 8 (9 * 2 ^ 16 + 0x1000 * 2 ^ 32)).writeNat 0x2040 8
    (0x3F800000 * (1 + 2 ^ 32))

def var0 : GObj := ⟨0x1000, varExtent 1 1, 5, 0, []⟩
def fac0 (links : Nat) : GObj := ⟨0x2000, facExtent [1], 5, BitVec.ofNat 4 links, []⟩

/-- Core 0 with the variable and the factor, channel 9 to its GMU, and `inq` in the queue. -/
def graph (fid links : Nat) (inq : List Msg := []) (beta : Nat := 0) : State :=
  let x := live [(4, own 0x1000), (5, own 0x2000), (6, 0xF1 * 2 ^ 48 + 0x400), (7, own 0x40), (8, own 0x3000), (9, 4 + 2 ^ 32 + 2 ^ 40), (10, 4), (11, 1),
    (12, 0x3F800000), (13, 9 * 2 ^ 16 + 0x1000 * 2 ^ 32), (14, 2 ^ 16 + 2 ^ 24), (15, 0x13000), (16, 64), (17, 0), (19, 1 + 2 ^ 32)] []
  board 0 { coreOf x with
    spad := objects fid beta, handlers := vset (Vector.replicate 64 0) 9 (BitVec.ofNat 128 (2 ^ 127 + 2 ^ 124 + 5 * 2 ^ 80))
    wsets := vset Core.reset.wsets 0 ⟨5, win0⟩, gmu := ⟨[var0], [fac0 links], inq, [], false, 0⟩ }

/-- The factor's message to the variable (R64). -/
def toVar (fid : Nat) : Msg :=
  { dstDev := 0, dst := 0, ch := 9, srcDev := 0, srcXR := false, srcCore := 0, len := 3, kind := .graph, tagv := true, tag := 0
    payload := BitVec.ofNat 960 (0x1000 + 2 ^ 40 + fid * 2 ^ 64 + 0x3F800000 * (2 ^ 96 + 2 ^ 128)), kid := 5, world := false, resend := false, acq := none
    task := 0x12345, pc := 0x10000 }
def bind0 (slot : Nat) : BindReq := ⟨0, 0x12345, 0x2000, 0, 0, 0x1000, slot, 9, 1, 9, 5, false, 0, false, 18, 12⟩
/-- Directories of 1024 objects each. -/
def crowded : State :=
  let s := graph 9 0
  { s with cores := [(0, { s.core 0 with gmu := ⟨(List.range 1024).map fun n => ⟨2 ^ 40 + 64 * n, 64, 5, 0, []⟩,
      (List.range 1024).map fun n => ⟨2 ^ 41 + 64 * n, 64, 5, 0, []⟩, [], [], false, 0⟩ })] }
/-- A snapshot of cluster 0 waits at the controller, frozen or not (R363). -/
def snapped (frozen : Bool) : State :=
  { graph 9 0 with dies := [(0, { Die.reset with running := true, snaps := [⟨0x12345, (0, 0, 1, 1), frozen, 0, 0, false⟩] })] }

/-- Making objects, and linking them. -/
theorem witness_GraphObjectsAreMadeAndUpdated :
    let s := graph 0xFFFFFFFF 0
    (readyB (.gvar ⟨18, 8, 9, 7, 12, 6, 0⟩) s = true ∧ Rule.onCore s ∧ (s.cur.rG 8).toNat % 2 ^ 56 = 0xF0 * 2 ^ 48 + 0x3000 ∧
      0x3000 + varExtent 1 1 ≤ s.cur.claim * 16384 ∧ Rule.formAt s (s.cur.rG 7) 8 ∧ (s.cur.rG 6).toNat % 32 = 0 ∧ recBad s (s.cur.rG 6) = false ∧
      bitsOf (s.cur.rG 9) 63 32 = 1 + 2 ^ 8 ∧ bitsOf (s.cur.rG 9) 31 0 ≠ 0xFFFFFFFF ∧ tauBad 0x3F800000 = false ∧
      objOverlap s 0 0x3000 (varExtent 1 1) = false ∧ gmuHeld s = false ∧ (Rule.vars s).length < 1024 ∧ objPoison s 0 0x40 8 = false ∧
      busyPort s [(0, 0x3000, varExtent 1 1), ((recOf 0 (s.cur.rG 6).toNat).1, (recOf 0 (s.cur.rG 6).toNat).2, 32)] = none ∧
      Rule.apart (recOf 0 (s.cur.rG 6).toNat) 0 0x3000 (varExtent 1 1)) ∧
    (readyB (.gfac ⟨18, 8, 10, 19, 7, 6, 0⟩) s = true ∧ Rule.formAt s (s.cur.rG 7) (4 * packedLen 1) ∧ betaBad (bitsOf (s.cur.rG 10) 63 32) = false ∧
      bitsOf (s.cur.rG 19) 39 32 = 1 ∧ (s.cur.rG 19).toNat % 256 = 1 ∧ bitsOf (s.cur.rG 19) 63 40 = 0 ∧
      (List.range 1).map (fun j => (s.cur.rG 19).toNat / 2 ^ (8 * j) % 256) = [1] ∧ facDim [1] ≤ 12 ∧ objOverlap s 0 0x3000 (facExtent [1]) = false ∧
      0x3000 + facExtent [1] ≤ s.cur.claim * 16384 ∧ portBusy s 0 0x3000 (facExtent [1]) = false ∧ (Rule.facs s).length < 1024 ∧
      objPoison s 0 0x40 (4 * packedLen 1) = false) ∧
    (readyB (.glink ⟨18, 5, 17, 13, 0⟩) s = true ∧ Rule.object s (s.cur.rG 5) (fac0 0) ∧ Rule.factor s 0 (fac0 0) ∧ 0 < spRead s 0 0x2004 1 ∧
      (fac0 0).links.getLsbD 0 = false ∧ bitsOf (s.cur.rG 13) 15 11 = 0 ∧ bitsOf (s.cur.rG 13) 23 16 = 9 ∧ objPoison s 0 0x2000 64 = false) ∧
    (s.findTask 0x12345 = some (0, 0) ∧ gmuRuns s 0 = true ∧
      busyPort s [(0, 0x1000 + slotOff 1 0, 4), (0, 0x2000 + lastOff (facDims s 0 0x2000) 0, 4 * packedLen 1)] = none ∧ bindReason s (bind0 1) = some 4 ∧ bindReason s { bind0 0 with offs := 0x40 } = some 3 ∧
      findVar s 0 0x40 = none ∧ Rule.variable_ s 0 var0 1 1 ∧ bindReason (graph 9 0) (bind0 0) = some 7 ∧ bindReason s (bind0 0) = none ∧
      freeSub s 0 = some 0 ∧ pubCheck s 0 5 0 (0x1000 + 0x40) (beliefBytes 1) = none) := by
  intros; and_intros <;> decide +kernel

/-- The directories are full. -/
theorem witness_graph_full : 1024 ≤ (Rule.vars crowded).length ∧ 1024 ≤ (Rule.facs crowded).length ∧
    objOverlap crowded 0 0x3000 (varExtent 1 1) = false ∧ readyB (.gvar ⟨18, 8, 9, 7, 12, 6, 0⟩) crowded = true := by
  and_intros <;> decide +kernel

/-- Messages, arrivals, and the fields of objects. -/
theorem witness_graph_messages :
    let s := graph 9 1
    let b := graph 9 1 [] 0x7FC00000
    let q := graph 9 1 [toVar 9]
    (readyB (.gfmsg ⟨18, 5, 17, 0⟩) s = true ∧ Rule.object s (s.cur.rG 5) (fac0 1) ∧ Rule.factor s 0 (fac0 1) ∧ spRead s 0 0x2004 1 = 1 ∧
      (fac0 1).links.getLsbD 0 = true ∧ buildPoison s 0 0x2000 0 = false ∧
      busyPort s [(0, 0x2000, (fac0 1).ext), ((Rule.recordOf s 0 (fac0 1)).1, (Rule.recordOf s 0 (fac0 1)).2, 32)] = none ∧
      Rule.apart (Rule.recordOf s 0 (fac0 1)) 0 0x2000 (fac0 1).ext ∧ (match buildMsg s 0 0x2000 0 with | .ok _ => true | .error _ => false) = true ∧
      (match buildMsg b 0 0x2000 0 with | .ok _ => false | .error _ => true) = true) ∧
    ((q.core 0).gmu.inq = toVar 9 :: [] ∧ gmuRuns q 0 = true ∧ (q.core 0).refq = [] ∧
      (match arrivalCheck q 0 (toVar 9) with | .ok v => v == var0 | .error _ => false) = true ∧
      (match arrivalCheck q 0 (toVar 8) with | .ok _ => false | .error n => n == 3) = true ∧ Rule.variable_ q 0 var0 1 1 ∧ arrivalPoison q 0 (toVar 9) = false ∧
      busyPort q (arrivalPorts q 0 (toVar 9)) = none ∧ busyPort q [((senderRec (toVar 8)).1, (senderRec (toVar 8)).2, 32)] = none ∧
      Rule.apart (senderRec (toVar 9)) 0 0x1000 var0.ext ∧ Rule.apart (Rule.recordOf q 0 var0) 0 0x1000 var0.ext) ∧
    (let z : State := q.modCore 0 fun o => { o with gmu := { o.gmu with frozen := true } }
     (z.core 0).gmu.inq = toVar 9 :: [] ∧ gmuRuns z 0 = true ∧ (z.core 0).refq = [] ∧ (z.core 0).gmu.frozen = true ∧
      (match arrivalCheck z 0 (toVar 9) with | .ok v => v == var0 | .error _ => false) = true) ∧
    (readyB (.gdamp ⟨5, 17, 0⟩) s = true ∧ findFac s 0 0x2000 = some (fac0 1) ∧ betaBad 0 = false ∧ portBusy s 0 0x2008 4 = false ∧
      readyB (.gtol ⟨4, 12, 0⟩) s = true ∧ Rule.object s (s.cur.rG 4) var0 ∧ findVar s 0 0x1000 = some var0 ∧ 64 ≤ var0.ext ∧ tauBad 0x3F800000 = false ∧ gmuHeld s = false ∧
      objPoison s 0 0x1000 64 = false ∧ busyPort s [(0, 0x1000, 64), ((Rule.recordOf s 0 var0).1, (Rule.recordOf s 0 var0).2, 32)] = none ∧
      Rule.apart (Rule.recordOf s 0 var0) 0 0x1000 var0.ext ∧ readyB (.grelin ⟨5, 7, 0⟩) s = true ∧ Rule.formAt s (s.cur.rG 7) 8 ∧
      portBusy s 0 0x2000 (fac0 1).ext = false ∧ objPoison s 0 0x2000 64 = false ∧ objPoison s 0 0x40 8 = false) ∧
    (readyB (.gcvg ⟨18, 6, 0⟩) s = true ∧ recBad s (s.cur.rG 6) = false ∧
      objPoison s (recOf 0 (s.cur.rG 6).toNat).1 (recOf 0 (s.cur.rG 6).toNat).2 32 = false ∧
      busyPort s [((recOf 0 (s.cur.rG 6).toNat).1, (recOf 0 (s.cur.rG 6).toNat).2, 32)] = none) := by
  intros; and_intros <;> decide +kernel

/-- Every retry buffer has room for the messages of a GMU operation. -/
theorem witness_graph_places :
    ∀ s ∈ [graph 9 1, graph 0xFFFFFFFF 0, graph 9 0, graph 9 1 [toVar 9]], ∀ b, (s.core b).retry.length ≤ 6 := fun s m =>
  places_free ((by decide +kernel : ∀ s ∈ [graph 9 1, graph 0xFFFFFFFF 0, graph 9 0, graph 9 1 [toVar 9]],
    (s.cores.all fun q => decide (q.2.retry.length ≤ 6)) = true) s m)

/-- No operation of the group is under way at the core; an unbind waits at a frozen GMU, and where none is frozen it does not. -/
theorem witness_graph_idle :
    (∀ s ∈ [graph 9 1, graph 0xFFFFFFFF 0, graph 9 0, graph 9 1 [toVar 9], snapped true, crowded], gmuBusy s s.curAgent = false) ∧
    unbindHeld (graph 9 1) 0 0 = false ∧
    unbindHeld ((graph 9 1).modCore 0 fun o => { o with gmu := { o.gmu with frozen := true } }) 0 0 = true := by
  and_intros <;> decide +kernel

/-- Reading, snapshots, freeing and unbinding. -/
theorem witness_graph_reading :
    let s := graph 9 1
    let u := graph 9 0
    let v := snapped true
    (readyB (.gread ⟨18, 4, 17, 0⟩) s = true ∧ readyB (.gread ⟨18, 4, 11, 0⟩) s = true ∧ Rule.object s (s.cur.rG 4) var0 ∧ Rule.variable_ s 0 var0 1 1 ∧
      s.cur.openName true (18 + 1) = true ∧ s.cur.fullV (18 + 1) = true ∧ f32Bad 0x3F800000 = false ∧ f32Bad 0 = true ∧
      objPoison s 0 0x1000 64 = false ∧ objPoison s 0 0x1040 (4 * packedLen 1) = false) ∧
    (readyB (.gsnap ⟨18, 14, 15, 16, 0⟩) v = true ∧ (∀ x ∈ [true, false], ((snapped x).die 0).snaps.head? = some ⟨0x12345, (0, 0, 1, 1), x, 0, 0, false⟩) ∧
      v.engWaits = [] ∧ busyPort v (flagPorts v 0 (0, 0, 1, 1)) = none ∧ (snapWrite v ((issuerOf v).acc (.gmu 0)) 0x13000 64 (snapRecords v 0 (0, 0, 1, 1) 5) 0 0).2.2.2.2 = none) ∧
    (readyB (.gfree ⟨4, 0⟩) s = true ∧ gmuHeld s = false ∧ objPoison s 0 0x1000 64 = false ∧
      busyPort s [(0, 0x1006, 2), ((Rule.recordOf s 0 var0).1, (Rule.recordOf s 0 var0).2, 32)] = none ∧ readyB (.gfree ⟨5, 0⟩) u = true ∧ findVar u 0 0x2000 = none ∧
      (fac0 0).links = 0 ∧ readyB (.gfree ⟨5, 0⟩) s = true ∧ (fac0 1).links ≠ 0 ∧ Rule.object u (u.cur.rG 5) (fac0 0) ∧
      objPoison u 0 0x2000 64 = false ∧ gmuHeld u = false) ∧
    ((s.core 0).gmu.frozen = false ∧ (s.core 0).gmu.late = 0 ∧ slotFid s 0 0x1000 0 = 9 ∧ findVar s 0 0x40 = none ∧ gmuRuns s 0 = true ∧
      busyPort s [(0, 0x1000 + slotOff 1 0, 8 + 4 * packedLen 1), (0, 0x1000, 64), (0, 0x1040, beliefBytes 1),
        ((Rule.recordOf s 0 var0).1, (Rule.recordOf s 0 var0).2, 32)] = none) := by
  intros; and_intros <;> decide +kernel

end Sys2Proof.Tests
end

