-- ==== Sys2Proof/Tests/WitnessHost.lean ====
section
/-! SUPPORT. Witnesses for the statements about pages and lines, power and errors, the host and management. -/

namespace Sys2Proof.Tests

set_option Elab.async false

open Sys2Proof.Machine

/-- The device with page tables from 0x14000 down to the leaf of page 0x13, and nothing cached (R197, R198). -/
def paged4 : State :=
  let s := user []
  let e (a : Nat) : Nat := 2 ^ 63 + a
  { s with
    tlb := [], ptroot := 0x14000
    hbm := (((s.hbm.writeNat 0x14000 8 (e 0x15000)).writeNat 0x15000 8 (e 0x16000)).writeNat 0x16000 8 (e 0x17000)).writeNat (0x17000 + 8 * 0x13) 8
      (leafOf 0 0x13).toNat }
/-- Page 0x2 of device 1 (R129). -/
def far : Nat := 2 ^ 34 + 2

theorem witness_PagesAndLinesMoveByTheirEvents :
    let s := user []
    let w : WriteBack := ⟨.thatch, 0, 0x13000 / 64, 0x13000, .seq, 7, 1⟩
    let z : State := { s with dies := [] }
    let c (st : PageSt) : State := { s with pages := [(far, ⟨st, [], [far * 4096], [(5, far * 4096 + 8, 8, 7)], (0, 0, 5)⟩)] }
    let o : State := { s with homes := [(0x11, ⟨[1], none, some 1, []⟩)] }
    let t : State := { board 0 (coreOf { live [] [] with wait := some ⟨.remote 0, 0, 0⟩ }) with time := 2 ^ 24 }
    let r : PageReq := ⟨1, 0x11, true, false, 5⟩
    let b : DevAcc := ⟨1, false, 5, 0x12345, 0x13008, 8, .load⟩
    let y : State := { s with thatch := [(0x13000 / 64, ⟨0, 7, true⟩)] }
    let m : State := board 0 (coreOf { live [] [] with wait := some ⟨.moved 0x13, 0, 0⟩ })
    ((match leaf s (0x13000 / 64 * 64) with | .ok e => Pte.ty e == .seq && Pte.pfn e == 0x13 | .error _ => false) = true ∧
      0x13000 / 64 * 64 / 2 ^ 46 % 64 = s.devno.toNat ∧
      b.ia / 64 = 0x13000 / 64) ∧
    (w.home = .thatch ∧ w.pa % 64 = 0 ∧ w.pa % 2 ^ 36 < ftBase ∧ z.dies = [] ∧ z.thboot = false) ∧
    (Rule.ownPage s 0x11 ∧ pageAsk s r .rd = true ∧ pageAsk o r .wr = true ∧ pageAsk s { r with dev := 0 } .wr = true ∧ 1 ≠ s.devno.toNat ∧ ¬ Rule.ownPage s far ∧ unreachable s (far * 4096) = false ∧ s.pages.find? far = none ∧
      (pageHome s 0x11).op = none ∧ (pageHome o 0x11).op = some 1 ∧ (pageHome o 0x11).queue = []) ∧
    (y.thatch.find? (0x13000 / 64)).map (·.dirty) = some true ∧ s.thatch.find? (0x13000 / 64) = none ∧
    (((c .ow).pages.find? far).map (·.st) = some .ow ∧ ((c .op).pages.find? far).map (·.st) = some .op) ∧
    (leafSlot paged4 0x13000 3 paged4.ptroot.toNat = some (0x17000 + 8 * 0x13, leafOf 0 0x13, 1) ∧ badFrame paged4 0x18000 = false ∧
      Rule.ownPage paged4 0x13 ∧ Pte.pfn (leafOf 0 0x13) ≠ 0x18 ∧ inMove paged4 0x13 = false ∧ paged4.moving.contains (0x13, 0x18000, 1) = false ∧
      0x13 / 1 * 1 = 0x13) ∧
    ((m.ctx 0 0).wait = some ⟨.moved 0x13, 0, 0⟩ ∧ inMove m 0x13 = false ∧ inMove { m with moving := [(0x13, 0x18000, 1)] } 0x13 = true ∧
      (0x13, 0x18000, 1) ∈ ({ paged4 with moving := [(0x13, 0x18000, 1)] } : State).moving) ∧
    (t.now < 1 + 2 ^ 24 ∧ 0 + 2 ^ 24 ≤ t.now ∧ (t.ctx 0 0).wait = some ⟨.remote 0, 0, 0⟩ ∧ (t.ctx 0 0).st = .live ∧ firstUnacked t 0 0 false = none) := by
  intros; and_intros <;> decide +kernel

/-- A write that has left for the host, or for page 2 of device 1, at TIME 0, and a request for that page's ownership. -/
def left (k : Leaving) : Unacked := ⟨k, 0, 0, 0x12345, 5, 0, 0x10000, 0, 0, if k = .own then far * 4096 else far * 4096 + 8, 8, 7, 0⟩
/-- How an access is answered at its home. -/
def homeOf (s : State) (r : DevAcc) (k : AKind) : Res Path := homeChecks s (deviceAcc r.dev.toNat r.task r.kid r.world) 0 r.ia k (wsoNeed r.bytes) r.bytes

/-- A device's access is done, held while its frame moves, refused for its world or its permission, or dropped at a stopped die; no path takes a dirty
page nowhere, and what is not acknowledged is due 2^24 cycles later. -/
theorem witness_remote_accesses :
    let s := user []
    let b : DevAcc := ⟨1, false, 5, 0x12345, 0x13008, 8, .load⟩
    let w : DevAcc := { b with op := .store 7 }
    let mv := { s with moving := [(0x13, 0x18000, 1)] }
    let ro := { s with tlb := [(0x13, ⟨1, BitVec.ofNat 64 (2 ^ 63 + 2 ^ 62 + 0x13 * 2 ^ 12)⟩)] }
    let st := { s with dies := [(0, { s.die 0 with stopped := true, running := false })] }
    let dead := { s with lanesUp := 0, pages := [(far, ⟨.ow, [(far * 4096 + 8, 7)], [far * 4096 + 8], [], (0, 0x12345, 5)⟩)] }
    let op := { s with lanesUp := 0, pages := [(far, ⟨.op, [], [], [(0, far * 4096 + 8, 8, 7)], (0, 0x12345, 5)⟩)] }
    let due (k : Leaving) := { s with time := 2 ^ 24, unacked := [left k] }
    homeOf s b .rd = .ok (.mem 0x13008 0x13008 .seq false) ∧ homeOf mv { b with op := .atomic .add .i64 false 1 0 } .at = .error (.moved 0x13) ∧
    (match homeOf st b .rd with | .error (.fault f) => f.code == 0x1B && f.sub == 3 | _ => false) = true ∧
    (match homeOf ro w .wr with | .error (.fault f) => f.code == 0x07 | _ => false) = true ∧
    (match homeOf s { b with world := true } .rd with | .error (.fault f) => f.code == 0x0C | _ => false) = true ∧
    (match homeOf st w .wr with | .ok (.mem _ pa _ _) => (st.die (frameDie pa)).stopped | .error (.fault f) => f.code == 0x1B && f.sub == 3 | _ => false) = true ∧
    unreachable dead (far * 4096) = true ∧ ((dead.pages.find? far).map fun p => (p.st, p.dirty != [])) = some (.ow, true) ∧
    unreachable op (far * 4096) = true ∧ (op.pages.find? far).isSome = true ∧ op.unacked = [] ∧
    firstUnacked (due .far) 0 0 false = some (left .far) ∧ firstUnacked (due .host) 0 0 true = some (left .host) ∧
    ((due .far).ctx 0 0).wait = none ∧ (left .far).since + 2 ^ 24 ≤ (due .far).now ∧ s.now < (left .far).since + 2 ^ 24 ∧ (left .far).what ≠ .own ∧
    (left .own).what = .own ∧ (left .own).ia / 4096 = far := by decide +kernel

theorem witness_PowerErrorsAndTemperatureAreHandled :
    let s := user []
    s.powerAt < powerInterval s ∧ powerInterval { s with powerAt := 1 } ≤ 1 ∧ (s.die 0).cec ≤ (s.die 0).cethr ∧ (0 : Nat) < 256 ∧ (95 : Byte).toNat = 95 ∧ (94 : Byte).toNat < 95 ∧ (104 : Byte).toNat < 105 ∧ (105 : Byte).toNat = 105 ∧
      ((s.die 0).stopped = true → (s.die 0).running = false) ∧ 71 < 72 ∧ 3 < 4 := by decide +kernel

/-- A command of the host on channel 0 of core 2048, or of the monitor (R408, R409). -/
def command (a n : Nat) (args : Nat) (reply : Nat := 0x1000) : HostCmd := ⟨0, a, 0, 0, 0, 1, BitVec.ofNat 64 reply, n, BitVec.ofNat 832 args⟩

theorem witness_HostAndManagementReachTheDevice :
    let s := user []
    let h : Word := BitVec.ofNat 64 (2 * 2 ^ 20 + 3 * 2 ^ 18 + 2 ^ 17)
    let f : State := { s with hostRetry := List.replicate 16 ⟨hwMsg s 2048 2048 7 2 0 0 false, true, false, 0⟩ }
    let r := 0x10000 + 2 ^ 208 + 2 ^ 216 + 2 ^ 224 + 2 ^ 232 + 32 * 2 ^ 248 + 5 * 2 ^ 304
    let l := command 2048 10 r
    let m := command 2048 5 (0x18000 + (leafOf 0 0x18).toNat * 2 ^ 64)
    let k := command 2048 5 (1 + (2 ^ 63 + 6 * 2 ^ 32) * 2 ^ 64)
    let c := command 2048 6 (0x20000 + 2 ^ 16 * 2 ^ 64 + 3 * 2 ^ 128)
    let q := { c with args := BitVec.ofNat 832 (0x20000 + 2 ^ 16 * 2 ^ 64) }
    let a := command monitor 6 7
    let g := command 2048 3 3
    (s.mgmt.held = false ∧ hostHeaderBad s h = false ∧ s.hostRetry = [] ∧ 16 ≤ f.hostRetry.length ∧ hostHeaderBad s 0 = true ∧ s.mgmt.hdrop ≠ 0xFFFFFFFF) ∧
    (Rule.hostOk s l 10 ∧ s.quiesced = false ∧ launchBad s (hostArg l 0x10 64) = false ∧ recBytes (hostArg l 0x10 64) 8 8 = 0 ∧
      (queuedLaunches (s.die (recBytes (hostArg l 0x10 64) 0x24 1))).length < 64 ∧ launchBad s 0 = true) ∧
    (Rule.hostOk paged4 m 5 ∧ mapCheck paged4 0x18000 (leafOf 0 0x18) 0 0 = none ∧ (mapCheck paged4 0x18001 (leafOf 0 0x18) 0 0).isSome = true ∧
      (leafOf 0 0x18).getLsbD 63 = true ∧ hostArg m 0x10 8 = 0x18000 ∧ hostArg m 0x20 1 = 0 ∧ hostArg m 0x24 4 = 0 ∧
      paged4.quiesced = false ∧ retypeHeld paged4 0x18 (512 ^ 0) .seq = [] ∧ (slotMake paged4 (leafOf 0 0x18) 0x18000 0 4).isSome = true) ∧
    (Rule.hostOk s k 5 ∧ agentWorld s k.agent = false ∧ hostArg k 0x10 1 = 1 ∧ Kt.valid (vget s.kt 1 (0, 0)) = false ∧
      ktBad s 1 (BitVec.ofNat 64 (2 ^ 63 + 6 * 2 ^ 32), 0) = false) ∧
    (Rule.hostOk s c 6 ∧ hostArg c 0x20 4 = 3 ∧ hostArg c 0x24 12 = 0 ∧ hostArg c 0x10 8 = 0x20000 ∧ s.saves.find? ckptKey = none ∧
      (ckptTry s 3 0x20000 (2 ^ 16) 1).2 = some 0 ∧ (ckptTry s 0 0x20000 (2 ^ 16) 1).2 = none ∧ hostArg q 0x20 4 = 0) ∧
    (Rule.hostOk s a 6 ∧ a.reply ≠ 0 ∧ a.reply.toNat + 0x40 + 440 ≤ 2 ^ 44 ∧ (command monitor 6 7 0).reply = 0) ∧
    (Rule.hostOk s g 3 ∧ hostArg g 0x10 1 = 3 ∧ hostArg g 0x11 1 = 0) ∧
    (State.reset.mgmt.held = true ∧ State.reset.mgmt.auxUp = true ∧ State.reset.mgmt.mainOn = true ∧
      s.mgmt.auxUp = true ∧ hostHeaderBad State.reset h = false ∧ State.reset.hostRetry = [] ∧ hostReached s = true ∧ hostReached { s with hostUp := false } = false ∧
      (release0 State.reset).mgmt.bootst = 1 ∧ (release0 State.reset).mgmt.held = false ∧ s.mgmt.bootst ≠ 1 ∧
      dueEvent s = none ∧ s.thboot = false ∧ s.lanesUp ≠ 0 ∧ (State.reset.hostMem.readNat (State.reset.mgmt.bootaddr.toNat % 2 ^ 44) 4 ≠ 0x46473946)) := by
  intros; and_intros <;> decide +kernel

end Sys2Proof.Tests
end

