-- ==== Sys2Proof/Tests/WitnessMemory.lean ====
section
/-! SUPPORT. Witnesses for the statements about loads, stores, atomics, fences, claims and vector memory. -/

namespace Sys2Proof.Tests

set_option Elab.async false

open Sys2Proof.Machine

/-- g4 is a scratchpad address, g6 one on the REL page, g8 one on the WSO page, g10 the aperture's first, g12 one on the SEQ page; g7 is data. -/
def mem : State := user [(4, own 0x40), (6, 0x11008), (7, 0x1234), (8, 0x12008), (10, 3 * 2 ^ 44), (12, 0x13008), (14, own 0x7FF8), (16, 2 ^ 56 * 0xBD + 0x13000)]
/-- The same with the host node silent. -/
def memSilent : State := { mem with hostUp := false }
/-- The same with a store of the context held for the ownership of page 0x11. -/
def memHeld : State := { mem with pages := [(0x11, ⟨.op, [], [], [(0x12345, 0x11008, 8, 7)], (0, 0x12345, 5)⟩)] }
/-- The same with the WSO word full. -/
def memFull : State := { mem with wsoFull := [0x12008 / 8] }

theorem witness_LoadsLandWhatTheirPathReads :
    let p : Path := .mem 0x11008 0x11008 .rel false
    let q : Path := .mem 0x12008 0x12008 .wso false
    (readyB (.ld ⟨3, true, false, 1, 6, 5, .base⟩) mem = true ∧ effAddr (mem.cur.rG 6) (1 * 8) true = some (0x11008, 0x11010) ∧
      resolve mem (curAcc mem) 0x11008 8 8 .rd .any = .ok p ∧ pathHold mem (curAcc mem) p 8 .rd = none) ∧
    (readyB (.ldAcq ⟨3, .dev, 0, 6, 5, .base⟩) mem = true ∧ readyB (.ldc ⟨3, .dev, 0, 6, 5, .base⟩) mem = true ∧
      effAddr (mem.cur.rG 6) 0 false = some (0x11008, 0x11008)) ∧
    (readyB (.lds ⟨0, 8, 5, 0, .base⟩) memFull = true ∧ effAddr (memFull.cur.rG 8) 0 false = some (0x12008, 0x12008) ∧
      resolve memFull (curAcc memFull) 0x12008 8 8 .rd .lds = .ok q ∧ pathHold memFull (curAcc memFull) q 8 .rd = none ∧ 0x12008 / 8 ∈ memFull.wsoFull) ∧
    (readyB (.lds ⟨0, 8, 5, 0, .base⟩) mem = true ∧ resolve mem (curAcc mem) 0x12008 8 8 .rd .lds = .ok q ∧ 0x12008 / 8 ∉ mem.wsoFull) := by
  decide +kernel

/-- The last eight bytes of the claim. -/
theorem witness_ScratchpadLoadsReadLittleEndian :
    readyB (.ld ⟨3, false, false, 0, 14, 5, .base⟩) mem = true ∧ mem.cur.taintG 14 = false ∧
    effAddr (mem.cur.rG 14) 0 false = some (BitVec.ofNat 64 (own 0x7FF8), BitVec.ofNat 64 (own 0x7FF8)) ∧
    Rule.ownScratch mem (BitVec.ofNat 64 (own 0x7FF8)) 8 8 0x7FF8 ∧ Rule.unpoisoned mem 0x7FF8 := by decide +kernel

theorem witness_LandingFillsTheRegister :
    let l : Landing := ⟨0, 0, 0x12345, false, 5, 9, 0⟩
    let s : State := { mem with ev := some (.loadLand l) }
    s.ev = some (.loadLand l) ∧ (s.ctx 0 0).task = l.task ∧ (s.ctx 0 0).st ≠ .free ∧ (s.ctx 0 0).st ≠ .reserved := by decide +kernel

theorem witness_StoresWriteTheirPath :
    let p : Path := .mem 0x11008 0x11008 .rel false
    let q : Path := .mem 0x12008 0x12008 .wso false
    (readyB (.st ⟨3, false, 0, 6, 7, .base⟩) mem = true ∧ effAddr (mem.cur.rG 6) 0 false = some (0x11008, 0x11008) ∧
      resolve mem (curAcc mem) 0x11008 8 8 .wr .wsoStore = .ok p ∧ pathHold mem (curAcc mem) p 8 .wr = none) ∧
    (readyB (.st ⟨3, false, 0, 8, 7, .base⟩) mem = true ∧ resolve mem (curAcc mem) 0x12008 8 8 .wr .wsoStore = .ok q) ∧
    (readyB (.stRel ⟨3, .dev, 0, 6, 7, .base⟩) mem = true ∧ updatesOut mem 0 = false ∧ storesHeld mem mem.cur.task = false) := by decide +kernel

theorem witness_ScratchpadStoresChangeTheirBytesOnly :
    readyB (.st ⟨3, false, 0, 14, 7, .base⟩) mem = true ∧ Rule.ownScratch mem (BitVec.ofNat 64 (own 0x7FF8)) 8 8 0x7FF8 ∧
    Rule.unpublished mem 0x7FF8 8 ∧ readyB (.st ⟨0, true, 1, 4, 7, .base⟩) mem = true ∧
    effAddr (mem.cur.rG 4) 1 true = some (BitVec.ofNat 64 (own 0x40), BitVec.ofNat 64 (own 0x41)) ∧
    Rule.ownScratch mem (BitVec.ofNat 64 (own 0x40)) 1 1 0x40 ∧ Rule.unpublished mem 0x40 1 := by decide +kernel

theorem witness_StoresReachTheirLevel :
    (readyB (.st ⟨3, false, 0, 10, 7, .base⟩) mem = true ∧ effAddr (mem.cur.rG 10) 0 false = some (0x300000000000, 0x300000000000) ∧
      resolve mem (curAcc mem) 0x300000000000 8 8 .wr .wsoStore = .ok (.aperture 0) ∧
      storesHeld mem mem.cur.task = false ∧ hostReached mem = true) ∧
    (hostReached memSilent = false ∧ readyB (.st ⟨3, false, 0, 10, 7, .base⟩) memSilent = true ∧
      resolve memSilent (curAcc memSilent) 0x300000000000 8 8 .wr .wsoStore = .ok (.aperture 0)) ∧
    (readyB (.st ⟨3, false, 0, 6, 7, .base⟩) mem = true ∧ resolve mem (curAcc mem) 0x11008 8 8 .wr .wsoStore = .ok (.mem 0x11008 0x11008 .rel false) ∧
      (mem.die (frameDie 0x11008)).stopped = false ∧ ownShared mem 0x11008 = false ∧ (mem.core 0).wcb.length < 16) := by decide +kernel

/-- An f32 element with its tag, and a block-scaled one with its scale. -/
theorem witness_TypedElementsFollowTheirTag :
    let s := user [(4, 0x0D * 2 ^ 59 + 0x13000)]
    readyB (.lde ⟨false, 3, 4, 5, .rne, .base⟩) s = true ∧ readyB (.ste ⟨false, 3, 4, 5, .rne, false, .base⟩) s = true ∧
    (match tagOf (s.cur.rG 4) with
     | some (f, k) => f == .f32 &&
       (match elemAddr (s.cur.rG 4) f k 3 3 false with
        | .ok e => e.el.bytes == 4 && e.scale.isNone && (match resolve s (curAcc s) e.va 4 4 .rd with | .ok p => (pathHold s (curAcc s) p 4 .rd).isNone | .error _ => false)
            && (match resolve s (curAcc s) e.va 4 4 .wr with | .ok p => (pathHold s (curAcc s) p 4 .wr).isNone | .error _ => false)
        | .error _ => false)
     | none => false) = true := by decide +kernel

theorem witness_AtomicsReadAndWriteAtOnce :
    let p : Path := .mem 0x13008 0x13008 .seq false
    (readyB (.amo ⟨0, 12, 5, 7, 0, .dev, .sc, .i64, .add, false, 0⟩) mem = true ∧ effAddr (mem.cur.rG 12) 0 false = some (0x13008, 0x13008) ∧
      resolve mem (curAcc mem) 0x13008 8 8 .at .any = .ok p ∧ pathHold mem (curAcc mem) p 8 .at = none) ∧
    (readyB (.amo ⟨0, 4, 5, 7, 0, .core, .sc, .i32, .add, false, 0⟩) mem = true ∧ mem.cur.taintG 4 = false ∧
      readyB (.amo ⟨0, 12, 5, 7, 0, .dev, .rel, .i64, .add, false, 0⟩) mem = true ∧ readyB (.amo ⟨0, 12, 5, 7, 0, .die, .acqrel, .i64, .cas, false, 0⟩) mem = true ∧
      releaseHeld mem .dev = false ∧ releaseHeld mem .die = false ∧ unackedOut (release mem 0 .sys) mem.cur.task = false ∧
      Rule.ownScratch mem (BitVec.ofNat 64 (own 0x40)) 4 4 0x40 ∧ Rule.unpoisoned mem 0x40 ∧ Rule.unpublished mem 0x40 4 ∧
      (Rule.amoInt .add .i32 0 0x1234 0).isSome = true) := by decide +kernel

theorem witness_FencesPushAndDrop :
    (∀ i ∈ ([.fence ⟨.dev, .rel, .base⟩, .fence ⟨.dev, .sc, .base⟩, .fence ⟨.die, .acq, .base⟩] : List Instr), readyB i mem = true) ∧
    (let s := ridge 2048 []
     2048 ≤ s.curAgent ∧ (∀ i ∈ ([.fence ⟨.dev, .acq, .base⟩, .fence ⟨.sys, .rel, .base⟩] : List Instr), readyB i s = true) ∧ releaseHeld s .sys = false ∧
     unackedOut (release s 2048 .sys) s.cur.task = false ∧
     (let t := { s with dies := [(0, { Die.reset with running := true, sark := [(4, ⟨0, 0x40000, 0, 0, false⟩)] })] }
      ((t.die 0).sark.find? 4).map (fun l => l.gen == (t.die 0).skgen) = some true)) ∧
    mem.curAgent < 2048 ∧ releaseHeld mem .dev = false ∧ updatesOut mem 0 = false ∧ storesHeld mem mem.cur.task = false ∧ mem.thboot = false ∧ Scope.ge .die .die = true := by decide +kernel

/-- 18 ways and one byte more. -/
theorem witness_SpresizeAndMaintenanceComplete :
    let s := user [(6, 18 * 16384), (7, 18 * 16384 + 1), (8, 0x11000), (9, 128), (10, 2 ^ 30 + 1), (11, 0xF0 * 2 ^ 48)]
    readyB (.spresize ⟨5, 6, .base⟩) s = true ∧ ((s.cur.rG 6).toNat + 16383) / 16384 = 18 ∧ ((s.cur.rG 7).toNat + 16383) / 16384 = 19 ∧
    storesHeld s s.cur.task = false ∧ storesHeld memHeld memHeld.cur.task = true ∧ heldIn memHeld memHeld.cur.task (0x11000 / 64) (0x1103F / 64) = true ∧
    heldIn s s.cur.task (0x11000 / 64) (0x1107F / 64) = false ∧
    (∀ i ∈ ([.flushs ⟨.dev, 8, 9, .base⟩, .invs ⟨.dev, 8, 9, .base⟩, .flushs ⟨.dev, 8, 10, .base⟩, .invs ⟨.dev, 8, 10, .base⟩, .flushs ⟨.dev, 8, 0, .base⟩,
        .pref ⟨.l1, 8, .base⟩] : List Instr), readyB i s = true) ∧
    rangeIa s s.cur (s.cur.rG 8) 128 = .ok (some (0x11000 / 64, 0x1107F / 64)) ∧ rangeNoRead s (0x11000 / 64) (0x1107F / 64) = false ∧ s.thboot = false ∧
    rangeIa s s.cur (s.cur.rG 11) 128 = .ok none ∧ 2 ^ 30 < (s.cur.rG 10).toNat := by decide +kernel

/-- A context with lane slices. -/
def sliced : State := board 0 (coreOf { live [(8, 1)] [(6, 0)] with lane := true })

theorem witness_VectorMemoryMovesActiveLanes :
    let s := user [(4, own 0x40)]
    (readyB (.vld ⟨false, 0, 4, 5, .base⟩) s = true ∧ readyB (.vst ⟨true, 1, 4, 5, .base⟩) s = true ∧
      effAddr (s.cur.rG 4) 64 true = some (BitVec.ofNat 64 (own 0x40), BitVec.ofNat 64 (own 0x80)) ∧
      Rule.ownScratch s (BitVec.ofNat 64 (own 0x40)) 64 64 0x40 ∧ Rule.unpoisoned s 0x40 ∧ Rule.unpublished s 0x40 64 ∧ Rule.on s.cur .base 15 = true) ∧
    (readyB (.vld ⟨false, 0, 4, 5, .ext 0 (some 8)⟩) s = true ∧ (∀ l, l < 16 → Rule.on s.cur (.ext 0 (some 8)) l = false)) ∧
    (readyB (.vlsld ⟨true, 1, 6, 5, .ext 0 (some 8)⟩) sliced = true ∧ readyB (.vlsst ⟨true, 1, 6, 6, .ext 0 (some 8)⟩) sliced = true ∧
      (∀ l, l < 16 → sliceFault sliced.cur ⟨true, 1, 6, 5, .ext 0 (some 8)⟩ l = none)) ∧
    (readyB (.vlsld ⟨false, 511, 6, 5, .base⟩) sliced = true ∧ readyB (.vlsst ⟨false, 511, 6, 5, .base⟩) sliced = true ∧ sliced.cur.lane = true ∧
      (∀ l, l < 16 → sliceFault sliced.cur ⟨false, 511, 6, 5, .base⟩ l = none)) := by decide +kernel

theorem witness_LaneAccessesCompleteTogether :
    let s := user [(4, 0x13000), (8, 1), (6, 0x0D * 2 ^ 59 + 0x13000)]
    let on := lanesOn s.cur (some 8)
    (readyB (.vldx ⟨4, 5, 6, .ext 0 (some 8)⟩) s = true ∧ readyB (.vstx ⟨4, 5, 6, .ext 0 (some 8)⟩) s = true ∧
      (match lanePaths (.vldx ⟨4, 5, 6, .ext 0 (some 8)⟩) s .rd (laneIndexed (s.cur.rG 4) (s.cur.rV 6)) on with | .inr ps => ps.length == 1 | _ => false) = true ∧
      (match lanePaths (.vstx ⟨4, 5, 6, .ext 0 (some 8)⟩) s .wr (laneIndexed (s.cur.rG 4) (s.cur.rV 6)) on with | .inr ps => ps.length == 1 | _ => false) = true) ∧
    (readyB (.vlde ⟨false, 0, 6, 5, .rne, .ext 0 (some 7)⟩) s = true ∧ (tagOf (s.cur.rG 6)).map (·.1) = some .f32 ∧ lanesOn s.cur (some 7) = [] ∧
      s.cur.ldcs = []) ∧
    (readyB (.vlde ⟨true, 1, 6, 5, .rne, .ext 0 (some 8)⟩) s = true ∧ readyB (.vste ⟨true, 1, 6, 5, .rne, false, .ext 0 (some 8)⟩) s = true ∧
      elemDist .f32 0 16 = some 64 ∧ (addAddr (s.cur.rG 6) 64).isSome = true ∧
      (match lanePaths (.vlde ⟨true, 1, 6, 5, .rne, .ext 0 (some 8)⟩) s .rd (laneElem (s.cur.rG 6) .f32 0 1 true) (lanesOn s.cur (some 8)) with
        | .inr ps => ps.length == 1 | _ => false) = true ∧
      (match lanePaths (.vste ⟨true, 1, 6, 5, .rne, false, .ext 0 (some 8)⟩) s .wr
        (fun l => (laneElem (s.cur.rG 6) .f32 0 1 true l).map fun (va, el, _) => (va, el, none)) (lanesOn s.cur (some 8)) with
        | .inr ps => ps.length == 1 | _ => false) = true) ∧
    (readyB (.vlde ⟨false, 0, 6, 5, .rne, .base⟩) s = true ∧ (match lanePaths (.vlde ⟨false, 0, 6, 5, .rne, .base⟩) s .rd
        (laneElem (s.cur.rG 6) .f32 0 0 false) (lanesOn s.cur none) with | .inr ps => ps.length == 16 | _ => false) = true) ∧
    (readyB (.vste ⟨false, 0, 6, 5, .rne, false, .base⟩) s = true ∧ (match lanePaths (.vste ⟨false, 0, 6, 5, .rne, false, .base⟩) s .wr
        (fun l => (laneElem (s.cur.rG 6) .f32 0 0 false l).map fun (va, el, _) => (va, el, none)) (lanesOn s.cur none) with
      | .inr ps => ps.length == 16 | _ => false) = true) := by decide +kernel

theorem witness_GroupsReductionsAndTopK :
    let s := user [(4, own 0x100), (5, own 0x40), (6, own 0x80), (7, 1), (10, own 0), (11, own 0x200), (12, 3), (13, 2)]
    readyB (.vsp ⟨.add, .i32, .rne, false, 4, 5, 6, 8, none, 0⟩) s = true ∧ s.cur.rG 8 = 0 ∧
    readyB (.vsp ⟨.add, .i32, .rne, false, 4, 5, 6, 7, none, 0⟩) s = true ∧ 0 < (s.cur.rG 7).toNat ∧ Rule.ownScratch s (s.cur.rG 4) 64 64 0x100 ∧
    Rule.ownScratch s (s.cur.rG 5) 64 64 0x40 ∧ Rule.ownScratch s (s.cur.rG 6) 64 64 0x80 ∧ Rule.unpoisoned s 0x100 ∧ Rule.unpublished s 0x100 64 ∧
    (∀ i ∈ ([.vsp ⟨.min, .i32, .rne, false, 4, 5, 6, 7, none, 0⟩, .vsp ⟨.fma, .f32, .rne, false, 4, 5, 6, 7, none, 0⟩,
        .vsp ⟨.max, .f32, .rne, false, 4, 5, 6, 7, none, 0⟩, .vred ⟨.xor, .n32, 5, 6, none, 0⟩, .vred ⟨.min, .i32, 5, 6, none, 0⟩,
        .vred ⟨.add, .f32, 5, 6, none, 0⟩, .vred ⟨.max, .f32, 5, 6, none, 0⟩] : List Instr), readyB i s = true) ∧
    0 + 4 * 3 ≤ 0x200 ∧
    (∀ i ∈ ([.vred ⟨.add, .i32, 5, 6, none, 0⟩, .vred ⟨.or, .n32, 5, 6, none, 0⟩, .vred ⟨.max, .n32, 5, 6, none, 0⟩] : List Instr), readyB i s = true) ∧
    readyB (.vtopk ⟨.n32, 5, 10, 12, 13, 11, 0⟩) s = true ∧ Rule.ownScratch s (s.cur.rG 10) 12 4 0 ∧ Rule.ownScratch s (s.cur.rG 11) 16 8 0x200 ∧
    (∀ j ∈ List.range 3, (s.curAgent, (0 + 4 * j) / 64) ∉ s.spPoison) ∧ (∀ j ∈ List.range 2, Rule.unpublished s (0x200 + 8 * j) 8) := by decide +kernel

end Sys2Proof.Tests
end

