-- ==== Sys2Proof/Tests/WitnessScalar.lean ====
section
/-! SUPPORT. Witnesses for the statements about scalar and vector instructions, control, faults and the step: concrete states and operands that
meet the hypotheses of each clause. -/

namespace Sys2Proof.Tests

set_option Elab.async false

open Sys2Proof.Machine

/-- 1.0 and 1.5 in g6 and g7, and in lane 0 of v6 and v7. -/
def floats : State := user [(6, 0x3F800000), (7, 0x3FC00000)] [(6, 0x3F800000), (7, 0x3FC00000)]

/-- Instructions of one shape over g5, g6, g7. -/
def intForms : List Instr :=
  let w : OAlu := ⟨.i64, 5, 6, 7, .base⟩
  let u : OAluUn := ⟨.n32, 5, 6, .base⟩
  [.add ⟨.i64, false, 5, 6, 7, .base⟩, .add ⟨.i32, true, 5, 6, 7, .base⟩, .sub ⟨.n64, true, 5, 6, 7, .base⟩, .and w, .or w, .xor w, .andn w, .shl w, .shr w,
    .sra w, .min w, .max w, .clz u, .ctz u, .popc u, .mov u]
def intForms2 : List Instr :=
  let w : OAlu := ⟨.i64, 5, 6, 7, .base⟩
  [.addi ⟨5, 6, 3⟩, .addiLit ⟨5, 6, 3⟩, .movi ⟨5, 3⟩, .moviLit ⟨5, 3⟩, .tags ⟨5, 6, .reg 7, .base⟩, .tagg ⟨5, 6, .base⟩, .mul w, .mulh w, .div w, .rem w,
    .bfxu ⟨5, 6, 63, 0⟩, .bfxs ⟨5, 6, 0, 63⟩, .bfi ⟨5, 6, 8, 3⟩, .shli ⟨5, 6, 63⟩, .shri ⟨5, 6, 0⟩, .srai ⟨5, 6, 1⟩, .rori ⟨5, 6, 0⟩, .cmpeq w, .cmpne w,
    .cmplt w, .cmple w, .sel ⟨5, 6, 7, .base⟩, .vext ⟨.i32, 15, 5, 6, .base⟩]
def fcmpForms : List Instr :=
  let o : OFBin := ⟨.f32, .rne, false, 5, 6, 7, .base⟩
  [.fmin o, .fmax o, .fneg ⟨.f32, .rne, false, 5, 6, .base⟩, .fcmpeq o, .fcmplt o, .fcmple o]

theorem witness_ScalarInstructionsWriteTheirResult :
    (∀ i ∈ intForms ++ intForms2, (Rule.intResult i floats.cur).isSome = true ∧ readyB i floats = true) ∧
    (∀ i ∈ fcmpForms, (Rule.fcmpResult i floats.cur).isSome = true ∧ readyB i floats = true) := by decide +kernel

/-- The discarded destination g0 is not shut out. -/
theorem witness_scalar_to_g0 : (Rule.intResult (.add ⟨.i64, false, 0, 6, 7, .base⟩) floats.cur).isSome = true ∧
    readyB (.add ⟨.i64, false, 0, 6, 7, .base⟩) floats = true := by decide +kernel

/-- The case of a float instruction on two operands. -/
def caseOf (i : Instr) (a b : Nat) : Option Rule.FloatCase := (Rule.floatCase i (user [(6, a), (7, b)]).cur).map fun x => x.2

def Rule.finiteB (v : Val) : Bool := !v.isNan && !v.isInf

/-- Finite operands, scalar and by lane; a NaN operand; infinity minus infinity and zero times infinity; an infinite result; and an exact zero. -/
theorem witness_FloatArithmeticRoundsTheExactResult :
    let add : Instr := .fadd ⟨.f32, .rne, false, 5, 6, 7, .base⟩
    let sub : Instr := .fsub ⟨.f32, .rne, true, 5, 6, 7, .base⟩
    let mul : Instr := .fmul ⟨.f32, .rtz, false, 5, 6, 7, .base⟩
    (∀ i ∈ [add, sub, mul, .fma ⟨.f32, .rne, false, 5, 6, 7, .base⟩], readyB i floats = true ∧
      ((Rule.floatCase i floats.cur).map fun x => x.2.args.all Rule.finiteB && decide (x.2.q ≠ 0)) = some true) ∧
    (caseOf add 0x7FC00000 0).map (fun k => k.args.contains .nan) = some true ∧
    (caseOf sub 0x7F800000 0x7F800000).map (fun k => k.args.all (· != .nan) && k.adds.contains (.inf true) && k.adds.contains (.inf false)) = some true ∧
    (caseOf mul 0 0x7F800000).map (fun k => k.args.all (· != .nan) && k.adds.contains .nan) = some true ∧
    (caseOf add 0xFF800000 0x3F800000).map (fun k => k.args.all (· != .nan) && k.adds.contains (.inf true) && !k.adds.contains (.inf false)) = some true ∧
    (caseOf sub 0x3F800000 0x3F800000).map (fun k => k.args.all Rule.finiteB && decide (k.q = 0)) = some true ∧
    (∀ i ∈ ([.vfadd ⟨.rne, false, 5, 6, 7, .base⟩, .vfsub ⟨.rne, false, 5, 6, 7, .base⟩, .vfmul ⟨.rne, true, 5, 6, 7, .base⟩,
        .vfma ⟨.rne, false, 5, 6, 7, .ext 0 (some 8)⟩] : List Instr), readyB i floats = true ∧ (Rule.laneCase i floats.cur 0).isSome = true ∧
      ((Rule.laneCase i floats.cur 15).map fun x => x.2.2.args.all Rule.finiteB) = some true) ∧ Rule.on floats.cur .base 15 = true := by decide +kernel

/-- 1 + 3/2 as a quotient. -/
theorem witness_float_quotient : (0 : ℕ) < 2 ∧ |((1 : ℚ) + 3 / 2)| = ((5 : ℕ) : ℚ) / (2 : ℕ) := by norm_num

def laneForms : List Instr :=
  let w : OVBin := ⟨.i32, 5, 6, 7, .ext 0 (some 8)⟩
  let t : OV3 := ⟨5, 6, 7, .base⟩
  [.vadd ⟨.i32, false, 5, 6, 7, .base⟩, .vsub ⟨.n32, false, 5, 6, 7, .base⟩, .vand w, .vor w, .vxor w, .vandn w, .vshl w, .vshr w, .vsra w, .vmin w, .vmax w, .vmul w,
    .vmulh w, .vshli ⟨31, 5, 6, .base⟩, .vshri ⟨0, 5, 6, .base⟩, .vsrai ⟨1, 5, 6, .base⟩, .vsel t, .vmov ⟨5, 6, .base⟩, .vbcast ⟨5, 6, .base⟩, .viota ⟨5, .base⟩,
    .vshuf t, .vfmin t, .vfmax t, .vfneg ⟨5, 6, .base⟩, .vins ⟨15, 5, 6, .base⟩]

theorem witness_LaneInstructionsWriteActiveLanes :
    (∀ i ∈ laneForms, (Rule.laneResult i floats.cur).isSome = true ∧ readyB i floats = true) ∧
    (∀ i ∈ ([.vadd ⟨.i32, true, 5, 6, 7, .base⟩, .vsub ⟨.n32, true, 5, 6, 7, .base⟩, .vdiv ⟨.i32, 5, 6, 7, .base⟩, .vrem ⟨.n32, 5, 6, 7, .base⟩] : List Instr),
      (Rule.laneFlagged i floats.cur).isSome = true ∧ readyB i floats = true) ∧
    (∀ i ∈ ([.vcmpeq ⟨.i32, 5, 6, 7, .base⟩, .vcmpne ⟨.i32, 5, 6, 7, .base⟩, .vcmplt ⟨.i32, 5, 6, 7, .base⟩, .vcmple ⟨.n32, 5, 6, 7, .base⟩,
        .vfcmpeq ⟨5, 6, 7, .base⟩, .vfcmplt ⟨5, 6, 7, .base⟩, .vfcmple ⟨5, 6, 7, .base⟩] : List Instr),
      (Rule.laneTest i floats.cur).isSome = true ∧ readyB i floats = true) := by decide +kernel

theorem witness_BranchesGoWhereTheirTestSays :
    (∀ i ∈ ([.beq ⟨511, 6, 7⟩, .bne ⟨512, 6, 7⟩, .blt ⟨4, 6, 7⟩, .bge ⟨4, 6, 7⟩, .bltu ⟨4, 6, 7⟩, .bgeu ⟨4, 6, 7⟩] : List Instr),
      (Rule.branch i floats.cur).isSome = true ∧ readyB i floats = true) := by decide +kernel

/-- Inside the range, one past its top, and below 0. -/
theorem witness_AddressArithmeticKeepsTheTag :
    let s := user [(6, 2 ^ 56 - 16), (7, 1)]
    (∀ i ∈ ([.adda ⟨3, 5, 6, .reg 7, .base⟩, .suba ⟨0, 5, 6, .lit 3, .base⟩, .adda ⟨3, 5, 6, .lit 2, .base⟩, .suba ⟨0, 5, 0, .reg 7, .base⟩] : List Instr),
      (Rule.addrStep i s.cur).isSome = true ∧ readyB i s = true) ∧
    (2 ^ 56 - 16 + 8 : ℕ) < 2 ^ 56 ∧ (2 ^ 56 - 16 + 16 : ℕ) = 2 ^ 56 := by decide +kernel

theorem witness_JumpsAndCallsReachTheirTarget :
    readyB (.jmp ⟨5⟩) floats = true ∧ readyB (.call ⟨5⟩) floats = true ∧
    (∀ i ∈ ([.jmpi ⟨6⟩, .calli ⟨7⟩, .ret] : List Instr), (Rule.jumpTarget i floats.cur).isSome = true ∧ readyB i floats = true) ∧
    (floats.cur.rG 6).toNat % 4 = 0 ∧ ((user [(6, 0x10002)]).cur.rG 6).toNat % 4 ≠ 0 ∧
    (0x01800030#32).extractLsb' 0 8 = 0x30#8 ∧ 3 ≤ ((0x01800030#32).extractLsb' 23 5).toNat ∧
    (0x00001030#32).extractLsb' 0 8 = 0x30#8 ∧ 0x00001030#32 &&& 0xF07C1F00#32 ≠ 0#32 := by decide +kernel

/-- A context with half its names open. -/
def half : State := board 0 (coreOf { live [] [] with gOpen := 16, vOpen := 16, scopes := [(8, 8)] })

theorem witness_ScopesOpenAndCloseNames :
    (readyB (.enter ⟨2, 2⟩) half = true ∧ half.cur.gOpen + 16 ≤ 32 ∧ half.cur.vOpen + 16 ≤ 32 ∧ half.cur.scopes.length < 8 ∧
      poolUsed (half.core half.curAgent) false + 16 ≤ 128 ∧ poolUsed (half.core half.curAgent) true + 16 ≤ 128) ∧
    (readyB .leave half = true ∧ half.cur.scopes = (8, 8) :: [] ∧ (∀ j, j < 8 → half.cur.fullG (BitVec.ofNat 5 (half.cur.gOpen - 1 - j)) = true) ∧
      (∀ j, j < 8 → half.cur.fullV (BitVec.ofNat 5 (half.cur.vOpen - 1 - j)) = true)) := by decide +kernel

theorem witness_RegisterStateIsReadAsListed :
    (∀ n ∈ [1, 2, 3, 4, 5, 6, 7, 8, 16, 23], readyB (.rdsr ⟨5, BitVec.ofNat 5 n, 0⟩) floats = true ∧ (Rule.sysReg floats floats.cur n).isSome = true) ∧
    readyB (.rdsr ⟨5, 0, 6⟩) floats = true ∧ loadsInFlight floats floats.curAgent floats.curCtx = false ∧ readyB (.probe ⟨true, 5, 3⟩) floats = true ∧
    readyB .nop floats = true := by decide +kernel

theorem witness_BreakFreezesWithCode1D :
    readyB (.brk ⟨true, 15⟩) floats = true ∧ readyB (.brk ⟨false, 0⟩) floats = true ∧ 0x12000334#32 &&& 0x0F8000FF#32 = 0x02000034#32 ∧
    0x22000034#32 &&& 0x0F8000FF#32 = 0x02000034#32 ∧ 0x22000034#32 &&& 0xE07FF000#32 ≠ 0#32 ∧
    (let s : State := { floats with hbm := Mem.writeNat frames 0x10000 4 0x22000034 }
     match fetchInstr s s.cur.pc with | .words ws _ => ws == [0x22000034#32] | _ => false) = true := by decide +kernel

/-- Sources of each kind: n64, an integer, a ternary code with TERNBAD, a NaN, an infinity and a number; destinations of each kind. -/
theorem witness_ConversionsFollowTheirFormats :
    (∀ i ∈ ([.cvt ⟨.rne, false, .n8, .i16, 5, 6, .base⟩, .cvt ⟨.rne, false, .f32, .n64, 5, 6, .base⟩, .cvt ⟨.rne, true, .i8, .f32, 5, 6, .base⟩,
        .cvt ⟨.rtz, false, .bf16, .f32, 5, 6, .base⟩, .cvt ⟨.rne, true, .t2, .f32, 5, 6, .base⟩, .cvt ⟨.rne, false, .i16, .t2, 5, 6, .base⟩,
        .vcvt ⟨.rne, false, .n8, .i16, 5, 6, .base⟩, .vcvt ⟨.rne, false, .t2, .f32, 5, 6, .base⟩, .vcvt ⟨.rne, false, .f32, .t2, 5, 6, .base⟩] : List Instr),
      readyB i floats = true) ∧
    Rule.srcInt .n64 (BitVec.allOnes 64) = some (2 ^ 64 - 1, 0) ∧ Rule.srcInt .i8 0x80 = some (-128, 0) ∧ Rule.srcInt .t2 2 = some (0, flagTERNBAD) ∧
    Rule.intPattern .n8 0x103 = some 3 ∧ Fmt.cls .f32 = .flt ffF32 ∧ Fmt.cls .i8 = .int 8 true ∧ minVal 8 true ≤ 3 ∧ (3 : Int) ≤ maxVal 8 true ∧
    maxVal 8 true < (128 : Int) ∧ ffF32.decode 0x7FC00000 = .nan ∧ ffF32.decode 0xFF800000 = .inf true ∧ Rule.finiteB (ffF32.decode 0x3FC00000) = true ∧
    Rule.on floats.cur .base 0 = true ∧ Rule.on floats.cur (.ext 0 (some 8)) 0 = false := by decide +kernel

/-- Fifteen lanes: NaN, both infinities, both zeros, powers of two of both signs, 3, a small subnormal, and for VRSQ -0, 4 and a negative number. -/
theorem witness_ReciprocalsOfSpecialValues :
    let x (l : Nat) : BitVec 32 := ([0x7FC00000, 0x7F800000, 0xFF800000, 0, 0x80000000, 0x40000000, 0xBF800000, 0x40400000, 0x7F000000, 0x00400000, 0x80000001,
      0x40800000, 0xFF000000, 0x80400000, 0x00000002] : List (BitVec 32)).getD l 0
    let s := user [] [(6, (List.range 15).foldl (fun n l => n + (x l).toNat * 2 ^ (32 * l)) 0)]
    readyB (.vrcp ⟨5, 6, .base⟩) s = true ∧ readyB (.vrsq ⟨5, 6, .base⟩) s = true ∧ (∀ l, l < 15 → Rule.lane (s.cur.rV 6) l = x l) ∧
    Rule.isNaN ffF32 (x 0).toNat = true ∧ x 2 = 0x7F800000 ||| 0x80000000 ∧ x 5 = BitVec.ofNat 32 (128 * 2 ^ 23) ∧
    x 6 = BitVec.ofNat 32 (127 * 2 ^ 23) ||| 0x80000000 ∧ x 10 = BitVec.ofNat 32 (2 ^ 0) ||| 0x80000000 ∧
    x 11 = BitVec.ofNat 32 (129 * 2 ^ 23) ∧ 129 % 2 = 1 ∧ x 12 = 0x7F000000 ||| 0x80000000 ∧ x 13 = 0x00400000 ||| 0x80000000 ∧
    x 14 = BitVec.ofNat 32 (2 ^ 1) ∧ Rule.negative ffF32 (x 6).toNat = true ∧ Rule.isNaN ffF32 (x 6).toNat = false ∧
    0 < Rule.magnitude ffF32 (x 6).toNat := by decide +kernel

/-- A handler that faults, by a world violation or not, beside a program that does. -/
theorem witness_TakingAFaultFreezesTheContext :
    let p : Packet := { Packet.ofBits 0 with task := 0x12345, kid := 5 }
    let h := board 2048 { Core.reset with ctxs := vset (Vector.replicate 8 Ctx.reset) 0 { live [] [] with priv := true, claim := 0, served := some p } }
    let f := { h.setCtx 2048 0 { h.ctx 2048 0 with st := .frozen, wait := none, frozenBy := some p } with ev := some (.faultFreeze 2048 0 p) }
    loadsInFlight floats 0 0 = false ∧ (floats.ctx 0 0).st = .live ∧ (floats.ctx 0 0).served = none ∧ loadsInFlight h 2048 0 = false ∧
    (h.ctx 2048 0).st = .live ∧ (h.ctx 2048 0).served = some p ∧ (f.ctx 2048 0).task = p.task ∧ (f.ctx 2048 0).st = .frozen ∧
    (f.ctx 2048 0).served = some p := by decide +kernel

/-- Page 0x10 is mapped, readable and of this device; page 0x14 has no valid entry; the addresses of the other clauses. -/
theorem witness_AddressesResolveByWindowAndTable :
    let s := floats
    let x := curAcc s
    let w := x.win[0]
    x.eng = none ∧ 0x10001 % 4 ≠ 0 ∧ 0xF2 < (0xF3 * 2 ^ 48 : Nat) / 2 ^ 48 ∧ x.agent < 2048 ∧ 8 + 8 ≤ x.claim * 16384 ∧
    x.claim * 16384 < (32768 : Nat) + 1 ∧ (x.agent, 8 / 64) ∉ s.spPoison ∧ w.lo.getLsbD 6 = true ∧ (w.lo.extractLsb' 0 6).toNat = 46 ∧
    Rule.windowIa w 0x10008 = 0x10008 ∧ Rule.windowAllows w .rd = true ∧ Rule.windowAllows { w with hi := 1 } .wr = false ∧
    (∀ j : Fin 4, 0 < j → x.win[j].lo.getLsbD 6 = false) ∧ 0x10008 / 2 ^ 46 % 64 = s.devno.toNat ∧ 0x10008 / 2 ^ 44 % 4 ≠ 3 ∧
    cached s 0x10 = some (leafOf 0 0x10) ∧ Rule.pfn (leafOf 0 0x10) = 0x10 ∧ badFrame s (0x10 * 4096) = false ∧ (leafOf 0 0x10).getLsbD 56 = true ∧
    x.world = frameWorld s 0x10008 ∧ frameWorld { s with mrgn := Vector.replicate 64 0 } 0x10008 ≠ x.world ∧ Pte.ty (leafOf 0 0x10) = .seq ∧
    ptypeOf ((ftEntry s 0x10008).extractLsb' 61 2).toNat = .seq ∧ readsPoison s x 0x10008 0x10008 .seq .rd = false ∧
    (s.die (frameDie 0x10008)).stopped = false ∧ cached s 0x14 = none ∧ s.thboot = false ∧ Rule.tableAt s 0x14000 0 = some 0 ∧
    (Rule.entry s 0x14000 3 0).getLsbD 63 = false ∧
    (Rule.entry { s with hbm := Mem.writeNat frames 0 8 (2 ^ 63 + 2 ^ 62) } 0x14000 3 0).getLsbD 62 = true := by decide +kernel

/-- A name that is not open, a privileged instruction, an ill-formed one, an empty source with its E bit, and an empty register. -/
theorem witness_IssueChecksComeInOrder :
    let e : State := board 0 (coreOf ((live [] []).emptyG 6))
    half.cur.canIssue = true ∧ (∃ r ∈ Instr.roles (.mov ⟨.i64, 20, 6, .base⟩), half.cur.openName r.vec r.reg = false) ∧
    (Instr.privileged .killt = true ∧ half.cur.priv = false) ∧ Instr.wf (.bfxu ⟨5, 6, 60, 4⟩) = false ∧
    (∀ r ∈ Instr.roles (.mov ⟨.i64, 5, 6, .ext 0x10⟩), e.cur.openName r.vec r.reg = true) ∧ Instr.wf (.mov ⟨.i64, 5, 6, .ext 0x10⟩) = true ∧
    (∃ r ∈ Instr.roles (.mov ⟨.i64, 5, 6, .ext 0x10⟩), r.src = true ∧ eSet (.mov ⟨.i64, 5, 6, .ext 0x10⟩) r = true ∧ e.cur.fullR r = false) ∧
    (∃ r ∈ Instr.roles (.mov ⟨.i64, 5, 6, .base⟩), (r.src || r.dst) = true ∧ e.cur.fullR r = false) ∧ e.cur.canIssue = true := by decide +kernel

theorem witness_DivisionTruncatesTowardZero :
    (∀ i ∈ ([.div ⟨.i64, 5, 6, 7, .base⟩, .rem ⟨.n32, 5, 6, 7, .base⟩, .vdiv ⟨.i32, 5, 6, 7, .base⟩, .vrem ⟨.n32, 5, 6, 7, .base⟩] : List Instr),
      readyB i floats = true) ∧ Rule.on floats.cur .base 15 = true := by decide +kernel

/-- The context of the placed word issues it, or stalls alone in its core; an illegal word; a reserved bit; a chosen event; a limit that is due;
and the model's own order. -/
theorem witness_AStepRunsTheDecodedInstruction :
    (∀ w ∈ [0x00000008, 0x000000FC, 0x22000034],
      let s := State.reset.withFetchWord 32 w
      let v : State := { s with agenda := [], lastCore := 2055 }
      let w' := State.modCtx { v with curAgent := 2055, curCtx := 0 } 2055 0 Ctx.turned
      s.agenda = [.issue 2055 []] ∧ dueEvent s = none ∧ turnOrder v 2055 [] = [0] ∧
      (match fetchInstr w' w'.cur.pc with
        | .words ws u =>
          ws == [BitVec.ofNat 32 w] && [decodeFault u 0x01 ws, decodeFault u 0x02 ws, after (exec .nop u) u].all fun t => !stalledAt t 2055 0
        | _ => false) = true) ∧
    decodeWords [0x00000008] = .instr .nop false ∧ decodeWords [0x000000FC] = .illegal ∧ decodeWords [0x22000034] = .instr (.brk ⟨false, 0⟩) true ∧
    (let s := board 0 (coreOf ((live [] []).emptyG 6))
     let s := { s with curCtx := 0 }
     isNext (exec (.mov ⟨.i64, 5, 6, .base⟩) s) = true ∧ stalledAt (after (exec (.mov ⟨.i64, 5, 6, .base⟩) s) s) 0 0 = true ∧ turnOrder s 0 [] = [0]) ∧
    (let s := (board 0 (coreOf (live [] []))).setCtx 0 1 { live [] [] with vsp := true, task := 0x12346 }
     vectorBusy s 0 0 = true ∧ Instr.vectorUnit (.vmov ⟨5, 6, .base⟩) = true ∧ vectorBusy floats 0 0 = false ∧
     stalledAt (waitFor s .retry) 0 0 = true) ∧
    (let s : State := { floats with pending := [.taskStart 0], agenda := [.event 0] }
     dueEvent s = none ∧ streamHead s.pending 0 = 0 ∧ s.pending[0]? = some (.taskStart 0)) ∧
    (let s : State := board 0 (coreOf { live [] [] with wait := some ⟨.retry, 4, 0⟩ })
     let s := { s with time := 4, pending := [.boundedWaitExpire 0 0] }
     dueEvent s = some 0 ∧ s.pending[0]? = some (.boundedWaitExpire 0 0)) ∧
    pickCore floats = some 0 ∧ floats.agenda = [] ∧ floats.turn = false ∧ dueEvent floats = none ∧
    (let s : State := { floats with pending := [.taskStart 0], turn := true }
     s.agenda = [] ∧ dueEvent s = none ∧ s.pending ≠ []) := by decide +kernel

theorem witness_EncodedInstructionsDecodeToThemselves :
    (∀ i ∈ intForms ++ intForms2 ++ fcmpForms ++ laneForms, i.wf = true ∧ i.encoded = true) := by decide +kernel

/-- A run from a state that meets the invariants goes on. -/
theorem witness_invariants : MemoriesCanonical State.reset ∧ UserCores State.reset ∧ isNext (step (State.reset.withFetchWord 32 8)) = true :=
  ⟨reset_canonical, reset_userCores, by decide +kernel⟩

theorem witness_MemoryStaysCanonicalInEveryStep : MemoriesCanonical floats ∧ isNext (step floats) = true :=
  ⟨⟨by decide +kernel, by decide +kernel, nofun⟩, by decide +kernel⟩

end Sys2Proof.Tests
end

