-- ==== Sys2Proof/Tests/WitnessSync.lean ====
section
/-! SUPPORT. Witnesses for the statements about futures, barriers, queues, work-lists, collectives and subscriptions. -/

namespace Sys2Proof.Tests

set_option Elab.async false

open Sys2Proof.Machine

/-- A future at 0x13010 with `st` in its state field, and a pool of two records at 0x13100 whose record 0 is live (R170, R171). -/
def future (st : Nat) : State :=
  let s := user [(4, 0x13010), (5, 7), (6, 0), (7, 2)]
  { s with
    hbm := (s.hbm.writeNat 0x13010 16 st).writeNat 0x13108 1 1
    kt := vset (Vector.replicate 64 (0, 0)) 0 (BitVec.ofNat 64 (2 ^ 63 + 5 * 2 ^ 32), BitVec.ofNat 64 (0x13100 + 1))
    cores := s.cores.set 2048 { Core.reset with wsets := vset Core.reset.wsets 0 ⟨5, win0⟩ } }

theorem witness_FuturesResolveOnce :
    let p : Path := .mem 0x13010 0x13010 .seq false
    let q : Path := .mem 0x13100 0x13100 .seq false
    let s := future 0
    let t := future 1
    let u := release s s.curAgent .dev
    let r := (atomicPath u (kernelAcc u s.cur.kid) q 64 .dev fun _ => none).1
    (readyB (.fres ⟨4, 5, .base⟩) s = true ∧ futurePath s (curAcc s) (s.cur.rG 4) = .ok p ∧ Rule.calm s ∧ s.thboot = false ∧
      Rule.futureBytes u p % 4 = 0 ∧ Rule.futureBytes (release t t.curAgent .dev) p % 4 ≠ 0 ∧ readyB (.fcancel ⟨4, .base⟩) s = true) ∧
    (readyB (.freset ⟨4, .base⟩) t = true ∧ futurePath t (curAcc t) (t.cur.rG 4) = .ok p ∧ Rule.calm t ∧
      (atomicPath t (curAcc t) p 16 .dev Rule.resetFuture).1 % 4 ≠ 0) ∧
    (readyB (.fwait ⟨5, 4, 0, .base⟩) s = true ∧ futurePath s (curAcc s) (s.cur.rG 4) .rd = .ok p ∧ futurePath t (curAcc t) (t.cur.rG 4) .rd = .ok p ∧ readyB (.fwait ⟨5, 4, 0, .base⟩) t = true ∧
      (atomicPath s (curAcc s) p 16 .dev fun _ => none).1 % 4 = 0 ∧ (atomicPath t (curAcc t) p 16 .dev fun _ => none).1 % 4 = 1) ∧
    (readyB (.freg ⟨3, 4, 6, .base⟩) s = true ∧ readyB (.freg ⟨0, 4, 7, .base⟩) s = true ∧ (poolOf u s.cur.kid).2 = 2 ∧
      recordPath u s.cur.kid 0 = .ok q ∧ r / 2 ^ (100 + 3) % 2 = 0 ∧ r / 2 ^ 64 % 256 ≠ 0) := by decide +kernel

/-- A waiter of a future; records that FREG refuses; a record whose count goes down to 1 or to 0; a discarded page. -/
theorem witness_future_records :
    let s := future 0
    let w := s.modCtx 0 0 fun c => { c with wait := some ⟨.future 0x13010 5 4, 0, 0⟩ }
    let used := { s with hbm := s.hbm.writeNat 0x1310C 1 0x80 }
    let out := { s with hbm := s.hbm.writeNat 0x13108 1 0 }
    let two := { s with hbm := s.hbm.writeNat 0x13108 1 2 }
    let disc := { s with tlb := [(0x13, ⟨1, BitVec.ofNat 64 ((leafOf 0 0x13).toNat + 2 ^ 58)⟩)] }
    let q : Path := .mem 0x13100 0x13100 .seq false
    let rec_ (s : State) := (atomicPath s (kernelAcc s 5) q 64 .dev fun _ => none).1
    let new (s : State) := Rule.completedRecord 0 false (rec_ s) / 2 ^ 64 % 256
    (w.ctx 0 0).wait = some ⟨.future 0x13010 5 4, 0, 0⟩ ∧ (s.cur.rG 7).toNat = 2 ∧ (poolOf (release s 0 .dev) 5).2 ≤ 2 ∧
    rec_ used / 2 ^ (100 + 3) % 2 = 1 ∧ rec_ out / 2 ^ 64 % 256 = 0 ∧ new s = 0 ∧ new two = 1 ∧ recordPath s 5 (0 / 4) = .ok q ∧
    futurePath disc (curAcc disc) (disc.cur.rG 4) .rd = .ok (.mem 0x13010 0x13010 .seq true) := by decide +kernel

/-- Cluster 0 with barrier slot 0 set to `v`, for kernel 5. -/
def barred (v : Nat) : State :=
  let s := user [(4, 2 * 2 ^ 56), (5, 0), (6, own 0x40), (7, 1)]
  { s with clusters := [(0, { Cluster.reset with bs := vset (Vector.replicate 8 0) 0 (BitVec.ofNat 64 v), bsOwner := vset (Vector.replicate 8 0) 0 5 })] }

theorem witness_BarriersCountArrivals :
    let s := barred 0
    let e := barred (2 ^ 63 + 2 * 2 ^ 40)
    let f := barred (2 ^ 63 + 2 * 2 ^ 40 + 2 * 2 ^ 32)
    let g := s.cur.rG 4
    let v := BitVec.ofNat 64 (bitsOf g 11 0)
    let i := [(BitVec.ofNat 3 0)]
    (readyB (.barcfg ⟨0, 4, 0, .base⟩) s = true ∧ Rule.onCore s ∧ bitsOf g 55 12 = 0 ∧ Bar.col0 v + Bar.cols v ≤ 7 ∧ Bar.row0 v + Bar.rows v ≤ 7 ∧
      Bar.clusters 0 v = [Rule.here s] ∧ bitsOf g 63 56 = 2 ∧ Bar.en (barSlot s 0 0) = false ∧ slotForeign s 0 0 s.cur.kid = false) ∧
    (readyB (.barcfg ⟨0, 4, 6, .base⟩) s = true ∧ s.cur.rG 6 ≠ 0 ∧ localCheck s (curAcc s) .rd ((byteAddrs (s.cur.rG 6)).map fun a => (a, 1, 1)) = none ∧
      (match accessAll s .rd .any ((byteAddrs (s.cur.rG 6)).map fun a => (a, 1, 1)) with
       | .ok ps =>
         let r := ps.foldl (fun (r : List Nat × State) p => let (b, s) := readPath r.2 (curAcc r.2) p 1; (r.1 ++ [b], s))
           ([], taintAcquire s (s.cur.taintG 6))
         decide (r.1.getD 0 0 ≤ 64) && !Bar.en (barSlot r.2 0 0) && !slotForeign r.2 0 0 s.cur.kid
       | .error _ => false) = true) ∧
    (slotForeign e 0 0 e.cur.kid = false ∧ Rule.calm e ∧ e.thboot = false ∧ Bar.en (barSlot e 0 0) = true ∧
      Bar.arr (barSlot e 0 0) < Bar.ecnt (barSlot e 0 0) ∧ Bar.drop (barSlot e 0 0) < 255 ∧ Bar.arr (barSlot f 0 0) = Bar.ecnt (barSlot f 0 0) ∧
      (∀ j ∈ i, readyB (.bararv ⟨j, 5, .base⟩) e = true ∧ readyB (.bardrop ⟨j, .base⟩) e = true ∧ readyB (.bar ⟨j, 5, 0, .base⟩) e = true ∧
        readyB (.bararv ⟨j, 5, .base⟩) f = true ∧ readyB (.bardrop ⟨j, .base⟩) f = true ∧ readyB (.bar ⟨j, 5, 0, .base⟩) f = true)) ∧
    (readyB (.barwt ⟨0, 5, 5, 0, .base⟩) e = true ∧ (Bar.phase (barSlot e 0 0)).toNat = (e.cur.rG 5).toNat % 256 ∧
      readyB (.barwt ⟨0, 5, 7, 0, .base⟩) e = true ∧ (Bar.phase (barSlot e 0 0)).toNat ≠ (e.cur.rG 7).toNat % 256 ∧
      readyB (.barrd ⟨0, 5, .base⟩) e = true) ∧
    (let t := f.modCtx 0 0 fun c => { c with wait := some ⟨.barrier 0 0 0 5 false 4, 0, 0⟩ }
     let w := f.modCtx 0 0 fun c => { c with wait := some ⟨.phase 0 0 5 false 4, 0, 0⟩ }
     Bar.phase (barSlot f (cluAt 0 0 0) 0) = 0 ∧ Bar.en (barSlot f (cluAt 0 0 0) 0) = true ∧ s.cur.wait = none ∧
      (t.ctx 0 0).wait = some ⟨.barrier (cluAt 0 0 0) 0 0 5 false 4, 0, 0⟩ ∧ (w.ctx 0 0).wait = some ⟨.phase 0 0 5 false 4, 0, 0⟩) := by decide +kernel

/-- Cluster 0 with queue 0 of two entries at scratchpad offset 0x100 of core 0, HEAD 0, `n` entries in it; its tile walk serves the queue. -/
def queued0 (n : Nat) (run : Bool := false) : State :=
  let v := 2 ^ 63 + n * 2 ^ 24 + 2 ^ 20 + 0x20
  let s := user [(4, v), (5, 7), (6, 1), (7, v - 2 ^ 63)]
  { s with clusters := [(0, { Cluster.reset with
      qd := vset (Vector.replicate 16 0) 0 (BitVec.ofNat 64 v), qOwner := vset (Vector.replicate 16 0) 0 5
      tw := { TileWalk.reset with run := run, nbuf := 2, rect := (0, 0, 1, 1)
                                  st := some ⟨0x13000, Vector.replicate 4 4, Vector.replicate 4 4, 0, 0, 0, Vector.replicate 4 4, Vector.replicate 4 4⟩ } })] }

theorem witness_QueuesPassEntriesInOrder :
    let s := queued0 0
    let f := queued0 2
    let w := queued0 0 true
    (readyB (.qpush ⟨0, 5, 0, .base⟩) s = true ∧ Rule.queueOpen s 0 ∧ Qd.count (qdGet s 0 0) < Qd.cap (qdGet s 0 0) ∧
      firstOf (s.clu 0).pushers 0 0 0 = true ∧ portBusy s 0 (Qd.entry (qdGet s 0 0) (Qd.tail (qdGet s 0 0))) 8 = false ∧ Rule.calm s ∧
      readyB (.qpush ⟨0, 5, 0, .base⟩) f = true ∧ Rule.queueOpen f 0 ∧ Qd.cap (qdGet f 0 0) ≤ Qd.count (qdGet f 0 0)) ∧
    (readyB (.qpop ⟨0, 5, 0, .base⟩) f = true ∧ Qd.count (qdGet f 0 0) ≠ 0 ∧ firstOf (f.clu 0).poppers 0 0 0 = true ∧
      f.spPoison.contains (0, Qd.entry (qdGet f 0 0) (Qd.head (qdGet f 0 0)) / 64) = false ∧
      readyB (.qpop ⟨0, 5, 0, .base⟩) s = true ∧ Qd.count (qdGet s 0 0) = 0) ∧
    (readyB (.qdwr ⟨0, 4, .base⟩) s = true ∧ Rule.onCore s ∧ bitsOf (s.cur.rG 4) 61 56 = 0 ∧ bitsOf (s.cur.rG 4) 23 20 = 1 ∧
      (s.core 0).rangeLive 0x100 16 false = true ∧ qForeign s 0 0 s.cur.kid = false ∧ readyB (.qdrd ⟨0, 5, .base⟩) s = true ∧
      (∀ w ∈ (s.clu 0).pushers ++ (s.clu 0).poppers, w.1 ≠ 0) ∧ Qd.en (s.cur.rG 4) = true ∧ readyB (.qdwr ⟨0, 7, .base⟩) s = true ∧
      Qd.en (s.cur.rG 7) = false ∧ bitsOf (s.cur.rG 7) 61 56 = 0 ∧ bitsOf (s.cur.rG 7) 23 20 = 1) ∧
    (twOf w 0 0 = some 0 ∧ qForeign w 0 0 w.cur.kid = false ∧ (w.clu 0).tw.run = true ∧ Qd.broken (qdGet w 0 0) = false ∧ 1 < (w.clu 0).tw.nbuf ∧
      (w.clu 0).tw.credits.contains (0, 1) = false ∧ (w.clu 0).brokeSw = [] ∧ Rule.calm w ∧ readyB (.permitFree ⟨0, 6, .base⟩) w = true ∧ readyB (.permitStore ⟨0, 6, 6, .base⟩) w = true ∧
      ((w.clu 0).tw.st.map fun h => decide (1 < h.tiles)) = some true) := by decide +kernel

/-- A header at 0x11040 with HCAP 16, bound to a list of `n` entries where `bound` (R182). -/
def listed (bound : Bool) (n : Nat) : State :=
  let s := user [(4, 0x11040), (5, 7), (6, n - 1)]
  { s with
    hbm := s.hbm.writeNat 0x11068 1 16
    workLists := if bound then [(0x11040, ⟨16, 0, (List.range n).map (BitVec.ofNat 32), false, BitVec.ofNat 64 n, 0, 5⟩)] else [] }

theorem witness_WorkListsKeepTheirEntries :
    let p : Path := .mem 0x11040 0x11040 .rel false
    let s := listed false 0
    let h := (atomicPath (release s 0 .dev) (curAcc (release s 0 .dev)) p 64 .dev fun _ => none).1
    (readyB (.wlinit ⟨4, .base⟩) s = true ∧ headerPath s (curAcc s) (s.cur.rG 4) = .ok (p, 0x11040) ∧ Rule.calm s ∧ s.thboot = false ∧
      s.workLists.find? 0x11040 = none ∧ recBytes h 0x28 4 = 16 ∧ recBytes h 0x2C 4 = 0 ∧ recBytes h 0x30 8 % 64 = 0) ∧
    (∀ n ∈ [0, 5, 16], let t := listed true n
      headerPath t (curAcc t) (t.cur.rG 4) = .ok (p, 0x11040) ∧ headerPath t (curAcc t) (t.cur.rG 4) .rd = .ok (p, 0x11040) ∧ (t.workLists.find? 0x11040).map (·.entries.length) = some n ∧ Rule.calm t ∧
      readyB (.wlpush ⟨8, 4, 5, .base⟩) t = true ∧ readyB (.wlins ⟨8, 4, 6, .base⟩) t = true ∧ readyB (.wlins ⟨8, 4, 5, .base⟩) t = true ∧
      readyB (.wlpopb ⟨8, 4, 5, .base⟩) t = true ∧ readyB (.wlstat ⟨8, 4, .base⟩) t = true ∧ readyB (.wlfree ⟨4, .base⟩) t = true ∧
      (t.cur.rG 5).setWidth 32 ≠ BitVec.allOnes 32) := by decide +kernel

/-- One arrival of two, at unit 0. -/
def arrival (i : Nat) : CollMsg := ⟨i, 0, BitVec.ofNat 32 (0x12345 + i), 5, 0, 0, 2, i, .add, false, .n64, 3, 100, false⟩
def instOf (l : List CollMsg) : CollInst := ⟨0, 5, 0, 2, .add, false, .n64, 100, 0, l⟩
/-- Cores 0 and 1 wait at COLL. -/
def gathered (l : List CollInst) : State :=
  let c (i : Nat) : Core := coreOf { live [] [] with task := BitVec.ofNat 32 (0x12345 + i), wait := some ⟨.coll 0 0 0 i false 5 false .n64 .dev 12, 100, 0⟩ }
  { board 0 (c 0) with cores := [(0, c 0), (1, c 1)], dies := [(0, { Die.reset with running := true, colls := l })], time := 200 }

theorem witness_CollectivesCombineTheirCallers :
    let s := user [(4, 0), (5, 2 ^ 16), (6, 2 * 2 ^ 16 + 1), (7, 9)]
    let c : CollInst := instOf [arrival 0]
    let t := gathered [c]
    let r : State := board 0 (coreOf { live [] [] with wait := some ⟨.retry, 100, 0⟩ })
    (readyB (.coll ⟨.add, false, .n64, 8, 4, 7, 0, 0⟩) s = true ∧ readyB (.coll ⟨.add, false, .n64, 8, 5, 7, 0, 0⟩) s = true ∧
      readyB (.coll ⟨.add, false, .n64, 8, 6, 7, 0, 0⟩) s = true ∧ bitsOf (s.cur.rG 4) 31 16 = 0 ∧ bitsOf (s.cur.rG 5) 31 16 = 1 ∧
      bitsOf (s.cur.rG 6) 31 16 = 2 ∧ domainDev s 0 = true ∧ Rule.releases s .dev ∧ s.thboot = false) ∧
    (collWaits (gathered []) (arrival 0) = true ∧ ((gathered []).die (collDie (arrival 0))).colls = [] ∧ collHeld (gathered []) (arrival 0) true = false) ∧
    (collWaits t (arrival 1) = true ∧ collHeld t (arrival 1) false = false ∧ (t.die (collDie (arrival 1))).colls.find? (collKey (arrival 1)) = some c ∧ c.arrived.length + 1 = c.n ∧
      (∀ x ∈ c.arrived, x.i ≠ 1)) ∧
    (c.vec = false ∧ c.op = .add ∧ c.fmt = .n64 ∧ 0 < c.n) ∧
    ((t.die 0).colls.find? (fun c => c.unit == 0 && c.kid == 5 && c.id == 0) = some c ∧ c.limit ≠ 0 ∧ c.opened + c.limit ≤ t.now) ∧
    ((r.ctx 0 0).st = .live ∧ (r.ctx 0 0).wait = some ⟨.retry, 100, 0⟩ ∧ r.now < 0 + 100 ∧ 0 + 100 ≤ ({ r with time := 100 } : State).now) := by decide +kernel

/-- A context that waits, for its turn or for an event, at its limit; its instruction is a COLL (at 0x10000, R298) or a NOP. -/
theorem witness_limits :
    let w (x : WaitFor) : State := { board 0 (coreOf { live [] [] with wait := some ⟨x, 100, 0⟩ }) with time := 100 }
    let at_ (l : List (BitVec 32)) : State := { w .retry with
      tlb := (0x10, ⟨1, leafOf 0 0x10⟩) :: tlb
      hbm := (w .retry).hbm.writeNat 0x10000 (4 * l.length) (l.foldr (fun x a => x.toNat + 2 ^ 32 * a) 0) }
    (∀ x ∈ [WaitFor.future 0x13010 5 4, .phase 0 0 5 false 4, .sync 0 0x40, .retry], ((w x).ctx 0 0).wait = some ⟨x, 100, 0⟩ ∧ ((w x).ctx 0 0).st = .live ∧
      0 + 100 ≤ (w x).now) ∧
    (let s := at_ (encode (.coll ⟨.add, false, .n64, 8, 4, 7, 0, 0⟩))
     (match nextInstr { s.took with curAgent := 0, curCtx := 0 } with | .run i _ => i == .coll ⟨.add, false, .n64, 8, 4, 7, 0, 0⟩ | _ => false) = true ∧
      (∀ d ∈ [0, 1, 2, 3], (s.die d).colls = []) ∧ s.findTask (s.ctx 0 0).task = some (0, 0)) ∧
    (let s := at_ (encode (.barrd ⟨0, 5, .base⟩))
     (match nextInstr { s.took with curAgent := 0, curCtx := 0 } with | .run i _ => i == .barrd ⟨0, 5, .base⟩ | _ => false) = true) := by decide +kernel

/-- Core 1 publishes its first 64 bytes to entry 0 of core 0, one update outstanding; entry 0 of core 0 subscribes (R137). -/
def joined (p : List PubPend) (v : Option Ev) : State :=
  let s := user [(4, own 0x40), (5, 2 ^ 48), (6, 0)]
  { s with
    ev := v, time := 100
    cores := [(0, { s.core 0 with subs := vset (Vector.replicate 16 0) 0 (BitVec.ofNat 128 (2 ^ 127 + 5 * 2 ^ 96 + 2 ^ 80)) }),
              (1, { coreOf (live [] []) with
                      wsets := vset Core.reset.wsets 0 ⟨5, win0⟩
                      pubPend := p
                      pubs := vset (Vector.replicate 16 0) 0 (BitVec.ofNat 128 (2 ^ 127 + 5 * 2 ^ 96 + 2 ^ 64)) })] }

theorem witness_SubscriptionsForwardUpdates :
    let p : PubPend := ⟨0, 0, [], none, none, false⟩
    let q : PubPend := ⟨0, 99, [], none, none, false⟩
    let s := joined [] none
    let e := subAt s 0 0
    let u : SubUpdate := ⟨0, 1, 0, 0, 0, 5, [], none, none, true, false, []⟩
    (readyB (.subscr ⟨7, 4, 5, .base⟩) s = true ∧ Rule.onCore s ∧ addrPart (s.cur.rG 4) = own 0x40 ∧ s.cur.claim ≤ 18 ∧
      (s.core 0).rangeLive 0x40 64 false = true ∧ bitsOf (s.cur.rG 5) 63 48 = 1 ∧ bitsOf (s.cur.rG 5) 21 0 = 0 ∧ freeSub s 0 = some 1 ∧
      pubCheck s 0 s.cur.kid 1 0 64 = none) ∧
    (readyB (.unsub ⟨6, .base⟩) s = true ∧ Sub.valid e = true ∧ Sub.kid e = s.cur.kid ∧ Sub.state e ≠ 2 ∧ readyB (.substat ⟨7, 6, .dev, .ext 0⟩) s = true) ∧
    (((joined [p] none).core 1).pubPend = [p] ∧ Pub.valid (pubAt s 1 0) = true ∧ Pub.state (pubAt s 1 0) ≠ 2 ∧ Pub.outst (pubAt s 1 0) = 1 ∧
      p.opened + 32 ≤ s.now ∧ s.now < q.opened + 32 ∧ updatesWanted s 1 = false) ∧
    (s.pending = [] ∧ Sub.pub e = u.pub ∧ Sub.pubIdx e = u.pubIdx ∧ Sub.kid e = u.kid ∧ u.full = true ∧ Sub.state e ≠ 2 ∧
      linkBusy s u.sub u.subIdx = none) ∧
    (Pub.kid (pubAt s 1 0) = 5 ∧ Pub.sub (pubAt s 1 0) = 0 ∧ Pub.subIdx (pubAt s 1 0) = 0 ∧ Sub.valid (subAt s 0 0) = true ∧ Sub.pub (subAt s 0 0) = 1) := by decide +kernel

end Sys2Proof.Tests
end

