-- ==== Sys2Proof/Tests/WitnessSystem.lean ====
section
/-! SUPPORT. Witnesses for the statements about recovery, system registers, pre-emption, migration and checkpoints. -/

namespace Sys2Proof.Tests

set_option Elab.async false

open Sys2Proof.Machine

/-- The packet of the frozen task. -/
def pkt : Packet := { Packet.ofBits 0 with code := 0x02, task := 0x12345, kid := 5 }
def frozen : Ctx := { live [(4, 7)] [(2, 9)] with st := .frozen, frozenBy := some pkt }
/-- Core 0 with `x` in context 0, and a privileged context on agent `a` that serves the packet where `served`. -/
def pair (a : Nat) (x : Ctx) (served : Bool) (g : List (Nat × Nat)) (v : List (Nat × Nat) := []) : State :=
  let c : Ctx := { live g v with priv := true, claim := 0, task := 0x80012345, served := if served then some pkt else none }
  let r : Core := { Core.reset with ctxs := vset (Vector.replicate 8 Ctx.reset) 0 c }
  { board a r with cores := [(0, coreOf x), (a, r)] }

theorem witness_RecoveryEndsOrResumesTasks :
    let s := pair 2048 frozen true [(4, 0x10008), (5, 5), (6, 3), (7, 0x200), (8, 0xFFF), (9, own 0x40), (10, 0x203), (11, 0x10010)] [(3, 2 + 5 * 2 ^ 64)]
    let j := s.setCur { s.cur with join := 1 }
    let w := pair 2048 frozen false [(5, 5)]
    let l := pair 2048 (live [] []) true [(6, 3)]
    let g := pair 2048 Ctx.reset true [(6, 3)]
    let u := Rule.both s
    let p : Path := .scratch 0 0x40
    (readyB (.resume ⟨4, 0⟩) s = true ∧ s.cur.bound = some 0x12345 ∧ s.cur.ending = false ∧ Rule.canEnd (resumeTask u 0x12345 0x10008) ∧
      Rule.canEnd (killBound u 0x12345) ∧ Rule.canEnd (killKernel u 5) ∧ readyB (.resume ⟨4, 0⟩) j = true ∧ j.cur.bound = some 0x12345 ∧
      j.cur.ending = false ∧ Rule.calm j ∧ ¬ Rule.canEnd (resumeTask (Rule.both j) 0x12345 0x10008) ∧ Rule.calm s ∧ s.findTask 0x12345 = some (0, 0) ∧
      (s.ctx 0 0).st = .frozen ∧ readyB .killt s = true) ∧
    (readyB (.killk ⟨5, 0⟩) w = true ∧ w.cur.served = none ∧ (w.ktIndex 5).isSome = true ∧ w.faultAgent 5 = w.curAgent ∧ Rule.calm w ∧ readyB (.killk ⟨5, 0⟩) s = true ∧ s.cur.served.isSome = true ∧
      readyB (.killk ⟨14, 0⟩) s = true ∧ s.cur.rG 14 = 0 ∧ (s.ctx 0 0).kid = 5 ∧ (s.ktIndex 5).isSome = true ∧ (s.core 0).refq = [] ∧
      (s.ctx 0 0).parent = none ∧ (s.ctx 0 0).launch = none) ∧
    (readyB (.dwrd ⟨12, 6, 9, 13, 0⟩) s = true ∧ u.findTask 0x12345 = some (0, 0) ∧
      (match dwRead (u.ctx 0 0) (dwItem 3) with | .ok _ => true | .error _ => false) = true ∧ readyB (.dwrd ⟨12, 8, 9, 13, 0⟩) s = true ∧
      resolve u (ctxAcc u 0 0) (s.cur.rG 9) 8 8 .rd .any = .ok p ∧ pathHold u (ctxAcc u 0 0) p 8 .rd = none ∧ readyB (.dwrd ⟨12, 6, 9, 13, 0⟩) l = true ∧ (l.ctx 0 0).st = .live ∧
      readyB (.dwrd ⟨12, 6, 9, 13, 0⟩) g = true ∧ (Rule.both g).findTask 0x12345 = none ∧ (u.ctx 0 0).openName false 3 = true) ∧
    (readyB (.dwwr ⟨7, 11, 13, 9, 0⟩) s = true ∧ (u.ctx 0 0).st ≠ .live ∧ (s.cur.rG 11).toNat % 4 = 0 ∧
      (match dwWrite u 0 0 7 (dwItem 3) with | .ok _ => true | .error _ => false) = true ∧ s.cur.fencing = false ∧
      readyB (.dwwr ⟨8, 11, 13, 9, 0⟩) s = true ∧ s.cur.rG 8 = 0xFFF ∧ resolve u (ctxAcc u 0 0) (s.cur.rG 9) 8 8 .wr .wsoStore = .ok p ∧
      pathHold u (ctxAcc u 0 0) p 8 .wr = none ∧
      releaseHeld (writePath u { ctxAcc u 0 0 with agent := u.curAgent, task := u.cur.task } p 8 0x10010) .dev = false ∧
      readyB (.dwwr ⟨6, 11, 13, 9, 0⟩) s = true ∧ readyB (.dwwr ⟨10, 11, 13, 9, 0⟩) s = true ∧ (s.cur.rG 11).toNat % 4 = 0) ∧
    (readyB (.trap ⟨3, 0⟩) s = true ∧ trapCode ((s.cur.rV 3).extractLsb' 0 8).toNat = true ∧ (s.ktIndex ((s.cur.rV 3).extractLsb' 64 16)).isSome = true) ∧
    (readyB (.hgtrig ⟨6, 0⟩) s = true ∧ readyB (.hgrel ⟨6, 0⟩) s = true ∧ (s.cur.rG 6).toNat < 64 ∧ readyB (.hgstat ⟨12, 6, 0⟩) s = true) := by
  intros; and_intros <;> decide +kernel

/-- A SYSWR of the monitor, or of the service core, that waits for its write. -/
def writing (a num index sub value : Nat) (ev : SysReq → Ev) : State × SysReq :=
  let r : SysReq := ⟨a, 0, 0x12345, BitVec.ofNat 12 num, index, sub, BitVec.ofNat 64 value⟩
  let c : Ctx := { live [] [] with priv := true, claim := 0, wait := some ⟨.done, 0, 0⟩ }
  let s := board a { Core.reset with ctxs := vset (Vector.replicate 8 Ctx.reset) 0 c }
  ({ s with ev := some (ev r) }, r)

/-- A write in hand passes its checks. -/
abbrev passes (x : State × SysReq) : Prop :=
  x.1.findTask x.2.task = some (x.2.agent, 0) ∧ (x.1.ctx x.2.agent 0).st = .live ∧ (x.1.ctx x.2.agent 0).wait = some ⟨.done, 0, 0⟩ ∧ sysCheck x.1 x.2 = none

theorem witness_SystemRegistersAreReadAndWritten :
    let s := ridge 2048 [(4, 6), (5, 0x102), (6, 0x20000), (7, 0x203 + 2 ^ 16), (8, 0x200 + 2 ^ 16), (9, 0), (10, 0x100), (11, 0), (12, 0x13000), (13, 1)]
    let m := ridge 2055 [(4, 2), (9, 0x13000)]
    let p : Path := .mem 0x13000 0x13000 .seq false
    (readyB (.sysrd ⟨3, 4, 0⟩) s = true ∧ sysOperand (s.cur.rG 4) = .ok (6, 0, 0) ∧ Rule.calm s ∧
      readyB (.sysrd ⟨3, 9, 0⟩) s = true ∧ sysOperand (s.cur.rG 9) = .ok (0, 0, 0) ∧ loadsInFlight s 2048 0 = false) ∧
    (readyB (.syswr ⟨5, 6, 0⟩) s = true ∧ sysOperand (s.cur.rG 5) = .ok (0x102, 0, 0) ∧ readyB (.syswr ⟨7, 6, 0⟩) s = true ∧
      sysOperand (s.cur.rG 7) = .ok (0x203, 1, 0) ∧ readyB (.syswr ⟨10, 11, 0⟩) s = true ∧ sysOperand (s.cur.rG 10) = .ok (0x100, 0, 0) ∧
      (sysCheck s ⟨2048, 0, 0x12345, 0x102, 0, 0, 0x20000⟩).isNone = true ∧ (sysCheck s ⟨2048, 0, 0x12345, 0x203, 1, 0, 0x20000⟩).isSome = true ∧
      (sysCheck s ⟨2048, 0, 0x12345, 0x100, 0, 0, 0⟩).isNone = true ∧
      (match sysNow (Rule.both s) ⟨2048, 0, 0x12345, 0x100, 0, 0, 0⟩ with | .inr e => e == .dspcfgWrite ⟨2048, 0, 0x12345, 0x100, 0, 0, 0⟩ | .inl _ => false) = true) ∧
    (readyB (.mext ⟨4, 9, 0⟩) m = true ∧ resolve m (curAcc m) (m.cur.rG 9) 64 64 .rd .any = .ok p ∧ pathHold m (curAcc m) p 64 .rd = none ∧ Rule.calm m) ∧
    (readyB (.tlbsync ⟨12, 13, 0⟩) s = true ∧ readyB (.tlbsync ⟨12, 9, 0⟩) s = true ∧ (s.cur.rG 12).toNat % 4096 = 0) := by
  intros; and_intros <;> decide +kernel

/-- Each kind of write, on values at the ends of its range. -/
theorem witness_writes :
    passes (writing 2048 0x100 0 0 8 .dspcfgWrite) ∧ passes (writing 2048 0x107 0 0 8 .sksizeWrite) ∧ passes (writing 2048 0x108 0 0 0 .thbootWrite) ∧
    passes (writing 2048 0x108 0 0 1 .thbootWrite) ∧ passes (writing 2048 0x10A 0 0 1 .fteWrite) ∧ ftFrame (writing 2048 0x10A 0 0 1 .fteWrite).1 2048 = some 0 ∧
    fteHeld (writing 2048 0x10A 0 0 1 .fteWrite).1 (writing 2048 0x10A 0 0 1 .fteWrite).2 = [] ∧
    passes (writing 2048 0x200 1 0 (2 ^ 63 + 6 * 2 ^ 32) .ktWrite) ∧ passes (writing 2048 0x200 63 1 20 .ktWrite) ∧
    passes (writing 2048 0x201 0 0 5 .wsetWrite) ∧ passes (writing 2048 0x202 15 1 (5 * 2 ^ 48) .wpWrite) ∧ passes (writing 2055 0x203 63 0 0 .mrgnWrite) ∧
    passes (writing 2055 0x209 7 126 0 .traptWrite) ∧ passes (writing 2055 0x204 0 0 (2 ^ 63) .worldMapWrite) ∧
    worldBusy (writing 2055 0x204 0 0 (2 ^ 63) .worldMapWrite).1 (writing 2055 0x204 0 0 (2 ^ 63) .worldMapWrite).2 = false ∧
    (writing 2048 0x200 1 0 0 .ktWrite).1.findTask 6 = none := by
  and_intros <;> decide +kernel

/-- A REL frame that another device holds waits to take another type (R133). -/
theorem witness_held_frame :
    let x := writing 2048 0x10A 0 0 0 .fteWrite
    let s := { x.1.modCore 2048 fun o => { o with ftsel := 0x11 } with homes := [(0x11, ⟨[1], none, none, []⟩)] }
    s.ev = some (.fteWrite x.2) ∧ passes (s, x.2) ∧ fteHeld s x.2 = [0x11] := by decide +kernel

/-- Every 64-byte group of the first 2^43 bytes of the host aperture is accepted (R86, R411). -/
theorem aperture_resolves (s : State) (x : Acc) (va : Word) (h : Nat) (hv : va.toNat = 3 * 2 ^ 44 + h) (hh : h < 2 ^ 43) (al : h % 64 = 0)
    (hx : x.win = win0) (hw : x.world = false) (hd : s.devno = 0) (he : x.eng = none) : resolve s x va 64 64 .wr .any = .ok (.aperture h) := by
  have a : va.toNat % 2 ^ 56 = 3 * 2 ^ 44 + h := by omega
  have hit : findWindow win0 (3 * 2 ^ 44 + h) = some ⟨BitVec.ofNat 64 (64 + 46), 7⟩ := by
    have q : Window.hit ⟨BitVec.ofNat 64 (64 + 46), 7⟩ (3 * 2 ^ 44 + h) = true := by
      have z : (3 * 2 ^ 44 + h) / 2 ^ 46 = 0 := by omega
      show (true && ((3 * 2 ^ 44 + h) / 2 ^ 46 == 0)) = true
      rw [z]; rfl
    show List.find? (fun w : Window => w.hit (3 * 2 ^ 44 + h)) ((⟨BitVec.ofNat 64 (64 + 46), 7⟩ : Window) :: [Window.reset, Window.reset, Window.reset]) = _
    rw [List.find?_cons, q]
  have loc : resolveLocal s x va 64 64 .wr = .ok (.inr (3 * 2 ^ 44 + h)) := by
    have ia : Window.ia ⟨BitVec.ofNat 64 (64 + 46), 7⟩ (3 * 2 ^ 44 + h) = 3 * 2 ^ 44 + h := by
      show 0 + (3 * 2 ^ 44 + h) % 2 ^ 46 = _
      omega
    unfold resolveLocal
    simp only [a, hx, hit]
    rw [if_neg (by omega), if_neg (by omega), if_neg (by omega), if_neg (by omega), if_neg (by omega)]
    show (if true = true then _ else _) = _
    rw [if_pos rfl, ia]
  unfold resolve
  rw [loc]
  show resolveIa s x va (3 * 2 ^ 44 + h) .wr .any 64 = _
  unfold resolveIa
  have d : (3 * 2 ^ 44 + h) / 2 ^ 46 % 64 = s.devno.toNat := by rw [hd]; show _ = 0; omega
  have p : ((3 * 2 ^ 44 + h) / 2 ^ 44 % 4 == 3) = true := by rw [beq_iff_eq]; omega
  have m : (3 * 2 ^ 44 + h) % 2 ^ 44 = h := by omega
  have b : blockWorld s x false = false := by unfold blockWorld; rw [he]
  have k : (AKind.wr != AKind.wr) = false := rfl
  simp only [d, p, hw, m, b, k, if_true, Bool.or_false, Bool.and_false, Bool.false_and, Bool.false_eq_true, if_false]
  rfl

/-- So an area there has no page that is refused. -/
theorem area_in_aperture (s : State) (n : Nat) (hn : n < 2 ^ 42) (hx : (curAcc s).win = win0) (hw : (curAcc s).world = false) (hd : s.devno = 0)
    (he : (curAcc s).eng = none) : areaBad s (BitVec.ofNat 64 (3 * 2 ^ 44)) n = none := by
  unfold areaBad
  rw [List.findSome?_eq_none_iff]
  intro i m
  have lt : i < 2 ^ 31 := by
    have := List.mem_range.mp m
    unfold ceilDiv at this
    omega
  have v : (BitVec.ofNat 64 (3 * 2 ^ 44) + BitVec.ofNat 64 (4096 * i)).toNat = 3 * 2 ^ 44 + 4096 * i := by
    simp only [BitVec.toNat_add, BitVec.toNat_ofNat]; omega
  simp only [aperture_resolves s (curAcc s) _ (4096 * i) v (by omega) (by omega) hx hw hd he]

/-- Kernel 5 runs on core 0, and the ridge core pre-empts it into the host aperture: with no room, and with 2^33 bytes. -/
theorem witness_preempt :
    let s := pair 2048 (live [] []) false [(4, 5), (5, 3 * 2 ^ 44), (6, 0), (7, 2 ^ 33)]
    let p : Path := .aperture 0
    let u := Rule.both s
    let l := unitsOf u (.kernel 5) u.cur.task
    readyB (.preempt ⟨3, 4, 5, 6, 0⟩) s = true ∧ readyB (.preempt ⟨3, 4, 5, 7, 0⟩) s = true ∧ (s.cur.rG 5).toNat % 4096 = 0 ∧
    resolve s (curAcc s) (s.cur.rG 5) 64 64 .wr .any = .ok p ∧ pathHold s (curAcc s) p 64 .wr = none ∧
    stopSet (s.cur.rG 4) = some (.kernel 5) ∧ Rule.calm s ∧ u.saves.find? (areaKey p) = none ∧
    (let f := u.freeBits 32
     let n := imageBytes f.2 l + f.1.toNat
     u.cur.rG 6 < BitVec.ofNat 64 n ∧ BitVec.ofNat 64 n ≤ u.cur.rG 7 ∧ areaBad f.2 (u.cur.rG 5) n = none) := by
  intro s p u l
  iterate 8 refine And.intro (by decide +kernel) ?_
  have size : imageBytes { u with fresh := u.fresh + 1 } l = 2432 := by decide +kernel
  have none_ : u.cur.rG 6 = 0#64 := by decide +kernel
  have room : u.cur.rG 7 = 8589934592#64 := by decide +kernel
  have at_ : u.cur.rG 5 = BitVec.ofNat 64 (3 * 2 ^ 44) := by decide +kernel
  have free := (Config.free 32 u.fresh).isLt
  refine ⟨?_, ?_, ?_⟩
  · simp only [State.freeBits, size, none_, BitVec.lt_def, BitVec.toNat_ofNat]; omega
  · simp only [State.freeBits, size, room, BitVec.le_def, BitVec.toNat_ofNat]; omega
  · rw [at_]
    refine area_in_aperture _ _ ?_ (by decide +kernel) (by decide +kernel) (by decide +kernel) (by decide +kernel)
    simp only [State.freeBits, size]; omega

/-- With two contexts the image is longer than a page, and no translation leads to the second page of the area. -/
theorem witness_preempt_bad :
    let c := coreOf (live [] [])
    let s0 := pair 2048 (live [] []) false [(4, 5), (5, 0x13000), (7, 2 ^ 33)]
    let s := { s0 with cores := [(0, { c with ctxs := vset c.ctxs 1 { live [] [] with task := 0x12346 } }), (2048, s0.core 2048)] }
    let p : Path := .mem 0x13000 0x13000 .seq false
    let u := Rule.both s
    let l := unitsOf u (.kernel 5) u.cur.task
    readyB (.preempt ⟨3, 4, 5, 7, 0⟩) s = true ∧ resolve s (curAcc s) (s.cur.rG 5) 64 64 .wr .any = .ok p ∧ pathHold s (curAcc s) p 64 .wr = none ∧
    stopSet (s.cur.rG 4) = some (.kernel 5) ∧ Rule.calm s ∧ u.saves.find? (areaKey p) = none ∧
    (let f := u.freeBits 32
     let n := imageBytes f.2 l + f.1.toNat
     BitVec.ofNat 64 n ≤ u.cur.rG 7 ∧ (areaBad f.2 (u.cur.rG 5) n).isSome = true) := by
  intro c s0 s p u l
  iterate 6 refine And.intro (by decide +kernel) ?_
  have size : imageBytes { u with fresh := u.fresh + 1 } l = 4864 := by decide +kernel
  have room : u.cur.rG 7 = 8589934592#64 := by decide +kernel
  have free := (Config.free 32 u.fresh).isLt
  refine ⟨?_, ?_⟩
  · simp only [State.freeBits, size, room, BitVec.le_def, BitVec.toNat_ofNat]; omega
  · unfold areaBad
    rw [List.findSome?_isSome_iff]
    refine ⟨1, List.mem_range.mpr ?_, by decide +kernel⟩
    simp only [State.freeBits, size]
    unfold ceilDiv
    omega

/-- A form of PREEMPT that names no unit, and the area of a PREEMPT whose units have all acknowledged. -/
theorem witness_preempt_ends :
    let s := pair 2048 (live [] []) false [(4, 3 * 2 ^ 62), (5, 0x13000), (7, 2 ^ 33)]
    let u := pair 2048 (live [] []) false [(4, 5), (5, 0x13000), (7, 2 ^ 33)]
    let v : SaveArea := { SaveArea.empty 0x80012345 (.kernel 5) with bytes := 2432 }
    let w := { u with saves := [(0x13000, v)] }
    readyB (.preempt ⟨3, 4, 5, 7, 0⟩) s = true ∧ stopSet (s.cur.rG 4) = none ∧ (s.cur.rG 5).toNat % 4096 = 0 ∧
    (match resolveLocal s (curAcc s) (s.cur.rG 5) 64 64 .wr with | .ok _ => true | .error _ => false) = true ∧
    areaBad (Rule.both w) 0x13000 2432 = none ∧ v.busy = true ∧ v.by_ = w.cur.task ∧ v.todo = [] := by decide +kernel

/-- A save area with one context left, or with nothing left. -/
def saving (todo : List StopUnit) (x : Ctx) (g : List (Nat × Nat)) : State :=
  let v : SaveArea := { SaveArea.empty 0x80012345 (.kernel 5) with bytes := 2432, todo := todo, ctxs := [⟨0x12345, none, []⟩] }
  { pair 2048 x false g with saves := [(0x13000, v)] }

theorem witness_WorkIsStoppedSavedAndMoved :
    let s := saving [.ctx 0x12345] (live [] []) []
    let b := saving [.ctx 0x12345, .eng (.copy 0)] (live [] []) []
    let w := saving [] { live [] [] with st := .saved } [(4, 5), (5, 0x13000), (6, 0)]
    let n := { w with saves := [] }
    let p : Path := .mem 0x13000 0x13000 .seq false
    let v : SaveArea := { SaveArea.empty 0x80012345 (.kernel 5) with bytes := 2432, ctxs := [⟨0x12345, none, []⟩] }
    let x : Ctx := { live [] [] with st := .saved }
    let full := { w with cores := [(0, { coreOf x with ctxs := vset (Vector.replicate 8 (live [] [])) 0 x }), (2048, w.core 2048)] }
    (s.saves.findP (fun _ v => v.todo.contains (.ctx 0x12345)) = some (0x13000, { v with todo := [.ctx 0x12345] }) ∧
      (unitStop s { v with todo := [.ctx 0x12345] } (.ctx 0x12345)).isSome = true ∧
      b.saves.findP (fun _ v => v.todo.contains (.eng (.copy 0))) = some (0x13000, { v with todo := [.ctx 0x12345, .eng (.copy 0)] }) ∧
      (unitStop b { v with todo := [.ctx 0x12345, .eng (.copy 0)] } (.eng (.copy 0))).isNone = true) ∧
    (readyB (.preempt ⟨3, 4, 5, 6, 0⟩) w = true ∧ w.saves.find? 0x13000 = some v ∧ v.busy = true ∧ v.by_ = w.cur.task ∧ v.todo = []) ∧
    (readyB (.restore ⟨3, 5, 0⟩) w = true ∧ resolve w (curAcc w) (w.cur.rG 5) 64 64 .rd .any = .ok p ∧ pathHold w (curAcc w) p 64 .rd = none ∧ w.quiesced = false ∧ v.todo = [] ∧ areaKey p = 0x13000 ∧
      Rule.calm w ∧ (areaRestore (Rule.both w) v).isSome = true ∧ readyB (.restore ⟨3, 5, 0⟩) n = true ∧
      n.saves.find? 0x13000 = none ∧ (areaRestore full v).isNone = true) ∧
    (w.findTask 0x12345 = some (0, 0) ∧ (w.ctx 0 0).st = .saved ∧ (ctxRestore w ⟨0x12345, none, []⟩).isSome = true) := by
  intros; and_intros <;> decide +kernel

theorem witness_migrate :
    let m := pair 2048 (live [] []) false [(4, 0x12345), (5, 8), (6, 0), (7, 9), (8, 2047)]
    let z := pair 2048 frozen false [(4, 0x12345), (5, 8), (6, 0)]
    let u := Rule.both m
    readyB (.migrate ⟨3, 4, 5, 6, 0⟩) m = true ∧ readyB (.migrate ⟨3, 4, 6, 6, 0⟩) m = true ∧ readyB (.migrate ⟨3, 7, 5, 6, 0⟩) m = true ∧
    readyB (.migrate ⟨3, 4, 8, 6, 0⟩) m = true ∧ m.findTask 9 = none ∧ m.findTask 0x12345 = some (0, 0) ∧ serves m 2048 (m.ctx 0 0).kid = true ∧
    Rule.calm m ∧ (u.ctx 0 0).st = .live ∧ agentWorld u 8 = agentWorld u 0 ∧ waysShared u 0 0 = false ∧ moveBusy u 0 0 = false ∧
    moveRoom u 0 8 (u.ctx 0 0) = true ∧ moveBusy (u.modCtx 0 0 fun c => { c with wait := some ⟨.unbinds 1 4, 0, 0⟩ }) 0 0 = true ∧
    readyB (.migrate ⟨3, 4, 5, 6, 0⟩) z = true ∧ ((Rule.both z).ctx 0 0).st = .frozen := by
  intros; and_intros <;> decide +kernel

/-- Checkpoint descriptors in page 0x13: modes 0 to 3 with no tier image (R378). -/
theorem witness_checkpoint :
    let d (mode : Nat) : State := let s := ridge 2048 [(4, 0x13000)]; { s with hbm := s.hbm.writeNat 0x13000 32 (0x20000 + 2 ^ 80 + mode * 2 ^ 128) }
    let p : Path := .mem 0x13000 0x13000 .seq false
    let r (n : Nat) := readPath (taintAcquire (d n) ((d n).cur.taintG 4)) (curAcc (d n)) p 32
    (∀ i ∈ ([.ckptFull ⟨3, 4, 0⟩, .ckptIncremental ⟨3, 4, 0⟩, .ckptRestore ⟨3, 4, 0⟩, .ckptResume ⟨3, 4, 0⟩] : List Instr), readyB i (d 0) = true) ∧
    (∀ n ∈ [0, 1, 2, 3, 4], resolve (d n) (curAcc (d n)) ((d n).cur.rG 4) 32 32 .rd .any = .ok p ∧ (r n).1 / 2 ^ 128 % 2 ^ 32 = n ∧ (r n).1 / 2 ^ 160 % 2 ^ 96 = 0 ∧
      (r n).1 % 2 ^ 64 = 0x20000 ∧ Rule.calm (d n)) ∧
    (ckptTry (Rule.both (r 3).2) 3 0x20000 (2 ^ 16) 0).2 = some 0 ∧ (ckptTry (Rule.both (r 0).2) 0 0x20000 (2 ^ 16) 0).2 = none ∧
    (ckptTry (Rule.both (r 2).2) 2 0x20000 (2 ^ 16) 0).2 = some (2 ^ 63) ∧ (d 0).quiesced = false ∧ pathHold (d 0) (curAcc (d 0)) p 32 .rd = none ∧ (d 0).tiers.find? 0x20000 = none := by
  intros; and_intros <;> decide +kernel

/-- A device that stands still for a checkpoint. -/
def still : State := { ridge 2048 [] with quiesced := true, saves := [(ckptKey, SaveArea.empty 1 .device)] }

/-- It streams every frame into a range that holds them (R231). -/
theorem witness_checkpoint_streams : ∃ (w : State) (v : Word), ckptTry still 0 0x20000 (2 ^ 52) 1 = (w, some v) ∧ v.toNat < 2 ^ 63 := by
  have free := (Config.free 32 (flushAll still).fresh).isLt
  have goes : ckptTry still 0 0x20000 (2 ^ 52) 1 = (let r := ckptStream still false 0x20000 (2 ^ 52) (SaveArea.empty 1 .device); (r.1, some r.2)) := by
    unfold ckptTry
    rw [if_pos (by omega), if_neg (by decide +kernel)]
    show (if _ then _ else _) = _
    rw [if_neg (by decide +kernel)]
    rfl
  have fits : ¬ (2 ^ 52 < allFrames + (Config.free 32 (flushAll still).fresh).toNat) := by unfold allFrames; omega
  have near : (unreachable { flushAll still with fresh := (flushAll still).fresh + 1 } 0x20000 && decide (0x20000 / 2 ^ 46 % 64 ≠
      ({ flushAll still with fresh := (flushAll still).fresh + 1 } : State).devno.toNat)) = false := by decide +kernel
  have streams : (ckptStream still false 0x20000 (2 ^ 52) (SaveArea.empty 1 .device)).2 =
      BitVec.ofNat 64 (allFrames + (Config.free 32 (flushAll still).fresh).toNat) := by
    unfold ckptStream State.freeBits
    simp only [Bool.false_eq_true, if_false, near, Bool.or_false, decide_eq_true_eq]
    rw [if_neg fits]
  refine ⟨_, _, goes, ?_⟩
  rw [streams, BitVec.toNat_ofNat]
  unfold allFrames
  omega

end Sys2Proof.Tests
end

