-- ==== Sys2Proof/Tests/WitnessTasks.lean ====
section
/-! SUPPORT. Witnesses for the statements about messages, handlers, tasks, launches and faults. -/

namespace Sys2Proof.Tests

set_option Elab.async false

open Sys2Proof.Machine

/-- A handler entry of kernel 5: eight scalar and eight vector registers, PC 0x10000 (R149). -/
def entry5 : BitVec 128 := BitVec.ofNat 128 (2 ^ 127 + 2 ^ 114 + 2 ^ 111 + 5 * 2 ^ 80 + 0x10000)
/-- The entry installed at channels 1 and 9. -/
def handlers5 : Vector (BitVec 128) 64 := vset (vset (Vector.replicate 64 0) 9 entry5) 1 entry5

/-- A core whose context 0 is live, with the entry and a changed field. -/
def handled : Core := { coreOf (live [] []) with handlers := handlers5 }

/-- Core 0's message to core 8, channel 9. -/
def msg : Msg := { dstDev := 0, dst := 8, ch := 9, srcDev := 0, srcXR := false, srcCore := 0, len := 1, kind := .task, tagv := false, tag := 0,
                   payload := 7, kid := 5, world := false, resend := false, acq := none, task := 0x12345, pc := 0x10000 }
/-- Core 0 holds the message's place; core 8 has the entry. -/
def sent (e : RetryEntry) (v : Ev) : State :=
  { board 0 { coreOf (live [] []) with retry := [e] } with cores := [(0, { coreOf (live [] []) with retry := [e] }), (8, handled)], ev := some v }
/-- A core with no free context. -/
def full (o : Core) : Core := { o with ctxs := Vector.replicate 8 (live [] []) }

theorem witness_SendsBuildAndPlaceTheirMessage :
    let h := 8 * 2 ^ 47 + 9 * 2 ^ 41 + 9 * 2 ^ 20
    let s := user [(4, h), (6, h + 0xABCD)] [(8, 3), (9, 4)]
    Rule.sendForm (.send ⟨4, 8, none, .base⟩) = some (⟨4, 8, none, .base⟩, false) ∧ readyB (.send ⟨4, 8, none, .base⟩) s = true ∧
    headerCheck s false false (s.cur.rG 4) = none ∧ s.cur.openName true (8 + 1) = true ∧ s.cur.fullV (8 + 1) = true ∧
    Rule.sendForm (.tsend ⟨6, 8, some .dev, .ext 0⟩) = some (⟨6, 8, some .dev, .ext 0⟩, true) ∧ readyB (.tsend ⟨6, 8, some .dev, .ext 0⟩) s = true ∧
    headerCheck s false true (s.cur.rG 6) = none ∧ (s.core s.curAgent).retry.length < 8 ∧ releaseHeld s .dev = false ∧
    unackedOut (release s s.curAgent .sys) s.cur.task = false ∧ noPathTo { s with noPath := [3] } 3 = true ∧ noPathTo s 3 = false ∧ (1 : Nat) ≤ 8 := by decide +kernel

theorem witness_ArrivalsReserveAContextOrAreRefused :
    let s := board 8 handled
    let f := board 8 (full handled)
    let q := board 8 { full handled with refq := List.replicate 64 ⟨⟨0, true, 3⟩, 9, .task, false, 5⟩ }
    let e := vget (s.core 8).handlers 9 0
    s.quiesced = false ∧ crossing s msg = false ∧ Handler.valid e = true ∧ Handler.masked e = false ∧ Handler.gmu e = false ∧ msg.kid = Handler.kid e ∧
    (s.core 8).arrivals.length + resvCount (s.core 8) .start < 16 ∧ freeCtx (s.core 8) = some 1 ∧
    poolHas (s.core 8) (8 * Handler.gdem e) (8 * Handler.vdem e) = true ∧
    crossing f msg = false ∧ vget (f.core 8).handlers 9 0 = e ∧ freeCtx (f.core 8) = none ∧ (f.core 8).refq.length < 64 ∧
    crossing q msg = false ∧ vget (q.core 8).handlers 9 0 = e ∧ freeCtx (q.core 8) = none ∧ 64 ≤ (q.core 8).refq.length ∧
    (∀ r ∈ (q.core 8).refq, r.src ≠ srcOf msg ∨ r.ch ≠ msg.ch) := by decide +kernel

theorem witness_MessageEventsAnswerTheSender :
    let e : RetryEntry := ⟨msg, true, false, 0⟩
    let r : RetryEntry := ⟨msg, true, true, 0⟩
    let s := sent e (.messageArrive msg)
    let w := sent r (.withdrawal 8 0 false 0 9)
    (msg.ch ≠ 2 ∧ msg.ch ≠ 3 ∧ isRidge msg.dst = false ∧ msg.srcDev = s.devno ∧ heldBySender s msg = true ∧ flowAhead s msg = false ∧ srcAgent msg ≠ hostAgent ∧
      landBusy s msg = false ∧ firmwareDrops s msg = false) ∧
    (((sent e (.messageReply msg .accepted)).core (srcAgent msg)).retry = [e] ∧ e.msg = msg ∧
      ((sent e (.messageReply msg .refused)).core (srcAgent msg)).retry = [e]) ∧
    (((sent r (.contextFreeNotice 0 8 0 9)).core 0).retry = [r] ∧ r.msg.dst = 8 ∧ r.msg.dstDev = w.devno ∧ r.msg.ch = 9 ∧
      r.due ≤ (sent r (.resendTimerExpire 0 8 0 9)).now) ∧
    (let x : Resv := ⟨⟨0, false, 0⟩, 9, .start, 1⟩
     let o : Core := { handled with resv := [x] }
     ({ w with cores := [(8, o)] } : State).core 8 = o ∧ x.src = ⟨0, false, 0⟩ ∧ o.refq = []) := by decide +kernel

theorem witness_ReceivesArePostedAndCancelled :
    let s := user [(4, own 0x100), (6, 9 * 2 ^ 7)]
    let p : Posted := ⟨0, 0x12345, 5, 6, 9 * 2 ^ 7, 0x100⟩
    let c := board 0 { coreOf (live [] []) with posted := [p] }
    (readyB (.recv ⟨5, 6, 4, .base⟩) s = true ∧ Rule.ownScratch s (s.cur.rG 4) 128 8 0x100 ∧ (s.cur.rG 6).extractLsb' 0 6 = 0 ∧
      (s.core s.curAgent).overflow = [] ∧ (s.core s.curAgent).posted.length < 16) ∧
    (readyB (.rcancel ⟨5, 6, .base⟩) c = true ∧ (c.core c.curAgent).posted = [p] ∧ p.ctx = c.curCtx) ∧
    (readyB (.rcancel ⟨5, 6, .base⟩) s = true ∧ (s.core s.curAgent).posted = []) := by decide +kernel

theorem witness_HandlerEntriesAreWrittenAndRead :
    let s := user [(4, 9), (6, (entry5 / 2 ^ 64).toNat), (7, (entry5 % 2 ^ 64).toNat), (8, 1), (9, 63), (10, 0)]
    let t := board 0 { s.core 0 with handlers := handlers5 }
    (readyB (.chwr ⟨4, 6, 7, .base⟩) s = true ∧ (s.cur.rG 4).toNat ≤ 63 ∧ entryWrite s s.curAgent s.cur 9 (s.cur.rG 6 ++ s.cur.rG 7) = none ∧
      (s.core s.curAgent).refq = []) ∧
    (readyB (.chwr ⟨9, 10, 10, .base⟩) s = true ∧ (s.cur.rG 9).toNat ≤ 63 ∧ entryWrite s s.curAgent s.cur 63 (s.cur.rG 10 ++ s.cur.rG 10) = none) ∧
    (readyB (.chmsk ⟨5, 4, 8, .base⟩) t = true ∧ (t.cur.rG 8).toNat ≤ 1 ∧ (vget (t.core t.curAgent).handlers 9 0).getLsbD 127 = true ∧
      (vget (t.core t.curAgent).handlers 9 0).extractLsb' 80 16 = t.cur.kid) ∧
    (readyB (.chrd ⟨true, 5, 4, .base⟩) t = true ∧ readyB (.chrd ⟨false, 5, 9, .base⟩) t = true ∧
      (vget (t.core t.curAgent).handlers 63 0).getLsbD 127 = false) := by decide +kernel

/-- A scratchpad with a task record at 0x200 (PC 0x10000, CTL with eight scalar registers; R156) and a launch record at 0x240 (one cluster, one
core, two stages, kernel 5; R158). -/
def records : Mem :=
  (Mem.writeNat [] 0x200 32 (0x10000 + 2 ^ 216)).writeNat 0x240 64
    (0x10000 + 2 ^ 208 + 2 ^ 216 + 2 ^ 224 + 2 * 2 ^ 232 + 32 * 2 ^ 248 + 5 * 2 ^ 304)

/-- An issued launch with two records to place on core 0. -/
def queued : Launch :=
  { id := 3, pc := 0x10000, arg0 := 7, arg1 := 8, dem := 32, prio := 0, spreq := 0, kid := 5, world := false, ch := 0, fut := none
    iss := ⟨0, 0, 0x12345, 5, false, 0, false, 0x10000, 0, 2, win0⟩, started := false, todo := [(0, 0), (0, 1)], placed := 0, live := 0, killed := 0
    since := 0 }

/-- A page-fault reply for `task` at IA 0x13000 with a status byte (R217). -/
def reply (task status : Nat) : Msg := { msg with ch := 2, payload := BitVec.ofNat 960 (task + status * 2 ^ 40 + 0x13000 * 2 ^ 64) }
/-- A packet message of kernel 5, without a context where `noctx`. -/
def packetMsg (noctx : Bool) : Msg :=
  { msg with ch := 1, kind := .system, payload := BitVec.ofNat 960 (6 + (if noctx then 2 ^ 31 else 0) + 0x12345 * 2 ^ 32 + 5 * 2 ^ 64) }

theorem witness_TasksSpawnJoinHaltAndYield :
    let s := board 0 { coreOf (live [(4, own 0x200), (6, 63)] []) with spad := records }
    let j := board 0 (coreOf { live [] [] with join := 2 })
    let p : Path := .scratch 0 0x200
    let r := readPath (taintAcquire s (s.cur.taintG 4)) (curAcc s) p 32
    let ctl := BitVec.ofNat 32 (r.1 / 2 ^ 192)
    (readyB (.spawn ⟨4⟩) s = true ∧ releaseHeld r.2 .core = false ∧ resolve s (curAcc s) (s.cur.rG 4) 32 32 .rd .any = .ok p ∧ pathHold s (curAcc s) p 32 .rd = none ∧
      (s.core s.curAgent).taskq.length < 64 ∧ s.cur.join ≠ 0xFFFF ∧ ctl = 2 ^ 24 ∧
      fieldsBad (isRidge s.curAgent) (Ctl.prio ctl) (Ctl.gdem ctl) (Ctl.vdem ctl) (Ctl.spreq ctl) (Ctl.lane ctl) true = false ∧
      (r.2.ktIndex s.cur.kid).isSome = true ∧ Ctl.prio ctl < 20) ∧
    (readyB .join s = true ∧ s.cur.join = 0 ∧ readyB .join j = true ∧ j.cur.join ≠ 0) ∧
    (readyB .halt s = true ∧ allLanded s s.curAgent s.curCtx = true ∧ joinHeld s = false ∧ readyB (.haltr ⟨6⟩) s = true ∧ (s.cur.rG 6).toNat ≤ 63) ∧
    readyB .yield s = true := by decide +kernel

theorem witness_LeavingFreesTheContext :
    let s := user []
    (s.core 0).refq = [] ∧ (s.ctx 0 0).parent = none ∧ (s.ctx 0 0).launch = none ∧ s.thboot = false := by decide +kernel

theorem witness_TaskStartEntersAtThePc :
    let q : TaskRec := ⟨0x10000, 1, 2, 3, 2 ^ 24, none, none, 5, false, none, 0, none, .core, 0⟩
    let s : State := { board 0 { coreOf (live [] []) with taskq := [q] } with ev := some (.taskStart 0) }
    let n : State := { user [] with ev := some (.taskStart 0) }
    ((s.core 0).taskq ≠ [] ∧ coreRuns s 0 = true ∧ startsHeld s 0 = false ∧
      (selectStart (s.core 0) s.now).isSome = true) ∧
    ((n.core 0).arrivals = [] ∧ (n.core 0).taskq = []) ∧
    coreRuns { s with cores := [(0, { s.core 0 with halted := true })] } 0 = false ∧
    startsHeld { s with cores := [(0, { s.core 0 with held := true })] } 0 = true ∧
    selectStart ({ s.core 0 with ctxs := Vector.replicate 8 (live [] []) }) s.now = none := by decide +kernel

theorem witness_LaunchesQueueAndPlace :
    let s := board 0 { coreOf (live [(4, own 0x240)] []) with spad := records }
    let p : Path := .scratch 0 0x240
    let r := readPath (taintAcquire (release s s.curAgent .dev) (s.cur.taintG 4)) (curAcc (release s s.curAgent .dev)) p 64
    let l : State := { user [] with dies := [(0, { Die.reset with running := true, launchq := [queued] })], ev := some (.launchPlace 0) }
    (readyB (.launch ⟨4⟩) s = true ∧ resolve s (curAcc s) (s.cur.rG 4) 64 64 .rd .any = .ok p ∧ pathHold s (curAcc s) p 64 .rd = none ∧
      Rule.calm s ∧ launchBad r.2 r.1 = false ∧ recBytes r.1 0x1E 1 < 20 ∧ BitVec.ofNat 16 (recBytes r.1 0x26 2) = s.cur.kid ∧
      decide (recBytes r.1 0x25 1 = 1) = s.cur.world ∧ futCheck s.cur.win (BitVec.ofNat 64 (recBytes r.1 8 8)) = none ∧
      (queuedLaunches (r.2.die (recBytes r.1 0x24 1))).length < 64) ∧
    (l.quiesced = false ∧ (l.die 0).launchq = [queued] ∧ queued.todo = (0, 0) :: [(0, 1)] ∧ queued.prio.toNat < 24 ∧
      ceilDiv queued.spreq wayBytes ≤ 18 ∧ agentWorld l 0 = queued.world ∧ (l.core 0).taskq.length < 64) := by decide +kernel

/-- Kernel 5 has a trap entry on core 8, where its packet arrives. -/
def trapped : State :=
  { board 8 { coreOf (live [] []) with trapt := vset (Vector.replicate 64 0) 0 entry5 } with ev := some (.faultPacketArrive (packetMsg false)) }
/-- The packet of a frozen context reaches a core without an entry. -/
def unserved : State :=
  { board 0 (coreOf { live [] [] with st := .frozen, frozenBy := some (Packet.ofBits 0) }) with ev := some (.faultPacketArrive (packetMsg false)) }
/-- A packet without a context reaches a core without an entry. -/
def untrapped : State := { user [] with ev := some (.faultPacketArrive (packetMsg true)) }
/-- A context waits for the page of IA 0x13000. -/
def paged : State := board 0 (coreOf { live [] [] with wait := some ⟨.page 0x13000 0x13000 6 0 0 false, 0, 0⟩ })

theorem witness_FaultAndPageEventsReachTheirHandlers :
    (let e := packetEntry trapped 8 (packetMsg false) (Packet.ofBits ((packetMsg false).payload.setWidth 512))
     crossing trapped (packetMsg false) = false ∧ Handler.valid e = true ∧ Handler.masked e = false ∧ (trapped.core 8).arrivals.length + resvCount (trapped.core 8) .start < 16 ∧
      freeCtx (trapped.core 8) = some 1 ∧ poolHas (trapped.core 8) (8 * Handler.gdem e) (8 * Handler.vdem e) = true) ∧
    Handler.valid (packetEntry untrapped 8 (packetMsg true) (Packet.ofBits ((packetMsg true).payload.setWidth 512))) = false ∧
    (packetMsg true).payload.getLsbD 31 = true ∧ crossing untrapped (packetMsg true) = false ∧
    (crossing unserved (packetMsg false) = false ∧
      Handler.valid (packetEntry unserved 8 (packetMsg false) (Packet.ofBits ((packetMsg false).payload.setWidth 512))) = false ∧
      (packetMsg false).payload.getLsbD 31 = false ∧ unserved.findTask ((packetMsg false).payload.extractLsb' 32 32) = some (0, 0) ∧
      (unserved.ctx 0 0).st = .frozen) ∧
    (paged.ctx 0 0).wait = some ⟨.page 0x13000 0x13000 6 0 0 false, 0, 0⟩ ∧ paged.completions = [] ∧
    (reply 0x12345 0).payload.extractLsb' 32 8 = 0 ∧
    pageWaiter paged ((reply 0x12345 0).payload.extractLsb' 0 32) (((reply 0x12345 0).payload.extractLsb' 64 64).toNat / 4096)
      = some (0, 0, { code := 6, va := 0x13000, ia := 0x13000 }) ∧
    (reply 0x12345 1).payload.extractLsb' 32 8 = 0 ∧
    pageWaiter paged ((reply 0x12345 1).payload.extractLsb' 0 32) (((reply 0x12345 1).payload.extractLsb' 64 64).toNat / 4096)
      = some (0, 0, { code := 6, va := 0x13000, ia := 0x13000 }) ∧
    (reply 0x12345 0).payload.extractLsb' 40 8 = 0 ∧ (reply 0x12345 1).payload.extractLsb' 40 8 ≠ 0 ∧
    (reply 0x12345 0).payload.extractLsb' 48 16 = 0 ∧ (reply 0x12345 1).payload.extractLsb' 48 16 = 0 ∧
    (paged.ctx 0 0).task = 0x12345 ∧ (paged.ctx 0 0).st = .live := by
  and_intros <;> decide +kernel

end Sys2Proof.Tests
end

/-! SUPPORT. O58 (log 7): every step keeps HBM, host memory and the images canonical. Of each function of the model that answers a
state there is one lemma, `after_<function>`, and its proof follows the function's branches. The memories are written only by these
functions, each through the laws of `Mem`: `thatchEvict`, `physPut`, `dirtyClear`, `moveFrame`, `installImage`, `bootRom` and `heldReset`
(HBM), `apertureWrite`, `hostBack`, `hostReply` and `execHostAttest` (host memory), `ckptStream` (images). Everywhere else the frame rule
`MemoriesCanonical.frame` closes the branch. -/

namespace Sys2Proof
set_option Elab.async false

/-- Dropping cells and changing bytes in place keeps the canonical form, where no kept byte becomes the default. -/
theorem Mem.wfFrom_filterMap {lo : Nat} {m : Mem} (h : Mem.wfFrom lo m = true) {f : Host.Cell → Option Host.Cell}
    (hf : ∀ c d, f c = some d → c.2 ≠ Mem.dflt → d.1 = c.1 ∧ d.2 ≠ Mem.dflt) : Mem.wfFrom lo (m.filterMap f) = true := by
  induction m generalizing lo with
  | nil => rfl
  | cons c t ih =>
    simp only [Mem.wfFrom, Bool.and_eq_true, decide_eq_true_eq, bne_iff_ne] at h
    obtain ⟨⟨hlo, hc⟩, ht⟩ := h
    rw [List.filterMap_cons]
    split
    · exact Mem.wfFrom_mono (ih ht) (by omega)
    · rename_i d e
      obtain ⟨ha, hd⟩ := hf c d e hc
      simp only [Mem.wfFrom, Bool.and_eq_true, decide_eq_true_eq, bne_iff_ne]
      exact ⟨⟨by omega, hd⟩, by rw [ha]; exact ih ht⟩

theorem SMap.mem_of_find? {α : Type} {m : SMap α} {a : Nat} {x : α} (h : SMap.find? m a = some x) : (a, x) ∈ m := by
  induction m with
  | nil => cases h
  | cons q t ih =>
    obtain ⟨k, y⟩ := q
    rw [SMap.find?] at h
    split_ifs at h with hk
    · cases h
      exact hk ▸ List.mem_cons_self
    · exact List.mem_cons_of_mem _ (ih h)

end Sys2Proof

namespace Sys2Proof.Machine
set_option Elab.async false

/-! The shapes in which the functions of the model answer a state. -/

section
variable {s t : State}

/-- The frame rule: an update of any fields but the three memories. -/
theorem MemoriesCanonical.frame
    {curAgent curCtx agenda pending ev turn fresh time ptroot kt wp mrgn meas svn minSvn thboot wnb cores clusters dies lastCore hgmEng
    wsoFull poison spPoison dsPoison thatch tlb dir nbMats nbCmds nextId haltNb workLists links completions heldRes engWaits saves quiesced
    pages homes moving remote far portQ outbox hostRetry hostUp unacked lanesUp noPath grants stalled powerAt draws mgmt}
    (h : MemoriesCanonical s) : MemoriesCanonical
      { s with
        curAgent, curCtx, agenda, pending, ev, turn, fresh, time, ptroot, kt, wp, mrgn, meas, svn, minSvn, thboot, wnb, cores, clusters,
        dies, lastCore, hgmEng, wsoFull, poison, spPoison, dsPoison, thatch, tlb, dir, nbMats, nbCmds, nextId, haltNb, workLists, links,
        completions, heldRes, engWaits, saves, quiesced, pages, homes, moving, remote, far, portQ, outbox, hostRetry, hostUp, unacked,
        lanesUp, noPath, grants, stalled, powerAt, draws, mgmt } := h

theorem MemoriesCanonical.of_eq (h : MemoriesCanonical s) (b : t.hbm = s.hbm) (m : t.hostMem = s.hostMem) (i : t.tiers = s.tiers) :
    MemoriesCanonical t := by
  unfold MemoriesCanonical; rw [b, m, i]; exact h

theorem MemoriesCanonical.hbm (h : MemoriesCanonical s) : s.hbm.wf = true := h.1
theorem MemoriesCanonical.hostMem (h : MemoriesCanonical s) : s.hostMem.wf = true := h.2.1
theorem MemoriesCanonical.tiers (h : MemoriesCanonical s) : ∀ q ∈ s.tiers, q.2.hbm.wf = true := h.2.2

theorem MemoriesCanonical.with_hbm {m : Mem} (h : MemoriesCanonical s) (hm : m.wf = true) : MemoriesCanonical { s with hbm := m } := ⟨hm, h.2⟩
theorem MemoriesCanonical.with_hostMem {m : Mem} (h : MemoriesCanonical s) (hm : m.wf = true) : MemoriesCanonical { s with hostMem := m } :=
  ⟨h.1, hm, h.2.2⟩

theorem MemoriesCanonical.ite {p : Prop} {_ : Decidable p} (hs : MemoriesCanonical s) (ht : MemoriesCanonical t) :
    MemoriesCanonical (if p then s else t) := by split <;> assumption

theorem MemoriesCanonical.foldl {α : Type} {l : List α} {f : State → α → State} (h : MemoriesCanonical s)
    (hf : ∀ t x, MemoriesCanonical t → MemoriesCanonical (f t x)) : MemoriesCanonical (l.foldl f s) :=
  List.foldlRecOn l f h fun t ht x _ => hf t x ht

/-- A fold over a tuple that holds the state. -/
theorem MemoriesCanonical.foldlBy {α σ : Type} (get : σ → State) {r : σ} {l : List α} {f : σ → α → σ} (h : MemoriesCanonical (get r))
    (hf : ∀ r x, MemoriesCanonical (get r) → MemoriesCanonical (get (f r x))) : MemoriesCanonical (get (l.foldl f r)) :=
  List.foldlRecOn (motive := fun r => MemoriesCanonical (get r)) l f h fun t ht x _ => hf t x ht

theorem MemoriesCanonical.fst {α : Type} {x : α} (h : MemoriesCanonical s) : MemoriesCanonical (s, x).1 := h
theorem MemoriesCanonical.snd {α : Type} {x : α} (h : MemoriesCanonical s) : MemoriesCanonical (x, s).2 := h

theorem MemoriesCanonical.ite_fst {α : Type} {p : Prop} {_ : Decidable p} {x y : State × α} (hx : MemoriesCanonical x.1)
    (hy : MemoriesCanonical y.1) : MemoriesCanonical (if p then x else y).1 := by split <;> assumption

theorem MemoriesCanonical.ite_snd {α : Type} {p : Prop} {_ : Decidable p} {x y : α × State} (hx : MemoriesCanonical x.2)
    (hy : MemoriesCanonical y.2) : MemoriesCanonical (if p then x else y).2 := by split <;> assumption

theorem MemoriesCanonical.of_fst {α : Type} {r : State × α} {x : α} (e : r = (t, x)) (h : MemoriesCanonical r.1) : MemoriesCanonical t := by
  subst e; exact h

/-- What an instruction, an event or a step answers has canonical memories, where it goes on. -/
def OutCanonical (o : Out) : Prop := ∀ t, o = .next t → MemoriesCanonical t

theorem OutCanonical.next (h : MemoriesCanonical s) : OutCanonical (.next s) := fun | _, rfl => h

theorem OutCanonical.ite {p : Prop} {_ : Decidable p} {a b : Out} (ha : OutCanonical a) (hb : OutCanonical b) :
    OutCanonical (if p then a else b) := by
  split <;> assumption

/-- The same of what the work of a host command answers. -/
def ServedCanonical (r : Served) : Prop :=
  (∀ st v t, r = .done st v t → MemoriesCanonical t) ∧ ∀ t, r = .wait t → MemoriesCanonical t

theorem ServedCanonical.done {st v} (h : MemoriesCanonical s) : ServedCanonical (.done st v s) :=
  ⟨fun | _, _, _, rfl => h, fun _ e => nomatch e⟩

theorem ServedCanonical.wait (h : MemoriesCanonical s) : ServedCanonical (.wait s) := ⟨fun _ _ _ e => (nomatch e), fun | _, rfl => h⟩

theorem ServedCanonical.ite {p : Prop} {_ : Decidable p} {a b : Served} (ha : ServedCanonical a) (hb : ServedCanonical b) :
    ServedCanonical (if p then a else b) := by split <;> assumption

theorem MemoriesCanonical.getD {o : Option State} (h : MemoriesCanonical s) (ho : ∀ t, o = some t → MemoriesCanonical t) :
    MemoriesCanonical (o.getD s) := by
  cases o with
  | none => exact h
  | some t => exact ho t rfl

theorem MemoriesCanonical.with_tiers {l} (h : MemoriesCanonical s) (hl : ∀ q ∈ l, q.2.hbm.wf = true) :
    MemoriesCanonical { s with tiers := l } := ⟨h.hbm, h.hostMem, hl⟩

end

/-! Named operations over the state. -/

theorem OutCanonical.after_answer {s : State} (h : MemoriesCanonical s) : OutCanonical (answer s) :=
  .next h

/-! State accessors. -/

theorem MemoriesCanonical.after_pendOnce {s : State} {e} (h : MemoriesCanonical s) : MemoriesCanonical (State.pendOnce s e) :=
  .ite h (.frame h)

/-! Fault packets (R210 to R213). -/

theorem MemoriesCanonical.after_sendPacket {s : State} {a p pa} (h : MemoriesCanonical s) : MemoriesCanonical (State.sendPacket s a p pa) :=
  .ite (.frame h) (.frame h)

theorem MemoriesCanonical.after_landValue {s : State} {l} (h : MemoriesCanonical s) : MemoriesCanonical (landValue s l) :=
  .ite h (.frame h)

theorem MemoriesCanonical.after_landAll {s : State} {a k} (h : MemoriesCanonical s) : MemoriesCanonical (landAll s a k) := by
  unfold landAll
  refine .foldl (.frame h) fun _ _ h => ?_
  split
  · exact .after_landValue h
  · exact h

theorem MemoriesCanonical.after_takeFault {s : State} {a k f insn} (h : MemoriesCanonical s) : MemoriesCanonical (takeFault s a k f insn) :=
  .ite (.frame (.ite (.after_sendPacket (.after_landAll h)) (.after_landAll h)))
    (.after_sendPacket (.frame (.ite (.after_sendPacket (.after_landAll h)) (.after_landAll h))))

theorem MemoriesCanonical.after_record {s : State} {code sub agent inst kid task from_ stage pc va ia info pa} (h : MemoriesCanonical s) :
    MemoriesCanonical (State.record s code sub agent inst kid task from_ stage pc va ia info pa) :=
  .after_sendPacket h

/-! Waiting (R288). -/

theorem MemoriesCanonical.after_waitFor {s : State} {w limit} (h : MemoriesCanonical s) : MemoriesCanonical (waitFor s w limit) :=
  .of_eq h (waitFor_hbm s w limit) (waitFor_hostMem s w limit) (waitFor_tiers s w limit)

/-! Issue (R209, R242, R161). -/

theorem MemoriesCanonical.after_faultCur {s : State} {i f} (h : MemoriesCanonical s) : MemoriesCanonical (faultCur i s f) :=
  .after_takeFault h

theorem OutCanonical.after_issue {s : State} {i k} (h : MemoriesCanonical s) (hk : ∀ x, MemoriesCanonical (k x)) :
    OutCanonical (issue i s k) := by
  unfold issue
  refine .ite (.next h) ?_
  split
  · exact .after_answer (.after_faultCur h)
  · exact .after_answer (.after_waitFor h)
  · exact .after_answer (hk _)

theorem OutCanonical.after_issueReg {s : State} {i k} (h : MemoriesCanonical s) : OutCanonical (issueReg i s k) :=
  .after_issue h fun _ => .frame h

theorem MemoriesCanonical.after_raise {s : State} {i code va} (h : MemoriesCanonical s) : MemoriesCanonical (raise i s code va) :=
  .after_faultCur h

/-! Pages between devices (R128, R129). -/

theorem MemoriesCanonical.after_askOwn {s : State} {x page} (h : MemoriesCanonical s) : MemoriesCanonical (askOwn s x page) :=
  .ite h (.after_pendOnce h)

/-! Halt groups (R223, R379). -/

theorem MemoriesCanonical.after_haltCore {s : State} {a} (h : MemoriesCanonical s) : MemoriesCanonical (haltCore s a) :=
  .foldl (.frame h) fun _ _ h => .frame h

theorem MemoriesCanonical.after_haltGroup {s : State} {die g on} (h : MemoriesCanonical s) : MemoriesCanonical (haltGroup s die g on) :=
  .foldl (.frame (.foldl h fun _ _ h => .ite (.after_haltCore h) (.frame h))) fun _ _ h => .ite h
    (.ite (.ite (.frame h) h) (.ite h (.ite (.frame h) (.ite (.frame h) (.ite (.frame h) (.ite (.frame h) (.frame h)))))))

/-! Watchpoints (R225, R226): a request accepted at its translation home is compared with each of them. -/

theorem MemoriesCanonical.after_watch {s : State} {x ia k bytes} (h : MemoriesCanonical s) : MemoriesCanonical (watch s x ia k bytes) :=
  .foldl h fun _ _ h => .ite h (.ite (.after_haltGroup (.frame h)) (.frame h))

theorem MemoriesCanonical.after_cacheLeaf {s : State} {ia} (h : MemoriesCanonical s) : MemoriesCanonical (cacheLeaf s ia) := by
  unfold cacheLeaf
  split
  · exact h
  · split
    · exact .frame h
    · exact h

theorem MemoriesCanonical.after_accepted {s : State} {x p k} (h : MemoriesCanonical s) : MemoriesCanonical (accepted s x p k) := by
  unfold accepted
  split
  · exact .after_watch (.after_cacheLeaf h)
  · exact h

/-! Thatch and HBM (R90, log 46). -/

theorem MemoriesCanonical.after_thatchEvict {s : State} {line} (h : MemoriesCanonical s) : MemoriesCanonical (thatchEvict s line) := by
  unfold thatchEvict
  split
  · exact h
  · rename_i t _
    have ht : MemoriesCanonical { s with hbm := s.hbm.writeMasked (line * 64) t.data (.allOnes 64) } :=
      .with_hbm h (Mem.wf_writeMasked h.hbm _ _ _)
    split
    · exact .frame ht
    · exact .frame h

theorem MemoriesCanonical.after_thatchPlace {s : State} {line} (h : MemoriesCanonical s) : MemoriesCanonical (thatchPlace s line).2 := by
  unfold thatchPlace
  dsimp only
  split
  · exact .snd h
  · split
    · exact .snd (.after_thatchEvict (.frame h))
    · exact .snd (.frame h)

theorem MemoriesCanonical.after_physPut {s : State} {pa d m} (h : MemoriesCanonical s) : MemoriesCanonical (physPut s pa d m) := by
  unfold physPut
  refine .ite (.with_hbm h (Mem.wf_writeMasked h.hbm _ _ _)) ?_
  split
  · exact .frame h
  · exact .frame (.after_thatchPlace h)

theorem MemoriesCanonical.after_physPutNat {s : State} {pa n v} (h : MemoriesCanonical s) : MemoriesCanonical (physPutNat s pa n v) :=
  .after_physPut h

theorem MemoriesCanonical.after_markDirty {s : State} {pa} (h : MemoriesCanonical s) : MemoriesCanonical (markDirty s pa) :=
  .ite h (.after_physPutNat h)

theorem MemoriesCanonical.after_physWrite {s : State} {pa d m} (h : MemoriesCanonical s) : MemoriesCanonical (physWrite s pa d m) :=
  .ite h (.frame (.after_markDirty (.after_physPut h)))

theorem MemoriesCanonical.after_thatchFlush {s : State} {p} (h : MemoriesCanonical s) : MemoriesCanonical (thatchFlush s p) :=
  .foldl h fun _ _ h => .after_thatchEvict h

/-! Sarking (R89, R125). -/

theorem MemoriesCanonical.after_sarkUpdate {s : State} {die line dat m} (h : MemoriesCanonical s) :
    MemoriesCanonical (sarkUpdate s die line dat m) := by
  unfold sarkUpdate
  split
  · exact .frame h
  · exact h

theorem MemoriesCanonical.after_skPlace {s : State} {die line} (h : MemoriesCanonical s) : MemoriesCanonical (skPlace s die line).2 := by
  unfold skPlace
  dsimp only
  split
  · exact .snd h
  · exact .snd (.frame h)
  · split <;> exact .snd (.frame h)

theorem MemoriesCanonical.after_skFill {s : State} {die line pa dat} (h : MemoriesCanonical s) :
    MemoriesCanonical (skFill s die line pa dat) :=
  .ite h (.frame (.after_skPlace (.frame h)))

/-! L2 (R88, R124). -/

theorem MemoriesCanonical.after_l2Evict {s : State} {die line} (h : MemoriesCanonical s) : MemoriesCanonical (l2Evict s die line) := by
  unfold l2Evict
  split
  · exact h
  · exact .frame (.ite (.after_physWrite h) h)

theorem MemoriesCanonical.after_l2Place {s : State} {die line} (h : MemoriesCanonical s) : MemoriesCanonical (l2Place s die line).2 := by
  unfold l2Place
  dsimp only
  split
  · split
    · exact .snd (.after_l2Evict (.frame h))
    · exact .snd (.frame h)
  · exact .snd (.frame h)

theorem MemoriesCanonical.after_l2Fill {s : State} {die line pa ty} (h : MemoriesCanonical s) :
    MemoriesCanonical (l2Fill s die line pa ty).2 := by
  unfold l2Fill
  split
  · exact .snd h
  · exact .snd (.frame (.after_l2Place h))

theorem MemoriesCanonical.after_l2Write {s : State} {die line pa ty dat m} (h : MemoriesCanonical s) :
    MemoriesCanonical (l2Write s die line pa ty dat m) :=
  .frame (.after_l2Fill h)

/-! The outward side of an L1, and the path of a ridge core (R125, R418). -/

theorem MemoriesCanonical.after_outRead {s : State} {die line pa ty} (h : MemoriesCanonical s) :
    MemoriesCanonical (outRead s die line pa ty).2 := by
  unfold outRead
  refine .ite_snd (.snd (.after_l2Fill h)) ?_
  split
  · exact .snd h
  · exact .snd (.after_skFill h)

theorem MemoriesCanonical.after_outWrite {s : State} {die line pa ty dat m} (h : MemoriesCanonical s) :
    MemoriesCanonical (outWrite s die line pa ty dat m) :=
  .ite (.after_l2Write h) (.after_physWrite (.after_sarkUpdate h))

/-! L1 (R82, R124). -/

theorem MemoriesCanonical.after_dirDrop {s : State} {clu line} (h : MemoriesCanonical s) : MemoriesCanonical (dirDrop s clu line) := by
  unfold dirDrop
  split
  · exact .frame h
  · exact .ite (.frame h) h
  · exact h

theorem MemoriesCanonical.after_seqHome {s : State} {line l} (h : MemoriesCanonical s) : MemoriesCanonical (seqHome s line l) :=
  .after_l2Write h

theorem MemoriesCanonical.after_l1Evict {s : State} {clu line} (h : MemoriesCanonical s) : MemoriesCanonical (l1Evict s clu line) := by
  unfold l1Evict
  split
  · exact h
  · exact .frame (.ite (.after_dirDrop (.ite h (.ite (.after_seqHome h) (.after_outWrite h))))
      (.ite h (.ite (.after_seqHome h) (.after_outWrite h))))

theorem MemoriesCanonical.after_l1Place {s : State} {clu line} (h : MemoriesCanonical s) : MemoriesCanonical (l1Place s clu line).2 := by
  unfold l1Place
  dsimp only
  split
  · split
    · exact .snd (.after_l1Evict (.frame h))
    · exact .snd (.frame h)
  · exact .snd (.frame h)

theorem MemoriesCanonical.after_l1Fill {s : State} {clu line pa ty} (h : MemoriesCanonical s) :
    MemoriesCanonical (l1Fill s clu line pa ty).2 := by
  unfold l1Fill
  split
  · exact .snd h
  · exact .snd (.frame (.after_outRead (.after_l1Place h)))

theorem MemoriesCanonical.after_l1Write {s : State} {clu line pa ty dat m} (h : MemoriesCanonical s) :
    MemoriesCanonical (l1Write s clu line pa ty dat m) :=
  .frame (.after_l1Fill h)

/-! The SEQ directory (R122): one request, served whole. -/

theorem MemoriesCanonical.after_dirRecall {s : State} {j line keep} (h : MemoriesCanonical s) :
    MemoriesCanonical (dirRecall s j line keep) := by
  unfold dirRecall
  split
  · exact h
  · exact .frame (.after_seqHome h)

theorem MemoriesCanonical.after_dirClear {s : State} {line} (h : MemoriesCanonical s) : MemoriesCanonical (dirClear s line) := by
  unfold dirClear
  refine .frame ?_
  split
  · exact .foldl h fun _ _ h => .frame h
  · exact .after_dirRecall h
  · exact h

theorem MemoriesCanonical.after_seqFill {s : State} {clu line pa} (h : MemoriesCanonical s) :
    MemoriesCanonical (seqFill s clu line pa) := by
  unfold seqFill
  split
  · exact h
  · exact .frame (.after_l2Fill (.after_l1Place h))

theorem MemoriesCanonical.after_dirServe {s : State} {clu line pa k} (h : MemoriesCanonical s) :
    MemoriesCanonical (dirServe s clu line pa k) := by
  unfold dirServe
  split
  · split
    · exact .frame (.after_seqFill h)
    · exact .frame (.after_seqFill h)
    · exact .ite h (.frame (.after_seqFill (.after_dirRecall h)))
  · split
    · exact .ite h (.frame (.after_seqFill (.after_dirRecall h)))
    · exact .frame (.after_seqFill (.foldl h fun _ _ h => .frame h))
    · exact .frame (.after_seqFill h)
  · exact .after_l1Evict h
  · exact .after_dirClear h
  · exact .after_dirClear h

/-! The write-combining buffer (R107). -/

theorem MemoriesCanonical.after_wcbDrainOne {s : State} {a e} (h : MemoriesCanonical s) : MemoriesCanonical (wcbDrainOne s a e) :=
  .after_l1Write h

theorem MemoriesCanonical.after_wcbDrain {s : State} {a} (h : MemoriesCanonical s) : MemoriesCanonical (wcbDrain s a) :=
  .foldl (.frame h) fun _ _ h => .after_wcbDrainOne h

theorem MemoriesCanonical.after_wcbEvict {s : State} {a line} (h : MemoriesCanonical s) : MemoriesCanonical (wcbEvict s a line) := by
  unfold wcbEvict
  split
  · exact h
  · exact .after_wcbDrainOne (.frame h)

theorem MemoriesCanonical.after_wcbStore {s : State} {a line pa ty dat m} (h : MemoriesCanonical s) :
    MemoriesCanonical (wcbStore s a line pa ty dat m) := by
  unfold wcbStore
  refine .ite (.frame h) ?_
  refine .frame ?_
  refine .ite h ?_
  split
  · exact .after_wcbEvict h
  · exact h

/-! Pushes and drops (R103, R104, R124). -/

theorem MemoriesCanonical.after_pushL1 {s : State} {clu sc want} (h : MemoriesCanonical s) : MemoriesCanonical (pushL1 s clu sc want) :=
  .foldl h fun _ _ h => .ite h (.frame (.after_outWrite h))

theorem MemoriesCanonical.after_pushL2 {s : State} {die sc want} (h : MemoriesCanonical s) : MemoriesCanonical (pushL2 s die sc want) :=
  .foldl h fun _ _ h => .ite h (.frame (.after_physWrite h))

/-! Writes that leave the device (R411, R414). -/

theorem MemoriesCanonical.after_leaves {s : State} {u} (h : MemoriesCanonical s) : MemoriesCanonical (leaves s u) :=
  .after_pendOnce (.frame h)

theorem MemoriesCanonical.after_pushCopy {s : State} {page p want} (h : MemoriesCanonical s) :
    MemoriesCanonical (pushCopy s page p want) := by
  unfold pushCopy
  dsimp only
  split
  · exact .frame h
  · exact .ite (.after_leaves (.frame h)) (.frame h)

theorem MemoriesCanonical.after_pushPages {s : State} {want} (h : MemoriesCanonical s) : MemoriesCanonical (pushPages s want) :=
  .foldl h fun _ _ h => .after_pushCopy h

theorem MemoriesCanonical.after_pushTo {s : State} {a sc want} (h : MemoriesCanonical s) : MemoriesCanonical (pushTo s a sc want) := by
  unfold pushTo
  extract_lets s₁ s₂ s₃
  have h₁ : MemoriesCanonical s₁ := .ite (.foldl h fun _ _ h => .after_wcbEvict h) h
  have h₂ : MemoriesCanonical s₂ := .ite h (.ite (.after_pushL1 h₁) h₁)
  have h₃ : MemoriesCanonical s₃ := .ite (.after_pushL2 h₂) h₂
  exact .ite (.after_pushPages h₃) h₃

theorem MemoriesCanonical.after_dropL1 {s : State} {clu sc want} (h : MemoriesCanonical s) : MemoriesCanonical (dropL1 s clu sc want) :=
  .foldl h fun _ _ h => .ite h (.ite (.frame h) (.frame (.after_outRead h)))

theorem MemoriesCanonical.after_dropTo {s : State} {a sc bump want} (h : MemoriesCanonical s) :
    MemoriesCanonical (dropTo s a sc bump want) :=
  .ite (.after_dropL1 (.ite (.frame (.ite (.frame h) h)) (.ite (.frame h) h))) (.ite (.frame (.ite (.frame h) h)) (.ite (.frame h) h))

theorem MemoriesCanonical.after_acquire {s : State} {a sc} (h : MemoriesCanonical s) : MemoriesCanonical (acquire s a sc) :=
  .after_dropTo h

theorem MemoriesCanonical.after_release {s : State} {a sc} (h : MemoriesCanonical s) : MemoriesCanonical (release s a sc) :=
  .after_pushTo h

theorem MemoriesCanonical.after_pushLine {s : State} {a line sc} (h : MemoriesCanonical s) : MemoriesCanonical (pushLine s a line sc) :=
  .after_dropTo (.after_pushTo h)

/-! Subscriptions: stores at a publisher core's port (R138, R140, R141). -/

theorem MemoriesCanonical.after_atPort {s : State} {a} (h : MemoriesCanonical s) : MemoriesCanonical (atPort s a) :=
  .ite h (.frame h)

theorem MemoriesCanonical.after_pubNote {s : State} {a i b m dat} (h : MemoriesCanonical s) :
    MemoriesCanonical (pubNote s a i b m dat) := by
  unfold pubNote
  dsimp only
  split
  · exact .ite (.frame h) (.frame h)
  · exact .frame h

theorem MemoriesCanonical.after_spWrite {s : State} {a off n x} (h : MemoriesCanonical s) : MemoriesCanonical (spWrite s a off n x) :=
  .foldl (.ite (.frame h) (.frame h)) fun _ _ h => .after_pubNote h

theorem MemoriesCanonical.after_dsWrite {s : State} {d off n x} (h : MemoriesCanonical s) : MemoriesCanonical (dsWrite s d off n x) :=
  .ite (.frame h) (.frame h)

/-! Pages of other devices (R128 to R130). -/

theorem MemoriesCanonical.after_storeDropped {s : State} {x ia} (h : MemoriesCanonical s) : MemoriesCanonical (storeDropped s x ia) :=
  .after_record h

theorem MemoriesCanonical.after_remoteWrite {s : State} {x ia n v} (h : MemoriesCanonical s) :
    MemoriesCanonical (remoteWrite s x ia n v) := by
  unfold remoteWrite
  refine .ite (.after_leaves h) ?_
  split
  · exact .frame h
  · split <;> exact .frame h

theorem MemoriesCanonical.after_farWrite {s : State} {x ia n v ty} (h : MemoriesCanonical s) : MemoriesCanonical (farWrite s x ia n v ty) :=
  .ite (.after_leaves h) (.ite (.frame h) (.frame h))

/-! Stores to this device's own pages that other devices hold (R129, R130). -/

theorem MemoriesCanonical.after_holdOwn {s : State} {x ia n v} (h : MemoriesCanonical s) : MemoriesCanonical (holdOwn s x ia n v) :=
  .after_askOwn (.frame (.ite h (.after_wcbEvict h)))

/-! The host aperture (R411). -/

theorem MemoriesCanonical.after_apertureWrite {s : State} {x a n v} (h : MemoriesCanonical s) :
    MemoriesCanonical (apertureWrite s x a n v) :=
  .ite (.with_hostMem h (Mem.wf_writeNat h.hostMem _ _ _)) (.after_leaves h)

theorem MemoriesCanonical.after_hostBack {s : State} (h : MemoriesCanonical s) : MemoriesCanonical (hostBack s) :=
  .ite (.frame h) (.frame (.with_hostMem h
    (List.foldlRecOn (motive := fun m => Mem.wf m = true) _ _ h.hostMem fun _ hm _ _ => Mem.wf_writeNat hm _ _ _)))

/-! Reads and writes along an agent's path. -/

theorem MemoriesCanonical.after_relRead {s : State} {x line pa ty} (h : MemoriesCanonical s) :
    MemoriesCanonical (relRead s x line pa ty).2 := by
  unfold relRead
  refine .ite_snd (.after_outRead h) ?_
  dsimp only
  split <;> exact .snd (.after_l1Fill h)

theorem MemoriesCanonical.after_readPath {s : State} {x p n} (h : MemoriesCanonical s) : MemoriesCanonical (readPath s x p n).2 := by
  unfold readPath
  dsimp only
  split
  · exact .snd (.after_accepted h)
  · exact .snd (.after_accepted h)
  · exact .snd (.after_accepted h)
  · exact .snd (.after_accepted h)
  · exact .snd (.after_accepted h)
  · refine .ite_snd (.snd (.after_accepted h)) ?_
    split
    · exact .snd (.after_accepted h)
    · refine .ite_snd ?_ ?_
      · refine .snd ?_
        refine .after_l2Fill ?_
        split
        · exact .after_dirRecall (.frame (.after_accepted h))
        · exact .after_accepted h
      · split <;> exact .snd (.after_dirServe (.after_accepted h))
    · exact .snd (.after_relRead (.after_accepted h))

theorem MemoriesCanonical.after_writePath {s : State} {x p n v} (h : MemoriesCanonical s) : MemoriesCanonical (writePath s x p n v) := by
  unfold writePath
  dsimp only
  split
  · exact .after_spWrite (.after_accepted h)
  · exact .after_dsWrite (.after_accepted h)
  · exact .after_apertureWrite (.after_accepted h)
  · exact .after_remoteWrite (.after_accepted h)
  · exact .after_farWrite (.after_accepted h)
  · refine .ite (.after_storeDropped (.after_accepted h)) ?_
    refine .ite (.after_holdOwn (.after_accepted h)) ?_
    split
    · exact .frame (.after_physWrite (.after_accepted h))
    · refine .ite (.after_l2Write (.after_dirClear (.after_accepted h))) ?_
      split
      · exact .frame (.after_dirServe (.after_accepted h))
      · exact .after_physWrite (.after_dirServe (.after_accepted h))
    · exact .ite (.after_outWrite (.after_accepted h)) (.after_wcbStore (.after_accepted h))

theorem MemoriesCanonical.after_atomicPath {s : State} {x p n sc f} (h : MemoriesCanonical s) :
    MemoriesCanonical (atomicPath s x p n sc f).2 := by
  unfold atomicPath
  dsimp only
  split
  · refine .snd ?_
    split
    · exact .after_spWrite (.after_accepted h)
    · exact .after_accepted h
  · refine .snd ?_
    split
    · exact .after_dsWrite (.after_accepted h)
    · exact .after_accepted h
  · refine .snd ?_
    split
    · exact .after_apertureWrite (.after_accepted h)
    · exact .after_accepted h
  · refine .snd ?_
    split
    · split <;> exact .frame (.after_pushPages (.after_accepted h))
    · exact .after_pushPages (.after_accepted h)
  · refine .snd ?_
    split
    · exact .after_farWrite (.after_accepted h)
    · exact .after_accepted h
  · split
    · refine .snd ?_
      split
      · exact .after_l2Write (.after_l2Fill (.after_dirClear (.after_accepted h)))
      · exact .after_l2Fill (.after_dirClear (.after_accepted h))
    · exact .snd (.after_accepted h)
    · refine .ite_snd ?_ ?_
      · refine .snd ?_
        split
        · exact .after_physWrite (.after_sarkUpdate (.after_pushLine (.after_accepted h)))
        · exact .after_sarkUpdate (.after_pushLine (.after_accepted h))
      · refine .snd ?_
        split
        · exact .after_wcbStore (.after_relRead (.after_accepted h))
        · exact .after_relRead (.after_accepted h)
    · refine .ite_snd ?_ ?_
      · refine .snd ?_
        split
        · exact .after_physWrite (.after_sarkUpdate (.after_pushLine (.after_accepted h)))
        · exact .after_sarkUpdate (.after_pushLine (.after_accepted h))
      · refine .ite_snd ?_ ?_
        · refine .ite_snd ?_ ?_
          · refine .snd ?_
            split
            · exact .after_l2Write (.after_l2Fill (.after_pushLine (.after_accepted h)))
            · exact .after_l2Fill (.after_pushLine (.after_accepted h))
          · refine .snd ?_
            split
            · exact .after_physWrite (.after_sarkUpdate (.after_pushLine (.after_accepted h)))
            · exact .after_sarkUpdate (.after_pushLine (.after_accepted h))
        · refine .ite_snd ?_ ?_
          · refine .snd ?_
            split
            · exact .after_l1Write (.after_l1Fill (.after_wcbEvict (.after_accepted h)))
            · exact .after_l1Fill (.after_wcbEvict (.after_accepted h))
          · refine .snd ?_
            split
            · exact .after_wcbStore (.after_relRead (.after_accepted h))
            · exact .after_relRead (.after_accepted h)

/-! Reads and writes of engines, at the home of the data (R114, R349). -/

theorem MemoriesCanonical.after_homeRead {s : State} {x p n} (h : MemoriesCanonical s) : MemoriesCanonical (homeRead s x p n).2 := by
  unfold homeRead
  dsimp only
  split
  · exact .ite_snd (.snd (.after_accepted h)) (.snd (.after_accepted h))
  · exact .snd (.after_accepted h)
  · exact .after_readPath (.after_accepted h)

theorem MemoriesCanonical.after_l2Through {s : State} {die line dat m} (h : MemoriesCanonical s) :
    MemoriesCanonical (l2Through s die line dat m) := by
  unfold l2Through
  split
  · exact h
  · exact .frame h

theorem MemoriesCanonical.after_wsoRecords {s : State} {x ia n isFull} (h : MemoriesCanonical s) :
    MemoriesCanonical (wsoRecords s x ia n isFull).2 :=
  .foldlBy Prod.snd (.snd h) fun _ _ h => .ite_snd (.snd h) (.snd (.after_record h))

theorem MemoriesCanonical.after_homeWrite {s : State} {x p n v} (h : MemoriesCanonical s) : MemoriesCanonical (homeWrite s x p n v) := by
  unfold homeWrite
  dsimp only
  split
  · refine .ite (.after_storeDropped (.after_accepted h)) ?_
    split
    · exact .foldl (.after_wsoRecords (.after_accepted h)) fun _ _ h => .frame (.after_physWrite h)
    · exact .after_l2Write (.after_dirClear (.after_accepted h))
    · exact .after_l2Through (.after_physWrite (.after_accepted h))
  · split
    · exact .ite (.after_remoteWrite (.after_accepted h)) (.frame (.after_accepted h))
    · exact .after_remoteWrite (.after_accepted h)
  · exact .foldl (.after_wsoRecords (.after_accepted h)) fun _ _ h => .after_farWrite h
  · exact .after_spWrite (.after_accepted h)
  · exact .after_writePath (.after_accepted h)

/-! The course of an access. -/

theorem MemoriesCanonical.after_taintAcquire {s : State} {tainted} (h : MemoriesCanonical s) : MemoriesCanonical (taintAcquire s tainted) :=
  .ite (.foldl h fun _ _ h => .after_acquire h) h

theorem MemoriesCanonical.after_pageFault {s : State} {code sub va ia limit fetch info} (h : MemoriesCanonical s) :
    MemoriesCanonical (pageFault s code sub va ia limit fetch info) :=
  .after_waitFor (.frame h)

theorem MemoriesCanonical.after_refuse {s : State} {i va e} (h : MemoriesCanonical s) : MemoriesCanonical (refuse i s va e) := by
  unfold refuse
  dsimp only
  split
  · exact .after_faultCur h
  · exact .after_pageFault h
  · exact .after_waitFor (.after_atPort h)
  · exact .after_waitFor (.frame h)
  · exact .after_waitFor (.after_askOwn h)

theorem MemoriesCanonical.after_waitPort {s : State} {a lim} (h : MemoriesCanonical s) : MemoriesCanonical (waitPort s a lim) :=
  .after_waitFor (.after_atPort h)

theorem MemoriesCanonical.after_holdOn {s : State} {lim h'} (h : MemoriesCanonical s) : MemoriesCanonical (holdOn s lim h') := by
  unfold holdOn
  split
  · exact .after_waitFor (.after_atPort h)
  · exact .after_waitFor (.foldl h fun _ _ h => .after_pendOnce h)
  · exact .after_waitFor (.after_pendOnce h)

theorem MemoriesCanonical.after_access {s : State} {i va n align k need go} (h : MemoriesCanonical s)
    (hgo : ∀ x, MemoriesCanonical (go x)) : MemoriesCanonical (access i s va n align k need go) := by
  unfold access
  split
  · exact .after_refuse h
  · split
    · exact .after_holdOn h
    · exact hgo _

/-! Groups 0x01 to 0x09. -/

theorem OutCanonical.after_execAlu {s : State} {i d f} (h : MemoriesCanonical s) : OutCanonical (execAlu i s d f) :=
  .after_issueReg h

/-! OPC 0x03 (R258). -/

theorem OutCanonical.after_execAddr {s : State} {i d a n} (h : MemoriesCanonical s) : OutCanonical (execAddr i s d a n) := by
  unfold execAddr
  refine .after_issue h fun _ => ?_
  split
  · exact .after_raise h
  · exact .frame h

/-! Branches, jumps and calls (R264 to R267). -/

theorem OutCanonical.after_execBranch {s : State} {i o taken} (h : MemoriesCanonical s) : OutCanonical (execBranch i o s taken) :=
  .after_issue h fun _ => .frame h

theorem MemoriesCanonical.after_jumpReg {s : State} {i c x} (h : MemoriesCanonical s) : MemoriesCanonical (jumpReg i s c x) :=
  .ite (.after_raise h) (.frame h)

/-! Scopes of names (R160, R268; LEAVE is with the service that it gives the freed registers to). -/

theorem OutCanonical.after_execEnter {s : State} {o} (h : MemoriesCanonical s) : OutCanonical (execEnter o s) :=
  .after_issue h fun _ => .ite (.after_raise h) (.ite (.after_waitFor h) (.frame h))

/-! Register state (R270, R271, R244). -/

theorem OutCanonical.after_execBrk {s : State} {o} (h : MemoriesCanonical s) : OutCanonical (execBrk o s) :=
  .after_issue h fun _ => .after_raise (.ite (.after_haltGroup h) h)

/-! Fetching and decoding the next instruction of a context (R237, R242, R245), and which cores and contexts may issue. -/

theorem MemoriesCanonical.after_decodeFault {s : State} {code ws} (h : MemoriesCanonical s) : MemoriesCanonical (decodeFault s code ws) :=
  .after_takeFault h

theorem MemoriesCanonical.after_fetchRefused {s : State} {va e} (h : MemoriesCanonical s) : MemoriesCanonical (fetchRefused s va e) := by
  unfold fetchRefused
  split
  · exact .after_takeFault h
  · exact .after_pageFault h
  · exact .after_waitFor h
  · exact .after_waitFor h
  · exact .after_waitFor h

theorem MemoriesCanonical.after_fetchWords {s t : State} {pc n ws} (h : MemoriesCanonical s) (e : fetchWords s pc n = .words ws t) :
    MemoriesCanonical t := by
  induction n generalizing s pc ws with
  | zero =>
    cases e
    exact h
  | succ n ih =>
    unfold fetchWords at e
    dsimp only at e
    split at e
    · cases e
    · split at e
      · cases e
      · split at e
        · cases e
        · cases e
        · rename_i e'
          cases e
          exact ih (.ite h (.after_accepted h)) e'

theorem MemoriesCanonical.after_fetchInstr {s t : State} {pc ws} (h : MemoriesCanonical s) (e : fetchInstr s pc = .words ws t) :
    MemoriesCanonical t := by
  unfold fetchInstr at e
  split at e
  · rename_i e₁
    split at e
    · cases e
    · cases e
    · rename_i e₂
      cases e
      exact .after_fetchWords (.after_fetchWords h e₁) e₂
  · exact .after_fetchWords h e

theorem MemoriesCanonical.after_nextInstr_run {s t : State} {i} (h : MemoriesCanonical s) (e : nextInstr s = .run i t) :
    MemoriesCanonical t := by
  unfold nextInstr at e
  dsimp only at e
  split at e
  · cases e
  · cases e
  · rename_i e'
    split at e
    · cases e
    · split_ifs at e
      cases e
      exact .after_fetchInstr h e'

theorem MemoriesCanonical.after_nextInstr_stop {s t : State} (h : MemoriesCanonical s) (e : nextInstr s = .stop t) :
    MemoriesCanonical t := by
  unfold nextInstr at e
  dsimp only at e
  split at e
  · cases e
    exact .after_fetchRefused h
  · cases e
    exact .after_holdOn h
  · rename_i e'
    have hw := MemoriesCanonical.after_fetchInstr h e'
    split at e
    · cases e
      exact .after_decodeFault hw
    · split_ifs at e <;>
      · cases e
        exact .after_decodeFault hw

/-! Scratchpad ways. -/

theorem MemoriesCanonical.after_leaveWays {s : State} {a} (h : MemoriesCanonical s) : MemoriesCanonical (leaveWays s a) := by
  unfold leaveWays
  refine .foldl h fun _ _ h => ?_
  refine .ite ?_ h
  split
  · exact .ite (.frame h) (.frame h)
  · exact .frame h

theorem MemoriesCanonical.after_enterWay {s : State} {a j start} (h : MemoriesCanonical s) : MemoriesCanonical (enterWay s a j start) := by
  unfold enterWay
  dsimp only
  split
  · exact h
  · refine .ite (.frame h) ?_
    refine .frame ?_
    refine .foldl h fun _ _ h => ?_
    split
    · exact .frame h
    · exact h
  · exact .frame h

theorem MemoriesCanonical.after_growWays {s : State} {a q} (h : MemoriesCanonical s) : MemoriesCanonical (growWays s a q) :=
  .ite h (.frame (.foldl h fun _ _ h => .frame (.foldl h fun _ _ h => .after_l1Evict h)))

theorem MemoriesCanonical.after_claimWays {s : State} {a q start} (h : MemoriesCanonical s) : MemoriesCanonical (claimWays s a q start) :=
  .ite (.frame (.foldl (.after_growWays h) fun _ _ h => .after_enterWay h)) (.foldl (.after_growWays h) fun _ _ h => .after_enterWay h)

theorem MemoriesCanonical.after_shrinkWays {s : State} {a q k} (h : MemoriesCanonical s) : MemoriesCanonical (shrinkWays s a q k) :=
  .ite (.after_leaveWays h) (.frame (.foldl (.after_leaveWays h) fun _ _ h => .frame h))

theorem MemoriesCanonical.after_retainWays {s : State} {a ch q} (h : MemoriesCanonical s) : MemoriesCanonical (retainWays s a ch q) := by
  unfold retainWays
  refine .frame ?_
  refine .foldl h fun _ _ h => ?_
  split
  · exact .ite h (.frame h)
  · exact h

/-! Groups 0x10 to 0x17. -/

theorem MemoriesCanonical.after_postInc {s : State} {base pi nb} (h : MemoriesCanonical s) : MemoriesCanonical (postInc s base pi nb) :=
  .ite (.frame h) h

/-! Fences (R103, R104, R127, R143, R280). -/

theorem MemoriesCanonical.after_releaseThen {s : State} {sc go limit} (h : MemoriesCanonical s)
    (hgo : ∀ t, MemoriesCanonical t → MemoriesCanonical (go t)) : MemoriesCanonical (releaseThen s sc go limit) :=
  .ite (.after_waitFor h) (.ite (.after_waitFor (.after_release h)) (hgo _ (.after_release h)))

theorem OutCanonical.after_execFence {s : State} {o} (h : MemoriesCanonical s) : OutCanonical (execFence o s) := by
  unfold execFence
  refine .after_issue h fun _ => ?_
  split
  · exact .frame (.after_acquire h)
  · exact .after_releaseThen h fun _ h => .frame h
  · exact .after_releaseThen h fun _ h => .frame (.after_acquire h)

/-! Loads and stores (R274). -/

theorem MemoriesCanonical.after_loadForm {s : State} {i base step pi n need fin} (h : MemoriesCanonical s)
    (hfin : ∀ x t, MemoriesCanonical t → MemoriesCanonical (fin x t)) : MemoriesCanonical (loadForm i s base step pi n need fin) := by
  unfold loadForm
  dsimp only
  split
  · exact .after_raise h
  · exact .after_access h fun _ => .frame (hfin _ _ (.after_postInc (.after_readPath (.after_taintAcquire h))))

theorem OutCanonical.after_execLd {s : State} {o} (h : MemoriesCanonical s) : OutCanonical (execLd o s) :=
  .after_issue h fun _ => .after_loadForm h fun _ _ h => .frame h

theorem OutCanonical.after_execSt {s : State} {o} (h : MemoriesCanonical s) : OutCanonical (execSt o s) := by
  unfold execSt
  refine .after_issue h fun _ => ?_
  dsimp only
  split
  · exact .after_raise h
  · exact .after_access h fun _ => .frame (.after_postInc (.after_writePath (.after_taintAcquire (.ite (.after_release h) h))))

/-! Typed elements (R275). -/

theorem MemoriesCanonical.after_elemAccess {s : State} {i e k go} (h : MemoriesCanonical s) (hgo : ∀ x y, MemoriesCanonical (go x y)) :
    MemoriesCanonical (elemAccess i s e k go) := by
  unfold elemAccess
  dsimp only
  split
  · exact .after_faultCur h
  · refine .after_access h fun _ => ?_
    split
    · exact hgo _ _
    · exact .after_access h fun _ => hgo _ _

theorem OutCanonical.after_execLde {s : State} {o} (h : MemoriesCanonical s) : OutCanonical (execLde o s) := by
  unfold execLde
  refine .after_issue h fun _ => ?_
  dsimp only
  split
  · exact .after_raise h
  · split
    · exact .after_raise h
    · refine .after_elemAccess h fun _ _ => ?_
      refine .frame ?_
      refine .frame ?_
      refine .frame ?_
      refine .after_postInc ?_
      split
      · exact .snd (.after_readPath (.after_taintAcquire h))
      · exact .after_readPath (.after_readPath (.after_taintAcquire h))

theorem MemoriesCanonical.after_storeElem {s : State} {p f e v} (h : MemoriesCanonical s) : MemoriesCanonical (storeElem s p f e v) :=
  .ite (.after_writePath (.after_readPath h)) (.after_writePath h)

theorem OutCanonical.after_execSte {s : State} {o} (h : MemoriesCanonical s) : OutCanonical (execSte o s) := by
  unfold execSte
  refine .after_issue h fun _ => ?_
  dsimp only
  split
  · exact .after_raise h
  · split
    · exact .after_raise h
    · exact .after_access h fun _ => .frame (.after_postInc (.after_storeElem (.after_taintAcquire h)))

/-! Ordered accesses (R276, R277). -/

theorem OutCanonical.after_execLdAcq {s : State} {o} (h : MemoriesCanonical s) : OutCanonical (execLdAcq o s) :=
  .after_issue h fun _ => .after_loadForm h fun _ _ h => .frame (.after_acquire h)

theorem OutCanonical.after_execLdc {s : State} {o} (h : MemoriesCanonical s) : OutCanonical (execLdc o s) :=
  .after_issue h fun _ => .after_loadForm h fun _ _ h => .frame h

theorem OutCanonical.after_execLds {s : State} {o} (h : MemoriesCanonical s) : OutCanonical (execLds o s) := by
  unfold execLds
  refine .after_issue h fun _ => ?_
  split
  · exact .after_raise h
  · exact .after_access h fun _ => .ite (.after_waitFor h) (.frame (.after_acquire (.after_readPath (.after_taintAcquire h))))

theorem OutCanonical.after_execStRel {s : State} {o} (h : MemoriesCanonical s) : OutCanonical (execStRel o s) := by
  unfold execStRel
  refine .after_issue h fun _ => ?_
  dsimp only
  split
  · exact .after_raise h
  · exact .after_access h fun _ => .after_releaseThen h fun _ h => .frame (.after_writePath (.after_taintAcquire h))

/-! Atomics (R278, R279). -/

theorem OutCanonical.after_execAmo {s : State} {o} (h : MemoriesCanonical s) : OutCanonical (execAmo o s) := by
  unfold execAmo
  refine .after_issue h fun _ => ?_
  extract_lets n x y
  split
  · exact .after_raise h
  · refine .after_access h fun p => ?_
    extract_lets go
    have hgo (t : State) (h : MemoriesCanonical t) : MemoriesCanonical (go t) := by
      dsimp only [go]
      exact .frame (.ite (.after_acquire (.after_atomicPath (.after_taintAcquire h))) (.after_atomicPath (.after_taintAcquire h)))
    exact .ite (.after_releaseThen h hgo) (hgo _ h)

/-! Accesses of other devices (R128, R279). -/

theorem MemoriesCanonical.after_devicePerform {s : State} {r ia pa ty} (h : MemoriesCanonical s) :
    MemoriesCanonical (devicePerform s r ia pa ty) := by
  unfold devicePerform
  refine .ite ?_ ?_
  · dsimp only
    split
    · exact .after_l2Write (.after_l2Fill (.after_dirClear h))
    · exact .after_l2Fill (.after_dirClear h)
  · split
    · exact h
    · exact .ite (.frame (.after_l2Through (.after_physWrite h))) (.after_l2Through (.after_physWrite h))

theorem MemoriesCanonical.after_deviceAccess {s : State} {r} (h : MemoriesCanonical s) :
    ∀ y, deviceAccess s r = some y → MemoriesCanonical y := by
  unfold deviceAccess
  dsimp only
  split
  · intro _ e
    obtain rfl := Option.some.inj e
    refine .ite ?_ ?_
    · exact .after_storeDropped (.after_accepted h)
    · exact .after_devicePerform (.after_accepted h)
  · exact fun | _, rfl => h
  · exact fun _ e => nomatch e
  · exact fun | _, rfl => .ite (.frame h) (.ite (.after_storeDropped h) h)
  · exact fun | _, rfl => h

/-! Maintenance (R281 to R284). -/

theorem OutCanonical.after_execSpresize {s : State} {o} (h : MemoriesCanonical s) : OutCanonical (execSpresize o s) :=
  .after_issue h fun _ => .ite (.after_raise h)
    (.ite (.after_waitFor h) (.frame (.ite (.frame (.ite (.after_claimWays h) h)) (.after_shrinkWays (.frame (.ite (.after_claimWays h) h))))))

theorem OutCanonical.after_execRange {s : State} {i o go} (h : MemoriesCanonical s)
    (hgo : ∀ t, MemoriesCanonical t → ∀ y z, MemoriesCanonical (go t y z)) : OutCanonical (execRange i o s go) := by
  unfold execRange
  refine .after_issue h fun _ => ?_
  refine .ite (.after_raise h) ?_
  refine .ite (.frame h) ?_
  split
  · exact .after_raise h
  · exact .frame h
  · exact .ite (.after_raise h) (.ite (.after_waitFor h) (.frame (hgo _ h _ _)))

theorem OutCanonical.after_execInvs {s : State} {o} (h : MemoriesCanonical s) : OutCanonical (execInvs o s) :=
  .after_execRange h fun _ h _ _ => .after_dropTo (.ite (.frame h) h)

theorem MemoriesCanonical.after_prefetch {s : State} {x p lvl} (h : MemoriesCanonical s) : MemoriesCanonical (prefetch s x p lvl) := by
  unfold prefetch
  split
  · exact .ite (.after_accepted h)
      (.ite (.ite (.after_dirServe (.after_accepted h)) (.after_l1Fill (.after_accepted h)))
      (.ite (.after_l2Fill (.after_accepted h)) (.after_outRead (.after_accepted h))))
  · split
    · exact .foldl h fun _ _ h => .after_pendOnce h
    · exact h
  · exact h

theorem OutCanonical.after_execPref {s : State} {o} (h : MemoriesCanonical s) : OutCanonical (execPref o s) := by
  unfold execPref
  refine .after_issue h fun _ => ?_
  split
  · exact .frame (.after_prefetch (.after_taintAcquire h))
  · exact .frame h

/-! Host commands as messages carry them (R409), their order (R410) and their replies. -/

theorem MemoriesCanonical.after_hostReply {s : State} {c status value} (h : MemoriesCanonical s) :
    MemoriesCanonical (hostReply s c status value) :=
  .ite h (.with_hostMem h (Mem.wf_writeNat
    (Mem.wf_writeNat (Mem.wf_writeNat (Mem.wf_writeNat (Mem.wf_writeNat h.hostMem _ _ _) _ _ _) _ _ _) _ _ _) _ _ _))

theorem MemoriesCanonical.after_firmwareTake {s : State} {m} (h : MemoriesCanonical s) :
    ∀ y, firmwareTake s m = some y → MemoriesCanonical y := by
  unfold firmwareTake
  split
  · exact fun _ e => nomatch e
  · dsimp only
    split
    · exact fun | _, rfl => .frame h
    · split
      · exact fun | _, rfl => .frame h
      · split
        · exact fun _ e => nomatch e
        · exact fun | _, rfl => .after_hostReply (.frame h)

/-! Sending (R155). -/

theorem MemoriesCanonical.after_dispatchMsg {s : State} {m} (h : MemoriesCanonical s) : MemoriesCanonical (dispatchMsg s m) :=
  .ite (.frame h) (.frame h)

theorem MemoriesCanonical.after_sendMsg {s : State} {a m} (h : MemoriesCanonical s) : MemoriesCanonical (sendMsg s a m) :=
  .ite (.after_dispatchMsg (.frame h)) (.frame h)

/-! Resources at a receiver (R153, R154). -/

theorem MemoriesCanonical.after_holdArrival {s : State} {a k m e level} (h : MemoriesCanonical s) :
    MemoriesCanonical (holdArrival s a k m e level) :=
  .after_pendOnce (.frame h)

theorem MemoriesCanonical.after_msgRecord {s : State} {m code sub} (h : MemoriesCanonical s) : MemoriesCanonical (msgRecord s m code sub) :=
  .after_record h

/-! Tag matching (R180, R181, R293). -/

theorem MemoriesCanonical.after_deliverTag {s : State} {a p m} (h : MemoriesCanonical s) : MemoriesCanonical (deliverTag s a p m) := by
  unfold deliverTag
  refine .frame ?_
  split
  · exact .after_acquire (.foldl (.frame h) fun _ _ h => .after_spWrite h)
  · exact .foldl (.frame h) fun _ _ h => .after_spWrite h

theorem MemoriesCanonical.after_takePosted {s : State} {a m} (h : MemoriesCanonical s) : MemoriesCanonical (takePosted s a m).2 := by
  unfold takePosted
  split
  · exact .snd h
  · exact .ite_snd (.snd h) (.snd (.frame h))

/-! Refusal and service (R154). -/

theorem MemoriesCanonical.after_refuseMsg {s : State} {a m} (h : MemoriesCanonical s) : MemoriesCanonical (refuseMsg s a m).1 :=
  .ite_fst (.fst h) (.ite_fst (.fst h) (.fst (.frame h)))

theorem MemoriesCanonical.after_serveN {s : State} {a n} (h : MemoriesCanonical s) : MemoriesCanonical (serveN s a n) := by
  induction n generalizing s with
  | zero => exact h
  | succ n ih =>
    unfold serveN
    dsimp only
    split
    · exact h
    · split
      · exact h
      · exact ih (.ite (.frame (.ite (.frame h) h)) (.frame (.ite (.frame h) h)))

theorem MemoriesCanonical.after_serve {s : State} {a} (h : MemoriesCanonical s) : MemoriesCanonical (serve s a) :=
  .after_serveN h

/-! Arrival (R153). -/

theorem MemoriesCanonical.after_releaseResv {s : State} {a r} (h : MemoriesCanonical s) : MemoriesCanonical (releaseResv s a r) :=
  .ite (.frame h) (.frame h)

theorem MemoriesCanonical.after_giveBack {s : State} {a a2} (h : MemoriesCanonical s) : MemoriesCanonical (giveBack s a a2) := by
  unfold giveBack
  split
  · exact .after_releaseResv h
  · exact h

theorem MemoriesCanonical.after_served {s : State} {a rv} (h : MemoriesCanonical s) : MemoriesCanonical (served s a rv) :=
  .ite (.after_serve h) h

theorem MemoriesCanonical.after_gmuTake {s : State} {a m} (h : MemoriesCanonical s) : MemoriesCanonical (gmuTake s a m) :=
  .after_pendOnce (.frame h)

theorem MemoriesCanonical.after_arriveTask {s : State} {m level rv} (h : MemoriesCanonical s) :
    MemoriesCanonical (arriveTask s m level rv).1 := by
  unfold arriveTask
  refine .ite_fst (.ite_fst (.fst (.after_served (.frame (.after_giveBack h))))
    (.fst (.after_msgRecord (.after_served (.after_refuseMsg (.after_giveBack h)))))) ?_
  split
  · exact .fst (.after_holdArrival (.frame h))
  · refine .ite_fst (.fst (.after_served (.after_refuseMsg (.after_giveBack h)))) ?_
    split
    · exact .fst (.after_served (.after_refuseMsg (.after_giveBack h)))
    · exact .fst (.after_served (.after_holdArrival (.frame (.after_giveBack h))))

theorem MemoriesCanonical.after_arrive {s : State} {m level} (h : MemoriesCanonical s) : MemoriesCanonical (arrive s m level).1 := by
  unfold arrive
  refine .ite_fst (.after_refuseMsg (.after_served (.after_giveBack h))) ?_
  refine .ite_fst (.fst (.after_msgRecord (.after_served (.after_giveBack h)))) ?_
  refine .ite_fst (.fst (.after_msgRecord (.after_served (.after_giveBack h)))) ?_
  refine .ite_fst (.fst h) ?_
  refine .ite_fst ?_ ?_
  · split
    · exact .fst (.after_gmuTake (.frame h))
    · exact .ite_fst (.fst (.after_gmuTake h)) (.after_refuseMsg h)
  · refine .ite_fst (.fst (.after_msgRecord (.after_served (.after_giveBack h)))) ?_
    dsimp only
    split
    · exact .fst (.after_served (.after_deliverTag (.after_giveBack (.ite_snd (.after_takePosted h) (.snd h)))))
    · exact .after_arriveTask (.ite_snd (.after_takePosted h) (.snd h))

theorem OutCanonical.after_execLeave {s : State} (h : MemoriesCanonical s) : OutCanonical (execLeave s) := by
  unfold execLeave
  refine .after_issue h fun _ => ?_
  split
  · exact .after_raise h
  · exact .ite (.after_serve (.frame h)) (.after_waitFor h)

/-! The travel of a message (R153 to R155). -/

theorem MemoriesCanonical.after_arriveSticky {s : State} {m level} (h : MemoriesCanonical s) :
    MemoriesCanonical (arriveSticky s m level) := by
  unfold arriveSticky
  split
  · rename_i e
    exact .frame (.of_fst e (.after_arrive h))
  · rename_i e
    exact .frame (.of_fst e (.after_arrive h))
  · exact h

/-! The shipped firmware of a ridge core (R409). -/

theorem MemoriesCanonical.after_pageService {s : State} {m} (h : MemoriesCanonical s) : MemoriesCanonical (pageService s m) :=
  .ite h (.frame h)

theorem MemoriesCanonical.after_firmwareDone {s : State} {m} (h : MemoriesCanonical s) : MemoriesCanonical (firmwareDone s m) :=
  .ite (.frame (.after_pageService (.frame h))) (.after_pageService (.frame h))

theorem OutCanonical.after_execMessageArrive {s : State} (h : MemoriesCanonical s) : OutCanonical (execMessageArrive s) := by
  unfold execMessageArrive
  split
  · refine .ite (.after_answer (.frame (.after_arrive h))) ?_
    refine .ite (.next (.after_atPort h)) ?_
    refine .ite (.next (.frame h)) ?_
    refine .ite (.next (.frame h)) ?_
    refine .ite (.next (.frame h)) ?_
    refine .ite (.after_answer (.after_firmwareDone h)) ?_
    refine .ite (.after_answer (.frame (.after_arrive h))) ?_
    refine .ite (.after_answer (.after_arriveSticky h)) ?_
    refine .ite (.next h) ?_
    refine .ite ?_ (.after_answer (.frame (.after_arrive h)))
    split
    · exact .next h
    · rename_i e1
      exact .after_answer (.frame (.frame (MemoriesCanonical.after_firmwareTake h _ e1)))
  · exact .next h

theorem MemoriesCanonical.after_resendEntry {s : State} {a e} (h : MemoriesCanonical s) : MemoriesCanonical (resendEntry s a e) :=
  .ite (.after_dispatchMsg (.frame h)) (.frame h)

theorem OutCanonical.after_execMessageReply {s : State} (h : MemoriesCanonical s) : OutCanonical (execMessageReply s) := by
  unfold execMessageReply
  split
  · refine .next ?_
    refine .ite ?_ ?_
    · refine .frame ?_
      split
      · exact .after_dispatchMsg (.ite (.frame h) (.frame h))
      · exact .ite (.frame h) (.frame h)
    · split
      · exact .after_dispatchMsg (.ite (.frame h) (.frame h))
      · exact .ite (.frame h) (.frame h)
  · exact .next h

theorem MemoriesCanonical.after_hostResend {s : State} {dst ch} (h : MemoriesCanonical s) : MemoriesCanonical (hostResend s dst ch) := by
  unfold hostResend
  split
  · exact .frame h
  · exact h

theorem MemoriesCanonical.after_hostSend {s : State} {m} (h : MemoriesCanonical s) : MemoriesCanonical (hostSend s m) :=
  .ite (.frame h) (.frame h)

theorem MemoriesCanonical.after_hostRelease {s : State} (h : MemoriesCanonical s) : MemoriesCanonical (hostRelease s) :=
  .foldl h fun _ _ h => .ite h (.frame h)

theorem MemoriesCanonical.after_resendHeads {s : State} {a p} (h : MemoriesCanonical s) : MemoriesCanonical (resendHeads s a p) :=
  .foldl h fun _ _ h => .ite (.after_resendEntry h) h

theorem MemoriesCanonical.after_pathBack {s : State} {dev} (h : MemoriesCanonical s) : MemoriesCanonical (pathBack s dev) :=
  .ite (.frame h) (.foldl (.frame h) fun _ _ h => .foldl h fun _ _ h => .ite (.after_dispatchMsg (.frame h)) h)

theorem MemoriesCanonical.after_withdrawResv {s : State} {agent dst dev ch} (h : MemoriesCanonical s) :
    MemoriesCanonical (withdrawResv s agent dst dev ch) :=
  .ite (.frame h) (.frame h)

theorem OutCanonical.after_execContextFreeNotice {s : State} (h : MemoriesCanonical s) : OutCanonical (execContextFreeNotice s) := by
  unfold execContextFreeNotice
  split
  · refine .ite (.next (.after_hostResend (.frame h))) ?_
    split
    · exact .next (.after_withdrawResv (.frame h))
    · exact .ite (.next h) (.next (.after_resendEntry (.frame h)))
  · exact .next h

theorem OutCanonical.after_execResendTimerExpire {s : State} (h : MemoriesCanonical s) : OutCanonical (execResendTimerExpire s) := by
  unfold execResendTimerExpire
  split
  · refine .ite ?_ ?_
    · split
      · exact .next (.frame h)
      · exact .ite (.next h) (.next (.after_hostResend (.frame h)))
    · split
      · exact .next (.frame h)
      · exact .ite (.next (.frame h)) (.ite (.next h) (.next (.after_resendEntry (.frame h))))
  · exact .next h

theorem OutCanonical.after_execWithdrawal {s : State} (h : MemoriesCanonical s) : OutCanonical (execWithdrawal s) := by
  unfold execWithdrawal
  split
  · dsimp only
    split
    · exact .next (.after_serve (.after_releaseResv (.frame h)))
    · exact .next (.after_serve (.frame h))
  · exact .next h

theorem OutCanonical.after_execLoadLand {s : State} (h : MemoriesCanonical s) : OutCanonical (execLoadLand s) := by
  unfold execLoadLand
  split
  · exact .next (.after_landValue (.frame h))
  · exact .next h

/-! Futures and continuation records (R170 to R173, R299). -/

theorem MemoriesCanonical.after_whoRecord {s : State} {w code sub va ia pa} (h : MemoriesCanonical s) :
    MemoriesCanonical (Who.record w s code sub va ia pa) :=
  .after_record h

/-! Fields of a record as a 512-bit number. -/

theorem MemoriesCanonical.after_completeLink {s : State} {w link bad} (h : MemoriesCanonical s) :
    MemoriesCanonical (completeLink s w link bad).1 := by
  unfold completeLink
  dsimp only
  split
  · exact .fst (.ite (.frame (.after_atomicPath h)) (.after_atomicPath h))
  · exact .fst (.frame h)
  · exact .fst (.frame h)
  · exact .fst (.frame (.after_askOwn h))
  · exact .fst (.after_whoRecord h)
  · exact .fst h

theorem MemoriesCanonical.after_completeList {s : State} {w bad n link} (h : MemoriesCanonical s) :
    MemoriesCanonical (completeList s w bad n link) := by
  induction n generalizing s link with
  | zero => exact h
  | succ n ih =>
    unfold completeList
    refine .ite h ?_
    split
    · rename_i e
      exact ih (.of_fst e (.after_completeLink h))
    · rename_i e
      exact .of_fst e (.after_completeLink h)

theorem MemoriesCanonical.after_completionResume {s : State} {c} (h : MemoriesCanonical s) : MemoriesCanonical (Completion.resume c s) :=
  .after_completeList h

/-! The operations at a future's home (R172). -/

theorem MemoriesCanonical.after_futureAnswered {s : State} {ia st} (h : MemoriesCanonical s) :
    MemoriesCanonical (futureAnswered s ia st) := by
  unfold futureAnswered
  refine .foldl h fun _ _ h => ?_
  refine .foldl h fun _ _ h => ?_
  split
  · exact .ite (.frame (.after_acquire h)) h
  · exact h

theorem MemoriesCanonical.after_resolveFuture {s : State} {x p w val st} (h : MemoriesCanonical s) :
    MemoriesCanonical (resolveFuture s x p w val st).1 := by
  unfold resolveFuture
  dsimp only
  exact .ite_fst (.fst (.after_atomicPath h)) (.fst (.after_completeList (.after_futureAnswered (.after_atomicPath h))))

theorem MemoriesCanonical.after_futureOp {s : State} {i va rel go} (h : MemoriesCanonical s)
    (hgo : ∀ x t, MemoriesCanonical t → MemoriesCanonical (go x t)) : MemoriesCanonical (futureOp i s va rel go) := by
  unfold futureOp
  split
  · exact .after_refuse h
  · exact .ite (.after_releaseThen (.after_taintAcquire h) fun _ h => hgo _ _ h) (hgo _ _ (.after_taintAcquire h))

theorem MemoriesCanonical.after_notPending {s : State} {i va p} (h : MemoriesCanonical s) : MemoriesCanonical (notPending i s va p) :=
  .after_faultCur h

theorem OutCanonical.after_execFreg {s : State} {o} (h : MemoriesCanonical s) : OutCanonical (execFreg o s) := by
  unfold execFreg
  refine .after_issue h fun _ => .after_futureOp h fun _ _ h => .ite (.after_raise h) ?_
  split
  · exact .frame (.after_whoRecord h)
  · exact .after_waitFor (.frame h)
  · exact .after_refuse h
  · dsimp only
    refine .ite (.after_raise (.after_atomicPath h)) (.frame ?_)
    refine .ite ?_ (.after_completeLink ?_)
    · exact .ite (.frame (.after_atomicPath (.after_atomicPath (.after_atomicPath h))))
        (.after_atomicPath (.after_atomicPath (.after_atomicPath h)))
    · exact .ite (.frame (.after_atomicPath (.after_atomicPath (.after_atomicPath h))))
        (.after_atomicPath (.after_atomicPath (.after_atomicPath h)))

theorem OutCanonical.after_execFres {s : State} {o} (h : MemoriesCanonical s) : OutCanonical (execFres o s) := by
  unfold execFres
  refine .after_issue h fun _ => ?_
  refine .after_futureOp h fun _ _ h => ?_
  split
  · rename_i e
    exact .frame (.of_fst e (.after_resolveFuture h))
  · rename_i e
    exact .after_notPending (.of_fst e (.after_resolveFuture h))

theorem OutCanonical.after_execFcancel {s : State} {o} (h : MemoriesCanonical s) : OutCanonical (execFcancel o s) :=
  .after_issue h fun _ => .after_futureOp h fun _ _ h => .frame (.after_resolveFuture h)

theorem OutCanonical.after_execFreset {s : State} {o} (h : MemoriesCanonical s) : OutCanonical (execFreset o s) := by
  unfold execFreset
  dsimp only
  exact .after_issue h fun _ => .after_futureOp h fun _ _ h => .ite (.after_notPending (.after_atomicPath h)) (.frame (.after_atomicPath h))

theorem MemoriesCanonical.after_futureRead {s : State} {p} (h : MemoriesCanonical s) : MemoriesCanonical (futureRead s p).2 := by
  unfold futureRead
  split
  · exact .snd h
  · exact .after_atomicPath h

theorem OutCanonical.after_execFwait {s : State} {o} (h : MemoriesCanonical s) : OutCanonical (execFwait o s) :=
  .after_issue h fun _ => .after_futureOp h fun _ _ h => .ite (.after_waitFor (.after_futureRead h))
    (.frame (.after_acquire (.after_futureRead h)))

/-! Accesses of any length, line by line. -/

theorem MemoriesCanonical.after_engRead {s : State} {x va n} (h : MemoriesCanonical s) :
    ∀ y, engRead s x va n = .ok y → MemoriesCanonical y.2 := by
  unfold engRead
  split
  · exact fun _ e => nomatch e
  · rintro _ ⟨⟩
    exact .foldlBy (fun r : Nat × Nat × State => r.2.2) h fun _ _ h => .after_homeRead h

theorem MemoriesCanonical.after_engWrite {s : State} {x va n v} (h : MemoriesCanonical s) :
    ∀ y, engWrite s x va n v = .ok y → MemoriesCanonical y := by
  unfold engWrite
  split
  · exact fun _ e => nomatch e
  · exact fun | _, rfl => .foldlBy Prod.snd (.snd h) fun _ _ h => .snd (.after_homeWrite h)

theorem MemoriesCanonical.after_engWriteAll {s : State} {x l} (h : MemoriesCanonical s) :
    ∀ y, engWriteAll s x l = .ok y → MemoriesCanonical y := by
  unfold engWriteAll
  split
  · exact fun _ e => nomatch e
  · rintro _ ⟨⟩
    refine .foldl h fun _ _ h => ?_
    split
    · rename_i e1
      exact MemoriesCanonical.after_engWrite h _ e1
    · exact h

/-! Sync words (R94, R95). -/

theorem MemoriesCanonical.after_syncAdd {s : State} {x va n} (h : MemoriesCanonical s) :
    ∀ y, syncAdd s x va n = .ok y → MemoriesCanonical y := by
  unfold syncAdd
  split
  · exact fun | _, rfl => h
  · split
    · exact fun _ e => nomatch e
    · exact fun | _, rfl => .after_spWrite h

/-! Completion futures (R158, R170, R343). -/

theorem MemoriesCanonical.after_engineResolve {s : State} {i e ia val st} (h : MemoriesCanonical s) :
    MemoriesCanonical (engineResolve s i e ia val st) := by
  unfold engineResolve
  dsimp only
  split
  · split
    · rename_i e1
      exact .of_fst e1 (.after_resolveFuture h)
    · rename_i e1
      exact .after_whoRecord (.of_fst e1 (.after_resolveFuture h))
  · exact .after_whoRecord h
  · exact .after_whoRecord h
  · exact .after_whoRecord h
  · exact .frame h
  · exact .frame (.after_askOwn h)
  · exact h

theorem MemoriesCanonical.after_retryHeld {s : State} {page n} (h : MemoriesCanonical s) : MemoriesCanonical (retryHeld s page n) :=
  .foldl (.foldl (.frame h) fun _ _ h => .after_engineResolve h) fun _ _ h => .after_completionResume h

theorem MemoriesCanonical.after_engFuture {s : State} {i e fut val st} (h : MemoriesCanonical s) :
    MemoriesCanonical (engFuture s i e fut val st) := by
  unfold engFuture
  refine .ite h ?_
  split
  · exact h
  · exact .after_engineResolve h

/-! Engine faults (R343, R192, R217). -/

theorem MemoriesCanonical.after_engRefused {s : State} {i e va err cmd} (h : MemoriesCanonical s) :
    MemoriesCanonical (engRefused s i e va err cmd) := by
  unfold engRefused
  split
  · exact .frame h
  · exact .frame h
  · exact .after_atPort h
  · exact h
  · exact .after_askOwn h

theorem MemoriesCanonical.after_joinFlags {s : State} {i fl} (h : MemoriesCanonical s) : MemoriesCanonical (joinFlags s i fl) := by
  unfold joinFlags
  split
  · exact .frame h
  · exact h

/-! The matrix lease (R165, R328). -/

theorem MemoriesCanonical.after_arrayPass {s : State} {k} (h : MemoriesCanonical s) : MemoriesCanonical (arrayPass s k) :=
  .ite h (.frame h)

theorem MemoriesCanonical.after_leaseGrant {s : State} {k p} (h : MemoriesCanonical s) : MemoriesCanonical (leaseGrant s k p) :=
  .after_arrayPass (.after_pendOnce (.frame h))

theorem MemoriesCanonical.after_leaseNext {s : State} {k} (h : MemoriesCanonical s) : MemoriesCanonical (leaseNext s k) := by
  unfold leaseNext
  dsimp only
  split
  · exact .after_leaseGrant h
  · exact h

theorem MemoriesCanonical.after_leaseDrop {s : State} {k p} (h : MemoriesCanonical s) : MemoriesCanonical (leaseDrop s k p) :=
  .after_leaseNext (.frame h)

theorem MemoriesCanonical.after_leaseLeave {s : State} {p} (h : MemoriesCanonical s) : MemoriesCanonical (leaseLeave s p) :=
  .foldl h fun _ _ h => .after_leaseDrop h

theorem MemoriesCanonical.after_leaseEnd {s : State} {k} (h : MemoriesCanonical s) : MemoriesCanonical (leaseEnd s k) := by
  unfold leaseEnd
  dsimp only
  split
  · exact h
  · exact .ite (.after_pendOnce (.frame h)) (.after_leaseNext (.frame h))

/-! Broken pipelines (R187). -/

theorem MemoriesCanonical.after_failWaiter {s : State} {a k f} (h : MemoriesCanonical s) : MemoriesCanonical (failWaiter s a k f) :=
  .after_takeFault (.frame h)

theorem MemoriesCanonical.after_failBroken {s : State} {j t} (h : MemoriesCanonical s) : MemoriesCanonical (failBroken s j t) := by
  unfold failBroken
  refine .foldl h fun _ _ h => ?_
  dsimp only
  split
  · exact .ite (.after_failWaiter h) h
  · exact .ite (.after_failWaiter h) h
  · exact h

theorem MemoriesCanonical.after_breakMarks {s : State} {k t} (h : MemoriesCanonical s) : MemoriesCanonical (breakMarks s k t) := by
  unfold breakMarks
  dsimp only
  split
  · exact .after_engFuture (.foldl h fun _ _ h => .after_failBroken (.frame h))
  · exact .foldl h fun _ _ h => .after_failBroken (.frame h)

theorem MemoriesCanonical.after_breakPipe {s : State} {k} (h : MemoriesCanonical s) : MemoriesCanonical (breakPipe s k) :=
  .ite h (.frame (.after_breakMarks (.frame h)))

/-! Near-bank descriptors (R338). -/

theorem MemoriesCanonical.after_objectUpdate {s : State} {x ia f} (h : MemoriesCanonical s) :
    MemoriesCanonical (objectUpdate s x ia f) := by
  unfold objectUpdate
  split
  · exact h
  · exact .after_atomicPath h

theorem MemoriesCanonical.after_nbFuture {s : State} {e fut val st} (h : MemoriesCanonical s) :
    MemoriesCanonical (nbFuture s e fut val st) := by
  unfold nbFuture
  split
  · exact h
  · exact .after_engineResolve h

theorem MemoriesCanonical.after_nbStop {s : State} {e val} (h : MemoriesCanonical s) : MemoriesCanonical (nbStop s e val) := by
  unfold nbStop
  dsimp only
  split
  · exact .after_nbFuture (.after_objectUpdate (.frame h))
  · exact .after_objectUpdate (.frame h)

/-! Freezing a Gaussian message unit (R72). -/

theorem MemoriesCanonical.after_flagFrozen {s : State} {a on} (h : MemoriesCanonical s) : MemoriesCanonical (flagFrozen s a on) :=
  .foldl h fun _ _ h => .after_spWrite h

theorem MemoriesCanonical.after_gmuFreeze {s : State} {a} (h : MemoriesCanonical s) : MemoriesCanonical (gmuFreeze s a) :=
  .after_serve (.frame (.after_flagFrozen h))

theorem MemoriesCanonical.after_gmuThaw {s : State} {a} (h : MemoriesCanonical s) : MemoriesCanonical (gmuThaw s a) :=
  .ite h (.after_pendOnce (.frame (.after_flagFrozen h)))

theorem MemoriesCanonical.after_snapEnd {s : State} {d t} (h : MemoriesCanonical s) : MemoriesCanonical (snapEnd s d t) := by
  unfold snapEnd
  split
  · exact h
  · exact .ite (.foldl (.frame h) fun _ _ h => .after_gmuThaw h) (.frame h)

/-! Stopping commands (R196, R214): no completion action, futures faulted. -/

theorem MemoriesCanonical.after_ceKick {s : State} {k} (h : MemoriesCanonical s) : MemoriesCanonical (ceKick s k) := by
  unfold ceKick
  dsimp only
  split
  · refine .after_pendOnce ?_
    split
    · exact .frame h
    · exact h
  · split
    · exact .frame h
    · exact h

theorem MemoriesCanonical.after_stopCluster {s : State} {k p} (h : MemoriesCanonical s) : MemoriesCanonical (stopCluster s k p) := by
  unfold stopCluster
  extract_lets c s₁ ces s₂ s₃ s₄
  have h₂ : MemoriesCanonical s₂ := .foldl (.foldl h fun _ _ h => .after_engFuture h) fun _ _ h => .after_engFuture h
  have h₃ : MemoriesCanonical s₃ := .frame h₂
  refine .after_arrayPass (.after_ceKick ?_)
  unfold s₄
  split
  · exact .ite (.after_breakPipe h₃) h₃
  · exact h₃

theorem MemoriesCanonical.after_stopSaved {s : State} {key v p} (h : MemoriesCanonical s) : MemoriesCanonical (stopSaved s key v p) :=
  .frame (.foldl (.foldl (.foldl (.foldl h fun _ _ h => .after_engFuture h) fun _ _ h => .after_engFuture h) fun _ _ h => .after_nbStop h)
    fun _ _ h => .after_breakMarks h)

theorem MemoriesCanonical.after_stopCommands {s : State} {p} (h : MemoriesCanonical s) : MemoriesCanonical (stopCommands s p) :=
  .frame (.foldl (.foldl (.foldl h fun _ _ h => .after_stopCluster h) fun _ _ h => .after_nbStop h) fun _ _ h => .after_stopSaved h)

/-! Tensor shape records (R335), operand rows (R332) and the typed element writes of engines (R34, R49, R336, R345). -/

theorem MemoriesCanonical.after_engAtomic {s : State} {x va n f} (h : MemoriesCanonical s) :
    ∀ y, engAtomic s x va n f = .ok y → MemoriesCanonical y.2 := by
  unfold engAtomic
  split
  · exact fun _ e => nomatch e
  · split
    · exact fun _ e => nomatch e
    · exact fun | _, rfl => .after_atomicPath h

theorem MemoriesCanonical.after_elemWrite {s : State} {x sh f va v int} (h : MemoriesCanonical s) :
    ∀ y, elemWrite s x sh f va v int = .ok y → MemoriesCanonical y.1 := by
  unfold elemWrite
  dsimp only
  split
  · split
    · exact fun _ e => nomatch e
    · rename_i e
      exact fun | _, rfl => .fst (MemoriesCanonical.after_engWrite h _ e)
  · split
    · exact fun _ e => nomatch e
    · rename_i e
      exact fun | _, rfl => .fst (MemoriesCanonical.after_engAtomic h _ e)

/-! Leaving (R157, R417). -/

theorem MemoriesCanonical.after_joinDec {s : State} {child p} (h : MemoriesCanonical s) : MemoriesCanonical (joinDec s child p) := by
  unfold joinDec
  split
  · exact .frame (.after_release h)
  · exact h

theorem MemoriesCanonical.after_launchResolve {s : State} {d l code faulted} (h : MemoriesCanonical s) :
    MemoriesCanonical (launchResolve s d l code faulted) := by
  unfold launchResolve
  dsimp only
  split
  · exact .after_engineResolve (.frame h)
  · exact .ite (.frame h) (.after_record (.frame h))

theorem MemoriesCanonical.after_launchCheck {s : State} {d id} (h : MemoriesCanonical s) : MemoriesCanonical (launchCheck s d id) := by
  unfold launchCheck
  split
  · exact h
  · exact .ite h (.after_launchResolve (.ite h (.frame h)))

theorem MemoriesCanonical.after_launchEnd {s : State} {id killed} (h : MemoriesCanonical s) : MemoriesCanonical (launchEnd s id killed) :=
  .foldl h fun _ _ h => .ite h (.after_launchCheck (.frame h))

theorem MemoriesCanonical.after_taskGone {s : State} {a c killed} (h : MemoriesCanonical s) :
    MemoriesCanonical (taskGone s a c killed) := by
  unfold taskGone
  dsimp only
  split
  · refine .after_launchEnd ?_
    split
    · exact .after_joinDec h
    · exact h
  · split
    · exact .after_joinDec h
    · exact h

theorem MemoriesCanonical.after_endCtx {s : State} {a k retain killed} (h : MemoriesCanonical s) :
    MemoriesCanonical (endCtx s a k retain killed) := by
  unfold endCtx
  refine .after_pendOnce ?_
  refine .after_serve ?_
  refine .after_taskGone ?_
  refine .after_leaveWays ?_
  split
  · exact .ite (.frame (.after_leaseLeave (.after_snapEnd (.frame h))))
      (.after_retainWays (.frame (.after_leaseLeave (.after_snapEnd (.frame h)))))
  · exact .frame (.after_leaseLeave (.after_snapEnd (.frame h)))

theorem MemoriesCanonical.after_killCtx {s : State} {a k} (h : MemoriesCanonical s) : MemoriesCanonical (killCtx s a k) := by
  unfold killCtx
  exact .after_endCtx (.after_stopCommands (.after_release h))

theorem MemoriesCanonical.after_killTask {s : State} {t} (h : MemoriesCanonical s) : MemoriesCanonical (killTask s t) := by
  unfold killTask
  split
  · exact .after_killCtx h
  · exact h

theorem MemoriesCanonical.after_killBound {s : State} {t} (h : MemoriesCanonical s) : MemoriesCanonical (killBound s t) := by
  unfold killBound
  split
  · exact h
  · exact .ite (.after_killCtx h) h

theorem MemoriesCanonical.after_killServed {s : State} {c} (h : MemoriesCanonical s) : MemoriesCanonical (killServed s c) := by
  unfold killServed
  split
  · exact .ite h (.after_killBound h)
  · exact h

/-! SPAWN, JOIN, HALT, YIELD (R156, R157, R296). -/

theorem OutCanonical.after_execSpawn {s : State} {o} (h : MemoriesCanonical s) : OutCanonical (execSpawn o s) := by
  refine .after_issue h fun c => .after_access h fun p => ?_
  have hr : MemoriesCanonical (readPath (taintAcquire s (c.taintG o.a)) (curAcc s) p 32).2 := .after_readPath (.after_taintAcquire h)
  exact .ite (.after_raise hr) (.ite (.after_raise hr) (.ite (.after_raise hr) (.ite (.after_waitFor hr)
    (.after_releaseThen hr fun _ h => .frame (.after_pendOnce (.frame h))))))

theorem OutCanonical.after_execJoin {s : State} (h : MemoriesCanonical s) : OutCanonical (execJoin s) :=
  .after_issue h fun _ => .ite (.after_waitFor h) (.frame (.after_acquire h))

theorem MemoriesCanonical.after_haltRun {s : State} {retain} (h : MemoriesCanonical s) : MemoriesCanonical (haltRun s retain) :=
  .ite (.after_waitFor h) (.ite (.after_waitFor h) (.after_killServed (.after_endCtx (.after_wcbDrain h))))

theorem OutCanonical.after_execHaltr {s : State} {o} (h : MemoriesCanonical s) : OutCanonical (execHaltr o s) :=
  .after_issue h fun _ => .ite (.after_raise h) (.after_haltRun h)

/-! LAUNCH (R158, R297). -/

theorem MemoriesCanonical.after_launchQueue {s : State} {iss r fut} (h : MemoriesCanonical s) :
    MemoriesCanonical (launchQueue s iss r fut) :=
  .after_pendOnce (.frame h)

theorem OutCanonical.after_execLaunch {s : State} {o} (h : MemoriesCanonical s) : OutCanonical (execLaunch o s) := by
  unfold execLaunch
  refine .after_issue h fun _ => ?_
  refine .after_access h fun _ => ?_
  refine .after_releaseThen h fun _ h => ?_
  refine .ite (.after_raise (.after_readPath (.after_taintAcquire h))) ?_
  refine .ite (.after_raise (.after_readPath (.after_taintAcquire h))) ?_
  split
  · exact .after_raise (.after_readPath (.after_taintAcquire h))
  · exact .ite (.after_waitFor (.after_readPath (.after_taintAcquire h)))
      (.frame (.after_launchQueue (.after_readPath (.after_taintAcquire h))))

/-! Placing (R159). -/

theorem OutCanonical.after_execLaunchPlace {s : State} (h : MemoriesCanonical s) : OutCanonical (execLaunchPlace s) := by
  unfold execLaunchPlace
  split
  · refine .ite (.next (.frame h)) ?_
    refine .ite (.next h) ?_
    split
    · exact .next h
    · refine .ite (.after_answer (.after_launchResolve h)) ?_
      dsimp only
      split
      · exact .after_answer (.ite h (.frame h))
      · exact .ite (.after_answer (.after_launchCheck (.frame (.ite h (.frame h)))))
          (.after_answer (.after_launchCheck (.frame (.after_pendOnce (.frame (.ite h (.frame h)))))))
  · exact .next h

/-! Starting tasks (R148, R162). -/

theorem MemoriesCanonical.after_startTask {s : State} {a k x} (h : MemoriesCanonical s) : MemoriesCanonical (startTask s a k x) := by
  unfold startTask
  dsimp only
  split
  · exact .after_acquire (.frame (.ite (.frame (.after_claimWays h)) (.after_claimWays h)))
  · exact .frame (.ite (.frame (.after_claimWays h)) (.after_claimWays h))

theorem MemoriesCanonical.after_takeNotify {s : State} {a x} (h : MemoriesCanonical s) : MemoriesCanonical (takeNotify s a x).2 := by
  unfold takeNotify
  refine .ite_snd (.snd h) ?_
  split
  · exact .snd h
  · exact .snd (.frame h)

theorem MemoriesCanonical.after_startItem {s : State} {a i} (h : MemoriesCanonical s) : MemoriesCanonical (startItem s a i) := by
  unfold startItem
  dsimp only
  split
  · exact .after_startTask (.after_takeNotify (.frame h))
  · split
    · exact .frame h
    · exact .after_startTask (.frame h)
  · exact .frame h

theorem OutCanonical.after_execTaskStart {s : State} (h : MemoriesCanonical s) : OutCanonical (execTaskStart s) := by
  unfold execTaskStart
  split
  · refine .ite (.next (.frame h)) ?_
    refine .ite (.next h) ?_
    split
    · exact .next h
    · exact .after_answer (.after_serve (.after_startItem h))
  · exact .next h

/-! Fault packets (R213, R216). -/

theorem MemoriesCanonical.after_packetDropped {s : State} {a p} (h : MemoriesCanonical s) : MemoriesCanonical (packetDropped s a p) :=
  .ite (.frame h) (.after_killBound (.frame h))

theorem OutCanonical.after_execFaultPacketArrive {s : State} (h : MemoriesCanonical s) : OutCanonical (execFaultPacketArrive s) := by
  unfold execFaultPacketArrive
  split
  · refine .ite (.after_answer (.frame h)) ?_
    refine .ite (.after_answer (.after_packetDropped (.frame h))) ?_
    refine .ite (.next h) ?_
    split
    · exact .next h
    · exact .after_answer (.after_holdArrival (.frame h))
  · exact .next h

theorem OutCanonical.after_execFaultFreeze {s : State} (h : MemoriesCanonical s) : OutCanonical (execFaultFreeze s) := by
  unfold execFaultFreeze
  split
  · refine .ite (.next (.frame h)) ?_
    split
    · exact .after_answer (.frame (.after_killServed (.after_killCtx (.frame h))))
    · exact .after_answer (.after_takeFault (.frame h))
    · exact .next (.frame h)
  · exact .next h

/-! The page-fault path (R217, R218). -/

theorem OutCanonical.after_execPageFaultPost {s : State} (h : MemoriesCanonical s) : OutCanonical (execPageFaultPost s) := by
  unfold execPageFaultPost
  split
  · exact .next (.frame h)
  · exact .next h

theorem OutCanonical.after_execAccessAccept {s : State} (h : MemoriesCanonical s) : OutCanonical (execAccessAccept s) := by
  unfold execAccessAccept
  split
  · exact .after_answer (.getD h (.after_deviceAccess (.frame h)))
  · split <;> exact .next (.frame h)
  · exact .next h

theorem MemoriesCanonical.after_completionReply {s : State} {c fail} (h : MemoriesCanonical s) :
    MemoriesCanonical (completionReply s c fail) :=
  .ite (.after_completionResume (.frame h)) (.after_completeList (.after_whoRecord (.frame h)))

theorem OutCanonical.after_execPageFaultReply {s : State} (h : MemoriesCanonical s) : OutCanonical (execPageFaultReply s) := by
  unfold execPageFaultReply
  split
  · refine .ite ?_ ?_
    · refine .ite (.next (.frame h)) ?_
      split
      · exact .after_answer (.after_completionReply (.frame h))
      · split
        · exact .next (.frame h)
        · exact .ite (.next (.frame h)) (.next (.frame h))
    · split
      · exact .next (.frame h)
      · exact .ite (.next (.frame h)) (.next (.frame h))
  · exact .next h

/-! SEND, TSEND (R291). -/

theorem OutCanonical.after_execSendAs {s : State} {i o tagged} (h : MemoriesCanonical s) : OutCanonical (execSendAs i o s tagged) := by
  unfold execSendAs
  refine .after_issue h fun _ => ?_
  refine .ite (.ite (.after_faultCur h) (.after_waitFor h)) ?_
  split
  · exact .after_raise h
  · refine .ite (.after_raise h) ?_
    refine .ite (.after_raise h) ?_
    refine .ite (.after_waitFor h) ?_
    dsimp only
    split
    · exact .after_releaseThen h fun _ h => .frame (.after_sendMsg h)
    · exact .frame (.after_sendMsg h)

/-! Receives (R293, R294). -/

theorem OutCanonical.after_execRecv {s : State} {o} (h : MemoriesCanonical s) : OutCanonical (execRecv o s) := by
  unfold execRecv
  refine .after_issue h fun _ => ?_
  refine .ite (.after_raise h) ?_
  refine .ite (.after_raise h) ?_
  refine .ite (.after_raise h) ?_
  refine .ite (.after_raise h) ?_
  dsimp only
  split
  · exact .ite (.after_waitPort h) (.frame (.after_serve (.after_deliverTag (.frame h))))
  · exact .ite (.after_waitFor h) (.frame h)

theorem OutCanonical.after_execRcancel {s : State} {o} (h : MemoriesCanonical s) : OutCanonical (execRcancel o s) := by
  unfold execRcancel
  refine .after_issue h fun _ => ?_
  dsimp only
  split <;> exact .frame h

/-! The handler table (R149, R193, R295). -/

theorem OutCanonical.after_execChwr {s : State} {o} (h : MemoriesCanonical s) : OutCanonical (execChwr o s) := by
  unfold execChwr
  refine .after_issue h fun _ => ?_
  refine .ite (.after_raise h) ?_
  split
  · exact .after_raise h
  · exact .frame (.after_pendOnce (.ite (.after_serve (.frame h)) (.frame h)))

theorem OutCanonical.after_execChmsk {s : State} {o} (h : MemoriesCanonical s) : OutCanonical (execChmsk o s) :=
  .after_issue h fun _ => .ite (.after_raise h) (.ite (.after_raise h) (.frame (.after_pendOnce (.ite (.after_serve (.frame h)) (.frame h)))))

theorem OutCanonical.after_execChrd {s : State} {o} (h : MemoriesCanonical s) : OutCanonical (execChrd o s) :=
  .after_issue h fun _ => .ite (.after_raise h) (.ite (.after_raise h) (.frame h))

/-! Results and faults of a task that waits, live or saved. -/

theorem MemoriesCanonical.after_updTask {s : State} {t f} (h : MemoriesCanonical s) : MemoriesCanonical (updTask s t f) := by
  unfold updTask
  split
  · exact .frame h
  · exact h

theorem MemoriesCanonical.after_failTask {s : State} {t f} (h : MemoriesCanonical s) : MemoriesCanonical (failTask s t f) := by
  unfold failTask
  split
  · exact .after_failWaiter h
  · exact h

/-! Barrier slots (R176). -/

theorem MemoriesCanonical.after_barAdvance {s : State} {k i} (h : MemoriesCanonical s) : MemoriesCanonical (barAdvance s k i) :=
  .ite h (.ite (.frame h) (.ite h (.ite (.frame h) (.frame h))))

theorem MemoriesCanonical.after_barArrive {s : State} {k i drop} (h : MemoriesCanonical s) :
    ∀ y, barArrive s k i drop = some y → MemoriesCanonical y.2 := by
  unfold barArrive
  dsimp only
  split
  · exact fun _ e => nomatch e
  · exact fun | _, rfl => .snd (.after_barAdvance (.frame h))

theorem MemoriesCanonical.after_barReturn {s : State} {k i p} (h : MemoriesCanonical s) : MemoriesCanonical (barReturn s k i p) := by
  unfold barReturn
  refine .foldl h fun _ _ h => ?_
  refine .foldl h fun _ _ h => ?_
  split
  · exact .ite (.frame (.after_acquire h)) h
  · exact h

theorem MemoriesCanonical.after_phaseReturn {s : State} {k i} (h : MemoriesCanonical s) : MemoriesCanonical (phaseReturn s k i) := by
  unfold phaseReturn
  refine .foldl h fun _ _ h => ?_
  dsimp only
  split
  · exact .ite (.frame (.after_acquire h)) h
  · exact h

theorem MemoriesCanonical.after_barRelease {s : State} {k i} (h : MemoriesCanonical s) : MemoriesCanonical (barRelease s k i) := by
  unfold barRelease
  extract_lets v p d v' s₁ s₂ s₃ s₄ s₅ all
  have h₃ : MemoriesCanonical s₃ := .ite (.frame (.frame (.frame h))) (.frame (.frame h))
  have h₄ : MemoriesCanonical s₄ := .ite (.frame h₃) h₃
  have h₅ : MemoriesCanonical s₅ := .after_phaseReturn (.after_barReturn h₄)
  exact .ite (.foldl h₅ fun _ _ h => .frame h) (.after_barAdvance h₅)

theorem OutCanonical.after_execBarrierSweep {s : State} (h : MemoriesCanonical s) : OutCanonical (execBarrierSweep s) := by
  unfold execBarrierSweep
  split
  · dsimp only
    split
    · exact .ite (.next (.after_barAdvance (.frame h))) (.next (.frame h))
    · exact .ite (.next (.after_barAdvance (.frame h))) (.next (.frame h))
    · exact .ite (.after_answer (.after_barRelease (.frame h))) (.next (.frame h))
  · exact .next h

theorem MemoriesCanonical.after_clusterOnly {s : State} {i go} (h : MemoriesCanonical s)
    (hgo : ∀ t, MemoriesCanonical t → MemoriesCanonical (go t)) : MemoriesCanonical (clusterOnly i s go) :=
  .ite (.after_raise h) (hgo _ h)

theorem MemoriesCanonical.after_arrivalForm {s : State} {i slot drop limit go} (h : MemoriesCanonical s)
    (hgo : ∀ x t, MemoriesCanonical t → MemoriesCanonical (go x t)) : MemoriesCanonical (arrivalForm i s slot drop limit go) := by
  unfold arrivalForm
  refine .after_clusterOnly h fun _ h => ?_
  refine .ite (.after_raise h) ?_
  refine .after_releaseThen h fun _ h => ?_
  split
  · exact .after_faultCur h
  · rename_i e
    exact hgo _ _ (MemoriesCanonical.after_barArrive h _ e)

theorem OutCanonical.after_execBar {s : State} {o} (h : MemoriesCanonical s) : OutCanonical (execBar o s) :=
  .after_issue h fun _ => .after_arrivalForm h fun _ _ h => .after_waitFor h

theorem OutCanonical.after_execBararv {s : State} {o} (h : MemoriesCanonical s) : OutCanonical (execBararv o s) :=
  .after_issue h fun _ => .after_arrivalForm h fun _ _ h => .frame h

theorem OutCanonical.after_execBardrop {s : State} {o} (h : MemoriesCanonical s) : OutCanonical (execBardrop o s) :=
  .after_issue h fun _ => .after_arrivalForm h fun _ _ h => .frame h

theorem OutCanonical.after_execBarwt {s : State} {o} (h : MemoriesCanonical s) : OutCanonical (execBarwt o s) :=
  .after_issue h fun _ => .after_clusterOnly h fun _ h => .ite (.after_raise h) (.ite (.after_waitFor h) (.frame (.after_acquire h)))

theorem OutCanonical.after_execBarrd {s : State} {o} (h : MemoriesCanonical s) : OutCanonical (execBarrd o s) :=
  .after_issue h fun _ => .after_clusterOnly h fun _ h => .ite (.after_raise h) (.frame h)

theorem MemoriesCanonical.after_barConfigure {s : State} {slot die geo kid ecnt} (h : MemoriesCanonical s) :
    MemoriesCanonical (barConfigure s slot die geo kid ecnt) :=
  .foldl (.foldl (.frame h) fun _ _ h => .frame h) fun _ _ h => .after_barAdvance (.after_phaseReturn h)

theorem OutCanonical.after_execBarcfg {s : State} {o} (h : MemoriesCanonical s) : OutCanonical (execBarcfg o s) := by
  unfold execBarcfg
  refine .after_issue h fun _ => .after_clusterOnly h fun _ h => ?_
  dsimp only
  split
  · exact .after_faultCur h
  · refine .ite (.after_raise h) ?_
    split
    · exact .after_refuse h
    · have hr {t : State} {ps : List Path} {f : List Nat × State → Path → List Nat} (ht : MemoriesCanonical t) :
          MemoriesCanonical (ps.foldl (fun r p => (f r p, (readPath r.2 (curAcc r.2) p 1).2)) ([], t)).2 :=
        .foldlBy Prod.snd ht fun _ _ h => .after_readPath h
      exact .ite (.after_raise (hr (.after_taintAcquire h))) (.ite (.after_raise (hr (.after_taintAcquire h)))
        (.frame (.after_barConfigure (hr (.after_taintAcquire h)))))

/-! Queues (R174, R175). -/

theorem MemoriesCanonical.after_qPush {s : State} {k q x} (h : MemoriesCanonical s) : MemoriesCanonical (qPush s k q x) :=
  .frame (.after_spWrite h)

theorem MemoriesCanonical.after_queueForm {s : State} {i q go} (h : MemoriesCanonical s)
    (hgo : ∀ x y t, MemoriesCanonical t → MemoriesCanonical (go x y t)) : MemoriesCanonical (queueForm i s q go) :=
  .after_clusterOnly h fun _ h => .ite (.after_raise (.frame h))
    (.ite (.after_raise (.frame h)) (.ite (.after_raise (.frame h)) (hgo _ _ _ h)))

theorem OutCanonical.after_execQpush {s : State} {o} (h : MemoriesCanonical s) : OutCanonical (execQpush o s) :=
  .after_issue h fun _ => .after_queueForm h fun _ _ _ h => .ite (.after_waitFor (.frame (.ite (.after_atPort h) h)))
    (.after_releaseThen h fun _ h => .frame (.after_qPush (.frame h)))

theorem OutCanonical.after_execQpop {s : State} {o} (h : MemoriesCanonical s) : OutCanonical (execQpop o s) :=
  .after_issue h fun _ => .after_queueForm h fun _ _ _ h => .ite (.after_waitFor (.frame h))
    (.ite (.after_faultCur (.frame h)) (.frame (.after_acquire (.frame h))))

theorem MemoriesCanonical.after_retest {s : State} {a k} (h : MemoriesCanonical s) : MemoriesCanonical (retest s a k) := by
  have hr : OutCanonical (match nextInstr { s with curAgent := a, curCtx := k } with
      | .run (.qpush o) t => execQpush o t
      | .run (.qpop o) t => execQpop o t
      | _ => .next s) := by
    split
    · rename_i e
      exact .after_execQpush (.after_nextInstr_run (.frame h) e)
    · rename_i e
      exact .after_execQpop (.after_nextInstr_run (.frame h) e)
    · exact .next h
  unfold retest
  dsimp only
  split
  · rename_i e
    exact .frame (hr _ e)
  · exact h

theorem MemoriesCanonical.after_retestQueue {s : State} {k q} (h : MemoriesCanonical s) : MemoriesCanonical (retestQueue s k q) := by
  unfold retestQueue
  refine .foldl h fun _ _ h => ?_
  split
  · exact .after_retest h
  · exact h

theorem OutCanonical.after_execQdwr {s : State} {o} (h : MemoriesCanonical s) : OutCanonical (execQdwr o s) :=
  .after_issue h fun _ => .after_clusterOnly h fun _ h => .ite (.after_raise h)
    (.ite (.after_raise h) (.ite (.after_raise h) (.frame (.after_retestQueue (.frame (.after_retestQueue h))))))

theorem OutCanonical.after_execQdrd {s : State} {o} (h : MemoriesCanonical s) : OutCanonical (execQdrd o s) :=
  .after_issue h fun _ => .after_clusterOnly h fun _ h => .ite (.after_raise h) (.frame h)

/-! Work-lists (R182, R183, R303). -/

theorem MemoriesCanonical.after_wlOp {s : State} {i va rel go k} (h : MemoriesCanonical s)
    (hgo : ∀ pa w t, MemoriesCanonical t → ∀ put : Nat → WorkList → State → State,
      (∀ r w' t, MemoriesCanonical t → MemoriesCanonical (put r w' t)) → MemoriesCanonical (go pa w t put)) :
    MemoriesCanonical (wlOp i s va rel go k) := by
  unfold wlOp
  split
  · exact .after_refuse h
  · split
    · exact .after_raise h
    · dsimp only
      refine .ite (.after_releaseThen (.after_taintAcquire h) fun _ h => hgo _ _ _ h _ ?_) (hgo _ _ _ (.after_taintAcquire h) _ ?_) <;>
      · intro _ _ _ h
        split <;> exact .frame (.after_atomicPath (.frame h))

theorem OutCanonical.after_execWlinit {s : State} {o} (h : MemoriesCanonical s) : OutCanonical (execWlinit o s) := by
  unfold execWlinit
  refine .after_issue h fun _ => ?_
  dsimp only
  split
  · exact .after_refuse h
  · exact .after_releaseThen (.after_taintAcquire h) fun _ h => .ite (.after_raise (.after_atomicPath h))
      (.frame (.after_atomicPath (.frame (.after_atomicPath h))))

theorem OutCanonical.after_execWlpush {s : State} {o} (h : MemoriesCanonical s) : OutCanonical (execWlpush o s) :=
  .after_issue h fun _ => .ite (.after_raise h) (.after_wlOp h fun _ _ _ h _ hput => hput _ _ _ h)

theorem OutCanonical.after_execWlins {s : State} {o} (h : MemoriesCanonical s) : OutCanonical (execWlins o s) :=
  .after_issue h fun _ => .ite (.after_raise h) (.after_wlOp h fun _ _ _ h _ hput => .ite (hput _ _ _ h) (hput _ _ _ h))

theorem OutCanonical.after_execWlpopb {s : State} {o} (h : MemoriesCanonical s) : OutCanonical (execWlpopb o s) :=
  .after_issue h fun _ => .after_wlOp h fun _ _ _ h _ hput => hput _ _ _ (.after_acquire (.frame h))

theorem OutCanonical.after_execWlstat {s : State} {o} (h : MemoriesCanonical s) : OutCanonical (execWlstat o s) :=
  .after_issue h fun _ => .after_wlOp h fun _ _ _ h _ hput => hput _ _ _ h

theorem OutCanonical.after_execWlfree {s : State} {o} (h : MemoriesCanonical s) : OutCanonical (execWlfree o s) :=
  .after_issue h fun _ => .after_wlOp h fun _ _ _ h _ hput => .frame (hput _ _ _ h)

/-! Collectives (R184, R298). -/

theorem OutCanonical.after_execColl {s : State} {o} (h : MemoriesCanonical s) : OutCanonical (execColl o s) :=
  .after_issue h fun _ => .ite (.after_raise h)
    (.ite (.after_raise h) (.ite (.frame h) (.after_releaseThen h fun _ h => .frame (.after_waitFor h))))

theorem MemoriesCanonical.after_collDeliver {s : State} {m r} (h : MemoriesCanonical s) : MemoriesCanonical (collDeliver s m r) := by
  unfold collDeliver
  split
  · split
    · exact .ite h (.after_updTask (.ite (.after_acquire h) h))
    · exact h
  · exact h

theorem OutCanonical.after_execCollArrive {s : State} (h : MemoriesCanonical s) : OutCanonical (execCollArrive s) := by
  unfold execCollArrive
  split
  · refine .ite (.next (.frame h)) ?_
    refine .ite (.next h) ?_
    split
    · exact .ite (.next h) (.next (.ite (.frame h) (.frame h)))
    · exact .ite (.after_answer (.after_failTask (.frame h)))
        (.ite (.next (.frame h)) (.after_answer (.foldl (.frame h) fun _ _ h => .after_collDeliver h)))
  · exact .next h

theorem OutCanonical.after_execCollTimerExpire {s : State} (h : MemoriesCanonical s) : OutCanonical (execCollTimerExpire s) := by
  unfold execCollTimerExpire
  split
  · split
    · exact .next (.frame h)
    · exact .ite (.next (.frame h)) (.ite (.next h) (.after_answer (.foldl (.frame h) fun _ _ h => .ite (.after_failTask h) h)))
  · exact .next h

/-! Bounded waits (R288). -/

theorem MemoriesCanonical.after_barExpire {s : State} {a k clu slot} (h : MemoriesCanonical s) :
    MemoriesCanonical (barExpire s a k clu slot) :=
  .ite (.frame h) (.after_failTask (.frame h))

theorem MemoriesCanonical.after_collExpire {s : State} {d unit id c} (h : MemoriesCanonical s) :
    MemoriesCanonical (collExpire s d unit id c) :=
  .after_failTask (.frame h)

theorem MemoriesCanonical.after_issueExpire {s : State} {a k c} (h : MemoriesCanonical s) : MemoriesCanonical (issueExpire s a k c) := by
  unfold issueExpire
  split
  · exact .after_collExpire h
  · exact .after_failTask h
  · exact .after_failTask h
  · exact .after_failTask h

theorem MemoriesCanonical.after_queueExpire {s : State} {a k w} (h : MemoriesCanonical s) : MemoriesCanonical (queueExpire s a k w) := by
  unfold queueExpire
  dsimp only
  split
  · exact .after_failTask h
  · exact .after_retest h

theorem OutCanonical.after_execBoundedWaitExpire {s : State} (h : MemoriesCanonical s) : OutCanonical (execBoundedWaitExpire s) := by
  unfold execBoundedWaitExpire
  split
  · dsimp only
    split
    · exact .next (.frame h)
    · refine .ite (.next (.frame h)) ?_
      refine .ite (.next h) ?_
      split
      · exact .after_answer (.after_barExpire (.frame h))
      · split
        · exact .ite (.next h) (.after_answer (.after_collExpire (.frame h)))
        · exact .after_answer (.after_collExpire (.frame h))
      · exact .ite (.next h) (.after_answer (.after_failTask (.frame h)))
      · exact .after_answer (.after_issueExpire (.frame h))
      · exact .after_answer (.after_issueExpire (.frame h))
      · exact .after_answer (.after_queueExpire (.frame h))
      · exact .after_answer (.after_failTask (.frame h))
  · exact .next h

/-! The lease (R165, R329). -/

theorem MemoriesCanonical.after_leaseAsk {s : State} {k p} (h : MemoriesCanonical s) : MemoriesCanonical (leaseAsk s k p) :=
  .ite h (.after_leaseNext (.frame h))

theorem MemoriesCanonical.after_leaseForm {s : State} {i go limit} (h : MemoriesCanonical s)
    (hgo : ∀ t, MemoriesCanonical t → MemoriesCanonical (go t)) : MemoriesCanonical (leaseForm i s go limit) :=
  .ite (.ite (.after_waitFor (.after_arrayPass h)) (hgo _ (.after_arrayPass h)))
    (.ite (.after_waitFor (.after_leaseAsk h)) (.after_raise h))

theorem MemoriesCanonical.after_leaseCount {s : State} {k} (h : MemoriesCanonical s) : MemoriesCanonical (leaseCount s k) :=
  .ite (.after_leaseEnd (.frame h)) (.frame h)

theorem OutCanonical.after_execMxlease {s : State} {o} (h : MemoriesCanonical s) : OutCanonical (execMxlease o s) :=
  .after_issue h fun _ => .after_clusterOnly h fun _ h => .ite (.frame (.after_leaseAsk h)) (.after_waitFor (.after_leaseAsk h))

theorem OutCanonical.after_execMxrel {s : State} (h : MemoriesCanonical s) : OutCanonical (execMxrel s) :=
  .after_issue h fun _ => .after_clusterOnly h fun _ h => .frame (.after_leaseDrop h)

theorem OutCanonical.after_execLeaseGrantExpire {s : State} (h : MemoriesCanonical s) : OutCanonical (execLeaseGrantExpire s) := by
  unfold execLeaseGrantExpire
  split
  · exact .ite (.next (.frame h)) (.ite (.next h) (.after_answer (.after_leaseEnd (.frame h))))
  · exact .next h

/-! Tiles (R330). -/

theorem OutCanonical.after_execTcfg {s : State} {o} (h : MemoriesCanonical s) : OutCanonical (execTcfg o s) :=
  .after_issue h fun _ => .after_clusterOnly h fun _ h => .ite (.after_raise h)
    (.after_leaseForm h fun _ h => .ite (.after_raise h) (.frame h))

theorem OutCanonical.after_execTrel {s : State} {o} (h : MemoriesCanonical s) : OutCanonical (execTrel o s) :=
  .after_issue h fun _ => .after_clusterOnly h fun _ h => .after_leaseForm h fun _ h => .ite (.after_waitFor h) (.frame h)

theorem OutCanonical.after_execMxwait {s : State} {o} (h : MemoriesCanonical s) : OutCanonical (execMxwait o s) :=
  .after_issue h fun _ => .after_clusterOnly h fun _ h => .after_leaseForm h fun _ h => .ite (.after_waitFor h) (.frame h)

/-! The copy engine (R166). -/

theorem MemoriesCanonical.after_ceEnd {s : State} {k} (h : MemoriesCanonical s) : MemoriesCanonical (ceEnd s k) :=
  .after_ceKick (.frame h)

theorem MemoriesCanonical.after_cePut {s : State} {a e} (h : MemoriesCanonical s) : MemoriesCanonical (cePut s a e) :=
  .after_ceKick (.frame h)

/-! Issue of matrix commands (R326, R327). -/

theorem MemoriesCanonical.after_arrayUp {s : State} {i go} (h : MemoriesCanonical s)
    (hgo : ∀ t, MemoriesCanonical t → MemoriesCanonical (go t)) : MemoriesCanonical (arrayUp i s go) :=
  .ite (.after_faultCur h) (hgo _ h)

/-! Staging (R331). -/

theorem OutCanonical.after_execStage {s : State} {i o toB} (h : MemoriesCanonical s) : OutCanonical (execStage i o s toB) :=
  .after_issue h fun _ => .after_clusterOnly h fun _ h => .ite (.after_raise h)
    (.ite (.after_raise h) (.ite (.after_raise h)
    (.after_leaseForm h fun _ h => .after_arrayUp h fun _ h => .ite (.after_waitFor h)
    (.after_releaseThen h fun _ h => .frame (.after_cePut (.frame h))))))

theorem MemoriesCanonical.after_stagePiece {s : State} {x k toB boff pitch rb total src st f pos} (h : MemoriesCanonical s) :
    MemoriesCanonical (stagePiece s x k toB boff pitch rb total src st f pos).1 := by
  induction f generalizing s pos with
  | zero => exact h
  | succ f ih =>
    unfold stagePiece
    dsimp only
    split
    · exact h
    · split
      · exact h
      · rename_i e
        have hr := MemoriesCanonical.after_engRead h _ e
        exact .ite_fst (.frame hr) (ih (.frame hr))

theorem MemoriesCanonical.after_refusedStep {s0 s : State} {i e r cmd} (hs : MemoriesCanonical s) :
    MemoriesCanonical (refusedStep s0 s i e r cmd) := by
  unfold refusedStep
  split
  · exact .frame (.after_atPort hs)
  · exact .frame hs
  · exact .frame (.after_engRefused hs)
  · exact .frame (.after_engRefused hs)
  · exact .after_engRefused (.frame hs)

theorem OutCanonical.after_execStagingLanded {s : State} (h : MemoriesCanonical s) : OutCanonical (execStagingLanded s) := by
  unfold execStagingLanded
  split
  · dsimp only
    split
    · split
      · refine .ite (.next h) ?_
        split
        · rename_i e3
          exact .after_answer (.after_refusedStep (.frame (.of_fst e3 (.after_stagePiece h))))
        · rename_i e3
          have he3 : MemoriesCanonical _ := .of_fst e3 (.after_stagePiece h)
          exact .ite (.after_answer (.after_ceKick (.frame (.frame he3))))
            (.after_answer (.after_arrayPass (.after_ceEnd (.frame (.frame he3)))))
      · exact .next (.frame h)
    · exact .next (.frame h)
  · exact .next h

/-! Products (R332 to R334). -/

theorem MemoriesCanonical.after_fuseLease {s : State} {k fuse go} (h : MemoriesCanonical s)
    (hgo : ∀ t, MemoriesCanonical t → MemoriesCanonical (go t)) : MemoriesCanonical (fuseLease s k fuse go) :=
  .ite (hgo _ h) (.ite (.after_waitFor (.after_arrayPass (.ite h (.after_leaseNext (.frame h)))))
    (hgo _ (.after_leaseCount (.frame (.after_arrayPass (.ite h (.after_leaseNext (.frame h))))))))

theorem OutCanonical.after_execProduct {s : State} {i o} (h : MemoriesCanonical s) : OutCanonical (execProduct i o s) := by
  unfold execProduct
  refine .after_issue h fun _ => ?_
  refine .after_clusterOnly h fun _ h => ?_
  refine .ite (.after_raise h) ?_
  split
  · exact .after_raise h
  · exact .after_leaseForm h fun _ h => .after_arrayUp h fun _ h => .ite (.after_waitFor h)
      (.after_releaseThen h fun _ h => .after_fuseLease h fun _ h => .frame (.after_leaseCount (.after_pendOnce (.frame h))))

theorem MemoriesCanonical.after_fuseDrop {s : State} {k no} (h : MemoriesCanonical s) : MemoriesCanonical (fuseDrop s k no) :=
  .ite h (.after_leaseNext (.frame h))

theorem MemoriesCanonical.after_mxActive {s : State} {k} (h : MemoriesCanonical s) : ∀ y, mxActive s k = some y → MemoriesCanonical y := by
  unfold mxActive
  dsimp only
  split
  · exact fun _ e => nomatch e
  · split
    · exact fun _ e => nomatch e
    · split
      · exact fun | _, rfl => .after_arrayPass (.after_fuseDrop (.after_joinFlags (.frame h)))
      · split
        · exact fun _ e => nomatch e
        · exact fun | _, rfl => .frame h
      · exact fun _ e => nomatch e

theorem OutCanonical.after_execMatrixCommandComplete {s : State} (h : MemoriesCanonical s) :
    OutCanonical (execMatrixCommandComplete s) := by
  unfold execMatrixCommandComplete
  split
  · refine .ite (.next (.frame h)) ?_
    split
    · exact .next h
    · rename_i e1
      have he1 : MemoriesCanonical _ := MemoriesCanonical.after_mxActive h _ e1
      exact .after_answer (.ite (.after_pendOnce (.frame he1)) (.frame he1))
  · exact .next h

/-! Drains (R336). -/

theorem OutCanonical.after_execMxdrain {s : State} {o} (h : MemoriesCanonical s) : OutCanonical (execMxdrain o s) := by
  unfold execMxdrain
  refine .after_issue h fun _ => ?_
  refine .after_clusterOnly h fun _ h => ?_
  refine .after_access h fun _ => ?_
  refine .ite (.after_raise (.after_readPath (.after_taintAcquire h))) ?_
  refine .ite (.after_raise (.after_readPath (.after_taintAcquire h))) ?_
  refine .ite (.after_raise (.after_readPath (.after_taintAcquire h))) ?_
  split
  · exact .after_raise (.after_readPath (.after_taintAcquire h))
  · exact .after_raise (.after_readPath (.after_taintAcquire h))
  · exact .after_leaseForm (.after_readPath (.after_taintAcquire h)) fun _ h => .after_arrayUp h fun _ h => .ite (.after_waitFor h)
      (.after_releaseThen h fun _ h => .frame (.after_leaseCount (.after_pendOnce (.after_cePut (.frame h)))))

theorem MemoriesCanonical.after_drainPiece {s : State} {x sh f int el fl m n w} (h : MemoriesCanonical s) :
    MemoriesCanonical (drainPiece s x sh f int el fl m n w).1 := by
  induction m generalizing s fl n w with
  | zero => exact h
  | succ m ih =>
    unfold drainPiece
    dsimp only
    refine .ite_fst (ih h) ?_
    split
    · exact h
    · split
      · exact h
      · rename_i e
        have hw := MemoriesCanonical.after_elemWrite h _ e
        exact .ite_fst hw (ih hw)

theorem MemoriesCanonical.after_syncStep {s : State} {p : Prop} {_ : Decidable p} {x va n} (h : MemoriesCanonical s) :
    ∀ y, (if p then .ok s else syncAdd s x va n) = .ok y → MemoriesCanonical y := by
  split
  · exact fun | _, rfl => h
  · exact MemoriesCanonical.after_syncAdd h

theorem MemoriesCanonical.after_ceComplete {s0 s : State} {k i fl sync fut bytes fin} (h : MemoriesCanonical s)
    (hfin : ∀ t, MemoriesCanonical t → MemoriesCanonical (fin t)) : MemoriesCanonical (ceComplete s0 s k i fl sync fut bytes fin) := by
  unfold ceComplete
  dsimp only
  split
  · exact .after_refusedStep h
  · rename_i e
    exact hfin _ (.after_engFuture (.frame (.after_syncStep (.after_joinFlags h) _ e)))

theorem OutCanonical.after_execDrainWriteComplete {s : State} (h : MemoriesCanonical s) : OutCanonical (execDrainWriteComplete s) := by
  unfold execDrainWriteComplete
  split
  · dsimp only
    split
    · split
      · refine .ite (.next h) ?_
        split
        · rename_i e3
          exact .after_answer (.after_refusedStep (.frame (.of_fst e3 (.after_drainPiece h))))
        · rename_i e3
          have he3 : MemoriesCanonical _ := .of_fst e3 (.after_drainPiece h)
          exact .ite (.after_answer (.after_ceKick (.frame (.frame he3))))
            (.after_answer (.after_ceComplete (.frame he3) fun _ h => .after_arrayPass (.after_ceEnd (.frame h))))
      · exact .next h
      · exact .next (.frame h)
    · exact .next (.frame h)
  · exact .next h

/-! Status (R337). -/

theorem OutCanonical.after_execMxstat {s : State} {o} (h : MemoriesCanonical s) : OutCanonical (execMxstat o s) :=
  .after_issue h fun _ => .after_clusterOnly h fun _ h => .frame h

/-! Group 0x32. -/

theorem MemoriesCanonical.after_nbdOp {s : State} {i va tainted go} (h : MemoriesCanonical s)
    (hgo : ∀ ia pa p r t, MemoriesCanonical t → MemoriesCanonical (go ia pa p r t)) : MemoriesCanonical (nbdOp i s va tainted go) := by
  unfold nbdOp
  split
  · exact .after_refuse h
  · dsimp only
    exact .after_releaseThen h fun _ h => hgo _ _ _ _ _ (.after_atomicPath (.after_taintAcquire h))
  · exact h

/-! Fields (R338). -/

theorem OutCanonical.after_execNbcfg {s : State} {o} (h : MemoriesCanonical s) : OutCanonical (execNbcfg o s) := by
  unfold execNbcfg
  dsimp only
  refine .after_issue h fun _ => .after_nbdOp h fun _ _ _ _ _ h => .ite (.after_raise h) (.ite (.after_raise h) (.ite (.after_raise h) ?_))
  split
  · exact .after_raise h
  · exact .ite (.after_raise h) (.frame (.frame (.after_atomicPath (.frame h))))

/-! The copy into the near-bank area (R339). -/

theorem MemoriesCanonical.after_nbRows {s : State} {iss m src pitch n r} (h : MemoriesCanonical s) :
    MemoriesCanonical (nbRows s iss m src pitch n r).1 := by
  induction n generalizing s r with
  | zero => exact h
  | succ n ih =>
    unfold nbRows
    dsimp only
    split
    · split
      · exact h
      · rename_i e
        have hr := MemoriesCanonical.after_engRead h _ e
        split
        · exact hr
        · rename_i e'
          exact ih (.after_engWrite hr _ e')
    · exact h

theorem MemoriesCanonical.after_nbRefused {s0 s : State} {id r} (hs : MemoriesCanonical s) : MemoriesCanonical (nbRefused s0 s id r) := by
  unfold nbRefused
  split
  · exact .after_refusedStep hs
  · exact hs

theorem OutCanonical.after_execNbcfgPlaced {s : State} (h : MemoriesCanonical s) : OutCanonical (execNbcfgPlaced s) := by
  unfold execNbcfgPlaced
  split
  · split
    · dsimp only
      split
      · exact .next (.frame h)
      · refine .ite (.next h) ?_
        split
        · exact .after_answer (.after_nbRefused h)
        · refine .ite (.after_answer (.after_nbStop (.frame h))) ?_
          split
          · rename_i e4
            exact .after_answer (.after_nbRefused (.frame (.of_fst e4 (.after_nbRows (.frame h)))))
          · rename_i e4
            have he4 : MemoriesCanonical _ := .of_fst e4 (.after_nbRows (.frame h))
            exact .ite (.after_answer (.frame (.frame (.frame he4))))
              (.after_answer (.after_nbFuture (.after_objectUpdate (.frame (.frame he4)))))
    · exact .next (.frame h)
  · exact .next h

/-! Products (R340). -/

theorem OutCanonical.after_execNbmv {s : State} {o} (h : MemoriesCanonical s) : OutCanonical (execNbmv o s) := by
  unfold execNbmv
  refine .after_issue h fun _ => ?_
  dsimp only
  split
  · exact .after_faultCur h
  · exact .after_faultCur h
  · refine .after_nbdOp h fun _ _ _ _ _ h => ?_
    refine .ite (.after_raise h) ?_
    split
    · exact .after_raise h
    · split
      · exact .after_raise h
      · refine .ite (.after_waitFor h) ?_
        split
        · exact .after_refuse h
        · rename_i e3
          exact .frame (.frame (.frame (.frame (.after_atomicPath (MemoriesCanonical.after_engRead h _ e3)))))

theorem MemoriesCanonical.after_nbProduct {s : State} {iss m fx sat x start n r} (h : MemoriesCanonical s) :
    ∀ y, nbProduct s iss m fx sat x start n r = .ok y → MemoriesCanonical y.2.2 := by
  induction n generalizing s r with
  | zero => exact fun | _, rfl => h
  | succ n ih =>
    unfold nbProduct
    split
    · exact fun _ e => nomatch e
    · split
      · exact fun _ e => nomatch e
      · rename_i e
        dsimp only
        split
        · exact fun _ e => nomatch e
        · rename_i e'
          have ht := ih (MemoriesCanonical.after_engRead h _ e) _ e'
          exact fun | _, rfl => ht

theorem MemoriesCanonical.after_nbmvEnd {s0 s : State} {e nbd nrows sync} (hs : MemoriesCanonical s) :
    MemoriesCanonical (nbmvEnd s0 s e nbd nrows sync) := by
  unfold nbmvEnd
  split
  · exact .after_nbRefused hs
  · rename_i e
    exact .after_objectUpdate (.frame (.frame (MemoriesCanonical.after_syncAdd (.after_joinFlags hs) _ e)))

theorem OutCanonical.after_execNbmvComplete {s : State} (h : MemoriesCanonical s) : OutCanonical (execNbmvComplete s) := by
  unfold execNbmvComplete
  split
  · split
    · dsimp only
      split
      · exact .next (.frame h)
      · refine .ite (.next h) (.ite (.after_answer (.after_nbmvEnd h)) ?_)
        split
        · exact .after_answer (.after_nbRefused h)
        · split
          · exact .after_answer (.after_nbRefused h)
          · rename_i e
            have hp := MemoriesCanonical.after_nbProduct h _ e
            refine .ite (.after_answer (.ite (.frame (.after_sendMsg (.frame hp))) (.frame hp))) ?_
            split
            · exact .after_answer (.after_nbRefused h)
            · rename_i e'
              have hw := MemoriesCanonical.after_engWrite hp _ e'
              exact .after_answer (.frame hw)
    · exact .next (.frame h)
  · exact .next h

/-! Status (R341). -/

theorem OutCanonical.after_execNbstat {s : State} {o} (h : MemoriesCanonical s) : OutCanonical (execNbstat o s) := by
  unfold execNbstat
  refine .after_issue h fun _ => ?_
  split
  · exact .after_refuse h
  · exact .frame (.after_homeRead (.after_taintAcquire h))

/-! Records loaded at issue (R209 step 3). -/

theorem MemoriesCanonical.after_loadRecords {s : State} {i vas tainted go} (h : MemoriesCanonical s)
    (hgo : ∀ x t, MemoriesCanonical t → MemoriesCanonical (go x t)) : MemoriesCanonical (loadRecords i s vas tainted go) := by
  unfold loadRecords
  split
  · exact .after_faultCur h
  · split
    · exact .after_refuse h
    · split
      · exact .after_holdOn h
      · exact hgo _ _ (.foldlBy Prod.snd (.snd (.after_taintAcquire h)) fun _ _ h => .snd (.after_readPath h))

theorem MemoriesCanonical.after_actionsCheck {s : State} {i sync fut go} (h : MemoriesCanonical s)
    (hgo : ∀ t, MemoriesCanonical t → MemoriesCanonical (go t)) : MemoriesCanonical (actionsCheck i s sync fut go) := by
  unfold actionsCheck
  split
  · exact .after_raise h
  · exact .after_raise h
  · exact hgo _ h

theorem MemoriesCanonical.after_copyIssue {s : State} {i cmd} (h : MemoriesCanonical s) : MemoriesCanonical (copyIssue i s cmd) :=
  .ite (.after_waitFor h) (.after_releaseThen h fun _ h => .frame (.after_cePut h))

/-! CPY (R344). -/

theorem OutCanonical.after_execCpy {s : State} {o} (h : MemoriesCanonical s) : OutCanonical (execCpy o s) :=
  .after_issue h fun _ => .after_clusterOnly h fun _ h => .ite (.after_raise h)
    (.ite (.after_raise h) (.ite (.after_raise h)
    (.ite (.after_raise h) (.ite (.after_raise h) (.after_actionsCheck h fun _ h => .after_copyIssue h)))))

/-! CPYT (R345). -/

theorem OutCanonical.after_execCpyt {s : State} {o} (h : MemoriesCanonical s) : OutCanonical (execCpyt o s) := by
  unfold execCpyt
  refine .after_issue h fun _ => ?_
  refine .after_clusterOnly h fun _ h => ?_
  refine .after_loadRecords h fun _ _ h => ?_
  dsimp only
  split
  · exact .after_raise h
  · exact .ite (.after_raise h) (.ite (.after_raise h) (.after_actionsCheck h fun _ h => .after_copyIssue h))

theorem MemoriesCanonical.after_cpytElem {s : State} {x d r dt st n} (h : MemoriesCanonical s) :
    ∀ y, cpytElem s x d r dt st n = .ok y → MemoriesCanonical y.1 := by
  unfold cpytElem
  dsimp only
  split
  · exact fun | _, rfl => h
  · split
    · exact fun _ e => nomatch e
    · exact fun _ e => nomatch e
    · rename_i v t a e ea
      have ht : MemoriesCanonical t := by
        split_ifs at e
        · cases e
          exact h
        · split at e
          · cases e
          · exact MemoriesCanonical.after_engRead h _ e
      split
      · split
        · exact fun _ e => nomatch e
        · rename_i e
          exact fun | _, rfl => .after_elemWrite ht _ e
      · split
        · exact fun _ e => nomatch e
        · rename_i e
          exact fun | _, rfl => .after_engWrite ht _ e

theorem MemoriesCanonical.after_cpytPiece {s : State} {x d r dt st fl m n w} (h : MemoriesCanonical s) :
    MemoriesCanonical (cpytPiece s x d r dt st fl m n w).1 := by
  induction m generalizing s fl n w with
  | zero => exact h
  | succ m ih =>
    unfold cpytPiece
    split
    · exact h
    · rename_i e
      have he := MemoriesCanonical.after_cpytElem h _ e
      exact .ite_fst he (ih he)

/-! The copy engine runs (R344). -/

theorem MemoriesCanonical.after_pieceCounted {s0 s : State} {k iss sync n fl} (h : MemoriesCanonical s) :
    MemoriesCanonical (pieceCounted s0 s k iss sync n fl) := by
  unfold pieceCounted
  split
  · exact .after_refusedStep h
  · rename_i e
    exact .after_ceKick (.frame (.after_joinFlags (.after_syncStep h _ e)))

theorem OutCanonical.after_execCopyPieceLanded {s : State} (h : MemoriesCanonical s) : OutCanonical (execCopyPieceLanded s) := by
  unfold execCopyPieceLanded
  split
  · split
    · dsimp only
      refine .ite (.next h) (.ite (.next (.after_ceKick (.frame h))) ?_)
      split
      · exact .after_answer (.after_refusedStep h)
      · rename_i t e
        have ht : MemoriesCanonical t := by
          split at e
          · split at e
            · cases e
            · rename_i e₁
              exact .after_engWrite (.after_engRead h _ e₁) _ e
          · cases e
        exact .after_answer (.after_pieceCounted (.frame ht))
    · dsimp only
      refine .ite (.next h) ?_
      split
      · rename_i e
        exact .after_answer (.after_refusedStep (.frame (.of_fst e (.after_cpytPiece h))))
      · rename_i e
        exact .after_answer (.after_pieceCounted (.frame (.of_fst e (.after_cpytPiece h))))
    · exact .next (.frame h)
  · exact .next h

theorem OutCanonical.after_execCopyComplete {s : State} (h : MemoriesCanonical s) : OutCanonical (execCopyComplete s) := by
  unfold execCopyComplete
  split
  · refine .ite (.next h) ?_
    split
    · exact .ite (.next (.after_ceKick (.frame h))) (.after_answer (.after_ceComplete h fun _ h => .after_ceEnd h))
    · exact .ite (.next (.after_ceKick (.frame h))) (.after_answer (.after_ceComplete h fun _ h => .after_ceEnd h))
    · exact .next (.frame h)
  · exact .next h

/-! Sync words (R346, R347). -/

theorem MemoriesCanonical.after_syncForm {s : State} {i va b k tainted go} (h : MemoriesCanonical s)
    (hgo : ∀ x y t, MemoriesCanonical t → MemoriesCanonical (go x y t)) : MemoriesCanonical (syncForm i s va b k tainted go) := by
  unfold syncForm
  split
  · exact .after_refuse h
  · exact .ite (.after_raise h) (hgo _ _ _ (.after_taintAcquire h))

theorem OutCanonical.after_execSyncwait {s : State} {o} (h : MemoriesCanonical s) : OutCanonical (execSyncwait o s) :=
  .after_issue h fun _ => .after_syncForm h fun _ _ _ h => .ite (.after_raise h) (.ite (.after_waitFor h) (.frame (.after_acquire h)))

theorem OutCanonical.after_execSyncadd {s : State} {o} (h : MemoriesCanonical s) : OutCanonical (execSyncadd o s) :=
  .after_issue h fun _ => .after_syncForm h fun _ _ _ h => .after_releaseThen h fun _ h => .frame (.after_spWrite h)

/-! GATHER (R348, R349). -/

theorem OutCanonical.after_execGather {s : State} {o} (h : MemoriesCanonical s) : OutCanonical (execGather o s) := by
  unfold execGather
  refine .after_issue h fun _ => ?_
  refine .after_clusterOnly h fun _ h => ?_
  split
  · exact .after_raise h
  · exact .after_actionsCheck h fun _ h => .ite (.after_waitFor h)
      (.after_releaseThen h fun _ h => .ite (.frame h) (.frame (.after_pendOnce (.frame h))))

theorem MemoriesCanonical.after_gatherRow {s : State} {x g e} (h : MemoriesCanonical s) :
    ∀ y, gatherRow s x g e = .ok y → MemoriesCanonical y.2 := by
  unfold gatherRow
  obtain ⟨resolve, hr⟩ : ∃ f, f = resolveIa := ⟨_, rfl⟩
  rw [← hr]
  dsimp only
  split
  · exact fun _ e => nomatch e
  · split
    · exact fun _ e => nomatch e
    · split
      · exact MemoriesCanonical.after_engRead h
      · split
        · exact fun _ e => nomatch e
        · refine List.foldlRecOn (motive := fun r : RangeRes (Nat × State) => ∀ y, r = .ok y → MemoriesCanonical y.2) _ _
            (fun | _, rfl => h)
            fun r hr q _ => ?_
          split
          · exact fun _ e => nomatch e
          · split
            · exact fun _ e => nomatch e
            · split
              · exact fun _ e => nomatch e
              · exact fun _ e => nomatch e
              · split
                · exact fun _ e => nomatch e
                · exact fun | _, rfl => .after_homeRead (hr _ rfl)

theorem MemoriesCanonical.after_gatherRows {s : State} {x g l acc} (h : MemoriesCanonical s) :
    ∀ y, gatherRows s x g l acc = .ok y → MemoriesCanonical y.2 := by
  induction l generalizing s acc with
  | nil => exact fun | _, rfl => h
  | cons e t ih =>
    unfold gatherRows
    split
    · exact ih h
    · split
      · exact fun _ e => nomatch e
      · rename_i e
        exact ih (.after_gatherRow h _ e)

theorem MemoriesCanonical.after_gatherKick {s : State} {d sl} (h : MemoriesCanonical s) : MemoriesCanonical (gatherKick s d sl) := by
  unfold gatherKick
  split
  · exact .after_pendOnce h
  · exact h

theorem OutCanonical.after_execGatherBatchLanded {s : State} (h : MemoriesCanonical s) : OutCanonical (execGatherBatchLanded s) := by
  unfold execGatherBatchLanded
  split
  · dsimp only
    split
    · exact .next (.frame h)
    · refine .ite (.next h) ?_
      split
      · exact .after_answer (.after_refusedStep h)
      · rename_i t e
        have ht : MemoriesCanonical t := by
          split at e
          · cases e
          · split at e
            · cases e
            · rename_i e₁
              split at e
              · cases e
              · rename_i e₂
                exact .after_engWriteAll (.after_gatherRows (.after_engRead h _ e₁) _ e₂) _ e
        split
        · exact .after_answer (.after_refusedStep ht)
        · rename_i e'
          have hy := MemoriesCanonical.after_syncAdd ht _ e'
          exact .after_answer (.after_gatherKick (.frame hy))
  · exact .next h

/-! The tile-walk engine (R185 to R187, R350, R351). -/

theorem MemoriesCanonical.after_twStart {s : State} {k d ld st} (h : MemoriesCanonical s) : MemoriesCanonical (twStart s k d ld st) :=
  .after_pendOnce (.frame h)

theorem OutCanonical.after_execTwrun {s : State} {o} (h : MemoriesCanonical s) : OutCanonical (execTwrun o s) := by
  unfold execTwrun
  refine .after_issue h fun _ => ?_
  refine .after_clusterOnly h fun _ h => ?_
  refine .after_loadRecords h fun _ _ h => ?_
  dsimp only
  split
  · exact .after_faultCur h
  · refine .ite (.after_raise h) ?_
    refine .after_loadRecords h fun _ _ h => ?_
    refine .ite (.after_raise h) ?_
    split
    · exact .after_raise h
    · refine .ite (.after_raise h) ?_
      split
      · exact .after_raise h
      · exact .ite (.after_waitFor h) (.after_releaseThen h fun _ h => .frame (.after_twStart h))

theorem OutCanonical.after_execTwstop {s : State} (h : MemoriesCanonical s) : OutCanonical (execTwstop s) :=
  .after_issue h fun _ => .after_clusterOnly h fun _ h => .ite (.frame h) (.ite (.after_raise h) (.frame (.after_breakPipe h)))

theorem MemoriesCanonical.after_twEnd {s : State} {k} (h : MemoriesCanonical s) : MemoriesCanonical (twEnd s k) := by
  unfold twEnd
  refine .ite h ?_
  dsimp only
  split
  · exact .after_engFuture (.frame h)
  · exact .frame h

theorem MemoriesCanonical.after_tileRead {s : State} {x sh t m n} (h : MemoriesCanonical s) :
    ∀ y, tileRead s x sh t m n = .ok y → MemoriesCanonical y.2 := by
  induction m generalizing s n with
  | zero => exact fun | _, rfl => h
  | succ m ih =>
    unfold tileRead
    dsimp only
    split
    · exact ih h
    · split
      · exact fun _ e => nomatch e
      · split
        · exact fun _ e => nomatch e
        · rename_i e
          split
          · exact fun _ e => nomatch e
          · rename_i e'
            have ht := ih (MemoriesCanonical.after_engRead h _ e) _ e'
            exact fun | _, rfl => ht

theorem MemoriesCanonical.after_tileLand {s : State} {w j t l} (h : MemoriesCanonical s) : MemoriesCanonical (tileLand s w j t l) :=
  .after_qPush (.after_spWrite (.foldl h fun _ _ h => .after_spWrite h))

theorem OutCanonical.after_execTileLoad {s : State} (h : MemoriesCanonical s) : OutCanonical (execTileLoad s) := by
  unfold execTileLoad
  split
  · extract_lets
    split
    · refine .ite (.next h) ?_
      split
      · exact .after_answer (.after_engRefused (.frame h))
      · refine .ite (.next h) ?_
        split
        · exact .after_answer (.after_refusedStep h)
        · rename_i e
          have hr := MemoriesCanonical.after_tileRead h _ e
          extract_lets s₁ s₂
          have h₂ : MemoriesCanonical s₂ := .frame (.foldl (.frame hr) fun _ _ h => .after_tileLand h)
          exact .after_answer (.ite (.after_pendOnce h₂) h₂)
    · exact .next (.frame h)
  · exact .next h

/-! Permits (R186, R302). -/

theorem MemoriesCanonical.after_permitForm {s : State} {i q b u go} (h : MemoriesCanonical s)
    (hgo : ∀ x t, MemoriesCanonical t → MemoriesCanonical (go x t)) : MemoriesCanonical (permitForm i s q b u go) := by
  unfold permitForm
  refine .after_clusterOnly h fun _ h => ?_
  dsimp only
  split
  · exact .ite (.ite (.after_raise h) (.after_waitFor h)) (.ite (.after_raise h) (.ite (.after_raise h) (.after_raise h)))
  · exact .ite (.after_raise h) (.ite (.after_raise h) (.ite (.after_raise h) (.after_releaseThen h fun _ h => hgo _ _ h)))

theorem MemoriesCanonical.after_creditBack {s : State} {k j b} (h : MemoriesCanonical s) : MemoriesCanonical (creditBack s k j b) :=
  .after_twEnd (.frame h)

theorem OutCanonical.after_execPermitFree {s : State} {o} (h : MemoriesCanonical s) : OutCanonical (execPermitFree o s) :=
  .after_issue h fun _ => .after_permitForm h fun _ _ h => .frame (.after_creditBack h)

theorem OutCanonical.after_execPermitStore {s : State} {o} (h : MemoriesCanonical s) : OutCanonical (execPermitStore o s) :=
  .after_issue h fun _ => .after_permitForm h fun _ _ h => .frame (.after_pendOnce (.frame h))

theorem OutCanonical.after_execStorePermitAck {s : State} (h : MemoriesCanonical s) : OutCanonical (execStorePermitAck s) := by
  unfold execStorePermitAck
  split
  · dsimp only
    split
    · refine .ite (.next h) (.ite (.after_answer (.after_engRefused (.frame h))) (.ite (.after_answer (.after_engRefused (.frame h))) ?_))
      split
      · exact .after_answer (.after_refusedStep h)
      · rename_i t e
        have ht : MemoriesCanonical t := by
          split_ifs at e
          exact .after_engWriteAll h _ e
        exact .after_answer (.after_creditBack (.ite (.frame ht) (.after_pendOnce (.frame ht))))
    · exact .next (.frame h)
  · exact .next h

/-! Faults of engines (R343, R331, R336, R187, R339). -/

theorem MemoriesCanonical.after_commandRecord {s : State} {i e p} (h : MemoriesCanonical s) : MemoriesCanonical (commandRecord s i e p) :=
  .after_sendPacket h

theorem OutCanonical.after_execEngineFault {s : State} (h : MemoriesCanonical s) : OutCanonical (execEngineFault s) := by
  unfold execEngineFault
  split
  · dsimp only
    split
    · split
      · exact .ite (.next (.frame h)) (.after_answer
          (.after_commandRecord (.after_arrayPass (.after_ceEnd (.frame (.after_engFuture (.frame h)))))))
      · exact .next (.frame h)
    · split
      · exact .ite (.next (.frame h)) (.after_answer (.after_commandRecord (.after_gatherKick (.frame h))))
      · exact .next (.frame h)
    · split
      · exact .ite (.next (.frame h)) (.after_answer (.after_commandRecord (.after_breakPipe (.frame h))))
      · exact .next (.frame h)
    · split
      · exact .after_answer (.after_commandRecord (.after_nbStop (.frame h)))
      · exact .next (.frame h)
    · split
      · exact .after_answer (.after_sendPacket (.frame h))
      · exact .next (.frame h)
    · exact .next (.frame h)
  · exact .next h

/-! Status (R352). -/

theorem OutCanonical.after_execTwstat {s : State} {o} (h : MemoriesCanonical s) : OutCanonical (execTwstat o s) :=
  .after_issue h fun _ => .after_clusterOnly h fun _ h => .frame h

theorem OutCanonical.after_execCestat {s : State} {o} (h : MemoriesCanonical s) : OutCanonical (execCestat o s) :=
  .after_issue h fun _ => .after_clusterOnly h fun _ h => .frame h

/-! Updates (R140 to R142). -/

theorem OutCanonical.after_execSubscriptionUpdateSend {s : State} (h : MemoriesCanonical s) :
    OutCanonical (execSubscriptionUpdateSend s) := by
  unfold execSubscriptionUpdateSend
  split
  · dsimp only
    split
    · exact .next (.frame h)
    · exact .ite (.next (.frame h)) (.ite (.next h) (.next (.frame h)))
  · exact .next h

/-! Notifies (R144). -/

theorem MemoriesCanonical.after_postNotify {s : State} {a e mask resid cvg flags} (h : MemoriesCanonical s) :
    MemoriesCanonical (postNotify s a e mask resid cvg flags) := by
  unfold postNotify
  refine .ite h ?_
  dsimp only
  split <;> exact .frame h

/-! Applying updates (R142). -/

theorem MemoriesCanonical.after_linkMade {s : State} {a e l} (h : MemoriesCanonical s) : MemoriesCanonical (linkMade s a e l) := by
  unfold linkMade
  split
  · exact h
  · exact .frame (.after_spWrite h)

theorem MemoriesCanonical.after_bindDone {s : State} {a e} (h : MemoriesCanonical s) : MemoriesCanonical (bindDone s a e) := by
  unfold bindDone
  split
  · exact h
  · exact .after_updTask (.after_linkMade h)

theorem MemoriesCanonical.after_landBlock {s : State} {a off bad q} (h : MemoriesCanonical s) :
    MemoriesCanonical (landBlock s a off bad q) :=
  .ite (.frame h) (.frame h)

theorem OutCanonical.after_execSubscriptionUpdateApply {s : State} (h : MemoriesCanonical s) :
    OutCanonical (execSubscriptionUpdateApply s) := by
  unfold execSubscriptionUpdateApply
  split
  · refine .ite (.next h) ?_
    split
    · exact .next (.after_atPort h)
    · extract_lets s₁ a x mine s₂ x' s₃ s₄ s₅
      have h₃ : MemoriesCanonical s₃ := .frame (.foldl (.frame h) fun _ _ h => .after_landBlock h)
      have h₄ : MemoriesCanonical s₄ := .ite (.after_bindDone h₃) h₃
      exact .next (.frame (.ite (.frame h) (.after_postNotify h₄)))
  · exact .next h

theorem OutCanonical.after_execSubscriptionAck {s : State} (h : MemoriesCanonical s) : OutCanonical (execSubscriptionAck s) := by
  unfold execSubscriptionAck
  split
  · exact .next (.ite (.frame h) (.frame h))
  · exact .next h

/-! Binding and teardown (R137, R145). -/

theorem MemoriesCanonical.after_subBind {s : State} {a kid nen nch off pub poff len} (h : MemoriesCanonical s) :
    MemoriesCanonical (subBind s a kid nen nch off pub poff len).2 := by
  unfold subBind
  split
  · exact .snd (.frame h)
  · exact .snd h

theorem MemoriesCanonical.after_freePubEntry {s : State} {a i} (h : MemoriesCanonical s) : MemoriesCanonical (freePubEntry s a i) :=
  .after_leaveWays (.frame h)

theorem MemoriesCanonical.after_unsubscribe {s : State} {a i} (h : MemoriesCanonical s) : MemoriesCanonical (unsubscribe s a i) :=
  .after_leaveWays (.frame (.ite (.frame h) (.frame h)))

theorem MemoriesCanonical.after_unpublish {s : State} {a i} (h : MemoriesCanonical s) : MemoriesCanonical (unpublish s a i) :=
  .after_freePubEntry (.frame h)

theorem OutCanonical.after_execSubscriptionTeardown {s : State} (h : MemoriesCanonical s) : OutCanonical (execSubscriptionTeardown s) := by
  unfold execSubscriptionTeardown
  split
  · exact .ite (.ite (.next (.frame h)) (.next (.after_postNotify (.frame h))))
      (.ite (.next (.frame h)) (.next (.after_freePubEntry (.frame h))))
  · exact .next h

/-! Instructions (R285 to R287). -/

theorem OutCanonical.after_execSubscr {s : State} {o} (h : MemoriesCanonical s) : OutCanonical (execSubscr o s) := by
  unfold execSubscr
  refine .after_issue h fun _ => ?_
  refine .ite (.after_raise h) ?_
  refine .ite (.after_raise h) ?_
  refine .ite (.after_raise h) ?_
  refine .ite (.after_raise h) ?_
  split
  · exact .after_raise h
  · exact .after_waitFor (.after_subBind h)

theorem MemoriesCanonical.after_subIndex {s : State} {i n go} (h : MemoriesCanonical s) (hgo : ∀ x, MemoriesCanonical (go x)) :
    MemoriesCanonical (subIndex i s n go) :=
  .ite (.after_raise h) (.ite (.after_raise h) (hgo _))

theorem OutCanonical.after_execUnsub {s : State} {o} (h : MemoriesCanonical s) : OutCanonical (execUnsub o s) :=
  .after_issue h fun _ => .after_subIndex h fun _ => .frame (.after_unsubscribe h)

theorem OutCanonical.after_execSubstat {s : State} {o} (h : MemoriesCanonical s) : OutCanonical (execSubstat o s) :=
  .after_issue h fun _ => .after_subIndex h fun _ => .frame (.after_acquire h)

/-! Scratchpad bytes of an object. -/

theorem MemoriesCanonical.after_spStore {s : State} {a off n v} (h : MemoriesCanonical s) : MemoriesCanonical (spStore s a off n v) :=
  .foldlBy Prod.snd (.snd h) fun _ _ h => .snd (.after_spWrite h)

/-! Convergence records (R61 to R63, R403). -/

theorem MemoriesCanonical.after_recUpdate {s : State} {r kid dU dI dA fl bits} (h : MemoriesCanonical s) :
    MemoriesCanonical (recUpdate s r kid dU dI dA fl bits) :=
  .ite (.after_spWrite h) (.after_sendMsg (.after_spWrite h))

theorem MemoriesCanonical.after_gmuError {s : State} {a r kid cause origin slot piv fid off val} (h : MemoriesCanonical s) :
    MemoriesCanonical (gmuError s a r kid cause origin slot piv fid off val) :=
  .after_sendMsg h

/-! Beliefs (R65, R69). -/

theorem MemoriesCanonical.after_beliefWrite {s : State} {a at_ n v resid cvg} (h : MemoriesCanonical s) :
    MemoriesCanonical (beliefWrite s a at_ n v resid cvg) :=
  .foldl (.frame h) fun _ _ h => .frame h

theorem MemoriesCanonical.after_recompute {s : State} {a off} (h : MemoriesCanonical s) : MemoriesCanonical (recompute s a off).1 :=
  .fst (.after_spWrite (.after_spWrite (.after_beliefWrite h)))

theorem MemoriesCanonical.after_stepGen {s : State} {a off slot} (h : MemoriesCanonical s) : MemoriesCanonical (stepGen s a off slot) :=
  .after_spWrite (.after_spWrite h)

/-! Arrivals (R64, R65). -/

theorem MemoriesCanonical.after_gmuDrop {s : State} {a m kind} (h : MemoriesCanonical s) : MemoriesCanonical (gmuDrop s a m kind) :=
  .after_gmuError (.after_recUpdate h)

theorem MemoriesCanonical.after_gmuApply {s : State} {a m} (h : MemoriesCanonical s) : MemoriesCanonical (gmuApply s a m) :=
  .ite (.after_recUpdate (.after_recompute (.after_stepGen (.after_spStore h))))
    (.after_recUpdate (.after_recUpdate (.after_recompute (.after_stepGen (.after_spStore h)))))

theorem MemoriesCanonical.after_dropArrival {s : State} {a m kind} (h : MemoriesCanonical s) : MemoriesCanonical (dropArrival s a m kind) :=
  .ite (.after_record (.after_gmuDrop h)) (.after_gmuDrop h)

theorem OutCanonical.after_gmuStep {s t : State} {ports homes fin} (hs : MemoriesCanonical s) (ht : MemoriesCanonical t)
    (hfin : ∀ t, MemoriesCanonical t → MemoriesCanonical (fin t)) : OutCanonical (gmuStep s ports homes t fin) := by
  unfold gmuStep
  split
  · exact .next (.after_atPort hs)
  · exact .ite (.after_answer (hfin _ ht)) (.next hs)

theorem OutCanonical.after_execGmuArrive {s : State} (h : MemoriesCanonical s) : OutCanonical (execGmuArrive s) := by
  unfold execGmuArrive
  split
  · split
    · exact .next (.frame h)
    · refine .ite (.next h) ?_
      extract_lets r fin s₁ drop
      have h₁ : MemoriesCanonical s₁ := .frame h
      have hfin (t : State) (h : MemoriesCanonical t) : MemoriesCanonical (fin t) := .after_serve (.ite h (.after_pendOnce h))
      have hdrop (k : Nat) : OutCanonical (drop k) := .after_gmuStep h (.after_dropArrival h₁) hfin
      split
      · exact hdrop _
      · exact .ite (.after_answer (hfin _ (.frame h₁))) (.ite (hdrop _) (.after_gmuStep h (.after_gmuApply h₁) hfin))
  · exact .next h

/-! The shared checks of the group (R354). -/

theorem OutCanonical.after_gmuIssue {s : State} {i go} (h : MemoriesCanonical s)
    (hgo : ∀ x t, MemoriesCanonical t → MemoriesCanonical (go x t)) : OutCanonical (gmuIssue i s go) :=
  .after_issue h fun _ => .ite (.after_waitFor h) (hgo _ _ h)

theorem MemoriesCanonical.after_objectForm {s : State} {i va g noWin bad4 bad5 rsv go} (h : MemoriesCanonical s)
    (hgo : ∀ x, MemoriesCanonical (go x)) : MemoriesCanonical (objectForm i s va g noWin bad4 bad5 rsv go) := by
  unfold objectForm
  dsimp only
  split
  · exact .after_raise h
  · split
    · exact h
    · exact .ite (.after_raise h) (hgo _)

theorem MemoriesCanonical.after_orPoison {s go : State} {i va l} (hs : MemoriesCanonical s) (hgo : MemoriesCanonical go) :
    MemoriesCanonical (orPoison i s va l go) :=
  .ite (.after_faultCur hs) hgo

theorem MemoriesCanonical.after_gmuOp {s t : State} {ports homes} (hs : MemoriesCanonical s) (ht : MemoriesCanonical t) :
    MemoriesCanonical (gmuOp s ports homes t) := by
  unfold gmuOp
  split
  · exact .after_waitPort hs
  · exact .ite ht (.after_waitFor hs)

/-! Creating objects (R356, R357). -/

theorem OutCanonical.after_execGvar {s : State} {o} (h : MemoriesCanonical s) : OutCanonical (execGvar o s) := by
  unfold execGvar
  refine .after_gmuIssue h fun _ _ h => ?_
  dsimp only
  split
  · exact .after_raise h
  · exact .after_orPoison h (.ite (.after_waitFor h)
      (.ite (.frame h) (.after_gmuOp h
      (.frame (.after_recUpdate (.frame (.foldl (.after_spStore (.after_spStore (.after_spWrite h))) fun _ _ h => .after_spStore h)))))))

theorem OutCanonical.after_execGfac {s : State} {o} (h : MemoriesCanonical s) : OutCanonical (execGfac o s) := by
  unfold execGfac
  refine .after_gmuIssue h fun _ s h => ?_
  extract_lets i va b g src cvg arity dim dims dj n ext a off form hdr s₁ s₂ s₃
  have h₂ : MemoriesCanonical s₂ := .after_spStore (.after_spWrite h)
  split
  · exact .after_raise h
  · exact .after_orPoison h (.ite (.frame h) (.ite (.after_waitPort h) (.frame (.frame h₂))))

/-! Linking (R358). -/

theorem OutCanonical.after_execGlink {s : State} {o} (h : MemoriesCanonical s) : OutCanonical (execGlink o s) :=
  .after_gmuIssue h fun _ _ h => .after_objectForm h fun _ => .after_orPoison h
    (.ite (.after_raise h) (.ite (.after_raise h) (.frame (.after_waitFor h))))

theorem MemoriesCanonical.after_bindResult {s : State} {r v} (h : MemoriesCanonical s) : MemoriesCanonical (bindResult s r v) :=
  .after_updTask h

theorem OutCanonical.after_execGmuBind {s : State} (h : MemoriesCanonical s) : OutCanonical (execGmuBind s) := by
  unfold execGmuBind
  split
  · refine .ite (.next h) ?_
    dsimp only
    split
    · exact .next (.after_atPort h)
    · split
      · exact .next (.frame h)
      · split
        · exact .next (.after_bindResult (.frame h))
        · refine .ite (.after_answer (.after_failTask (.frame h))) ?_
          split
          · exact .after_answer (.after_failTask (.frame h))
          · exact .after_answer (.after_updTask (.after_subBind (.after_spStore (.after_spWrite (.frame h)))))
  · exact .next h

/-! Building a message (R66, R359). -/

theorem OutCanonical.after_execGfmsg {s : State} {o} (h : MemoriesCanonical s) : OutCanonical (execGfmsg o s) := by
  unfold execGfmsg
  refine .after_gmuIssue h fun _ _ h => ?_
  refine .after_objectForm h fun _ => ?_
  refine .ite (.after_raise h) ?_
  refine .after_gmuOp h ?_
  refine .ite (.frame (.after_record (.after_gmuError (.after_recUpdate h)))) ?_
  split
  · exact .frame (.after_gmuError (.after_recUpdate (.after_spWrite h)))
  · exact .frame (.after_sendMsg (.after_recUpdate (.after_spWrite (.after_spStore h))))

/-! Parameters (R360, R361, R364). -/

theorem OutCanonical.after_execGdamp {s : State} {o} (h : MemoriesCanonical s) : OutCanonical (execGdamp o s) :=
  .after_gmuIssue h fun _ _ h => .after_objectForm h fun _ => .ite (.after_raise h) (.ite (.after_waitPort h) (.frame (.after_spWrite h)))

theorem OutCanonical.after_execGtol {s : State} {o} (h : MemoriesCanonical s) : OutCanonical (execGtol o s) :=
  .after_gmuIssue h fun _ _ h => .after_objectForm h fun _ => .ite (.after_raise h)
    (.after_orPoison h (.ite (.after_waitFor h)
    (.after_gmuOp h (.frame (.ite (.after_spWrite (.after_spWrite h)) (.after_recUpdate (.after_spWrite (.after_spWrite h))))))))

theorem OutCanonical.after_execGrelin {s : State} {o} (h : MemoriesCanonical s) : OutCanonical (execGrelin o s) :=
  .after_gmuIssue h fun _ _ h => .after_objectForm h fun _ => .after_orPoison h
    (.ite (.after_waitPort h) (.frame (.after_spWrite (.after_spStore h))))

theorem OutCanonical.after_execGcvg {s : State} {o} (h : MemoriesCanonical s) : OutCanonical (execGcvg o s) := by
  unfold execGcvg
  refine .after_gmuIssue h fun _ _ h => ?_
  dsimp only
  split
  · exact .after_raise h
  · exact .after_orPoison h (.after_gmuOp h (.frame (.after_recUpdate (.after_spWrite h))))

/-! Reading a belief (R74, R362). -/

theorem OutCanonical.after_execGread {s : State} {o} (h : MemoriesCanonical s) : OutCanonical (execGread o s) :=
  .after_gmuIssue h fun _ _ h => .after_objectForm h fun _ => .ite (.after_raise h)
    (.ite (.after_raise h) (.ite (.after_waitFor h) (.after_orPoison h (.ite (.frame h) (.frame h)))))

/-! Snapshots (R72, R73, R363). -/

theorem MemoriesCanonical.after_snapWrite {s : State} {x dst cap l r b} (h : MemoriesCanonical s) :
    MemoriesCanonical (snapWrite s x dst cap l r b).1 := by
  induction l generalizing s r b with
  | nil => exact h
  | cons q t ih =>
    unfold snapWrite
    dsimp only
    refine .ite_fst h (.ite_fst h ?_)
    split
    · exact h
    · split
      · exact h
      · rename_i e
        exact ih (.after_engWrite h _ e)

theorem MemoriesCanonical.after_snapDone {s : State} {i d reg trunc faulted bytes} (h : MemoriesCanonical s) :
    MemoriesCanonical (snapDone i s d reg trunc faulted bytes) :=
  .frame (.after_release (.after_snapEnd h))

theorem MemoriesCanonical.after_snapRun {s : State} {i d q reg dst cap} (h : MemoriesCanonical s) :
    MemoriesCanonical (snapRun i s d q reg dst cap) := by
  unfold snapRun
  split
  · exact .after_waitPort h
  · refine .ite (.after_waitFor (.foldl (.frame h) fun _ _ h => .after_gmuFreeze h)) ?_
    refine .ite (.after_snapDone h) ?_
    refine .ite (.after_waitFor h) ?_
    dsimp only
    split
    · rename_i e1
      exact .after_snapDone (.of_fst e1 (.after_snapWrite h))
    · rename_i e1
      have he1 : MemoriesCanonical _ := .of_fst e1 (.after_snapWrite h)
      split
      · exact .after_snapDone (.after_sendPacket (.frame he1))
      · exact .after_waitFor (.after_engRefused (.frame he1))

theorem OutCanonical.after_execGsnap {s : State} {o} (h : MemoriesCanonical s) : OutCanonical (execGsnap o s) := by
  unfold execGsnap
  refine .after_gmuIssue h fun _ _ h => ?_
  refine .ite (.after_raise h) ?_
  refine .ite (.after_raise h) ?_
  split
  · exact .after_raise h
  · dsimp only
    split
    · exact .ite (.after_snapRun (.ite h (.frame h))) (.after_waitFor (.ite h (.frame h)))
    · exact .after_waitFor (.ite h (.frame h))

/-! Freeing (R365). -/

theorem MemoriesCanonical.after_freeMirrors {s : State} {a g} (h : MemoriesCanonical s) : MemoriesCanonical (freeMirrors s a g) :=
  .foldl h fun _ _ h => .ite (.after_unsubscribe h) h

theorem OutCanonical.after_execGfree {s : State} {o} (h : MemoriesCanonical s) : OutCanonical (execGfree o s) := by
  refine .after_gmuIssue h fun c s h => .after_objectForm h fun g => .after_orPoison h (.ite (.after_waitFor h) (.ite ?_ ?_))
  · extract_lets vf r s₁ s₂
    have h₂ : MemoriesCanonical s₂ := .frame (.after_spWrite h)
    exact .after_gmuOp h (.frame (.after_leaveWays (.ite (.after_recUpdate h₂) h₂)))
  · extract_lets fid js reqs s₁ s₂ s₃
    have h₃ : MemoriesCanonical s₃ := .foldl (.after_leaveWays (.frame (.after_freeMirrors h))) fun _ _ h => .frame h
    exact .ite (.frame h₃) (.after_waitFor h₃)

theorem MemoriesCanonical.after_unbindAck {s : State} {t fl} (h : MemoriesCanonical s) : MemoriesCanonical (unbindAck s t fl) :=
  .after_updTask h

theorem OutCanonical.after_execGmuUnbind {s : State} (h : MemoriesCanonical s) : OutCanonical (execGmuUnbind s) := by
  unfold execGmuUnbind
  split
  · refine .ite (.next h) ?_
    refine .ite (.next (.frame h)) ?_
    split
    · exact .next (.after_unbindAck (.frame h))
    · exact .ite (.next (.after_unbindAck (.frame h)))
        (.after_gmuStep h (.after_recUpdate (.after_recompute (.after_stepGen (.after_spStore (.after_spWrite (.frame h)))))) fun _ h =>
        .after_unbindAck h)
  · exact .next h

/-! The form of the privileged groups (R367). -/

theorem MemoriesCanonical.after_fenced {s : State} {go} (h : MemoriesCanonical s)
    (hgo : ∀ t, MemoriesCanonical t → MemoriesCanonical (go t)) : MemoriesCanonical (fenced s go) :=
  .after_releaseThen h fun _ h => hgo _ (.after_acquire h)

theorem MemoriesCanonical.after_fenceAfter {s : State} {go} (h : MemoriesCanonical s)
    (hgo : ∀ t, MemoriesCanonical t → MemoriesCanonical (go t)) : MemoriesCanonical (fenceAfter s go) :=
  .ite (.after_waitFor h) (hgo _ (.after_acquire (.after_release h)))

theorem MemoriesCanonical.after_handlerHalt {s : State} (h : MemoriesCanonical s) : MemoriesCanonical (handlerHalt s) :=
  .ite (.after_waitFor h) (.after_endCtx (.after_wcbDrain h))

theorem MemoriesCanonical.after_endHandler {s : State} {go} (h : MemoriesCanonical s)
    (hgo : ∀ t, MemoriesCanonical t → MemoriesCanonical (go t)) : MemoriesCanonical (endHandler s go) :=
  .ite (.after_handlerHalt h) (.after_fenced h fun _ h => .after_handlerHalt (hgo _ h))

/-! RESUME, KILLT (R214, R222, R370). -/

theorem MemoriesCanonical.after_resumeTask {s : State} {t pc} (h : MemoriesCanonical s) : MemoriesCanonical (resumeTask s t pc) := by
  unfold resumeTask
  split
  · exact h
  · exact .ite (.frame h) (.ite (.frame h) h)

theorem OutCanonical.after_execResume {s : State} {o} (h : MemoriesCanonical s) : OutCanonical (execResume o s) := by
  unfold execResume
  refine .after_issue h fun _ => ?_
  dsimp only
  split
  · exact .after_raise h
  · exact .ite (.after_raise h) (.after_endHandler h fun _ h => .after_resumeTask h)

theorem OutCanonical.after_execKillt {s : State} (h : MemoriesCanonical s) : OutCanonical (execKillt s) := by
  unfold execKillt
  refine .after_issue h fun _ => ?_
  split
  · exact .after_raise h
  · exact .after_endHandler h fun _ h => .after_killBound h

/-! KILLK (R196, R370). -/

theorem MemoriesCanonical.after_killLaunches {s : State} {kid} (h : MemoriesCanonical s) : MemoriesCanonical (killLaunches s kid) :=
  .foldl h fun _ _ h => .foldl (.frame h) fun _ _ h => .after_launchResolve h

theorem MemoriesCanonical.after_killRecords {s : State} {a kid} (h : MemoriesCanonical s) : MemoriesCanonical (killRecords s a kid) := by
  unfold killRecords
  refine .foldl (.frame h) fun _ _ h => ?_
  dsimp only
  split
  · refine .after_launchEnd ?_
    split
    · exact .after_joinDec h
    · exact h
  · split
    · exact .after_joinDec h
    · exact h

theorem MemoriesCanonical.after_nextOfFlow {s : State} {a e} (h : MemoriesCanonical s) : MemoriesCanonical (nextOfFlow s a e) := by
  unfold nextOfFlow
  split
  · exact h
  · exact .ite h (.ite (.after_resendEntry h) (.frame h))

theorem MemoriesCanonical.after_killHeld {s : State} {a kid} (h : MemoriesCanonical s) : MemoriesCanonical (killHeld s a kid) :=
  .foldl (.frame h) fun _ _ h => .ite (.after_pendOnce (.ite (.after_nextOfFlow h) h)) (.ite (.after_nextOfFlow h) h)

theorem MemoriesCanonical.after_killArrivals {s : State} {a kid} (h : MemoriesCanonical s) : MemoriesCanonical (killArrivals s a kid) :=
  .foldl h fun _ _ h => .frame h

theorem MemoriesCanonical.after_killSubs {s : State} {a kid} (h : MemoriesCanonical s) : MemoriesCanonical (killSubs s a kid) :=
  .foldl (.frame h) fun _ _ h => .ite (.after_unsubscribe (.ite (.after_unpublish h) h)) (.ite (.after_unpublish h) h)

theorem MemoriesCanonical.after_killGmu {s : State} {a kid} (h : MemoriesCanonical s) : MemoriesCanonical (killGmu s a kid) :=
  .after_leaveWays (.frame h)

theorem MemoriesCanonical.after_killCore {s : State} {a kid} (h : MemoriesCanonical s) : MemoriesCanonical (killCore s a kid) :=
  .after_serve (.frame (.after_killGmu (.after_killSubs (.after_killArrivals (.after_killHeld (.after_killRecords h))))))

theorem MemoriesCanonical.after_killKernel {s : State} {kid} (h : MemoriesCanonical s) : MemoriesCanonical (killKernel s kid) :=
  .frame (.foldl (.frame (.after_stopCommands (.foldl (.after_killLaunches h) fun _ _ h => .after_killTask h))) fun _ _ h => .after_killCore
    h)

theorem OutCanonical.after_execKillk {s : State} {o} (h : MemoriesCanonical s) : OutCanonical (execKillk o s) :=
  .after_issue h fun _ => .ite (.after_handlerHalt h)
    (.ite (.after_raise h) (.ite (.after_raise h)
    (.ite (.after_raise h) (.ite (.after_endHandler h fun _ h => .after_killKernel h)
    (.after_fenced h fun _ h => .ite (.frame (.after_killKernel h)) (.after_killKernel h))))))

/-! The debug window (R215, R371). -/

theorem MemoriesCanonical.after_dropLanding {s : State} {a k vec r} (h : MemoriesCanonical s) :
    MemoriesCanonical (dropLanding s a k vec r) :=
  .ite (.frame h) (.frame h)

theorem MemoriesCanonical.after_dwWrite {s : State} {a k x a4} (h : MemoriesCanonical s) :
    ∀ y, dwWrite s a k x a4 = .ok y → MemoriesCanonical y := by
  unfold dwWrite
  split
  · split
    · exact fun | _, rfl => .frame (.after_dropLanding h)
    · exact fun _ e => nomatch e
  · split
    · exact fun | _, rfl => .frame (.after_dropLanding h)
    · exact fun _ e => nomatch e
  · split
    · exact fun _ e => nomatch e
    · exact fun | _, rfl => .frame h
  · exact fun | _, rfl => .frame h
  · exact fun | _, rfl => .frame h
  · exact fun _ e => nomatch e
  · exact fun _ e => nomatch e
  · exact fun _ e => nomatch e
  · exact fun _ e => nomatch e

theorem MemoriesCanonical.after_dwMem {s : State} {i a k va kind fault2 go} (h : MemoriesCanonical s)
    (hfault2 : ∀ t, MemoriesCanonical t → MemoriesCanonical (fault2 t)) (hgo : ∀ x y t, MemoriesCanonical t → MemoriesCanonical (go x y t))
      :
    MemoriesCanonical (dwMem i s a k va kind fault2 go) := by
  unfold dwMem
  dsimp only
  split
  · exact hfault2 _ h
  · exact .after_refuse h
  · split
    · exact .after_holdOn h
    · exact hgo _ _ _ h

theorem MemoriesCanonical.after_dwForm {s : State} {i sel gone go} (h : MemoriesCanonical s)
    (hgone : ∀ t, MemoriesCanonical t → MemoriesCanonical (gone t)) (hgo : ∀ x y z t, MemoriesCanonical t → MemoriesCanonical (go x y z t))
      :
    MemoriesCanonical (dwForm i s sel gone go) := by
  unfold dwForm
  split
  · exact .after_raise h
  · refine .ite (.after_raise h) ?_
    refine .after_fenced h fun _ h => ?_
    split
    · exact hgone _ h
    · exact .ite (hgone _ h) (hgo _ _ _ _ h)

theorem OutCanonical.after_execDwrd {s : State} {o} (h : MemoriesCanonical s) : OutCanonical (execDwrd o s) := by
  unfold execDwrd
  refine .after_issue h fun _ => ?_
  refine .after_dwForm h (fun _ h => .frame h) fun _ _ _ _ h => ?_
  refine .ite (.after_dwMem h (fun _ h => .frame h) fun _ _ _ h => .frame (.after_readPath h)) ?_
  split
  · exact .after_raise h
  · exact .frame h

theorem OutCanonical.after_execDwwr {s : State} {o} (h : MemoriesCanonical s) : OutCanonical (execDwwr o s) := by
  unfold execDwwr
  refine .after_issue h fun _ => ?_
  refine .ite (.after_fenceAfter h fun _ h => .frame h) ?_
  refine .after_dwForm h (fun _ h => .frame h) fun _ _ _ _ h => ?_
  refine .ite (.after_dwMem h (fun _ h => .frame h) fun _ _ _ h => .after_fenceAfter (.after_writePath h) fun _ h => .frame h) ?_
  split
  · exact .after_raise h
  · rename_i e
    exact .frame (MemoriesCanonical.after_dwWrite h _ e)

/-! TRAP (R375). -/

theorem OutCanonical.after_execTrap {s : State} {o} (h : MemoriesCanonical s) : OutCanonical (execTrap o s) :=
  .after_issue h fun _ => .ite (.after_raise h) (.after_fenced h fun _ h => .frame h)

/-! Halt groups (R223, R379). -/

theorem MemoriesCanonical.after_hgForm {s : State} {i x go} (h : MemoriesCanonical s)
    (hgo : ∀ x y t, MemoriesCanonical t → MemoriesCanonical (go x y t)) : MemoriesCanonical (hgForm i s x go) :=
  .ite (.after_raise h) (.after_fenced h fun _ h => hgo _ _ _ h)

theorem OutCanonical.after_execHgtrig {s : State} {o} (h : MemoriesCanonical s) : OutCanonical (execHgtrig o s) :=
  .after_issue h fun _ => .after_hgForm h fun _ _ _ h => .after_haltGroup (.frame h)

theorem OutCanonical.after_execHgrel {s : State} {o} (h : MemoriesCanonical s) : OutCanonical (execHgrel o s) :=
  .after_issue h fun _ => .after_hgForm h fun _ _ _ h => .after_haltGroup (.frame h)

theorem OutCanonical.after_execHgstat {s : State} {o} (h : MemoriesCanonical s) : OutCanonical (execHgstat o s) :=
  .after_issue h fun _ => .after_hgForm h fun _ _ _ h => .frame h

/-! Reading. -/

theorem MemoriesCanonical.after_sysRead {s : State} {a c n x sub} (h : MemoriesCanonical s) :
    MemoriesCanonical (sysRead s a c n x sub).2 := by
  unfold sysRead
  refine .ite_snd (.snd h) ?_
  refine .ite_snd ?_ (.snd h)
  split
  · exact .snd h
  · exact .frame h

theorem OutCanonical.after_execSysrd {s : State} {o} (h : MemoriesCanonical s) : OutCanonical (execSysrd o s) := by
  unfold execSysrd
  refine .after_issue h fun _ => ?_
  dsimp only
  split
  · exact .after_raise h
  · exact .ite (.after_waitFor h) (.after_fenced h fun _ h => .frame (.after_sysRead h))

/-! Writing. -/

theorem MemoriesCanonical.after_hgmWrite {s : State} {x v} (h : MemoriesCanonical s) : MemoriesCanonical (hgmWrite s x v) :=
  .ite (.frame h) (.ite (.frame h) (.frame h))

theorem inl_canonical {s : State} {e : State ⊕ Ev} (h : MemoriesCanonical s) (he : e = .inl s) : ∀ t, e = .inl t → MemoriesCanonical t := by
  subst he
  exact fun | _, rfl => h

theorem ite_inl_canonical {p : Prop} {_ : Decidable p} {x y : State ⊕ Ev} (hx : ∀ t, x = .inl t → MemoriesCanonical t)
    (hy : ∀ t, y = .inl t → MemoriesCanonical t) : ∀ t, (if p then x else y) = .inl t → MemoriesCanonical t := by
  split <;> assumption

theorem MemoriesCanonical.after_sysNow {s : State} {r} (h : MemoriesCanonical s) : ∀ y, sysNow s r = .inl y → MemoriesCanonical y := by
  have hi {e : Ev} : ∀ t, (.inr e : State ⊕ Ev) = .inl t → MemoriesCanonical t := fun _ e => nomatch e
  unfold sysNow
  dsimp only
  exact ite_inl_canonical (inl_canonical (.frame h) rfl) <| ite_inl_canonical (inl_canonical (.frame h) rfl) <|
    ite_inl_canonical (inl_canonical (.frame h) rfl) <| ite_inl_canonical (inl_canonical (.frame h) rfl) <|
    ite_inl_canonical (inl_canonical (.frame h) rfl) <| ite_inl_canonical (inl_canonical (.after_hgmWrite h) rfl) <|
    ite_inl_canonical (inl_canonical (.frame h) rfl) <| ite_inl_canonical hi <| ite_inl_canonical hi <| ite_inl_canonical hi <|
    ite_inl_canonical hi <| ite_inl_canonical hi <| ite_inl_canonical hi <| ite_inl_canonical hi <| ite_inl_canonical hi <|
    ite_inl_canonical hi hi

theorem OutCanonical.after_execSyswr {s : State} {o} (h : MemoriesCanonical s) : OutCanonical (execSyswr o s) := by
  unfold execSyswr
  refine .after_issue h fun _ => ?_
  dsimp only
  split
  · exact .after_raise h
  · split
    · exact .after_raise h
    · refine .after_fenced h fun _ h => ?_
      split
      · rename_i e2
        exact .frame (MemoriesCanonical.after_sysNow h _ e2)
      · exact .after_waitFor (.frame h)

/-! The writes that other agents perform. -/

theorem OutCanonical.after_sysPerform {s : State} {r busy go ask} (h : MemoriesCanonical s)
    (hgo : ∀ t, MemoriesCanonical t → MemoriesCanonical (go t)) (hask : ∀ t, MemoriesCanonical t → MemoriesCanonical (ask t)) :
    OutCanonical (sysPerform s r busy go ask) := by
  unfold sysPerform
  dsimp only
  split
  · exact .next (.frame h)
  · split
    · exact .after_answer (.after_takeFault (.frame h))
    · exact .ite (.next (hask _ h)) (.after_answer (.frame (hgo _ (.frame h))))

theorem MemoriesCanonical.after_purge {s : State} {p} (h : MemoriesCanonical s) : MemoriesCanonical (purge s p) :=
  .frame (.foldl (.foldl (.foldl h fun _ _ h => .foldl h fun _ _ h => .after_wcbEvict h) fun _ _ h => .foldl h fun _ _ h => .after_l1Evict h)
    fun _ _ h => .foldl h fun _ _ h => .after_l2Evict h)

theorem MemoriesCanonical.after_dspResize {s : State} {d n} (h : MemoriesCanonical s) : MemoriesCanonical (dspResize s d n) :=
  .frame (.foldl h fun _ _ h => .after_l2Evict h)

theorem OutCanonical.after_execDspcfgWrite {s : State} (h : MemoriesCanonical s) : OutCanonical (execDspcfgWrite s) := by
  unfold execDspcfgWrite
  split
  · exact .after_sysPerform h (fun _ h => .after_dspResize h) fun _ h => h
  · exact .next h

theorem OutCanonical.after_execSksizeWrite {s : State} (h : MemoriesCanonical s) : OutCanonical (execSksizeWrite s) := by
  unfold execSksizeWrite
  split
  · exact .after_sysPerform h (fun _ h => .frame h) fun _ h => h
  · exact .next h

theorem OutCanonical.after_execThbootWrite {s : State} (h : MemoriesCanonical s) : OutCanonical (execThbootWrite s) := by
  unfold execThbootWrite
  split
  · exact .after_sysPerform h (fun _ h => .ite h (.frame h)) fun _ h => h
  · exact .next h

theorem MemoriesCanonical.after_zeroFrame {s : State} {pa} (h : MemoriesCanonical s) : MemoriesCanonical (zeroFrame s pa) :=
  .frame (.after_markDirty (.foldl h fun _ _ h => .after_physPut h))

theorem MemoriesCanonical.after_fteSet {s : State} {pa v} (h : MemoriesCanonical s) : MemoriesCanonical (fteSet s pa v) :=
  .after_physPutNat (.ite (.frame (.ite (.after_zeroFrame (.ite (.after_purge h) h)) (.ite (.after_purge h) h)))
    (.ite (.after_zeroFrame (.ite (.after_purge h) h)) (.ite (.after_purge h) h)))

theorem MemoriesCanonical.after_askPages {s : State} {x l} (h : MemoriesCanonical s) : MemoriesCanonical (askPages s x l) :=
  .foldl h fun _ _ h => .after_askOwn h

theorem OutCanonical.after_execFteWrite {s : State} (h : MemoriesCanonical s) : OutCanonical (execFteWrite s) := by
  unfold execFteWrite
  split
  · refine .after_sysPerform h (fun _ h => ?_) (fun _ h => .after_askPages h)
    split
    · exact .after_fteSet h
    · exact h
  · exact .next h

theorem OutCanonical.after_execKtWrite {s : State} (h : MemoriesCanonical s) : OutCanonical (execKtWrite s) := by
  unfold execKtWrite
  split
  · exact .after_sysPerform h (fun _ h => .frame h) fun _ h => h
  · exact .next h

theorem OutCanonical.after_execWsetWrite {s : State} (h : MemoriesCanonical s) : OutCanonical (execWsetWrite s) := by
  unfold execWsetWrite
  split
  · exact .after_sysPerform h (fun _ h => .frame h) fun _ h => h
  · exact .next h

theorem OutCanonical.after_execWpWrite {s : State} (h : MemoriesCanonical s) : OutCanonical (execWpWrite s) := by
  unfold execWpWrite
  split
  · exact .after_sysPerform h (fun _ h => .frame h) fun _ h => h
  · exact .next h

theorem OutCanonical.after_execMrgnWrite {s : State} (h : MemoriesCanonical s) : OutCanonical (execMrgnWrite s) := by
  unfold execMrgnWrite
  split
  · exact .after_sysPerform h (fun _ h => .frame (.after_purge h)) fun _ h => h
  · exact .next h

theorem OutCanonical.after_execTraptWrite {s : State} (h : MemoriesCanonical s) : OutCanonical (execTraptWrite s) := by
  unfold execTraptWrite
  split
  · exact .after_sysPerform h (fun _ h => .frame h) fun _ h => h
  · exact .next h

/-! World maps (R188, R190). -/

theorem MemoriesCanonical.after_scrubCore {s : State} {a} (h : MemoriesCanonical s) : MemoriesCanonical (scrubCore s a) :=
  .frame (.ite h (.after_wcbDrain h))

theorem MemoriesCanonical.after_scrubClu {s : State} {k} (h : MemoriesCanonical s) : MemoriesCanonical (scrubClu s k) :=
  .frame (.foldl (.foldl h fun _ _ h => .after_scrubCore h) fun _ _ h => .ite (.after_l1Evict h) (.after_l2Evict (.after_l1Evict h)))

theorem MemoriesCanonical.after_worldScrub {s : State} {r} (h : MemoriesCanonical s) : MemoriesCanonical (worldScrub s r) :=
  .foldl h fun _ _ h => .ite (.after_scrubClu h) (.ite (.frame h) (.ite (.after_scrubCore h) h))

theorem OutCanonical.after_execWorldMapWrite {s : State} (h : MemoriesCanonical s) : OutCanonical (execWorldMapWrite s) := by
  unfold execWorldMapWrite
  split
  · rename_i r _
    refine .after_sysPerform h (fun s h => ?_) fun _ h => h
    have hw : MemoriesCanonical (worldScrub s r) := .after_worldScrub h
    exact .ite (.frame hw) (.ite (.frame hw) (.ite (.frame hw) (.frame hw)))
  · exact .next h

/-! MEXT, TLBSYNC (R373, R374). -/

theorem OutCanonical.after_execMext {s : State} {o} (h : MemoriesCanonical s) : OutCanonical (execMext o s) := by
  unfold execMext
  refine .after_issue h fun _ => ?_
  refine .ite (.after_raise h) ?_
  split
  · exact .after_refuse h
  · exact .ite (.after_raise h) (.ite (.after_raise h) (.after_access h fun _ => .after_fenced h fun _ h => .frame (.after_readPath h)))

theorem OutCanonical.after_execTlbsync {s : State} {o} (h : MemoriesCanonical s) : OutCanonical (execTlbsync o s) :=
  .after_issue h fun _ => .ite (.after_raise h) (.ite (.after_raise h) (.ite (.after_raise h) (.after_fenced h fun _ h => .frame h)))

/-! The units of a set (R219). -/

theorem MemoriesCanonical.after_stopBegin {s : State} {key v l} (h : MemoriesCanonical s) : MemoriesCanonical (stopBegin s key v l) :=
  .foldl (.foldl (.frame h) fun _ _ h => .frame h) fun _ _ h => .frame h

/-! PREEMPT (R376). -/

theorem MemoriesCanonical.after_areaAccess {s : State} {i va k bad go} (h : MemoriesCanonical s) (hgo : ∀ x, MemoriesCanonical (go x)) :
    MemoriesCanonical (areaAccess i s va k bad go) := by
  unfold areaAccess
  refine .ite (.after_raise h) ?_
  refine .ite (.after_raise h) ?_
  split
  · exact .after_faultCur h
  · exact .ite (.after_raise h) (.after_access h fun _ => hgo _)

theorem MemoriesCanonical.after_areaFill {s : State} {va v} (h : MemoriesCanonical s) : MemoriesCanonical (areaFill s va v) := by
  unfold areaFill
  refine .foldl h fun _ _ h => ?_
  split
  · exact .after_homeWrite (.frame h)
  · exact h

theorem MemoriesCanonical.after_preemptNew {s : State} {o i key set} (h : MemoriesCanonical s) :
    MemoriesCanonical (execPreempt.preemptNew o i s key set) := by
  unfold execPreempt.preemptNew
  refine .ite (.frame h) ?_
  split
  · exact .after_refuse (.frame h)
  · exact .after_waitFor (.after_stopBegin (.frame h))

theorem OutCanonical.after_execPreempt {s : State} {o} (h : MemoriesCanonical s) : OutCanonical (execPreempt o s) := by
  unfold execPreempt
  refine .after_issue h fun _ => ?_
  refine .after_areaAccess h fun _ => ?_
  split
  · exact h
  · refine .after_fenced h fun _ h => ?_
    split
    · refine .ite ?_ (.ite (.after_waitFor h) (.after_preemptNew h))
      refine .ite ?_ (.after_waitFor h)
      split
      · exact .after_refuse h
      · exact .frame (.after_areaFill h)
    · exact .after_preemptNew h

/-! Acknowledgements (R219, R220). -/

theorem MemoriesCanonical.after_ctxSave {s : State} {a k} (h : MemoriesCanonical s) : MemoriesCanonical (ctxSave s a k).1 :=
  .fst (.after_serve (.frame (.ite (.frame (.after_landAll h)) (.frame (.after_landAll h)))))

theorem MemoriesCanonical.after_matrixSave {s : State} {v k} (h : MemoriesCanonical s) : MemoriesCanonical (matrixSave s v k).1 := by
  unfold matrixSave
  dsimp only
  have hs {p : Prop} {_ : Decidable p} : MemoriesCanonical (if p then (mxActive s k).getD s else s) := .ite (.getD h (.after_mxActive h)) h
  split
  · exact .ite_fst (.frame hs) (.after_leaseDrop (.frame hs))
  · exact .frame hs

theorem MemoriesCanonical.after_copySave {s : State} {v k} (h : MemoriesCanonical s) : MemoriesCanonical (copySave s v k).1 :=
  .fst (.after_ceKick (.frame h))

theorem MemoriesCanonical.after_gatherSave {s : State} {v d sl} (h : MemoriesCanonical s) : MemoriesCanonical (gatherSave s v d sl).1 :=
  .fst (.after_gatherKick (.frame h))

theorem MemoriesCanonical.after_engSave {s : State} {v e} (h : MemoriesCanonical s) : MemoriesCanonical (engSave s v e).1 := by
  unfold engSave
  dsimp only
  split
  · exact .after_matrixSave (.frame h)
  · exact .after_copySave (.frame h)
  · exact .after_gatherSave (.frame h)
  · exact .ite_fst (.frame h) (.fst (.frame h))
  · exact .fst (.frame h)
  · exact .fst (.frame h)
  · exact .fst (.frame h)
  · exact .fst (.frame h)

theorem MemoriesCanonical.after_unitStop {s : State} {v u} (h : MemoriesCanonical s) :
    ∀ y, unitStop s v u = some y → MemoriesCanonical y.1 := by
  unfold unitStop
  dsimp only
  split
  · split
    · exact fun | _, rfl => .fst h
    · split
      · exact fun | _, rfl => .fst h
      · split
        · exact fun _ e => nomatch e
        · exact fun | _, rfl => .fst (.after_ctxSave h)
  · split
    · exact fun _ e => nomatch e
    · exact fun | _, rfl => .after_engSave h
  · split
    · exact fun _ e => nomatch e
    · split
      · exact fun | _, rfl => .fst h
      · split
        · exact fun _ e => nomatch e
        · split
          · exact fun _ e => nomatch e
          · exact fun | _, rfl => .fst (.frame h)

theorem OutCanonical.after_execPreemptAck {s : State} (h : MemoriesCanonical s) : OutCanonical (execPreemptAck s) := by
  unfold execPreemptAck
  split
  · split
    · exact .next (.frame h)
    · split
      · exact .next h
      · rename_i e2
        exact .after_answer (.frame (.frame (MemoriesCanonical.after_unitStop h _ e2)))
  · exact .next h

/-! RESTORE (R376, R222). -/

theorem MemoriesCanonical.after_ctxRestore {s : State} {x} (h : MemoriesCanonical s) :
    ∀ y, ctxRestore s x = some y → MemoriesCanonical y := by
  unfold ctxRestore
  split
  · exact fun | _, rfl => h
  · dsimp only
    split
    · exact fun | _, rfl => h
    · split
      · exact fun _ e => nomatch e
      · rintro _ ⟨⟩
        split
        · refine .ite ?_ ?_
          · refine .frame ?_
            split
            · exact .frame h
            · exact h
          · refine .after_pendOnce ?_
            refine .frame ?_
            split
            · exact .frame h
            · exact h
        · refine .frame ?_
          split
          · exact .frame h
          · exact h

theorem MemoriesCanonical.after_ctxsRestore {s : State} {l} (h : MemoriesCanonical s) :
    ∀ y, ctxsRestore s l = some y → MemoriesCanonical y := by
  induction l generalizing s with
  | nil => exact fun | _, rfl => h
  | cons x t ih =>
    unfold ctxsRestore
    split
    · rename_i e
      exact ih (.after_ctxRestore h _ e)
    · exact fun _ e => nomatch e

theorem MemoriesCanonical.after_leaseRestore {s : State} {x k} (h : MemoriesCanonical s) : MemoriesCanonical (leaseRestore s x k) := by
  unfold leaseRestore
  split
  · exact h
  · exact .after_pendOnce (.frame h)

theorem MemoriesCanonical.after_cmdsRestore {s : State} {v} (h : MemoriesCanonical s) : MemoriesCanonical (cmdsRestore s v) :=
  .foldl (.foldl (.foldl (.foldl (.foldl (.foldl h fun _ _ h => .after_pendOnce (.frame h)) fun _ _ h => .frame h) fun _ _ h => .after_ceKick
    h) fun _ _ h => .frame h) fun _ _ h => .after_gatherKick h) fun _ _ h => .frame h

theorem MemoriesCanonical.after_tileRestore {s : State} {q} (h : MemoriesCanonical s) : MemoriesCanonical (tileRestore s q) :=
  .after_pendOnce (.after_pendOnce (.frame h))

theorem MemoriesCanonical.after_areaRestore {s : State} {v} (h : MemoriesCanonical s) :
    ∀ y, areaRestore s v = some y → MemoriesCanonical y := by
  unfold areaRestore
  split
  · exact fun _ e => nomatch e
  · split
    · exact fun _ e => nomatch e
    · rename_i e
      exact fun | _, rfl => .foldl (.foldl
        (.after_cmdsRestore (.foldl ((MemoriesCanonical.after_ctxsRestore (.foldl h fun _ _ h => .frame h)) _ e) fun _ _ h => .foldl h
        fun _ _ h => .after_leaseRestore h)) fun _ _ h => .after_tileRestore h) fun _ _ h => .after_pendOnce (.frame h)

theorem OutCanonical.after_execRestore {s : State} {o} (h : MemoriesCanonical s) : OutCanonical (execRestore o s) := by
  unfold execRestore
  refine .after_issue h fun _ => ?_
  refine .after_areaAccess h fun _ => ?_
  refine .after_fenced h fun _ h => ?_
  split
  · exact .frame h
  · refine .ite (.after_waitFor h) ?_
    split
    · exact .after_waitFor h
    · rename_i e1
      exact .frame (.frame (MemoriesCanonical.after_areaRestore h _ e1))

/-! MIGRATE (R136, R145, R377). -/

theorem MemoriesCanonical.after_moveSub {s : State} {a b i} (h : MemoriesCanonical s) : MemoriesCanonical (moveSub s a b i) := by
  unfold moveSub
  split
  · exact h
  · extract_lets e s₁ s₂ p
    have h₁ : MemoriesCanonical s₁ := .frame (.frame (.frame (.frame h)))
    have h₂ : MemoriesCanonical s₂ := .frame h₁
    exact .ite (.frame h₁) (.ite h₂ (.frame (.frame h₂)))

theorem MemoriesCanonical.after_movePub {s : State} {a b i} (h : MemoriesCanonical s) : MemoriesCanonical (movePub s a b i) := by
  unfold movePub
  split
  · exact h
  · exact .ite (.frame (.after_freePubEntry h)) (.frame (.after_freePubEntry h))

theorem MemoriesCanonical.after_moveTask {s : State} {a k b} (h : MemoriesCanonical s) : MemoriesCanonical (moveTask s a k b) := by
  unfold moveTask
  extract_lets s₁ s₂ s₃ c s₄ s₅ s₆ w _
  have h₁ : MemoriesCanonical s₁ := .frame (.after_landAll h)
  have h₃ : MemoriesCanonical s₃ := .after_pushTo (.foldl h₁ fun _ _ h => .after_leaseDrop h)
  split
  · exact h₃
  · extract_lets s₇ s₈ mine s₉ s₁₀ s₁₁ s₁₂ s₁₃ s₁₄
    have h₄ : MemoriesCanonical s₄ := .after_claimWays h₃
    have h₅ : MemoriesCanonical s₅ := .frame h₄
    have h₆ : MemoriesCanonical s₆ := .ite (.frame h₅) h₅
    have h₁₀ : MemoriesCanonical s₁₀ := .frame (.frame (.frame (.frame h₆)))
    have h₁₂ : MemoriesCanonical s₁₂ := .foldl (.foldl h₁₀ fun _ _ h => .after_moveSub h) fun _ _ h => .after_movePub h
    have h₁₃ : MemoriesCanonical s₁₃ := .after_pendOnce (.after_serve (.after_leaveWays h₁₂))
    have h₁₄ : MemoriesCanonical s₁₄ := by
      clear_value w s₁₃
      unfold s₁₄
      split
      · exact .ite h₁₃ (.after_pendOnce h₁₃)
      · exact h₁₃
    exact .after_acquire h₁₄

theorem OutCanonical.after_execMigrate {s : State} {o} (h : MemoriesCanonical s) : OutCanonical (execMigrate o s) := by
  unfold execMigrate
  refine .after_issue h fun _ => ?_
  refine .ite (.after_raise h) ?_
  refine .ite (.after_raise h) ?_
  refine .after_fenced h fun _ h => ?_
  split
  · exact .frame h
  · exact .ite (.frame h) (.ite (.frame h)
      (.ite (.frame h) (.ite (.frame h) (.ite (.after_waitFor h) (.ite (.ite (.frame h) (.after_waitFor h)) (.after_moveTask (.frame h)))))))

/-! CKPT (R231, R232, R234, R378). -/

theorem MemoriesCanonical.after_flushAll {s : State} (h : MemoriesCanonical s) : MemoriesCanonical (flushAll s) :=
  .after_thatchFlush (.foldl (.foldl (.foldl h fun _ _ h => .ite h (.after_wcbDrain h)) fun _ _ h => .foldl h fun _ _ h => .ite h
    (.frame (.ite (.after_seqHome h) (.after_outWrite h)))) fun _ _ h => .foldl h fun _ _ h => .ite h (.frame (.after_physWrite h)))

theorem MemoriesCanonical.after_dirtyClear {s : State} (h : MemoriesCanonical s) : MemoriesCanonical (dirtyClear s) := by
  refine .with_hbm h (Mem.wfFrom_filterMap h.hbm fun c d e hc => ?_)
  split at e
  · dsimp only at e
    split_ifs at e
    cases e
    exact ⟨rfl, by assumption⟩
  · cases e
    exact ⟨rfl, hc⟩

theorem imageOf_hbm_wf {s : State} (h : MemoriesCanonical s) (f : Option (List Nat)) (n : Nat) (a : SaveArea) :
    (imageOf s f n a).hbm.wf = true := by
  unfold imageOf
  dsimp only
  split
  · exact h.hbm
  · exact Mem.wf_filter h.hbm _

theorem MemoriesCanonical.after_ckptStream {s : State} {inc tier len area} (h : MemoriesCanonical s) :
    MemoriesCanonical (ckptStream s inc tier len area).1 := by
  unfold ckptStream
  refine .ite_fst (.frame (.after_flushAll h)) ?_
  have hd : MemoriesCanonical (dirtyClear ((flushAll s).freeBits 32).2) := .after_dirtyClear (.frame (.after_flushAll h))
  refine .with_tiers hd fun q hq => ?_
  obtain rfl | hq := SMap.mem_set hq
  · exact imageOf_hbm_wf hd _ _ _
  · exact hd.tiers q hq

theorem MemoriesCanonical.after_resendAcross {s : State} (h : MemoriesCanonical s) : MemoriesCanonical (resendAcross s) :=
  .foldl h fun _ _ h => .after_resendHeads h

theorem installFrames_wf {m : Mem} {x : Snapshot} (hm : m.wf = true) (hx : x.hbm.wf = true) : (installFrames m x).wf = true := by
  unfold installFrames
  split
  · exact hx
  · exact Mem.wf_foldl_write (Mem.wf_filter hm _) _ _ _

theorem MemoriesCanonical.after_installImage {s : State} {x} (h : MemoriesCanonical s) (hx : x.hbm.wf = true) :
    MemoriesCanonical (installImage s x) := by
  have hs : MemoriesCanonical (thatchFlush s fun _ => true) := .after_thatchFlush h
  exact .after_resendAcross (.frame (.with_hbm hs (installFrames_wf hs.hbm hx)))

theorem MemoriesCanonical.after_unquiesce {s : State} (h : MemoriesCanonical s) : ∀ y, unquiesce s = some y → MemoriesCanonical y := by
  unfold unquiesce
  split
  · exact fun | _, rfl => .frame h
  · intro y e
    obtain ⟨u, hu, rfl⟩ := Option.map_eq_some_iff.mp e
    exact .frame (.after_areaRestore h _ hu)

theorem MemoriesCanonical.after_ckptTry {s : State} {mode tier len who} (h : MemoriesCanonical s) :
    MemoriesCanonical (ckptTry s mode tier len who).1 := by
  unfold ckptTry
  refine .ite_fst ?_ (.ite_fst ?_ (.ite_fst h (.ite_fst h ?_)))
  · refine .ite_fst (.frame (.after_stopBegin h)) ?_
    split
    · exact h
    · exact .ite_fst h (.after_ckptStream h)
  · split
    · exact h
    · rename_i e
      refine .ite_fst h ?_
      split
      · exact h
      · rename_i e'
        exact .after_unquiesce (.after_installImage h (h.tiers _ (SMap.mem_of_find? e))) _ e'
  · split
    · exact h
    · rename_i e
      exact .after_unquiesce h _ e

theorem OutCanonical.after_ckptForm {s : State} {i o} (h : MemoriesCanonical s) : OutCanonical (ckptForm i o s) := by
  unfold ckptForm
  refine .after_issue h fun _ => ?_
  refine .ite (.after_raise h) ?_
  refine .after_access h fun _ => ?_
  refine .after_fenced h fun _ h => ?_
  refine .ite (.after_raise (.after_readPath (.after_taintAcquire h))) ?_
  refine .ite (.after_raise (.after_readPath (.after_taintAcquire h))) ?_
  split
  · rename_i e
    exact .after_waitFor (.of_fst e (.after_ckptTry (.after_readPath (.after_taintAcquire h))))
  · rename_i e
    exact .frame (.of_fst e (.after_ckptTry (.after_readPath (.after_taintAcquire h))))

/-! Lines (R122, R124, R126). -/

theorem OutCanonical.after_execDirectoryRequest {s : State} (h : MemoriesCanonical s) : OutCanonical (execDirectoryRequest s) := by
  unfold execDirectoryRequest
  split
  · dsimp only
    split
    · exact .next (.frame h)
    · refine .ite (.next (.frame h)) ?_
      split
      · exact .ite (.after_answer (.getD h (.after_deviceAccess (.frame h)))) (.next (.frame h))
      · exact .after_answer (.after_dirServe (.frame h))
  · exact .next h

theorem OutCanonical.after_execWritebackApply {s : State} (h : MemoriesCanonical s) : OutCanonical (execWritebackApply s) := by
  unfold execWritebackApply
  split
  · refine .after_answer ?_
    split
    · exact .after_l1Write (.frame h)
    · exact .after_l2Write (.frame h)
    · exact .after_l2Through (.after_physWrite (.after_sarkUpdate (.frame h)))
  · exact .next h

theorem MemoriesCanonical.after_pushPage {s : State} {page p} (h : MemoriesCanonical s) : MemoriesCanonical (pushPage s page p) :=
  .after_pushCopy h

theorem MemoriesCanonical.after_pageEvict {s : State} {page} (h : MemoriesCanonical s) : MemoriesCanonical (pageEvict s page) := by
  unfold pageEvict
  split
  · exact h
  · split
    · exact .frame h
    · exact .after_pushPage h
    · exact h

theorem OutCanonical.after_execEviction {s : State} (h : MemoriesCanonical s) : OutCanonical (execEviction s) := by
  unfold execEviction
  split
  · refine .after_answer ?_
    split
    · exact .after_wcbEvict (.frame h)
    · exact .after_l1Evict (.frame h)
    · exact .after_l2Evict (.frame h)
    · exact .frame h
    · exact .after_thatchEvict (.frame h)
    · exact .after_pageEvict (.frame h)
  · exact .next h

/-! Pages between devices (R128 to R131). -/

theorem MemoriesCanonical.after_pageRefused {s : State} {r k} (h : MemoriesCanonical s) : MemoriesCanonical (pageRefused s r k) := by
  unfold pageRefused
  refine .ite h ?_
  split
  · exact h
  · exact .ite h (.ite (.frame h) (.ite (.after_storeDropped h) h))

theorem MemoriesCanonical.after_pageAccept {s : State} {r k} (h : MemoriesCanonical s) : MemoriesCanonical (pageAccept s r k) :=
  .ite h (.after_watch (.after_cacheLeaf h))

theorem MemoriesCanonical.after_purgePage {s : State} {page} (h : MemoriesCanonical s) : MemoriesCanonical (purgePage s page) := by
  unfold purgePage
  split
  · exact .after_purge h
  · exact h

theorem OutCanonical.after_execPageCopyRequest {s : State} (h : MemoriesCanonical s) : OutCanonical (execPageCopyRequest s) := by
  unfold execPageCopyRequest
  split
  · refine .ite (.ite (.next (.frame h))
      (.ite (.after_answer (.after_pageRefused (.frame h)))
      (.after_answer (.ite (.after_pendOnce (.frame (.after_pageAccept (.frame h)))) (.frame (.after_pageAccept (.frame h))))))) ?_
    refine .ite ?_ (.ite (.next (.frame h)) (.next (.ite (.after_pendOnce (.frame h)) (.frame h))))
    split
    · exact .ite (.next (.frame h)) (.next (.frame (.after_pushPage (.frame h))))
    · exact .next (.frame h)
  · exact .next h

theorem MemoriesCanonical.after_ownServe {s : State} {r queue} (h : MemoriesCanonical s) : MemoriesCanonical (ownServe s r queue) :=
  .after_pendOnce (.frame (.ite h (.after_purgePage (.after_pageAccept h))))

theorem MemoriesCanonical.after_ownLeaves {s : State} {page} (h : MemoriesCanonical s) : MemoriesCanonical (ownLeaves s page) := by
  unfold ownLeaves
  split
  · exact .frame h
  · exact .ite h (.after_leaves h)

theorem OutCanonical.after_execOwnershipRequest {s : State} (h : MemoriesCanonical s) : OutCanonical (execOwnershipRequest s) := by
  unfold execOwnershipRequest
  split
  · exact .ite (.ite (.next (.frame h)) (.ite (.after_answer (.after_ownLeaves h)) (.next (.after_pendOnce (.frame h)))))
      (.ite (.after_answer (.after_pageRefused (.frame h))) (.ite (.next (.frame h)) (.after_answer (.after_ownServe (.frame h)))))
  · exact .next h

theorem OutCanonical.after_execPageInvalidate {s : State} (h : MemoriesCanonical s) : OutCanonical (execPageInvalidate s) := by
  unfold execPageInvalidate
  split
  · refine .ite (.after_answer (.after_purgePage (.frame h))) ?_
    split
    · exact .next (.frame h)
    · exact .next (.frame (.after_pushPage (.frame h)))
  · exact .next h

theorem MemoriesCanonical.after_ownStore {s : State} {ia n v} (h : MemoriesCanonical s) : MemoriesCanonical (ownStore s ia n v) := by
  unfold ownStore
  split
  · exact h
  · exact .frame (.after_l2Through (.after_physWrite h))

theorem MemoriesCanonical.after_nextOwner {s : State} {page} (h : MemoriesCanonical s) : MemoriesCanonical (nextOwner s page) := by
  unfold nextOwner
  split
  · exact h
  · exact .after_ownServe h

theorem OutCanonical.after_execOwnershipGrant {s : State} (h : MemoriesCanonical s) : OutCanonical (execOwnershipGrant s) := by
  unfold execOwnershipGrant
  split
  · refine .ite ?_ ?_
    · dsimp only
      split
      · exact .next (.frame h)
      · exact .ite (.after_answer (.after_nextOwner (.after_retryHeld (.foldl (.frame h) fun _ _ h => .after_ownStore h))))
          (.after_answer (.after_nextOwner (.frame h)))
    · split
      · exact .next (.frame h)
      · exact .ite (.next (.frame h)) (.next (.frame h))
  · exact .next h

/-! The migration of a frame (R132). -/

theorem MemoriesCanonical.after_moveFrame {s : State} {old new n} (h : MemoriesCanonical s) :
    MemoriesCanonical (moveFrame s old new n) := by
  unfold moveFrame
  extract_lets within s₁ s₂ m
  have h₂ : MemoriesCanonical s₂ := .after_thatchFlush (.after_purge h)
  have hm : m.wf = true := Mem.wf_foldl_write (Mem.wf_clear h₂.hbm _ _) _ _ _
  exact .frame (.foldl (.with_hbm h₂ hm) fun _ _ h => .after_physPutNat h)

theorem MemoriesCanonical.after_moveLeaf {s : State} {at_ e new} (h : MemoriesCanonical s) : MemoriesCanonical (moveLeaf s at_ e new) :=
  .after_markDirty (.foldl (.after_purge h) fun _ _ h => .after_physPutNat h)

theorem OutCanonical.after_execFrameMigration {s : State} (h : MemoriesCanonical s) : OutCanonical (execFrameMigration s) := by
  unfold execFrameMigration
  split
  · dsimp only
    split
    · exact .next (.frame h)
    · exact .ite (.next (.frame h)) (.ite (.after_answer (.after_retryHeld (.frame (.after_moveLeaf (.after_moveFrame (.frame h))))))
        (.ite (.next (.frame h)) (.next (.frame h))))
  · exact .next h

theorem OutCanonical.after_execAtomicMoved {s : State} (h : MemoriesCanonical s) : OutCanonical (execAtomicMoved s) := by
  unfold execAtomicMoved
  split
  · split
    · exact .ite (.next h) (.next (.frame h))
    · exact .next (.frame h)
  · exact .next h

/-! No answer (R411, R414). -/

theorem MemoriesCanonical.after_unackedRecord {s : State} {u ia} (h : MemoriesCanonical s) : MemoriesCanonical (unackedRecord s u ia) :=
  .after_record h

theorem MemoriesCanonical.after_unackedDrop {s : State} {u} (h : MemoriesCanonical s) : MemoriesCanonical (unackedDrop s u) := by
  unfold unackedDrop
  refine .ite (.after_unackedRecord (.frame h)) ?_
  split
  · exact .frame h
  · exact .foldl (.frame h) fun _ _ h => .after_unackedRecord h

theorem OutCanonical.after_execRemoteTimeout {s : State} (h : MemoriesCanonical s) : OutCanonical (execRemoteTimeout s) := by
  unfold execRemoteTimeout
  split
  · split
    · refine .ite (.after_answer (.after_unackedDrop h)) ?_
      split
      · exact .ite (.after_answer (.after_takeFault h)) (.next h)
      · exact .next h
    · exact .ite (.next (.frame h)) (.ite (.next h) (.after_answer (.after_takeFault (.frame h))))
    · exact .next (.frame h)
  · exact .next h

theorem OutCanonical.after_execApertureWriteTimeout {s : State} (h : MemoriesCanonical s) : OutCanonical (execApertureWriteTimeout s) := by
  unfold execApertureWriteTimeout
  split
  · split
    · exact .next (.frame h)
    · exact .ite (.after_answer (.after_unackedDrop h)) (.next h)
  · exact .next h

/-! Power, in sixteenths of a watt (R200). -/

theorem MemoriesCanonical.after_stallSome {s : State} {l} (h : MemoriesCanonical s) : MemoriesCanonical (stallSome s l).2 := by
  induction l generalizing s with
  | nil => exact h
  | cons u t ih => exact ih (.frame h)

theorem OutCanonical.after_execPowerInterval {s : State} (h : MemoriesCanonical s) : OutCanonical (execPowerInterval s) := by
  unfold execPowerInterval
  split
  · exact .ite (.next h) (.next (.frame (.after_stallSome (.frame h))))
  · exact .next h

/-! Self-test (R230). -/

theorem OutCanonical.after_execArraySelfTest {s : State} (h : MemoriesCanonical s) : OutCanonical (execArraySelfTest s) := by
  unfold execArraySelfTest
  split
  · exact .ite (.next (.frame h)) (.next (.foldl (.frame h) fun _ _ h => .frame h))
  · exact .next h

/-! Errors (R227 to R229). -/

theorem OutCanonical.after_execEccCorrectable {s : State} (h : MemoriesCanonical s) : OutCanonical (execEccCorrectable s) := by
  unfold execEccCorrectable
  split
  · exact .next (.ite (.frame h) (.frame h))
  · exact .next h

theorem OutCanonical.after_execPoisonMark {s : State} (h : MemoriesCanonical s) : OutCanonical (execPoisonMark s) := by
  unfold execPoisonMark
  split
  · refine .next ?_
    dsimp only
    split <;> exact .frame h
  · exact .next h

theorem MemoriesCanonical.after_dieStop {s : State} {d} (h : MemoriesCanonical s) : MemoriesCanonical (dieStop s d) :=
  .ite h (.frame h)

theorem OutCanonical.after_execDieStop {s : State} (h : MemoriesCanonical s) : OutCanonical (execDieStop s) := by
  unfold execDieStop
  split
  · exact .next (.ite (.after_dieStop (.frame h)) (.frame h))
  · exact .next h

/-! Temperature and links (R414, R416). -/

theorem MemoriesCanonical.after_thermalStop {s : State} {d t} (h : MemoriesCanonical s) : MemoriesCanonical (thermalStop s d t) :=
  .frame (.after_dieStop h)

theorem OutCanonical.after_execThermalWarning {s : State} (h : MemoriesCanonical s) : OutCanonical (execThermalWarning s) := by
  unfold execThermalWarning
  split
  · exact .next (.ite (.frame h) (.ite (.after_thermalStop (.frame h)) (.frame h)))
  · exact .next h

theorem OutCanonical.after_execThermalStop {s : State} (h : MemoriesCanonical s) : OutCanonical (execThermalStop s) := by
  unfold execThermalStop
  split
  · exact .next (.ite (.after_thermalStop (.frame h)) (.frame h))
  · exact .next h

theorem OutCanonical.after_execThermalWarningClear {s : State} (h : MemoriesCanonical s) : OutCanonical (execThermalWarningClear s) := by
  unfold execThermalWarningClear
  split
  · exact .next (.ite (.frame h) (.frame h))
  · exact .next h

theorem OutCanonical.after_execTwillLaneFail {s : State} (h : MemoriesCanonical s) : OutCanonical (execTwillLaneFail s) := by
  unfold execTwillLaneFail
  split
  · exact .next (.frame h)
  · exact .next h

/-! Host messages (R408). -/

theorem OutCanonical.after_execHostMessageArrive {s : State} (h : MemoriesCanonical s) : OutCanonical (execHostMessageArrive s) := by
  unfold execHostMessageArrive
  split
  · exact .ite (.next (.frame h)) (.ite (.next (.frame h)) (.ite (.next h) (.next (.after_hostSend (.frame h)))))
  · exact .next h

/-! Serving a command (R409, R410). -/

theorem OutCanonical.after_hostServe {s : State} {c minLen here go} (h : MemoriesCanonical s)
    (hgo : ∀ t, MemoriesCanonical t → ServedCanonical (go t)) : OutCanonical (hostServe s c minLen here go) := by
  have hr : ServedCanonical (if c.len < minLen || c.rsv ≠ 0 then .done 1 0 s else if !here then .done 2 0 s else go s) :=
    .ite (.done h) (.ite (.done h) (hgo _ h))
  unfold hostServe
  refine .ite (.next h) ?_
  dsimp only
  split
  · rename_i e
    exact .next (hr.2 _ e)
  · rename_i e
    exact .after_answer (.after_hostReply (.frame (hr.1 _ _ _ e)))

theorem OutCanonical.after_execHostLaunch {s : State} (h : MemoriesCanonical s) : OutCanonical (execHostLaunch s) := by
  unfold execHostLaunch
  split
  · refine .after_hostServe h fun _ h => ?_
    refine .ite (.done h) ?_
    refine .ite (.done h) ?_
    split
    · exact .done h
    · exact .ite (.wait h) (.done (.after_launchQueue h))
  · exact .next h

/-! MAP (R197, R198, R409). -/

theorem MemoriesCanonical.after_pteWrite {s : State} {at_ e} (h : MemoriesCanonical s) : MemoriesCanonical (pteWrite s at_ e) :=
  .after_physWrite (.after_purge h)

/-- The recursion of `slotMake`, as the compiler states it: its equation lemmas would have the kernel run `freeFrame` from frame 24576 on. -/
theorem slotMake_eq_rec (s : State) (e : Word) (ia level n : Nat) :
    slotMake s e ia level n = slotMake._f e ia level n (Nat.brecOn.go (motive :=
 fun _ => State → Option (Nat × State)) n (slotMake._f e ia level)).2 s := by
  delta slotMake
  exact congrFun (Nat.brecOn.eq (motive := fun _ => State → Option (Nat × State)) n (slotMake._f e ia level)) s

theorem slotMake_eq_go (s : State) (e : Word) (ia level n : Nat) : slotMake s e ia level n = (Nat.brecOn.go (motive :=
 fun _ => State → Option (Nat × State)) n (slotMake._f e ia level)).1 s := by
  delta slotMake
  rfl

theorem brecOn_go_succ_snd {motive : Nat → Type} (n : Nat) (F : ∀ t, Nat.below (motive :=
 motive) t → motive t) :
    (Nat.brecOn.go (n + 1) F).2 = Nat.brecOn.go n F := rfl

theorem MemoriesCanonical.after_slotMake {s : State} {e ia level n} (h : MemoriesCanonical s) :
    ∀ y, slotMake s e ia level n = some y → MemoriesCanonical y.2 := by
  induction n generalizing s with
  | zero => exact fun _ e => nomatch e
  | succ n ih =>
    rw [slotMake_eq_rec, brecOn_go_succ_snd]
    simp only [slotMake_eq_go] at ih
    obtain ⟨below, hb⟩ : ∃ b, b = Nat.brecOn.go (motive := fun _ => State → Option (Nat × State)) n (slotMake._f e ia level) := ⟨_, rfl⟩
    rw [← hb] at ih ⊢
    delta slotMake._f
    obtain ⟨ff, hf⟩ : ∃ f, f = freeFrame := ⟨_, rfl⟩
    rw [← hf]
    dsimp only
    split
    · exact fun | _, rfl => h
    · exact fun _ e => nomatch e
    · split
      · exact fun _ e => nomatch e
      · exact ih (.after_pteWrite h)

theorem MemoriesCanonical.after_mapFrames {s : State} {e level owner} (h : MemoriesCanonical s) :
    MemoriesCanonical (mapFrames s e level owner) :=
  .foldl h fun _ _ h => .after_fteSet h

theorem OutCanonical.after_execHostMap {s : State} (h : MemoriesCanonical s) : OutCanonical (execHostMap s) := by
  unfold execHostMap
  split
  · refine .after_hostServe h fun _ h => ?_
    refine .ite (.done h) ?_
    split
    · exact .done h
    · refine .ite ?_ ?_
      · split
        · exact .done (.frame (.after_pteWrite h))
        · exact .done h
      · refine .ite (.wait (.after_askPages h)) ?_
        split
        · exact .done h
        · rename_i e2
          exact .done (.frame (.after_mapFrames (.after_pteWrite (MemoriesCanonical.after_slotMake h _ e2))))
  · exact .next h

theorem OutCanonical.after_execHostKinst {s : State} (h : MemoriesCanonical s) : OutCanonical (execHostKinst s) := by
  unfold execHostKinst
  split
  · exact .after_hostServe h fun _ h => .ite (.done h) (.ite (.done h) (.ite (.done h) (.ite (.done h) (.done (.frame h)))))
  · exact .next h

theorem OutCanonical.after_execHostCkpt {s : State} (h : MemoriesCanonical s) : OutCanonical (execHostCkpt s) := by
  unfold execHostCkpt
  split
  · refine .after_hostServe h fun _ h => ?_
    refine .ite (.done h) ?_
    refine .ite (.done h) ?_
    refine .ite (.done h) ?_
    split
    · rename_i e1
      exact .wait (.of_fst e1 (.after_ckptTry h))
    · rename_i e1
      exact .done (.of_fst e1 (.after_ckptTry h))
  · exact .next h

/-! Attestation (R205, R206). -/

theorem OutCanonical.after_execHostAttest {s : State} (h : MemoriesCanonical s) : OutCanonical (execHostAttest s) := by
  unfold execHostAttest
  split
  · exact .after_hostServe h fun _ h => .ite (.done h) (.ite (.done h)
      (.done (.with_hostMem h (Mem.wf_writeNat (Mem.wf_writeNat h.hostMem _ _ _) _ _ _))))
  · exact .next h

theorem OutCanonical.after_hostHalt {s : State} {c on} (h : MemoriesCanonical s) : OutCanonical (hostHalt s c on) :=
  .after_hostServe h fun _ h => .ite (.done h) (.done (.after_haltGroup h))

theorem OutCanonical.after_execHostHgtrig {s : State} (h : MemoriesCanonical s) : OutCanonical (execHostHgtrig s) := by
  unfold execHostHgtrig
  split
  · exact .after_hostHalt h
  · exact .next h

theorem OutCanonical.after_execHostHgrel {s : State} (h : MemoriesCanonical s) : OutCanonical (execHostHgrel s) := by
  unfold execHostHgrel
  split
  · exact .after_hostHalt h
  · exact .next h

/-! Reset, boot and supplies (R202, R203, R412, R413, R415). -/

theorem MemoriesCanonical.after_heldDie {s t : State} {d} (h : MemoriesCanonical t) : MemoriesCanonical (heldDie s t d) :=
  .ite h (.frame h)

theorem MemoriesCanonical.after_heldReset {s : State} {m} (h : MemoriesCanonical s) : MemoriesCanonical (heldReset s m) :=
  .foldl (.frame (.with_tiers (.with_hostMem reset_canonical h.hostMem) h.tiers)) fun _ _ h => .after_heldDie h

theorem OutCanonical.after_execMgmtCtrlHold {s : State} (h : MemoriesCanonical s) : OutCanonical (execMgmtCtrlHold s) := by
  unfold execMgmtCtrlHold
  split
  · exact .next (.ite (.after_heldReset h) (.frame h))
  · exact .next h

theorem OutCanonical.after_execMainPowerLoss {s : State} (h : MemoriesCanonical s) : OutCanonical (execMainPowerLoss s) := by
  unfold execMainPowerLoss
  split
  · exact .next (.after_heldReset h)
  · exact .next h

theorem OutCanonical.after_execMainInputReturn {s : State} (h : MemoriesCanonical s) : OutCanonical (execMainInputReturn s) := by
  unfold execMainInputReturn
  split
  · exact .next (.frame h)
  · exact .next h

theorem OutCanonical.after_execAuxPowerUp {s : State} (h : MemoriesCanonical s) : OutCanonical (execAuxPowerUp s) := by
  unfold execAuxPowerUp
  split
  · exact .next (.after_heldReset (.frame h))
  · exact .next h

theorem MemoriesCanonical.after_bootRom {s : State} (h : MemoriesCanonical s) : MemoriesCanonical (bootRom s) := by
  unfold bootRom
  extract_lets _ _ _ _ _ _ _ s₁ _ _ _ s₃
  have h₁ : MemoriesCanonical s₁ := .ite (.with_hbm h (Mem.wf_writeNat h.hbm _ _ _)) h
  have h₃ : MemoriesCanonical s₃ := .foldl (.frame h₁) fun _ _ h => .frame h
  exact .ite (.frame h₁) (.foldl h₃ fun _ _ h => .frame h)

theorem MemoriesCanonical.after_release0 {s : State} (h : MemoriesCanonical s) : MemoriesCanonical (release0 s) :=
  .ite h (.frame (.after_hostRelease (.frame h)))

theorem OutCanonical.after_execMgmtCtrlRelease {s : State} (h : MemoriesCanonical s) : OutCanonical (execMgmtCtrlRelease s) := by
  unfold execMgmtCtrlRelease
  split
  · exact .ite (.after_answer (.after_release0 (.frame h))) (.ite (.after_answer (.after_bootRom (.frame h))) (.next h))
  · exact .next h

theorem OutCanonical.after_execMgmtWrite {s : State} (h : MemoriesCanonical s) : OutCanonical (execMgmtWrite s) := by
  unfold execMgmtWrite
  split
  · exact .ite (.next (.frame h)) (.ite
      (.ite (.after_answer (.after_release0 (.frame h))) (.ite (.next (.after_heldReset (.frame h))) (.next (.frame h))))
      (.ite (.next (.frame h)) (.ite (.next (.frame h)) (.ite (.next (.frame h)) (.ite (.next (.frame h)) (.next (.frame h)))))))
  · exact .next h

/-! What happens outside (R203, R407, R411, R413, R414). -/

theorem MemoriesCanonical.after_outsideStep {s : State} {o} (h : MemoriesCanonical s) : MemoriesCanonical (outsideStep s o) := by
  unfold outsideStep
  split
  · exact .ite (.after_hostBack h) (.frame h)
  · exact .ite (.after_pathBack h) (.ite h (.frame h))
  · exact .ite (.frame h) h
  · exact .ite (.frame h) h
  · exact .ite (.frame h) h

/-! Register forms (R305, R306). -/

theorem OutCanonical.after_execLanes {s : State} {i d form f} (h : MemoriesCanonical s) : OutCanonical (execLanes i s d form f) :=
  .after_issueReg h

/-! OPC 0x22 (R311). -/

theorem OutCanonical.after_execVcmp {s : State} {i d form f} (h : MemoriesCanonical s) : OutCanonical (execVcmp i s d form f) :=
  .after_issueReg h

/-! Vector memory (R315 to R318). -/

theorem MemoriesCanonical.after_refuseLane {s : State} {i va l e} (h : MemoriesCanonical s) :
    MemoriesCanonical (refuseLane i s va l e) := by
  unfold refuseLane
  split
  · exact .after_faultCur h
  · exact .after_pageFault h
  · exact .after_refuse h

theorem MemoriesCanonical.after_laneFault {s : State} {i va l code} (h : MemoriesCanonical s) :
    MemoriesCanonical (laneFault i s va l code) :=
  .after_faultCur h

theorem MemoriesCanonical.after_writeMask {s : State} {x p on v} (h : MemoriesCanonical s) : MemoriesCanonical (writeMask s x p on v) := by
  unfold writeMask
  refine .ite (.after_writePath h) ?_
  split
  · refine .ite (.after_storeDropped (.after_accepted h)) ?_
    refine .ite (.foldl (.after_accepted h) fun _ _ h => .after_holdOwn h) ?_
    split
    · exact .frame (.after_physWrite (.after_accepted h))
    · refine .ite (.after_l2Write (.after_dirClear (.after_accepted h))) ?_
      dsimp only
      split
      · exact .frame (.after_dirServe (.after_accepted h))
      · exact .after_physWrite (.after_dirServe (.after_accepted h))
    · exact .ite (.after_outWrite (.after_accepted h)) (.after_wcbStore (.after_accepted h))
  · exact .foldl h fun _ _ h => .after_spWrite h
  · exact .foldl h fun _ _ h => .after_dsWrite h
  · exact .foldl h fun _ _ h => .after_writePath h
  · exact .foldl h fun _ _ h => .after_writePath h
  · exact .foldl h fun _ _ h => .after_writePath h

theorem MemoriesCanonical.after_groupForm {s : State} {i o k go} (h : MemoriesCanonical s)
    (hgo : ∀ x t, MemoriesCanonical t → MemoriesCanonical (go x t)) : MemoriesCanonical (groupForm i o s k go) := by
  unfold groupForm
  dsimp only
  split
  · exact .after_laneFault h
  · exact .after_raise h
  · exact .frame (.after_postInc h)
  · split
    · exact .after_refuseLane h
    · split
      · exact .after_holdOn h
      · exact hgo _ _ (.after_postInc (.after_taintAcquire (.ite (.after_release h) h)))

theorem OutCanonical.after_execVld {s : State} {o} (h : MemoriesCanonical s) : OutCanonical (execVld o s) :=
  .after_issue h fun _ => .after_groupForm h fun _ _ h => .frame (.after_readPath h)

theorem OutCanonical.after_execVst {s : State} {o} (h : MemoriesCanonical s) : OutCanonical (execVst o s) :=
  .after_issue h fun _ => .after_groupForm h fun _ _ h => .frame (.after_writeMask h)

theorem MemoriesCanonical.after_askPage {s : State} {x page} (h : MemoriesCanonical s) : MemoriesCanonical (askPage s x page) := by
  unfold askPage
  split
  · exact .ite (.frame h) h
  · exact .after_askOwn h

theorem MemoriesCanonical.after_checkLanes {s : State} {i k addr l} (h : MemoriesCanonical s) :
    ∀ y, checkLanes i s k addr l = .inl y → MemoriesCanonical y := by
  induction l with
  | nil => exact fun _ e => nomatch e
  | cons l t ih =>
    unfold checkLanes
    split
    · exact fun | _, rfl => .after_laneFault h
    · split
      · exact fun | _, rfl => .after_refuseLane h
      · split
        · exact fun | _, rfl => .after_refuseLane h
        · dsimp only
          split
          · exact fun | _, rfl => .after_refuseLane h
          · split
            · rename_i e
              exact fun | _, rfl => ih _ e
            · split
              · exact fun | _, rfl => .after_holdOn h
              · exact fun _ e => nomatch e

theorem MemoriesCanonical.after_lanePaths {s : State} {i k addr on} (h : MemoriesCanonical s) :
    ∀ y, lanePaths i s k addr on = .inl y → MemoriesCanonical y := by
  unfold lanePaths
  split
  · rename_i e
    exact fun | _, rfl => MemoriesCanonical.after_checkLanes h _ e
  · split
    · split
      · exact fun | _, rfl => .after_waitFor (.after_askPage h)
      · exact fun _ e => nomatch e
    · exact fun _ e => nomatch e

theorem MemoriesCanonical.after_laneLoad {s : State} {f rm a} (h : MemoriesCanonical s) : MemoriesCanonical (laneLoad s f rm a).2 := by
  unfold laneLoad
  refine .snd ?_
  split
  · exact .snd (.after_readPath h)
  · exact .after_readPath (.after_readPath h)

theorem MemoriesCanonical.after_elemGroup {s : State} {i base off pi go} (h : MemoriesCanonical s)
    (hgo : ∀ x y z, MemoriesCanonical (go x y z)) : MemoriesCanonical (elemGroup i s base off pi go) := by
  unfold elemGroup
  dsimp only
  split
  · exact .after_raise h
  · refine .ite (.after_raise h) ?_
    refine .ite (hgo _ _ _) ?_
    split
    · exact .after_raise h
    · split
      · exact .after_raise h
      · exact hgo _ _ _

theorem OutCanonical.after_execVlde {s : State} {o} (h : MemoriesCanonical s) : OutCanonical (execVlde o s) := by
  unfold execVlde
  dsimp only
  refine .after_issue h fun _ => .after_elemGroup h fun f _ _ => ?_
  split
  · rename_i e
    exact MemoriesCanonical.after_lanePaths h _ e
  · have hl (r : Line × Word × State) (x) (h : MemoriesCanonical r.2.2) : MemoriesCanonical (laneLoad r.2.2 f o.rm x).2 := .after_laneLoad h
    exact .frame (.after_postInc (.foldlBy (fun r : Line × Word × State => r.2.2) (.after_taintAcquire h) hl))

theorem OutCanonical.after_execVste {s : State} {o} (h : MemoriesCanonical s) : OutCanonical (execVste o s) := by
  unfold execVste
  refine .after_issue h fun _ => ?_
  refine .after_elemGroup h fun _ _ _ => ?_
  split
  · rename_i e
    exact MemoriesCanonical.after_lanePaths h _ e
  · exact .frame (.after_postInc (.foldlBy Prod.snd (.snd (.after_taintAcquire h)) fun _ _ h => .snd (.after_storeElem h)))

theorem OutCanonical.after_execVldx {s : State} {o} (h : MemoriesCanonical s) : OutCanonical (execVldx o s) := by
  unfold execVldx
  refine .after_issue h fun _ => ?_
  split
  · rename_i e
    exact MemoriesCanonical.after_lanePaths h _ e
  · exact .frame (.foldlBy Prod.snd (.after_taintAcquire h) fun _ _ h => .snd (.after_readPath h))

theorem OutCanonical.after_execVstx {s : State} {o} (h : MemoriesCanonical s) : OutCanonical (execVstx o s) := by
  unfold execVstx
  refine .after_issue h fun _ => ?_
  split
  · rename_i e
    exact MemoriesCanonical.after_lanePaths h _ e
  · exact .frame (.foldl (.after_taintAcquire h) fun _ _ h => .after_writePath h)

/-! Lane-private slices (R319, R76). -/

theorem OutCanonical.after_execSlice {s : State} {i o go} (h : MemoriesCanonical s) (hgo : ∀ x y, MemoriesCanonical (go x y)) :
    OutCanonical (execSlice i o s go) := by
  unfold execSlice
  refine .after_issue h fun _ => ?_
  dsimp only
  split
  · exact .after_laneFault h
  · exact .ite (.after_raise h) (hgo _ _)

/-! OPC 0x30 (R320 to R323). -/

theorem OutCanonical.after_execVsp {s : State} {o} (h : MemoriesCanonical s) : OutCanonical (execVsp o s) := by
  unfold execVsp
  refine .after_issue h fun _ => ?_
  refine .ite (.frame h) ?_
  split
  · exact .after_faultCur h
  · dsimp only
    split
    · exact .after_refuse h
    · exact .after_refuse h
    · exact .after_refuse h
    · split
      · exact .after_holdOn h
      · exact .frame (.after_writeMask (.after_readPath (.after_readPath (.after_readPath h))))

theorem OutCanonical.after_execVtopk {s : State} {o} (h : MemoriesCanonical s) : OutCanonical (execVtopk o s) := by
  unfold execVtopk
  refine .after_issue h fun _ => ?_
  refine .ite (.after_raise h) ?_
  refine .ite (.after_raise h) ?_
  refine .ite (.after_raise h) ?_
  refine .ite (.after_raise h) ?_
  refine .ite (.after_raise h) ?_
  refine .ite (.after_raise h) ?_
  split
  · exact .after_faultCur h
  · exact .ite (.after_waitFor h) (.ite (.after_waitPort h) (.frame (.foldl h fun _ _ h => .after_spWrite h)))

/-! The meaning of every row of the opcode table. -/

theorem OutCanonical.after_exec {s : State} {i} (h : MemoriesCanonical s) : OutCanonical (exec i s) :=
  match i with
  | .add _ | .sub _ | .and _ | .or _ | .xor _ | .andn _ | .shl _ | .shr _ | .sra _ | .min _ | .max _ | .clz _ | .ctz _ | .popc _ | .mov _ |
    .addi _ | .addiLit _ | .tags _ | .tagg _ | .mul _ | .mulh _ | .div _ | .rem _ | .bfxu _ | .bfxs _ | .bfi _ | .shli _ | .shri _ | .srai
      _ |
    .rori _ | .movi _ | .moviLit _ | .cmpeq _ | .cmpne _ | .cmplt _ | .cmple _ | .sel _ | .fadd _ | .fsub _ | .fmul _ | .fma _ | .fmin _ |
    .fmax _ | .fneg _ | .fcmpeq _ | .fcmplt _ | .fcmple _ | .cvt _ | .vred _ => by unfold exec; exact .after_execAlu h
  | .adda _ | .suba _ => by unfold exec; exact .after_execAddr h
  | .beq _ | .bne _ | .blt _ | .bge _ | .bltu _ | .bgeu _ => by unfold exec; exact .after_execBranch h
  | .jmp _ | .call _ | .yield => by unfold exec; exact .after_issue h fun _ => .frame h
  | .jmpi _ | .calli _ | .ret => by unfold exec; exact .after_issue h fun _ => .after_jumpReg h
  | .enter _ => .after_execEnter h
  | .leave => .after_execLeave h
  | .rdsr _ => by unfold exec; exact .after_issue h fun _ => .ite (.after_waitFor h) (.frame h)
  | .probe _ | .nop | .vins _ | .vext _ => by unfold exec; exact .after_issueReg h
  | .brk _ => .after_execBrk h
  | .ld _ => .after_execLd h
  | .st _ => .after_execSt h
  | .lde _ => .after_execLde h
  | .ste _ => .after_execSte h
  | .ldAcq _ => .after_execLdAcq h
  | .ldc _ => .after_execLdc h
  | .lds _ => .after_execLds h
  | .stRel _ => .after_execStRel h
  | .amo _ => .after_execAmo h
  | .fence _ => .after_execFence h
  | .spresize _ => .after_execSpresize h
  | .flushs _ => by unfold exec; exact .after_execRange h fun _ h _ _ => .after_pushTo h
  | .invs _ => .after_execInvs h
  | .pref _ => .after_execPref h
  | .send _ | .tsend _ => by unfold exec; exact .after_execSendAs h
  | .recv _ => .after_execRecv h
  | .rcancel _ => .after_execRcancel h
  | .chwr _ => .after_execChwr h
  | .chmsk _ => .after_execChmsk h
  | .chrd _ => .after_execChrd h
  | .spawn _ => .after_execSpawn h
  | .join => .after_execJoin h
  | .halt => by unfold exec; exact .after_issue h fun _ => .after_haltRun h
  | .haltr _ => .after_execHaltr h
  | .freg _ => .after_execFreg h
  | .fres _ => .after_execFres h
  | .fcancel _ => .after_execFcancel h
  | .freset _ => .after_execFreset h
  | .fwait _ => .after_execFwait h
  | .barcfg _ => .after_execBarcfg h
  | .bar _ => .after_execBar h
  | .bararv _ => .after_execBararv h
  | .bardrop _ => .after_execBardrop h
  | .barwt _ => .after_execBarwt h
  | .barrd _ => .after_execBarrd h
  | .qpush _ => .after_execQpush h
  | .qpop _ => .after_execQpop h
  | .qdwr _ => .after_execQdwr h
  | .qdrd _ => .after_execQdrd h
  | .permitFree _ => .after_execPermitFree h
  | .permitStore _ => .after_execPermitStore h
  | .wlinit _ => .after_execWlinit h
  | .wlpush _ => .after_execWlpush h
  | .wlins _ => .after_execWlins h
  | .wlpopb _ => .after_execWlpopb h
  | .wlstat _ => .after_execWlstat h
  | .wlfree _ => .after_execWlfree h
  | .subscr _ => .after_execSubscr h
  | .unsub _ => .after_execUnsub h
  | .substat _ => .after_execSubstat h
  | .vadd _ | .vsub _ | .vand _ | .vor _ | .vxor _ | .vandn _ | .vshl _ | .vshr _ | .vsra _ | .vmin _ | .vmax _ | .vfadd _ | .vfsub _ |
    .vfmul _ | .vfma _ | .vfmin _ | .vfmax _ | .vfneg _ | .vrcp _ | .vrsq _ | .vsel _ | .vcvt _ | .vmov _ | .vbcast _ | .viota _ | .vshuf
      _ |
    .vmul _ | .vmulh _ | .vdiv _ | .vrem _ | .vshli _ | .vshri _ | .vsrai _ => by unfold exec; exact .after_execLanes h
  | .vcmpeq _ | .vcmpne _ | .vcmplt _ | .vcmple _ | .vfcmpeq _ | .vfcmplt _ | .vfcmple _ => by unfold exec; exact .after_execVcmp h
  | .vld _ => .after_execVld h
  | .vst _ => .after_execVst h
  | .vlde _ => .after_execVlde h
  | .vste _ => .after_execVste h
  | .vldx _ => .after_execVldx h
  | .vstx _ => .after_execVstx h
  | .vlsld _ | .vlsst _ => by unfold exec; exact .after_execSlice h fun _ _ => .frame h
  | .vsp _ => .after_execVsp h
  | .vtopk _ => .after_execVtopk h
  | .mxlease _ => .after_execMxlease h
  | .mxrel => .after_execMxrel h
  | .tcfg _ => .after_execTcfg h
  | .trel _ => .after_execTrel h
  | .mxwait _ => .after_execMxwait h
  | .mxlda _ | .mxldb _ => by unfold exec; exact .after_execStage h
  | .mxmul _ | .mxtern _ => by unfold exec; exact .after_execProduct h
  | .mxdrain _ => .after_execMxdrain h
  | .mxstat _ => .after_execMxstat h
  | .nbcfg _ => .after_execNbcfg h
  | .nbmv _ => .after_execNbmv h
  | .nbstat _ => .after_execNbstat h
  | .cpy _ => .after_execCpy h
  | .cpyt _ => .after_execCpyt h
  | .syncwait _ => .after_execSyncwait h
  | .syncadd _ => .after_execSyncadd h
  | .gather _ => .after_execGather h
  | .twrun _ => .after_execTwrun h
  | .twstop => .after_execTwstop h
  | .twstat _ => .after_execTwstat h
  | .cestat _ => .after_execCestat h
  | .gvar _ => .after_execGvar h
  | .gfac _ => .after_execGfac h
  | .glink _ => .after_execGlink h
  | .gfmsg _ => .after_execGfmsg h
  | .gdamp _ => .after_execGdamp h
  | .gtol _ => .after_execGtol h
  | .grelin _ => .after_execGrelin h
  | .gread _ => .after_execGread h
  | .gsnap _ => .after_execGsnap h
  | .gcvg _ => .after_execGcvg h
  | .gfree _ => .after_execGfree h
  | .launch _ => .after_execLaunch h
  | .coll _ => .after_execColl h
  | .resume _ => .after_execResume h
  | .killt => .after_execKillt h
  | .killk _ => .after_execKillk h
  | .dwrd _ => .after_execDwrd h
  | .dwwr _ => .after_execDwwr h
  | .sysrd _ => .after_execSysrd h
  | .syswr _ => .after_execSyswr h
  | .mext _ => .after_execMext h
  | .tlbsync _ => .after_execTlbsync h
  | .preempt _ => .after_execPreempt h
  | .restore _ => .after_execRestore h
  | .migrate _ => .after_execMigrate h
  | .ckptFull _ | .ckptIncremental _ | .ckptRestore _ | .ckptResume _ => by unfold exec; exact .after_ckptForm h
  | .trap _ => .after_execTrap h
  | .hgtrig _ => .after_execHgtrig h
  | .hgrel _ => .after_execHgrel h
  | .hgstat _ => .after_execHgstat h
  | .dspcfgWrite => .after_execDspcfgWrite h
  | .sksizeWrite => .after_execSksizeWrite h
  | .thbootWrite => .after_execThbootWrite h
  | .fteWrite => .after_execFteWrite h
  | .ktWrite => .after_execKtWrite h
  | .wsetWrite => .after_execWsetWrite h
  | .wpWrite => .after_execWpWrite h
  | .mrgnWrite => .after_execMrgnWrite h
  | .worldMapWrite => .after_execWorldMapWrite h
  | .traptWrite => .after_execTraptWrite h
  | .messageArrive => .after_execMessageArrive h
  | .messageReply => .after_execMessageReply h
  | .contextFreeNotice => .after_execContextFreeNotice h
  | .resendTimerExpire => .after_execResendTimerExpire h
  | .withdrawal => .after_execWithdrawal h
  | .taskStart => .after_execTaskStart h
  | .launchPlace => .after_execLaunchPlace h
  | .loadLand => .after_execLoadLand h
  | .accessAccept => .after_execAccessAccept h
  | .faultFreeze => .after_execFaultFreeze h
  | .faultPacketArrive => .after_execFaultPacketArrive h
  | .pageFaultPost => .after_execPageFaultPost h
  | .pageFaultReply => .after_execPageFaultReply h
  | .directoryRequest => .after_execDirectoryRequest h
  | .writebackApply => .after_execWritebackApply h
  | .pageCopyRequest => .after_execPageCopyRequest h
  | .ownershipRequest => .after_execOwnershipRequest h
  | .pageInvalidate => .after_execPageInvalidate h
  | .ownershipGrant => .after_execOwnershipGrant h
  | .atomicMoved => .after_execAtomicMoved h
  | .subscriptionUpdateSend => .after_execSubscriptionUpdateSend h
  | .subscriptionUpdateApply => .after_execSubscriptionUpdateApply h
  | .subscriptionAck => .after_execSubscriptionAck h
  | .subscriptionTeardown => .after_execSubscriptionTeardown h
  | .gmuArrive => .after_execGmuArrive h
  | .gmuBind => .after_execGmuBind h
  | .gmuUnbind => .after_execGmuUnbind h
  | .barrierSweep => .after_execBarrierSweep h
  | .collArrive => .after_execCollArrive h
  | .collTimerExpire => .after_execCollTimerExpire h
  | .boundedWaitExpire => .after_execBoundedWaitExpire h
  | .leaseGrantExpire => .after_execLeaseGrantExpire h
  | .stagingLanded => .after_execStagingLanded h
  | .matrixCommandComplete => .after_execMatrixCommandComplete h
  | .drainWriteComplete => .after_execDrainWriteComplete h
  | .copyPieceLanded => .after_execCopyPieceLanded h
  | .copyComplete => .after_execCopyComplete h
  | .engineFault => .after_execEngineFault h
  | .gatherBatchLanded => .after_execGatherBatchLanded h
  | .tileLoad => .after_execTileLoad h
  | .storePermitAck => .after_execStorePermitAck h
  | .nbcfgPlaced => .after_execNbcfgPlaced h
  | .nbmvComplete => .after_execNbmvComplete h
  | .preemptAck => .after_execPreemptAck h
  | .powerInterval => .after_execPowerInterval h
  | .arraySelfTest => .after_execArraySelfTest h
  | .eccCorrectable => .after_execEccCorrectable h
  | .poisonMark => .after_execPoisonMark h
  | .dieStop => .after_execDieStop h
  | .thermalWarning => .after_execThermalWarning h
  | .thermalStop => .after_execThermalStop h
  | .twillLaneFail => .after_execTwillLaneFail h
  | .remoteTimeout => .after_execRemoteTimeout h
  | .apertureWriteTimeout => .after_execApertureWriteTimeout h
  | .hostMessageArrive => .after_execHostMessageArrive h
  | .hostLaunch => .after_execHostLaunch h
  | .hostMap => .after_execHostMap h
  | .hostKinst => .after_execHostKinst h
  | .hostCkpt => .after_execHostCkpt h
  | .hostAttest => .after_execHostAttest h
  | .hostHgtrig => .after_execHostHgtrig h
  | .hostHgrel => .after_execHostHgrel h
  | .mgmtCtrlRelease => .after_execMgmtCtrlRelease h
  | .mgmtCtrlHold => .after_execMgmtCtrlHold h
  | .mgmtWrite => .after_execMgmtWrite h
  | .auxPowerUp => .after_execAuxPowerUp h
  | .mainPowerLoss => .after_execMainPowerLoss h
  | .eviction => .after_execEviction h
  | .frameMigration => .after_execFrameMigration h
  | .thermalWarningClear => .after_execThermalWarningClear h
  | .mainInputReturn => .after_execMainInputReturn h

/-! One core (R163). -/

theorem OutCanonical.after_attempt {s : State} {a k} (h : MemoriesCanonical s) : OutCanonical (attempt s a k) := by
  unfold attempt
  dsimp only
  split
  · rename_i e
    exact .after_answer (.after_nextInstr_stop (.frame h) e)
  · rename_i e
    have hs := MemoriesCanonical.after_nextInstr_run (.frame h) e
    exact .ite (.after_answer (.after_waitFor hs)) (.after_exec hs)

theorem OutCanonical.after_tryIssue {s : State} {a l} (h : MemoriesCanonical s) : OutCanonical (tryIssue a l s) := by
  induction l generalizing s with
  | nil => exact .next h
  | cons k t ih =>
    unfold tryIssue
    split
    · rename_i e
      have ha := OutCanonical.after_attempt h _ e
      exact .ite (ih (.frame ha)) (.next (.frame ha))
    · exact .after_attempt h

/-! One step of the machine. -/

theorem MemoriesCanonical.after_settle {s : State} {n} (h : MemoriesCanonical s) : MemoriesCanonical (settle n s) :=
  .of_eq h (settle_hbm n s) (settle_hostMem n s) (settle_tiers n s)

theorem OutCanonical.after_settled {n o} (h : OutCanonical o) : OutCanonical (settled n o) := by
  intro t e
  obtain ⟨u, rfl, rfl⟩ := settled_next e
  exact .after_settle (h u rfl)

theorem OutCanonical.after_issueStep {s : State} {a late} (h : MemoriesCanonical s) : OutCanonical (issueStep s a late) :=
  .after_settled (.after_tryIssue (.frame h))

theorem OutCanonical.after_eventStep {s : State} {e} (h : MemoriesCanonical s) : OutCanonical (eventStep s e) :=
  .after_settled (.after_exec (.frame h))

theorem OutCanonical.after_envStep {s : State} {e} (h : MemoriesCanonical s) : OutCanonical (envStep s e) := by
  unfold envStep
  split
  · rename_i he
    exact .next (.after_settle (.frame (OutCanonical.after_exec (.frame h) _ he)))
  · exact .after_exec (.frame h)

theorem OutCanonical.after_pendingStep {s : State} {k} (h : MemoriesCanonical s) : OutCanonical (pendingStep s k) := by
  unfold pendingStep
  dsimp only
  split
  · exact .next (.after_settle h)
  · exact .after_eventStep (.frame h)

theorem OutCanonical.after_choiceStep {s : State} {c} (h : MemoriesCanonical s) : OutCanonical (choiceStep s c) := by
  unfold choiceStep
  split
  · exact .after_issueStep h
  · exact .after_pendingStep h
  · exact .after_envStep h
  · exact .next (.after_settle (.after_outsideStep h))
  · exact .next (.after_settle h)

theorem OutCanonical.after_dueStep {s : State} {k} (h : MemoriesCanonical s) : OutCanonical (dueStep s k) := by
  unfold dueStep
  split
  · exact .next h
  · exact .after_settled (.after_exec (.frame h))

theorem OutCanonical.after_step {s : State} (h : MemoriesCanonical s) : OutCanonical (step s) := by
  unfold step
  split
  · exact .after_dueStep h
  · split <;> exact .after_choiceStep (.frame h)

/-- Settles O58: `step` is one of the functions that keep the memories canonical. -/
theorem memoryStaysCanonicalInEveryStep : Obligations.MemoryStaysCanonicalInEveryStep :=
  fun _ t h e => OutCanonical.after_step h t e

end Sys2Proof.Machine

/-! SUPPORT. O10 (R34): a conversion's arithmetic as the table states it. Rounding reads only the quotient, so that a finite value may be
written with any numerator and denominator; a rounded pattern fits its format; and each class of destination gives the table's words. -/

namespace Sys2Proof

/-! Rounding reads only the quotient. -/

/-- A function of numerator and denominator that a common factor leaves as it was depends on the quotient only. -/
theorem eq_of_scale {α : Sort*} {F : Nat → Nat → α} (h : ∀ c n d, 0 < c → 0 < d → F (c * n) (c * d) = F n d) {n d m e : Nat}
    (hd : 0 < d) (he : 0 < e) (q : n * e = m * d) : F n d = F m e := by
  calc F n d = F (e * n) (e * d) := (h e n d he hd).symm
    _ = F (d * m) (d * e) := by rw [Nat.mul_comm e n, q, Nat.mul_comm m d, Nat.mul_comm e d]
    _ = F m e := h d m e hd he

theorem roundInt_scale (rm : Rm) (s : Bool) (c n d : Nat) (hc : 0 < c) : roundInt (c * n) (c * d) rm s = roundInt n d rm s := by
  have half : ∀ r, (2 * (c * r) < c * d ↔ 2 * r < d) ∧ (c * d < 2 * (c * r) ↔ d < 2 * r) := fun r => by
    rw [Nat.mul_left_comm 2 c r]
    exact ⟨Nat.mul_lt_mul_left hc, Nat.mul_lt_mul_left hc⟩
  have zero : ∀ r, c * r = 0 ↔ r = 0 := fun r => by simp [hc.ne']
  unfold roundInt
  rw [Nat.mul_div_mul_left n d hc, Nat.mul_mod_mul_left]
  cases rm <;> simp only [half, zero, ne_eq]

theorem divPow_scale (c n d : Nat) (k : Int) : divPow (c * n) (c * d) k = (c * (divPow n d k).1, c * (divPow n d k).2) := by
  cases k <;> simp only [divPow, Nat.mul_assoc]

/-- The first guess of `floorLog2` is right or one too high; its test compares the quotient with the power. -/
theorem floorLog2_eq (n d : Nat) (hd : 0 < d) :
    floorLog2 n d = if (2 : ℚ) ^ ((Nat.log2 n : Int) - Nat.log2 d) ≤ (n : ℚ) / d then (Nat.log2 n : Int) - Nat.log2 d
      else (Nat.log2 n : Int) - Nat.log2 d - 1 := by
  have hd' : (0 : ℚ) < d := by exact_mod_cast hd
  unfold floorLog2
  generalize (Nat.log2 n : Int) - Nat.log2 d = k
  cases k with
  | ofNat j =>
    have t : (2 : ℚ) ^ (Int.ofNat j) ≤ (n : ℚ) / d ↔ d * 2 ^ j ≤ n := by
      rw [le_div_iff₀ hd', Int.ofNat_eq_natCast, zpow_natCast, mul_comm]
      exact_mod_cast Iff.rfl
    simp only [t]
  | negSucc j =>
    have t : (2 : ℚ) ^ (Int.negSucc j) ≤ (n : ℚ) / d ↔ d ≤ n * 2 ^ (j + 1) := by
      rw [le_div_iff₀ hd', zpow_negSucc, inv_mul_le_iff₀ (by positivity), mul_comm]
      exact_mod_cast Iff.rfl
    simp only [t]

theorem zpow_log2_bounds (n : Nat) (hn : 0 < n) : (2 : ℚ) ^ (Nat.log2 n : Int) ≤ n ∧ (n : ℚ) < 2 ^ ((Nat.log2 n : Int) + 1) := by
  have lo : 2 ^ Nat.log2 n ≤ n := Nat.log2_self_le hn.ne'
  have hi : n < 2 ^ (Nat.log2 n + 1) := Nat.lt_log2_self
  exact ⟨by exact_mod_cast lo, by exact_mod_cast hi⟩

theorem floorLog2_eq_log (n d : Nat) (hn : 0 < n) (hd : 0 < d) : floorLog2 n d = Int.log 2 ((n : ℚ) / d) := by
  have hd' : (0 : ℚ) < d := by exact_mod_cast hd
  have hq : (0 : ℚ) < (n : ℚ) / d := by positivity
  obtain ⟨nlo, nhi⟩ := zpow_log2_bounds n hn
  obtain ⟨dlo, dhi⟩ := zpow_log2_bounds d hd
  rw [floorLog2_eq n d hd]
  generalize (Nat.log2 n : Int) = a at *
  generalize (Nat.log2 d : Int) = b at *
  have below : (n : ℚ) / d < 2 ^ (a - b + 1) := by
    rw [div_lt_iff₀ hd']
    calc (n : ℚ) < 2 ^ (a + 1) := nhi
      _ = 2 ^ (a - b + 1) * 2 ^ b := by rw [← zpow_add₀ two_ne_zero]; congr 1; ring
      _ ≤ 2 ^ (a - b + 1) * d := by gcongr
  have above : (2 : ℚ) ^ (a - b - 1) ≤ (n : ℚ) / d := by
    rw [le_div_iff₀ hd']
    calc (2 : ℚ) ^ (a - b - 1) * d ≤ 2 ^ (a - b - 1) * 2 ^ (b + 1) := by gcongr
      _ = 2 ^ a := by rw [← zpow_add₀ two_ne_zero]; congr 1; ring
      _ ≤ n := nlo
  have lt_iff (k : Int) : (n : ℚ) / d < 2 ^ k ↔ Int.log 2 ((n : ℚ) / d) < k := Int.lt_zpow_iff_log_lt one_lt_two hq
  have le_iff (k : Int) : (2 : ℚ) ^ k ≤ (n : ℚ) / d ↔ k ≤ Int.log 2 ((n : ℚ) / d) := Int.zpow_le_iff_le_log one_lt_two hq
  rw [lt_iff] at below
  rw [le_iff] at above
  simp only [le_iff]
  split <;> omega

theorem floorLog2_scale (c n d : Nat) (hc : 0 < c) (hn : 0 < n) (hd : 0 < d) : floorLog2 (c * n) (c * d) = floorLog2 n d := by
  rw [floorLog2_eq_log _ _ (by positivity) (by positivity), floorLog2_eq_log n d hn hd, Nat.cast_mul, Nat.cast_mul,
    mul_div_mul_left _ _ (by positivity)]

theorem roundFloat_scale (f : FF) (s : Bool) (rm : Rm) (sat : Bool) (c n d : Nat) (hc : 0 < c) (hd : 0 < d) :
    roundFloat f (.fin s (c * n) (c * d)) rm sat = roundFloat f (.fin s n d) rm sat := by
  by_cases hn : n = 0
  · simp only [roundFloat, hn, Nat.mul_zero, if_true]
  have inexact (k a b : Nat) : (k * (c * a) != c * b) = (k * a != b) := by
    rw [Bool.eq_iff_iff, bne_iff_ne, bne_iff_ne, Nat.mul_left_comm, ne_eq, ne_eq, Nat.mul_right_inj hc.ne']
  simp only [roundFloat, hn, Nat.mul_eq_zero, hc.ne', or_self, if_false, floorLog2_scale c n d hc (Nat.pos_of_ne_zero hn) hd,
    divPow_scale, roundInt_scale _ _ c _ _ hc, inexact]

theorem roundInt_congr (rm : Rm) (s : Bool) {n d m e : Nat} (hd : 0 < d) (he : 0 < e) (q : n * e = m * d) :
    roundInt n d rm s = roundInt m e rm s :=
  eq_of_scale (F := fun n d => roundInt n d rm s) (fun c n d hc _ => roundInt_scale rm s c n d hc) hd he q

theorem mod_eq_zero_congr {n d m e : Nat} (hd : 0 < d) (he : 0 < e) (q : n * e = m * d) : (n % d = 0) = (m % e = 0) :=
  eq_of_scale (F := fun n d => n % d = 0) (fun c n d hc _ => by simp [Nat.mul_mod_mul_left, hc.ne']) hd he q

theorem roundFloat_congr (f : FF) (s : Bool) (rm : Rm) (sat : Bool) {n d m e : Nat} (hd : 0 < d) (he : 0 < e) (q : n * e = m * d) :
    roundFloat f (.fin s n d) rm sat = roundFloat f (.fin s m e) rm sat :=
  eq_of_scale (F := fun n d => roundFloat f (.fin s n d) rm sat) (fun c n d => roundFloat_scale f s rm sat c n d) hd he q

/-! A rounded pattern fits its format. -/

/-- The patterns of infinity, NaN and the largest finite value leave the sign bit free. -/
structure FF.Fits (f : FF) : Prop where
  maxFin : f.maxFin < 2 ^ (f.e + f.m)
  inf    : f.infBits < 2 ^ (f.e + f.m)
  nan    : f.nanBits < 2 ^ (f.e + f.m)

theorem Fmt.fits {f : Fmt} {g : FF} (h : f.cls = .flt g) : g.Fits := by
  cases f <;> cases h <;> constructor <;> decide

theorem FF.withSign_lt {f : FF} {b : Nat} (s : Bool) (h : b < 2 ^ (f.e + f.m)) : f.withSign s b < 2 ^ f.width := by
  have w : 2 ^ f.width = 2 ^ (f.e + f.m) + 2 ^ (f.e + f.m) := by
    rw [FF.width, Nat.add_assoc, Nat.add_comm, Nat.pow_succ, Nat.mul_two]
  unfold FF.withSign
  split <;> omega

theorem FF.Fits.nan_lt {f : FF} (h : f.Fits) : f.nanBits < 2 ^ f.width := FF.withSign_lt false h.nan

theorem overflowValue_lt {f : FF} (h : f.Fits) (s : Bool) (rm : Rm) (sat fin : Bool) : (overflowValue f s rm sat fin).1 < 2 ^ f.width := by
  have max := FF.withSign_lt s h.maxFin
  have inf := FF.withSign_lt s h.inf
  unfold overflowValue
  simp only
  split_ifs
  · exact max
  · exact h.nan_lt
  · exact inf
  · exact max

theorem roundFloat_lt {f : FF} (h : f.Fits) (v : Val) (rm : Rm) (sat : Bool) : (roundFloat f v rm sat).1 < 2 ^ f.width := by
  cases v with
  | nan => exact h.nan_lt
  | inf s => exact overflowValue_lt h s rm sat false
  | fin s n d =>
    by_cases zero : n = 0
    · simp only [roundFloat, zero, if_true]
      exact FF.withSign_lt s (by positivity)
    simp only [roundFloat, zero, if_false]
    generalize (if floorLog2 n d < f.emin then f.emin else floorLog2 n d) = e
    split
    · exact overflowValue_lt h s rm sat true
    · rename_i small
      exact FF.withSign_lt s (lt_of_le_of_lt (Nat.le_of_not_lt small) h.maxFin)

end Sys2Proof

namespace Sys2Proof

/-! Integers of a width, as bit vectors. -/

@[simp] theorem sgn_ofInt (n : Int) : sgn (decide (n < 0)) n.natAbs = n := by
  unfold sgn
  by_cases h : n < 0
  · rw [decide_eq_true h, if_pos rfl]; omega
  · rw [decide_eq_false h, if_neg Bool.false_ne_true]; omega

theorem readInt_true (x w : Nat) (h : 0 < w) : readInt x w true = (BitVec.ofNat w x).toInt := by
  have p : 2 ^ w = 2 * 2 ^ (w - 1) := (mul_pow_sub_one h.ne' 2).symm
  simp only [readInt, BitVec.toInt_eq_toNat_cond, BitVec.toNat_ofNat, Bool.true_and, decide_eq_true_eq]
  split <;> split <;> omega

theorem readInt_false (x w : Nat) : readInt x w false = ((BitVec.ofNat w x).toNat : Int) := by
  simp [readInt]

/-- Only the low bits of a pattern are read. -/
theorem readInt_mod (x w : Nat) (sg : Bool) : readInt (x % 2 ^ w) w sg = readInt x w sg := by
  simp only [readInt, Nat.mod_mod]

theorem ofNat_wrapN (n : Int) (w : Nat) : BitVec.ofNat w (wrapN n w) = BitVec.ofInt w n := by
  apply BitVec.eq_of_toNat_eq
  simp only [wrapN, BitVec.toNat_ofNat, BitVec.toNat_ofInt]
  have lt : n % (2 ^ w : Nat) < (2 ^ w : Nat) := Int.emod_lt_of_pos n (by positivity)
  exact Nat.mod_eq_of_lt (by omega)

/-- An integer within the range of a width is the value of its pattern. -/
theorem readInt_wrapN {n : Int} {w : Nat} {sg : Bool} (hw : 0 < w) (lo : minVal w sg ≤ n) (hi : n ≤ maxVal w sg) :
    readInt (wrapN n w) w sg = n := by
  have p : (2 ^ w : Nat) = 2 * 2 ^ (w - 1) := (mul_pow_sub_one hw.ne' 2).symm
  have pos : 0 < 2 ^ (w - 1) := by positivity
  cases sg with
  | true =>
    rw [readInt_true _ _ hw, ofNat_wrapN, BitVec.toInt_ofInt]
    simp only [minVal, maxVal, if_true] at lo hi
    exact Int.bmod_eq_of_le (by omega) (by omega)
  | false =>
    rw [readInt_false, ofNat_wrapN, BitVec.toNat_ofInt]
    simp only [minVal, maxVal, if_false, Bool.false_eq_true] at lo hi
    rw [Int.emod_eq_of_lt lo (by omega)]
    omega

/-- Of a 64-bit integer the low bits are those of the integer. -/
theorem ofNat_toNat_ofInt {w : Nat} (h : w ≤ 64) (n : Int) : BitVec.ofNat w (BitVec.ofInt 64 n).toNat = BitVec.ofInt w n := by
  rw [BitVec.ofNat_toNat]
  apply BitVec.eq_of_toInt_eq
  rw [BitVec.toInt_setWidth, BitVec.toInt_ofInt, BitVec.toNat_ofInt, Int.toNat_of_nonneg (Int.emod_nonneg _ (by positivity))]
  rw [Int.bmod_def, Int.bmod_def, Int.emod_emod_of_dvd _ (by exact_mod_cast pow_dvd_pow 2 h)]

theorem readInt_congr {x y w : Nat} (h : BitVec.ofNat w x = BitVec.ofNat w y) (sg : Bool) : readInt x w sg = readInt y w sg := by
  have h := congrArg BitVec.toNat h
  rw [BitVec.toNat_ofNat, BitVec.toNat_ofNat] at h
  rw [← readInt_mod, h, readInt_mod]

/-- A 64-bit word holds every integer of a format. -/
theorem word_of_readInt {w : Nat} (pos : 0 < w) (le : w ≤ 64) (x : Nat) (sg : Bool) :
    (if sg then (BitVec.ofInt 64 (readInt x w sg)).toInt else ((BitVec.ofInt 64 (readInt x w sg)).toNat : Int)) = readInt x w sg := by
  cases sg with
  | true => rw [if_pos rfl, readInt_true _ _ pos]; exact BitVec.toInt_signExtend_of_le le
  | false =>
    rw [if_neg Bool.false_ne_true, readInt_false, BitVec.ofInt_natCast, BitVec.toNat_ofNat, Nat.mod_eq_of_lt]
    exact lt_of_lt_of_le (BitVec.isLt _) (Nat.pow_le_pow_right two_pos le)

theorem Fmt.bits_of_cls_int {f : Fmt} {w : Nat} {sg : Bool} (h : f.cls = .int w sg) : f.bits = w := by unfold Fmt.bits; rw [h]
theorem Fmt.bits_of_cls_flt {f : Fmt} {g : FF} (h : f.cls = .flt g) : f.bits = g.width := by unfold Fmt.bits; rw [h]
theorem Fmt.width_of_cls_int {f : Fmt} {w : Nat} {sg : Bool} (h : f.cls = .int w sg) : 0 < w ∧ w ≤ 64 := by cases f <;> cases h <;> decide

/-- A result of an integer format in a register is its value. -/
theorem ofNat_extend_int {f : Fmt} {w : Nat} {sg : Bool} (h : f.cls = .int w sg) (x : Nat) :
    BitVec.ofNat 64 (extend f x 64) = BitVec.ofInt 64 (readInt x w sg) := by
  unfold extend
  rw [h, Fmt.bits_of_cls_int h]
  cases sg with
  | true => exact ofNat_wrapN _ _
  | false => simp [readInt, ← BitVec.ofInt_natCast]

/-- A result of a float format in a register is its pattern. -/
theorem extend_flt {f : Fmt} {g : FF} (h : f.cls = .flt g) {x : Nat} (hx : x < 2 ^ g.width) (w : Nat) : extend f x w = x := by
  unfold extend
  rw [h, Fmt.bits_of_cls_flt h]
  exact Nat.mod_eq_of_lt hx

/-! Conversion by the class of its destination. -/

theorem convTo_int {f : Fmt} {w : Nat} {sg : Bool} (h : f.cls = .int w sg) (n : Int) (t : Word) (rm : Rm) (sat : Bool) :
    convTo (.ofInt n, t) true f rm sat = ((intToInt n w sg sat).1, (intToInt n w sg sat).2 ||| t) := by
  simp [convTo, h, Val.ofInt]

theorem convTo_flt {f : Fmt} {g : FF} (h : f.cls = .flt g) (x : Fl Val) (int : Bool) (rm : Rm) (sat : Bool) :
    convTo x int f rm sat = ((roundFloat g x.1 rm sat).1, (roundFloat g x.1 rm sat).2 ||| x.2) := by
  simp [convTo, h]

/-! A float source sets no flags of its own. -/

theorem convTo_toInt {f : Fmt} {w : Nat} {sg : Bool} (h : f.cls = .int w sg) (v : Val) (rm : Rm) (sat : Bool) :
    convTo (v, 0) false f rm sat = toInt v w sg rm sat := by
  simp [convTo, h]

theorem convTo_roundFloat {f : Fmt} {g : FF} (h : f.cls = .flt g) (v : Val) (rm : Rm) (sat : Bool) :
    convTo (v, 0) false f rm sat = roundFloat g v rm sat := by
  simp [convTo, h]

theorem convTo_toTern (v : Val) (rm : Rm) (sat : Bool) : convTo (v, 0) false .t2 rm sat = toTern v rm sat := by
  simp [convTo, Fmt.cls]

@[simp] theorem roundInt_one (n : Nat) (rm : Rm) (s : Bool) : roundInt n 1 rm s = n := by
  cases rm <;> simp [roundInt, Nat.mod_one]

theorem flagIf_inexact (n d : Nat) : flagIf (n % d != 0) flagNX = if n % d = 0 then 0 else flagNX := by
  unfold flagIf
  by_cases exact_ : n % d = 0 <;> simp [exact_]

end Sys2Proof

namespace Sys2Proof.Rule

open Sys2Proof.Machine

/-! The words of R34's table, and its sources. -/

/-- What a conversion leaves in a register: the element extended to 64 bits (R252), and its flags. -/
def register (f : Fmt) (r : Fl Nat) : Word × Word := (BitVec.ofNat 64 (extend f r.1 64), r.2)

/-- The table's cut and extension of a 64-bit word is the value of its low bits. -/
theorem intPattern_eq {f : Fmt} {w : Nat} {sg : Bool} (h : f.cls = .int w sg) (x : Word) :
    intPattern f x = some (BitVec.ofInt 64 (readInt x.toNat w sg)) := by
  have signed (w : Nat) (hw : 0 < w) : BitVec.ofInt 64 (readInt x.toNat w true) = (x.setWidth w).signExtend 64 := by
    rw [readInt_true _ _ hw, BitVec.ofNat_toNat]; rfl
  have unsigned (w : Nat) : BitVec.ofInt 64 (readInt x.toNat w false) = (x.setWidth w).setWidth 64 := by
    rw [readInt_false, BitVec.ofNat_toNat, BitVec.ofInt_natCast, BitVec.ofNat_toNat]
  cases f <;> cases h <;> simp [intPattern, signed, unsigned]

theorem srcInt_int {f : Fmt} {w : Nat} {sg : Bool} (h : f.cls = .int w sg) (x : Word) : srcInt f x = some (readInt x.toNat w sg, 0) := by
  obtain ⟨pos, le⟩ := Fmt.width_of_cls_int h
  have value := word_of_readInt pos le x.toNat sg
  have pattern := intPattern_eq h x
  cases f <;> cases h <;> simp only [srcInt, pattern, Option.map_some] <;> exact congrArg (fun n => some (n, 0)) value

theorem srcInt_t2 (x : Word) : srcInt .t2 x = some (ternVal x.toNat) := by
  have code (k : BitVec 2) : x.extractLsb' 0 2 = k ↔ x.toNat % 4 = k.toNat := by
    rw [← BitVec.toNat_inj, BitVec.extractLsb'_toNat, Nat.shiftRight_zero]
  have lt : x.toNat % 4 < 4 := Nat.mod_lt _ (by decide)
  simp only [srcInt, ternVal, code]
  generalize x.toNat % 4 = k at lt
  interval_cases k <;> rfl

/-- The integer sources of the table are the integers that an element reads as. -/
theorem elemVal_of_srcInt {f : Fmt} {x : Word} {n : Int} {t : Word} (h : srcInt f x = some (n, t)) :
    elemVal f (x.toNat % 2 ^ f.bits) = (.ofInt n, t) ∧ f.isIntLike = true := by
  cases c : f.cls with
  | int w sg =>
    rw [srcInt_int c] at h
    cases h
    simp [elemVal, Fmt.isIntLike, c, Fmt.bits_of_cls_int c, readInt_mod]
  | tern =>
    cases f <;> cases c
    rw [srcInt_t2, Option.some_inj] at h
    have low : ternVal (x.toNat % 2 ^ Fmt.bits .t2) = ternVal x.toNat := by
      simp [ternVal, Fmt.bits, Fmt.cls]
    exact ⟨by simp only [elemVal, Fmt.cls, low, h], rfl⟩
  | flt g => cases f <;> cases c <;> cases h
  | block el => cases f <;> cases c <;> cases h

theorem elemVal_flt {f : Fmt} {g : FF} (h : f.cls = .flt g) (x : Nat) :
    elemVal f (x % 2 ^ f.bits) = (g.decode (x % 2 ^ g.width), 0) ∧ f.isIntLike = false := by
  simp [elemVal, Fmt.isIntLike, h, Fmt.bits_of_cls_flt h]

/-! Integer destinations. -/

section
variable {f : Fmt} {w : Nat} {sg : Bool} (h : f.cls = .int w sg)
include h

theorem register_wrapN {n : Int} (lo : minVal w sg ≤ n) (hi : n ≤ maxVal w sg) (fl : Word) :
    register f (wrapN n w, fl) = (BitVec.ofInt 64 n, fl) := by
  rw [register, ofNat_extend_int h, readInt_wrapN (Fmt.width_of_cls_int h).1 lo hi]

theorem intPattern_ofInt (n : Int) (fl : Word) : intPattern f (BitVec.ofInt 64 n) = some (register f (wrapN n w, fl)).1 := by
  rw [intPattern_eq h, register, ofNat_extend_int h]
  rw [readInt_congr ((ofNat_toNat_ofInt (Fmt.width_of_cls_int h).2 n).trans (ofNat_wrapN n w).symm)]

theorem zero_mem_range : minVal w sg ≤ 0 ∧ 0 ≤ maxVal w sg := by
  cases f <;> cases h <;> decide

theorem register_intToInt_sat (n : Int) (t : Word) :
    register f ((intToInt n w sg true).1, (intToInt n w sg true).2 ||| t) =
      (BitVec.ofInt 64 (max (minVal w sg) (min n (maxVal w sg))), (if n < minVal w sg ∨ maxVal w sg < n then flagSAT else 0) ||| t) := by
  obtain ⟨lo, hi⟩ := zero_mem_range h
  have out : clampI n (minVal w sg) (maxVal w sg) = max (minVal w sg) (min n (maxVal w sg)) := by
    unfold clampI; split_ifs <;> omega
  simp only [intToInt, Bool.true_and, Bool.or_eq_true, decide_eq_true_eq]
  split
  · rw [register_wrapN h (by omega) (by omega), out]
  · rw [register_wrapN h (by omega) (by omega)]
    congr 2
    omega

/-- ToInt of R34 on a value that rounds to `v`. -/
theorem register_toInt_fin (s : Bool) (n d : Nat) (rm : Rm) (sat : Bool) :
    register f (toInt (.fin s n d) w sg rm sat) =
      intOut w sg (sgn s (roundInt n d rm s)) sat (if n % d = 0 then 0 else flagNX) := by
  obtain ⟨lo, hi⟩ := zero_mem_range h
  simp only [toInt, intOut, flagIf_inexact, Bool.or_eq_true, decide_eq_true_eq]
  generalize sgn s (roundInt n d rm s) = v
  by_cases below : v < minVal w sg
  · simp only [below, true_or, if_true, clampI, ite_self]
    exact register_wrapN h le_rfl (by omega) _
  by_cases above : maxVal w sg < v
  · simp only [below, above, or_true, if_true, if_false, clampI]
    exact register_wrapN h (by split <;> omega) (by split <;> omega) _
  · simp only [below, above, or_self, if_false]
    exact register_wrapN h (by omega) (by omega) _

theorem register_toInt_nan (rm : Rm) (sat : Bool) :
    register f (toInt .nan w sg rm sat) = (BitVec.ofInt 64 (if sat then 0 else minVal w sg), flagCVTBAD) := by
  obtain ⟨lo, hi⟩ := zero_mem_range h
  exact register_wrapN h (by split <;> omega) (by split <;> omega) _

theorem register_toInt_inf (s : Bool) (rm : Rm) (sat : Bool) :
    register f (toInt (.inf s) w sg rm sat) = intOut w sg (if s then minVal w sg - 1 else maxVal w sg + 1) sat 0 := by
  obtain ⟨lo, hi⟩ := zero_mem_range h
  rw [toInt, register_wrapN h (by split_ifs <;> omega) (by split_ifs <;> omega), intOut]
  cases s with
  | true => simp
  | false =>
    have : ¬ maxVal w sg + 1 < minVal w sg := by omega
    simp [this]

end

/-! Ternary destinations. -/

/-- ToTern of R34 on a value that rounds to `v`, with the flags of its source. -/
theorem register_toTern_fin (s : Bool) (n d : Nat) (rm : Rm) (sat : Bool) (t : Word) :
    register .t2 ((toTern (.fin s n d) rm sat).1, (toTern (.fin s n d) rm sat).2 ||| t) =
      ternOut (sgn s (roundInt n d rm s)) sat ((if n % d = 0 then 0 else flagNX) ||| t) := by
  have beside (a b : Word) : a ||| b ||| t = a ||| t ||| b := by rw [BitVec.or_assoc, BitVec.or_comm b, BitVec.or_assoc]
  simp only [toTern, ternOut, flagIf_inexact, Bool.and_eq_true, decide_eq_true_eq]
  generalize sgn s (roundInt n d rm s) = v
  by_cases inside : -1 ≤ v ∧ v ≤ 1
  · have cases_v : v = -1 ∨ v = 0 ∨ v = 1 := by omega
    simp only [inside]
    obtain rfl | rfl | rfl := cases_v <;> rfl
  · simp only [inside, if_false]
    cases sat with
    | false => simp only [Bool.false_eq_true, if_false, beside]; rfl
    | true =>
      have out : clampI v (-1) 1 = if v < 0 then -1 else 1 := by unfold clampI; split_ifs <;> omega
      simp only [if_true, beside, out]
      by_cases neg : v < 0 <;> simp only [neg, if_true, if_false] <;> rfl

theorem register_toTern_inf (s : Bool) (rm : Rm) (sat : Bool) :
    register .t2 (toTern (.inf s) rm sat) = ternOut (if s then -2 else 2) sat 0 := by
  cases s <;> cases sat <;> rfl

/-! Float destinations. -/

theorem register_flt {f : Fmt} {g : FF} (h : f.cls = .flt g) {x : Nat} (hx : x < 2 ^ g.width) (fl : Word) :
    register f (x, fl) = (BitVec.ofNat 64 x, fl) := by rw [register, extend_flt h hx]

theorem register_roundFloat {f : Fmt} {g : FF} (h : f.cls = .flt g) (v : Val) (rm : Rm) (sat : Bool) (fl : Word) :
    register f ((roundFloat g v rm sat).1, fl) = (BitVec.ofNat 64 (roundFloat g v rm sat).1, fl) :=
  register_flt h (roundFloat_lt (Fmt.fits h) v rm sat) fl

/-! The table. -/

/-- A finite value's quotient, as its numerator and denominator. -/
theorem cross_of_quot {s : Bool} {a b n m : Nat} (hb : 0 < b) (hm : 0 < m) (q : |quot (.fin s a b)| = (n : ℚ) / m) : a * m = n * b := by
  have hb' : (b : ℚ) ≠ 0 := by positivity
  have hm' : (m : ℚ) ≠ 0 := by positivity
  have abs : |quot (.fin s a b)| = (a : ℚ) / b := by
    have nonneg : (0 : ℚ) ≤ (a : ℚ) / b := by positivity
    cases s <;> simp [quot, abs_of_nonneg nonneg]
  rw [abs, div_eq_div_iff hb' hm'] at q
  exact_mod_cast q

/-- The rows of R34 with an integer or ternary source. -/
theorem convert_of_srcInt {df sf : Fmt} {x : Word} {n : Int} {t : Word} (h : srcInt sf x = some (n, t)) (rm : Rm) (sat : Bool) :
    convert df sf (x.toNat % 2 ^ sf.bits) rm sat = convTo (.ofInt n, t) true df rm sat := by
  obtain ⟨value, int⟩ := elemVal_of_srcInt h
  rw [convert, value, int]

theorem convert_of_flt {df sf : Fmt} {f : FF} (h : sf.cls = .flt f) (x : Word) (rm : Rm) (sat : Bool) :
    convert df sf (x.toNat % 2 ^ sf.bits) rm sat = convTo (f.decode (x.toNat % 2 ^ f.width), 0) false df rm sat := by
  obtain ⟨value, int⟩ := elemVal_flt h x.toNat
  rw [convert, value, int]

/-- What an integer becomes. -/
theorem register_convTo_int (df : Fmt) (n : Int) (t : Word) (rm : Rm) (sat : Bool) {z fl : Word}
    (e : (z, fl) = register df (convTo (.ofInt n, t) true df rm sat)) :
    (∀ w sg, df.cls = .int w sg →
      (sat = false → intPattern df (BitVec.ofInt 64 n) = some z ∧ fl = t) ∧
      (sat = true → z = BitVec.ofInt 64 (max (minVal w sg) (min n (maxVal w sg))) ∧
        fl = (if n < minVal w sg ∨ maxVal w sg < n then flagSAT else 0) ||| t)) ∧
    (∀ g, df.cls = .flt g →
      let r := roundFloat g (.fin (decide (n < 0)) n.natAbs 1) rm sat
      (z, fl) = (BitVec.ofNat 64 r.1, r.2 ||| t)) ∧
    (df = .t2 → (z, fl) = ternOut n sat t) := by
  refine ⟨fun w sg h => ?_, fun g h => ?_, fun h => ?_⟩
  · rw [convTo_int h] at e
    refine ⟨fun wrap => ?_, fun clamp => ?_⟩
    · subst wrap
      have same : register df (wrapN n w, 0 ||| t) = (z, fl) := e.symm
      rw [intPattern_ofInt h n (0 ||| t), same]
      exact ⟨rfl, (Prod.ext_iff.mp e).2.trans (BitVec.zero_or)⟩
    · subst clamp
      exact Prod.ext_iff.mp (e.trans (register_intToInt_sat h n t))
  · rw [e, convTo_flt h]
    exact register_roundFloat h _ rm sat _
  · subst h
    have r := register_toTern_fin (decide (n < 0)) n.natAbs 1 rm sat t
    rw [roundInt_one, sgn_ofInt, Nat.mod_one, if_pos rfl, show 0 ||| t = t from BitVec.zero_or] at r
    exact e.trans r

section
variable {df : Fmt} {rm : Rm} {sat : Bool} {z fl : Word}

/-- What a NaN becomes. -/
theorem register_convTo_nan (e : (z, fl) = register df (convTo (.nan, 0) false df rm sat)) :
    (∀ w sg, df.cls = .int w sg → (z, fl) = (BitVec.ofInt 64 (if sat then 0 else minVal w sg), flagCVTBAD)) ∧
    (∀ g, df.cls = .flt g → (z, fl) = (BitVec.ofNat 64 g.nanBits, 0)) ∧ (df = .t2 → (z, fl) = (0, flagCVTBAD)) := by
  refine ⟨fun w sg h => ?_, fun g h => ?_, fun h => ?_⟩
  · rw [convTo_toInt h] at e
    exact e.trans (register_toInt_nan h rm sat)
  · rw [convTo_roundFloat h] at e
    exact e.trans (register_roundFloat h .nan rm sat 0)
  · subst h
    rw [convTo_toTern] at e
    exact e

/-- What an infinity becomes. -/
theorem register_convTo_inf {s : Bool} (e : (z, fl) = register df (convTo (.inf s, 0) false df rm sat)) :
    (∀ w sg, df.cls = .int w sg → (z, fl) = intOut w sg (if s then minVal w sg - 1 else maxVal w sg + 1) sat 0) ∧
    (∀ g, df.cls = .flt g → (z, fl) = (BitVec.ofNat 64 (overflowValue g s rm sat false).1, (overflowValue g s rm sat false).2)) ∧
    (df = .t2 → (z, fl) = ternOut (if s then -2 else 2) sat 0) := by
  refine ⟨fun w sg h => ?_, fun g h => ?_, fun h => ?_⟩
  · rw [convTo_toInt h] at e
    exact e.trans (register_toInt_inf h s rm sat)
  · rw [convTo_roundFloat h] at e
    exact e.trans (register_roundFloat h (.inf s) rm sat _)
  · subst h
    rw [convTo_toTern] at e
    exact e.trans (register_toTern_inf s rm sat)

/-- What a finite value becomes, however it is written as a quotient. -/
theorem register_convTo_fin {s : Bool} {a b n m : Nat} (hb : 0 < b) (hm : 0 < m) (q : a * m = n * b)
    (e : (z, fl) = register df (convTo (.fin s a b, 0) false df rm sat)) :
    let k := sgn s (roundInt n m rm s)
    let nx : Word := if n % m = 0 then 0 else flagNX
    (∀ w sg, df.cls = .int w sg → (z, fl) = intOut w sg k sat nx) ∧
    (∀ g, df.cls = .flt g → (z, fl) = (BitVec.ofNat 64 (roundFloat g (.fin s n m) rm sat).1, (roundFloat g (.fin s n m) rm sat).2)) ∧
    (df = .t2 → (z, fl) = ternOut k sat nx) := by
  rw [← roundInt_congr rm s hb hm q]
  simp only [← mod_eq_zero_congr hb hm q]
  refine ⟨fun w sg h => ?_, fun g h => ?_, fun h => ?_⟩
  · rw [convTo_toInt h] at e
    exact e.trans (register_toInt_fin h s a b rm sat)
  · rw [convTo_roundFloat h, roundFloat_congr g s rm sat hb hm q] at e
    exact e.trans (register_roundFloat h (.fin s n m) rm sat _)
  · subst h
    have r := register_toTern_fin s a b rm sat 0
    simp only [show ∀ x : Word, x ||| 0 = x from fun _ => BitVec.or_zero] at r
    rw [convTo_toTern] at e
    exact e.trans r

end

/-- Every conversion between formats that are no scaled blocks is the table's. -/
theorem converted_convert (df sf : Fmt) (rm : Rm) (sat : Bool) (x z fl : Word)
    (e : (z, fl) = register df (convert df sf (x.toNat % 2 ^ sf.bits) rm sat)) : converted df sf rm sat x z fl := by
  refine ⟨fun n t h => register_convTo_int df n t rm sat (e.trans (by rw [convert_of_srcInt h])), fun f h => ?_⟩
  rw [convert_of_flt h] at e
  refine ⟨fun nan => ?_, fun s inf => ?_, fun fin n m hm q => ?_⟩
  · rw [nan] at e
    exact register_convTo_nan e
  · rw [inf] at e
    exact register_convTo_inf e
  · generalize f.decode (x.toNat % 2 ^ f.width) = v at e fin q
    cases v with
    | nan => exact fin.elim
    | inf s => exact fin.elim
    | fin s a b =>
      have k : sgn s (roundInt n m rm s) = if s then -(roundInt n m rm true : Int) else roundInt n m rm false := by cases s <;> rfl
      have table := register_convTo_fin fin hm (cross_of_quot fin hm q) e
      rw [k] at table
      exact table

end Sys2Proof.Rule

namespace Sys2Proof.Machine

/-! Lanes: what a vector register holds after a lane is written, and after all active lanes are (R304, R305). -/

/-- The bits of a number put together from a low part, a field and a high part. -/
theorem testBit_parts {a b v lo len : Nat} (hb : b < 2 ^ lo) (hv : v < 2 ^ len) (i : Nat) :
    (2 ^ lo * (2 ^ len * a + v) + b).testBit i =
      if i < lo then b.testBit i else if i - lo < len then v.testBit (i - lo) else a.testBit (i - lo - len) := by
  rw [Nat.testBit_two_pow_mul_add _ hb, Nat.testBit_two_pow_mul_add _ hv]

/-- A number with the field of `len` bits from `lo` on replaced. -/
theorem testBit_replace (n lo len v i : Nat) :
    (n - n / 2 ^ lo % 2 ^ len * 2 ^ lo + v % 2 ^ len * 2 ^ lo).testBit i =
      if lo ≤ i ∧ i < lo + len then v.testBit (i - lo) else n.testBit i := by
  have low : n % 2 ^ lo < 2 ^ lo := Nat.mod_lt _ (Nat.two_pow_pos lo)
  have old : n / 2 ^ lo % 2 ^ len < 2 ^ len := Nat.mod_lt _ (Nat.two_pow_pos len)
  have new : v % 2 ^ len < 2 ^ len := Nat.mod_lt _ (Nat.two_pow_pos len)
  have parts : n = 2 ^ lo * (2 ^ len * (n / 2 ^ lo / 2 ^ len) + n / 2 ^ lo % 2 ^ len) + n % 2 ^ lo := by
    rw [Nat.div_add_mod, Nat.div_add_mod]
  have put : n - n / 2 ^ lo % 2 ^ len * 2 ^ lo + v % 2 ^ len * 2 ^ lo =
      2 ^ lo * (2 ^ len * (n / 2 ^ lo / 2 ^ len) + v % 2 ^ len) + n % 2 ^ lo := by
    rw [Nat.mul_add] at parts ⊢
    rw [Nat.mul_comm _ (2 ^ lo), Nat.mul_comm _ (2 ^ lo)]
    omega
  have bits := testBit_parts (a := n / 2 ^ lo / 2 ^ len) low old i
  rw [← parts] at bits
  rw [put, testBit_parts low new, bits, Nat.testBit_mod_two_pow v]
  by_cases under : i < lo
  · simp only [under, if_true, Nat.not_le.mpr under, false_and, if_false]
  by_cases inside : i - lo < len
  · simp only [under, inside, if_true, if_false, decide_true, Bool.true_and, Nat.not_lt.mp under, true_and,
      show i < lo + len by omega]
  · simp only [under, inside, if_false, Nat.not_lt.mp under, true_and, show ¬ i < lo + len by omega]

/-- `putBits` replaces the bits of its field and no other. -/
theorem getLsbD_putBits {w : Nat} (x : BitVec w) (hi lo v i : Nat) (le : lo ≤ hi) (hw : i < w) :
    (putBits x hi lo v).getLsbD i = if lo ≤ i ∧ i ≤ hi then v.testBit (i - lo) else x.getLsbD i := by
  rw [putBits, BitVec.getLsbD_ofNat, decide_eq_true hw, Bool.true_and, testBit_replace, BitVec.getLsbD]
  simp only [show i < lo + (hi + 1 - lo) ↔ i ≤ hi by omega]

/-- A lane of the statements is the model's. -/
theorem toNat_lane (v : Line) (l : Nat) : (Rule.lane v l).toNat = lane v l := by
  rw [Rule.lane, BitVec.extractLsb'_toNat, Nat.shiftRight_eq_div_pow]; rfl

theorem lane_setLane (v : Line) (l x k : Nat) (hk : k < 16) :
    Rule.lane (setLane v l x) k = if k = l then BitVec.ofNat 32 x else Rule.lane v k := by
  apply BitVec.eq_of_getLsbD_eq
  intro i hi
  have other (u : Line) : (Rule.lane u k).getLsbD i = u.getLsbD (32 * k + i) := by
    rw [Rule.lane, BitVec.getLsbD_extractLsb', decide_eq_true hi, Bool.true_and]
  rw [other, setLane, getLsbD_putBits _ _ _ _ _ (by omega) (by omega)]
  by_cases same : k = l
  · subst same
    rw [if_pos (by omega), if_pos rfl, BitVec.getLsbD_ofNat, decide_eq_true hi, Bool.true_and, Nat.add_sub_cancel_left]
  · rw [if_neg (by omega), if_neg same, other]

/-- One step of `mapLanes`. -/
def laneStep (f : Nat → Fl Nat) (r : Fl Line) (l : Nat) : Fl Line := (setLane r.1 l (f l).1, r.2 ||| (f l).2)

theorem mapLanes_eq (on : List Nat) (old : Line) (f : Nat → Fl Nat) : mapLanes on old f = on.foldl (laneStep f) (old, 0) := rfl

theorem lane_foldl_laneStep (f : Nat → Fl Nat) (on : List Nat) (r : Fl Line) (k : Nat) (hk : k < 16) :
    Rule.lane (on.foldl (laneStep f) r).1 k = if k ∈ on then BitVec.ofNat 32 (f k).1 else Rule.lane r.1 k := by
  induction on generalizing r with
  | nil => rfl
  | cons l t ih =>
    rw [List.foldl_cons, ih, laneStep, lane_setLane _ _ _ _ hk]
    by_cases later : k ∈ t
    · simp [later]
    · by_cases here : k = l
      · subst here; simp [later]
      · simp [later, here]

theorem flags_foldl_laneStep (f : Nat → Fl Nat) (on : List Nat) (r : Fl Line) (b : Nat) :
    (on.foldl (laneStep f) r).2.getLsbD b = true ↔ r.2.getLsbD b = true ∨ ∃ l ∈ on, (f l).2.getLsbD b = true := by
  induction on generalizing r with
  | nil => simp
  | cons l t ih => simp [ih, laneStep, or_assoc]

theorem on_eq_laneActive (c : Ctx) (form : VForm) (l : Nat) : Rule.on c form l = laneActive c form.mask l := rfl

theorem mem_lanesOn (c : Ctx) (form : VForm) (l : Nat) : l ∈ lanesOn c form.mask ↔ l < 16 ∧ Rule.on c form l = true := by
  rw [lanesOn, List.mem_filter, List.mem_range, on_eq_laneActive]

/-- An instruction on the active lanes of one vector register (R304, R305, R36): it completes, inactive lanes are kept, and the flags gather
those of the active lanes. -/
theorem execLanes_ready {i : Instr} {s : State} (h : Ready i s) (d : Reg) (form : VForm) (f : Ctx → Nat → Fl Nat) :
    ∃ (v : Line) (fl : Word), execLanes i s d form f = .next (s.setCur (wroteV i s.cur d v fl)) ∧
      Rule.gathered (Rule.on s.cur form) (fun l => (f s.cur l).2) fl ∧
      ∀ l, l < 16 → (Rule.on s.cur form l = false → Rule.lane v l = Rule.lane (s.cur.rV d) l) ∧
        (Rule.on s.cur form l = true → Rule.lane v l = BitVec.ofNat 32 (f s.cur l).1) := by
  refine ⟨_, _, issueReg_ready h _, fun b _ => ?_, fun l hl => ?_⟩
  · rw [mapLanes_eq, flags_foldl_laneStep]
    simp [mem_lanesOn, and_assoc]
  · rw [mapLanes_eq, lane_foldl_laneStep _ _ _ _ hl]
    simp only [mem_lanesOn, hl, true_and]
    exact ⟨fun off => if_neg (by rw [off]; exact Bool.false_ne_true), fun on => if_pos on⟩

/-! Conversions of registers and lanes. -/

/-- A lane holds the low half of what a scalar register would (R252, R304). -/
theorem extend_lane (f : Fmt) (x : Nat) : BitVec.ofNat 32 (extend f x 32) = (BitVec.ofNat 64 (extend f x 64)).setWidth 32 := by
  have low (n : Nat) : BitVec.ofNat 32 n = (BitVec.ofNat 64 n).setWidth 32 := (BitVec.setWidth_ofNat_of_le (by decide) n).symm
  unfold extend
  split
  · rw [ofNat_wrapN, ofNat_wrapN, ← BitVec.ofNat_toNat, ofNat_toNat_ofInt (by decide)]
  · exact low _

/-- A ready instruction that writes one scalar register writes it. -/
theorem execAlu_ready {i : Instr} {s : State} (h : Ready i s) (d : Reg) (f : Ctx → Fl Word) :
    execAlu i s d f = .next (s.setCur (wroteG i s.cur d (f s.cur).1 (f s.cur).2)) := issueReg_ready h _

theorem exec_cvt (o : OCvt) (s : State) : exec (.cvt o) s = execCvt o s := rfl
theorem exec_vcvt (o : OVCvt) (s : State) : exec (.vcvt o) s = execVcvt o s := rfl

/-- CVT on a register (R263). -/
theorem exec_cvt_converts (o : OCvt) (s : State) (h : Ready (.cvt o) s) :
    ∃ x fl : Word, exec (.cvt o) s = .next (s.setCur (wroteG (.cvt o) s.cur o.d x fl)) ∧
      Rule.converted o.dfmt o.sfmt o.rm o.sat (s.cur.rG o.a) x fl := by
  rw [exec_cvt]
  exact ⟨_, _, execAlu_ready h _ _, Rule.converted_convert o.dfmt o.sfmt o.rm o.sat (s.cur.rG o.a) _ _ rfl⟩

/-- VCVT on the active lanes (R312). -/
theorem exec_vcvt_converts (o : OVCvt) (s : State) (h : Ready (.vcvt o) s) :
    ∃ (v : Line) (g : Nat → Word) (fl : Word), exec (.vcvt o) s = .next (s.setCur (wroteV (.vcvt o) s.cur o.d v fl)) ∧
      Rule.gathered (Rule.on s.cur o.form) g fl ∧
      ∀ l, l < 16 → (Rule.on s.cur o.form l = false → Rule.lane v l = Rule.lane (s.cur.rV o.d) l) ∧
        (Rule.on s.cur o.form l = true → ∃ z : Word, Rule.lane v l = z.setWidth 32 ∧
          Rule.converted o.dfmt o.sfmt o.rm o.sat ((Rule.lane (s.cur.rV o.a) l).setWidth 64) z (g l)) := by
  rw [exec_vcvt]
  obtain ⟨v, fl, done, flags, lanes⟩ := execLanes_ready h o.d o.form fun c l =>
    let r := convert o.dfmt o.sfmt (lane (c.rV o.a) l % 2 ^ o.sfmt.bits) o.rm o.sat
    (extend o.dfmt r.1 32, r.2)
  refine ⟨v, _, fl, done, flags, fun l hl => ⟨(lanes l hl).1, fun on => ⟨_, ((lanes l hl).2 on).trans (extend_lane _ _), ?_⟩⟩⟩
  apply Rule.converted_convert
  rw [BitVec.toNat_setWidth_of_le (by decide), toNat_lane]
  rfl

/-- Settles O10: the arithmetic is R34's row by row (`Rule.converted_convert`), and lanes are converted as registers are. -/
theorem conversionsFollowTheirFormats : Obligations.ConversionsFollowTheirFormats :=
  ⟨exec_cvt_converts, exec_vcvt_converts⟩

end Sys2Proof.Machine

/-! SUPPORT. O20 (R29, R275): an element access whose paths are accepted goes on along them, and where `elemAt` puts an element. -/

namespace Sys2Proof.Machine

/-! Accesses of typed elements (R275). -/

/-- An address that resolves passes its local checks. -/
theorem localCheck_cons_of_resolve {s : State} {x : Acc} {va : Word} {n al : Nat} {k : AKind} {need : TyNeed} {p : Path}
    (r : resolve s x va n al k need = .ok p) (t : List (Word × Nat × Nat)) :
    localCheck s x k ((va, n, al) :: t) = localCheck s x k t := by
  have ok : ∀ e, resolveLocal s x va n al k ≠ .error e := fun e h => by
    unfold resolve at r
    rw [h] at r
    exact nomatch r
  rw [localCheck]
  split
  · exact absurd ‹_› (ok _)
  · rfl

/-- The scale of an element, where its format has one, resolves as an access of two bytes along `q`. -/
def scaleAccepted (s : State) (k : AKind) (scale : Option Word) (q : Option Path) : Prop :=
  match scale with
  | none => q = none
  | some sv => ∃ r, q = some r ∧ resolve s (curAcc s) sv 2 2 k = .ok r ∧ pathHold s (curAcc s) r 2 k = none

/-- An element whose bytes and scale are accepted is accessed along their paths. -/
theorem elemAccess_ok {i : Instr} {s : State} {e : ElemAddr} {k : AKind} {p : Path} {q : Option Path} (go : Path → Option Path → State)
    (r : resolve s (curAcc s) e.va e.el.bytes e.el.bytes k = .ok p) (h : pathHold s (curAcc s) p e.el.bytes k = none)
    (sc : scaleAccepted s k e.scale q) : elemAccess i s e k go = go p q := by
  unfold elemAccess
  dsimp only
  rw [localCheck_cons_of_resolve r]
  cases scale : e.scale with
  | none =>
    rw [scale] at sc
    cases (show q = none from sc)
    exact access_ok _ r h
  | some sv =>
    rw [scale] at sc
    obtain ⟨p', rfl, r', h'⟩ := sc
    rw [Option.toList_some, List.map_singleton, localCheck_cons_of_resolve r', localCheck]
    exact (access_ok _ r h).trans (access_ok _ r' h')

theorem exec_lde (o : OLde) (s : State) : exec (.lde o) s = execLde o s := rfl
theorem exec_ste (o : OSte) (s : State) : exec (.ste o) s = execSte o s := rfl

/-- LDE on an accepted element. -/
theorem exec_lde_accepted (o : OLde) (s : State) (f : Fmt) (k : Nat) (e : ElemAddr) (p : Path) (q : Option Path) (h : Ready (.lde o) s)
    (tag : tagOf (s.cur.rG o.base) = some (f, k)) (at_ : elemAddr (s.cur.rG o.base) f k o.off.toInt o.off.toInt o.pi = .ok e)
    (r : resolve s (curAcc s) e.va e.el.bytes e.el.bytes .rd = .ok p) (hold : pathHold s (curAcc s) p e.el.bytes .rd = none)
    (sc : scaleAccepted s .rd e.scale q) :
    let r1 := readPath (taintAcquire s (s.cur.taintG o.base)) (curAcc (taintAcquire s (s.cur.taintG o.base))) p e.el.bytes
    let r2 := match q with | none => (0, r1.2) | some q => readPath r1.2 (curAcc r1.2) q 2
    exec (.lde o) s = .next (done (.lde o) (landG (postInc r2.2 o.base o.pi e.nb) o.d
      (ldeValue f (r1.1 / 2 ^ e.el.bit % 2 ^ f.bits) r2.1 o.rm 64).1 (ldeValue f (r1.1 / 2 ^ e.el.bit % 2 ^ f.bits) r2.1 o.rm 64).2)) := by
  rw [exec_lde, execLde, issue_ready h, answer_eq]
  simp only [tag, at_, elemAccess_ok _ r hold sc]
  cases q <;> rfl

/-- STE on an accepted element. -/
theorem exec_ste_accepted (o : OSte) (s : State) (f : Fmt) (k : Nat) (e : ElemAddr) (p : Path) (h : Ready (.ste o) s)
    (tag : tagOf (s.cur.rG o.base) = some (f, k)) (at_ : elemAddr (s.cur.rG o.base) f k o.off.toInt o.off.toInt o.pi = .ok e)
    (r : resolve s (curAcc s) e.va e.el.bytes e.el.bytes .wr = .ok p) (hold : pathHold s (curAcc s) p e.el.bytes .wr = none) :
    let s1 := taintAcquire s (s.cur.taintG o.base)
    let v := steValue f (s.cur.rG o.s).toNat 64 o.rm o.sat
    let t := postInc (storeElem s1 p f e.el v.1) o.base o.pi e.nb
    exec (.ste o) s = .next (done (.ste o) (t.setCur (t.cur.orFlags v.2))) := by
  rw [exec_ste, execSte, issue_ready h, answer_eq]
  simp only [tag, at_, access_ok _ r hold]

/-! Where an element stands (R29). -/

/-- A block of bytes is followed by its scale and two bytes of padding. -/
theorem blockStride_bytes {el : Fmt} {k : Nat} (h : el ≠ .t2) (lo : 2 ≤ k) : blockStride el k = 2 ^ k + 4 := by
  have whole : 2 ^ k = 4 * 2 ^ (k - 2) := by rw [← Nat.sub_add_cancel lo, Nat.pow_add, Nat.mul_comm, Nat.add_sub_cancel]
  rw [blockStride, blockBytes, if_neg h, roundUp, ceilDiv]
  omega

/-- Elements of whole bytes stand one after another. -/
theorem elemAt_whole (f : Fmt) {n : Nat} (size : f.bits / 8 = n) (whole : f.isInt = true ∨ f.isFloat = true) (k : Nat) (e : Int) :
    elemAt f k e = ⟨n * e, n, 0, none⟩ := by
  have plain : (∃ w sg, f.cls = .int w sg) ∨ ∃ g, f.cls = .flt g := by
    cases f <;> simp_all [Fmt.isInt, Fmt.isFloat, Fmt.cls]
  obtain ⟨w, sg, h⟩ | ⟨g, h⟩ := plain <;> simp only [elemAt, h, size, Int.mul_comm]

/-- Four ternary elements share a byte. -/
theorem elemAt_t2 (k : Nat) (e : Int) : elemAt .t2 k e = ⟨e / 4, 1, 2 * (e % 4).toNat, none⟩ := rfl

/-- An element of a block of bytes, and its block's scale behind the elements. -/
theorem elemAt_block {f el : Fmt} {k : Nat} (h : f.cls = .block el) (t : el ≠ .t2) (lo : 2 ≤ k) (e : Int) :
    ∃ b j : Int, e = b * 2 ^ k + j ∧ 0 ≤ j ∧ j < 2 ^ k ∧
      (elemAt f k e).off = b * (2 ^ k + 4) + j ∧ (elemAt f k e).scale = some (b * (2 ^ k + 4) + 2 ^ k) := by
  have pos : (0 : Int) < 2 ^ k := by positivity
  have nonneg : 0 ≤ e % 2 ^ k := Int.emod_nonneg _ pos.ne'
  refine ⟨e / 2 ^ k, e % 2 ^ k, ?_, nonneg, Int.emod_lt_of_pos _ pos, ?_⟩
  · rw [Int.mul_comm, Int.mul_ediv_add_emod]
  · simp only [elemAt, h, t, if_false, blockStride_bytes t lo, blockLen, blockBytes]
    push_cast [Int.toNat_of_nonneg nonneg]
    exact ⟨rfl, rfl⟩

/-- Settles O20: an accepted element's access goes on along its paths, and `elemAt` lays each format out as its tag says. -/
theorem typedElementsFollowTheirTag : Obligations.TypedElementsFollowTheirTag := by
  refine ⟨⟨exec_lde_accepted, exec_ste_accepted⟩, fun f k e => ⟨?_, ?_, ?_, ?_, ?_, ?_⟩⟩
  · rintro (rfl | rfl | rfl) <;> exact elemAt_whole _ rfl (by decide) k e
  · rintro (rfl | rfl) <;> exact elemAt_whole _ rfl (by decide) k e
  · rintro (rfl | rfl | rfl | rfl) <;> exact elemAt_whole _ rfl (by decide) k e
  · have byte : (⟨(1 : Nat) * e, 1, 0, none⟩ : Elem) = ⟨e, 1, 0, none⟩ := by rw [Nat.cast_one, Int.one_mul]
    rintro (rfl | rfl | rfl | rfl) <;> exact (elemAt_whole _ rfl (by decide) k e).trans byte
  · rintro rfl
    rw [elemAt_t2]
    dsimp only
    omega
  · rintro (rfl | rfl) lo _ <;> exact elemAt_block rfl (by decide) lo e

end Sys2Proof.Machine

/-! SUPPORT. O54 (R52): a quotient and a remainder within the range of their width, in a register and in a lane. -/

namespace Sys2Proof

/-! Integers of a width in a register. -/

theorem Width.bits_pos (w : Width) : 0 < w.bits := by cases w <;> decide
theorem Width.bits_le (w : Width) : w.bits ≤ 64 := by cases w <;> decide
theorem VWidth.bits_width (w : VWidth) : w.width.bits = 32 := by cases w <;> rfl

/-- Extend of R252 leaves in the register the integer that its low bits read as. -/
theorem Width.ext_eq (w : Width) (v : Int) : w.ext v = BitVec.ofInt 64 (readInt (wrapN v w.bits) w.bits w.signed) := ofNat_wrapN _ _

/-- Extend and read again: the value of the low bits. -/
theorem Width.val_ext (w : Width) (v : Int) : w.val (w.ext v) = readInt (wrapN v w.bits) w.bits w.signed := by
  rw [w.ext_eq, Width.val]
  refine readInt_congr ?_ _
  rw [ofNat_toNat_ofInt w.bits_le]
  cases w.signed with
  | true => rw [readInt_true _ _ w.bits_pos, BitVec.ofInt_toInt]
  | false => rw [readInt_false, BitVec.ofInt_natCast, BitVec.ofNat_toNat, BitVec.setWidth_eq]

/-- The integers that a width holds. -/
def Width.holds (w : Width) (v : Int) : Prop := minVal w.bits w.signed ≤ v ∧ v ≤ maxVal w.bits w.signed

theorem Width.holds_signed {w : Width} (h : w.signed = true) (v : Int) :
    w.holds v ↔ -(2 ^ (w.bits - 1) : Nat) ≤ v ∧ v < (2 ^ (w.bits - 1) : Nat) := by
  have pos : 0 < 2 ^ (w.bits - 1) := by positivity
  simp only [Width.holds, minVal, maxVal, h, if_true]
  omega

theorem Width.holds_unsigned {w : Width} (h : w.signed = false) (v : Int) : w.holds v ↔ 0 ≤ v ∧ v < (2 ^ w.bits : Nat) := by
  have pos : 0 < 2 ^ w.bits := by positivity
  simp only [Width.holds, minVal, maxVal, h, Bool.false_eq_true, if_false]
  omega

theorem Width.val_ext_of_holds {w : Width} {v : Int} (h : w.holds v) : w.val (w.ext v) = v := by
  rw [w.val_ext, readInt_wrapN w.bits_pos h.1 h.2]

theorem Width.holds_val (w : Width) (x : Word) : w.holds (w.val x) := by
  cases h : w.signed with
  | true =>
    rw [Width.holds_signed h, Width.val, h, readInt_true _ _ w.bits_pos]
    have lo := BitVec.le_toInt (BitVec.ofNat w.bits x.toNat)
    have hi := BitVec.toInt_lt (x := BitVec.ofNat w.bits x.toNat)
    push_cast
    exact ⟨lo, hi⟩
  | false =>
    rw [Width.holds_unsigned h, Width.val, h, readInt_false]
    exact ⟨Int.natCast_nonneg _, by exact_mod_cast BitVec.isLt _⟩

/-! Division by R52. -/

/-- A quotient is no further from zero than its dividend. -/
theorem natAbs_tdiv_le (a b : Int) : (Int.tdiv a b).natAbs ≤ a.natAbs := by
  rw [Int.natAbs_tdiv]; exact Nat.div_le_self _ _

/-- A remainder lies between zero and the dividend. -/
theorem tmod_between (a b : Int) : (0 ≤ a → 0 ≤ Int.tmod a b ∧ Int.tmod a b ≤ a) ∧ (a ≤ 0 → a ≤ Int.tmod a b ∧ Int.tmod a b ≤ 0) := by
  have size : (Int.tmod a b).natAbs ≤ a.natAbs := by rw [Int.natAbs_tmod]; exact Nat.mod_le _ _
  have pos (h : 0 ≤ a) : 0 ≤ Int.tmod a b := Int.tmod_nonneg b h
  have neg (h : a ≤ 0) : Int.tmod a b ≤ 0 := by
    have := Int.tmod_nonneg b (a := -a) (by omega)
    rw [Int.neg_tmod] at this
    omega
  exact ⟨fun h => ⟨pos h, by have := pos h; omega⟩, fun h => ⟨by have := neg h; omega, neg h⟩⟩

/-- Only the least integer divided by -1 leaves a signed range. -/
theorem Width.holds_tdiv_signed {w : Width} (h : w.signed = true) {a b : Int} (ha : w.holds a) (least : ¬ (a = minVal w.bits true ∧ b = -1)) :
    w.holds (Int.tdiv a b) := by
  rw [Width.holds_signed h] at ha ⊢
  simp only [minVal, if_true] at least
  obtain rfl | rfl | rfl | large : b = 0 ∨ b = 1 ∨ b = -1 ∨ 2 ≤ b.natAbs := by omega
  · rw [Int.tdiv_zero]; omega
  · rw [Int.tdiv_one]; exact ha
  · rw [Int.tdiv_neg, Int.tdiv_one]; omega
  · have half : (Int.tdiv a b).natAbs ≤ a.natAbs / 2 := by rw [Int.natAbs_tdiv]; exact Nat.div_le_div_left large two_pos
    omega

theorem Width.holds_tdiv_unsigned {w : Width} (h : w.signed = false) {a b : Int} (ha : w.holds a) (hb : w.holds b) : w.holds (Int.tdiv a b) := by
  have le := natAbs_tdiv_le a b
  rw [Width.holds_unsigned h] at ha hb ⊢
  have nonneg := Int.tdiv_nonneg ha.1 hb.1
  omega

theorem Width.holds_tmod {w : Width} {a : Int} (ha : w.holds a) (b : Int) : w.holds (Int.tmod a b) := by
  obtain ⟨up, down⟩ := tmod_between a b
  cases h : w.signed with
  | true => rw [Width.holds_signed h] at ha ⊢; omega
  | false => rw [Width.holds_unsigned h] at ha ⊢; omega

/-- The quotient is R52's, it and the remainder are within the width, and the flag is that of a zero divisor. -/
theorem divRem_eq (w : Width) (a b : Int) :
    divRem w a b = ((Rule.quotInt w a b, Rule.remInt a b), if b = 0 then flagIDIV0 else 0) := by
  unfold divRem Rule.quotInt Rule.remInt
  by_cases zero : b = 0
  · simp [zero, maxVal]
  have rem : Int.tmod a b = a - Int.tdiv a b * b := by rw [Int.tmod_def, Int.mul_comm]
  by_cases least : w.signed = true ∧ a = minVal w.bits true ∧ b = -1
  · obtain ⟨h, rfl, rfl⟩ := least
    simp [h, minVal]
  · have fixed : ¬ (w.signed && decide (a = minVal w.bits true) && decide (b = -1)) = true := by simpa [and_assoc] using least
    have fixed' : ¬ (w.signed = true ∧ a = -2 ^ (w.bits - 1) ∧ b = -1) := by simpa [minVal] using least
    rw [if_neg zero, if_neg fixed, if_neg zero, if_neg fixed', if_neg zero, if_neg zero, rem]

theorem Width.holds_quotInt {w : Width} {a b : Int} (ha : w.holds a) (hb : w.holds b) : w.holds (Rule.quotInt w a b) := by
  have pos : (0 : Int) < (2 ^ w.bits : Nat) := by positivity
  have half : 0 < 2 ^ (w.bits - 1) := by positivity
  unfold Rule.quotInt
  cases h : w.signed with
  | true =>
    simp only [true_and, if_true]
    split_ifs with zero least
    · rw [Width.holds_signed h]; omega
    · exact ha
    · exact Width.holds_tdiv_signed h ha (by simpa [minVal] using least)
  | false =>
    simp only [Bool.false_eq_true, false_and, if_false]
    split_ifs with zero
    · rw [Width.holds_unsigned h]; push_cast at pos ⊢; omega
    · exact Width.holds_tdiv_unsigned h ha hb

theorem Width.holds_remInt {w : Width} {a : Int} (ha : w.holds a) (b : Int) : w.holds (Rule.remInt a b) := by
  unfold Rule.remInt
  split
  · exact ha
  · rw [Int.mul_comm, ← Int.tmod_def]; exact Width.holds_tmod ha b

end Sys2Proof

namespace Sys2Proof.Rule

open Sys2Proof.Machine

/-! The integers of the statements are the model's. -/

theorem int_eq_val (w : Width) (x : Word) : int w x = w.val x := by
  have signed (n : Nat) (hn : 0 < n) : readInt x.toNat n true = (x.setWidth n).toInt := by
    rw [readInt_true _ _ hn, BitVec.ofNat_toNat]
  have unsigned (n : Nat) : readInt x.toNat n false = ((x.setWidth n).toNat : Int) := by
    rw [readInt_false, BitVec.ofNat_toNat]
  cases w with
  | i64 => rw [Width.val, Width.signed, Width.bits, signed 64 (by decide), BitVec.setWidth_eq]; rfl
  | n64 => rw [Width.val, Width.signed, Width.bits, unsigned 64, BitVec.setWidth_eq]; rfl
  | i32 => exact (BitVec.toInt_signExtend_of_le (by decide)).trans (signed 32 (by decide)).symm
  | n32 => exact (congrArg Nat.cast (BitVec.toNat_setWidth_of_le (by decide))).trans (unsigned 32).symm

/-- A lane's integer is that of a word with its low bits. -/
theorem laneInt_ofNat (w : VWidth) (x : Nat) : laneInt w (BitVec.ofNat 32 x) = readInt x 32 w.width.signed := by
  rw [laneInt, int_eq_val, Width.val, w.bits_width]
  refine readInt_congr ?_ _
  rw [BitVec.ofNat_toNat, BitVec.setWidth_setWidth_of_le _ (by decide), BitVec.setWidth_eq]

theorem laneInt_lo32 (w : VWidth) (r : Fl Word) : laneInt w (BitVec.ofNat 32 (lo32 r).1) = w.width.val r.1 := by
  rw [laneInt_ofNat, lo32, readInt_mod, Width.val, w.bits_width]

theorem laneInt_lane (w : VWidth) (c : Ctx) (r : Reg) (l : Nat) : laneInt w (lane (c.rV r) l) = w.width.val (lw c r l) := by
  rw [laneInt, int_eq_val]
  congr 1
  rw [lw, ← toNat_lane]
  simp

end Sys2Proof.Rule

namespace Sys2Proof.Machine

theorem exec_div (o : OAlu) (s : State) : exec (.div o) s = execDiv o s := rfl
theorem exec_rem (o : OAlu) (s : State) : exec (.rem o) s = execRem o s := rfl
theorem exec_vdiv (o : OVBin) (s : State) : exec (.vdiv o) s = execVdiv o s := rfl
theorem exec_vrem (o : OVBin) (s : State) : exec (.vrem o) s = execVrem o s := rfl

/-- One flag, set by the active lanes that meet a test (R36). -/
theorem gathered_flag {on : Nat → Bool} {p : Nat → Prop} [DecidablePred p] {f fl : Word}
    (h : Rule.gathered on (fun l => if p l then f else 0) fl) :
    fl = if (List.range 16).any fun l => on l && decide (p l) then f else 0 := by
  apply BitVec.eq_of_getLsbD_eq
  intro b hb
  have set : fl.getLsbD b = true ↔ ∃ l, l < 16 ∧ on l = true ∧ p l ∧ f.getLsbD b = true := by
    rw [h b hb]
    refine exists_congr fun l => and_congr_right fun _ => and_congr_right fun _ => ?_
    by_cases yes : p l <;> simp [yes]
  rw [Bool.eq_iff_iff, set]
  by_cases some_ : ∃ l, l < 16 ∧ on l = true ∧ p l
  · obtain ⟨l, hl, act, yes⟩ := some_
    rw [if_pos (by simp only [List.any_eq_true, List.mem_range, Bool.and_eq_true, decide_eq_true_eq]; exact ⟨l, hl, act, yes⟩)]
    exact ⟨fun ⟨_, _, _, _, bit⟩ => bit, fun bit => ⟨l, hl, act, yes, bit⟩⟩
  · rw [if_neg (by simp only [List.any_eq_true, List.mem_range, Bool.and_eq_true, decide_eq_true_eq]; exact some_)]
    have clear : (0 : Word).getLsbD b = false := BitVec.getLsbD_zero
    rw [clear]
    exact ⟨fun ⟨l, hl, act, yes, _⟩ => absurd ⟨l, hl, act, yes⟩ some_, nofun⟩

/-- DIV and REM (R259) write R52's result. -/
theorem exec_div_rem (o : OAlu) (s : State) :
    let a := Rule.int o.w (s.cur.rG o.a)
    let b := Rule.int o.w (s.cur.rG o.b)
    let fl : Word := if b = 0 then flagIDIV0 else 0
    (Ready (.div o) s → ∃ x : Word, exec (.div o) s = .next (s.setCur (wroteG (.div o) s.cur o.d x fl)) ∧ Rule.int o.w x = Rule.quotInt o.w a b) ∧
    (Ready (.rem o) s → ∃ x : Word, exec (.rem o) s = .next (s.setCur (wroteG (.rem o) s.cur o.d x fl)) ∧ Rule.int o.w x = Rule.remInt a b) := by
  simp only [Rule.int_eq_val]
  have ha := o.w.holds_val (s.cur.rG o.a)
  have hb := o.w.holds_val (s.cur.rG o.b)
  refine ⟨fun h => ⟨_, ?_, Width.val_ext_of_holds (Width.holds_quotInt ha hb)⟩, fun h => ⟨_, ?_, Width.val_ext_of_holds (Width.holds_remInt ha _)⟩⟩
  · rw [exec_div, execDiv, execAlu_ready h, divRem_eq]
  · rw [exec_rem, execRem, execAlu_ready h, divRem_eq]

/-- An instruction that writes an integer of the width into its active lanes, with IDIV0 where a lane's divisor is 0. -/
theorem execLanes_div {i : Instr} {s : State} (h : Ready i s) (o : OVBin) (q : Int → Int → Int)
    (hq : ∀ {a b}, o.w.width.holds a → o.w.width.holds b → o.w.width.holds (q a b)) :
    let a (l : Nat) := Rule.laneInt o.w (Rule.lane (s.cur.rV o.a) l)
    let b (l : Nat) := Rule.laneInt o.w (Rule.lane (s.cur.rV o.b) l)
    let fl : Word := if (List.range 16).any fun l => Rule.on s.cur o.form l && decide (b l = 0) then flagIDIV0 else 0
    ∃ v : Line, execLanes i s o.d o.form (fun c l =>
        lo32 (o.w.width.ext (q (o.w.width.val (lw c o.a l)) (o.w.width.val (lw c o.b l))), if o.w.width.val (lw c o.b l) = 0 then flagIDIV0 else 0)) =
        .next (s.setCur (wroteV i s.cur o.d v fl)) ∧
      ∀ l, l < 16 → Rule.on s.cur o.form l = true → Rule.laneInt o.w (Rule.lane v l) = q (a l) (b l) := by
  obtain ⟨v, fl, done, flags, lanes⟩ := execLanes_ready h o.d o.form fun c l =>
    lo32 (o.w.width.ext (q (o.w.width.val (lw c o.a l)) (o.w.width.val (lw c o.b l))), if o.w.width.val (lw c o.b l) = 0 then flagIDIV0 else 0)
  simp only [Rule.laneInt_lane]
  refine ⟨v, ?_, fun l hl on => ?_⟩
  · rw [done, gathered_flag (p := fun l => o.w.width.val (lw s.cur o.b l) = 0) flags]
  · rw [(lanes l hl).2 on, Rule.laneInt_lo32, Width.val_ext_of_holds (hq (o.w.width.holds_val _) (o.w.width.holds_val _))]

/-- VDIV and VREM (R308) write R52's results. -/
theorem exec_vdiv_vrem (o : OVBin) (s : State) :
    let a (l : Nat) := Rule.laneInt o.w (Rule.lane (s.cur.rV o.a) l)
    let b (l : Nat) := Rule.laneInt o.w (Rule.lane (s.cur.rV o.b) l)
    let fl : Word := if (List.range 16).any fun l => Rule.on s.cur o.form l && decide (b l = 0) then flagIDIV0 else 0
    (Ready (.vdiv o) s → ∃ v : Line, exec (.vdiv o) s = .next (s.setCur (wroteV (.vdiv o) s.cur o.d v fl)) ∧
      ∀ l, l < 16 → Rule.on s.cur o.form l = true → Rule.laneInt o.w (Rule.lane v l) = Rule.quotInt o.w.width (a l) (b l)) ∧
    (Ready (.vrem o) s → ∃ v : Line, exec (.vrem o) s = .next (s.setCur (wroteV (.vrem o) s.cur o.d v fl)) ∧
      ∀ l, l < 16 → Rule.on s.cur o.form l = true → Rule.laneInt o.w (Rule.lane v l) = Rule.remInt (a l) (b l)) := by
  refine ⟨fun h => ?_, fun h => ?_⟩
  · rw [exec_vdiv, execVdiv]
    simp only [divRem_eq]
    exact execLanes_div h o _ Width.holds_quotInt
  · rw [exec_vrem, execVrem]
    simp only [divRem_eq]
    exact execLanes_div h o _ fun ha _ => Width.holds_remInt ha _

/-- Settles O54: the model's division is R52's (`divRem_eq`), and its results are within their width, so that a register or a lane keeps them. -/
theorem divisionTruncatesTowardZero : Obligations.DivisionTruncatesTowardZero := ⟨exec_div_rem, exec_vdiv_vrem⟩

end Sys2Proof.Machine

/-! SUPPORT. O26 (R262, R310, R321): the float sums and products of one operation are those of FloatArith as the statements give it. -/

namespace Sys2Proof.Rule

/-! Finite values as quotients. -/

/-- A value that has a denominator, where it is a quotient. -/
def sound : Val → Prop
  | .fin _ _ d => 0 < d
  | _ => True

theorem quot_fin (s : Bool) (n d : Nat) : quot (.fin s n d) = (sgn s n : ℚ) / d := by
  cases s <;> simp [quot, sgn, neg_div]

theorem quot_neg (v : Val) : quot v.neg = -quot v := by
  cases v with
  | nan => simp [Val.neg, quot]
  | inf s => simp [Val.neg, quot]
  | fin s n d => cases s <;> simp [Val.neg, quot]

/-- An exact sum is a quotient with the sign of its numerator. -/
theorem sumFin_eq (s : Bool) (n : Nat) {d : Nat} (t : Bool) (m : Nat) {e : Nat} (hd : 0 < d) (he : 0 < e) :
    ∃ (v : Int) (c : Nat), 0 < c ∧ Val.sumFin s n d t m e = .fin (decide (v < 0)) v.natAbs c ∧
      quot (.fin s n d) + quot (.fin t m e) = (v : ℚ) / c := by
  have hd' : (d : ℚ) ≠ 0 := by positivity
  have he' : (e : ℚ) ≠ 0 := by positivity
  rw [quot_fin, quot_fin]
  by_cases same : d = e
  · subst same
    exact ⟨sgn s n + sgn t m, d, hd, by simp [Val.sumFin], by push_cast; field_simp⟩
  · exact ⟨sgn s n * e + sgn t m * d, d * e, Nat.mul_pos hd he, by simp [Val.sumFin, same], by push_cast; field_simp⟩

/-- Rounding a quotient written with the sign of its numerator. -/
theorem roundFloat_of_abs (f : FF) (rm : Rm) (sat : Bool) {v : Int} {c n m : Nat} (hc : 0 < c) (hm : 0 < m)
    (q : |(v : ℚ) / c| = (n : ℚ) / m) :
    roundFloat f (.fin (decide (v < 0)) v.natAbs c) rm sat = roundFloat f (.fin (decide ((v : ℚ) / c < 0)) n m) rm sat := by
  have hc' : (0 : ℚ) < c := by exact_mod_cast hc
  have hm' : (0 : ℚ) < m := by exact_mod_cast hm
  have sign : decide ((v : ℚ) / c < 0) = decide (v < 0) := by
    rw [decide_eq_decide, div_lt_iff₀ hc', zero_mul]
    exact_mod_cast Iff.rfl
  rw [sign]
  refine roundFloat_congr f _ rm sat hc hm ?_
  rw [abs_div, abs_of_pos hc', div_eq_div_iff hc'.ne' hm'.ne', ← Int.cast_abs, Int.abs_eq_natAbs] at q
  exact_mod_cast q

theorem roundFloat_inf {f : FF} (ieee : f.ieee = true) (s : Bool) (rm : Rm) (sat : Bool) :
    roundFloat f (.inf s) rm sat = (f.withSign s (if sat then f.maxFin else f.infBits), if sat then flagSAT else 0) := by
  cases sat <;> simp [roundFloat, overflowValue, ieee]

theorem roundFloat_zero (f : FF) (s : Bool) (d : Nat) (rm : Rm) (sat : Bool) : roundFloat f (.fin s 0 d) rm sat = (f.withSign s 0, 0) := by
  simp [roundFloat]

/-! FloatArith reads of an addend only what kind of value it is. -/

/-- An addend with its finite value cut to zero or one. -/
def kind : Val → Val
  | .fin s n _ => .fin s (if n = 0 then 0 else 1) 1
  | v => v

theorem kind_eq_nan (v : Val) : Val.nan = v ↔ Val.nan = kind v := by cases v <;> simp [kind]
theorem kind_eq_inf (s : Bool) (v : Val) : Val.inf s = v ↔ Val.inf s = kind v := by cases v <;> simp [kind]
theorem isZero_kind (v : Val) : (kind v).isZero = v.isZero := by
  cases v with
  | nan => rfl
  | inf s => rfl
  | fin s n d => by_cases h : n = 0 <;> simp [kind, Val.isZero, h]
theorem sign_kind (v : Val) : (kind v).sign = v.sign := by cases v <;> rfl

theorem floatOut_kind (f : FF) (rm : Rm) (sat : Bool) (args : List Val) (q : ℚ) (adds : List Val) (x : Nat) (fl : Word) :
    floatOut ⟨f, rm, sat, args, q, adds.map kind⟩ x fl ↔ floatOut ⟨f, rm, sat, args, q, adds⟩ x fl := by
  have nan : Val.nan ∈ adds.map kind ↔ Val.nan ∈ adds := by
    simp only [List.mem_map, eq_comm (b := Val.nan), ← kind_eq_nan, exists_eq_right']
  have inf (s : Bool) : Val.inf s ∈ adds.map kind ↔ Val.inf s ∈ adds := by
    simp only [List.mem_map, eq_comm (b := Val.inf s), ← kind_eq_inf, exists_eq_right']
  simp only [floatOut, nan, inf, List.all_map, Function.comp_def, isZero_kind, sign_kind]

theorem floatOut_of_kind {f : FF} {rm : Rm} {sat : Bool} {args : List Val} {q : ℚ} {adds adds' : List Val} {x : Nat} {fl : Word}
    (same : adds.map kind = adds'.map kind) (h : floatOut ⟨f, rm, sat, args, q, adds⟩ x fl) : floatOut ⟨f, rm, sat, args, q, adds'⟩ x fl := by
  rw [← floatOut_kind] at h ⊢
  rwa [same] at h

/-! The outcomes of FloatArith. -/

theorem not_finite_nan : ¬ finite .nan := id
theorem not_finite_inf (s : Bool) : ¬ finite (.inf s) := id

section
variable {f : FF} {rm : Rm} {sat : Bool} {args adds : List Val} {q : ℚ}

/-- A NaN operand gives the canonical NaN without flags. -/
theorem floatOut_nan (nan : Val.nan ∈ args) : floatOut ⟨f, rm, sat, args, q, adds⟩ f.nanBits 0 :=
  ⟨fun _ => ⟨rfl, rfl⟩, fun no => absurd rfl (no _ nan), fun fin => absurd (fin _ nan) not_finite_nan⟩

/-- An invalid operation gives it with NV. -/
theorem floatOut_invalid (no : Val.nan ∉ args) (invalid : Val.nan ∈ adds ∨ (Val.inf true ∈ adds ∧ Val.inf false ∈ adds))
    (inf : ¬ ∀ v ∈ args, finite v) : floatOut ⟨f, rm, sat, args, q, adds⟩ f.nanBits flagNV := by
  refine ⟨fun ⟨v, m, e⟩ => absurd (e ▸ m) no, fun _ => ⟨fun _ => ⟨rfl, rfl⟩, fun s nan here opposed => ?_⟩, fun fin => absurd fin inf⟩
  obtain nan' | both := invalid
  · exact absurd nan' nan
  · cases s
    · exact absurd both.1 opposed
    · exact absurd both.2 opposed

/-- An infinite addend remains, or is the largest finite value with SAT. -/
theorem floatOut_inf (ieee : f.ieee = true) {s : Bool} (no : Val.nan ∉ args) (nan : Val.nan ∉ adds) (here : Val.inf s ∈ adds)
    (opposed : Val.inf (!s) ∉ adds) (inf : ¬ ∀ v ∈ args, finite v) :
    floatOut ⟨f, rm, sat, args, q, adds⟩ (roundFloat f (.inf s) rm sat).1 (roundFloat f (.inf s) rm sat).2 := by
  rw [roundFloat_inf ieee]
  refine ⟨fun ⟨v, m, e⟩ => absurd (e ▸ m) no, fun _ => ⟨?_, fun t _ there _ => ?_⟩, fun fin => absurd fin inf⟩
  · rintro (nan' | both)
    · exact absurd nan' nan
    · cases s
      · exact absurd both.1 opposed
      · exact absurd both.2 opposed
  · have same : t = s := by
      by_contra other
      have flip : t = !s := by cases s <;> cases t <;> simp_all
      exact opposed (flip ▸ there)
    subst same
    exact ⟨rfl, rfl⟩

/-- Finite operands: an exact zero has the sign of the rule, and another result is rounded once. -/
theorem floatOut_fin {v : Int} {c : Nat} (hc : 0 < c) (fin : ∀ a ∈ args, finite a) (value : q = (v : ℚ) / c)
    (nan : Val.nan ∉ adds) (inf : ∀ s, Val.inf s ∉ adds) {r : Fl Nat}
    (zero : v = 0 → r = (f.withSign ((adds.all fun a => a.isZero && a.sign) || (rm == .rdn && !(adds.all fun a => a.isZero && !a.sign))) 0, 0))
    (rounded : v ≠ 0 → r = roundFloat f (.fin (decide (v < 0)) v.natAbs c) rm sat) :
    floatOut ⟨f, rm, sat, args, q, adds⟩ r.1 r.2 := by
  have hc' : (c : ℚ) ≠ 0 := by positivity
  have q_zero : q = 0 ↔ v = 0 := by rw [value, div_eq_zero_iff]; simp [hc.ne']
  refine ⟨fun ⟨a, m, e⟩ => absurd (e ▸ fin a m) not_finite_nan, fun _ => ⟨?_, fun s _ here _ => absurd here (inf s)⟩, fun _ => ⟨fun z => ?_, fun z n m hm abs => ?_⟩⟩
  · rintro (nan' | both)
    · exact absurd nan' nan
    · exact absurd both.1 (inf true)
  · rw [zero (q_zero.mp z)]
    exact ⟨rfl, rfl⟩
  · rw [rounded (mt q_zero.mpr z)]
    subst value
    exact roundFloat_of_abs f rm sat hc hm abs

end

/-! Sums. -/

section
variable {f : FF} (ieee : f.ieee = true) (rm : Rm) (sat : Bool)
include ieee

/-- FloatArith's sum of two addends that are no NaN. -/
theorem floatOut_fsum {args : List Val} {q : ℚ} {a b : Val} (no : Val.nan ∉ args) (ha : Val.nan ≠ a) (hb : Val.nan ≠ b) (sa : sound a) (sb : sound b)
    (args_fin : (∀ v ∈ args, finite v) ↔ finite a ∧ finite b) (value : finite a → finite b → q = quot a + quot b) :
    floatOut ⟨f, rm, sat, args, q, [a, b]⟩ (fsum f a b rm sat).1 (fsum f a b rm sat).2 := by
  have nan : Val.nan ∉ [a, b] := by simp [ha, hb]
  cases a with
  | nan => exact absurd rfl ha
  | inf s =>
    have infinite : ¬ ∀ v ∈ args, finite v := fun h => (args_fin.mp h).1
    cases b with
    | nan => exact absurd rfl hb
    | inf t =>
      by_cases same : s = t
      · subst same
        simp only [fsum, if_true]
        exact floatOut_inf ieee no nan (by simp) (by simp) infinite
      · have opposed : Val.inf true ∈ [Val.inf s, Val.inf t] ∧ Val.inf false ∈ [Val.inf s, Val.inf t] := by
          cases s <;> cases t <;> simp_all
        simp only [fsum, same, if_false]
        exact floatOut_invalid no (.inr opposed) infinite
    | fin t m e => exact floatOut_inf ieee no nan (by simp) (by simp) infinite
  | fin s n d =>
    cases b with
    | nan => exact absurd rfl hb
    | inf t => exact floatOut_inf ieee no nan (by simp) (by simp) fun h => (args_fin.mp h).2
    | fin t m e =>
      obtain ⟨v, c, hc, sum, total⟩ := sumFin_eq s n t m sa sb
      refine floatOut_fin hc (args_fin.mpr ⟨sa, sb⟩) ((value sa sb).trans total) nan (by simp) (fun zero => ?_) fun nonzero => ?_
      · subst zero
        simp [fsum, sum, Val.isZero, Val.sign, Bool.and_comm]
      · have pos : v.natAbs ≠ 0 := by omega
        simp only [fsum, sum]
        split
        · simp_all
        · rfl

end

/-! Products. -/

/-- A product as an addend is that of the statements. -/
theorem kind_mul (a b : Val) : kind (Val.mul a b).1 = kind (times a b) := by
  cases a with
  | nan => cases b <;> rfl
  | inf s =>
    cases b with
    | nan => rfl
    | inf t => rfl
    | fin t m e =>
      by_cases zero : m = 0 <;> simp [Val.mul, times, kind, Val.isNan, Val.isInf, Val.isZero, Val.sign, zero]
  | fin s n d =>
    cases b with
    | nan => rfl
    | inf t =>
      by_cases zero : n = 0 <;> simp [Val.mul, times, kind, Val.isNan, Val.isInf, Val.isZero, Val.sign, zero]
    | fin t m e =>
      by_cases zero : n = 0 ∨ m = 0 <;> simp [Val.mul, times, kind, Val.isNan, Val.isInf, Val.isZero, Val.zero, Val.sign, zero]

/-- A product of two values that are no NaN: zero times infinity is a NaN with NV, and the finite products are those of finite values. -/
theorem mul_cases {a b : Val} (ha : Val.nan ≠ a) (hb : Val.nan ≠ b) :
    (Val.mul a b = (.nan, flagNV) ∧ ¬ (finite a ∧ finite b)) ∨
    (∃ s, Val.mul a b = (.inf s, 0) ∧ ¬ (finite a ∧ finite b)) ∨
    (∃ s n d t m e, a = .fin s n d ∧ b = .fin t m e ∧ Val.mul a b = (.fin (s != t) (n * m) (d * e), 0)) := by
  cases a with
  | nan => exact absurd rfl ha
  | inf s =>
    cases b with
    | nan => exact absurd rfl hb
    | inf t => exact .inr (.inl ⟨_, rfl, fun h => h.1⟩)
    | fin t m e =>
      by_cases zero : m = 0
      · exact .inl ⟨by simp [Val.mul, zero], fun h => h.1⟩
      · exact .inr (.inl ⟨s != t, by simp [Val.mul, zero], fun h => h.1⟩)
  | fin s n d =>
    cases b with
    | nan => exact absurd rfl hb
    | inf t =>
      by_cases zero : n = 0
      · exact .inl ⟨by simp [Val.mul, zero], fun h => h.2⟩
      · exact .inr (.inl ⟨s != t, by simp [Val.mul, zero], fun h => h.2⟩)
    | fin t m e => exact .inr (.inr ⟨s, n, d, t, m, e, rfl, rfl, rfl⟩)

theorem quot_mul (s : Bool) (n d : Nat) (t : Bool) (m e : Nat) :
    quot (.fin (s != t) (n * m) (d * e)) = quot (.fin s n d) * quot (.fin t m e) := by
  rw [quot_fin, quot_fin, quot_fin, div_mul_div_comm]
  cases s <;> cases t <;> simp [sgn]

theorem fsum_nan_left (f : FF) (b : Val) (rm : Rm) (sat : Bool) : fsum f .nan b rm sat = (f.nanBits, 0) := by cases b <;> rfl
theorem fsum_nan_right (f : FF) (a : Val) (rm : Rm) (sat : Bool) : fsum f a .nan rm sat = (f.nanBits, 0) := by cases a <;> rfl

/-- A product of two numbers is rounded without flags of its own. -/
theorem fmulV_of_mul {a b p : Val} (f : FF) (rm : Rm) (sat : Bool) (h : Val.mul a b = (p, 0)) : fmulV f a b rm sat = roundFloat f p rm sat := by
  rw [fmulV, h]
  exact Prod.ext rfl BitVec.zero_or

theorem fmaV_of_num {z a b : Val} (f : FF) (rm : Rm) (sat : Bool) (hz : Val.nan ≠ z) (ha : Val.nan ≠ a) (hb : Val.nan ≠ b) :
    fmaV f z a b rm sat = ((fsum f z (Val.mul a b).1 rm sat).1, (Val.mul a b).2 ||| (fsum f z (Val.mul a b).1 rm sat).2) := by
  have num {v : Val} (hv : Val.nan ≠ v) : v.isNan = false := by cases v <;> simp_all [Val.isNan]
  rw [fmaV, num hz, num ha, num hb]
  rfl

/-- So is a fused product of two numbers. -/
theorem fmaV_of_mul {z a b p : Val} (f : FF) (rm : Rm) (sat : Bool) (hz : Val.nan ≠ z) (ha : Val.nan ≠ a) (hb : Val.nan ≠ b)
    (h : Val.mul a b = (p, 0)) : fmaV f z a b rm sat = fsum f z p rm sat := by
  rw [fmaV_of_num f rm sat hz ha hb, h]
  exact Prod.ext rfl BitVec.zero_or

section
variable {f : FF} (ieee : f.ieee = true) (rm : Rm) (sat : Bool)
include ieee

/-- Rounding one value of FloatArith. -/
theorem floatOut_roundFloat {args : List Val} {q : ℚ} {p : Val} (no : Val.nan ∉ args) (hp : Val.nan ≠ p) (sp : sound p)
    (args_fin : (∀ v ∈ args, finite v) ↔ finite p) (value : finite p → q = quot p) :
    floatOut ⟨f, rm, sat, args, q, [p]⟩ (roundFloat f p rm sat).1 (roundFloat f p rm sat).2 := by
  cases p with
  | nan => exact absurd rfl hp
  | inf s => exact floatOut_inf ieee no (by simp) (by simp) (by simp) args_fin.mp
  | fin s n d =>
    refine floatOut_fin (v := sgn s n) sp (args_fin.mpr sp) ((value sp).trans (quot_fin s n d)) (by simp) (by simp) (fun zero => ?_) fun nonzero => ?_
    · have zero : n = 0 := by cases s <;> simpa [sgn] using zero
      subst zero
      cases s <;> simp [roundFloat_zero, Val.isZero, Val.sign]
    · have sign : decide (sgn s n < 0) = s := by
        cases s <;> simp [sgn] at nonzero ⊢
        omega
      have size : (sgn s n).natAbs = n := by cases s <;> simp [sgn]
      rw [sign, size]

/-- The sum of an operand and another, which may be taken with its sign changed. -/
theorem floatOut_sum {a b c : Val} (sa : sound a) (sc : sound c) (nan : Val.nan = b ↔ Val.nan = c) (fin : finite b ↔ finite c) :
    floatOut ⟨f, rm, sat, [a, b], quot a + quot c, [a, c]⟩ (fsum f a c rm sat).1 (fsum f a c rm sat).2 := by
  by_cases bad : Val.nan ∈ [a, b]
  · have out : fsum f a c rm sat = (f.nanBits, 0) := by
      obtain rfl | here := List.mem_cons.mp bad
      · exact fsum_nan_left f c rm sat
      · rw [← nan.mp (List.mem_singleton.mp here)]
        exact fsum_nan_right f a rm sat
    rw [out]
    exact floatOut_nan bad
  · obtain ⟨ha, hb⟩ : Val.nan ≠ a ∧ Val.nan ≠ b := by simpa using bad
    exact floatOut_fsum ieee rm sat bad ha (mt nan.mpr hb) sa sc (by simp [fin]) fun _ _ => rfl

theorem floatOut_add {a b : Val} (sa : sound a) (sb : sound b) :
    floatOut ⟨f, rm, sat, [a, b], quot a + quot b, [a, b]⟩ (fsum f a b rm sat).1 (fsum f a b rm sat).2 :=
  floatOut_sum ieee rm sat sa sb Iff.rfl Iff.rfl

theorem floatOut_sub {a b : Val} (sa : sound a) (sb : sound b) :
    floatOut ⟨f, rm, sat, [a, b], quot a - quot b, [a, b.neg]⟩ (fsum f a b.neg rm sat).1 (fsum f a b.neg rm sat).2 := by
  rw [sub_eq_add_neg, ← quot_neg]
  cases b with
  | nan => exact floatOut_sum ieee rm sat sa sb Iff.rfl Iff.rfl
  | inf s => exact floatOut_sum ieee rm sat sa trivial (by simp [Val.neg]) Iff.rfl
  | fin s n d => exact floatOut_sum ieee rm sat sa sb (by simp [Val.neg]) Iff.rfl

theorem floatOut_mul {a b : Val} (sa : sound a) (sb : sound b) :
    floatOut ⟨f, rm, sat, [a, b], quot a * quot b, [times a b]⟩ (fmulV f a b rm sat).1 (fmulV f a b rm sat).2 := by
  have like : [(Val.mul a b).1].map kind = [times a b].map kind := congrArg (fun v => [v]) (kind_mul a b)
  refine floatOut_of_kind like ?_
  by_cases bad : Val.nan ∈ [a, b]
  · have out : fmulV f a b rm sat = (f.nanBits, 0) := by
      obtain rfl | here := List.mem_cons.mp bad
      · cases b <;> rfl
      · cases List.mem_singleton.mp here
        cases a <;> rfl
    rw [out]
    exact floatOut_nan bad
  obtain ⟨ha, hb⟩ : Val.nan ≠ a ∧ Val.nan ≠ b := by simpa using bad
  obtain ⟨out, inf⟩ | ⟨s, out, inf⟩ | ⟨s, n, d, t, m, e, rfl, rfl, out⟩ := mul_cases ha hb
  · have r : fmulV f a b rm sat = (f.nanBits, flagNV) := by rw [fmulV, out]; rfl
    rw [r, out]
    exact floatOut_invalid bad (.inl (by simp)) (by simpa using inf)
  · rw [fmulV_of_mul f rm sat out, out]
    exact floatOut_roundFloat ieee rm sat bad nofun trivial (by simpa [finite] using inf) fun h => absurd h (not_finite_inf s)
  · rw [fmulV_of_mul f rm sat out, out]
    exact floatOut_roundFloat ieee rm sat bad nofun (Nat.mul_pos sa sb) (by simp [finite]) fun _ => (quot_mul s n d t m e).symm

theorem floatOut_fma {z a b : Val} (sz : sound z) (sa : sound a) (sb : sound b) :
    floatOut ⟨f, rm, sat, [a, b, z], quot z + quot a * quot b, [z, times a b]⟩ (fmaV f z a b rm sat).1 (fmaV f z a b rm sat).2 := by
  have like : [z, (Val.mul a b).1].map kind = [z, times a b].map kind := congrArg (fun v => [kind z, v]) (kind_mul a b)
  refine floatOut_of_kind like ?_
  by_cases bad : Val.nan ∈ [a, b, z]
  · have out : fmaV f z a b rm sat = (f.nanBits, 0) := by
      have some_ : (z.isNan || a.isNan || b.isNan) = true := by
        simp only [List.mem_cons, List.not_mem_nil, or_false] at bad
        obtain rfl | rfl | rfl := bad <;> simp [Val.isNan]
      rw [fmaV, if_pos some_]
    rw [out]
    exact floatOut_nan bad
  obtain ⟨ha, hb, hz⟩ : Val.nan ≠ a ∧ Val.nan ≠ b ∧ Val.nan ≠ z := by simpa using bad
  obtain ⟨out, inf⟩ | ⟨s, out, inf⟩ | ⟨s, n, d, t, m, e, rfl, rfl, out⟩ := mul_cases ha hb
  · have r : fmaV f z a b rm sat = (f.nanBits, flagNV) := by
      rw [fmaV_of_num f rm sat hz ha hb, out, fsum_nan_right]
      exact Prod.ext rfl BitVec.or_zero
    rw [r, out]
    exact floatOut_invalid bad (.inl (List.mem_cons_of_mem z List.mem_cons_self)) fun h => inf ⟨h a (by simp), h b (by simp)⟩
  · rw [fmaV_of_mul f rm sat hz ha hb out, out]
    exact floatOut_fsum ieee rm sat bad hz nofun sz trivial
      ⟨fun h => absurd ⟨h a (by simp), h b (by simp)⟩ inf, fun h => absurd h.2 (not_finite_inf s)⟩ fun _ h => absurd h (not_finite_inf s)
  · rw [fmaV_of_mul f rm sat hz ha hb out, out]
    exact floatOut_fsum ieee rm sat bad hz nofun sz (Nat.mul_pos sa sb) (by simp [finite, and_comm, and_assoc])
      fun _ _ => by rw [quot_mul]

end

/-! Patterns as signed magnitudes (R24). -/

/-- A magnitude as a multiple of the least positive value. -/
def steps (f : FF) (k : Nat) : Nat := (k % 2 ^ f.m + if k / 2 ^ f.m = 0 then 0 else 2 ^ f.m) * 2 ^ (k / 2 ^ f.m - 1)

theorem steps_lt_succ (f : FF) (k : Nat) : steps f k < steps f (k + 1) := by
  have pos : 0 < 2 ^ f.m := Nat.two_pow_pos _
  have parts := Nat.div_add_mod k (2 ^ f.m)
  have lt := Nat.mod_lt k pos
  unfold steps
  generalize k / 2 ^ f.m = e at parts
  generalize k % 2 ^ f.m = r at parts lt
  by_cases inside : r + 1 < 2 ^ f.m
  · have div : (k + 1) / 2 ^ f.m = e := by rw [← parts, Nat.add_assoc, Nat.mul_add_div pos, Nat.div_eq_of_lt inside, Nat.add_zero]
    have mod : (k + 1) % 2 ^ f.m = r + 1 := by rw [← parts, Nat.add_assoc, Nat.mul_add_mod, Nat.mod_eq_of_lt inside]
    rw [div, mod]
    exact Nat.mul_lt_mul_of_pos_right (by omega) (Nat.two_pow_pos _)
  · have full : r + 1 = 2 ^ f.m := by omega
    have next : k + 1 = 2 ^ f.m * (e + 1) := by rw [← parts, Nat.add_assoc, full]; ring
    rw [next, Nat.mul_div_cancel_left _ pos, Nat.mul_mod_right, if_neg (Nat.succ_ne_zero e), Nat.zero_add, Nat.add_sub_cancel]
    cases e with
    | zero => simp; omega
    | succ e =>
      rw [if_neg (Nat.succ_ne_zero e), Nat.add_sub_cancel, Nat.pow_succ, Nat.mul_comm (2 ^ e) 2, ← Nat.mul_assoc]
      exact Nat.mul_lt_mul_of_pos_right (by omega) (Nat.two_pow_pos _)

theorem steps_strictMono (f : FF) : StrictMono (steps f) := strictMono_nat_of_lt_succ (steps_lt_succ f)

theorem steps_eq_zero (f : FF) (k : Nat) : steps f k = 0 ↔ k = 0 := by
  have zero : steps f 0 = 0 := by simp [steps]
  simpa only [zero] using (steps_strictMono f).injective.eq_iff (a := k) (b := 0)

/-- The value of the least step. -/
def least (f : FF) : ℚ := (2 : ℚ) ^ (f.emin - f.m)

theorem quot_scale (s : Bool) (n : Nat) (k : Int) : quot (Val.scale s n k) = (sgn s n : ℚ) * (2 : ℚ) ^ k := by
  cases k with
  | ofNat j =>
    rw [Val.scale, quot_fin, Int.ofNat_eq_natCast, zpow_natCast]
    cases s <;> simp [sgn]
  | negSucc j =>
    rw [Val.scale, quot_fin, zpow_negSucc, div_eq_mul_inv]
    push_cast
    rfl

theorem finite_scale (s : Bool) (n : Nat) (k : Int) : finite (Val.scale s n k) := by
  cases k with
  | ofNat j => exact Nat.one_pos
  | negSucc j => exact Nat.two_pow_pos _

theorem sign_scale (s : Bool) (n : Nat) (k : Int) : (Val.scale s n k).sign = s := by cases k <;> rfl

/-- What a pattern is: a NaN above infinity's magnitude, infinity at it, and below a number of steps with its sign. -/
theorem decode_cases {f : FF} (ieee : f.ieee = true) (x : Nat) :
    (f.infBits < magnitude f x ∧ f.decode x = .nan) ∨
    (magnitude f x = f.infBits ∧ f.decode x = .inf (negative f x)) ∨
    (magnitude f x < f.infBits ∧ finite (f.decode x) ∧ (f.decode x).sign = negative f x ∧
      quot (f.decode x) = (sgn (negative f x) (steps f (magnitude f x)) : ℚ) * least f) := by
  have pos : 0 < 2 ^ f.m := Nat.two_pow_pos _
  have exp : x / 2 ^ f.m % 2 ^ f.e = magnitude f x / 2 ^ f.m := by
    rw [magnitude, Nat.pow_add, Nat.mul_comm, Nat.mod_mul_right_div_self]
  have frac : x % 2 ^ f.m = magnitude f x % 2 ^ f.m := by
    rw [magnitude, Nat.pow_add, Nat.mod_mul_left_mod]
  have top : magnitude f x / 2 ^ f.m ≤ f.emax := by
    rw [← exp]
    exact Nat.le_sub_one_of_lt (Nat.mod_lt _ (Nat.two_pow_pos _))
  have parts := Nat.div_add_mod (magnitude f x) (2 ^ f.m)
  have lt := Nat.mod_lt (magnitude f x) pos
  have sign : (x / 2 ^ (f.e + f.m) % 2 == 1) = negative f x := rfl
  simp only [FF.decode, exp, frac, ieee, Bool.and_true, sign, decide_eq_true_eq, Bool.and_eq_true]
  have inf : f.infBits = 2 ^ f.m * f.emax := Nat.mul_comm _ _
  rw [inf, steps]
  generalize magnitude f x / 2 ^ f.m = e at *
  generalize magnitude f x % 2 ^ f.m = r at *
  by_cases high : e = f.emax
  · subst high
    by_cases zero : r = 0
    · exact .inr (.inl ⟨by omega, by simp [zero]⟩)
    · exact .inl ⟨by omega, by simp [zero]⟩
  · have below : 2 ^ f.m * (e + 1) ≤ 2 ^ f.m * f.emax := Nat.mul_le_mul_left _ (by omega)
    rw [Nat.mul_add] at below
    refine .inr (.inr ⟨by omega, ?_⟩)
    rw [if_neg high, if_neg fun h => high h.1]
    by_cases sub : e = 0
    · rw [if_pos sub, if_pos sub, sub]
      refine ⟨finite_scale _ _ _, sign_scale _ _ _, ?_⟩
      rw [quot_scale, least, Nat.zero_sub, Nat.pow_zero, Nat.mul_one, Nat.add_zero]
    · rw [if_neg sub, if_neg sub]
      refine ⟨finite_scale _ _ _, sign_scale _ _ _, ?_⟩
      have step : ((e : Int) - f.bias - f.m) = ((e - 1 : Nat) : Int) + (f.emin - f.m) := by rw [FF.emin]; omega
      rw [quot_scale, least, step, zpow_add₀ two_ne_zero, zpow_natCast, ← mul_assoc]
      congr 1
      cases negative f x <;> simp only [sgn, if_true, Bool.false_eq_true, if_false] <;> push_cast <;> ring

/-- Every pattern has a value with a denominator. -/
theorem sound_decode {f : FF} (ieee : f.ieee = true) (x : Nat) : sound (f.decode x) := by
  obtain ⟨-, v⟩ | ⟨-, v⟩ | ⟨-, fin, -⟩ := decode_cases ieee x
  · rw [v]; trivial
  · rw [v]; trivial
  · cases h : f.decode x with
    | nan => trivial
    | inf s => trivial
    | fin s n d => rw [h] at fin; exact fin

theorem isNan_decode {f : FF} (ieee : f.ieee = true) (x : Nat) : (f.decode x).isNan = isNaN f x := by
  obtain ⟨mag, v⟩ | ⟨mag, v⟩ | ⟨mag, fin, -⟩ := decode_cases ieee x
  · rw [v, isNaN, decide_eq_true mag]; rfl
  · rw [v, isNaN, decide_eq_false (by omega)]; rfl
  · rw [isNaN, decide_eq_false (by omega)]
    cases h : f.decode x with
    | nan => rw [h] at fin; exact fin.elim
    | inf s => rfl
    | fin s n d => rfl

/-- The order of two finite values is that of their quotients. -/
theorem lt_iff_quot {a b : Val} (ha : finite a) (hb : finite b) : a.lt b = true ↔ quot a < quot b := by
  cases a with
  | nan => exact ha.elim
  | inf s => exact ha.elim
  | fin s n d =>
    cases b with
    | nan => exact hb.elim
    | inf s => exact hb.elim
    | fin t m e =>
      have hd : (0 : ℚ) < d := by exact_mod_cast ha
      have he : (0 : ℚ) < e := by exact_mod_cast hb
      rw [quot_fin, quot_fin, div_lt_div_iff₀ hd he, Val.lt, decide_eq_true_eq]
      exact_mod_cast Iff.rfl

/-- Signed steps are ordered as signed magnitudes. -/
theorem sgn_steps_lt (f : FF) (s t : Bool) (j k : Nat) : sgn s (steps f j) < sgn t (steps f k) ↔ sgn s j < sgn t k := by
  have mono := (steps_strictMono f).lt_iff_lt (a := j) (b := k)
  have mono' := (steps_strictMono f).lt_iff_lt (a := k) (b := j)
  have zj := steps_eq_zero f j
  have zk := steps_eq_zero f k
  cases s <;> cases t <;> simp only [sgn, if_true, Bool.false_eq_true, if_false] <;> omega

theorem key_eq_sgn (f : FF) (x : Nat) : key f x = sgn (negative f x) (magnitude f x) := rfl

/-- Patterns that are no NaN are ordered as their signed magnitudes. -/
theorem lt_decode {f : FF} (ieee : f.ieee = true) (top : 0 < f.infBits) {x y : Nat} (hx : isNaN f x = false) (hy : isNaN f y = false) :
    (f.decode x).lt (f.decode y) = decide (key f x < key f y) := by
  have pos : (0 : ℚ) < least f := by unfold least; positivity
  rw [Bool.eq_iff_iff, decide_eq_true_eq, key_eq_sgn, key_eq_sgn]
  simp only [isNaN, decide_eq_false_iff_not] at hx hy
  have beyond {v : Val} (hv : finite v) (s : Bool) : ((Val.inf s).lt v = true ↔ s = true) ∧ (v.lt (.inf s) = true ↔ s = false) := by
    cases v <;> simp_all [finite, Val.lt]
  obtain ⟨mx, -⟩ | ⟨mx, vx⟩ | ⟨mx, fx, sx, qx⟩ := decode_cases ieee x
  · exact absurd mx hx
  · obtain ⟨my, -⟩ | ⟨my, vy⟩ | ⟨my, fy, sy, qy⟩ := decode_cases ieee y
    · exact absurd my hy
    · rw [vx, vy, mx, my]
      cases negative f x <;> cases negative f y <;> simp [Val.lt, sgn]
      omega
    · rw [vx, (beyond fy _).1, mx]
      cases negative f x <;> cases negative f y <;> simp [sgn] <;> omega
  · obtain ⟨my, -⟩ | ⟨my, vy⟩ | ⟨my, fy, sy, qy⟩ := decode_cases ieee y
    · exact absurd my hy
    · rw [vy, (beyond fx _).2, my]
      cases negative f x <;> cases negative f y <;> simp [sgn] <;> omega
    · rw [lt_iff_quot fx fy, qx, qy, mul_lt_mul_iff_left₀ pos, ← sgn_steps_lt f]
      exact Int.cast_lt

/-- A pattern that is no NaN is a zero where its magnitude is. -/
theorem isZero_decode {f : FF} (ieee : f.ieee = true) (top : 0 < f.infBits) {x : Nat} (hx : isNaN f x = false) :
    (f.decode x).isZero = decide (magnitude f x = 0) := by
  have pos : least f ≠ 0 := by unfold least; positivity
  obtain ⟨mx, -⟩ | ⟨mx, vx⟩ | ⟨-, fx, -, qx⟩ := decode_cases ieee x
  · exact absurd mx (of_decide_eq_false hx)
  · rw [vx, mx, decide_eq_false top.ne']; rfl
  · cases h : f.decode x with
    | nan => rw [h] at fx; exact fx.elim
    | inf s => rw [h] at fx; exact fx.elim
    | fin s n d =>
      rw [h] at fx qx
      have hd : (d : ℚ) ≠ 0 := by exact_mod_cast (show 0 < d from fx).ne'
      have zero : (sgn s n : ℚ) = 0 ↔ (sgn (negative f x) (steps f (magnitude f x)) : ℚ) = 0 := by
        rw [quot_fin] at qx
        rw [← or_iff_left hd (a := (sgn s n : ℚ) = 0), ← div_eq_zero_iff, qx, mul_eq_zero, or_iff_left pos]
      have sgn_zero (s : Bool) (n : Nat) : (sgn s n : ℚ) = 0 ↔ n = 0 := by cases s <;> simp [sgn]
      rw [sgn_zero, sgn_zero, steps_eq_zero] at zero
      rw [Val.isZero, Bool.eq_iff_iff, beq_iff_eq, decide_eq_true_eq, zero]

theorem sign_decode {f : FF} (ieee : f.ieee = true) {x : Nat} (hx : isNaN f x = false) : (f.decode x).sign = negative f x := by
  obtain ⟨mx, -⟩ | ⟨-, vx⟩ | ⟨-, -, sx, -⟩ := decode_cases ieee x
  · exact absurd mx (of_decide_eq_false hx)
  · rw [vx]; rfl
  · exact sx

/-! Minimum and maximum (R47). -/

/-- A pattern of a format is its sign and magnitude. -/
theorem eq_of_negative_magnitude {f : FF} {x y : Nat} (hx : x < 2 ^ f.width) (hy : y < 2 ^ f.width) (s : negative f x = negative f y)
    (m : magnitude f x = magnitude f y) : x = y := by
  have two : 2 ^ f.width = 2 * 2 ^ (f.e + f.m) := by rw [FF.width, Nat.add_assoc, Nat.add_comm, Nat.pow_succ, Nat.mul_comm]
  have px := Nat.div_add_mod x (2 ^ (f.e + f.m))
  have py := Nat.div_add_mod y (2 ^ (f.e + f.m))
  have lx : x / 2 ^ (f.e + f.m) < 2 := by rw [Nat.div_lt_iff_lt_mul (Nat.two_pow_pos _)]; omega
  have ly : y / 2 ^ (f.e + f.m) < 2 := by rw [Nat.div_lt_iff_lt_mul (Nat.two_pow_pos _)]; omega
  simp only [negative, magnitude] at s m
  have same : x / 2 ^ (f.e + f.m) = y / 2 ^ (f.e + f.m) := by
    rw [Nat.mod_eq_of_lt lx, Nat.mod_eq_of_lt ly] at s
    generalize x / 2 ^ (f.e + f.m) = i at lx s
    generalize y / 2 ^ (f.e + f.m) = j at ly s
    interval_cases i <;> interval_cases j <;> simp_all
  rw [← px, ← py, same, m]

/-- The order of R47, -0 below +0, on patterns that are no NaN. -/
theorem fless_decode {f : FF} (ieee : f.ieee = true) (top : 0 < f.infBits) {x y : Nat} (hx : isNaN f x = false) (hy : isNaN f y = false) :
    Sys2Proof.fless (f.decode x) (f.decode y) = true ↔
      key f x < key f y ∨ (key f x = key f y ∧ negative f x = true ∧ negative f y = false) := by
  rw [Sys2Proof.fless, lt_decode ieee top hx hy, isZero_decode ieee top hx, isZero_decode ieee top hy, sign_decode ieee hx, sign_decode ieee hy,
    key_eq_sgn, key_eq_sgn]
  cases negative f x <;> cases negative f y <;> simp [sgn]

theorem eq_of_key {f : FF} {x y : Nat} (hx : x < 2 ^ f.width) (hy : y < 2 ^ f.width) (k : key f x = key f y)
    (s : negative f x = negative f y) : x = y := by
  refine eq_of_negative_magnitude hx hy s ?_
  rw [key_eq_sgn, key_eq_sgn, s] at k
  cases h : negative f y <;> rw [h] at k <;> simpa [sgn] using k

section
variable {f : FF} (ieee : f.ieee = true) (top : 0 < f.infBits) {x y : Nat} (hx : x < 2 ^ f.width) (hy : y < 2 ^ f.width)
include ieee top hx hy

theorem fmin_eq_lesser : fmin f x y = lesser f x y := by
  simp only [fmin, lesser, isNan_decode ieee]
  by_cases nan : (isNaN f x || isNaN f y) = true
  · rw [if_pos nan, if_pos nan]
  obtain ⟨nx, ny⟩ : isNaN f x = false ∧ isNaN f y = false := by simpa using nan
  rw [if_neg nan, if_neg nan]
  simp only [fless_decode ieee top ny nx, Bool.or_eq_true, Bool.and_eq_true, decide_eq_true_eq]
  have same := eq_of_key hx hy
  rcases lt_trichotomy (key f x) (key f y) with lt | eq | gt
  · rw [if_neg (by omega), if_pos (.inl lt)]
  · simp only [eq, lt_irrefl, true_and, false_or]
    cases sx : negative f x <;> cases sy : negative f y <;> simp_all
  · rw [if_pos (.inl gt), if_neg (by omega)]

theorem fmax_eq_greater : fmax f x y = greater f x y := by
  simp only [fmax, greater, isNan_decode ieee]
  by_cases nan : (isNaN f x || isNaN f y) = true
  · rw [if_pos nan, if_pos nan]
  obtain ⟨nx, ny⟩ : isNaN f x = false ∧ isNaN f y = false := by simpa using nan
  rw [if_neg nan, if_neg nan]
  simp only [fless_decode ieee top nx ny, Bool.or_eq_true, Bool.and_eq_true, decide_eq_true_eq, Bool.not_eq_true']
  have same := eq_of_key hx hy
  rcases lt_trichotomy (key f x) (key f y) with lt | eq | gt
  · rw [if_pos (.inl lt), if_neg (by omega)]
  · simp only [eq, lt_irrefl, true_and, false_or]
    cases sx : negative f x <;> cases sy : negative f y <;> simp_all
  · rw [if_neg (by omega), if_pos (.inl gt)]

end

theorem ffF32_ieee : ffF32.ieee = true := rfl
theorem ffF32_infBits_pos : 0 < ffF32.infBits := by decide

end Sys2Proof.Rule

/-! SUPPORT. O26 (R84, R138, R140): an access of the own scratchpad, and what a store at its port leaves. -/

namespace Sys2Proof

/-! Numbers in a byte memory. -/

theorem Mem.readNat_add (m : Mem) (a n k : Nat) : m.readNat a (n + k) = m.readNat a n + 256 ^ n * m.readNat (a + n) k := by
  induction n generalizing a with
  | zero => simp [Mem.readNat]
  | succ n ih =>
    rw [Nat.succ_add, Mem.readNat, ih, Mem.readNat, Nat.add_right_comm a 1 n, Nat.add_assoc a n 1, Nat.pow_succ]
    ring

/-- A part of a number is the number at its place. -/
theorem Mem.readNat_part (m : Mem) (a : Nat) {n i k : Nat} (h : i + k ≤ n) : m.readNat a n / 256 ^ i % 256 ^ k = m.readNat (a + i) k := by
  obtain ⟨r, rfl⟩ := Nat.exists_eq_add_of_le h
  rw [Nat.add_assoc, Mem.readNat_add m a, Mem.readNat_add m (a + i), Nat.add_mul_div_left _ _ (by positivity),
    Nat.div_eq_of_lt (Mem.readNat_lt m a i), Nat.zero_add, Nat.add_mul_mod_self_left, Nat.mod_eq_of_lt (Mem.readNat_lt m _ k)]

/-- Numbers of `w` bytes written side by side: each is read where it was written, and the others are as before. -/
theorem Mem.readNat_foldl_writeNat (m : Mem) (base w : Nat) (g : Nat → Nat) (l : List Nat) (k : Nat) :
    (l.foldl (fun (m : Mem) j => m.writeNat (base + w * j) w (g j)) m).readNat (base + w * k) w =
      if k ∈ l then g k % 256 ^ w else m.readNat (base + w * k) w := by
  induction l generalizing m with
  | nil => rfl
  | cons j t ih =>
    rw [List.foldl_cons, ih]
    by_cases later : k ∈ t
    · simp [later]
    · by_cases here : k = j
      · subst here
        simp [later, Mem.readNat_writeNat]
      · have apart : base + w * k + w ≤ base + w * j ∨ base + w * j + w ≤ base + w * k := by
          rcases Nat.lt_or_gt_of_ne here with lt | gt
          · have := Nat.mul_le_mul_left w lt
            rw [Nat.mul_succ] at this; omega
          · have := Nat.mul_le_mul_left w gt
            rw [Nat.mul_succ] at this; omega
        simp [later, here, Mem.readNat_writeNat_outside _ _ _ _ _ _ apart]

theorem Mem.read_foldl_writeNat_outside (m : Mem) (base w : Nat) (g : Nat → Nat) {n : Nat} (l : List Nat) (hl : ∀ j ∈ l, j < n) (b : Nat)
    (hb : b < base ∨ base + w * n ≤ b) : (l.foldl (fun (m : Mem) j => m.writeNat (base + w * j) w (g j)) m).read b = m.read b := by
  induction l generalizing m with
  | nil => rfl
  | cons j t ih =>
    have inside := Nat.mul_le_mul_left w (hl j List.mem_cons_self)
    rw [Nat.mul_succ] at inside
    rw [List.foldl_cons, ih _ fun i hi => hl i (List.mem_cons_of_mem j hi), Mem.read_writeNat_outside _ _ _ _ _ (by omega)]

end Sys2Proof

namespace Sys2Proof.Machine

/-- A context that can issue is one of the eight of its core. -/
theorem curCtx_lt_of_canIssue {s : State} (h : s.cur.canIssue = true) : s.curCtx < 8 := by
  by_contra out
  have none : s.cur = Ctx.reset := by
    simp [State.cur, State.ctx, vget, out]
  rw [none] at h
  exact absurd h (by decide)

theorem Ready.curCtx_lt {i : Instr} {s : State} (h : Ready i s) : s.curCtx < 8 := curCtx_lt_of_canIssue h.1

/-! An access of the own scratchpad (R84). -/

section
variable {s : State} {va : Word} {n al off : Nat} (h : Rule.ownScratch s va n al off)
include h

theorem addrPart_ownScratch : addrPart va = 0xF0 * 2 ^ 48 + off := h.2.1

theorem resolveLocal_ownScratch (aligned : al ∣ 2 ^ 48) {k : AKind} (hk : k ≠ .fetch) :
    resolveLocal s (curAcc s) va n al k = .ok (.inl (.scratch s.curAgent off)) := by
  obtain ⟨core, addr, small, align, claim⟩ := h
  have mul : (0xF0 * 2 ^ 48 + off) % al = 0 := Nat.mod_eq_zero_of_dvd
    (Nat.dvd_add (Dvd.dvd.mul_left aligned _) (Nat.dvd_of_mod_eq_zero align))
  have top : (0xF0 * 2 ^ 48 + off) / 2 ^ 48 = 0xF0 := by omega
  have low : (0xF0 * 2 ^ 48 + off) % 2 ^ 48 = off := by omega
  have mine : isRidge s.curAgent = false := decide_eq_false (by omega)
  have within : ¬ engClaim s (curAcc s) * wayBytes < off + n := Nat.not_lt.mpr claim
  have fetch : (k == .fetch) = false := by
    cases k with
    | fetch => exact absurd rfl hk
    | _ => rfl
  simp only [resolveLocal, addr, mul, top, low, if_true]
  simp [show (curAcc s).agent = s.curAgent from rfl, show (curAcc s).eng = none from rfl, mine, within, fetch]

theorem resolve_ownScratch (aligned : al ∣ 2 ^ 48) {k : AKind} (hk : k ≠ .fetch) (clean : Rule.unpoisoned s off) :
    resolve s (curAcc s) va n al k = .ok (.scratch s.curAgent off) := by
  simp only [resolve, resolveLocal_ownScratch h aligned hk]
  have no : s.spPoison.contains (s.curAgent, off / 64) = false := by simpa using clean
  simp only [no, Bool.and_false]
  rfl

end

/-- Nothing holds a store to bytes of the own scratchpad that no publisher region meets (R140). -/
theorem pathHold_unpublished {s : State} {off n : Nat} (h : Rule.unpublished s off n) (k : AKind) :
    pathHold s (curAcc s) (.scratch s.curAgent off) n k = none := by
  obtain ⟨none, free, held⟩ := h
  have behind : behindHeld s (curAcc s) (.scratch s.curAgent off) k = false := by
    have held : (s.pages.any fun q : Nat × PageCopy => q.2.held.any fun e => e.1 == (curAcc s).task.toNat) = false := held
    simp [behindHeld, held]
  have port : portHeld s (.scratch s.curAgent off) n k = false := by
    simp [portHeld, portBusy, none, free]
  simp [pathHold, behind, port]

/-- A smaller store meets no region either. -/
theorem pubIdxs_sub {o : Core} {off n off' n' : Nat} (lo : off ≤ off') (hi : off' + n' ≤ off + n) (h : pubIdxs o off n = []) :
    pubIdxs o off' n' = [] := by
  rw [pubIdxs, List.filter_eq_nil_iff] at h ⊢
  refine fun i hi' cover => h i hi' ?_
  simp only [Pub.covers, Bool.and_eq_true, decide_eq_true_eq] at cover ⊢
  exact ⟨⟨cover.1.1, by omega⟩, by omega⟩

/-! Lanes in memory. -/

theorem pow256 (k : Nat) : 256 ^ k = 2 ^ (8 * k) := Nat.pow_mul 2 8 k ▸ rfl

/-- The bytes of a number fill a word of as many bits. -/
theorem toNat_ofNat_readNat (m : Mem) (a : Nat) {n w : Nat} (h : w = 8 * n) : (BitVec.ofNat w (m.readNat a n)).toNat = m.readNat a n := by
  rw [BitVec.toNat_ofNat, h, ← pow256, Nat.mod_eq_of_lt (Mem.readNat_lt m a n)]

/-- A lane of a group in memory. -/
theorem lane_readNat (m : Mem) (a : Nat) {l : Nat} (hl : l < 16) : lane (BitVec.ofNat 512 (m.readNat a 64)) l = m.readNat (a + 4 * l) 4 := by
  rw [← Mem.readNat_part m a (n := 64) (by omega), lane, toNat_ofNat_readNat m a (by decide), pow256, pow256, ← Nat.mul_assoc]

/-! What stores at the own scratchpad's port leave. -/

/-- A state that differs from `s` in the current core's scratchpad, which holds `m`, and in the poison of scratchpads. -/
structure Stored (s : State) (m : Mem) (t : State) : Prop where
  curAgent : t.curAgent = s.curAgent
  curCtx   : t.curCtx = s.curCtx
  hbm      : t.hbm = s.hbm
  hostMem  : t.hostMem = s.hostMem
  remote   : t.remote = s.remote
  pages    : t.pages = s.pages
  dies     : t.dies = s.dies
  clusters : t.clusters = s.clusters
  dir      : t.dir = s.dir
  here     : t.core s.curAgent = { s.core s.curAgent with spad := m }
  others   : ∀ a, a ≠ s.curAgent → t.core a = s.core a

theorem Stored.refl (s : State) : Stored s (s.core s.curAgent).spad s := ⟨rfl, rfl, rfl, rfl, rfl, rfl, rfl, rfl, rfl, rfl, fun _ _ => rfl⟩

/-- A store that meets no publisher region. -/
theorem spWrite_unpublished {s : State} {a off n : Nat} (h : pubIdxs (s.core a) off n = []) (x : Nat) :
    spWrite s a off n x =
      let u := s.setCore a { s.core a with spad := (s.core a).spad.writeNat off n x }
      if n = 64 then { u with spPoison := u.spPoison.erase (a, off / 64) } else u := by
  have same : ∀ u : State, (u.core a).pubs = (s.core a).pubs → pubIdxs (u.core a) off n = [] := fun u e => by
    rw [pubIdxs, e]; exact h
  simp only [spWrite]
  rw [same]
  · rfl
  · have pubs (c : Core) (e : c.pubs = (s.core a).pubs) : ((s.setCore a c).core a).pubs = (s.core a).pubs := by
      rw [State.core_setCore_same, e]
    split
    · exact pubs _ rfl
    · exact pubs _ rfl

theorem Stored.spWrite {s t : State} {m : Mem} {off n : Nat} (h : Stored s m t) (quiet : pubIdxs (s.core s.curAgent) off n = []) (x : Nat) :
    Stored s (m.writeNat off n x) (spWrite t s.curAgent off n x) := by
  have quiet' : pubIdxs (t.core s.curAgent) off n = [] := by rw [h.here]; exact quiet
  have put : Stored s (m.writeNat off n x)
      (t.setCore s.curAgent { t.core s.curAgent with spad := (t.core s.curAgent).spad.writeNat off n x }) := by
    refine { h with here := ?_, others := fun a ha => ?_ }
    · rw [State.core_setCore_same, h.here]
    · rw [State.core_setCore_other _ _ _ _ ha.symm, h.others a ha]
  rw [spWrite_unpublished quiet']
  dsimp only
  split
  · exact { put with }
  · exact put

theorem Stored.foldl {α : Type} {s t : State} {m : Mem} {f : State → α → State} {g : Mem → α → Mem} {l : List α} (h : Stored s m t)
    (step : ∀ m t, ∀ x ∈ l, Stored s m t → Stored s (g m x) (f t x)) : Stored s (l.foldl g m) (l.foldl f t) := by
  induction l generalizing m t with
  | nil => exact h
  | cons x l ih => exact ih (step m t x List.mem_cons_self h) fun m t y hy => step m t y (List.mem_cons_of_mem x hy)

section
variable {s t : State} {m : Mem} (h : Stored s m t)
include h

theorem Stored.cur : t.cur = s.cur := by
  rw [State.cur, State.ctx, h.curAgent, h.curCtx, h.here]
  rfl

variable (c : Ctx)

theorem Stored.cur_setCur (k : s.curCtx < 8) : (t.setCur c).cur = c := State.cur_setCur t c (h.curCtx ▸ k)

theorem Stored.spad_setCur : ((t.setCur c).core s.curAgent).spad = m := by
  rw [State.setCur_eq, State.core_setCtx_spad, h.here]

theorem Stored.spByte_setCur (b : Nat) : Rule.spByte (t.setCur c) b = m.read b := by
  rw [Rule.spByte, show (t.setCur c).curAgent = s.curAgent from h.curAgent, h.spad_setCur]

theorem Stored.onlyScratch_setCur : Rule.onlyScratch s (t.setCur c) := by
  refine ⟨h.hbm, h.hostMem, h.remote, h.pages, h.dies, h.clusters, h.dir, fun a ha => ?_⟩
  rw [State.setCur_eq, State.core_setCtx, h.curAgent, if_neg ha.symm, h.others a ha]

end

/-- The masked store of a group (R315, R321) leaves in each lane the register's where it is active, and every other byte as it was. -/
theorem Stored.writeMask {s t : State} {off : Nat} (h : Stored s (s.core s.curAgent).spad t) (quiet : pubIdxs (s.core s.curAgent) off 64 = []) (x : Acc)
    (c : Ctx) (mask : Option Reg) (v : Line) :
    ∃ m, Stored s m (writeMask t x (.scratch s.curAgent off) (lanesOn c mask) v) ∧
      (∀ l, l < 16 → m.readNat (off + 4 * l) 4 = if laneActive c mask l then lane v l else (s.core s.curAgent).spad.readNat (off + 4 * l) 4) ∧
      ∀ b, b < off ∨ off + 64 ≤ b → m.read b = (s.core s.curAgent).spad.read b := by
  have active (l : Nat) (hl : l < 16) : l ∈ lanesOn c mask ↔ laneActive c mask l = true := by simp [lanesOn, hl]
  have inside : ∀ l ∈ lanesOn c mask, l < 16 := fun l hl => List.mem_range.mp (List.mem_filter.mp hl).1
  unfold Sys2Proof.Machine.writeMask
  by_cases full : (lanesOn c mask).length = 16
  · have every (l : Nat) (hl : l < 16) : laneActive c mask l = true :=
      List.length_filter_eq_length_iff.mp (by rw [List.length_range]; exact full) l (List.mem_range.mpr hl)
    rw [if_pos full]
    refine ⟨_, h.spWrite quiet v.toNat, fun l hl => ?_, fun b hb => Mem.read_writeNat_outside _ _ _ _ _ hb⟩
    rw [every l hl, if_pos rfl, ← lane_readNat _ _ hl, Mem.readNat_writeNat, pow256, Nat.mod_eq_of_lt v.isLt, BitVec.ofNat_toNat, BitVec.setWidth_eq]
  · rw [if_neg full]
    have narrow : ∀ l ∈ lanesOn c mask, pubIdxs (s.core s.curAgent) (off + 4 * l) 4 = [] := fun l hl =>
      have := inside l hl
      pubIdxs_sub (by omega) (by omega) quiet
    refine ⟨_, h.foldl fun m t l hl stored => stored.spWrite (narrow l hl) (lane v l), fun l hl => ?_, fun b hb => ?_⟩
    · rw [Mem.readNat_foldl_writeNat]
      simp only [active l hl]
      have small : lane v l < 256 ^ 4 := Nat.mod_lt _ (by decide)
      rw [Nat.mod_eq_of_lt small]
    · exact Mem.read_foldl_writeNat_outside _ _ _ _ _ inside b hb

end Sys2Proof.Machine

/-! SUPPORT. O26 (R321): one group of VSP. -/

namespace Sys2Proof.Machine

/-! A lane of VSP. -/

theorem lfmtWidth_eq {f : LFmt} (h : f ≠ .f32) : LFmt.width f = if f = .n32 then .n32 else .i32 := by cases f <;> simp_all [LFmt.width]

theorem LFmt.bits_width (f : LFmt) : (LFmt.width f).bits = 32 := by cases f <;> rfl

/-- The integer of a lane. -/
theorem int_lane (w : Width) (h : w.bits = 32) (x : BitVec 32) : Rule.int w (x.setWidth 64) = readInt x.toNat 32 w.signed := by
  rw [Rule.int_eq_val, Width.val, h, BitVec.toNat_setWidth_of_le (by decide)]

/-- The sum of the integers of two lanes, and so on, is that of the lanes. -/
theorem ofInt_readInt (x : BitVec 32) (sg : Bool) : BitVec.ofInt 32 (readInt x.toNat 32 sg) = x := by
  cases sg with
  | true => rw [readInt_true _ _ (by decide), BitVec.ofInt_toInt, BitVec.ofNat_toNat, BitVec.setWidth_eq]
  | false => rw [readInt_false, BitVec.ofInt_natCast, BitVec.ofNat_toNat, BitVec.ofNat_toNat, BitVec.setWidth_eq, BitVec.setWidth_eq]

/-- A saturated or wrapped integer result in a lane (R255). -/
theorem intToInt_lane {w : Width} (h : w.bits = 32) (v : Int) (sat : Bool) :
    (BitVec.ofNat 32 (intToInt v 32 w.signed sat).1, (intToInt v 32 w.signed sat).2) =
      if sat then ((Rule.clamped w v).1.setWidth 32, (Rule.clamped w v).2) else (BitVec.ofInt 32 v, 0) := by
  have low (n : Int) : (BitVec.ofInt 64 n).setWidth 32 = BitVec.ofInt 32 n := by
    have cut := ofNat_toNat_ofInt (w := 32) (by decide) n
    rwa [BitVec.ofNat_toNat] at cut
  cases sat with
  | false => simp [intToInt, ofNat_wrapN]
  | true =>
    simp only [intToInt, Rule.clamped, h, Bool.true_and, Bool.or_eq_true, decide_eq_true_eq, if_true, clampI]
    by_cases lo : v < minVal 32 w.signed
    · simp [lo, ofNat_wrapN, low]
    · by_cases hi : maxVal 32 w.signed < v
      · simp [lo, hi, ofNat_wrapN, low]
      · simp [lo, hi, ofNat_wrapN, low]

/-! The combining steps of R47 on integers. -/

theorem LFmt.cls_fmt {f : LFmt} (h : f ≠ .f32) : (LFmt.fmt f).cls = .int 32 (LFmt.width f).signed := by
  cases f with | f32 => exact absurd rfl h | i32 => rfl | n32 => rfl

section
variable {f : Fmt} {w : Nat} {sg : Bool} (h : f.cls = .int w sg) (x y : Nat)
include h

theorem combine_add_int : combine .add f x y = (wrapN (readInt x w sg + readInt y w sg) w, 0) := by simp only [combine, h]
theorem combine_min_int : combine .min f x y = (if readInt x w sg ≤ readInt y w sg then x else y, 0) := by
  simp only [combine, h]
  by_cases le : readInt x w sg ≤ readInt y w sg
  · rw [if_pos le, if_neg (Int.not_lt.mpr le)]
  · rw [if_neg le, if_pos (Int.not_le.mp le)]
theorem combine_max_int : combine .max f x y = (if readInt x w sg < readInt y w sg then y else x, 0) := by simp only [combine, h]

end

section
variable {f : LFmt} (hf : f ≠ .f32) (rm : Rm) (sat : Bool) (x y z : Nat)
include hf

/-! A lane of VSP on integers. -/

theorem vspLane_add_int : vspLane .add f rm sat x y z =
    intToInt (readInt x 32 (LFmt.width f).signed + readInt y 32 (LFmt.width f).signed) 32 (LFmt.width f).signed sat := by
  cases f with | f32 => exact absurd rfl hf | i32 => rfl | n32 => rfl

theorem vspLane_sub_int : vspLane .sub f rm sat x y z =
    intToInt (readInt x 32 (LFmt.width f).signed - readInt y 32 (LFmt.width f).signed) 32 (LFmt.width f).signed sat := by
  cases f with | f32 => exact absurd rfl hf | i32 => rfl | n32 => rfl

theorem vspLane_mul_int : vspLane .mul f rm sat x y z =
    (wrapN (readInt x 32 (LFmt.width f).signed * readInt y 32 (LFmt.width f).signed) 32, 0) := by
  cases f with | f32 => exact absurd rfl hf | i32 => rfl | n32 => rfl

theorem vspLane_fma_int : vspLane .fma f rm sat x y z =
    (wrapN (readInt z 32 (LFmt.width f).signed + readInt x 32 (LFmt.width f).signed * readInt y 32 (LFmt.width f).signed) 32, 0) := by
  cases f with | f32 => exact absurd rfl hf | i32 => rfl | n32 => rfl

end

theorem vspLane_min (f : LFmt) (rm : Rm) (sat : Bool) (x y z : Nat) : vspLane .min f rm sat x y z = combine .min (LFmt.fmt f) x y := by cases f <;> rfl
theorem vspLane_max (f : LFmt) (rm : Rm) (sat : Bool) (x y z : Nat) : vspLane .max f rm sat x y z = combine .max (LFmt.fmt f) x y := by cases f <;> rfl

/-- VSP on integers is R255's arithmetic, lane by lane. -/
theorem vspLane_int {op : VspOp} {f : LFmt} {rm : Rm} {sat : Bool} (hf : f ≠ .f32) (x y z : BitVec 32) :
    some (BitVec.ofNat 32 (vspLane op f rm sat x.toNat y.toNat z.toNat).1, (vspLane op f rm sat x.toNat y.toNat z.toNat).2) =
      Rule.vspInt op (if f = .n32 then .n32 else .i32) sat x y z := by
  rw [← lfmtWidth_eq hf]
  have cls := LFmt.cls_fmt hf
  have back (x : BitVec 32) : BitVec.ofInt 32 (readInt x.toNat 32 (LFmt.width f).signed) = x := ofInt_readInt x _
  have same {x y : BitVec 32} (e : readInt x.toNat 32 (LFmt.width f).signed = readInt y.toNat 32 (LFmt.width f).signed) : x = y := by
    rw [← back x, e, back]
  have pick (p : Prop) [Decidable p] : BitVec.ofNat 32 (if p then x.toNat else y.toNat) = if p then x else y := by
    split <;> rw [BitVec.ofNat_toNat, BitVec.setWidth_eq]
  have bits (n : Nat) (v : BitVec 32) (e : n = v.toNat) : BitVec.ofNat 32 n = v := by rw [e, BitVec.ofNat_toNat, BitVec.setWidth_eq]
  simp only [Rule.vspInt, int_lane _ (LFmt.bits_width f)]
  cases op with
  | add => rw [vspLane_add_int hf, intToInt_lane (LFmt.bits_width f), BitVec.ofInt_add, back, back]
  | sub => rw [vspLane_sub_int hf, intToInt_lane (LFmt.bits_width f), Int.sub_eq_add_neg, BitVec.ofInt_add, BitVec.ofInt_neg, back, back,
      BitVec.sub_eq_add_neg]
  | mul => rw [vspLane_mul_int hf, ofNat_wrapN, BitVec.ofInt_mul, back, back]
  | fma => rw [vspLane_fma_int hf, ofNat_wrapN, BitVec.ofInt_add, BitVec.ofInt_mul, back, back, back]
  | min => rw [vspLane_min, combine_min_int cls, pick]
  | max =>
    dsimp only
    rw [vspLane_max, combine_max_int cls]
    rcases lt_trichotomy (readInt x.toNat 32 (LFmt.width f).signed) (readInt y.toNat 32 (LFmt.width f).signed) with lt | eq | gt
    · rw [if_pos lt, if_pos lt.le, bits _ y rfl]
    · rw [same eq, ite_self, ite_self, bits _ y rfl]
    · rw [if_neg gt.not_gt, if_neg gt.not_ge, bits _ x rfl]
  | and => exact congrArg (fun v => some (v, 0)) (bits _ _ (BitVec.toNat_and x y).symm)
  | or => exact congrArg (fun v => some (v, 0)) (bits _ _ (BitVec.toNat_or x y).symm)
  | xor => exact congrArg (fun v => some (v, 0)) (bits _ _ (BitVec.toNat_xor x y).symm)

/-! A lane of VSP on f32. -/

theorem fits_f32 : ffF32.Fits := Fmt.fits (f := .f32) rfl

section
variable {f : FF} (h : f.Fits)
include h

/-! The results of FloatArith fit their format. -/

theorem fsum_lt (a b : Val) (rm : Rm) (sat : Bool) : (fsum f a b rm sat).1 < 2 ^ f.width := by
  have round (v : Val) := roundFloat_lt h v rm sat
  have zero (s : Bool) : f.withSign s 0 < 2 ^ f.width := FF.withSign_lt s (Nat.two_pow_pos _)
  cases a with
  | nan => rw [Rule.fsum_nan_left]; exact h.nan_lt
  | inf s =>
    cases b with
    | nan => exact h.nan_lt
    | inf t => simp only [fsum]; split <;> [exact round _; exact h.nan_lt]
    | fin t m e => exact round _
  | fin s n d =>
    cases b with
    | nan => exact h.nan_lt
    | inf t => exact round _
    | fin t m e => simp only [fsum]; split <;> [exact zero _; exact round _]

theorem fmulV_lt (a b : Val) (rm : Rm) (sat : Bool) : (fmulV f a b rm sat).1 < 2 ^ f.width := roundFloat_lt h _ rm sat

theorem fmaV_lt (z a b : Val) (rm : Rm) (sat : Bool) : (fmaV f z a b rm sat).1 < 2 ^ f.width := by
  unfold fmaV
  split
  · exact h.nan_lt
  · exact fsum_lt h z _ rm sat

theorem fmin_lt {x y : Nat} (hx : x < 2 ^ f.width) (hy : y < 2 ^ f.width) : fmin f x y < 2 ^ f.width := by
  simp only [fmin]
  split_ifs <;> [exact h.nan_lt; exact hy; exact hx]

theorem fmax_lt {x y : Nat} (hx : x < 2 ^ f.width) (hy : y < 2 ^ f.width) : fmax f x y < 2 ^ f.width := by
  simp only [fmax]
  split_ifs <;> [exact h.nan_lt; exact hy; exact hx]

end

theorem vspLane_f32_lt (op : VspOp) (rm : Rm) (sat : Bool) (x y z : BitVec 32) :
    (vspLane op .f32 rm sat x.toNat y.toNat z.toNat).1 < 2 ^ 32 := by
  cases op with
  | add => exact fsum_lt fits_f32 _ _ rm sat
  | sub => exact fsum_lt fits_f32 _ _ rm sat
  | mul => exact fmulV_lt fits_f32 _ _ rm sat
  | fma => exact fmaV_lt fits_f32 _ _ _ rm sat
  | min => exact fmin_lt fits_f32 x.isLt y.isLt
  | max => exact fmax_lt fits_f32 x.isLt y.isLt
  | and => exact Nat.and_lt_two_pow _ y.isLt
  | or => exact Nat.or_lt_two_pow x.isLt y.isLt
  | xor => exact Nat.xor_lt_two_pow x.isLt y.isLt

/-- VSP on f32 is FloatArith (R262). -/
theorem vspLane_float {op : VspOp} {rm : Rm} {sat : Bool} {x y z : BitVec 32} {k : Rule.FloatCase} (h : Rule.vspFloat op rm sat x y z = some k) :
    Rule.floatOut k (vspLane op .f32 rm sat x.toNat y.toNat z.toNat).1 (vspLane op .f32 rm sat x.toNat y.toNat z.toNat).2 := by
  have sound (x : BitVec 32) := Rule.sound_decode Rule.ffF32_ieee x.toNat
  cases op with
  | add => cases h; exact Rule.floatOut_add Rule.ffF32_ieee rm sat (sound x) (sound y)
  | sub => cases h; exact Rule.floatOut_sub Rule.ffF32_ieee rm sat (sound x) (sound y)
  | mul => cases h; exact Rule.floatOut_mul Rule.ffF32_ieee rm sat (sound x) (sound y)
  | fma => cases h; exact Rule.floatOut_fma Rule.ffF32_ieee rm sat (sound z) (sound x) (sound y)
  | min => cases h
  | max => cases h
  | and => cases h
  | or => cases h
  | xor => cases h

theorem combine_min_f32 (x y : BitVec 32) : combine .min .f32 x.toNat y.toNat = (Rule.lesser ffF32 x.toNat y.toNat, 0) :=
  congrArg (fun n => (n, (0 : Word))) (Rule.fmin_eq_lesser Rule.ffF32_ieee Rule.ffF32_infBits_pos x.isLt y.isLt)

theorem combine_max_f32 (x y : BitVec 32) : combine .max .f32 x.toNat y.toNat = (Rule.greater ffF32 x.toNat y.toNat, 0) :=
  congrArg (fun n => (n, (0 : Word))) (Rule.fmax_eq_greater Rule.ffF32_ieee Rule.ffF32_infBits_pos x.isLt y.isLt)

end Sys2Proof.Machine

/-! SUPPORT. O26 (R321): VSP, one group at an issue. -/

namespace Sys2Proof.Machine

theorem exec_vsp (o : OVsp) (s : State) : exec (.vsp o) s = execVsp o s := rfl

theorem exec_vsp_empty (o : OVsp) (s : State) (h : Ready (.vsp o) s) (zero : s.cur.rG o.c = 0) : exec (.vsp o) s = .next (done (.vsp o) s) := by
  have none : (s.cur.rG o.c).toNat = 0 := by rw [zero]; rfl
  rw [exec_vsp, execVsp, issue_ready h, answer_eq]
  simp only [none, if_true]

/-- The lanes of a group of a scratchpad after VSP, and its flags. -/
def vspGroup (o : OVsp) (c : Ctx) (m : Mem) (oa ob od : Nat) : Fl Line :=
  mapLanes (lanesOn c o.mask) (BitVec.ofNat 512 (m.readNat od 64)) fun l =>
    vspLane o.op o.fmt o.rm o.sat (lane (BitVec.ofNat 512 (m.readNat oa 64)) l) (lane (BitVec.ofNat 512 (m.readNat ob 64)) l)
      (lane (BitVec.ofNat 512 (m.readNat od 64)) l)

/-- The pointer after a group. -/
def vspStep (c : Ctx) (r : Reg) : Ctx := c.wG r (c.rG r + 64) (c.taintG r)

/-- The context after a group, of `n` to go: pointers past it, one group fewer, and the PC past the last. -/
def vspNext (o : OVsp) (n : Nat) (c : Ctx) (fl : Word) : Ctx :=
  let d := vspStep (vspStep (vspStep c o.a) o.b) o.d
  let e := (d.wG o.c (d.rG o.c - 1) (d.taintG o.c)).orFlags fl
  if n = 1 then e.past (.vsp o) else { e with wait := none, vsp := true }

/-- The pointers of VSP are distinct (R321). -/
theorem vsp_distinct {o : OVsp} (h : Instr.wf (.vsp o) = true) :
    (o.a ≠ 0 ∧ o.b ≠ 0 ∧ o.c ≠ 0 ∧ o.d ≠ 0) ∧ o.d ≠ o.a ∧ o.d ≠ o.b ∧ o.d ≠ o.c ∧ o.a ≠ o.b ∧ o.a ≠ o.c ∧ o.b ≠ o.c := by
  have fields : Instr.fieldsOk (.vsp o) = true := (Bool.and_eq_true_iff.mp h).2
  simp only [Instr.fieldsOk, vspRegs, Bool.and_eq_true, bne_iff_ne] at fields
  tauto

theorem vspNext_registers {o : OVsp} (h : Instr.wf (.vsp o) = true) (n : Nat) (c : Ctx) (fl : Word) :
    (vspNext o n c fl).rG o.a = c.rG o.a + 64 ∧ (vspNext o n c fl).rG o.b = c.rG o.b + 64 ∧ (vspNext o n c fl).rG o.d = c.rG o.d + 64 ∧
      (vspNext o n c fl).rG o.c = c.rG o.c - 1 := by
  obtain ⟨⟨a0, b0, c0, d0⟩, da, db, dc, ab, ac, bc⟩ := vsp_distinct h
  have reg (r : Reg) : (vspNext o n c fl).rG r = ((vspStep (vspStep (vspStep c o.a) o.b) o.d).wG o.c
      ((vspStep (vspStep (vspStep c o.a) o.b) o.d).rG o.c - 1) ((vspStep (vspStep (vspStep c o.a) o.b) o.d).taintG o.c)).rG r := by
    unfold vspNext
    by_cases last : n = 1 <;> simp only [last, if_true, if_false] <;> rfl
  have same {c : Ctx} {r : Reg} {x : Word} {t : Bool} (h : r ≠ 0) : (c.wG r x t).rG r = x := by rw [Ctx.rG_wG, if_pos ⟨rfl, h⟩]
  have other {c : Ctx} {r q : Reg} {x : Word} {t : Bool} (h : r ≠ q) : (c.wG r x t).rG q = c.rG q := by rw [Ctx.rG_wG, if_neg fun e => h e.1]
  simp only [reg, vspStep, same a0, same b0, same c0, same d0, other da, other db, other dc, other ab, other ac, other bc, other da.symm,
    other db.symm, other dc.symm, other ab.symm, other ac.symm, other bc.symm, and_self]

theorem vspNext_flags (o : OVsp) (n : Nat) (c : Ctx) (fl : Word) : (vspNext o n c fl).flags = c.flags ||| fl := by
  unfold vspNext
  by_cases last : n = 1 <;> simp [last, vspStep]

theorem vspNext_pc (o : OVsp) (n : Nat) (c : Ctx) (fl : Word) :
    (vspNext o n c fl).pc = if n = 1 then c.pc + BitVec.ofNat 64 (Instr.bytes (.vsp o)) else c.pc := by
  unfold vspNext
  by_cases last : n = 1 <;> simp [last, vspStep]

theorem ownFault_none {s : State} {l : List Word} (h : ∀ va ∈ l, ∃ off, Rule.ownScratch s va 64 64 off) : ownFault s l = none := by
  induction l with
  | nil => rfl
  | cons va t ih =>
    obtain ⟨off, own⟩ := h va List.mem_cons_self
    have small := own.2.2.1
    have align := own.2.2.2.1
    have addr := addrPart_ownScratch own
    have aligned : ¬ addrPart va % 64 ≠ 0 := by rw [addr]; omega
    have window : ¬ addrPart va / 2 ^ 48 ≠ 0xF0 := by rw [addr]; omega
    rw [ownFault, if_neg aligned, if_neg window, localCheck, resolveLocal_ownScratch own (by decide) (by decide)]
    exact ih fun v hv => h v (List.mem_cons_of_mem va hv)

theorem readPath_scratch (s : State) (x : Acc) (a off n : Nat) : readPath s x (.scratch a off) n = ((s.core a).spad.readNat off n, s) := rfl

/-- One group of VSP whose pointers are clean groups of the own scratchpad and whose store nothing holds. -/
theorem exec_vsp_group {o : OVsp} {s : State} {oa ob od : Nat} (h : Ready (.vsp o) s) (more : 0 < (s.cur.rG o.c).toNat)
    (a : Rule.ownScratch s (s.cur.rG o.a) 64 64 oa) (b : Rule.ownScratch s (s.cur.rG o.b) 64 64 ob) (d : Rule.ownScratch s (s.cur.rG o.d) 64 64 od)
    (ca : Rule.unpoisoned s oa) (cb : Rule.unpoisoned s ob) (cd : Rule.unpoisoned s od) (free : Rule.unpublished s od 64) :
    let r := vspGroup o s.cur (s.core s.curAgent).spad oa ob od
    let t := writeMask s (curAcc s) (.scratch s.curAgent od) (lanesOn s.cur o.mask) r.1
    exec (.vsp o) s = .next (t.setCur (vspNext o (s.cur.rG o.c).toNat s.cur r.2)) := by
  intro r t
  obtain ⟨_, stored, -⟩ := (Stored.refl s).writeMask free.1 (curAcc s) s.cur o.mask r.1
  have own : ownFault s [s.cur.rG o.a, s.cur.rG o.b, s.cur.rG o.d] = none := ownFault_none fun va hva => by
    simp only [List.mem_cons, List.not_mem_nil, or_false] at hva
    obtain rfl | rfl | rfl := hva <;> exact ⟨_, ‹_›⟩
  rw [exec_vsp, execVsp, issue_ready h, answer_eq]
  have cur : t.cur = s.cur := stored.cur
  simp only [own, resolve_ownScratch a (by decide) (k := .rd) (by decide) ca, resolve_ownScratch b (by decide) (k := .rd) (by decide) cb,
    resolve_ownScratch d (by decide) (k := .at) (by decide) cd, pathHold_unpublished free, if_neg more.ne', readPath_scratch]
  exact congrArg (fun c => Host.Outcome.next (t.setCur (vspNext o (s.cur.rG o.c).toNat c r.2))) cur

/-- The four bytes of lane `l` of a group in memory. -/
def word (m : Mem) (off l : Nat) : BitVec 32 := BitVec.ofNat 32 (m.readNat (off + 4 * l) 4)

theorem toNat_word (m : Mem) (off l : Nat) : (word m off l).toNat = m.readNat (off + 4 * l) 4 := by
  rw [word, BitVec.toNat_ofNat]
  exact Nat.mod_eq_of_lt (Mem.readNat_lt m _ 4)

theorem gathered_mapLanes (c : Ctx) (mask : Option Reg) (old : Line) (f : Nat → Fl Nat) :
    Rule.gathered (laneActive c mask) (fun l => (f l).2) (mapLanes (lanesOn c mask) old f).2 := fun b _ => by
  rw [mapLanes_eq, flags_foldl_laneStep]
  simp [lanesOn, and_assoc]

theorem lane_mapLanes (c : Ctx) (mask : Option Reg) (old : Line) (f : Nat → Fl Nat) {l : Nat} (hl : l < 16) :
    Rule.lane (mapLanes (lanesOn c mask) old f).1 l = if laneActive c mask l then BitVec.ofNat 32 (f l).1 else Rule.lane old l := by
  rw [mapLanes_eq, lane_foldl_laneStep _ _ _ _ hl]
  simp [lanesOn, hl]

/-- What an active lane of VSP computes, from the words of its group. -/
def vspWord (o : OVsp) (m : Mem) (oa ob od l : Nat) : Fl Nat :=
  vspLane o.op o.fmt o.rm o.sat (word m oa l).toNat (word m ob l).toNat (word m od l).toNat

theorem lane_vspGroup (o : OVsp) (c : Ctx) (m : Mem) (oa ob od : Nat) {l : Nat} (hl : l < 16) (on : laneActive c o.mask l = true) :
    BitVec.ofNat 32 (lane (vspGroup o c m oa ob od).1 l) = BitVec.ofNat 32 (vspWord o m oa ob od l).1 := by
  rw [← toNat_lane, BitVec.ofNat_toNat, BitVec.setWidth_eq, vspGroup, lane_mapLanes _ _ _ _ hl, if_pos on]
  simp only [vspWord, toNat_word, lane_readNat _ _ hl]

theorem gathered_vspGroup (o : OVsp) (c : Ctx) (m : Mem) (oa ob od : Nat) :
    Rule.gathered (laneActive c o.mask) (fun l => (vspWord o m oa ob od l).2) (vspGroup o c m oa ob od).2 := fun b hb => by
  rw [vspGroup, gathered_mapLanes _ _ _ _ b hb]
  refine exists_congr fun l => and_congr_right fun hl => ?_
  simp only [vspWord, toNat_word, lane_readNat _ _ hl]

/-- An active lane of VSP holds R321's result: R255's arithmetic on integers, FloatArith and R47's order on f32. -/
theorem vspWord_result (o : OVsp) (m : Mem) (oa ob od l : Nat) :
    let r := vspWord o m oa ob od l
    let x := word m oa l
    let y := word m ob l
    (o.fmt ≠ .f32 → some (BitVec.ofNat 32 r.1, r.2) = Rule.vspInt o.op (if o.fmt = .n32 then .n32 else .i32) o.sat x y (word m od l)) ∧
    (o.fmt = .f32 →
      (∀ k, Rule.vspFloat o.op o.rm o.sat x y (word m od l) = some k → Rule.floatOut k (BitVec.ofNat 32 r.1).toNat r.2) ∧
      (o.op = .min → r.2 = 0 ∧ (BitVec.ofNat 32 r.1).toNat = Rule.lesser ffF32 x.toNat y.toNat) ∧
      (o.op = .max → r.2 = 0 ∧ (BitVec.ofNat 32 r.1).toNat = Rule.greater ffF32 x.toNat y.toNat)) := by
  refine ⟨fun int => vspLane_int int _ _ _, fun flt => ?_⟩
  have small : (vspWord o m oa ob od l).1 < 2 ^ 32 := by rw [vspWord, flt]; exact vspLane_f32_lt _ _ _ _ _ _
  rw [BitVec.toNat_ofNat, Nat.mod_eq_of_lt small, vspWord, flt]
  refine ⟨fun k case => vspLane_float case, fun op => ?_, fun op => ?_⟩
  · rw [op, vspLane_min]
    exact ⟨rfl, congrArg Prod.fst (combine_min_f32 _ _)⟩
  · rw [op, vspLane_max]
    exact ⟨rfl, congrArg Prod.fst (combine_max_f32 _ _)⟩

/-- VSP on a group (R321): its active lanes hold their result, every other byte is kept, and the pointers step on. -/
theorem exec_vsp_on_group (o : OVsp) (s : State) (oa ob od : Nat) (h : Ready (.vsp o) s) (more : 0 < (s.cur.rG o.c).toNat)
    (a : Rule.ownScratch s (s.cur.rG o.a) 64 64 oa) (b : Rule.ownScratch s (s.cur.rG o.b) 64 64 ob) (d : Rule.ownScratch s (s.cur.rG o.d) 64 64 od)
    (ca : Rule.unpoisoned s oa) (cb : Rule.unpoisoned s ob) (cd : Rule.unpoisoned s od) (free : Rule.unpublished s od 64) :
    let on (l : Nat) : Bool := match o.mask with | none => true | some g => (s.cur.rG g).getLsbD l
    let m (u : State) (off l : Nat) : BitVec 32 := BitVec.ofNat 32 ((u.core s.curAgent).spad.readNat (off + 4 * l) 4)
    ∃ (t : State) (g : Nat → Word) (fl : Word), exec (.vsp o) s = .next t ∧ t.cur.rG o.a = s.cur.rG o.a + 64 ∧ t.cur.rG o.b = s.cur.rG o.b + 64 ∧
      t.cur.rG o.d = s.cur.rG o.d + 64 ∧ t.cur.rG o.c = s.cur.rG o.c - 1 ∧
      t.cur.pc = (if s.cur.rG o.c = 1 then s.cur.pc + BitVec.ofNat 64 (Instr.bytes (.vsp o)) else s.cur.pc) ∧ Rule.onlyScratch s t ∧
      t.cur.flags = s.cur.flags ||| fl ∧ Rule.gathered on g fl ∧
      (∀ b, b < od ∨ od + 64 ≤ b → Rule.spByte t b = Rule.spByte s b) ∧
      ∀ l, l < 16 → (on l = false → m t od l = m s od l) ∧ (on l = true →
        (o.fmt ≠ .f32 → some (m t od l, g l) = Rule.vspInt o.op (if o.fmt = .n32 then .n32 else .i32) o.sat (m s oa l) (m s ob l) (m s od l)) ∧
        (o.fmt = .f32 →
          (∀ k, Rule.vspFloat o.op o.rm o.sat (m s oa l) (m s ob l) (m s od l) = some k → Rule.floatOut k (m t od l).toNat (g l)) ∧
          (o.op = .min → g l = 0 ∧ (m t od l).toNat = Rule.lesser ffF32 (m s oa l).toNat (m s ob l).toNat) ∧
          (o.op = .max → g l = 0 ∧ (m t od l).toNat = Rule.greater ffF32 (m s oa l).toNat (m s ob l).toNat))) := by
  intro on m
  have step := exec_vsp_group h more a b d ca cb cd free
  have flags := gathered_vspGroup o s.cur (s.core s.curAgent).spad oa ob od
  have value {l : Nat} := lane_vspGroup o s.cur (s.core s.curAgent).spad oa ob od (l := l)
  generalize vspGroup o s.cur (s.core s.curAgent).spad oa ob od = r at step flags value
  obtain ⟨sp, stored, lanes, frame⟩ := (Stored.refl s).writeMask free.1 (curAcc s) s.cur o.mask r.1
  dsimp only at step
  generalize writeMask s (curAcc s) (.scratch s.curAgent od) (lanesOn s.cur o.mask) r.1 = u at step stored
  obtain ⟨ra, rb, rd, rc⟩ := vspNext_registers h.2.1 (s.cur.rG o.c).toNat s.cur r.2
  refine ⟨_, fun l => (vspWord o (s.core s.curAgent).spad oa ob od l).2, r.2, step, ?_⟩
  rw [stored.cur_setCur _ h.curCtx_lt]
  refine ⟨ra, rb, rd, rc, ?_, stored.onlyScratch_setCur _, vspNext_flags _ _ _ _, flags, fun b hb => ?_, fun l hl => ?_⟩
  · have one : (s.cur.rG o.c).toNat = 1 ↔ s.cur.rG o.c = 1 := BitVec.toNat_inj (y := 1)
    rw [vspNext_pc]
    simp only [one]
  · exact (stored.spByte_setCur _ b).trans (frame b hb)
  · have here : m (u.setCur (vspNext o (s.cur.rG o.c).toNat s.cur r.2)) od l = BitVec.ofNat 32 (sp.readNat (od + 4 * l) 4) := by
      simp only [m, stored.spad_setCur]
    rw [here, lanes l hl]
    refine ⟨fun off => ?_, fun act => ?_⟩
    · rw [if_neg (by rw [show laneActive s.cur o.mask l = false from off]; exact Bool.false_ne_true)]
    · rw [if_pos (show laneActive s.cur o.mask l = true from act), value hl act]
      exact vspWord_result o (s.core s.curAgent).spad oa ob od l

end Sys2Proof.Machine

/-! SUPPORT. O26 (R46, R47, R322): TreeCombine level by level, and what VRED reduces its lanes to. -/

namespace Sys2Proof

/-! TreeCombine (R46) as levels of values by index. -/

/-- The values of the next level: neighbours combined. -/
def level (op : Nat → Nat → Fl Nat) (h : Nat → Nat) (i : Nat) : Nat := (op (h (2 * i)) (h (2 * i + 1))).1
/-- The flags of that step. -/
def levelFlags (op : Nat → Nat → Fl Nat) (h : Nat → Nat) (i : Nat) : Word := (op (h (2 * i)) (h (2 * i + 1))).2

section
variable (op : Nat → Nat → Fl Nat) (h : Nat → Nat)

theorem map_range_two_mul_succ (n : Nat) :
    (List.range (2 * (n + 1))).map h = h 0 :: h 1 :: (List.range (2 * n)).map fun i => h (i + 2) := by
  rw [Nat.mul_succ, List.range_succ_eq_map, List.range_succ_eq_map]
  simp [Function.comp_def]

theorem pairUp_cons (a b : Nat) (t : List Nat) :
    pairUp op (a :: b :: t) = ((op a b).1 :: (pairUp op t).1, (op a b).2 ||| (pairUp op t).2) := rfl

/-- One level of an even row is the next level, with the flags of all its steps. -/
theorem pairUp_range (n : Nat) : (pairUp op ((List.range (2 * n)).map h)).1 = (List.range n).map (level op h) ∧
    ∀ b, (pairUp op ((List.range (2 * n)).map h)).2.getLsbD b = true ↔ ∃ i, i < n ∧ (levelFlags op h i).getLsbD b = true := by
  induction n generalizing h with
  | zero => simp [pairUp]
  | succ n ih =>
    obtain ⟨values, flags⟩ := ih fun i => h (i + 2)
    have later (i : Nat) : level op (fun i => h (i + 2)) i = level op h (i + 1) ∧ levelFlags op (fun i => h (i + 2)) i = levelFlags op h (i + 1) := ⟨rfl, rfl⟩
    rw [map_range_two_mul_succ, pairUp_cons]
    refine ⟨?_, fun b => ?_⟩
    · rw [values, List.range_succ_eq_map, List.map_cons, List.map_map]
      rfl
    · simp only [BitVec.getLsbD_or, Bool.or_eq_true, flags, later]
      refine ⟨?_, fun ⟨i, hi, bit⟩ => ?_⟩
      · rintro (bit | ⟨i, hi, bit⟩)
        · exact ⟨0, Nat.succ_pos n, bit⟩
        · exact ⟨i + 1, Nat.succ_lt_succ hi, bit⟩
      · cases i with
        | zero => exact .inl bit
        | succ i => exact .inr ⟨i, Nat.lt_of_succ_lt_succ hi, bit⟩

theorem treeLevels_succ (n : Nat) {l : List Nat} (hl : 2 ≤ l.length) :
    treeLevels op (n + 1) l = ((treeLevels op n (pairUp op l).1).1, (pairUp op l).2 ||| (treeLevels op n (pairUp op l).1).2) := by
  match l, hl with
  | _ :: _ :: _, _ => rfl

/-- TreeCombine of a row of a power of two is its last level, with the flags of every step. -/
theorem treeLevels_range (j fuel : Nat) (enough : j ≤ fuel) : (treeLevels op fuel ((List.range (2 ^ j)).map h)).1 = (level op)^[j] h 0 ∧
    ∀ b, (treeLevels op fuel ((List.range (2 ^ j)).map h)).2.getLsbD b = true ↔
      ∃ k i, k < j ∧ i < 2 ^ (j - 1 - k) ∧ (levelFlags op ((level op)^[k] h) i).getLsbD b = true := by
  induction j generalizing h fuel with
  | zero => cases fuel <;> simp [treeLevels]
  | succ j ih =>
    obtain ⟨fuel, rfl⟩ := Nat.exists_eq_succ_of_ne_zero (Nat.ne_of_gt (Nat.lt_of_lt_of_le (Nat.succ_pos j) enough))
    have long : 2 ≤ ((List.range (2 * 2 ^ j)).map h).length := by
      rw [List.length_map, List.length_range]
      exact Nat.le_mul_of_pos_right 2 (Nat.two_pow_pos j)
    obtain ⟨values, flags⟩ := pairUp_range op h (2 ^ j)
    obtain ⟨last, later⟩ := ih (level op h) fuel (Nat.le_of_succ_le_succ enough)
    rw [Nat.pow_succ, Nat.mul_comm, treeLevels_succ op fuel long, values]
    refine ⟨last, fun b => ?_⟩
    simp only [BitVec.getLsbD_or, Bool.or_eq_true, flags, later]
    refine ⟨?_, fun ⟨k, i, hk, hi, bit⟩ => ?_⟩
    · rintro (⟨i, hi, bit⟩ | ⟨k, i, hk, hi, bit⟩)
      · exact ⟨0, i, Nat.succ_pos j, hi, bit⟩
      · exact ⟨k + 1, i, Nat.succ_lt_succ hk, by rwa [show j + 1 - 1 - (k + 1) = j - 1 - k by omega], bit⟩
    · cases k with
      | zero => exact .inl ⟨i, hi, bit⟩
      | succ k => exact .inr ⟨k, i, Nat.lt_of_succ_lt_succ hk, by rwa [show j - 1 - k = j + 1 - 1 - (k + 1) by omega], bit⟩

/-- What holds of a value alone and is kept by a step that joins neighbours holds of every value of a level and the values below it. -/
theorem iterate_level_induct {P : List Nat → Nat → Prop} (leaf : ∀ x, P [x] x) (node : ∀ l a l' b, P l a → P l' b → P (l ++ l') (op a b).1)
    (j i : Nat) : P ((List.range (2 ^ j)).map fun k => h (2 ^ j * i + k)) ((level op)^[j] h i) := by
  induction j generalizing i with
  | zero => simpa using leaf (h i)
  | succ j ih =>
    rw [Function.iterate_succ_apply', level]
    have two : 2 ^ (j + 1) = 2 ^ j + 2 ^ j := by rw [Nat.pow_succ, Nat.mul_two]
    have joined : ((List.range (2 ^ (j + 1))).map fun k => h (2 ^ (j + 1) * i + k)) =
        ((List.range (2 ^ j)).map fun k => h (2 ^ j * (2 * i) + k)) ++ (List.range (2 ^ j)).map fun k => h (2 ^ j * (2 * i + 1) + k) := by
      rw [two, List.range_add, List.map_append, List.map_map]
      congr 1
      · refine List.map_congr_left fun k _ => congrArg h ?_
        ring
      · refine List.map_congr_left fun k _ => congrArg h ?_
        ring
    rw [joined]
    exact node _ _ _ _ (ih _) (ih _)

end

/-- TreeCombine of 16 values. -/
theorem treeCombine_range (op : Nat → Nat → Fl Nat) (h : Nat → Nat) : (treeCombine op ((List.range 16).map h)).1 = (level op)^[4] h 0 ∧
    ∀ b, (treeCombine op ((List.range 16).map h)).2.getLsbD b = true ↔
      ∃ k i, k < 4 ∧ i < 2 ^ (3 - k) ∧ (levelFlags op ((level op)^[k] h) i).getLsbD b = true := treeLevels_range op h 4 16 (by decide)

/-- What TreeCombine of 16 values keeps of them, by its steps. -/
theorem level_four_induct {P : List Nat → Nat → Prop} {op : Nat → Nat → Fl Nat} (h : Nat → Nat) (leaf : ∀ x, P [x] x)
    (node : ∀ l a l' b, P l a → P l' b → P (l ++ l') (op a b).1) : P ((List.range 16).map h) ((level op)^[4] h 0) := by
  have all := iterate_level_induct op h leaf node 4 0
  simp only [Nat.mul_zero, Nat.zero_add] at all
  exact all

end Sys2Proof

namespace Sys2Proof.Machine

/-! VRED (R322). -/

/-- The value of lane `l` in the reduction: the identity where it is not active. -/
def vredLane (o : OVred) (c : Ctx) (l : Nat) : Nat := if laneActive c o.mask l then lane (c.rV o.a) l else identity o.op (LFmt.fmt o.fmt)

/-- The last value of the tree. -/
def vredRoot (o : OVred) (c : Ctx) : Nat := (level (combine o.op (LFmt.fmt o.fmt)))^[4] (vredLane o c) 0

/-- The flags of the tree. -/
def vredFlags (o : OVred) (c : Ctx) : Word := (treeCombine (combine o.op (LFmt.fmt o.fmt)) ((List.range 16).map (vredLane o c))).2

theorem exec_vred {o : OVred} {s : State} (h : Ready (.vred o) s) :
    exec (.vred o) s =
      .next (s.setCur (wroteG (.vred o) s.cur o.d (BitVec.ofNat 64 (extend (LFmt.fmt o.fmt) (vredRoot o s.cur) 64)) (vredFlags o s.cur))) := by
  have root := (treeCombine_range (combine o.op (LFmt.fmt o.fmt)) (vredLane o s.cur)).1
  have run : exec (.vred o) s = execVred o s := rfl
  have lanes : vredLane o s.cur = fun l => if laneActive s.cur o.mask l then lane (s.cur.rV o.a) l else identity o.op (LFmt.fmt o.fmt) := rfl
  rw [run, execVred, execAlu_ready h, vredRoot, ← root, vredFlags, lanes]

theorem combine_int_flags {f : Fmt} {w : Nat} {sg : Bool} (h : f.cls = .int w sg) (op : CollOp) (x y : Nat) : (combine op f x y).2 = 0 := by
  cases op with
  | add => rw [combine_add_int h]
  | min => rw [combine_min_int h]
  | max => rw [combine_max_int h]
  | and => rfl
  | or => rfl
  | xor => rfl

theorem vredFlags_int {o : OVred} (hf : o.fmt ≠ .f32) (c : Ctx) : vredFlags o c = 0 := by
  apply BitVec.eq_of_getLsbD_eq
  intro b _
  have clear : (0 : Word).getLsbD b = false := BitVec.getLsbD_zero
  have flags := (treeCombine_range (combine o.op (LFmt.fmt o.fmt)) (vredLane o c)).2 b
  simp only [levelFlags, combine_int_flags (LFmt.cls_fmt hf), clear, Bool.false_eq_true, and_false, exists_false, iff_false] at flags
  rw [clear]
  exact Bool.eq_false_iff.mpr flags

/-! A register that holds an integer of 32 bits. -/

theorem narrow_lfmt {f : LFmt} (hf : f ≠ .f32) (r : Nat) :
    BitVec.ofNat 64 (extend (LFmt.fmt f) r 64) = Rule.narrow (LFmt.width f) ((BitVec.ofNat 32 r).setWidth 64) := by
  have low : ((BitVec.ofNat 32 r).setWidth 64).setWidth 32 = BitVec.ofNat 32 r := by
    rw [BitVec.setWidth_setWidth_of_le _ (by decide), BitVec.setWidth_eq]
  rw [ofNat_extend_int (LFmt.cls_fmt hf)]
  cases f with
  | f32 => exact absurd rfl hf
  | i32 => exact (congrArg (BitVec.ofInt 64) (readInt_true r 32 (by decide))).trans (congrArg (BitVec.signExtend 64) low.symm)
  | n32 =>
    rw [show (LFmt.width .n32).signed = false from rfl, readInt_false, BitVec.ofInt_natCast, BitVec.ofNat_toNat]
    exact congrArg (BitVec.setWidth 64) low.symm

section
variable (f : LFmt) (x : BitVec 32)

theorem setWidth_narrow : (Rule.narrow (LFmt.width f) (x.setWidth 64)).setWidth 32 = x := by
  have low : (x.setWidth 64).setWidth 32 = x := by rw [BitVec.setWidth_setWidth_of_le _ (by decide), BitVec.setWidth_eq]
  have signed : (x.signExtend 64).setWidth 32 = x := by
    ext i hi
    have below : i < 64 := by omega
    rw [BitVec.getElem_setWidth, BitVec.getLsbD_eq_getElem below, BitVec.getElem_signExtend, dif_pos hi]
  cases f <;> simp only [Rule.narrow, LFmt.width, low, signed]

theorem narrow_narrow : Rule.narrow (LFmt.width f) (Rule.narrow (LFmt.width f) (x.setWidth 64)) = Rule.narrow (LFmt.width f) (x.setWidth 64) := by
  have low : (x.setWidth 64).setWidth 32 = x := by rw [BitVec.setWidth_setWidth_of_le _ (by decide), BitVec.setWidth_eq]
  have again := setWidth_narrow f x
  cases f with
  | n32 => exact congrArg (BitVec.setWidth 64) (again.trans low.symm)
  | i32 => exact congrArg (BitVec.signExtend 64) (again.trans low.symm)
  | f32 => exact congrArg (BitVec.signExtend 64) (again.trans low.symm)

theorem int_narrow : Rule.int (LFmt.width f) (Rule.narrow (LFmt.width f) (x.setWidth 64)) = readInt x.toNat 32 (LFmt.width f).signed := by
  rw [Rule.int, narrow_narrow, ← Rule.int, int_lane _ (LFmt.bits_width f)]

end

/-! What VRED leaves of its lanes, on integers. -/

theorem readInt_ofNat (x : Nat) (sg : Bool) : readInt (BitVec.ofNat 32 x).toNat 32 sg = readInt x 32 sg := by rw [BitVec.toNat_ofNat, readInt_mod]

theorem ofInt_readInt_ofNat (x : Nat) (sg : Bool) : BitVec.ofInt 32 (readInt x 32 sg) = BitVec.ofNat 32 x := by
  rw [← readInt_ofNat, ofInt_readInt]

/-- A lane of the reduction as a bit vector: the register's where it is active. -/
theorem ofNat_vredLane (o : OVred) (c : Ctx) (l : Nat) : BitVec.ofNat 32 (vredLane o c l) =
    if laneActive c o.mask l then Rule.lane (c.rV o.a) l else BitVec.ofNat 32 (identity o.op (LFmt.fmt o.fmt)) := by
  unfold vredLane
  split
  · rw [← toNat_lane, BitVec.ofNat_toNat, BitVec.setWidth_eq]
  · rfl

/-- An operation whose step is an associative one on bit vectors reduces to its fold over the active lanes. -/
theorem vredRoot_fold {o : OVred} {m : BitVec 32 → BitVec 32 → BitVec 32} (assoc : ∀ x y z, m (m x y) z = m x (m y z)) (left : ∀ x, m 0 x = x)
    (right : ∀ x, m x 0 = x) (one : BitVec.ofNat 32 (identity o.op (LFmt.fmt o.fmt)) = 0)
    (step : ∀ a b, BitVec.ofNat 32 (combine o.op (LFmt.fmt o.fmt) a b).1 = m (BitVec.ofNat 32 a) (BitVec.ofNat 32 b)) (c : Ctx) :
    BitVec.ofNat 32 (vredRoot o c) =
      (List.range 16).foldl (fun n l => if laneActive c o.mask l then m n (Rule.lane (c.rV o.a) l) else n) 0 := by
  have out (n : BitVec 32) (l : List (BitVec 32)) : l.foldl m n = m n (l.foldl m 0) := by
    induction l generalizing n with
    | nil => exact (right n).symm
    | cons x l ih => rw [List.foldl_cons, List.foldl_cons, left, ih (m n x), ih x, assoc]
  have all := level_four_induct (P := fun l a => BitVec.ofNat 32 a = (l.map (BitVec.ofNat 32)).foldl m 0) (op := combine o.op (LFmt.fmt o.fmt))
    (vredLane o c) (fun x => (left _).symm) fun l a l' b ha hb => by rw [step, ha, hb, List.map_append, List.foldl_append, ← out]
  rw [vredRoot, all, List.map_map, List.foldl_map]
  congr 1
  funext n l
  rw [Function.comp_apply, ofNat_vredLane, one]
  split
  · rfl
  · exact right n

/-- The bits of OR over the active lanes. -/
theorem vredRoot_or {o : OVred} (h : o.op = .or) (c : Ctx) (b : Nat) (hb : b < 32) : (BitVec.ofNat 32 (vredRoot o c)).getLsbD b = true ↔
    ∃ l, l < 16 ∧ laneActive c o.mask l = true ∧ (Rule.lane (c.rV o.a) l).getLsbD b = true := by
  have all := level_four_induct (P := fun l a => a.testBit b = true ↔ ∃ x ∈ l, x.testBit b = true) (op := combine o.op (LFmt.fmt o.fmt))
    (vredLane o c) (fun x => by simp) fun l a l' b' ha hb' => by
      rw [h, show combine .or (LFmt.fmt o.fmt) a b' = (a ||| b', 0) from rfl, Nat.testBit_or, Bool.or_eq_true, ha, hb']
      simp only [List.mem_append, or_and_right, exists_or]
  have bit (n : Nat) : (BitVec.ofNat 32 n).getLsbD b = n.testBit b := by
    rw [BitVec.getLsbD_ofNat, decide_eq_true hb, Bool.true_and]
  rw [bit, vredRoot, all]
  simp only [List.mem_map, List.mem_range, exists_exists_and_eq_and, ← bit, ofNat_vredLane]
  refine exists_congr fun l => and_congr_right fun _ => ?_
  have one : BitVec.ofNat 32 (identity o.op (LFmt.fmt o.fmt)) = 0 := by rw [h]; rfl
  by_cases on : laneActive c o.mask l = true <;> simp [on, one]

/-- The bits of AND over the active lanes. -/
theorem vredRoot_and {o : OVred} (h : o.op = .and) (c : Ctx) (b : Nat) (hb : b < 32) : (BitVec.ofNat 32 (vredRoot o c)).getLsbD b = true ↔
    ∀ l, l < 16 → laneActive c o.mask l = true → (Rule.lane (c.rV o.a) l).getLsbD b = true := by
  have all := level_four_induct (P := fun l a => a.testBit b = true ↔ ∀ x ∈ l, x.testBit b = true) (op := combine o.op (LFmt.fmt o.fmt))
    (vredLane o c) (fun x => by simp) fun l a l' b' ha hb' => by
      rw [h, show combine .and (LFmt.fmt o.fmt) a b' = (a &&& b', 0) from rfl, Nat.testBit_and, Bool.and_eq_true, ha, hb']
      simp only [List.mem_append, or_imp, forall_and]
  have bit (n : Nat) : (BitVec.ofNat 32 n).getLsbD b = n.testBit b := by
    rw [BitVec.getLsbD_ofNat, decide_eq_true hb, Bool.true_and]
  rw [bit, vredRoot, all]
  simp only [List.forall_mem_map, List.mem_range, ← bit, ofNat_vredLane]
  refine forall_congr' fun l => imp_congr_right fun _ => ?_
  have one : (BitVec.ofNat 32 (identity o.op (LFmt.fmt o.fmt))).getLsbD b = true := by
    have ones : BitVec.ofNat 32 (identity o.op (LFmt.fmt o.fmt)) = BitVec.allOnes 32 := by
      rw [h]
      cases o.fmt <;> rfl
    rw [ones, BitVec.getLsbD_allOnes, decide_eq_true hb]
  by_cases on : laneActive c o.mask l = true <;> simp [on, one]

/-- The minimum is one of the values and no greater than any, the maximum one and no less. -/
theorem vredRoot_end {o : OVred} (hf : o.fmt ≠ .f32) (h : o.op = .min ∨ o.op = .max) (c : Ctx) :
    (∃ l, l < 16 ∧ vredLane o c l = vredRoot o c) ∧ ∀ l, l < 16 →
      (o.op = .min → readInt (vredRoot o c) 32 (LFmt.width o.fmt).signed ≤ readInt (vredLane o c l) 32 (LFmt.width o.fmt).signed) ∧
      (o.op = .max → readInt (vredLane o c l) 32 (LFmt.width o.fmt).signed ≤ readInt (vredRoot o c) 32 (LFmt.width o.fmt).signed) := by
  have cls := LFmt.cls_fmt hf
  have all := level_four_induct (P := fun l a => a ∈ l ∧ ∀ x ∈ l,
      (o.op = .min → readInt a 32 (LFmt.width o.fmt).signed ≤ readInt x 32 (LFmt.width o.fmt).signed) ∧
      (o.op = .max → readInt x 32 (LFmt.width o.fmt).signed ≤ readInt a 32 (LFmt.width o.fmt).signed)) (op := combine o.op (LFmt.fmt o.fmt))
    (vredLane o c) (fun x => by simp) fun l a l' b ⟨ma, ha⟩ ⟨mb, hb⟩ => by
      rcases h with h | h
      · rw [h] at ha hb ⊢
        rw [combine_min_int cls]
        simp only [List.mem_append, true_implies, reduceCtorEq, false_implies, and_true] at ha hb ⊢
        split
        · exact ⟨.inl ma, fun x hx => hx.elim (ha x) fun m => by have := hb x m; omega⟩
        · exact ⟨.inr mb, fun x hx => hx.elim (fun m => by have := ha x m; omega) (hb x)⟩
      · rw [h] at ha hb ⊢
        rw [combine_max_int cls]
        simp only [List.mem_append, true_implies, reduceCtorEq, false_implies, true_and] at ha hb ⊢
        split
        · exact ⟨.inr mb, fun x hx => hx.elim (fun m => by have := ha x m; omega) (hb x)⟩
        · exact ⟨.inl ma, fun x hx => hx.elim (ha x) fun m => by have := hb x m; omega⟩
  obtain ⟨mem, bound⟩ := all
  simp only [List.mem_map, List.mem_range] at mem
  exact ⟨mem, fun l hl => bound _ (List.mem_map_of_mem (List.mem_range.mpr hl))⟩

/-- The identity of a minimum or maximum (R47). -/
theorem identity_end {o : OVred} (h : o.op = .min ∨ o.op = .max) : identity o.op (LFmt.fmt o.fmt) = (Rule.endLane o.fmt (o.op == .min)).toNat := by
  rcases h with h | h <;> rw [h] <;> cases o.fmt <;> rfl

theorem identity_zero {o : OVred} (hf : o.fmt ≠ .f32) (h : o.op = .add ∨ o.op = .xor) : BitVec.ofNat 32 (identity o.op (LFmt.fmt o.fmt)) = 0 := by
  rcases h with h | h
  · rw [h]
    cases e : o.fmt with
    | f32 => exact absurd e hf
    | i32 => rfl
    | n32 => rfl
  · rw [h]; rfl

/-- VRED on integers (R322): the result of the active lanes, whatever their order. -/
theorem vredRoot_int {o : OVred} (hf : o.fmt ≠ .f32) (c : Ctx) :
    let on (l : Nat) : Bool := match o.mask with | none => true | some g => (c.rG g).getLsbD l
    let v (l : Nat) : BitVec 32 := Rule.lane (c.rV o.a) l
    let x : Word := BitVec.ofNat 64 (extend (LFmt.fmt o.fmt) (vredRoot o c) 64)
    let low : BitVec 32 := x.setWidth 32
    let w : Width := if o.fmt = .n32 then .n32 else .i32
    x = Rule.narrow w x ∧
      (o.op = .add → low = (List.range 16).foldl (fun (n : BitVec 32) l => if on l then n + v l else n) 0) ∧
      (o.op = .xor → low = (List.range 16).foldl (fun (n : BitVec 32) l => if on l then n ^^^ v l else n) 0) ∧
      (o.op = .or → ∀ b, b < 32 → (low.getLsbD b = true ↔ ∃ l, l < 16 ∧ on l = true ∧ (v l).getLsbD b = true)) ∧
      (o.op = .and → ∀ b, b < 32 → (low.getLsbD b = true ↔ ∀ l, l < 16 → on l = true → (v l).getLsbD b = true)) ∧
      (o.op = .min ∨ o.op = .max →
        (∀ l, l < 16 → on l = true → (o.op = .min → Rule.int w x ≤ Rule.int w ((v l).setWidth 64)) ∧
          (o.op = .max → Rule.int w ((v l).setWidth 64) ≤ Rule.int w x)) ∧
        (low = Rule.endLane o.fmt (o.op == .min) ∨ ∃ l, l < 16 ∧ on l = true ∧ low = v l)) := by
  have cls := LFmt.cls_fmt hf
  intro on v
  dsimp only
  rw [← lfmtWidth_eq hf, narrow_lfmt hf, narrow_narrow, setWidth_narrow, int_narrow]
  refine ⟨rfl, fun op => ?_, fun op => ?_, fun op => vredRoot_or op c, fun op => vredRoot_and op c, fun op => ?_⟩
  · refine vredRoot_fold BitVec.add_assoc BitVec.zero_add BitVec.add_zero (identity_zero hf (.inl op)) (fun a b => ?_) c
    rw [op, combine_add_int cls, ofNat_wrapN, BitVec.ofInt_add]
    rw [ofInt_readInt_ofNat, ofInt_readInt_ofNat]
  · refine vredRoot_fold BitVec.xor_assoc (fun x => BitVec.zero_xor) (fun x => BitVec.xor_zero) (identity_zero hf (.inr op)) (fun a b => ?_) c
    rw [op]
    exact BitVec.ofNat_xor
  · obtain ⟨⟨k, hk, root⟩, bound⟩ := vredRoot_end hf op c
    refine ⟨fun l hl act => ?_, ?_⟩
    · have lane : vredLane o c l = (v l).toNat := by
        rw [vredLane, if_pos (show laneActive c o.mask l = true from act), ← toNat_lane]
      rw [readInt_ofNat, int_lane _ (LFmt.bits_width o.fmt), ← lane]
      exact bound l hl
    · rw [← root, ofNat_vredLane, identity_end op]
      by_cases act : laneActive c o.mask k = true
      · exact .inr ⟨k, hk, act, if_pos act⟩
      · rw [if_neg act, BitVec.ofNat_toNat, BitVec.setWidth_eq]
        exact .inl rfl

/-! What VRED leaves of its lanes, on f32. -/

/-- VRED on f32 has no bitwise form (R322). -/
theorem vred_f32_op {o : OVred} (h : Instr.wf (.vred o) = true) (hf : o.fmt = .f32) : o.op = .add ∨ o.op = .min ∨ o.op = .max := by
  have fields : Instr.fieldsOk (.vred o) = true := (Bool.and_eq_true_iff.mp h).2
  simp only [Instr.fieldsOk, hf, bne_self_eq_false, Bool.false_or] at fields
  cases op : o.op with
  | add => exact .inl rfl
  | min => exact .inr (.inl rfl)
  | max => exact .inr (.inr rfl)
  | and => rw [op] at fields; exact absurd fields (by decide)
  | or => rw [op] at fields; exact absurd fields (by decide)
  | xor => rw [op] at fields; exact absurd fields (by decide)

/-- A combining step on f32 patterns leaves one. -/
theorem combine_f32_lt (op : CollOp) {x y : Nat} (hx : x < 2 ^ 32) (hy : y < 2 ^ 32) : (combine op .f32 x y).1 < 2 ^ 32 := by
  cases op with
  | add => exact fsum_lt fits_f32 _ _ .rne false
  | min => exact fmin_lt fits_f32 hx hy
  | max => exact fmax_lt fits_f32 hx hy
  | and => exact Nat.and_lt_two_pow _ hy
  | or => exact Nat.or_lt_two_pow hx hy
  | xor => exact Nat.xor_lt_two_pow hx hy

/-- A combining step on f32 patterns is R47's. -/
theorem redStep_combine (op : CollOp) {x y : Nat} (hx : x < 2 ^ 32) (hy : y < 2 ^ 32) :
    Rule.redStep op x y (combine op .f32 x y).1 (combine op .f32 x y).2 := by
  cases op with
  | add => exact Rule.floatOut_add Rule.ffF32_ieee .rne false (Rule.sound_decode Rule.ffF32_ieee x) (Rule.sound_decode Rule.ffF32_ieee y)
  | min => exact ⟨Rule.fmin_eq_lesser Rule.ffF32_ieee Rule.ffF32_infBits_pos hx hy, rfl⟩
  | max => exact ⟨Rule.fmax_eq_greater Rule.ffF32_ieee Rule.ffF32_infBits_pos hx hy, rfl⟩
  | and => trivial
  | or => trivial
  | xor => trivial

theorem vredLane_f32_lt {o : OVred} (hf : o.fmt = .f32) (c : Ctx) (l : Nat) : vredLane o c l < 2 ^ 32 := by
  unfold vredLane
  split
  · exact Nat.mod_lt _ (by decide)
  · rw [hf]
    cases o.op <;> decide

theorem iterate_level_f32_lt {o : OVred} (hf : o.fmt = .f32) (c : Ctx) (j i : Nat) : (level (combine o.op .f32))^[j] (vredLane o c) i < 2 ^ 32 := by
  induction j generalizing i with
  | zero => exact vredLane_f32_lt hf c i
  | succ j ih =>
    rw [Function.iterate_succ_apply']
    exact combine_f32_lt o.op (ih _) (ih _)

/-- VRED on f32 (R322): the tree of R46 over the lanes. -/
theorem vredRoot_f32 {o : OVred} (h : Instr.wf (.vred o) = true) (hf : o.fmt = .f32) (c : Ctx) :
    let on (l : Nat) : Bool := match o.mask with | none => true | some g => (c.rG g).getLsbD l
    let v (l : Nat) : BitVec 32 := Rule.lane (c.rV o.a) l
    ∃ (y : Nat → Nat → Nat) (g : Nat → Nat → Word),
      (∀ l, l < 16 → y 0 l = if on l then (v l).toNat else if o.op = .add then 0x80000000 else (Rule.endLane .f32 (o.op == .min)).toNat) ∧
      (∀ j i, j < 4 → i < 2 ^ (3 - j) → Rule.redStep o.op (y j (2 * i)) (y j (2 * i + 1)) (y (j + 1) i) (g (j + 1) i)) ∧
      BitVec.ofNat 64 (extend (LFmt.fmt o.fmt) (vredRoot o c) 64) = BitVec.ofNat 64 (y 4 0) ∧
      ∀ b, b < 64 → ((vredFlags o c).getLsbD b = true ↔ ∃ j i, j < 4 ∧ i < 2 ^ (3 - j) ∧ (g (j + 1) i).getLsbD b = true) := by
  intro on v
  have f32 : LFmt.fmt o.fmt = .f32 := by rw [hf]; rfl
  have lt := iterate_level_f32_lt hf c
  refine ⟨fun j => (level (combine o.op .f32))^[j] (vredLane o c), fun j => levelFlags (combine o.op .f32) ((level (combine o.op .f32))^[j - 1] (vredLane o c)),
    fun l _ => ?_, fun j i _ _ => ?_, ?_, fun b _ => ?_⟩
  · have one : identity o.op (LFmt.fmt o.fmt) = if o.op = .add then 0x80000000 else (Rule.endLane .f32 (o.op == .min)).toNat := by
      rw [hf]
      obtain op | op | op := vred_f32_op h hf <;> rw [op] <;> rfl
    rw [← one, show (v l).toNat = lane (c.rV o.a) l from toNat_lane _ _]
    rfl
  · dsimp only
    rw [Function.iterate_succ_apply']
    exact redStep_combine o.op (lt j _) (lt j _)
  · have root : vredRoot o c = (level (combine o.op .f32))^[4] (vredLane o c) 0 := by rw [vredRoot, f32]
    rw [root, f32, extend_flt (f := .f32) rfl (lt 4 0)]
  · rw [vredFlags, f32]
    exact (treeCombine_range _ _).2 b

end Sys2Proof.Machine

/-! SUPPORT. O26 (R51, R323): VTOPK's selection is the head of a stable sort, and what it stores. -/

namespace Sys2Proof.Machine

/-! The order of R51. -/

/-- The place of a pattern in the order: a NaN below every number. -/
def topRank (f : LFmt) (x : Nat) : WithBot Int :=
  match f with
  | .f32 => if Rule.isNaN ffF32 x then ⊥ else (Rule.key ffF32 x : Int)
  | .i32 => (readInt x 32 true : Int)
  | .n32 => (x : Int)

theorem topLess_eq (f : LFmt) (x y : Nat) : topLess f x y = decide (topRank f x < topRank f y) := by
  cases f with
  | i32 => simp only [topLess, topRank, WithBot.coe_lt_coe]
  | n32 => simp only [topLess, topRank, WithBot.coe_lt_coe, Nat.cast_lt]
  | f32 =>
    simp only [topLess, topRank, Rule.isNan_decode Rule.ffF32_ieee]
    by_cases ny : Rule.isNaN ffF32 y = true
    · simp [ny]
    · by_cases nx : Rule.isNaN ffF32 x = true
      · simp [nx, ny]
      · simp [nx, ny, Rule.lt_decode Rule.ffF32_ieee Rule.ffF32_infBits_pos (Bool.eq_false_iff.mpr nx) (Bool.eq_false_iff.mpr ny)]

theorem topBelow_eq (f : LFmt) (x y : Nat) : Rule.topBelow f x y = decide (topRank f x < topRank f y) := by
  cases f with
  | n32 => simp only [Rule.topBelow, topRank, WithBot.coe_lt_coe, Nat.cast_lt]
  | i32 => simp only [Rule.topBelow, topRank, WithBot.coe_lt_coe, readInt_true _ _ (show 0 < 32 by decide), BitVec.slt]
  | f32 => cases nx : Rule.isNaN ffF32 x <;> cases ny : Rule.isNaN ffF32 y <;> simp [Rule.topBelow, topRank, Rule.fless, nx, ny]

/-- An entry comes before another: the greater value, of equal ones the lower index. -/
def topBefore (f : LFmt) (a b : Nat × Nat) : Prop := topRank f b.1 < topRank f a.1 ∨ (topRank f a.1 = topRank f b.1 ∧ a.2 < b.2)

theorem topBefore.topBelow {f : LFmt} {a b : Nat × Nat} (h : topBefore f a b) :
    Rule.topBelow f a.1 b.1 = false ∧ (Rule.topBelow f b.1 a.1 = false → a.2 < b.2) := by
  rw [topBelow_eq, topBelow_eq, decide_eq_false_iff_not, decide_eq_false_iff_not]
  rcases h with greater | ⟨equal, lower⟩
  · exact ⟨greater.not_gt, fun no => absurd greater no⟩
  · exact ⟨by rw [equal]; exact lt_irrefl _, fun _ => lower⟩

theorem topBefore.trans {f : LFmt} {a b c : Nat × Nat} (h : topBefore f a b) (k : topBefore f b c) : topBefore f a c := by
  rcases h with h | ⟨h, i⟩
  · rcases k with k | ⟨k, -⟩
    · exact .inl (k.trans h)
    · exact .inl (k ▸ h)
  · rcases k with k | ⟨k, j⟩
    · exact .inl (h ▸ k)
    · exact .inr ⟨h.trans k, i.trans j⟩

/-! Selection by insertion. -/

/-- All entries of a row, in order. -/
def topSort (f : LFmt) (es : List (Nat × Nat)) : List (Nat × Nat) := es.foldl (fun acc e => topInsert f e acc) []

/-- An entry that is put past the first `k` does not change them. -/
theorem take_topInsert_take (f : LFmt) (e : Nat × Nat) (k : Nat) (l : List (Nat × Nat)) :
    (topInsert f e (l.take k)).take k = (topInsert f e l).take k := by
  induction l generalizing k with
  | nil => rw [List.take_nil]
  | cons h t ih =>
    cases k with
    | zero => rw [List.take_zero, List.take_zero]
    | succ k =>
      rw [List.take_succ_cons, topInsert, topInsert]
      split
      · rw [List.take_succ_cons, List.take_succ_cons, show h :: t.take k = (h :: t).take (k + 1) from rfl, List.take_take,
          Nat.min_eq_left (Nat.le_succ k)]
      · rw [List.take_succ_cons, List.take_succ_cons, ih]

/-- VTOPK keeps the first `k` of all entries in order. -/
theorem topK_eq_take (f : LFmt) (k : Nat) (row : List Nat) : topK f k row = (topSort f row.zipIdx).take k := by
  have all (es acc : List (Nat × Nat)) : es.foldl (fun acc e => (topInsert f e acc).take k) (acc.take k) =
      (es.foldl (fun acc e => topInsert f e acc) acc).take k := by
    induction es generalizing acc with
    | nil => rfl
    | cons e es ih => rw [List.foldl_cons, List.foldl_cons, take_topInsert_take, ih]
  have none := all row.zipIdx []
  rwa [List.take_nil] at none

theorem topInsert_perm (f : LFmt) (e : Nat × Nat) (l : List (Nat × Nat)) : (topInsert f e l).Perm (e :: l) := by
  induction l with
  | nil => exact List.Perm.refl _
  | cons h t ih =>
    rw [topInsert]
    split
    · exact List.Perm.refl _
    · exact (ih.cons h).trans (List.Perm.swap e h t)

/-- A later entry goes to its place in an ordered list. -/
theorem topInsert_pairwise {f : LFmt} {e : Nat × Nat} {l : List (Nat × Nat)} (later : ∀ x ∈ l, x.2 < e.2) (sorted : l.Pairwise (topBefore f)) :
    (topInsert f e l).Pairwise (topBefore f) := by
  induction l with
  | nil => exact List.pairwise_singleton _ _
  | cons h t ih =>
    obtain ⟨first, rest⟩ := List.pairwise_cons.mp sorted
    rw [topInsert, topLess_eq]
    simp only [decide_eq_true_eq]
    split
    next less =>
      have before : topBefore f e h := .inl less
      refine List.pairwise_cons.mpr ⟨fun x hx => ?_, sorted⟩
      obtain rfl | hx := List.mem_cons.mp hx
      · exact before
      · exact before.trans (first x hx)
    next less =>
      refine List.pairwise_cons.mpr ⟨fun x hx => ?_, ih (fun x hx => later x (List.mem_cons_of_mem h hx)) rest⟩
      obtain rfl | hx := List.mem_cons.mp ((topInsert_perm f e t).mem_iff.mp hx)
      · obtain lt | eq := lt_or_eq_of_le (not_lt.mp less)
        · exact .inl lt
        · exact .inr ⟨eq.symm, later h List.mem_cons_self⟩
      · exact first x hx

theorem foldl_topInsert_spec (f : LFmt) {es acc : List (Nat × Nat)} (rising : es.Pairwise fun a b => a.2 < b.2)
    (later : ∀ x ∈ acc, ∀ e ∈ es, x.2 < e.2) (sorted : acc.Pairwise (topBefore f)) :
    (es.foldl (fun acc e => topInsert f e acc) acc).Perm (es ++ acc) ∧ (es.foldl (fun acc e => topInsert f e acc) acc).Pairwise (topBefore f) := by
  induction es generalizing acc with
  | nil => exact ⟨List.Perm.refl _, sorted⟩
  | cons e es ih =>
    obtain ⟨first, rest⟩ := List.pairwise_cons.mp rising
    have put := topInsert_perm f e acc
    have still : ∀ x ∈ topInsert f e acc, ∀ e' ∈ es, x.2 < e'.2 := fun x hx e' he' => by
      obtain rfl | hx := List.mem_cons.mp (put.mem_iff.mp hx)
      · exact first e' he'
      · exact later x hx e' (List.mem_cons_of_mem e he')
    obtain ⟨perm, pairs⟩ := ih rest still (topInsert_pairwise (fun x hx => later x hx e List.mem_cons_self) sorted)
    exact ⟨perm.trans ((put.append_left es).trans List.perm_middle), pairs⟩

/-- The sorted row holds each of its entries once, in order. -/
theorem topSort_spec (f : LFmt) (row : List Nat) :
    (topSort f row.zipIdx).Perm row.zipIdx ∧ (topSort f row.zipIdx).Pairwise (topBefore f) := by
  have rising : row.zipIdx.Pairwise fun a b => a.2 < b.2 := by
    rw [← List.pairwise_map (f := Prod.snd) (R := (· < ·)), List.zipIdx_map_snd]
    exact List.pairwise_lt_range'
  have spec := foldl_topInsert_spec f rising (acc := []) (fun x hx => absurd hx List.not_mem_nil) List.Pairwise.nil
  rwa [List.append_nil] at spec

/-! The row VTOPK selects from, by index. -/

section
variable (f : LFmt) (n : Nat) (row : Nat → Nat)

/-- The entries of a row of `n` values, in order. -/
def topRow : List (Nat × Nat) := topSort f ((List.range n).map row).zipIdx

theorem mem_topRow (e : Nat × Nat) : e ∈ topRow f n row ↔ e.2 < n ∧ e.1 = row e.2 := by
  obtain ⟨v, i⟩ := e
  rw [topRow, (topSort_spec f _).1.mem_iff, List.mem_zipIdx_iff_getElem?, List.getElem?_map]
  by_cases hi : i < n
  · simp [hi, eq_comm]
  · simp [hi]

theorem length_topRow : (topRow f n row).length = n := by
  rw [topRow, (topSort_spec f _).1.length_eq, List.length_zipIdx, List.length_map, List.length_range]

theorem topRow_before {i j : Nat} (h : i < j) (hj : j < n) :
    topBefore f ((topRow f n row)[i]'(by rw [length_topRow]; omega)) ((topRow f n row)[j]'(by rw [length_topRow]; omega)) :=
  List.pairwise_iff_getElem.mp (topSort_spec f _).2 i j _ _ h

end

/-! The pairs VTOPK writes. -/

/-- Pair `j` of the output: that of entry `j`, or padding. -/
def topOut (f : LFmt) (best : List (Nat × Nat)) (j : Nat) : Nat := match best[j]? with | some e => topPair f e | none => topPad f

/-- A pair of a value, an index and zero, by its fields in memory. -/
theorem readNat_pair {m : Mem} {a v i : Nat} (h : m.readNat a 8 = v + i * 2 ^ 32) (hv : v < 2 ^ 32) (hi : i < 2 ^ 16) :
    m.readNat a 4 = v ∧ m.readNat (a + 4) 2 = i ∧ m.readNat (a + 6) 2 = 0 := by
  have value := Mem.readNat_part m a (n := 8) (i := 0) (k := 4) (by decide)
  have index := Mem.readNat_part m a (n := 8) (i := 4) (k := 2) (by decide)
  have zero := Mem.readNat_part m a (n := 8) (i := 6) (k := 2) (by decide)
  rw [h] at value index zero
  norm_num at value index zero
  exact ⟨by omega, by omega, by omega⟩

/-- The value of a pair: of a NaN the canonical one. -/
def topValue (f : LFmt) (x : Nat) : Nat := if f = .f32 ∧ Rule.isNaN ffF32 x = true then 0x7FC00000 else x

theorem topPair_eq (f : LFmt) (e : Nat × Nat) : topPair f e = topValue f e.1 + e.2 * 2 ^ 32 := by
  have canon : ffF32.nanBits = 0x7FC00000 := by decide
  simp only [topPair, topValue, Rule.isNan_decode Rule.ffF32_ieee, canon, Bool.and_eq_true, decide_eq_true_eq]

theorem topValue_lt (f : LFmt) {x : Nat} (h : x < 2 ^ 32) : topValue f x < 2 ^ 32 := by
  unfold topValue
  split
  · decide
  · exact h

theorem topPad_eq (f : LFmt) : topPad f = (Rule.endLane f false).toNat + 0xFFFF * 2 ^ 32 := by cases f <;> decide

theorem topPair_lt (f : LFmt) {e : Nat × Nat} (hv : e.1 < 2 ^ 32) (hi : e.2 < 2 ^ 16) : topPair f e < 256 ^ 8 := by
  have value := topValue_lt f hv
  rw [topPair_eq]
  norm_num
  omega

theorem topPad_lt (f : LFmt) : topPad f < 256 ^ 8 := by cases f <;> decide

/-! VTOPK at an issue. -/

/-- The pairs of VTOPK, stored one by one at the port. -/
def topStores (s : State) (oa k : Nat) (out : Nat → Nat) : State :=
  (List.range k).foldl (fun s j => spWrite s s.curAgent (oa + 8 * j) 8 (out j)) s

/-- The scratchpad after them. -/
def topMem (m : Mem) (oa k : Nat) (out : Nat → Nat) : Mem := (List.range k).foldl (fun m j => m.writeNat (oa + 8 * j) 8 (out j)) m

theorem stored_topStores {s : State} {oa k : Nat} (quiet : ∀ j, j < k → pubIdxs (s.core s.curAgent) (oa + 8 * j) 8 = []) (out : Nat → Nat) :
    Stored s (topMem (s.core s.curAgent).spad oa k out) (topStores s oa k out) :=
  (Stored.refl s).foldl fun m t j hj stored => by
    rw [stored.curAgent]
    exact stored.spWrite (quiet j (List.mem_range.mp hj)) (out j)

theorem ownRange_ownScratch {s : State} {va : Word} {n al off : Nat} (h : Rule.ownScratch s va n al off) : ownRange s va n = true := by
  obtain ⟨core, -, small, -, claim⟩ := id h
  have mine : isRidge s.curAgent = false := decide_eq_false (by omega)
  have window : (0xF0 * 2 ^ 48 + off) / 2 ^ 48 = 0xF0 := by omega
  have place : (0xF0 * 2 ^ 48 + off) % 2 ^ 48 = off := by omega
  rw [ownRange, addrPart_ownScratch h, mine, window, place]
  exact decide_eq_true claim

/-- VTOPK on a clean row and a free output of the own scratchpad. -/
theorem exec_vtopk {o : OVtopk} {s : State} {ra oa n k : Nat} (h : Ready (.vtopk o) s) (en : (s.cur.rG o.b).toNat = n) (ek : (s.cur.rG o.c).toNat = k)
    (row : Rule.ownScratch s (s.cur.rG o.a) (4 * n) 4 ra) (out : Rule.ownScratch s (s.cur.rG o.e) (8 * k) 8 oa) (hn : n ≤ 65535) (hk : k ≤ 256)
    (apart : oa + 8 * k ≤ ra ∨ ra + 4 * n ≤ oa) (clean : ∀ j, j < n → Rule.unpoisoned s (ra + 4 * j))
    (free : ∀ j, j < k → Rule.unpublished s (oa + 8 * j) 8) :
    exec (.vtopk o) s = .next ((topStores s oa k (topOut o.fmt ((topRow o.fmt n fun j => (s.core s.curAgent).spad.readNat (ra + 4 * j) 4).take k))).setCur
      ((s.cur.wG o.d (BitVec.ofNat 64 (min k n)) (srcTaint (.vtopk o) s.cur)).past (.vtopk o))) := by
  have run : exec (.vtopk o) s = execVtopk o s := rfl
  have rowAlign : ¬ (0xF0 * 2 ^ 48 + ra) % 4 ≠ 0 := by have := row.2.2.2.1; omega
  have outAlign : ¬ (0xF0 * 2 ^ 48 + oa) % 8 ≠ 0 := by have := out.2.2.2.1; omega
  have rowPlace : (0xF0 * 2 ^ 48 + ra) % 2 ^ 48 = ra := by have := row.2.2.1; omega
  have outPlace : (0xF0 * 2 ^ 48 + oa) % 2 ^ 48 = oa := by have := out.2.2.1; omega
  have rowRange : ownRange s (s.cur.rG o.a) (n * 4) = true := by rw [Nat.mul_comm]; exact ownRange_ownScratch row
  have outRange : ownRange s (s.cur.rG o.e) (k * 8) = true := by rw [Nat.mul_comm]; exact ownRange_ownScratch out
  have sizes : ¬ (decide (65535 < n) || decide (256 < k)) = true := by simp; omega
  have meet : ¬ (decide (n ≠ 0) && decide (k ≠ 0) && decide (ra < oa + k * 8) && decide (oa < ra + n * 4)) = true := by simp; omega
  have poison : (List.range n).find? (fun j => s.spPoison.contains (s.curAgent, (ra + 4 * j) / 64)) = none := by
    rw [List.find?_eq_none]
    exact fun j hj => by simpa using clean j (List.mem_range.mp hj)
  have behind : ¬ (decide (k ≠ 0) && behindHeld s (curAcc s) (.scratch s.curAgent oa) .wr) = true := by
    rw [Bool.and_eq_true, decide_eq_true_eq]
    intro ⟨more, held⟩
    have none : (s.pages.any fun q : Nat × PageCopy => q.2.held.any fun e => e.1 == (curAcc s).task.toNat) = false :=
      (free 0 (Nat.pos_of_ne_zero more)).2.2
    simp [behindHeld, none] at held
  have port : ¬ ((List.range k).any fun j => portBusy s s.curAgent (oa + 8 * j) 8) = true := by
    rw [Bool.not_eq_true, List.any_eq_false]
    intro j hj
    obtain ⟨none, ahead, -⟩ := free j (List.mem_range.mp hj)
    simp [portBusy, none, ahead]
  have best := topK_eq_take o.fmt k ((List.range n).map fun j => (s.core s.curAgent).spad.readNat (ra + 4 * j) 4)
  have cur := (stored_topStores (fun j hj => (free j hj).1)
    (topOut o.fmt (topK o.fmt k ((List.range n).map fun j => (s.core s.curAgent).spad.readNat (ra + 4 * j) 4)))).cur
  rw [run, execVtopk, issue_ready h, answer_eq, topRow, ← best]
  dsimp only
  rw [en, ek, addrPart_ownScratch row, addrPart_ownScratch out, if_neg rowAlign, rowRange, if_neg nofun, if_neg outAlign, outRange, if_neg nofun,
    if_neg sizes, rowPlace, outPlace, if_neg meet, poison]
  dsimp only
  rw [if_neg behind, if_neg port]
  exact congrArg (fun c => Host.Outcome.next ((topStores s oa k (topOut o.fmt (topK o.fmt k
    ((List.range n).map fun j => (s.core s.curAgent).spad.readNat (ra + 4 * j) 4)))).setCur
      (Ctx.past (Ctx.wG c o.d (BitVec.ofNat 64 (min k n)) (srcTaint (.vtopk o) s.cur)) (.vtopk o)))) cur

/-! The output of VTOPK. -/

section
variable (f : LFmt) {n k : Nat} (row : Nat → Nat) {j : Nat}

/-- Entry `j` of the row in order, where there is one. -/
def topEntry (f : LFmt) (n : Nat) (row : Nat → Nat) (j : Nat) : Nat × Nat := ((topRow f n row)[j]?).getD (0, 0)

theorem topEntry_eq (h : j < n) : topEntry f n row j = (topRow f n row)[j]'(by rwa [length_topRow]) := by
  rw [topEntry, List.getElem?_eq_getElem (by rwa [length_topRow]), Option.getD_some]

theorem topEntry_spec (h : j < n) : (topEntry f n row j).2 < n ∧ (topEntry f n row j).1 = row (topEntry f n row j).2 := by
  rw [← mem_topRow f, topEntry_eq f row h]
  exact List.getElem_mem _

theorem topEntry_before {i : Nat} (h : i < j) (hj : j < n) : topBefore f (topEntry f n row i) (topEntry f n row j) := by
  rw [topEntry_eq f row (h.trans hj), topEntry_eq f row hj]
  exact topRow_before f n row h hj

/-- Each index has its entry. -/
theorem exists_topEntry {i : Nat} (h : i < n) : ∃ p, p < n ∧ topEntry f n row p = (row i, i) := by
  obtain ⟨p, hp, entry⟩ := List.mem_iff_getElem.mp ((mem_topRow f n row (row i, i)).mpr ⟨h, rfl⟩)
  rw [length_topRow] at hp
  exact ⟨p, hp, (topEntry_eq f row hp).trans entry⟩

theorem topOut_entry (h : j < Nat.min k n) : topOut f ((topRow f n row).take k) j = topPair f (topEntry f n row j) := by
  obtain ⟨hk, hn⟩ := Nat.lt_min.mp h
  rw [topOut, List.getElem?_take_of_lt hk, List.getElem?_eq_getElem (by rwa [length_topRow]), ← topEntry_eq f row hn]

theorem topOut_pad (h : n ≤ j) : topOut f ((topRow f n row).take k) j = topPad f := by
  have none : ((topRow f n row).take k)[j]? = none := List.getElem?_eq_none (by rw [List.length_take, length_topRow]; omega)
  rw [topOut, none]

theorem topOut_lt (small : ∀ i, row i < 2 ^ 32) (hn : n ≤ 65535) (h : j < k) : topOut f ((topRow f n row).take k) j < 256 ^ 8 := by
  by_cases inside : j < n
  · obtain ⟨index, value⟩ := topEntry_spec f row inside
    rw [topOut_entry f row (Nat.lt_min.mpr ⟨h, inside⟩)]
    exact topPair_lt f (value ▸ small _) (by omega)
  · rw [topOut_pad f row (Nat.le_of_not_lt inside)]
    exact topPad_lt f

theorem readNat_topMem (m : Mem) (oa : Nat) {out : Nat → Nat} (h : j < k) (lt : out j < 256 ^ 8) :
    (topMem m oa k out).readNat (oa + 8 * j) 8 = out j := by
  rw [topMem, Mem.readNat_foldl_writeNat, if_pos (List.mem_range.mpr h), Nat.mod_eq_of_lt lt]

/-- The fields of the pairs in memory: the entries in order, then padding. -/
theorem topMem_fields (m : Mem) (oa : Nat) (small : ∀ i, row i < 2 ^ 32) (hn : n ≤ 65535) (h : j < k) :
    let t := topMem m oa k (topOut f ((topRow f n row).take k))
    t.readNat (oa + 8 * j + 6) 2 = 0 ∧
      (n ≤ j → t.readNat (oa + 8 * j) 4 = (Rule.endLane f false).toNat ∧ t.readNat (oa + 8 * j + 4) 2 = 0xFFFF) ∧
      (j < Nat.min k n → t.readNat (oa + 8 * j) 4 = topValue f (topEntry f n row j).1 ∧ t.readNat (oa + 8 * j + 4) 2 = (topEntry f n row j).2) := by
  intro t
  have pair := readNat_topMem m oa h (topOut_lt f row small hn h)
  by_cases inside : j < n
  · have found : j < Nat.min k n := Nat.lt_min.mpr ⟨h, inside⟩
    obtain ⟨index, value⟩ := topEntry_spec f row inside
    rw [topOut_entry f row found, topPair_eq] at pair
    obtain ⟨v, i, z⟩ := readNat_pair pair (topValue_lt f (value ▸ small _)) (by omega)
    exact ⟨z, fun past => absurd inside (Nat.not_lt.mpr past), fun _ => ⟨v, i⟩⟩
  · rw [topOut_pad f row (Nat.le_of_not_lt inside), topPad_eq] at pair
    obtain ⟨v, i, z⟩ := readNat_pair pair (BitVec.isLt _) (by decide)
    exact ⟨z, fun _ => ⟨v, i⟩, fun found => absurd (Nat.lt_min.mp found).2 inside⟩

end

/-- VTOPK (R323, R51): the best pairs in order, before every entry left out, then padding, and no other byte. -/
theorem exec_vtopk_selects (o : OVtopk) (s : State) (ra oa : Nat) (h : Ready (.vtopk o) s) :
    let n := (s.cur.rG o.b).toNat
    let k := (s.cur.rG o.c).toNat
    Rule.ownScratch s (s.cur.rG o.a) (4 * n) 4 ra → Rule.ownScratch s (s.cur.rG o.e) (8 * k) 8 oa → n ≤ 65535 → k ≤ 256 →
    (oa + 8 * k ≤ ra ∨ ra + 4 * n ≤ oa) → (∀ j, j < n → Rule.unpoisoned s (ra + 4 * j)) →
    (∀ j, j < k → Rule.unpublished s (oa + 8 * j) 8) →
    let row (i : Nat) : Nat := (s.core s.curAgent).spad.readNat (ra + 4 * i) 4
    ∃ t : State, exec (.vtopk o) s = .next t ∧ (o.d ≠ 0 → t.cur.rG o.d = BitVec.ofNat 64 (Nat.min k n)) ∧
      (∀ b, b < oa ∨ oa + 8 * k ≤ b → Rule.spByte t b = Rule.spByte s b) ∧ Rule.onlyScratch s t ∧
      t.cur.pc = s.cur.pc + BitVec.ofNat 64 (Instr.bytes (.vtopk o)) ∧ t.cur.flags = s.cur.flags ∧
      let val (j : Nat) : Nat := (t.core s.curAgent).spad.readNat (oa + 8 * j) 4
      let idx (j : Nat) : Nat := (t.core s.curAgent).spad.readNat (oa + 8 * j + 4) 2
      (∀ j, j < k → (t.core s.curAgent).spad.readNat (oa + 8 * j + 6) 2 = 0) ∧
      (∀ j, n ≤ j → j < k → idx j = 0xFFFF ∧ val j = (Rule.endLane o.fmt false).toNat) ∧
      (∀ j, j < Nat.min k n → idx j < n ∧ val j = if o.fmt = .f32 ∧ Rule.isNaN ffF32 (row (idx j)) = true then 0x7FC00000 else row (idx j)) ∧
      (∀ i j, i < j → j < Nat.min k n → Rule.topBelow o.fmt (row (idx i)) (row (idx j)) = false ∧
        (Rule.topBelow o.fmt (row (idx j)) (row (idx i)) = false → idx i < idx j)) ∧
      (∀ i j, i < n → j < Nat.min k n → (∀ e, e < Nat.min k n → idx e ≠ i) → Rule.topBelow o.fmt (row (idx j)) (row i) = false ∧
        (Rule.topBelow o.fmt (row i) (row (idx j)) = false → idx j < i)) := by
  intro n k source target hn hk apart clean free row
  have small (i : Nat) : row i < 2 ^ 32 := Mem.readNat_lt _ _ 4
  have stored := stored_topStores (fun j hj => (free j hj).1) (topOut o.fmt ((topRow o.fmt n row).take k))
  have fields {j : Nat} (hj : j < k) := topMem_fields o.fmt row (s.core s.curAgent).spad oa small hn hj
  have found {j : Nat} (hj : j < Nat.min k n) := (fields (Nat.lt_min.mp hj).1).2.2 hj
  have entry {j : Nat} (hj : j < Nat.min k n) := topEntry_spec o.fmt row (Nat.lt_min.mp hj).2
  refine ⟨_, exec_vtopk h rfl rfl source target hn hk apart clean free, ?_⟩
  rw [stored.cur_setCur _ h.curCtx_lt, stored.spad_setCur]
  refine ⟨fun d => ?_, fun b hb => ?_, stored.onlyScratch_setCur _, by simp, by simp, fun j hj => (fields hj).1,
    fun j past hj => ((fields hj).2.1 past).symm, fun j hj => ?_, fun i j ij hj => ?_, fun i j hi hj out => ?_⟩
  · rw [Ctx.rG_past, Ctx.rG_wG, if_pos ⟨rfl, d⟩]
  · exact (stored.spByte_setCur _ b).trans (Mem.read_foldl_writeNat_outside _ _ _ _ _ (fun j hj => List.mem_range.mp hj) b hb)
  · obtain ⟨value, index⟩ := found hj
    have same : (topEntry o.fmt n row j).1 = row _ := (entry hj).2.trans (congrArg row index.symm)
    exact ⟨lt_of_eq_of_lt index (entry hj).1, value.trans (congrArg (topValue o.fmt) same)⟩
  · have hi := ij.trans hj
    dsimp only
    rw [(found hi).2, (found hj).2, ← (entry hi).2, ← (entry hj).2]
    exact (topEntry_before o.fmt row ij (Nat.lt_min.mp hj).2).topBelow
  · obtain ⟨p, hp, here⟩ := exists_topEntry o.fmt row hi
    have past : j < p := by
      by_contra before
      have hp := Nat.lt_of_le_of_lt (Nat.le_of_not_lt before) hj
      exact out p hp ((found hp).2.trans (congrArg Prod.snd here))
    have order := (topEntry_before o.fmt row past hp).topBelow
    rw [here] at order
    dsimp only
    rw [(found hj).2, ← (entry hj).2]
    exact order

/-- Settles O26: VSP by its group (`vspWord_result`), VRED by the levels of its tree (`treeCombine_range`), VTOPK by the stable sort whose head it keeps
(`topK_eq_take`, `topSort_spec`). -/
theorem groupsReductionsAndTopK : Obligations.GroupsReductionsAndTopK :=
  ⟨⟨exec_vsp_empty, exec_vsp_on_group⟩,
    fun _ s h => ⟨_, _, exec_vred h, fun int => ⟨vredFlags_int int s.cur, vredRoot_int int s.cur⟩, fun flt => vredRoot_f32 h.2.1 flt s.cur⟩,
    exec_vtopk_selects⟩

end Sys2Proof.Machine

/-! SUPPORT. O47 (R365): a GFREE that takes more from the factor directory than its own factor. UNSUB takes the freed subscriber entry from the
mirrors of every factor of its core, and the statement does not ask that a subscriber entry be the mirror of one factor alone. -/

namespace Sys2Proof.Machine

/-- A factor over one variable of one component, without link bits, that lists subscriber entry 0 as its mirror 0. -/
def mirroredFactor (off : Nat) : GObj := ⟨off, facExtent [1], 5, 0, [(0, 0)]⟩

/-- A user context of kernel 5 whose g1 names the factor at offset 0 of its scratchpad, in its claim of one way. -/
def freeingCtx : Ctx :=
  { Ctx.reset with st := .live, g := vset Ctx.reset.g 1 (BitVec.ofNat 64 (0xF0 * 2 ^ 48)), gOpen := 8, kid := 5, claim := 1 }

/-- The factors at 0 and at 0x400 have the core's subscriber entry 0, a valid one of their kernel, as a mirror. -/
def sharedMirrorCore : Core :=
  { Core.reset with
    ctxs := vset Core.reset.ctxs 0 freeingCtx, nWays := 1, ways := vset Core.reset.ways 19 .live
    subs := vset Core.reset.subs 0 (subEntry 5 false 0 1 0 0xC0 64), gmu := ⟨[], [mirroredFactor 0, mirroredFactor 0x400], [], [], false, 0⟩ }

def sharedMirror : State := { State.reset with cores := [(0, sharedMirrorCore)] }

/-- GFREE of the factor that g1 names. -/
abbrev gfreeG1 : OXA := ⟨1, 0⟩

theorem sharedMirror_ready : Ready (.gfree gfreeG1) sharedMirror := ready_of (by decide +kernel)

theorem sharedMirror_object : Rule.object sharedMirror (sharedMirror.cur.rG 1) (mirroredFactor 0) := by
  and_intros <;> decide +kernel

/-- Nothing holds the GFREE back. -/
theorem sharedMirror_unheld : gmuBusy sharedMirror 0 = false ∧ gmuHeld sharedMirror = false ∧ objPoison sharedMirror 0 0 64 = false := by
  and_intros <;> decide +kernel

/-- GFREE takes the shared subscriber entry from the other factor too. -/
theorem gfree_sharedMirror :
    ∃ t, exec (.gfree gfreeG1) sharedMirror = .next t ∧ (t.core 0).gmu.facs = [{ mirroredFactor 0x400 with mirrors := [] }] := by
  have next : (match exec (.gfree gfreeG1) sharedMirror with | .next t => (t.core 0).gmu.facs | _ => []) =
      [{ mirroredFactor 0x400 with mirrors := [] }] := by decide +kernel
  split at next
  · exact ⟨_, by assumption, next⟩
  · cases next

/-- Refutes O47, by its clause on GFREE of a factor without links: every other factor is to stay as it is, but in `sharedMirror`, where another
factor lists the same subscriber entry as a mirror, that factor loses it (`gfree_sharedMirror`). -/
theorem not_graphObjectsAreMadeAndUpdated : ¬ Obligations.GraphObjectsAreMadeAndUpdated := by
  rintro ⟨-, -, -, -, -, -, -, -, -, -, -, -, -, -, gfree, -⟩
  obtain ⟨idle, turn, clean⟩ := sharedMirror_unheld
  obtain ⟨-, factor⟩ := gfree gfreeG1 sharedMirror (mirroredFactor 0) sharedMirror_ready idle sharedMirror_object turn clean
  obtain ⟨unlinked, -⟩ := factor (by decide +kernel) (by decide +kernel)
  obtain ⟨t, step, -, kept⟩ := unlinked rfl
  obtain ⟨u, step', facs⟩ := gfree_sharedMirror
  obtain rfl : t = u := by rw [step] at step'; injection step'
  have other : (Rule.facs sharedMirror).filter (fun h => h.off != (mirroredFactor 0).off) = [mirroredFactor 0x400] := by decide +kernel
  have same : [mirroredFactor 0x400] = [{ mirroredFactor 0x400 with mirrors := [] }] := other.symm.trans (kept.symm.trans facs)
  exact absurd same (by decide)

end Sys2Proof.Machine

/-! SUPPORT. O22 (R103, R104, R127, R280): what a write or a fill leaves unchanged at the levels above the one that it reaches, what pushing
and dropping leave in a cache, and from these what a fence's release and acquire do. -/

namespace Sys2Proof.Machine

/-! What each level leaves unchanged. -/

section
variable {s t : State}

/-- The agent and the context in hand, and all cores: what the caches below leave unchanged. -/
def State.agents (s : State) : Nat × Nat × SMap Core := (s.curAgent, s.curCtx, s.cores)
/-- That and the clusters: what L2 and sarking leave unchanged. -/
def State.aboveL2 (s : State) : (Nat × Nat × SMap Core) × SMap Cluster := (s.agents, s.clusters)
/-- That and the dies: what the stacks leave unchanged. -/
def State.aboveStacks (s : State) : ((Nat × Nat × SMap Core) × SMap Cluster) × SMap Die := (s.aboveL2, s.dies)
/-- The context in hand: what the emptying of a write-combining buffer leaves unchanged. -/
def State.issuer (s : State) : Nat × Nat × Ctx := (s.curAgent, s.curCtx, s.cur)

theorem aboveL2_of_aboveStacks (h : t.aboveStacks = s.aboveStacks) : t.aboveL2 = s.aboveL2 := congrArg Prod.fst h
theorem agents_of_aboveL2 (h : t.aboveL2 = s.aboveL2) : t.agents = s.agents := congrArg Prod.fst h

theorem issuer_of_agents (h : t.agents = s.agents) : t.issuer = s.issuer :=
  congrArg (fun v : Nat × Nat × SMap Core => (v.1, v.2.1, vget (v.2.2.getD v.1 Core.reset).ctxs v.2.1 Ctx.reset)) h

theorem die_of_aboveStacks (h : t.aboveStacks = s.aboveStacks) (d : Nat) : t.die d = s.die d := congrArg (fun v => v.2.getD d Die.reset) h
theorem clu_of_aboveL2 (h : t.aboveL2 = s.aboveL2) (k : Nat) : t.clu k = s.clu k := congrArg (fun v => v.2.getD k Cluster.reset) h
theorem core_of_agents (h : t.agents = s.agents) (a : Nat) : t.core a = s.core a := congrArg (fun v => v.2.2.getD a Core.reset) h
theorem curAgent_of_issuer (h : t.issuer = s.issuer) : t.curAgent = s.curAgent := congrArg Prod.fst h
theorem curCtx_of_issuer (h : t.issuer = s.issuer) : t.curCtx = s.curCtx := congrArg (fun v => v.2.1) h
theorem cur_of_issuer (h : t.issuer = s.issuer) : t.cur = s.cur := congrArg (fun v => v.2.2) h

/-- What every step of a fold leaves unchanged, the fold does. -/
theorem foldl_keeps {α β : Type} {view : State → β} {f : State → α → State} (step : ∀ t x, view (f t x) = view t) (l : List α)
    (s : State) : view (l.foldl f s) = view s :=
  List.foldlRecOn (motive := fun t => view t = view s) l f rfl fun t h x _ => (step t x).trans h

/-- What an update leaves unchanged, it does under a condition. -/
theorem ite_keeps {β : Type} {view : State → β} {p : Prop} {_ : Decidable p} (h : view t = view s) : view (if p then t else s) = view s := by
  split <;> [exact h; rfl]

end

/-! Stacks: thatch and HBM. -/

theorem thatchEvict_aboveStacks (s : State) (line : Nat) : (thatchEvict s line).aboveStacks = s.aboveStacks := by
  unfold thatchEvict; split <;> rfl

theorem thatchPlace_aboveStacks (s : State) (line : Nat) : (thatchPlace s line).2.aboveStacks = s.aboveStacks := by
  unfold thatchPlace
  dsimp only
  split
  · rfl
  · split
    · exact thatchEvict_aboveStacks _ _
    · rfl

theorem physPut_aboveStacks (s : State) (pa : Nat) (d : Line) (m : Mask) : (physPut s pa d m).aboveStacks = s.aboveStacks := by
  unfold physPut
  dsimp only
  split
  · rfl
  · split
    · rfl
    · exact thatchPlace_aboveStacks s (pa / 64)

theorem markDirty_aboveStacks (s : State) (pa : Nat) : (markDirty s pa).aboveStacks = s.aboveStacks := by
  unfold markDirty physPutNat
  split
  · rfl
  · exact physPut_aboveStacks _ _ _ _

theorem physWrite_aboveStacks (s : State) (pa : Nat) (d : Line) (m : Mask) : (physWrite s pa d m).aboveStacks = s.aboveStacks := by
  unfold physWrite
  split
  · rfl
  · exact (markDirty_aboveStacks _ pa).trans (physPut_aboveStacks s pa d m)

theorem pendOnce_aboveStacks (s : State) (e : Ev) : (s.pendOnce e).aboveStacks = s.aboveStacks := by
  unfold State.pendOnce; split <;> rfl

theorem leaves_aboveStacks (s : State) (u : Unacked) : (leaves s u).aboveStacks = s.aboveStacks := pendOnce_aboveStacks _ _

theorem pushCopy_aboveStacks (s : State) (page : Nat) (p : PageCopy) (want : Nat → Bool) :
    (pushCopy s page p want).aboveStacks = s.aboveStacks := by
  unfold pushCopy
  dsimp only
  split
  · rfl
  · split
    · exact leaves_aboveStacks _ _
    · rfl

theorem pushPages_aboveStacks (s : State) (want : Nat → Bool) : (pushPages s want).aboveStacks = s.aboveStacks := by
  refine foldl_keeps (fun t q => ?_) _ s
  exact pushCopy_aboveStacks t q.1 q.2 want

/-! L2 and sarking. -/

theorem physWrite_aboveL2 (s : State) (pa : Nat) (d : Line) (m : Mask) : (physWrite s pa d m).aboveL2 = s.aboveL2 :=
  aboveL2_of_aboveStacks (physWrite_aboveStacks s pa d m)

theorem l2Evict_aboveL2 (s : State) (die line : Nat) : (l2Evict s die line).aboveL2 = s.aboveL2 := by
  unfold l2Evict
  split
  · rfl
  · exact ite_keeps (physWrite_aboveL2 _ _ _ _)

theorem l2Place_aboveL2 (s : State) (die line : Nat) : (l2Place s die line).2.aboveL2 = s.aboveL2 := by
  unfold l2Place
  dsimp only
  split
  · split
    · exact l2Evict_aboveL2 _ _ _
    · rfl
  · rfl

theorem l2Fill_aboveL2 (s : State) (die line pa : Nat) (ty : PType) : (l2Fill s die line pa ty).2.aboveL2 = s.aboveL2 := by
  unfold l2Fill
  split
  · rfl
  · exact l2Place_aboveL2 s die line

theorem l2Write_aboveL2 (s : State) (die line pa : Nat) (ty : PType) (dat : Line) (m : Mask) : (l2Write s die line pa ty dat m).aboveL2 = s.aboveL2 :=
  l2Fill_aboveL2 s die line pa ty

theorem sarkUpdate_aboveL2 (s : State) (die line : Nat) (dat : Line) (m : Mask) : (sarkUpdate s die line dat m).aboveL2 = s.aboveL2 := by
  unfold sarkUpdate; split <;> rfl

theorem skPlace_aboveL2 (s : State) (die line : Nat) : (skPlace s die line).2.aboveL2 = s.aboveL2 := by
  unfold skPlace
  dsimp only
  split
  · rfl
  · rfl
  · split <;> rfl

theorem skFill_aboveL2 (s : State) (die line pa : Nat) (dat : Line) : (skFill s die line pa dat).aboveL2 = s.aboveL2 := by
  unfold skFill
  split
  · rfl
  · exact skPlace_aboveL2 _ die line

theorem outRead_aboveL2 (s : State) (die line pa : Nat) (ty : PType) : (outRead s die line pa ty).2.aboveL2 = s.aboveL2 := by
  unfold outRead
  split
  · exact l2Fill_aboveL2 s die line pa ty
  · split
    · rfl
    · exact skFill_aboveL2 _ _ _ _ _

theorem outWrite_aboveL2 (s : State) (die line pa : Nat) (ty : PType) (dat : Line) (m : Mask) :
    (outWrite s die line pa ty dat m).aboveL2 = s.aboveL2 := by
  unfold outWrite
  split
  · exact l2Write_aboveL2 s die line pa ty dat m
  · exact (physWrite_aboveL2 _ pa dat m).trans (sarkUpdate_aboveL2 s die line dat m)

theorem pushL2_aboveL2 (s : State) (die : Nat) (sc : Scope) (want : Nat → Bool) : (pushL2 s die sc want).aboveL2 = s.aboveL2 := by
  refine foldl_keeps (fun t q => ?_) _ s
  dsimp only
  split
  · rfl
  · exact physWrite_aboveL2 t q.2.pa q.2.data q.2.mask

/-! L1. -/

theorem outRead_agents (s : State) (die line pa : Nat) (ty : PType) : (outRead s die line pa ty).2.agents = s.agents :=
  agents_of_aboveL2 (outRead_aboveL2 s die line pa ty)

theorem outWrite_agents (s : State) (die line pa : Nat) (ty : PType) (dat : Line) (m : Mask) :
    (outWrite s die line pa ty dat m).agents = s.agents :=
  agents_of_aboveL2 (outWrite_aboveL2 s die line pa ty dat m)

theorem seqHome_agents (s : State) (line : Nat) (l : CLine) : (seqHome s line l).agents = s.agents :=
  agents_of_aboveL2 (l2Write_aboveL2 s _ line l.pa .seq l.data l.mask)

theorem dirDrop_agents (s : State) (clu line : Nat) : (dirDrop s clu line).agents = s.agents := by
  unfold dirDrop
  split
  · rfl
  · split <;> rfl
  · rfl

theorem l1Evict_agents (s : State) (clu line : Nat) : (l1Evict s clu line).agents = s.agents := by
  unfold l1Evict
  split
  · rfl
  next l _ =>
    refine (ite_keeps (view := State.agents) (dirDrop_agents _ clu line)).trans ?_
    split
    · rfl
    · split
      · exact seqHome_agents s line l
      · exact outWrite_agents s _ line l.pa l.ty l.data l.mask

theorem l1Place_agents (s : State) (clu line : Nat) : (l1Place s clu line).2.agents = s.agents := by
  unfold l1Place
  dsimp only
  split
  · split
    · exact l1Evict_agents _ _ _
    · rfl
  · rfl

theorem l1Fill_agents (s : State) (clu line pa : Nat) (ty : PType) : (l1Fill s clu line pa ty).2.agents = s.agents := by
  unfold l1Fill
  split
  · rfl
  · exact (outRead_agents _ _ line pa ty).trans (l1Place_agents s clu line)

theorem l1Write_agents (s : State) (clu line pa : Nat) (ty : PType) (dat : Line) (m : Mask) : (l1Write s clu line pa ty dat m).agents = s.agents :=
  l1Fill_agents s clu line pa ty

theorem pushL1_agents (s : State) (clu : Nat) (sc : Scope) (want : Nat → Bool) : (pushL1 s clu sc want).agents = s.agents := by
  refine foldl_keeps (fun t q => ?_) _ s
  dsimp only
  split
  · rfl
  · exact outWrite_agents t _ q.1 q.2.pa q.2.ty q.2.data q.2.mask

theorem dropL1_agents (s : State) (clu : Nat) (sc : Scope) (want : Nat → Bool) : (dropL1 s clu sc want).agents = s.agents := by
  refine foldl_keeps (fun t q => ?_) _ s
  dsimp only
  split
  · rfl
  · split
    · rfl
    · exact outRead_agents t _ q.1 q.2.pa q.2.ty

theorem dropTo_agents (s : State) (a : Nat) (sc : Scope) (bump : Bool) (want : Nat → Bool) : (dropTo s a sc bump want).agents = s.agents := by
  unfold dropTo
  calc
    _ = (if Scope.ge sc .dev then dropL2 _ (agentDie a) sc want else _ : State).agents := ite_keeps (dropL1_agents _ _ sc want)
    _ = (if bump && Scope.ge sc .die then skBump s (agentDie a) else s : State).agents := ite_keeps rfl
    _ = s.agents := ite_keeps rfl

theorem acquire_agents (s : State) (a : Nat) (sc : Scope) : (acquire s a sc).agents = s.agents := dropTo_agents s a sc true _

/-! The write-combining buffer (R107). -/

theorem wcbDrainOne_agents (s : State) (a : Nat) (e : WcbEntry) : (wcbDrainOne s a e).agents = s.agents := l1Write_agents s _ _ _ _ _ _

/-- An entry that leaves takes every entry of its line from the buffer. -/
theorem wcb_wcbEvict (s : State) (a line : Nat) : ((wcbEvict s a line).core a).wcb = (s.core a).wcb.filter fun x => x.line != line := by
  unfold wcbEvict
  split
  next none => exact (List.filter_eq_self.mpr fun x hx => by simpa using List.find?_eq_none.mp none x hx).symm
  · rw [core_of_agents (wcbDrainOne_agents _ a _), State.modCore_eq, State.core_setCore_same]

theorem wcbEvict_issuer (s : State) (a line : Nat) : (wcbEvict s a line).issuer = s.issuer := by
  unfold wcbEvict
  split
  · rfl
  · refine (issuer_of_agents (wcbDrainOne_agents _ a _)).trans ?_
    have ctxs (b : Nat) : ((s.modCore a fun o => { o with wcb := o.wcb.filter fun x => x.line != line }).core b).ctxs = (s.core b).ctxs := by
      rw [State.modCore_eq, State.core_setCore]
      split <;> [(subst_vars; rfl); rfl]
    simp only [State.issuer, State.cur, State.ctx, ctxs]
    rfl

/-- All entries of the lines named leave the buffer. -/
theorem wcb_foldl_wcbEvict (a : Nat) (es : List WcbEntry) (s : State) :
    ((es.foldl (fun (s : State) e => wcbEvict s a e.line) s).core a).wcb = (s.core a).wcb.filter fun x => es.all fun e => x.line != e.line := by
  induction es generalizing s with
  | nil => simp
  | cons e es ih => rw [List.foldl_cons, ih, wcb_wcbEvict, List.filter_filter]; simp [Bool.and_comm]

/-! Pushing and dropping line by line. -/

/-- Every REL line that is found in a cache has a mask of which `p` holds. -/
def RelMasks (p : Mask → Prop) (m : SMap CLine) : Prop := ∀ line l, m.find? line = some l → l.ty = .rel → p l.mask

/-- What a pass over a cache may make of it at the line `q`: every REL line left has a good mask, or stood there before and is not `q`. -/
def Visited (p : Mask → Prop) (q : Nat × CLine) (m m' : SMap CLine) : Prop :=
  ∀ line l, m'.find? line = some l → l.ty = .rel → p l.mask ∨ (m.find? line = some l ∧ (line, l) ≠ q)

section
variable {p : Mask → Prop} {q : Nat × CLine} {m : SMap CLine}

theorem visited_same (h : q.2.ty = .rel → p q.2.mask) : Visited p q m m := fun line l found rel => by
  by_cases here : (line, l) = q
  · subst here; exact .inl (h rel)
  · exact .inr ⟨found, here⟩

theorem visited_set {x : CLine} (h : x.ty = .rel → p x.mask) : Visited p q m (m.set q.1 x) := fun line l found rel => by
  rw [SMap.find?_set] at found
  split at found
  · cases found; exact .inl (h rel)
  next other => exact .inr ⟨found, fun e => other (by rw [← e])⟩

theorem visited_erase : Visited p q m (m.erase q.1) := fun line l found _ => by
  rw [SMap.find?_erase] at found
  split at found
  · cases found
  next other => exact .inr ⟨found, fun e => other (by rw [← e])⟩

/-- A pass that visits every line of a cache leaves only good ones. -/
theorem relMasks_foldl {cache : State → SMap CLine} {f : State → Nat × CLine → State} (step : ∀ s q, Visited p q (cache s) (cache (f s q)))
    (s : State) : RelMasks p (cache ((cache s).foldl f s)) := by
  have pass (es : SMap CLine) : ∀ s, (∀ line l, (cache s).find? line = some l → l.ty = .rel → p l.mask ∨ (line, l) ∈ es) →
      RelMasks p (cache (es.foldl f s)) := by
    induction es with
    | nil => exact fun s left line l found rel => (left line l found rel).resolve_right nofun
    | cons q es ih =>
      refine fun s left => ih _ fun line l found rel => ?_
      obtain good | ⟨before, other⟩ := step s q line l found rel
      · exact .inl good
      · exact (left line l before rel).imp_right fun mem => (List.mem_cons.mp mem).resolve_left other
  exact pass _ s fun line l found _ => .inr (SMap.mem_of_find? found)

end

/-- Every scope concerns REL lines (R104). -/
theorem pushes_rel {l : CLine} (h : l.ty = .rel) (sc : Scope) : pushes l.ty sc = true := by rw [h]; rfl

/-- A push leaves the REL lines of an L1 clean. -/
theorem relMasks_pushL1 (s : State) (clu : Nat) (sc : Scope) : RelMasks (· = 0) ((pushL1 s clu sc fun _ => true).clu clu).l1 := by
  refine relMasks_foldl (cache := fun s => (s.clu clu).l1) (fun t q => ?_) s
  dsimp only
  split
  next skip => exact visited_same fun rel => by simpa [pushes_rel rel] using skip
  · rw [State.modClu_eq, State.clu_setClu_same, clu_of_aboveL2 (outWrite_aboveL2 t _ q.1 q.2.pa q.2.ty q.2.data q.2.mask)]
    exact visited_set fun _ => rfl

/-- A push leaves the REL lines of an L2 clean. -/
theorem relMasks_pushL2 (s : State) (die : Nat) (sc : Scope) : RelMasks (· = 0) ((pushL2 s die sc fun _ => true).die die).l2 := by
  refine relMasks_foldl (cache := fun s => (s.die die).l2) (fun t q => ?_) s
  dsimp only
  split
  next skip => exact visited_same fun rel => by simpa [pushes_rel rel] using skip
  · rw [State.modDie_eq, State.die_setDie_same, die_of_aboveStacks (physWrite_aboveStacks t q.2.pa q.2.data q.2.mask)]
    exact visited_set fun _ => rfl

/-- A drop leaves no clean REL line in an L1. -/
theorem relMasks_dropL1 (s : State) (clu : Nat) (sc : Scope) : RelMasks (· ≠ 0) ((dropL1 s clu sc fun _ => true).clu clu).l1 := by
  refine relMasks_foldl (cache := fun s => (s.clu clu).l1) (fun t q => ?_) s
  dsimp only
  split
  next skip => exact visited_same fun rel => by simp [pushes_rel rel] at skip
  · split
    · rw [State.modClu_eq, State.clu_setClu_same]
      exact visited_erase
    next dirty =>
      rw [State.modClu_eq, State.clu_setClu_same, clu_of_aboveL2 (outRead_aboveL2 t _ q.1 q.2.pa q.2.ty)]
      exact visited_set fun _ => dirty

/-- A drop leaves no clean REL line in an L2. -/
theorem relMasks_dropL2 (s : State) (die : Nat) (sc : Scope) : RelMasks (· ≠ 0) ((dropL2 s die sc fun _ => true).die die).l2 := by
  intro line l found rel
  simp only [dropL2, State.modDie_eq, State.die_setDie_same] at found
  obtain ⟨q, -, kept⟩ := List.mem_filterMap.mp (SMap.mem_of_find? found)
  split at kept
  next skip =>
    cases kept
    simp [pushes_rel rel] at skip
  · split at kept
    · cases kept
    next dirty =>
      cases kept
      exact dirty

/-! Sarking copies. -/

/-- The sarking copies of a die and what makes them valid. -/
def State.sarking (d : Nat) (s : State) : SMap SLine × BitVec 32 := ((s.die d).sark, (s.die d).skgen)

theorem sarking_of_aboveStacks {s t : State} (h : t.aboveStacks = s.aboveStacks) (d : Nat) : t.sarking d = s.sarking d := by
  rw [State.sarking, die_of_aboveStacks h]; rfl

theorem pushL2_sarking (s : State) (die d : Nat) (sc : Scope) (want : Nat → Bool) : (pushL2 s die sc want).sarking d = s.sarking d := by
  refine foldl_keeps (fun t q => ?_) _ s
  dsimp only
  split
  · rfl
  · refine Eq.trans ?_ (sarking_of_aboveStacks (physWrite_aboveStacks t q.2.pa q.2.data q.2.mask) d)
    rw [State.sarking, State.modDie_eq, State.die_setDie]
    split <;> [(subst_vars; rfl); rfl]

theorem dropL2_sarking (s : State) (die d : Nat) (sc : Scope) (want : Nat → Bool) : (dropL2 s die sc want).sarking d = s.sarking d := by
  rw [State.sarking, dropL2, State.modDie_eq, State.die_setDie]
  split <;> [(subst_vars; rfl); rfl]

/-- After the acquire's step of the generation no copy of the generation before is valid (R127). -/
theorem sarkHit_skBump {s t : State} {die : Nat} (h : t.sarking die = (skBump s die).sarking die) {line : Nat} {l : SLine}
    (found : (s.die die).sark.find? line = some l) (valid : l.gen = (s.die die).skgen) : sarkHit (t.die die) line = none := by
  simp only [State.sarking, skBump, State.modDie_eq, State.die_setDie_same, Prod.mk.injEq] at h
  obtain ⟨sark, gen⟩ := h
  rw [sarkHit, sark, gen]
  split_ifs
  · rfl
  · have stale : l.gen ≠ (s.die die).skgen + 1#32 := by rw [valid]; bv_omega
    simp [found, stale]

/-! The release of an agent (R104), level by level. -/

/-- The part at `clu` and wider: the write-combining buffer. -/
def releaseBuffer (s : State) (a : Nat) (sc : Scope) : State :=
  if Scope.ge sc .clu then ((s.core a).wcb.filter fun _ => true).foldl (fun (s : State) e => wcbEvict s a e.line) s else s
/-- The part at `die` and wider: the cluster's L1. -/
def releaseL1 (s : State) (a : Nat) (sc : Scope) : State :=
  if Scope.ge sc .die then pushL1 s (agentClu a) sc fun _ => true else s
/-- The part at `dev` and wider: the die's L2. -/
def releaseL2 (s : State) (a : Nat) (sc : Scope) : State :=
  if Scope.ge sc .dev then pushL2 s (agentDie a) sc fun _ => true else s
/-- The part at `sys`: other devices' pages. -/
def releasePages (s : State) (sc : Scope) : State := if Scope.ge sc .sys then pushPages s fun _ => true else s

theorem release_eq (s : State) (a : Nat) (sc : Scope) :
    release s a sc = releasePages (releaseL2 (if isRidge a then s else releaseL1 (releaseBuffer s a sc) a sc) a sc) sc := rfl

section
variable (s : State) (a : Nat) (sc : Scope)

theorem releaseBuffer_issuer : (releaseBuffer s a sc).issuer = s.issuer :=
  ite_keeps (foldl_keeps (fun t (e : WcbEntry) => wcbEvict_issuer t a e.line) _ s)

theorem wcb_releaseBuffer (h : Scope.ge sc .clu = true) : ((releaseBuffer s a sc).core a).wcb = [] := by
  rw [releaseBuffer, if_pos h, wcb_foldl_wcbEvict, List.filter_eq_nil_iff]
  exact fun e he all => by simpa using List.all_eq_true.mp all e (List.mem_filter.mpr ⟨he, rfl⟩)

theorem releaseL1_agents : (releaseL1 s a sc).agents = s.agents := ite_keeps (pushL1_agents s _ sc _)
theorem releaseL2_aboveL2 : (releaseL2 s a sc).aboveL2 = s.aboveL2 := ite_keeps (pushL2_aboveL2 s _ sc _)
theorem releasePages_aboveStacks : (releasePages s sc).aboveStacks = s.aboveStacks := ite_keeps (pushPages_aboveStacks s _)

theorem releaseL2_sarking (d : Nat) : (releaseL2 s a sc).sarking d = s.sarking d := ite_keeps (pushL2_sarking s _ d sc _)

/-- The levels from L2 on leave what stands above L2 unchanged. -/
theorem release_aboveL2 :
    (release s a sc).aboveL2 = (if isRidge a then s else releaseL1 (releaseBuffer s a sc) a sc : State).aboveL2 :=
  (aboveL2_of_aboveStacks (releasePages_aboveStacks _ sc)).trans (releaseL2_aboveL2 _ a sc)

theorem release_issuer : (release s a sc).issuer = s.issuer := by
  refine (issuer_of_agents (agents_of_aboveL2 (release_aboveL2 s a sc))).trans ?_
  split
  · rfl
  · exact (issuer_of_agents (releaseL1_agents _ a sc)).trans (releaseBuffer_issuer s a sc)

theorem acquire_issuer : (acquire s a sc).issuer = s.issuer := issuer_of_agents (acquire_agents s a sc)

section
variable (cluster : isRidge a = false)
include cluster

theorem release_core_aboveL2 : (release s a sc).aboveL2 = (releaseL1 (releaseBuffer s a sc) a sc).aboveL2 := by
  rw [release_aboveL2, cluster]; rfl

/-- A release at `clu` or wider empties a cluster core's write-combining buffer. -/
theorem wcb_release (h : Scope.ge sc .clu = true) : ((release s a sc).core a).wcb = [] := by
  rw [core_of_agents (agents_of_aboveL2 (release_core_aboveL2 s a sc cluster)), core_of_agents (releaseL1_agents _ a sc),
    wcb_releaseBuffer s a sc h]

/-- At `die` or wider it leaves the REL lines of the cluster's L1 clean. -/
theorem relMasks_l1_release (h : Scope.ge sc .die = true) : RelMasks (· = 0) ((release s a sc).clu (agentClu a)).l1 := by
  rw [clu_of_aboveL2 (release_core_aboveL2 s a sc cluster), releaseL1, if_pos h]
  exact relMasks_pushL1 _ _ sc

/-- An acquire of a cluster core at `die` or wider leaves no clean REL line in its L1. -/
theorem relMasks_l1_acquire (h : Scope.ge sc .die = true) : RelMasks (· ≠ 0) ((acquire s a sc).clu (agentClu a)).l1 := by
  simp only [acquire, dropTo, cluster, h, Bool.not_false, Bool.and_self, if_true]
  exact relMasks_dropL1 _ _ sc

end

/-- A release at `dev` or wider leaves the REL lines of the die's L2 clean. -/
theorem relMasks_l2_release (h : Scope.ge sc .dev = true) : RelMasks (· = 0) ((release s a sc).die (agentDie a)).l2 := by
  rw [release_eq, die_of_aboveStacks (releasePages_aboveStacks _ sc), releaseL2, if_pos h]
  exact relMasks_pushL2 _ _ sc

section
variable (ridge : isRidge a = true)
include ridge

/-- A ridge core's release reaches no sarking copy. -/
theorem release_sarking (d : Nat) : (release s a sc).sarking d = s.sarking d := by
  rw [release_eq, sarking_of_aboveStacks (releasePages_aboveStacks _ sc), releaseL2_sarking, ridge]; rfl

/-- The acquire of a ridge core: sarking and L2 (R418). -/
theorem acquire_ridge :
    acquire s a sc =
      let u := if Scope.ge sc .die then skBump s (agentDie a) else s
      if Scope.ge sc .dev then dropL2 u (agentDie a) sc fun _ => true else u := by
  simp [acquire, dropTo, ridge]

/-- An acquire of a ridge core at `dev` or wider leaves no clean REL line in the die's L2. -/
theorem relMasks_l2_acquire (h : Scope.ge sc .dev = true) : RelMasks (· ≠ 0) ((acquire s a sc).die (agentDie a)).l2 := by
  rw [acquire_ridge s a sc ridge]
  simp only [h, if_true]
  exact relMasks_dropL2 _ _ sc

/-- An acquire of a ridge core at `die` or wider leaves no sarking copy of the die valid. -/
theorem sarkHit_acquire (h : Scope.ge sc .die = true) {line : Nat} {l : SLine} (found : (s.die (agentDie a)).sark.find? line = some l)
    (valid : l.gen = (s.die (agentDie a)).skgen) : sarkHit ((acquire s a sc).die (agentDie a)) line = none := by
  refine sarkHit_skBump ?_ found valid
  rw [acquire_ridge s a sc ridge]
  simp only [h, if_true]
  exact ite_keeps (view := State.sarking _) (dropL2_sarking _ _ _ sc _)

end

end

/-! The fence. -/

/-- What a fence does beside completing: the release, then the acquire, as its order asks. -/
def fenceEffect (o : OFence) (s : State) : State :=
  match o.order with
  | .acq => acquire s s.curAgent o.scope
  | .rel => release s s.curAgent o.scope
  | .sc | .acqrel => acquire (release s s.curAgent o.scope) s.curAgent o.scope

/-- A release that has nothing to wait for goes on. -/
theorem releaseThen_of_releases {s : State} {sc : Scope} (h : Rule.releases s sc) (go : State → State) :
    releaseThen s sc go = go (release s s.curAgent sc) := by
  obtain ⟨held, acked⟩ := h
  have out : (sc == .sys && unackedOut (release s s.curAgent sc) s.cur.task) = false := by
    rw [Bool.and_eq_false_imp]
    exact fun sys => acked (beq_iff_eq.mp sys)
  simp only [releaseThen, held, out, Bool.false_eq_true, if_false]

theorem exec_fence {o : OFence} {s : State} (ready : Ready (.fence o) s) (free : o.order ≠ .acq → Rule.releases s o.scope) :
    exec (.fence o) s = .next (done (.fence o) (fenceEffect o s)) := by
  have agent := curAgent_of_issuer (release_issuer s s.curAgent o.scope)
  rw [show exec (.fence o) s = execFence o s from rfl, execFence, issue_ready ready, answer_eq]
  unfold fenceEffect
  cases order : o.order with
  | acq => rfl
  | rel => rw [releaseThen_of_releases (free (by simp [order]))]
  | sc => simp only [releaseThen_of_releases (free (by simp [order])), agent]
  | acqrel => simp only [releaseThen_of_releases (free (by simp [order])), agent]

theorem fenceEffect_issuer (o : OFence) (s : State) : (fenceEffect o s).issuer = s.issuer := by
  unfold fenceEffect
  split
  · exact acquire_issuer ..
  · exact release_issuer ..
  all_goals exact (acquire_issuer ..).trans (release_issuer ..)

/-- A fence completes the context in hand. -/
theorem cur_done_fenceEffect (o : OFence) {s : State} (h : s.curCtx < 8) : (done (.fence o) (fenceEffect o s)).cur = s.cur.past (.fence o) := by
  have same := fenceEffect_issuer o s
  rw [done, State.cur_setCur _ _ (curCtx_of_issuer same ▸ h), cur_of_issuer same]

section
variable {o : OFence} {s : State}

theorem fenceEffect_rel (h : o.order = .rel) : fenceEffect o s = release s s.curAgent o.scope := by rw [fenceEffect, h]
theorem fenceEffect_acq (h : o.order = .acq) : fenceEffect o s = acquire s s.curAgent o.scope := by rw [fenceEffect, h]

/-- Every fence that releases empties the buffer: the acquire behind it leaves the cores unchanged. -/
theorem wcb_fenceEffect (h : o.order ≠ .acq) (cluster : isRidge s.curAgent = false) (wide : Scope.ge o.scope .clu = true) :
    ((fenceEffect o s).core s.curAgent).wcb = [] := by
  have released := wcb_release s s.curAgent o.scope cluster wide
  unfold fenceEffect
  cases order : o.order with
  | acq => exact absurd order h
  | rel => exact released
  | sc => exact (congrArg Core.wcb (core_of_agents (acquire_agents ..) _)).trans released
  | acqrel => exact (congrArg Core.wcb (core_of_agents (acquire_agents ..) _)).trans released

/-- Every fence of a ridge core that acquires at `die` or wider invalidates the sarking copies: the release before it leaves them unchanged. -/
theorem sarkHit_fenceEffect (h : o.order ≠ .rel) (ridge : isRidge s.curAgent = true) (wide : Scope.ge o.scope .die = true) {line : Nat}
    {l : SLine} (found : (s.die (agentDie s.curAgent)).sark.find? line = some l) (valid : l.gen = (s.die (agentDie s.curAgent)).skgen) :
    sarkHit ((fenceEffect o s).die (agentDie s.curAgent)) line = none := by
  have same := release_sarking s s.curAgent o.scope ridge (agentDie s.curAgent)
  simp only [State.sarking, Prod.mk.injEq] at same
  obtain ⟨sark, gen⟩ := same
  have behind := sarkHit_acquire (release s s.curAgent o.scope) s.curAgent o.scope ridge wide (sark ▸ found) (valid.trans gen.symm)
  unfold fenceEffect
  cases order : o.order with
  | acq => exact sarkHit_acquire s s.curAgent o.scope ridge wide found valid
  | rel => exact absurd order h
  | sc => exact behind
  | acqrel => exact behind

end

/-- Settles O22: an accepted fence is `fenceEffect` and completes (`exec_fence`); what its release and acquire leave in the buffer, the L1, the
L2 and sarking is stated level by level above, and completing touches none of them. -/
theorem fencesPushAndDrop : Obligations.FencesPushAndDrop := by
  intro o s ready free
  have cur := cur_done_fenceEffect o ready.curCtx_lt
  refine ⟨_, exec_fence ready free, ?_, fun r => ?_, ?_, fun core => ?_, fun rel wide => ?_, fun ridge => ?_⟩
  · rw [cur, Ctx.past_pc]
  · rw [cur, Ctx.rG_past]
  · rw [cur, Ctx.past_flags]
  all_goals simp only [done, State.setCur_eq, State.core_setCtx_wcb, State.clu_setCtx, State.die_setCtx]
  · have cluster : isRidge s.curAgent = false := decide_eq_false (Nat.not_le.mpr core)
    refine ⟨fun order wide => wcb_fenceEffect order cluster wide, fun rel wide => ?_, fun acq wide => ?_⟩
    · rw [fenceEffect_rel rel]
      exact relMasks_l1_release s _ _ cluster wide
    · rw [fenceEffect_acq acq]
      exact relMasks_l1_acquire s _ _ cluster wide
  · rw [fenceEffect_rel rel]
    exact relMasks_l2_release s _ _ wide
  · have ridge : isRidge s.curAgent = true := decide_eq_true ridge
    refine ⟨fun acq wide => ?_, fun order wide line l found valid => sarkHit_fenceEffect order ridge wide found valid⟩
    rw [fenceEffect_acq acq]
    exact relMasks_l2_acquire s _ _ ridge wide

end Sys2Proof.Machine

/-! SUPPORT. O50 (R136, R219 to R222, R231 to R234, R376 to R378): what the movement of lines and stopping leave unchanged, and the instructions and
acknowledgements of pre-emption, migration and checkpoints. -/

namespace Sys2Proof.Machine

/-! The movement of lines changes neither the kernel table nor the quiescence of a checkpoint. -/

/-- The kernel table (R194) and whether a checkpoint has quiesced the device (R231). -/
def State.control (s : State) : Vector (Word × Word) 64 × Bool := (s.kt, s.quiesced)

theorem kt_of_control {s t : State} (h : t.control = s.control) : t.kt = s.kt := congrArg Prod.fst h
theorem quiesced_of_control {s t : State} (h : t.control = s.control) : t.quiesced = s.quiesced := congrArg Prod.snd h

section
variable (s : State)

theorem thatchEvict_control (line : Nat) : (thatchEvict s line).control = s.control := by
  unfold thatchEvict; split <;> rfl

theorem thatchFlush_control (p : Nat → Bool) : (thatchFlush s p).control = s.control :=
  foldl_keeps (fun t (q : Nat × TLine) => thatchEvict_control t q.1) _ s

theorem thatchPlace_control (line : Nat) : (thatchPlace s line).2.control = s.control := by
  unfold thatchPlace
  dsimp only
  split
  · rfl
  · split <;> [exact thatchEvict_control _ _; rfl]

theorem physPut_control (pa : Nat) (d : Line) (m : Mask) : (physPut s pa d m).control = s.control := by
  unfold physPut
  dsimp only
  split
  · rfl
  · split <;> [rfl; exact thatchPlace_control s (pa / 64)]

theorem physWrite_control (pa : Nat) (d : Line) (m : Mask) : (physWrite s pa d m).control = s.control := by
  have dirty (t : State) : (markDirty t pa).control = t.control := by
    unfold markDirty
    split <;> [rfl; exact physPut_control _ _ _ _]
  unfold physWrite
  split <;> [rfl; exact (dirty _).trans (physPut_control s pa d m)]

theorem pendOnce_control (e : Ev) : (s.pendOnce e).control = s.control := by
  unfold State.pendOnce; split <;> rfl

theorem pushCopy_control (page : Nat) (p : PageCopy) (want : Nat → Bool) : (pushCopy s page p want).control = s.control := by
  unfold pushCopy
  dsimp only
  split
  · rfl
  · split <;> [exact pendOnce_control _ _; rfl]

theorem l2Evict_control (die line : Nat) : (l2Evict s die line).control = s.control := by
  unfold l2Evict
  split <;> [rfl; exact ite_keeps (physWrite_control _ _ _ _)]

theorem l2Place_control (die line : Nat) : (l2Place s die line).2.control = s.control := by
  unfold l2Place
  dsimp only
  split
  · split <;> [exact l2Evict_control _ _ _; rfl]
  · rfl

theorem l2Fill_control (die line pa : Nat) (ty : PType) : (l2Fill s die line pa ty).2.control = s.control := by
  unfold l2Fill
  split <;> [rfl; exact l2Place_control s die line]

theorem l2Write_control (die line pa : Nat) (ty : PType) (dat : Line) (m : Mask) : (l2Write s die line pa ty dat m).control = s.control :=
  l2Fill_control s die line pa ty

theorem skFill_control (die line pa : Nat) (dat : Line) : (skFill s die line pa dat).control = s.control := by
  have place (t : State) : (skPlace t die line).2.control = t.control := by
    unfold skPlace
    dsimp only
    split <;> [rfl; rfl; (split <;> rfl)]
  unfold skFill
  split <;> [rfl; exact place _]

theorem outRead_control (die line pa : Nat) (ty : PType) : (outRead s die line pa ty).2.control = s.control := by
  unfold outRead
  split
  · exact l2Fill_control s die line pa ty
  · split <;> [rfl; exact skFill_control _ _ _ _ _]

theorem outWrite_control (die line pa : Nat) (ty : PType) (dat : Line) (m : Mask) : (outWrite s die line pa ty dat m).control = s.control := by
  have copy : (sarkUpdate s die line dat m).control = s.control := by unfold sarkUpdate; split <;> rfl
  unfold outWrite
  split <;> [exact l2Write_control s die line pa ty dat m; exact (physWrite_control _ pa dat m).trans copy]

theorem seqHome_control (line : Nat) (l : CLine) : (seqHome s line l).control = s.control := l2Write_control s _ line l.pa .seq l.data l.mask

theorem l1Evict_control (clu line : Nat) : (l1Evict s clu line).control = s.control := by
  have entry (t : State) : (dirDrop t clu line).control = t.control := by
    unfold dirDrop
    split <;> [rfl; (split <;> rfl); rfl]
  unfold l1Evict
  split
  · rfl
  next l _ =>
    refine (ite_keeps (view := State.control) (entry _)).trans ?_
    split
    · rfl
    · split <;> [exact seqHome_control s line l; exact outWrite_control s _ line l.pa l.ty l.data l.mask]

theorem l1Place_control (clu line : Nat) : (l1Place s clu line).2.control = s.control := by
  unfold l1Place
  dsimp only
  split
  · split <;> [exact l1Evict_control _ _ _; rfl]
  · rfl

theorem l1Write_control (clu line pa : Nat) (ty : PType) (dat : Line) (m : Mask) : (l1Write s clu line pa ty dat m).control = s.control := by
  have fill : (l1Fill s clu line pa ty).2.control = s.control := by
    unfold l1Fill
    split <;> [rfl; exact (outRead_control _ _ line pa ty).trans (l1Place_control s clu line)]
  exact fill

theorem wcbDrain_control (a : Nat) : (wcbDrain s a).control = s.control :=
  foldl_keeps (f := fun (t : State) e => wcbDrainOne t a e) (fun t _ => l1Write_control t _ _ _ _ _ _) _ _

theorem wcbEvict_control (a line : Nat) : (wcbEvict s a line).control = s.control := by
  unfold wcbEvict
  split <;> [rfl; exact l1Write_control _ _ _ _ _ _ _]

theorem pushL1_control (clu : Nat) (sc : Scope) (want : Nat → Bool) : (pushL1 s clu sc want).control = s.control := by
  refine foldl_keeps (fun t q => ?_) _ s
  dsimp only
  split <;> [rfl; exact outWrite_control t _ q.1 q.2.pa q.2.ty q.2.data q.2.mask]

theorem pushL2_control (die : Nat) (sc : Scope) (want : Nat → Bool) : (pushL2 s die sc want).control = s.control := by
  refine foldl_keeps (fun t q => ?_) _ s
  dsimp only
  split <;> [rfl; exact physWrite_control t q.2.pa q.2.data q.2.mask]

theorem dropL1_control (clu : Nat) (sc : Scope) (want : Nat → Bool) : (dropL1 s clu sc want).control = s.control := by
  refine foldl_keeps (fun t q => ?_) _ s
  dsimp only
  split
  · rfl
  · split <;> [rfl; exact outRead_control t _ q.1 q.2.pa q.2.ty]

theorem release_control (a : Nat) (sc : Scope) : (release s a sc).control = s.control := by
  have buffer : (releaseBuffer s a sc).control = s.control := ite_keeps (foldl_keeps (fun t (e : WcbEntry) => wcbEvict_control t a e.line) _ s)
  have pages (t : State) : (releasePages t sc).control = t.control :=
    ite_keeps (foldl_keeps (fun t (q : Nat × PageCopy) => pushCopy_control t q.1 q.2 _) _ t)
  rw [release_eq]
  refine (pages _).trans ((ite_keeps (pushL2_control _ _ sc _)).trans ?_)
  split <;> [rfl; exact (ite_keeps (pushL1_control _ _ sc _)).trans buffer]

theorem acquire_control (a : Nat) (sc : Scope) : (acquire s a sc).control = s.control := by
  refine (ite_keeps (dropL1_control _ _ sc _)).trans ?_
  split <;> split <;> rfl

/-- Writing everything back (R231 step 3) leaves the tables as they are. -/
theorem flushAll_control : (flushAll s).control = s.control := by
  unfold flushAll
  refine (thatchFlush_control _ _).trans ((foldl_keeps (fun t q => ?_) _ _).trans ((foldl_keeps (fun t q => ?_) _ _).trans (foldl_keeps (fun t q => ?_) _ s)))
  · refine foldl_keeps (fun t l => ?_) _ t
    dsimp only
    split <;> [rfl; exact physWrite_control t l.2.pa l.2.data l.2.mask]
  · refine foldl_keeps (fun t l => ?_) _ t
    dsimp only
    split
    · rfl
    · split <;> [exact seqHome_control t l.1 l.2; exact outWrite_control t _ _ _ _ _ _]
  · split <;> [rfl; exact wcbDrain_control t q.1]

end

/-! The two fences of a privileged instruction (R367). -/

section
variable (s : State)

theorem both_issuer : (Rule.both s).issuer = s.issuer := (acquire_issuer _ _ _).trans (release_issuer s _ _)
theorem both_cur : (Rule.both s).cur = s.cur := cur_of_issuer (both_issuer s)
theorem both_quiesced : (Rule.both s).quiesced = s.quiesced :=
  quiesced_of_control ((acquire_control _ _ _).trans (release_control s _ _))

end

/-- Where nothing holds the release back, a privileged instruction acts behind both. -/
theorem fenced_of_calm {s : State} (calm : Rule.calm s) (go : State → State) : fenced s go = go (Rule.both s) := by
  obtain ⟨updates, stores⟩ := calm
  have free : Rule.releases s .dev := ⟨by simp [releaseHeld, updates, stores], nofun⟩
  exact releaseThen_of_releases free _

/-! Save areas (R376). -/

section
variable {i : Instr} {s : State} {va : Word} {k : AKind}

/-- An accepted area is known by the place of its first byte. -/
theorem areaAccess_ok {p : Path} {bad : Bool} (aligned : va.toNat % 4096 = 0) (window : addrPart va / 2 ^ 48 < 0xF0)
    (r : resolve s (curAcc s) va 64 64 k .any = .ok p) (q : pathHold s (curAcc s) p 64 k = none) (fine : bad = false) (go : Nat → State) :
    areaAccess i s va k bad go = go (areaKey p) := by
  rw [areaAccess, if_neg (not_not.mpr aligned), if_neg (Nat.not_le.mpr window), localCheck_cons_of_resolve r, fine]
  exact access_ok _ r q

/-- An operand out of range, beside an area that passes the local checks (R209). -/
theorem areaAccess_bad {p : Path ⊕ Nat} (aligned : va.toNat % 4096 = 0) (window : addrPart va / 2 ^ 48 < 0xF0)
    (r : resolveLocal s (curAcc s) va 64 64 k = .ok p) (go : Nat → State) : areaAccess i s va k true go = raise i s 0x02 := by
  have passes : localCheck s (curAcc s) k [(va, 64, 64)] = none := by simp only [localCheck, r]
  rw [areaAccess, if_neg (not_not.mpr aligned), if_neg (Nat.not_le.mpr window), passes]
  rfl

end

/-! The set that G[a] of PREEMPT names (R376): a KID, cores of a cluster, the whole device, or none. -/

theorem stopSet_kernel {g : Word} (h : g.toNat < 2 ^ 16) : stopSet g = some (.kernel (g.setWidth 16)) := by
  have kind : bitsOf g 63 62 = 0 := by unfold bitsOf; omega
  have rest : bitsOf g 61 16 = 0 := by unfold bitsOf; omega
  simp only [stopSet, kind, rest, if_true]

theorem stopSet_device : stopSet (2 ^ 63) = some .device := by decide +kernel

theorem stopSet_none {g : Word} (h : 3 * 2 ^ 62 ≤ g.toNat) : stopSet g = none := by
  have kind : bitsOf g 63 62 = 3 := by unfold bitsOf; omega
  simp [stopSet, kind]

theorem mem_heldCores {s : State} {set : StopSet} {a : Nat} : a ∈ heldCores s set ↔ (∃ m, set = .cores m ∧ a ∈ m) ∧ (s.core a).held = false := by
  cases set <;> simp [heldCores]

theorem core_foldl_held (l : List Nat) (s : State) (a : Nat) :
    ((l.foldl (fun (s : State) b => s.modCore b fun o => { o with held := true }) s).core a).held = true ↔ (s.core a).held = true ∨ a ∈ l := by
  induction l generalizing s with
  | nil => simp
  | cons b l ih =>
    rw [List.foldl_cons, ih, State.modCore_eq, State.core_setCore, List.mem_cons]
    by_cases h : b = a
    · simp [h]
    · simp [h, Ne.symm h]

section
variable (s : State) (key : Nat) (v : SaveArea) (l : List StopUnit)

/-- A stop holds the cores that it names (R219). -/
theorem held_stopBegin (a : Nat) :
    ((stopBegin s key v l).core a).held = true ↔ (s.core a).held = true ∨ ∃ m, v.set = .cores m ∧ a ∈ m := by
  have told (t : State) : ((l.foldl (fun (s : State) u => s.pend (.preemptAck u)) t).core a).held = (t.core a).held :=
    foldl_keeps (view := fun t => (t.core a).held) (f := fun (s : State) u => s.pend (.preemptAck u)) (fun _ _ => rfl) l t
  rw [stopBegin, told, core_foldl_held, mem_heldCores]
  show (s.core a).held = true ∨ _ ↔ _
  cases (s.core a).held <;> simp

/-- Its save area waits for every unit, and gives back the cores that no other stop held (R376). -/
theorem saves_stopBegin : (stopBegin s key v l).saves = s.saves.set key { v with todo := l, cores := heldCores s v.set } := by
  unfold stopBegin
  refine (foldl_keeps (view := State.saves) (fun t u => ?_) l _).trans (foldl_keeps (view := State.saves) (fun t b => ?_) _ _) <;> rfl

end

/-! PREEMPT (R376). -/

/-- What PREEMPT does behind its fences, at an accepted area. -/
def preemptAt (o : OXDABC) (s : State) (key : Nat) (set : StopSet) : State :=
  match s.saves.find? key with
  | some v =>
    if v.busy && v.by_ = s.cur.task then
      if v.todo.isEmpty then
        match areaBad s (s.cur.rG o.b) v.bytes with
        | some (va, e) => refuse (.preempt o) s va e
        | none => give (.preempt o) { areaFill s (s.cur.rG o.b) v with saves := s.saves.set key { v with busy := false } } o.d (BitVec.ofNat 64 v.bytes)
      else waitFor s .retry
    else if v.busy then waitFor s .retry else execPreempt.preemptNew o (.preempt o) s key set
  | none => execPreempt.preemptNew o (.preempt o) s key set

theorem exec_preempt (o : OXDABC) (s : State) : exec (.preempt o) s = execPreempt o s := rfl

theorem exec_preempt_accepted {o : OXDABC} {s : State} {p : Path} {set : StopSet} (h : Ready (.preempt o) s)
    (aligned : (s.cur.rG o.b).toNat % 4096 = 0) (window : addrPart (s.cur.rG o.b) / 2 ^ 48 < 0xF0)
    (r : resolve s (curAcc s) (s.cur.rG o.b) 64 64 .wr .any = .ok p) (q : pathHold s (curAcc s) p 64 .wr = none)
    (some_ : stopSet (s.cur.rG o.a) = some set) (calm : Rule.calm s) :
    exec (.preempt o) s = .next (preemptAt o (Rule.both s) (areaKey p) set) := by
  rw [exec_preempt, execPreempt, issue_ready h, answer_eq]
  refine congrArg _ ((areaAccess_ok aligned window r q (by rw [some_]; rfl) _).trans ?_)
  rw [some_]
  refine (fenced_of_calm calm _).trans ?_
  rw [preemptAt, both_cur] <;> rfl

theorem exec_preempt_bad {o : OXDABC} {s : State} {p : Path ⊕ Nat} (h : Ready (.preempt o) s)
    (aligned : (s.cur.rG o.b).toNat % 4096 = 0) (window : addrPart (s.cur.rG o.b) / 2 ^ 48 < 0xF0)
    (r : resolveLocal s (curAcc s) (s.cur.rG o.b) 64 64 .wr = .ok p) (none_ : stopSet (s.cur.rG o.a) = none) :
    exec (.preempt o) s = .next (faultCur (.preempt o) s { code := 0x02 }) := by
  rw [exec_preempt, execPreempt, issue_ready h, answer_eq]
  simp only [none_, Option.isNone_none]
  rw [areaAccess_bad aligned window r]
  rfl

section
variable {o : OXDABC} {u : State} {key : Nat} {set : StopSet} {v : SaveArea}

/-- An area that no running PREEMPT has takes a new set. -/
theorem preemptAt_new (free : ∀ v, u.saves.find? key = some v → v.busy = false) :
    preemptAt o u key set = execPreempt.preemptNew o (.preempt o) u key set := by
  unfold preemptAt
  split
  next v found => simp [free v found]
  · rfl

/-- Its last unit has acknowledged: the area is written, and the instruction ends (R220). -/
theorem preemptAt_ends (found : u.saves.find? key = some v) (busy : v.busy = true) (mine : v.by_ = u.cur.task) (all : v.todo = [])
    (fits : areaBad u (u.cur.rG o.b) v.bytes = none) :
    preemptAt o u key set =
      give (.preempt o) { areaFill u (u.cur.rG o.b) v with saves := u.saves.set key { v with busy := false } } o.d (BitVec.ofNat 64 v.bytes) := by
  simp [preemptAt, found, busy, mine, all, fits]

theorem preemptAt_waits (found : u.saves.find? key = some v) (busy : v.busy = true) (other : v.by_ ≠ u.cur.task ∨ v.todo ≠ []) :
    preemptAt o u key set = waitFor u .retry := by
  simp only [preemptAt, found, busy, Bool.true_and, decide_eq_true_eq, if_true]
  split
  next mine =>
    have left : v.todo.isEmpty = false := by simpa [mine] using other
    rw [left]
    rfl
  · rfl

end

section
variable {o : OXDABC} {u : State} {key n : Nat} {set : StopSet}
variable (size : n = imageBytes (u.freeBits 32).2 (unitsOf u set u.cur.task) + (u.freeBits 32).1.toNat)
include size

/-- The room that G[c] gives is too small. -/
theorem preemptNew_small (h : u.cur.rG o.c < BitVec.ofNat 64 n) :
    execPreempt.preemptNew o (.preempt o) u key set = give (.preempt o) (u.freeBits 32).2 o.d (BitVec.ofNat 64 (2 ^ 63 + n)) := by
  subst size
  exact if_pos h

variable (enough : BitVec.ofNat 64 n ≤ u.cur.rG o.c)
include enough

theorem preemptNew_refused {va : Word} {e : AErr} (bad : areaBad (u.freeBits 32).2 (u.cur.rG o.b) n = some (va, e)) :
    execPreempt.preemptNew o (.preempt o) u key set = refuse (.preempt o) (u.freeBits 32).2 va e := by
  subst size
  refine (if_neg (BitVec.not_lt.mpr enough)).trans ?_
  split
  next found => cases found.symm.trans bad; rfl
  next found => cases found.symm.trans bad

/-- The stop begins, and PREEMPT waits for its acknowledgements. -/
theorem preemptNew_begins (fits : areaBad (u.freeBits 32).2 (u.cur.rG o.b) n = none) :
    execPreempt.preemptNew o (.preempt o) u key set =
      waitFor (stopBegin (u.freeBits 32).2 key { SaveArea.empty u.cur.task set with bytes := n } (unitsOf u set u.cur.task)) .retry := by
  subst size
  refine (if_neg (BitVec.not_lt.mpr enough)).trans ?_
  split
  next found => cases found.symm.trans fits
  next => rfl

end

/-! PREEMPT_ACK (R219, R220). -/

theorem exec_preemptAck (s : State) : exec .preemptAck s = execPreemptAck s := rfl

section
variable {s : State} {u : StopUnit} {key : Nat} {v : SaveArea} (ev : s.ev = some (.preemptAck u))
  (found : s.saves.findP (fun _ v => v.todo.contains u) = some (key, v))
include ev found

theorem exec_preemptAck_early (none_ : unitStop s v u = none) : exec .preemptAck s = .next s := by
  simp only [exec_preemptAck, execPreemptAck, ev, found, none_]

theorem exec_preemptAck_stops {t : State} {w : SaveArea} (stops : unitStop s v u = some (t, w)) :
    exec .preemptAck s = .next { t.took with saves := t.saves.set key { w with todo := w.todo.erase u } } := by
  simp only [exec_preemptAck, execPreemptAck, ev, found, stops, answer_eq]

end

/-! A context is saved (R221). -/

/-- Only a reserved start takes a context, and it takes a free one. -/
theorem free_of_serveHead {o : Core} {h : RefEntry} {k : Nat} (start : serveHead o h = some (.start, k)) :
    (vget o.ctxs k Ctx.reset).st = .free := by
  have taken : ctxFor o (vget o.handlers h.ch.toNat 0) = some k := by
    unfold serveHead at start
    grind [Option.map_eq_some_iff]
  simp only [ctxFor] at taken
  split at taken
  · cases taken
  next free =>
    split at taken
    · cases taken
      simpa using List.find?_some free
    · cases taken

theorem State.ctx_setCore_of_ctxs {s : State} {b : Nat} {c : Core} (h : c.ctxs = (s.core b).ctxs) (a k : Nat) :
    (s.setCore b c).ctx a k = s.ctx a k := by
  unfold State.ctx
  rw [State.core_setCore]
  split <;> [(subst_vars; rw [h]); rfl]

/-- Service of refused messages (R154) leaves every context alone that is not free. -/
theorem ctx_serveN {s : State} {a k : Nat} (h : (s.ctx a k).st ≠ .free) (b n : Nat) : (serveN s b n).ctx a k = s.ctx a k := by
  induction n generalizing s with
  | zero => rfl
  | succ n ih =>
    unfold serveN
    dsimp only
    split
    · rfl
    next r rest _ =>
      split
      · rfl
      next need j head =>
        have reserved : (if need == .start then reserveCtx s b j (vget (s.core b).handlers r.ch.toNat 0) else s).ctx a k = s.ctx a k := by
          split
          next start =>
            obtain rfl := beq_iff_eq.mp start
            refine State.ctx_setCtx_other _ _ _ _ _ _ ?_
            by_contra! same
            obtain ⟨rfl, rfl⟩ := same
            exact h (free_of_serveHead head)
          · rfl
        have noted (t u : State) (p : Prop) [Decidable p] (e : Ev) (same : u.ctx a k = t.ctx a k) :
            (if p then t.pend e else u).ctx a k = t.ctx a k := by
          split <;> [rfl; exact same]
        have rest (t : State) (same : t.ctx a k = s.ctx a k) : (serveN t b n).ctx a k = s.ctx a k := (ih (same ▸ h)).trans same
        refine rest _ ((noted _ _ _ _ ?_).trans ((State.ctx_setCore_of_ctxs ?_ a k).trans reserved)) <;> rfl

theorem ctx_serve {s : State} {a k : Nat} (h : (s.ctx a k).st ≠ .free) (b : Nat) : (serve s b).ctx a k = s.ctx a k := ctx_serveN h b 64

/-- Where a context stands: its PC and its task. -/
def State.place (s : State) (a k : Nat) : Word × BitVec 32 := ((s.ctx a k).pc, (s.ctx a k).task)

theorem landValue_place (s : State) (l : Landing) (a k : Nat) : (landValue s l).place a k = s.place a k := by
  unfold landValue
  dsimp only
  split
  · rfl
  · rw [State.place, State.ctx_setCtx]
    split
    next same =>
      obtain ⟨rfl, rfl, -⟩ := same
      cases l.vec <;> simp [State.place]
    · rfl

/-- The loads of a context land in its registers alone. -/
theorem landAll_place (s : State) (a k b j : Nat) : (landAll s a k).place b j = s.place b j := by
  refine foldl_keeps (view := fun t : State => t.place b j) (fun t e => ?_) _ _
  split <;> [exact landValue_place t _ b j; rfl]

theorem withdraw_place (s : State) (a k : Nat) (h : k < 8) : (withdraw s a k).place a k = s.place a k := by
  rw [withdraw, State.place, State.ctx_setCtx_same _ _ _ _ h]
  rfl

/-- A context that is saved keeps its PC and its task; its lane slices and its place in a VSP are given up. -/
theorem ctxSave_saves (s : State) (a k : Nat) (h : k < 8) :
    (((ctxSave s a k).1.ctx a k).st = .saved ∧ ((ctxSave s a k).1.ctx a k).pc = (s.ctx a k).pc ∧
      ((ctxSave s a k).1.ctx a k).task = (s.ctx a k).task ∧ ((ctxSave s a k).1.ctx a k).lane = false ∧ ((ctxSave s a k).1.ctx a k).vsp = false) := by
  have place := (withdraw_place (landAll s a k) a k h).trans (landAll_place s a k a k)
  simp only [ctxSave]
  rw [ctx_serve (by rw [State.ctx_setCtx_same _ _ _ _ h]; nofun), State.ctx_setCtx_same _ _ _ _ h]
  exact ⟨rfl, congrArg Prod.fst place, congrArg Prod.snd place, rfl, rfl⟩

/-! RESTORE (R376, R222). -/

/-- What RESTORE does behind its fences. -/
def restoreAt (o : OXDA) (s : State) (key : Nat) : State :=
  match s.saves.find? key with
  | none => give (.restore o) s o.d 1
  | some v =>
    if !v.todo.isEmpty || s.quiesced then waitFor s .retry else
    match areaRestore s v with
    | none => waitFor s .retry
    | some w => give (.restore o) { w with saves := w.saves.erase key } o.d 0

theorem exec_restore_accepted {o : OXDA} {s : State} {p : Path} (h : Ready (.restore o) s)
    (aligned : (s.cur.rG o.a).toNat % 4096 = 0) (window : addrPart (s.cur.rG o.a) / 2 ^ 48 < 0xF0)
    (r : resolve s (curAcc s) (s.cur.rG o.a) 64 64 .rd .any = .ok p) (q : pathHold s (curAcc s) p 64 .rd = none) (calm : Rule.calm s) :
    exec (.restore o) s = .next (restoreAt o (Rule.both s) (areaKey p)) := by
  rw [show exec (.restore o) s = execRestore o s from rfl, execRestore, issue_ready h, answer_eq]
  dsimp only
  rw [areaAccess_ok aligned window r q rfl, fenced_of_calm calm]
  rfl

section
variable {o : OXDA} {u : State} {key : Nat} {v : SaveArea}

theorem restoreAt_none (none_ : u.saves.find? key = none) : restoreAt o u key = give (.restore o) u o.d 1 := by
  simp only [restoreAt, none_]

variable (found : u.saves.find? key = some v) (all : v.todo = []) (runs : u.quiesced = false)
include found all runs

theorem restoreAt_restores {w : State} (back : areaRestore u v = some w) :
    restoreAt o u key = give (.restore o) { w with saves := w.saves.erase key } o.d 0 := by
  simp [restoreAt, found, all, runs, back]

theorem restoreAt_waits (taken : areaRestore u v = none) : restoreAt o u key = waitFor u .retry := by
  simp [restoreAt, found, all, runs, taken]

end

theorem findTask_lt {s : State} {t : BitVec 32} {a k : Nat} (h : s.findTask t = some (a, k)) : k < 8 := by
  obtain ⟨q, -, inCore⟩ := List.exists_of_findSome?_eq_some h
  obtain ⟨j, mem, here⟩ := List.exists_of_findSome?_eq_some inCore
  dsimp only at here
  split at here
  · cases here
    exact List.mem_range.mp mem
  · cases here

@[simp] theorem ctx_pendOnce (s : State) (e : Ev) (a k : Nat) : (s.pendOnce e).ctx a k = s.ctx a k := by
  unfold State.pendOnce; split <;> rfl

/-- A restored context goes LIVE, or FROZEN again (R222), where it stood. -/
theorem ctxRestore_restores {s t : State} {x : SavedCtx} {a k : Nat} (found : s.findTask x.task = some (a, k)) (saved : (s.ctx a k).st = .saved)
    (back : ctxRestore s x = some t) :
    (t.ctx a k).st = (if (s.ctx a k).frozenBy.isSome then .frozen else .live) ∧ (t.ctx a k).pc = (s.ctx a k).pc ∧ (t.ctx a k).g = (s.ctx a k).g := by
  simp only [ctxRestore, found, saved, bne_self_eq_false, Bool.false_eq_true, if_false] at back
  split at back
  · cases back
  · injection back with back
    have placed (t : State) (c : Ctx) : (t.setCtx a k c).ctx a k = c := State.ctx_setCtx_same t a k c (findTask_lt found)
    split at back
    · split at back <;> subst back <;> simp [placed]
    · subst back
      simp [placed]

/-! MIGRATE (R136, R377). -/

/-- The cycle from which the instruction in hand has waited. -/
def waitSince (s : State) : Nat := match s.cur.wait with | some w => w.since | none => s.now

/-- What MIGRATE does behind its fences with a task that stands in context `k` of core `a`. -/
def migrateAt (o : OXDABC) (s : State) (a k : Nat) : State :=
  let i : Instr := .migrate o
  let b := (s.cur.rG o.b).toNat
  let limit := (s.cur.rG o.c).toNat
  if (s.ctx a k).st ≠ .live then give i s o.d 1
  else if agentWorld s b ≠ agentWorld s a then give i s o.d 4
  else if waysShared s a k = true then give i s o.d 3
  else if a = b then give i s o.d 0
  else if moveBusy s a k = true then waitFor s .retry
  else if moveRoom s a b (s.ctx a k) = false then if limit ≠ 0 ∧ waitSince s + limit ≤ s.now then give i s o.d 2 else waitFor s .retry
  else moveTask (give i s o.d 0) a k b

section
variable {o : OXDABC} {s : State} (h : Ready (.migrate o) s) (task : (s.cur.rG o.a).toNat < 2 ^ 32) (core : (s.cur.rG o.b).toNat < 2048)
  (calm : Rule.calm s)
include h task core calm

theorem exec_migrate_gone (gone : s.findTask ((s.cur.rG o.a).setWidth 32) = none) :
    exec (.migrate o) s = .next (give (.migrate o) (Rule.both s) o.d 1) := by
  rw [show exec (.migrate o) s = execMigrate o s from rfl, execMigrate, issue_ready h, answer_eq]
  simp only [Nat.not_le.mpr task, Nat.not_le.mpr core, gone, if_false, Bool.false_eq_true]
  rw [fenced_of_calm calm]

theorem exec_migrate_found {a k : Nat} (found : s.findTask ((s.cur.rG o.a).setWidth 32) = some (a, k))
    (served : serves s s.curAgent (s.ctx a k).kid = true) : exec (.migrate o) s = .next (migrateAt o (Rule.both s) a k) := by
  rw [show exec (.migrate o) s = execMigrate o s from rfl, execMigrate, issue_ready h, answer_eq]
  simp only [Nat.not_le.mpr task, Nat.not_le.mpr core, found, served, if_false, Bool.false_eq_true, Bool.not_true]
  rw [fenced_of_calm calm, migrateAt, waitSince, both_cur]
  simp <;> rfl

end

section
variable {o : OXDABC} {u : State} {a k : Nat}

theorem migrateAt_stopped (stopped : (u.ctx a k).st ≠ .live) : migrateAt o u a k = give (.migrate o) u o.d 1 := if_pos stopped

variable (live : (u.ctx a k).st = .live)
include live

theorem migrateAt_far (far : agentWorld u (u.cur.rG o.b).toNat ≠ agentWorld u a) : migrateAt o u a k = give (.migrate o) u o.d 4 := by
  rw [migrateAt, if_neg (not_not.mpr live), if_pos far]

variable (near : agentWorld u (u.cur.rG o.b).toNat = agentWorld u a)
include near

theorem migrateAt_shared (shared : waysShared u a k = true) : migrateAt o u a k = give (.migrate o) u o.d 3 := by
  rw [migrateAt, if_neg (not_not.mpr live), if_neg (not_not.mpr near), if_pos shared]

variable (own : waysShared u a k = false)
include own

theorem migrateAt_own_core (here : a = (u.cur.rG o.b).toNat) : migrateAt o u a k = give (.migrate o) u o.d 0 := by
  rw [migrateAt, if_neg (not_not.mpr live), if_neg (not_not.mpr near), if_neg (by simp [own]), if_pos here]

variable (other : a ≠ (u.cur.rG o.b).toNat)
include other

theorem migrateAt_other_core : migrateAt o u a k =
    if moveBusy u a k = true then waitFor u .retry
    else if moveRoom u a (u.cur.rG o.b).toNat (u.ctx a k) = false then
      if (u.cur.rG o.c).toNat ≠ 0 ∧ waitSince u + (u.cur.rG o.c).toNat ≤ u.now then give (.migrate o) u o.d 2 else waitFor u .retry
    else moveTask (give (.migrate o) u o.d 0) a k (u.cur.rG o.b).toNat := by
  rw [migrateAt, if_neg (not_not.mpr live), if_neg (not_not.mpr near), if_neg (by simp [own]), if_neg other]

end

theorem waysShared_iff (s : State) (a k : Nat) : waysShared s a k = true ↔
    (s.ctx a k).claim ≠ 0 ∧ ∃ j, j < 8 ∧ j ≠ k ∧ (s.ctx a j).st = .live ∧ (s.ctx a j).claim ≠ 0 := by
  simp [waysShared, and_assoc]

/-! CKPT (R231, R232, R234, R378). -/

/-- What CKPT does with the descriptor that it has read. -/
def ckptRun (i : Instr) (d : Reg) (r : Nat × State) : State :=
  let tier := r.1 % 2 ^ 64
  if 3 < r.1 / 2 ^ 128 % 2 ^ 32 ∨ r.1 / 2 ^ 160 % 2 ^ 96 ≠ 0 ∨ 2 ^ 52 ≤ tier then faultCur i r.2 { code := 0x02 }
  else if tier % 4096 ≠ 0 then faultCur i r.2 { code := 0x04 }
  else match ckptTry r.2 (r.1 / 2 ^ 128 % 2 ^ 32) tier (r.1 / 2 ^ 64 % 2 ^ 64) 0 with
    | (s, none) => waitFor s .retry
    | (s, some v) => give i s d v

/-- The four rows of CKPT are one operation. -/
theorem exec_ckptForm {i : Instr} {o : OXDA} (h : Rule.ckptForm i = some o) (s : State) : exec i s = ckptForm i o s := by
  unfold Rule.ckptForm at h
  split at h <;> cases h <;> rfl

theorem exec_ckpt_accepted {i : Instr} {o : OXDA} {s : State} {p : Path} (form : Rule.ckptForm i = some o) (h : Ready i s)
    (may : s.curAgent = 2048 ∨ s.curAgent = monitor) (r : resolve s (curAcc s) (s.cur.rG o.a) 32 32 .rd .any = .ok p)
    (q : pathHold s (curAcc s) p 32 .rd = none) (calm : Rule.calm s) :
    exec i s = .next (ckptRun i o.d (readPath (taintAcquire (Rule.both s) (s.cur.taintG o.a)) (curAcc (Rule.both s)) p 32)) := by
  have may : (!(s.curAgent == 2048 || s.curAgent == monitor)) = false := by rcases may with ridge | ridge <;> simp [ridge]
  rw [exec_ckptForm form, ckptForm, issue_ready h, answer_eq]
  simp only [may, Bool.false_eq_true, if_false]
  rw [access_ok _ r q, fenced_of_calm calm, ckptRun]
  simp [or_assoc, raise] <;> rfl

section
variable (s : State) (tier len : Nat) (who : BitVec 32)

/-- A device that is not quiesced has nothing to resume, and begins a stream by quiescing (R231). -/
theorem ckptTry_running (runs : s.quiesced = false) : ckptTry s 3 tier len who = (s, some 0) ∧
    (ckptTry s 0 tier len who).1.quiesced = true ∧ (ckptTry s 0 tier len who).2 = none := by
  simp [ckptTry, runs]

theorem ckptTry_no_image (none_ : s.tiers.find? tier = none) : ckptTry s 2 tier len who = (s, some (BitVec.ofNat 64 (2 ^ 63))) := by
  simp [ckptTry, none_]

/-- A full stream that does not fail leaves an image of every frame and of the kernel table in its range. -/
theorem ckptStream_image {area : SaveArea} {w : State} {v : Word} (h : ckptStream s false tier len area = (w, v)) (ok : v.toNat < 2 ^ 63) :
    ∃ x, w.tiers.find? tier = some x ∧ x.frames = none ∧ x.bytes ≤ len ∧ x.kt = s.kt := by
  unfold ckptStream at h
  simp only [Bool.false_eq_true, if_false] at h
  split at h
  · cases h
    exact absurd ok (by decide)
  next fits =>
    cases h
    have small : allFrames + ((flushAll s).freeBits 32).1.toNat ≤ len := by
      simp only [Bool.or_eq_true, decide_eq_true_eq, not_or, Nat.not_lt] at fits
      exact fits.1
    exact ⟨_, (SMap.find?_set _ _ _ _).trans (if_pos rfl), rfl, small, kt_of_control (flushAll_control s)⟩

theorem ckptTry_streams {w : State} {v : Word} (still : s.quiesced = true) (h : ckptTry s 0 tier len who = (w, some v)) :
    ∃ area, ckptStream s false tier len area = (w, v) := by
  simp only [ckptTry, still, Nat.zero_le, if_true, Bool.not_true, Bool.false_eq_true, if_false] at h
  split at h
  · cases h
  next area _ =>
    split at h
    · cases h
    · exact ⟨area, by cases h; rfl⟩

end

/-- Settles O50: each instruction is its action between two fences, at an accepted area or descriptor, and the acknowledgement, the save and the
restore of a context are the model's steps themselves. -/
theorem workIsStoppedSavedAndMoved : Obligations.WorkIsStoppedSavedAndMoved := by
  refine ⟨fun o s p set h aligned window r q some_ calm => ?_, fun o s p h aligned window r none_ => exec_preempt_bad h aligned window r none_,
    fun s key v l a => ⟨held_stopBegin s key v l a, fun w found => ?_⟩, fun g => ⟨stopSet_kernel, fun e => e ▸ stopSet_device, stopSet_none⟩,
    fun s t u key v w ev found => ⟨exec_preemptAck_early ev found, exec_preemptAck_stops ev found⟩, fun s a k h => ctxSave_saves s a k h,
    fun o s p h aligned window r q calm runs => ?_, fun s t x a k found saved back => ctxRestore_restores found saved back,
    fun o s a k h task core calm => ⟨exec_migrate_gone h task core calm, fun found served => ?_⟩, waysShared_iff,
    fun i o s p form h may r q calm => ?_, fun s tier len who => ⟨ckptTry_running s tier len who, ckptTry_no_image s tier len who, fun w v still h ok => ?_⟩⟩
  · rw [exec_preempt_accepted h aligned window r q some_ calm, ← both_cur s]
    refine ⟨fun free => ?_, fun v found busy mine all fits => ?_, fun v found busy other => ?_⟩
    · rw [preemptAt_new free]
      refine ⟨fun small => ?_, fun x e enough bad => ?_, fun enough fits => ?_⟩
      · rw [preemptNew_small rfl small]
      · rw [preemptNew_refused rfl enough bad]
      · rw [preemptNew_begins rfl enough fits]
        rfl
    · rw [preemptAt_ends found busy mine all fits]
    · rw [preemptAt_waits found busy other]
  · rw [saves_stopBegin, SMap.find?_set, if_pos rfl] at found
    cases found
    exact ⟨rfl, fun b mem => (mem_heldCores.mp mem).2⟩
  · rw [exec_restore_accepted h aligned window r q calm]
    have runs := (both_quiesced s).trans runs
    refine ⟨fun none_ => ?_, fun v w found all back => ?_, fun v found all taken => ?_⟩
    · rw [restoreAt_none none_]
    · rw [restoreAt_restores found all runs back]
    · rw [restoreAt_waits found all runs taken]
  · rw [exec_migrate_found h task core calm found served, ← both_cur s]
    refine ⟨fun stopped => ?_, fun live far => ?_, fun live near => ⟨fun shared => ?_, fun own here => ?_, fun own other => ?_⟩⟩
    · rw [migrateAt_stopped stopped]
    · rw [migrateAt_far live far]
    · rw [migrateAt_shared live near shared]
    · rw [migrateAt_own_core live near own here]
    · rw [migrateAt_other_core live near own other]
      refine ⟨fun busy => ?_, fun idle => ⟨fun room => ?_, fun full => ?_⟩⟩
      · rw [if_pos busy]
      · rw [if_neg (by simp [idle]), if_neg (by simp [room])]
      · rw [if_neg (by simp [idle]), if_pos full]
        rfl
  · rw [exec_ckpt_accepted form h may r q calm]
    refine ⟨fun bad => ?_, fun good odd => ?_, fun good aligned => ⟨fun w v result => ?_, fun w result => ?_⟩⟩
    · rw [ckptRun, if_pos bad]
    · rw [ckptRun, if_neg good, if_pos odd]
    · rw [ckptRun, if_neg good, if_neg (not_not.mpr aligned), result]
    · rw [ckptRun, if_neg good, if_neg (not_not.mpr aligned), result]
  · obtain ⟨area, streamed⟩ := ckptTry_streams s tier len who still h
    exact ckptStream_image s tier len streamed ok

end Sys2Proof.Machine

/-! SUPPORT. O42 (R137, R140 to R142, R145, R285 to R287): the fields of subscription entries, what the steps of a subscription leave unchanged,
and its instructions and events. -/

namespace Sys2Proof.Machine

/-! Fields of a register that is written field by field. -/

theorem bitsOf_eq_extractLsb' {w : Nat} (x : BitVec w) (hi lo : Nat) : bitsOf x hi lo = (x.extractLsb' lo (hi + 1 - lo)).toNat := by
  rw [bitsOf, BitVec.extractLsb'_toNat, Nat.shiftRight_eq_div_pow]

section
variable {w : Nat} (x : BitVec w) {hi lo : Nat} (v : Nat) (le : lo ≤ hi) (lt : hi < w)
include le lt

theorem extractLsb'_putBits_same : (putBits x hi lo v).extractLsb' lo (hi + 1 - lo) = BitVec.ofNat (hi + 1 - lo) v := by
  refine BitVec.eq_of_getLsbD_eq fun i h => ?_
  rw [BitVec.getLsbD_extractLsb', getLsbD_putBits _ _ _ _ _ le (by omega), if_pos (by omega), BitVec.getLsbD_ofNat, Nat.add_sub_cancel_left]

omit lt in
theorem extractLsb'_putBits_other {l n : Nat} (apart : l + n ≤ lo ∨ hi < l) (inside : l + n ≤ w) :
    (putBits x hi lo v).extractLsb' l n = x.extractLsb' l n := by
  refine BitVec.eq_of_getLsbD_eq fun i h => ?_
  rw [BitVec.getLsbD_extractLsb', BitVec.getLsbD_extractLsb', getLsbD_putBits _ _ _ _ _ le (by omega), if_neg (by omega)]

theorem bitsOf_putBits_same : bitsOf (putBits x hi lo v) hi lo = v % 2 ^ (hi + 1 - lo) := by
  rw [bitsOf_eq_extractLsb', extractLsb'_putBits_same x v le lt, BitVec.toNat_ofNat]

omit lt in
theorem bitsOf_putBits_other {h l : Nat} (apart : h < lo ∨ hi < l) (order : l ≤ h) (inside : h < w) :
    bitsOf (putBits x hi lo v) h l = bitsOf x h l := by
  rw [bitsOf_eq_extractLsb', bitsOf_eq_extractLsb', extractLsb'_putBits_other x v le (by omega) (by omega)]

omit lt in
theorem bit_putBits_other {i : Nat} (apart : i < lo ∨ hi < i) (inside : i < w) : bit (putBits x hi lo v) i = bit x i := by
  rw [bit, bit, getLsbD_putBits _ _ _ _ _ le inside, if_neg (by omega)]

end

/-! Entries (R138, R139). -/

section
variable (e : BitVec 128) (v : Nat) (b : Bool)

@[simp] theorem Pub.outst_putBits_outst : Pub.outst (putBits e 75 64 v) = v % 4096 := bitsOf_putBits_same e v (by decide) (by decide)
@[simp] theorem Pub.valid_putBits_outst : Pub.valid (putBits e 75 64 v) = Pub.valid e := bit_putBits_other e v (by decide) (by decide) (by decide)

@[simp] theorem Sub.state_putBits_state : Sub.state (putBits e 126 125 v) = v % 4 := bitsOf_putBits_same e v (by decide) (by decide)
@[simp] theorem Sub.valid_putBits_state : Sub.valid (putBits e 126 125 v) = Sub.valid e := bit_putBits_other e v (by decide) (by decide) (by decide)
@[simp] theorem Sub.seq_putBits_state : Sub.seq (putBits e 126 125 v) = Sub.seq e := extractLsb'_putBits_other e v (by decide) (by decide) (by decide)
@[simp] theorem Sub.seq_putBits_seq : Sub.seq (putBits e 63 32 v) = BitVec.ofNat 32 v := extractLsb'_putBits_same e v (by decide) (by decide)

/-- NPEND stands apart from the other fields. -/
@[simp] theorem Sub.state_setBit_npend : Sub.state (setBit e 0 b) = Sub.state e := bitsOf_putBits_other e _ (by decide) (by decide) (by decide) (by decide)
@[simp] theorem Sub.valid_setBit_npend : Sub.valid (setBit e 0 b) = Sub.valid e := bit_putBits_other e _ (by decide) (by decide) (by decide)
@[simp] theorem Sub.seq_setBit_npend : Sub.seq (setBit e 0 b) = Sub.seq e := extractLsb'_putBits_other e _ (by decide) (by decide) (by decide)

end

/-- The fields of a region that lies in the scratchpad stay below the others. -/
theorem regionBits_lt {off len : Nat} (ho : off / 64 < 2 ^ 13) (hl : len / 64 - 1 < 64) : regionBits off len < 2 ^ 32 := by
  unfold regionBits; omega

/-- A field between two others is zero where nothing is put. -/
theorem middle_of_low {q r : Nat} (h : r < 2 ^ 32) : (q * 2 ^ 64 + r) / 2 ^ 32 % 2 ^ 32 = 0 := by omega

section
variable {kid : BitVec 16} {peer idx off len : Nat} (hp : peer < 2 ^ 16) (hi : idx < 16) (ho : off / 64 < 2 ^ 13) (hl : len / 64 - 1 < 64)
include hp hi ho hl

theorem toNat_pubEntry : (pubEntry kid peer idx off len).toNat =
    2 ^ 127 + kid.toNat * 2 ^ 96 + peer * 2 ^ 80 + idx * 2 ^ 76 + regionBits off len := by
  have kid16 := kid.isLt
  have region := regionBits_lt ho hl
  rw [pubEntry, BitVec.toNat_ofNat, Nat.mod_eq_of_lt (by omega)]

theorem Pub.fields_pubEntry : let e := pubEntry kid peer idx off len
    Pub.valid e = true ∧ Pub.kid e = kid ∧ Pub.sub e = peer ∧ Pub.subIdx e = idx ∧ Pub.len e = (len / 64 - 1 + 1) * 64 := by
  have kid16 := kid.isLt
  have region := regionBits_lt ho hl
  have value := toNat_pubEntry (kid := kid) hp hi ho hl
  refine ⟨?_, BitVec.eq_of_toNat_eq ?_, ?_, ?_, ?_⟩
  · rw [Pub.valid, bit, BitVec.getLsbD, value, Nat.testBit_eq_decide_div_mod_eq, decide_eq_true_eq]
    omega
  · rw [Pub.kid, BitVec.extractLsb'_toNat, value, Nat.shiftRight_eq_div_pow]
    omega
  · rw [Pub.sub, bitsOf, value]
    omega
  · rw [Pub.subIdx, bitsOf, value]
    omega
  · rw [Pub.len, bitsOf, value]
    unfold regionBits
    omega

/-- A new subscriber entry awaits its first update (R137). -/
theorem Sub.fields_subEntry (nen : Bool) (nch : BitVec 6) : let e := subEntry kid nen nch peer idx off len
    Sub.valid e = true ∧ Sub.state e = 1 ∧ Sub.seq e = 0 := by
  have kid16 := kid.isLt
  have nch6 := nch.isLt
  have nen1 := nen.toNat_lt
  have region := regionBits_lt ho hl
  have value : (subEntry kid nen nch peer idx off len).toNat = 2 ^ 127 + 2 ^ 125 + nen.toNat * 2 ^ 124 + nch.toNat * 2 ^ 118 + kid.toNat * 2 ^ 96 +
      peer * 2 ^ 80 + idx * 2 ^ 76 + regionBits off len := by
    rw [subEntry, BitVec.toNat_ofNat, Nat.mod_eq_of_lt (by omega)]
  refine ⟨?_, ?_, BitVec.eq_of_toNat_eq ?_⟩
  · rw [Sub.valid, bit, BitVec.getLsbD, value, Nat.testBit_eq_decide_div_mod_eq, decide_eq_true_eq]
    omega
  · rw [Sub.state, bitsOf, value]
    omega
  · have shape : 2 ^ 127 + 2 ^ 125 + nen.toNat * 2 ^ 124 + nch.toNat * 2 ^ 118 + kid.toNat * 2 ^ 96 + peer * 2 ^ 80 + idx * 2 ^ 76 =
        (2 ^ 63 + 2 ^ 61 + nen.toNat * 2 ^ 60 + nch.toNat * 2 ^ 54 + kid.toNat * 2 ^ 32 + peer * 2 ^ 16 + idx * 2 ^ 12) * 2 ^ 64 := by ring
    rw [Sub.seq, BitVec.extractLsb'_toNat, value, shape, Nat.shiftRight_eq_div_pow, middle_of_low region]
    rfl

end

/-! The tables of a core. -/

section
variable (s : State) (a i : Nat) (e : BitVec 128)

theorem pubAt_setPub (h : i < 16) : pubAt (setPub s a i e) a i = e := by simp [pubAt, setPub, vget_vset, h]
theorem subAt_setSub (h : i < 16) : subAt (setSub s a i e) a i = e := by simp [subAt, setSub, vget_vset, h]

theorem pubPend_setPub : ((setPub s a i e).core a).pubPend = (s.core a).pubPend := by simp [setPub]

@[simp] theorem subAt_setPub (b j : Nat) : subAt (setPub s a i e) b j = subAt s b j := by
  unfold subAt setPub
  rw [State.modCore_eq, State.core_setCore]
  split <;> [(subst_vars; rfl); rfl]

@[simp] theorem ctx_setPub (b k : Nat) : (setPub s a i e).ctx b k = s.ctx b k :=
  State.ctx_setCore_of_ctxs (s := s) (c := { s.core a with pubs := vset (s.core a).pubs i e }) rfl b k
@[simp] theorem ctx_setSub (b k : Nat) : (setSub s a i e).ctx b k = s.ctx b k :=
  State.ctx_setCore_of_ctxs (s := s) (c := { s.core a with subs := vset (s.core a).subs i e }) rfl b k

end

theorem lt_of_freePub {s : State} {a i : Nat} (h : freePub s a = some i) : i < 16 := List.mem_range.mp (List.mem_of_find?_eq_some h)
theorem lt_of_freeSub {s : State} {a i : Nat} (h : freeSub s a = some i) : i < 16 := List.mem_range.mp (List.mem_of_find?_eq_some h)

/-! What leaves a core's entries as they are. -/

/-- The event in hand, and the publisher and subscriber entries of a core. -/
def State.entries (b : Nat) (s : State) : Option Ev × Vector (BitVec 128) 16 × Vector (BitVec 128) 16 := (s.ev, (s.core b).pubs, (s.core b).subs)

/-- What the freeing of scratchpad ways leaves unchanged: the entries and the contexts of a core, the context in hand, and what is pending. -/
def State.offWays (b : Nat) (s : State) := (s.entries b, (s.core b).ctxs, s.curAgent, s.curCtx, s.pending)

section
variable {s t : State} {b : Nat}

theorem ev_of_entries (h : t.entries b = s.entries b) : t.ev = s.ev := congrArg Prod.fst h
theorem pubAt_of_entries (h : t.entries b = s.entries b) (i : Nat) : pubAt t b i = pubAt s b i := by
  have table : (t.core b).pubs = (s.core b).pubs := congrArg (fun v => v.2.1) h
  rw [pubAt, table, pubAt]
theorem subAt_of_entries (h : t.entries b = s.entries b) (i : Nat) : subAt t b i = subAt s b i := by
  have table : (t.core b).subs = (s.core b).subs := congrArg (fun v => v.2.2) h
  rw [subAt, table, subAt]
theorem entries_of_offWays (h : t.offWays b = s.offWays b) : t.entries b = s.entries b := congrArg Prod.fst h
theorem pending_of_offWays (h : t.offWays b = s.offWays b) : t.pending = s.pending := congrArg (fun v => v.2.2.2.2) h

theorem issuer_of_offWays (h : t.offWays s.curAgent = s.offWays s.curAgent) : t.issuer = s.issuer := by
  simp only [State.offWays, Prod.mk.injEq] at h
  obtain ⟨-, ctxs, agent, ctx, -⟩ := h
  simp only [State.issuer, State.cur, State.ctx, agent, ctx, ctxs]

end

section
variable (s : State) (b : Nat)

theorem offWays_setCore {a : Nat} {c : Core} (ctxs : c.ctxs = (s.core a).ctxs) (pubs : c.pubs = (s.core a).pubs) (subs : c.subs = (s.core a).subs) :
    (s.setCore a c).offWays b = s.offWays b := by
  simp only [State.offWays, State.entries, State.core_setCore]
  split <;> [(subst_vars; rw [ctxs, pubs, subs]; rfl); rfl]

theorem entries_setCore {a : Nat} {c : Core} (pubs : c.pubs = (s.core a).pubs) (subs : c.subs = (s.core a).subs) :
    (s.setCore a c).entries b = s.entries b := by
  simp only [State.entries, State.core_setCore]
  split <;> [(subst_vars; rw [pubs, subs]; rfl); rfl]

theorem entries_setCtx (a k : Nat) (c : Ctx) : (s.setCtx a k c).entries b = s.entries b := entries_setCore s b rfl rfl

/-- Freeing ways (R81) touches no entry. -/
theorem leaveWays_offWays (a : Nat) : (leaveWays s a).offWays b = s.offWays b := by
  refine foldl_keeps (view := State.offWays b) (fun t j => ?_) _ s
  have zeroed (u : State) : (zeroWay u a j).offWays b = u.offWays b := offWays_setCore u b rfl rfl rfl
  have way (w : WaySt) : (t.setCore a (setSpWay (t.core a) j w)).offWays b = t.offWays b := offWays_setCore t b rfl rfl rfl
  dsimp only
  split
  · split
    · split <;> [exact way _; exact (zeroed _).trans (way _)]
    · exact (zeroed _).trans (way _)
  · rfl

theorem dropMirror_offWays (a i : Nat) : (dropMirror s a i).offWays b = s.offWays b := offWays_setCore s b rfl rfl rfl
theorem dropNotify_offWays (a i : Nat) : (dropNotify s a i).offWays b = s.offWays b := offWays_setCore s b rfl rfl rfl

theorem pubNote_entries (a i n : Nat) (m : Mask) (dat : Line) : (pubNote s a i n m dat).entries b = s.entries b := by
  unfold pubNote
  dsimp only
  split
  · split <;> exact entries_setCore s b rfl rfl
  · exact entries_setCore s b rfl rfl

theorem spWrite_entries (a off n x : Nat) : (spWrite s a off n x).entries b = s.entries b := by
  unfold spWrite
  refine (foldl_keeps (view := State.entries b) (fun t i => pubNote_entries t b a i _ _ _) _ _).trans ?_
  split <;> exact entries_setCore s b rfl rfl

theorem updTask_entries (t : BitVec 32) (f : Ctx → Ctx) : (updTask s t f).entries b = s.entries b := by
  unfold updTask
  split <;> [exact entries_setCtx s b _ _ _; rfl]

theorem linkMade_entries (a e : Nat) (l : Option (Nat × Nat × Word)) : (linkMade s a e l).entries b = s.entries b := by
  unfold linkMade
  split
  · rfl
  · refine (entries_setCore _ b ?_ ?_).trans (spWrite_entries s b _ _ _ _) <;> rfl

theorem bindDone_entries (a e : Nat) : (bindDone s a e).entries b = s.entries b := by
  unfold bindDone
  split <;> [rfl; exact (updTask_entries _ b _ _).trans (linkMade_entries s b a e _)]

theorem landBlock_entries (a off : Nat) (bad : List Nat) (q : Nat × Mask × Line) : (landBlock s a off bad q).entries b = s.entries b := by
  unfold landBlock
  dsimp only
  split <;> exact entries_setCore s b rfl rfl

end

/-- A notify touches NPEND of its entry alone (R144). -/
theorem postNotify_entry (s : State) {a e : Nat} (h : e < 16) (mask : BitVec 64) (resid : Option (BitVec 32)) (cvg : Option (Nat × Nat))
    (flags : BitVec 16) : (postNotify s a e mask resid cvg flags).ev = s.ev ∧
      (subAt (postNotify s a e mask resid cvg flags) a e = subAt s a e ∨
        subAt (postNotify s a e mask resid cvg flags) a e = setBit (subAt s a e) 0 true) := by
  unfold postNotify
  dsimp only
  split
  · exact ⟨rfl, .inl rfl⟩
  · split
    · refine ⟨rfl, .inl (subAt_of_entries (entries_setCore s a ?_ ?_) e)⟩ <;> rfl
    · refine ⟨rfl, .inr ?_⟩
      simp [subAt, State.newId, vget_vset, h]

theorem postNotify_fields (s : State) {a e : Nat} (h : e < 16) (mask : BitVec 64) (resid : Option (BitVec 32)) (cvg : Option (Nat × Nat))
    (flags : BitVec 16) : let x := subAt (postNotify s a e mask resid cvg flags) a e
    Sub.valid x = Sub.valid (subAt s a e) ∧ Sub.state x = Sub.state (subAt s a e) ∧ Sub.seq x = Sub.seq (subAt s a e) := by
  obtain ⟨-, same | noted⟩ := postNotify_entry s (a := a) h mask resid cvg flags
  · simp only [same, and_self]
  · simp only [noted, Sub.valid_setBit_npend, Sub.state_setBit_npend, Sub.seq_setBit_npend, and_self]

/-! Sending (R137, R140, R141). -/

/-- An update is on its way: it has a number, and OUTST of its entry counts it. -/
def State.counted (s : State) (a i : Nat) : State :=
  setPub { s with nextId := s.nextId + 1 } a i (putBits (pubAt s a i) 75 64 (Pub.outst (pubAt s a i) + 1))

section
variable (s : State) (a i : Nat) (blocks : List (Nat × Mask × Line)) (resid : Option (BitVec 32)) (cvg : Option (Nat × Nat))
  (full repoint : Bool) (bad : List Nat)

@[simp] theorem ctx_counted (b k : Nat) : (s.counted a i).ctx b k = s.ctx b k := ctx_setPub _ a i _ b k
@[simp] theorem subAt_counted (b j : Nat) : subAt (s.counted a i) b j = subAt s b j := subAt_setPub _ a i _ b j

@[simp] theorem pubPend_counted : ((s.counted a i).core a).pubPend = (s.core a).pubPend := pubPend_setPub _ a i _

theorem pubAt_counted (h : i < 16) : pubAt (s.counted a i) a i = putBits (pubAt s a i) 75 64 (Pub.outst (pubAt s a i) + 1) :=
  pubAt_setPub _ a i _ h

/-- The update that leaves a publisher entry. -/
def updateFrom : SubUpdate :=
  let e := pubAt s a i
  ⟨s.nextId, a, i, Pub.sub e, Pub.subIdx e, Pub.kid e, blocks, resid, cvg, full, repoint, bad⟩

theorem sendUpdate_eq : sendUpdate s a i blocks resid cvg full repoint bad =
    (s.counted a i).pend (.subscriptionUpdateApply (updateFrom s a i blocks resid cvg full repoint bad)) := rfl

/-- The update that brings the whole region (R137). -/
def fullUpdate : SubUpdate :=
  let e := pubAt s a i
  updateFrom s a i (regionBlocks s a (Pub.off e) (Pub.len e)) none none true repoint
    ((List.range (Pub.len e / 64)).filter fun b => s.spPoison.contains (a, Pub.off e / 64 + b))

theorem sendFull_eq : sendFull s a i repoint = (s.counted a i).pend (.subscriptionUpdateApply (fullUpdate s a i repoint)) := rfl

theorem length_blocks_fullUpdate : (fullUpdate s a i repoint).blocks.length * 64 = Pub.len (pubAt s a i) := by
  simp [fullUpdate, updateFrom, regionBlocks, Pub.len]

end

/-! SUBSCR (R137, R285). -/

theorem exec_subscr (o : ODAB) (s : State) : exec (.subscr o) s = execSubscr o s := rfl

/-- Both entries are filled: the subscriber's awaits its first update. -/
def State.bound (s : State) (a i pub j : Nat) (kid : BitVec 16) (nen : Bool) (nch : BitVec 6) (off poff len : Nat) : State :=
  setPub (setSub s a i (subEntry kid nen nch pub j off len)) pub j (pubEntry kid a i poff len)

theorem subBind_eq {s : State} {a i pub j : Nat} (hi : freeSub s a = some i) (hj : freePub s pub = some j) (kid : BitVec 16) (nen : Bool)
    (nch : BitVec 6) (off poff len : Nat) :
    subBind s a kid nen nch off pub poff len = (i, sendFull (s.bound a i pub j kid nen nch off poff len) pub j false) := by
  rw [subBind, hi, hj, State.bound]

/-- The checks at the publisher pass only where it has an entry free (R285). -/
theorem freePub_of_pubCheck {s : State} {a pub off len : Nat} {kid : BitVec 16} (h : pubCheck s a kid pub off len = none) :
    ∃ j, freePub s pub = some j := by
  cases found : freePub s pub with
  | some j => exact ⟨j, rfl⟩
  | none =>
    simp only [pubCheck, found, Option.isNone_none, if_true] at h
    split_ifs at h

/-- A SUBSCR that passes its checks (R285): the region at `off` of its own scratchpad takes updates of `len` bytes from the publisher's core `pub`, and
the free entries are `i` here and `j` there. -/
structure Subscribes (o : ODAB) (s : State) (off pub len i j : Nat) : Prop where
  ready : Ready (.subscr o) s
  core : Rule.onCore s
  aligned : addrPart (s.cur.rG o.a) % 64 = 0
  own : addrPart (s.cur.rG o.a) / 2 ^ 48 = 0xF0
  off_eq : off = addrPart (s.cur.rG o.a) % 2 ^ 48
  pub_eq : pub = bitsOf (s.cur.rG o.b) 63 48
  len_eq : len = (bitsOf (s.cur.rG o.b) 34 29 + 1) * 64
  ways : s.cur.claim ≤ 18
  claimed : off + len ≤ s.cur.claim * wayBytes
  live : (s.core s.curAgent).rangeLive off len false = true
  zero : bitsOf (s.cur.rG o.b) 21 0 = 0
  there : pub < 2048
  check : pubCheck s s.curAgent s.cur.kid pub (bitsOf (s.cur.rG o.b) 47 35 * 64) len = none
  freeHere : freeSub s s.curAgent = some i
  freeThere : freePub s pub = some j

/-- The device with both entries of a SUBSCR. -/
def State.subscribed (s : State) (o : ODAB) (off pub len i j : Nat) : State :=
  let g := s.cur.rG o.b
  s.bound s.curAgent i pub j s.cur.kid (bit g 28) (g.extractLsb' 22 6) off (bitsOf g 47 35 * 64) len

def subscrWait (o : ODAB) (s : State) (i : Nat) : WaitFor := .bind i none o.d (srcTaint (.subscr o) s.cur) (Instr.bytes (.subscr o))

/-- An unlimited wait stands in the context, and the rest of the device is as it was. -/
theorem waitFor_unlimited (s : State) (w : WaitFor) : ∃ t0, waitFor s w = s.setCur { s.cur with wait := some ⟨w, 0, t0⟩ } := ⟨_, rfl⟩

theorem waitFor_entries (s : State) (w : WaitFor) (b : Nat) : (waitFor s w).entries b = s.entries b := by
  obtain ⟨t0, h⟩ := waitFor_unlimited s w
  rw [h]
  exact entries_setCtx s b _ _ _

namespace Subscribes

variable {o : ODAB} {s : State} {off pub len i j : Nat} (h : Subscribes o s off pub len i j)
include h

theorem exec_eq : exec (.subscr o) s = .next (waitFor (sendFull (s.subscribed o off pub len i j) pub j false) (subscrWait o s i)) := by
  obtain ⟨ready, core, aligned, own, rfl, rfl, rfl, -, claimed, live, zero, there, check, hi, hj⟩ := h
  have place : isRidge s.curAgent = false := by simpa [isRidge] using core
  rw [exec_subscr, execSubscr, issue_ready ready, answer_eq]
  simp only [aligned, own, place, Nat.not_lt.mpr claimed, live, zero, Nat.not_le.mpr there, hi, check, subBind_eq hi hj]
  rfl

theorem pubAt_subscribed : pubAt (s.subscribed o off pub len i j) pub j = pubEntry s.cur.kid s.curAgent i (bitsOf (s.cur.rG o.b) 47 35 * 64) len :=
  pubAt_setPub _ _ _ _ (lt_of_freePub h.freeThere)

theorem subAt_subscribed : subAt (s.subscribed o off pub len i j) s.curAgent i =
    subEntry s.cur.kid (bit (s.cur.rG o.b) 28) ((s.cur.rG o.b).extractLsb' 22 6) pub j off len :=
  (subAt_setPub _ _ _ _ _ _).trans (subAt_setSub _ _ _ _ (lt_of_freeSub h.freeHere))

/-- A region has 1 to 64 blocks. -/
theorem blocks : len / 64 - 1 < 64 ∧ (len / 64 - 1 + 1) * 64 = len := by
  have := h.len_eq
  unfold bitsOf at this
  omega

/-- The publisher's entry names the subscriber (R138). -/
theorem pub_fields : let e := pubAt (s.subscribed o off pub len i j) pub j
    Pub.valid e = true ∧ Pub.kid e = s.cur.kid ∧ Pub.sub e = s.curAgent ∧ Pub.subIdx e = i ∧ Pub.len e = len := by
  have place : bitsOf (s.cur.rG o.b) 47 35 * 64 / 64 < 2 ^ 13 := by unfold bitsOf; omega
  rw [h.pubAt_subscribed]
  obtain ⟨valid, kid, sub, idx, length⟩ := Pub.fields_pubEntry (lt_trans h.core (by decide)) (lt_of_freeSub h.freeHere) place h.blocks.1
  exact ⟨valid, kid, sub, idx, length.trans h.blocks.2⟩

/-- The subscriber's entry awaits the first update (R139). -/
theorem sub_fields : let e := subAt (s.subscribed o off pub len i j) s.curAgent i
    Sub.valid e = true ∧ Sub.state e = 1 ∧ Sub.seq e = 0 := by
  have place : off / 64 < 2 ^ 13 := by
    have := h.claimed
    have := h.ways
    unfold wayBytes at *
    omega
  rw [h.subAt_subscribed]
  exact Sub.fields_subEntry (lt_trans h.there (by decide)) (lt_of_freePub h.freeThere) place h.blocks.1 _ _

theorem sends_and_waits : ∃ (t : State) (i : Nat) (u : SubUpdate) (t0 : Nat), exec (.subscr o) s = .next t ∧ freeSub s s.curAgent = some i ∧
    t.pending = s.pending ++ [.subscriptionUpdateApply u] ∧ u.pub = pub ∧ u.sub = s.curAgent ∧ u.subIdx = i ∧ u.full = true ∧ u.kid = s.cur.kid ∧
    u.blocks.length * 64 = len ∧ Pub.valid (pubAt t pub u.pubIdx) = true ∧ Sub.valid (subAt t s.curAgent i) = true ∧
    Sub.state (subAt t s.curAgent i) = 1 ∧ Sub.seq (subAt t s.curAgent i) = 0 ∧
    t.cur.wait = some ⟨.bind i none o.d (srcTaint (.subscr o) s.cur) (Instr.bytes (.subscr o)), 0, t0⟩ ∧ t.cur.pc = s.cur.pc := by
  obtain ⟨pvalid, pkid, psub, pidx, plen⟩ := h.pub_fields
  obtain ⟨svalid, sstate, sseq⟩ := h.sub_fields
  have result := h.exec_eq
  set b := s.subscribed o off pub len i j with hb
  set c := sendFull b pub j false with hc
  obtain ⟨t0, waits⟩ := waitFor_unlimited c (subscrWait o s i)
  have cur : c.cur = s.cur := by
    rw [hc, sendFull_eq]
    show (b.counted pub j).ctx s.curAgent s.curCtx = s.cur
    rw [ctx_counted, hb]
    simp only [State.subscribed, State.bound, ctx_setPub, ctx_setSub, State.cur]
  have ctx : (waitFor c (subscrWait o s i)).cur = { s.cur with wait := some ⟨subscrWait o s i, 0, t0⟩ } := by
    rw [waits, State.cur_setCur c _ h.ready.curCtx_lt, cur]
  have seen : subAt (waitFor c (subscrWait o s i)) s.curAgent i = subAt b s.curAgent i :=
    (subAt_of_entries (waitFor_entries c _ _) i).trans (subAt_counted b pub j _ _)
  have counted : Pub.valid (pubAt (waitFor c (subscrWait o s i)) pub j) = true :=
    calc Pub.valid (pubAt (waitFor c (subscrWait o s i)) pub j)
      _ = Pub.valid (pubAt (b.counted pub j) pub j) := congrArg Pub.valid (pubAt_of_entries (waitFor_entries c _ _) j)
      _ = Pub.valid (pubAt b pub j) := by rw [pubAt_counted b pub j (lt_of_freePub h.freeThere), Pub.valid_putBits_outst]
      _ = true := pvalid
  refine ⟨_, i, fullUpdate b pub j false, t0, result, h.freeHere, rfl, rfl, psub, pidx, rfl, pkid, ?_, counted, ?_, ?_, ?_, ?_, ?_⟩
  · rw [length_blocks_fullUpdate, plen]
  · rw [seen, svalid]
  · rw [seen, sstate]
  · rw [seen, sseq]
  · rw [ctx, subscrWait]
  · rw [ctx]

end Subscribes

/-! UNSUB and SUBSTAT (R286, R287). -/

theorem exec_unsub (o : OA) (s : State) : exec (.unsub o) s = execUnsub o s := rfl
theorem exec_substat (o : OSubst) (s : State) : exec (.substat o) s = execSubstat o s := rfl

/-- The index of a valid entry of the task's own kernel passes. -/
theorem subIndex_passes {i : Instr} {s : State} {n : Nat} (small : n ≤ 15) (valid : Sub.valid (subAt s s.curAgent n) = true)
    (mine : Sub.kid (subAt s s.curAgent n) = s.cur.kid) (go : BitVec 128 → State) : subIndex i s n go = go (subAt s s.curAgent n) := by
  rw [subIndex, if_neg (by simp [valid, small]), if_neg (not_not.mpr mine)]

/-- The entry of an UNSUB is gone, and its teardown under way, before the ways are freed. -/
def State.unbound (s : State) (a i : Nat) : State :=
  let e := subAt s a i
  let d := dropMirror s a i
  setSub (dropNotify (if Sub.state e = 2 then d else d.pend (.subscriptionTeardown (Sub.pub e) (Sub.pubIdx e) false (Sub.kid e) a i)) a i) a i 0

section
variable (s : State) (a i : Nat)

theorem unsubscribe_eq : unsubscribe s a i = leaveWays (s.unbound a i) a := rfl

theorem dropMirror_issuer : (dropMirror s a i).issuer = s.issuer := issuer_of_offWays (dropMirror_offWays s s.curAgent a i)
theorem dropNotify_issuer : (dropNotify s a i).issuer = s.issuer := issuer_of_offWays (dropNotify_offWays s s.curAgent a i)
theorem setSub_issuer (e : BitVec 128) : (setSub s a i e).issuer = s.issuer :=
  congrArg (fun c => (s.curAgent, s.curCtx, c)) (ctx_setSub s a i e s.curAgent s.curCtx)

theorem unsubscribe_issuer : (unsubscribe s a i).issuer = s.issuer := by
  rw [unsubscribe_eq, issuer_of_offWays (leaveWays_offWays _ _ _), State.unbound, setSub_issuer, dropNotify_issuer]
  split <;> exact dropMirror_issuer s a i

theorem subAt_unsubscribe (h : i < 16) : subAt (unsubscribe s a i) a i = 0 :=
  (subAt_of_entries (entries_of_offWays (leaveWays_offWays _ a a)) i).trans (subAt_setSub _ a i 0 h)

theorem unsubscribe_pending (active : Sub.state (subAt s a i) ≠ 2) : (unsubscribe s a i).pending = s.pending ++
    [.subscriptionTeardown (Sub.pub (subAt s a i)) (Sub.pubIdx (subAt s a i)) false (Sub.kid (subAt s a i)) a i] := by
  refine (pending_of_offWays (leaveWays_offWays _ a a)).trans ?_
  show (if _ then _ else _ : State).pending = _
  rw [if_neg active]
  rfl

end

/-- An instruction whose end alone is seen in the registers. -/
theorem onlyG_of_past {i : Instr} {s t : State} (h : t.cur = s.cur.past i) (d : Reg) : Rule.onlyG i s t d := by
  unfold Rule.onlyG
  rw [h]
  exact ⟨fun _ _ => rfl, fun _ => rfl, rfl, rfl⟩

theorem unsub_frees {o : OA} {s : State} (h : Ready (.unsub o) s) (small : (s.cur.rG o.a).toNat ≤ 15)
    (valid : Sub.valid (subAt s s.curAgent (s.cur.rG o.a).toNat) = true) (mine : Sub.kid (subAt s s.curAgent (s.cur.rG o.a).toNat) = s.cur.kid) :
    let e := subAt s s.curAgent (s.cur.rG o.a).toNat
    ∃ t : State, exec (.unsub o) s = .next t ∧ Rule.onlyG (.unsub o) s t 0 ∧ subAt t s.curAgent (s.cur.rG o.a).toNat = 0 ∧
      (Sub.state e ≠ 2 → Ev.subscriptionTeardown (Sub.pub e) (Sub.pubIdx e) false (Sub.kid e) s.curAgent (s.cur.rG o.a).toNat ∈ t.pending) := by
  have result : exec (.unsub o) s = .next (done (.unsub o) (unsubscribe s s.curAgent (s.cur.rG o.a).toNat)) := by
    rw [exec_unsub, execUnsub, issue_ready h, answer_eq, subIndex_passes small valid mine]
  generalize (s.cur.rG o.a).toNat = n at *
  obtain ⟨-, place, cur⟩ : _ ∧ (unsubscribe s s.curAgent n).curCtx = s.curCtx ∧ (unsubscribe s s.curAgent n).cur = s.cur := by
    simpa only [State.issuer, Prod.mk.injEq] using unsubscribe_issuer s s.curAgent n
  refine ⟨_, result, onlyG_of_past ?_ 0, ?_, fun active => ?_⟩
  · rw [done, State.cur_setCur _ _ (place ▸ h.curCtx_lt), cur]
  · exact (subAt_of_entries (entries_setCtx _ _ _ _ _) n).trans (subAt_unsubscribe s s.curAgent n (by omega))
  · rw [done_pending, unsubscribe_pending s s.curAgent n active]
    exact List.mem_append_right _ (List.mem_singleton_self _)

theorem substat_reads {o : OSubst} {s : State} (h : Ready (.substat o) s) (small : (s.cur.rG o.a).toNat ≤ 15)
    (valid : Sub.valid (subAt s s.curAgent (s.cur.rG o.a).toNat) = true) (mine : Sub.kid (subAt s s.curAgent (s.cur.rG o.a).toNat) = s.cur.kid) :
    let e := subAt s s.curAgent (s.cur.rG o.a).toNat
    let u := acquire s s.curAgent o.scope
    exec (.substat o) s = .next (u.setCur ((u.cur.wG o.d
      (BitVec.ofNat 64 (2 ^ 35 + (if Sub.npend e then 2 ^ 34 else 0) + Sub.state e * 2 ^ 32 + (Sub.seq e).toNat))).past (.substat o))) := by
  rw [exec_substat, execSubstat, issue_ready h, answer_eq, subIndex_passes small valid mine, valid]
  dsimp only
  cases Sub.npend (subAt s s.curAgent (s.cur.rG o.a).toNat) <;> simp

/-! Events (R140 to R142, R145). -/

theorem exec_subscriptionUpdateSend (s : State) : exec .subscriptionUpdateSend s = execSubscriptionUpdateSend s := rfl
theorem exec_subscriptionUpdateApply (s : State) : exec .subscriptionUpdateApply s = execSubscriptionUpdateApply s := rfl
theorem exec_subscriptionAck (s : State) : exec .subscriptionAck s = execSubscriptionAck s := rfl
theorem exec_subscriptionTeardown (s : State) : exec .subscriptionTeardown s = execSubscriptionTeardown s := rfl

section
variable {s : State} {a i : Nat}

section
variable {p : PubPend} (ev : s.ev = some (.subscriptionUpdateSend a i)) (open_ : (s.core a).pubPend = [p]) (entry : p.entry = i)
  (valid : Pub.valid (pubAt s a i) = true) (bound : Pub.state (pubAt s a i) ≠ 2) (room : Pub.outst (pubAt s a i) < 4095)
include ev open_ entry valid bound room

/-- The one open update of an entry waits for its 32 cycles unless it is waited for (R141). -/
theorem exec_updateSend_one : exec .subscriptionUpdateSend s =
    if (s.now < p.opened + 32 && !updatesWanted s a) = true then .next s
    else .next (sendUpdate (s.took.setCore a { s.core a with pubPend := [] }) a i p.blocks p.resid p.cvg false false) := by
  have entryOf : vget (s.core a).pubs i 0 = pubAt s a i := rfl
  rw [exec_subscriptionUpdateSend, execSubscriptionUpdateSend, ev]
  simp only [open_, List.find?_cons, entry, beq_self_eq_true, entryOf, valid, bound, room.ne]
  simp

theorem update_leaves (h : i < 16) (due : p.opened + 32 ≤ s.now) :
    ∃ (t : State) (u : SubUpdate), exec .subscriptionUpdateSend s = .next t ∧ t.ev = none ∧ (t.core a).pubPend = [] ∧
      t.pending = s.pending ++ [.subscriptionUpdateApply u] ∧ u.blocks = p.blocks ∧ u.sub = Pub.sub (pubAt s a i) ∧ u.full = false ∧
      Pub.outst (pubAt t a i) = Pub.outst (pubAt s a i) + 1 := by
  have result := exec_updateSend_one ev open_ entry valid bound room
  rw [if_neg (by simp [due]), sendUpdate_eq] at result
  set b := s.took.setCore a { s.core a with pubPend := [] } with hb
  have same : pubAt b a i = pubAt s a i := by
    refine pubAt_of_entries (s := s.took) (entries_setCore s.took a ?_ ?_) i <;> rfl
  refine ⟨_, _, result, rfl, ?_, rfl, rfl, congrArg Pub.sub same, rfl, ?_⟩
  · exact (pubPend_counted b a i).trans (congrArg Core.pubPend (State.core_setCore_same s.took a _))
  · refine (congrArg Pub.outst (pubAt_counted b a i h)).trans ?_
    rw [Pub.outst_putBits_outst, same, Nat.mod_eq_of_lt (by omega)]

theorem update_waits (early : s.now < p.opened + 32) (unwanted : updatesWanted s a = false) : exec .subscriptionUpdateSend s = .next s := by
  rw [exec_updateSend_one ev open_ entry valid bound room, if_pos (by simp [early, unwanted])]

end

/-- An acknowledgement counts OUTST down (R140). -/
theorem ack_counts_down (ev : s.ev = some (.subscriptionAck a i)) (h : i < 16) (valid : Pub.valid (pubAt s a i) = true)
    (some_ : Pub.outst (pubAt s a i) ≠ 0) :
    ∃ t : State, exec .subscriptionAck s = .next t ∧ t.ev = none ∧ Pub.outst (pubAt t a i) = Pub.outst (pubAt s a i) - 1 ∧ t.pending = s.pending := by
  have result : exec .subscriptionAck s = .next (setPub s.took a i (putBits (pubAt s a i) 75 64 (Pub.outst (pubAt s a i) - 1))) := by
    rw [exec_subscriptionAck, execSubscriptionAck, ev]
    simp [valid, some_]
  have range : Pub.outst (pubAt s a i) < 4096 := Nat.mod_lt _ (by decide)
  refine ⟨_, result, rfl, ?_, rfl⟩
  rw [pubAt_setPub _ _ _ _ h, Pub.outst_putBits_outst, Nat.mod_eq_of_lt (by omega)]

theorem ev_freePubEntry (t : State) : (freePubEntry t a i).ev = t.ev := by
  refine (ev_of_entries (entries_of_offWays (leaveWays_offWays _ a a))).trans ?_
  rfl

theorem pubAt_freePubEntry (t : State) (h : i < 16) : pubAt (freePubEntry t a i) a i = 0 := by
  refine (pubAt_of_entries (entries_of_offWays (leaveWays_offWays _ a a)) i).trans ?_
  simp [pubAt, vget_vset, h]

section
variable {kid : BitVec 16} {p j : Nat}

/-- A teardown that reaches the publisher frees the entry (R145). -/
theorem teardown_frees (ev : s.ev = some (.subscriptionTeardown a i false kid p j)) (h : i < 16) (valid : Pub.valid (pubAt s a i) = true)
    (mine : Pub.kid (pubAt s a i) = kid) (peer : Pub.sub (pubAt s a i) = p) (idx : Pub.subIdx (pubAt s a i) = j) :
    ∃ t : State, exec .subscriptionTeardown s = .next t ∧ t.ev = none ∧ pubAt t a i = 0 := by
  have result : exec .subscriptionTeardown s = .next (freePubEntry s.took a i) := by
    have same : pubAt s.took a i = pubAt s a i := rfl
    rw [exec_subscriptionTeardown, execSubscriptionTeardown, ev]
    simp [same, valid, mine, peer, idx]
  exact ⟨_, result, ev_freePubEntry s.took, pubAt_freePubEntry s.took h⟩

/-- One that reaches the subscriber leaves the entry torn down (R145). -/
theorem teardown_marks (ev : s.ev = some (.subscriptionTeardown a i true kid p j)) (h : i < 16) (valid : Sub.valid (subAt s a i) = true)
    (mine : Sub.kid (subAt s a i) = kid) (peer : Sub.pub (subAt s a i) = p) (idx : Sub.pubIdx (subAt s a i) = j) :
    ∃ t : State, exec .subscriptionTeardown s = .next t ∧ t.ev = none ∧ Sub.state (subAt t a i) = 2 ∧ Sub.valid (subAt t a i) = true := by
  have result : exec .subscriptionTeardown s = .next (postNotify (setSub s.took a i (putBits (subAt s a i) 126 125 2)) a i 0 none none 1) := by
    have same : subAt s.took a i = subAt s a i := rfl
    rw [exec_subscriptionTeardown, execSubscriptionTeardown, ev]
    simp [same, valid, mine, peer, idx]
  obtain ⟨kept, state, -⟩ := postNotify_fields (setSub s.took a i (putBits (subAt s a i) 126 125 2)) (a := a) h 0 none none 1
  refine ⟨_, result, (postNotify_entry _ h _ _ _ _).1, state.trans ?_, kept.trans ?_⟩
  · rw [subAt_setSub _ _ _ _ h, Sub.state_putBits_state]
  · rw [subAt_setSub _ _ _ _ h, Sub.valid_putBits_state, valid]

end

end

/-! SUBSCRIPTION_UPDATE_APPLY (R142). -/

/-- The entry that an update has reached: SEQ has stepped, and a full update makes it active. -/
def reachedEntry (full : Bool) (x : BitVec 128) : BitVec 128 :=
  let y := putBits x 63 32 (Sub.seq x).toNat.succ
  if full then putBits y 126 125 0 else y

theorem seq_reachedEntry (full : Bool) (x : BitVec 128) : Sub.seq (reachedEntry full x) = Sub.seq x + 1 := by
  have stepped : Sub.seq (putBits x 63 32 (Sub.seq x).toNat.succ) = Sub.seq x + 1 := by
    rw [Sub.seq_putBits_seq, Nat.succ_eq_add_one, BitVec.ofNat_add, BitVec.ofNat_toNat, BitVec.setWidth_eq]
    rfl
  cases full
  · exact stepped
  · exact (Sub.seq_putBits_state _ 0).trans stepped

theorem state_reachedEntry (x : BitVec 128) : Sub.state (reachedEntry true x) = 0 := Sub.state_putBits_state _ 0

/-- The blocks of an update have landed, its entry has stepped, and a task that waits for it goes on; no notify yet. -/
def State.reached (s : State) (u : SubUpdate) : State :=
  let x := subAt s u.sub u.subIdx
  let t := setSub (u.blocks.foldl (fun s q => landBlock s u.sub (Sub.off x) u.bad q) s) u.sub u.subIdx (reachedEntry u.full x)
  if u.full then bindDone t u.sub u.subIdx else t

section
variable (s : State) (u : SubUpdate)

theorem ev_reached : (s.reached u).ev = s.ev := by
  have landed (x : BitVec 128) : (u.blocks.foldl (fun s q => landBlock s u.sub (Sub.off x) u.bad q) s).ev = s.ev :=
    foldl_keeps (view := State.ev) (fun t q => ev_of_entries (landBlock_entries t u.sub _ _ _ q)) _ s
  unfold State.reached
  dsimp only
  split <;> [exact (ev_of_entries (bindDone_entries _ u.sub _ _)).trans (landed _); exact landed _]

theorem subAt_reached (h : u.subIdx < 16) : subAt (s.reached u) u.sub u.subIdx = reachedEntry u.full (subAt s u.sub u.subIdx) := by
  unfold State.reached
  dsimp only
  split <;> [refine (subAt_of_entries (bindDone_entries _ _ _ _) _).trans ?_; skip] <;> exact subAt_setSub _ _ _ _ h

end

section
variable {s : State} {u : SubUpdate} (ev : s.ev = some (.subscriptionUpdateApply u)) (alone : s.pending = [])
  (valid : Sub.valid (subAt s u.sub u.subIdx) = true) (kid : Sub.kid (subAt s u.sub u.subIdx) = u.kid)
  (pub : Sub.pub (subAt s u.sub u.subIdx) = u.pub) (idx : Sub.pubIdx (subAt s u.sub u.subIdx) = u.pubIdx)
  (active : Sub.state (subAt s u.sub u.subIdx) ≠ 2) (free : u.full = true → linkBusy s u.sub u.subIdx = none)
include ev alone valid kid pub idx active free

theorem exec_updateApply : exec .subscriptionUpdateApply s =
    .next ((postNotify (s.took.reached u) u.sub u.subIdx (blockMask u.blocks) u.resid u.cvg (if u.repoint then 2 else 0)).pend
      (.subscriptionAck u.pub u.pubIdx)) := by
  have port : (if u.full = true then linkBusy s u.sub u.subIdx else none) = none := by
    split <;> [exact free ‹_›; rfl]
  have same : subAt s.took u.sub u.subIdx = subAt s u.sub u.subIdx := rfl
  rw [exec_subscriptionUpdateApply, execSubscriptionUpdateApply, ev]
  simp only [alone, List.any_nil, Bool.false_eq_true, if_false, port, same, valid, kid, pub, idx, beq_self_eq_true, Bool.and_self,
    bne_iff_ne.mpr active, Bool.not_true]
  rfl

/-- SEQ steps, the acknowledgement is under way, and a first update makes the entry active (R142). -/
theorem update_arrives (h : u.subIdx < 16) :
    ∃ t : State, exec .subscriptionUpdateApply s = .next t ∧ t.ev = none ∧ Sub.seq (subAt t u.sub u.subIdx) = Sub.seq (subAt s u.sub u.subIdx) + 1 ∧
      Ev.subscriptionAck u.pub u.pubIdx ∈ t.pending ∧ (u.full = true → Sub.state (subAt t u.sub u.subIdx) = 0) := by
  have result := exec_updateApply ev alone valid kid pub idx active free
  obtain ⟨-, state, seq⟩ :=
    postNotify_fields (s.took.reached u) (a := u.sub) h (blockMask u.blocks) u.resid u.cvg (if u.repoint then 2 else 0)
  have entry : subAt (s.took.reached u) u.sub u.subIdx = reachedEntry u.full (subAt s u.sub u.subIdx) := subAt_reached s.took u h
  refine ⟨_, result, ?_, seq.trans ?_, List.mem_append_right _ (List.mem_singleton_self _), fun full => state.trans ?_⟩
  · exact (postNotify_entry _ h _ _ _ _).1.trans (ev_reached s.took u)
  · rw [entry, seq_reachedEntry]
  · rw [entry, full, state_reachedEntry]

end

/-- Settles O42, clause by clause. -/
theorem subscriptionsForwardUpdates : Obligations.SubscriptionsForwardUpdates := by
  unfold Obligations.SubscriptionsForwardUpdates
  refine ⟨?_, ?_, ?_, ?_, ?_, ?_, ?_⟩
  · intro o s ready core va g off len pub aligned own ways claimed live zero there room check
    obtain ⟨i, freeHere⟩ := Option.isSome_iff_exists.mp room
    obtain ⟨j, freeThere⟩ := freePub_of_pubCheck check
    exact Subscribes.sends_and_waits
      { ready, core, aligned, own, off_eq := rfl, pub_eq := rfl, len_eq := rfl, ways, claimed, live, zero, there, check, freeHere, freeThere }
  · intro o s ready small valid mine
    exact unsub_frees ready small valid mine
  · intro o s ready small valid mine
    exact substat_reads ready small valid mine
  · intro s a i p ev open_ entry h valid bound room
    exact ⟨update_leaves ev open_ entry valid bound room h, update_waits ev open_ entry valid bound room⟩
  · intro s u ev alone h x valid kid pub idx active free
    exact update_arrives ev alone valid kid pub idx active free h
  · intro s a i ev h valid some_
    exact ack_counts_down ev h valid some_
  · intro s a i p j kid h
    exact ⟨fun ev => teardown_frees ev h, fun ev => teardown_marks ev h⟩

end Sys2Proof.Machine

/-! SUPPORT. O59 (R148, R194, R203): no step makes a context of a cluster core privileged. A context's privilege is written in these places
alone: `startTask` and `moveTask` give it that of the core it comes to stand on, `bootRom` starts the firmware on ridge cores, and a context
that is freed or reserved loses it; `ckptStream` copies the cores into an image, and `installImage` takes back an image's cluster cores.
Every other function changes a context beside its privilege, a core beside its contexts, or neither. As in O58, each function that answers a
state has one lemma, `after_<function>`, whose proof follows the function's branches and closes each by the rule of the update it ends in:
`UserBy.frame`, `UserBy.modCore`, `UserBy.modCtx` and their like. -/

namespace Sys2Proof.Machine
set_option Elab.async false

/-- A context that may stand on core `b`: one of a cluster core is not privileged (R148). -/
def UserCtx (b : Nat) (c : Ctx) : Prop := b < 2048 → c.priv = false

/-- A core that may stand at number `b`. -/
def UserCore (b : Nat) (o : Core) : Prop := ∀ k, UserCtx b (vget o.ctxs k Ctx.reset)

/-- `UserCores`, in a state in which core `a` issues: the effect of an instruction writes back a context that it has read there before. -/
def UserBy (a : Nat) (s : State) : Prop := s.curAgent = a ∧ UserCores s

section
variable {b k : Nat} {c d : Ctx} {o p : Core}

@[simp] theorem Ctx.reset_priv : Ctx.reset.priv = false := rfl

/-- A context without privilege, as one that is free or reserved. -/
theorem UserCtx.plain (e : c.priv = false := by rfl) : UserCtx b c := fun _ => e

/-- A context with the privilege of one that may stand here, or with none. -/
theorem UserCtx.of (h : UserCtx b c) (e : c.priv = false → d.priv = false := by intro h; simpa using h) : UserCtx b d := fun hb => e (h hb)

theorem UserCtx.ite {p : Prop} {_ : Decidable p} (hc : UserCtx b c) (hd : UserCtx b d) : UserCtx b (if p then c else d) := by
  split <;> assumption

theorem UserCore.reset : UserCore b Core.reset := by
  intro k _
  unfold Core.reset vget
  rw [Vector.getElem?_replicate]
  split <;> rfl

/-- A core with the contexts of one that may stand here. -/
theorem UserCore.of (h : UserCore b o) (e : p.ctxs = o.ctxs := by rfl) : UserCore b p := by
  unfold UserCore; rw [e]; exact h

theorem UserCore.vset (h : UserCore b o) (hc : UserCtx b c) (e : p.ctxs = vset o.ctxs k c := by rfl) : UserCore b p := by
  intro j
  rw [e, vget_vset]
  split
  · exact hc
  · exact h j

theorem userCores_iff {l : SMap Core} : userCores l ↔ ∀ q ∈ l, UserCore q.1 q.2 := by
  refine ⟨fun h q hq k hb => ?_, fun h q hq hb k _ => h q hq k hb⟩
  by_cases hk : k < 8
  · exact h q hq hb k hk
  · simp [vget, hk]

theorem userCores_getD {l : SMap Core} (h : userCores l) (b : Nat) : UserCore b (SMap.getD l b Core.reset) := by
  unfold SMap.getD
  cases e : SMap.find? l b with
  | none => exact .reset
  | some o => exact userCores_iff.mp h _ (SMap.mem_of_find? e)

theorem userCores_set {l : SMap Core} (h : userCores l) (ho : UserCore b o) : userCores (SMap.set l b o) := by
  rw [userCores_iff] at h ⊢
  intro q hq
  obtain rfl | hq := SMap.mem_set hq
  · exact ho
  · exact h q hq

theorem userCores_mapKV {l : SMap Core} {f : Nat → Core → Core} (h : userCores l) (e : ∀ b o, (f b o).ctxs = o.ctxs := by intro _ _; rfl) :
    userCores (SMap.mapKV f l) := by
  rw [userCores_iff] at h ⊢
  intro q hq
  obtain ⟨r, hr, rfl⟩ := List.mem_map.mp hq
  exact (h r hr).of (e _ _)

end

/-! The shapes in which the functions of the model answer a state. -/

section
variable {a b k : Nat} {c : Ctx} {o : Core} {s t : State}

theorem UserBy.cores (h : UserBy a s) : userCores s.cores := h.2.1
theorem UserBy.tiers (h : UserBy a s) : ∀ q ∈ s.tiers, userCores q.2.cores := h.2.2
theorem UserBy.core (h : UserBy a s) (b : Nat) : UserCore b (s.core b) := userCores_getD h.cores b
theorem UserBy.ctx (h : UserBy a s) (b k : Nat) : UserCtx b (s.ctx b k) := h.core b k
theorem UserBy.cur (h : UserBy a s) : UserCtx a s.cur := by obtain ⟨rfl, h⟩ := h; exact UserBy.ctx ⟨rfl, h⟩ _ _

/-- The frame rule: an update of any fields but the cores, the images and the core that issues. -/
theorem UserBy.frame
    {curCtx agenda pending ev turn fresh time ptroot kt wp mrgn meas svn minSvn thboot wnb clusters dies lastCore hgmEng hbm hostMem
    wsoFull poison spPoison dsPoison thatch tlb dir nbMats nbCmds nextId haltNb workLists links completions heldRes engWaits saves quiesced
    pages homes moving remote far portQ outbox hostRetry hostUp unacked lanesUp noPath grants stalled powerAt draws mgmt}
    (h : UserBy a s) : UserBy a
      { s with
        curCtx, agenda, pending, ev, turn, fresh, time, ptroot, kt, wp, mrgn, meas, svn, minSvn, thboot, wnb, clusters,
        dies, lastCore, hgmEng, hbm, hostMem, wsoFull, poison, spPoison, dsPoison, thatch, tlb, dir, nbMats, nbCmds, nextId, haltNb,
        workLists, links, completions, heldRes, engWaits, saves, quiesced, pages, homes, moving, remote, far, portQ, outbox, hostRetry,
        hostUp, unacked, lanesUp, noPath, grants, stalled, powerAt, draws, mgmt } := h

theorem UserBy.of_eq (h : UserBy a s) (b : t.curAgent = s.curAgent) (c : t.cores = s.cores) (i : t.tiers = s.tiers) : UserBy a t := by
  unfold UserBy UserCores; rw [b, c, i]; exact h

theorem UserBy.setCore (h : UserBy a s) (ho : UserCore b o) : UserBy a (s.setCore b o) := ⟨h.1, userCores_set h.cores ho, h.tiers⟩

/-- An update of a core beside its contexts. -/
theorem UserBy.modCore {f : Core → Core} (h : UserBy a s) (e : ∀ o, (f o).ctxs = o.ctxs := by intro _; rfl) : UserBy a (s.modCore b f) :=
  h.setCore ((h.core b).of (e _))

theorem UserBy.setCtx (h : UserBy a s) (hc : UserCtx b c) : UserBy a (s.setCtx b k c) := h.setCore ((h.core b).vset hc)

/-- An update of a context beside its privilege, or one that takes it. -/
theorem UserBy.modCtx {f : Ctx → Ctx} (h : UserBy a s) (e : ∀ c, c.priv = false → (f c).priv = false := by intro _ h; simpa using h) :
    UserBy a (s.modCtx b k f) := h.setCtx ((h.ctx b k).of (e _))

theorem UserBy.setCur (h : UserBy a s) (hc : UserCtx a c) : UserBy a (s.setCur c) := by
  obtain ⟨rfl, h⟩ := h; exact UserBy.setCtx ⟨rfl, h⟩ hc

/-- An update of the core, the context or the current context that the state has. -/
theorem UserBy.withCore (h : UserBy a s) (e : o.ctxs = (s.core b).ctxs := by rfl) : UserBy a (s.setCore b o) := h.setCore ((h.core b).of e)

theorem UserBy.withCtx (h : UserBy a s) (e : (s.ctx b k).priv = false → c.priv = false := by intro h; simpa using h) :
    UserBy a (s.setCtx b k c) := h.setCtx ((h.ctx b k).of e)

theorem UserBy.withCur (h : UserBy a s) (e : s.cur.priv = false → c.priv = false := by intro h; simpa using h) : UserBy a (s.setCur c) :=
  h.setCur (h.cur.of e)

theorem UserBy.after_complete {s : State} {b k n f} (h : UserBy a s)
    (e : ∀ c, c.priv = false → (f c).priv = false := by intro _ h; simpa using h) : UserBy a (State.complete s b k n f) := .modCtx h e

theorem UserBy.ite {p : Prop} {_ : Decidable p} (hs : UserBy a s) (ht : UserBy a t) : UserBy a (if p then s else t) := by
  split <;> assumption

theorem UserBy.foldl {α : Type} {l : List α} {f : State → α → State} (h : UserBy a s)
    (hf : ∀ t x, UserBy a t → UserBy a (f t x)) : UserBy a (l.foldl f s) :=
  List.foldlRecOn l f h fun t ht x _ => hf t x ht

/-- A fold over a tuple that holds the state. -/
theorem UserBy.foldlBy {α σ : Type} (get : σ → State) {r : σ} {l : List α} {f : σ → α → σ} (h : UserBy a (get r))
    (hf : ∀ r x, UserBy a (get r) → UserBy a (get (f r x))) : UserBy a (get (l.foldl f r)) :=
  List.foldlRecOn (motive := fun r => UserBy a (get r)) l f h fun t ht x _ => hf t x ht

theorem UserBy.fst {α : Type} {x : α} (h : UserBy a s) : UserBy a (s, x).1 := h
theorem UserBy.snd {α : Type} {x : α} (h : UserBy a s) : UserBy a (x, s).2 := h

theorem UserBy.ite_fst {α : Type} {p : Prop} {_ : Decidable p} {x y : State × α} (hx : UserBy a x.1)
    (hy : UserBy a y.1) : UserBy a (if p then x else y).1 := by split <;> assumption

theorem UserBy.ite_snd {α : Type} {p : Prop} {_ : Decidable p} {x y : α × State} (hx : UserBy a x.2)
    (hy : UserBy a y.2) : UserBy a (if p then x else y).2 := by split <;> assumption

theorem UserBy.of_fst {α : Type} {r : State × α} {x : α} (e : r = (t, x)) (h : UserBy a r.1) : UserBy a t := by
  subst e; exact h

/-- What an instruction, an event or a step answers keeps cluster cores unprivileged, where it goes on. -/
def OutUser (o : Out) : Prop := ∀ t, o = .next t → UserCores t

theorem OutUser.next (h : UserBy a s) : OutUser (.next s) := fun | _, rfl => h.2

theorem OutUser.ite {p : Prop} {_ : Decidable p} {x y : Out} (hx : OutUser x) (hy : OutUser y) : OutUser (if p then x else y) := by
  split <;> assumption

/-- The same of what the work of a host command answers, which leaves the core that issues as it is. -/
def ServedUser (a : Nat) (r : Served) : Prop := (∀ st v t, r = .done st v t → UserBy a t) ∧ ∀ t, r = .wait t → UserBy a t

theorem ServedUser.done {st v} (h : UserBy a s) : ServedUser a (.done st v s) := ⟨fun | _, _, _, rfl => h, fun _ e => nomatch e⟩

theorem ServedUser.wait (h : UserBy a s) : ServedUser a (.wait s) := ⟨fun _ _ _ e => (nomatch e), fun | _, rfl => h⟩

theorem ServedUser.ite {p : Prop} {_ : Decidable p} {x y : Served} (hx : ServedUser a x) (hy : ServedUser a y) :
    ServedUser a (if p then x else y) := by split <;> assumption

theorem UserBy.getD {o : Option State} (h : UserBy a s) (ho : ∀ t, o = some t → UserBy a t) : UserBy a (o.getD s) := by
  cases o with
  | none => exact h
  | some t => exact ho t rfl

theorem UserBy.with_tiers {l : SMap Snapshot} (h : UserBy a s) (hl : ∀ q ∈ l, userCores q.2.cores) : UserBy a { s with tiers := l } :=
  ⟨h.1, h.cores, hl⟩

end

section
variable {me : Nat}

/-! Named operations over the state. -/

theorem OutUser.after_answer {s : State} (h : UserBy me s) : OutUser (answer s) :=
  .next h

/-! State accessors. -/

theorem UserBy.after_pendOnce {s : State} {e} (h : UserBy me s) : UserBy me (State.pendOnce s e) :=
  .ite h (.frame h)

/-! Fault packets (R210 to R213). -/

theorem UserBy.after_sendPacket {s : State} {a p pa} (h : UserBy me s) : UserBy me (State.sendPacket s a p pa) :=
  .ite (.frame h) (.frame h)

theorem UserBy.after_landValue {s : State} {l} (h : UserBy me s) : UserBy me (landValue s l) :=
  .ite h (.setCtx h (.of (h.ctx _ _)  (by intro h; split <;> simpa using h)))

theorem UserBy.after_landAll {s : State} {a k} (h : UserBy me s) : UserBy me (landAll s a k) := by
  unfold landAll
  refine .foldl (.frame h) fun _ _ h => ?_
  split
  · exact .after_landValue h
  · exact h

theorem UserBy.after_takeFault {s : State} {a k f insn} (h : UserBy me s) : UserBy me (takeFault s a k f insn) := by
  have hp : ∀ p, UserBy me ((if f.code = 0x1B && f.sub = 3 then (landAll s a k).sendPacket a p 0 else landAll s a k)) := fun _ =>
    .ite (.after_sendPacket (.after_landAll h)) (.after_landAll h)
  exact .ite (.frame (.modCtx (hp _))) (.after_sendPacket (.modCtx (hp _)))

theorem UserBy.after_record {s : State} {code sub agent inst kid task from_ stage pc va ia info pa} (h : UserBy me s) :
    UserBy me (State.record s code sub agent inst kid task from_ stage pc va ia info pa) :=
  .after_sendPacket h

/-! Waiting (R288). -/

theorem UserBy.after_waitFor {s : State} {w limit} (h : UserBy me s) : UserBy me (waitFor s w limit) :=
  have hw : ∀ n, UserBy me (s.setCur { s.cur with wait := some ⟨w, limit, n⟩ }) := fun _ => .setCur h (.of h.cur)
  .ite (hw _) (.after_pendOnce (hw _))

/-! Issue (R209, R242, R161). -/

theorem UserBy.after_faultCur {s : State} {i f} (h : UserBy me s) : UserBy me (faultCur i s f) :=
  .after_takeFault h

theorem OutUser.after_issue {s : State} {i k} (h : UserBy me s) (hk : ∀ c, UserCtx me c → UserBy me (k c)) :
    OutUser (issue i s k) := by
  unfold issue
  refine .ite (.next h) ?_
  split
  · exact .after_answer (.after_faultCur h)
  · exact .after_answer (.after_waitFor h)
  · exact .after_answer (hk _ h.cur)

theorem OutUser.after_issueReg {s : State} {i k} (h : UserBy me s) (hk : ∀ c, UserCtx me c → UserCtx me (k c)) : OutUser (issueReg i s k) :=
  .after_issue h fun c hc => .setCur h (.of (hk c hc))

theorem UserBy.after_raise {s : State} {i code va} (h : UserBy me s) : UserBy me (raise i s code va) :=
  .after_faultCur h

/-! Pages between devices (R128, R129). -/

theorem UserBy.after_askOwn {s : State} {x page} (h : UserBy me s) : UserBy me (askOwn s x page) :=
  .ite h (.after_pendOnce h)

/-! Halt groups (R223, R379). -/

theorem UserBy.after_withdraw {s : State} {a k} (h : UserBy me s) : UserBy me (withdraw s a k) :=
  have hd : UserBy me (dropWaits s a k) := .frame h
  .setCtx (.frame hd) (.of (hd.ctx a k))

theorem UserBy.after_haltCore {s : State} {a} (h : UserBy me s) : UserBy me (haltCore s a) :=
  .foldl (.modCore h) fun _ _ h => .after_withdraw h

theorem UserBy.after_haltGroup {s : State} {die g on} (h : UserBy me s) : UserBy me (haltGroup s die g on) :=
  .foldl (.frame (.foldl h fun _ _ h => .ite (.after_haltCore h) (.modCore h))) fun _ _ h => .ite h
    (.ite (.ite (.frame h) h) (.ite h (.ite (.frame h) (.ite (.frame h) (.ite (.frame h) (.ite (.frame h) (.frame h)))))))

/-! Watchpoints (R225, R226): a request accepted at its translation home is compared with each of them. -/

theorem UserBy.after_watch {s : State} {x ia k bytes} (h : UserBy me s) : UserBy me (watch s x ia k bytes) :=
  .foldl h fun _ _ h => .ite h (.ite (.after_haltGroup (.frame h)) (.frame h))

theorem UserBy.after_cacheLeaf {s : State} {ia} (h : UserBy me s) : UserBy me (cacheLeaf s ia) := by
  unfold cacheLeaf
  split
  · exact h
  · split
    · exact .frame h
    · exact h

theorem UserBy.after_accepted {s : State} {x p k} (h : UserBy me s) : UserBy me (accepted s x p k) := by
  unfold accepted
  split
  · exact .after_watch (.after_cacheLeaf h)
  · exact h

/-! Thatch and HBM (R90, log 46). -/

theorem UserBy.after_thatchEvict {s : State} {line} (h : UserBy me s) : UserBy me (thatchEvict s line) := by
  unfold thatchEvict
  split
  · exact h
  · split <;> exact .frame h

theorem UserBy.after_thatchPlace {s : State} {line} (h : UserBy me s) : UserBy me (thatchPlace s line).2 := by
  unfold thatchPlace
  dsimp only
  split
  · exact .snd h
  · split
    · exact .snd (.after_thatchEvict (.frame h))
    · exact .snd (.frame h)

theorem UserBy.after_physPut {s : State} {pa d m} (h : UserBy me s) : UserBy me (physPut s pa d m) := by
  unfold physPut
  refine .ite (.frame h) ?_
  split
  · exact .frame h
  · exact .frame (.after_thatchPlace h)

theorem UserBy.after_physPutNat {s : State} {pa n v} (h : UserBy me s) : UserBy me (physPutNat s pa n v) :=
  .after_physPut h

theorem UserBy.after_markDirty {s : State} {pa} (h : UserBy me s) : UserBy me (markDirty s pa) :=
  .ite h (.after_physPutNat h)

theorem UserBy.after_physWrite {s : State} {pa d m} (h : UserBy me s) : UserBy me (physWrite s pa d m) :=
  .ite h (.frame (.after_markDirty (.after_physPut h)))

theorem UserBy.after_thatchFlush {s : State} {p} (h : UserBy me s) : UserBy me (thatchFlush s p) :=
  .foldl h fun _ _ h => .after_thatchEvict h

/-! Sarking (R89, R125). -/

theorem UserBy.after_sarkUpdate {s : State} {die line dat m} (h : UserBy me s) :
    UserBy me (sarkUpdate s die line dat m) := by
  unfold sarkUpdate
  split
  · exact .frame h
  · exact h

theorem UserBy.after_skPlace {s : State} {die line} (h : UserBy me s) : UserBy me (skPlace s die line).2 := by
  unfold skPlace
  dsimp only
  split
  · exact .snd h
  · exact .snd (.frame h)
  · split <;> exact .snd (.frame h)

theorem UserBy.after_skFill {s : State} {die line pa dat} (h : UserBy me s) :
    UserBy me (skFill s die line pa dat) :=
  .ite h (.frame (.after_skPlace (.frame h)))

/-! L2 (R88, R124). -/

theorem UserBy.after_l2Evict {s : State} {die line} (h : UserBy me s) : UserBy me (l2Evict s die line) := by
  unfold l2Evict
  split
  · exact h
  · exact .frame (.ite (.after_physWrite h) h)

theorem UserBy.after_l2Place {s : State} {die line} (h : UserBy me s) : UserBy me (l2Place s die line).2 := by
  unfold l2Place
  dsimp only
  split
  · split
    · exact .snd (.after_l2Evict (.frame h))
    · exact .snd (.frame h)
  · exact .snd (.frame h)

theorem UserBy.after_l2Fill {s : State} {die line pa ty} (h : UserBy me s) :
    UserBy me (l2Fill s die line pa ty).2 := by
  unfold l2Fill
  split
  · exact .snd h
  · exact .snd (.frame (.after_l2Place h))

theorem UserBy.after_l2Write {s : State} {die line pa ty dat m} (h : UserBy me s) :
    UserBy me (l2Write s die line pa ty dat m) :=
  .frame (.after_l2Fill h)

/-! The outward side of an L1, and the path of a ridge core (R125, R418). -/

theorem UserBy.after_outRead {s : State} {die line pa ty} (h : UserBy me s) :
    UserBy me (outRead s die line pa ty).2 := by
  unfold outRead
  refine .ite_snd (.snd (.after_l2Fill h)) ?_
  split
  · exact .snd h
  · exact .snd (.after_skFill h)

theorem UserBy.after_outWrite {s : State} {die line pa ty dat m} (h : UserBy me s) :
    UserBy me (outWrite s die line pa ty dat m) :=
  .ite (.after_l2Write h) (.after_physWrite (.after_sarkUpdate h))

/-! L1 (R82, R124). -/

theorem UserBy.after_dirDrop {s : State} {clu line} (h : UserBy me s) : UserBy me (dirDrop s clu line) := by
  unfold dirDrop
  split
  · exact .frame h
  · exact .ite (.frame h) h
  · exact h

theorem UserBy.after_seqHome {s : State} {line l} (h : UserBy me s) : UserBy me (seqHome s line l) :=
  .after_l2Write h

theorem UserBy.after_l1Evict {s : State} {clu line} (h : UserBy me s) : UserBy me (l1Evict s clu line) := by
  unfold l1Evict
  split
  · exact h
  · exact .frame (.ite (.after_dirDrop (.ite h (.ite (.after_seqHome h) (.after_outWrite h))))
      (.ite h (.ite (.after_seqHome h) (.after_outWrite h))))

theorem UserBy.after_l1Place {s : State} {clu line} (h : UserBy me s) : UserBy me (l1Place s clu line).2 := by
  unfold l1Place
  dsimp only
  split
  · split
    · exact .snd (.after_l1Evict (.frame h))
    · exact .snd (.frame h)
  · exact .snd (.frame h)

theorem UserBy.after_l1Fill {s : State} {clu line pa ty} (h : UserBy me s) :
    UserBy me (l1Fill s clu line pa ty).2 := by
  unfold l1Fill
  split
  · exact .snd h
  · exact .snd (.frame (.after_outRead (.after_l1Place h)))

theorem UserBy.after_l1Write {s : State} {clu line pa ty dat m} (h : UserBy me s) :
    UserBy me (l1Write s clu line pa ty dat m) :=
  .frame (.after_l1Fill h)

/-! The SEQ directory (R122): one request, served whole. -/

theorem UserBy.after_dirRecall {s : State} {j line keep} (h : UserBy me s) :
    UserBy me (dirRecall s j line keep) := by
  unfold dirRecall
  split
  · exact h
  · exact .frame (.after_seqHome h)

theorem UserBy.after_dirClear {s : State} {line} (h : UserBy me s) : UserBy me (dirClear s line) := by
  unfold dirClear
  refine .frame ?_
  split
  · exact .foldl h fun _ _ h => .frame h
  · exact .after_dirRecall h
  · exact h

theorem UserBy.after_seqFill {s : State} {clu line pa} (h : UserBy me s) :
    UserBy me (seqFill s clu line pa) := by
  unfold seqFill
  split
  · exact h
  · exact .frame (.after_l2Fill (.after_l1Place h))

theorem UserBy.after_dirServe {s : State} {clu line pa k} (h : UserBy me s) :
    UserBy me (dirServe s clu line pa k) := by
  unfold dirServe
  split
  · split
    · exact .frame (.after_seqFill h)
    · exact .frame (.after_seqFill h)
    · exact .ite h (.frame (.after_seqFill (.after_dirRecall h)))
  · split
    · exact .ite h (.frame (.after_seqFill (.after_dirRecall h)))
    · exact .frame (.after_seqFill (.foldl h fun _ _ h => .frame h))
    · exact .frame (.after_seqFill h)
  · exact .after_l1Evict h
  · exact .after_dirClear h
  · exact .after_dirClear h

/-! The write-combining buffer (R107). -/

theorem UserBy.after_wcbDrainOne {s : State} {a e} (h : UserBy me s) : UserBy me (wcbDrainOne s a e) :=
  .after_l1Write h

theorem UserBy.after_wcbDrain {s : State} {a} (h : UserBy me s) : UserBy me (wcbDrain s a) :=
  .foldl (.modCore h) fun _ _ h => .after_wcbDrainOne h

theorem UserBy.after_wcbEvict {s : State} {a line} (h : UserBy me s) : UserBy me (wcbEvict s a line) := by
  unfold wcbEvict
  split
  · exact h
  · exact .after_wcbDrainOne (.modCore h)

theorem UserBy.after_wcbStore {s : State} {a line pa ty dat m} (h : UserBy me s) :
    UserBy me (wcbStore s a line pa ty dat m) := by
  unfold wcbStore
  refine .ite (.withCore h) ?_
  refine .modCore ?_
  refine .ite h ?_
  split
  · exact .after_wcbEvict h
  · exact h

/-! Pushes and drops (R103, R104, R124). -/

theorem UserBy.after_pushL1 {s : State} {clu sc want} (h : UserBy me s) : UserBy me (pushL1 s clu sc want) :=
  .foldl h fun _ _ h => .ite h (.frame (.after_outWrite h))

theorem UserBy.after_pushL2 {s : State} {die sc want} (h : UserBy me s) : UserBy me (pushL2 s die sc want) :=
  .foldl h fun _ _ h => .ite h (.frame (.after_physWrite h))

/-! Writes that leave the device (R411, R414). -/

theorem UserBy.after_leaves {s : State} {u} (h : UserBy me s) : UserBy me (leaves s u) :=
  .after_pendOnce (.frame h)

theorem UserBy.after_pushCopy {s : State} {page p want} (h : UserBy me s) :
    UserBy me (pushCopy s page p want) := by
  unfold pushCopy
  dsimp only
  split
  · exact .frame h
  · exact .ite (.after_leaves (.frame h)) (.frame h)

theorem UserBy.after_pushPages {s : State} {want} (h : UserBy me s) : UserBy me (pushPages s want) :=
  .foldl h fun _ _ h => .after_pushCopy h

theorem UserBy.after_pushTo {s : State} {a sc want} (h : UserBy me s) : UserBy me (pushTo s a sc want) := by
  unfold pushTo
  extract_lets s₁ s₂ s₃
  have h₁ : UserBy me s₁ := .ite (.foldl h fun _ _ h => .after_wcbEvict h) h
  have h₂ : UserBy me s₂ := .ite h (.ite (.after_pushL1 h₁) h₁)
  have h₃ : UserBy me s₃ := .ite (.after_pushL2 h₂) h₂
  exact .ite (.after_pushPages h₃) h₃

theorem UserBy.after_dropL1 {s : State} {clu sc want} (h : UserBy me s) : UserBy me (dropL1 s clu sc want) :=
  .foldl h fun _ _ h => .ite h (.ite (.frame h) (.frame (.after_outRead h)))

theorem UserBy.after_dropTo {s : State} {a sc bump want} (h : UserBy me s) :
    UserBy me (dropTo s a sc bump want) :=
  .ite (.after_dropL1 (.ite (.frame (.ite (.frame h) h)) (.ite (.frame h) h))) (.ite (.frame (.ite (.frame h) h)) (.ite (.frame h) h))

theorem UserBy.after_acquire {s : State} {a sc} (h : UserBy me s) : UserBy me (acquire s a sc) :=
  .after_dropTo h

theorem UserBy.after_release {s : State} {a sc} (h : UserBy me s) : UserBy me (release s a sc) :=
  .after_pushTo h

theorem UserBy.after_pushLine {s : State} {a line sc} (h : UserBy me s) : UserBy me (pushLine s a line sc) :=
  .after_dropTo (.after_pushTo h)

/-! Subscriptions: stores at a publisher core's port (R138, R140, R141). -/

theorem UserBy.after_atPort {s : State} {a} (h : UserBy me s) : UserBy me (atPort s a) :=
  .ite h (.frame h)

theorem UserBy.after_pubNote {s : State} {a i b m dat} (h : UserBy me s) :
    UserBy me (pubNote s a i b m dat) := by
  have hc : ∀ l, UserBy me (s.setCore a { s.core a with pubPend := l }) := fun _ => .withCore h
  unfold pubNote
  dsimp only
  split
  · exact .ite (hc _) (.frame (hc _))
  · exact .frame (hc _)

theorem UserBy.after_spWrite {s : State} {a off n x} (h : UserBy me s) : UserBy me (spWrite s a off n x) :=
  .foldl (.ite (.frame (.withCore h)) (.withCore h)) fun _ _ h => .after_pubNote h

theorem UserBy.after_dsWrite {s : State} {d off n x} (h : UserBy me s) : UserBy me (dsWrite s d off n x) :=
  .ite (.frame h) (.frame h)

/-! Pages of other devices (R128 to R130). -/

theorem UserBy.after_storeDropped {s : State} {x ia} (h : UserBy me s) : UserBy me (storeDropped s x ia) :=
  .after_record h

theorem UserBy.after_remoteWrite {s : State} {x ia n v} (h : UserBy me s) :
    UserBy me (remoteWrite s x ia n v) := by
  unfold remoteWrite
  refine .ite (.after_leaves h) ?_
  split
  · exact .frame h
  · split <;> exact .frame h

theorem UserBy.after_farWrite {s : State} {x ia n v ty} (h : UserBy me s) : UserBy me (farWrite s x ia n v ty) :=
  .ite (.after_leaves h) (.ite (.frame h) (.frame h))

/-! Stores to this device's own pages that other devices hold (R129, R130). -/

theorem UserBy.after_holdOwn {s : State} {x ia n v} (h : UserBy me s) : UserBy me (holdOwn s x ia n v) :=
  .after_askOwn (.frame (.ite h (.after_wcbEvict h)))

/-! The host aperture (R411). -/

theorem UserBy.after_apertureWrite {s : State} {x a n v} (h : UserBy me s) :
    UserBy me (apertureWrite s x a n v) :=
  .ite (.frame h) (.after_leaves h)

theorem UserBy.after_hostBack {s : State} (h : UserBy me s) : UserBy me (hostBack s) :=
  .ite (.frame h) (.frame h)

/-! Reads and writes along an agent's path. -/

theorem UserBy.after_relRead {s : State} {x line pa ty} (h : UserBy me s) :
    UserBy me (relRead s x line pa ty).2 := by
  unfold relRead
  refine .ite_snd (.after_outRead h) ?_
  dsimp only
  split <;> exact .snd (.after_l1Fill h)

theorem UserBy.after_readPath {s : State} {x p n} (h : UserBy me s) : UserBy me (readPath s x p n).2 := by
  unfold readPath
  dsimp only
  split
  · exact .snd (.after_accepted h)
  · exact .snd (.after_accepted h)
  · exact .snd (.after_accepted h)
  · exact .snd (.after_accepted h)
  · exact .snd (.after_accepted h)
  · refine .ite_snd (.snd (.after_accepted h)) ?_
    split
    · exact .snd (.after_accepted h)
    · refine .ite_snd ?_ ?_
      · refine .snd ?_
        refine .after_l2Fill ?_
        split
        · exact .after_dirRecall (.frame (.after_accepted h))
        · exact .after_accepted h
      · split <;> exact .snd (.after_dirServe (.after_accepted h))
    · exact .snd (.after_relRead (.after_accepted h))

theorem UserBy.after_writePath {s : State} {x p n v} (h : UserBy me s) : UserBy me (writePath s x p n v) := by
  unfold writePath
  dsimp only
  split
  · exact .after_spWrite (.after_accepted h)
  · exact .after_dsWrite (.after_accepted h)
  · exact .after_apertureWrite (.after_accepted h)
  · exact .after_remoteWrite (.after_accepted h)
  · exact .after_farWrite (.after_accepted h)
  · refine .ite (.after_storeDropped (.after_accepted h)) ?_
    refine .ite (.after_holdOwn (.after_accepted h)) ?_
    split
    · exact .frame (.after_physWrite (.after_accepted h))
    · refine .ite (.after_l2Write (.after_dirClear (.after_accepted h))) ?_
      split
      · exact .frame (.after_dirServe (.after_accepted h))
      · exact .after_physWrite (.after_dirServe (.after_accepted h))
    · exact .ite (.after_outWrite (.after_accepted h)) (.after_wcbStore (.after_accepted h))

theorem UserBy.after_atomicPath {s : State} {x p n sc f} (h : UserBy me s) :
    UserBy me (atomicPath s x p n sc f).2 := by
  unfold atomicPath
  dsimp only
  split
  · refine .snd ?_
    split
    · exact .after_spWrite (.after_accepted h)
    · exact .after_accepted h
  · refine .snd ?_
    split
    · exact .after_dsWrite (.after_accepted h)
    · exact .after_accepted h
  · refine .snd ?_
    split
    · exact .after_apertureWrite (.after_accepted h)
    · exact .after_accepted h
  · refine .snd ?_
    split
    · split <;> exact .frame (.after_pushPages (.after_accepted h))
    · exact .after_pushPages (.after_accepted h)
  · refine .snd ?_
    split
    · exact .after_farWrite (.after_accepted h)
    · exact .after_accepted h
  · split
    · refine .snd ?_
      split
      · exact .after_l2Write (.after_l2Fill (.after_dirClear (.after_accepted h)))
      · exact .after_l2Fill (.after_dirClear (.after_accepted h))
    · exact .snd (.after_accepted h)
    · refine .ite_snd ?_ ?_
      · refine .snd ?_
        split
        · exact .after_physWrite (.after_sarkUpdate (.after_pushLine (.after_accepted h)))
        · exact .after_sarkUpdate (.after_pushLine (.after_accepted h))
      · refine .snd ?_
        split
        · exact .after_wcbStore (.after_relRead (.after_accepted h))
        · exact .after_relRead (.after_accepted h)
    · refine .ite_snd ?_ ?_
      · refine .snd ?_
        split
        · exact .after_physWrite (.after_sarkUpdate (.after_pushLine (.after_accepted h)))
        · exact .after_sarkUpdate (.after_pushLine (.after_accepted h))
      · refine .ite_snd ?_ ?_
        · refine .ite_snd ?_ ?_
          · refine .snd ?_
            split
            · exact .after_l2Write (.after_l2Fill (.after_pushLine (.after_accepted h)))
            · exact .after_l2Fill (.after_pushLine (.after_accepted h))
          · refine .snd ?_
            split
            · exact .after_physWrite (.after_sarkUpdate (.after_pushLine (.after_accepted h)))
            · exact .after_sarkUpdate (.after_pushLine (.after_accepted h))
        · refine .ite_snd ?_ ?_
          · refine .snd ?_
            split
            · exact .after_l1Write (.after_l1Fill (.after_wcbEvict (.after_accepted h)))
            · exact .after_l1Fill (.after_wcbEvict (.after_accepted h))
          · refine .snd ?_
            split
            · exact .after_wcbStore (.after_relRead (.after_accepted h))
            · exact .after_relRead (.after_accepted h)

/-! Reads and writes of engines, at the home of the data (R114, R349). -/

theorem UserBy.after_homeRead {s : State} {x p n} (h : UserBy me s) : UserBy me (homeRead s x p n).2 := by
  unfold homeRead
  dsimp only
  split
  · exact .ite_snd (.snd (.after_accepted h)) (.snd (.after_accepted h))
  · exact .snd (.after_accepted h)
  · exact .after_readPath (.after_accepted h)

theorem UserBy.after_l2Through {s : State} {die line dat m} (h : UserBy me s) :
    UserBy me (l2Through s die line dat m) := by
  unfold l2Through
  split
  · exact h
  · exact .frame h

theorem UserBy.after_wsoRecords {s : State} {x ia n isFull} (h : UserBy me s) :
    UserBy me (wsoRecords s x ia n isFull).2 :=
  .foldlBy Prod.snd (.snd h) fun _ _ h => .ite_snd (.snd h) (.snd (.after_record h))

theorem UserBy.after_homeWrite {s : State} {x p n v} (h : UserBy me s) : UserBy me (homeWrite s x p n v) := by
  unfold homeWrite
  dsimp only
  split
  · refine .ite (.after_storeDropped (.after_accepted h)) ?_
    split
    · exact .foldl (.after_wsoRecords (.after_accepted h)) fun _ _ h => .frame (.after_physWrite h)
    · exact .after_l2Write (.after_dirClear (.after_accepted h))
    · exact .after_l2Through (.after_physWrite (.after_accepted h))
  · split
    · exact .ite (.after_remoteWrite (.after_accepted h)) (.frame (.after_accepted h))
    · exact .after_remoteWrite (.after_accepted h)
  · exact .foldl (.after_wsoRecords (.after_accepted h)) fun _ _ h => .after_farWrite h
  · exact .after_spWrite (.after_accepted h)
  · exact .after_writePath (.after_accepted h)

/-! The course of an access. -/

theorem UserBy.after_taintAcquire {s : State} {tainted} (h : UserBy me s) : UserBy me (taintAcquire s tainted) :=
  .ite (.foldl h fun _ _ h => .after_acquire h) h

theorem UserBy.after_pageFault {s : State} {code sub va ia limit fetch info} (h : UserBy me s) :
    UserBy me (pageFault s code sub va ia limit fetch info) :=
  .after_waitFor (.frame h)

theorem UserBy.after_refuse {s : State} {i va e} (h : UserBy me s) : UserBy me (refuse i s va e) := by
  unfold refuse
  dsimp only
  split
  · exact .after_faultCur h
  · exact .after_pageFault h
  · exact .after_waitFor (.after_atPort h)
  · exact .after_waitFor (.frame h)
  · exact .after_waitFor (.after_askOwn h)

theorem UserBy.after_waitPort {s : State} {a lim} (h : UserBy me s) : UserBy me (waitPort s a lim) :=
  .after_waitFor (.after_atPort h)

theorem UserBy.after_holdOn {s : State} {lim h'} (h : UserBy me s) : UserBy me (holdOn s lim h') := by
  unfold holdOn
  split
  · exact .after_waitFor (.after_atPort h)
  · exact .after_waitFor (.foldl h fun _ _ h => .after_pendOnce h)
  · exact .after_waitFor (.after_pendOnce h)

theorem UserBy.after_access {s : State} {i va n align k need go} (h : UserBy me s)
    (hgo : ∀ x, UserBy me (go x)) : UserBy me (access i s va n align k need go) := by
  unfold access
  split
  · exact .after_refuse h
  · split
    · exact .after_holdOn h
    · exact hgo _

/-! Groups 0x01 to 0x09. -/

@[simp] theorem aluOut_priv (i : Instr) (c : Ctx) (d : Reg) (r : Fl Word) : (aluOut i c d r).priv = c.priv := by simp [aluOut]

theorem OutUser.after_execAlu {s : State} {i d f} (h : UserBy me s) : OutUser (execAlu i s d f) :=
  .after_issueReg h fun _ hc => .of hc

/-! OPC 0x03 (R258). -/

theorem OutUser.after_execAddr {s : State} {i d a n} (h : UserBy me s) : OutUser (execAddr i s d a n) := by
  unfold execAddr
  refine .after_issue h fun c hc => ?_
  split
  · exact .after_raise h
  · exact .setCur h (.of hc)

/-! Branches, jumps and calls (R264 to R267). -/

theorem UserCtx.after_jumpTo {b c pc} (hc : UserCtx b c) : UserCtx b (jumpTo c pc) := hc

theorem OutUser.after_execBranch {s : State} {i o taken} (h : UserBy me s) : OutUser (execBranch i o s taken) :=
  .after_issue h fun c hc => .setCur h (.ite (.after_jumpTo hc) (.of hc))

theorem UserBy.after_jumpReg {s : State} {i c x} (h : UserBy me s) (hc : UserCtx me c) : UserBy me (jumpReg i s c x) :=
  .ite (.after_raise h) (.setCur h (.after_jumpTo hc))

/-! Scopes of names (R160, R268; LEAVE is with the service that it gives the freed registers to). -/

theorem UserCtx.after_openNames {b c g v} (hc : UserCtx b c) : UserCtx b (openNames c g v) :=
  List.foldlRecOn (motive := UserCtx b) _ _ (List.foldlRecOn (motive := UserCtx b) _ _ hc fun _ h _ _ => .of h) fun _ h _ _ => .of h

theorem OutUser.after_execEnter {s : State} {o} (h : UserBy me s) : OutUser (execEnter o s) :=
  .after_issue h fun _ hc => .ite (.after_raise h) (.ite (.after_waitFor h) (.setCur h (.after_openNames hc)))

/-! Register state (R270, R271, R244). -/

theorem OutUser.after_execBrk {s : State} {o} (h : UserBy me s) : OutUser (execBrk o s) :=
  .after_issue h fun _ _ => .after_raise (.ite (.after_haltGroup h) h)

/-! Fetching and decoding the next instruction of a context (R237, R242, R245), and which cores and contexts may issue. -/

theorem UserBy.after_decodeFault {s : State} {code ws} (h : UserBy me s) : UserBy me (decodeFault s code ws) :=
  .after_takeFault h

theorem UserBy.after_fetchRefused {s : State} {va e} (h : UserBy me s) : UserBy me (fetchRefused s va e) := by
  unfold fetchRefused
  split
  · exact .after_takeFault h
  · exact .after_pageFault h
  · exact .after_waitFor h
  · exact .after_waitFor h
  · exact .after_waitFor h

theorem UserBy.after_fetchWords {s t : State} {pc n ws} (h : UserBy me s) (e : fetchWords s pc n = .words ws t) :
    UserBy me t := by
  induction n generalizing s pc ws with
  | zero =>
    cases e
    exact h
  | succ n ih =>
    unfold fetchWords at e
    dsimp only at e
    split at e
    · cases e
    · split at e
      · cases e
      · split at e
        · cases e
        · cases e
        · rename_i e'
          cases e
          exact ih (.ite h (.after_accepted h)) e'

theorem UserBy.after_fetchInstr {s t : State} {pc ws} (h : UserBy me s) (e : fetchInstr s pc = .words ws t) :
    UserBy me t := by
  unfold fetchInstr at e
  split at e
  · rename_i e₁
    split at e
    · cases e
    · cases e
    · rename_i e₂
      cases e
      exact .after_fetchWords (.after_fetchWords h e₁) e₂
  · exact .after_fetchWords h e

theorem UserBy.after_nextInstr_run {s t : State} {i} (h : UserBy me s) (e : nextInstr s = .run i t) :
    UserBy me t := by
  unfold nextInstr at e
  dsimp only at e
  split at e
  · cases e
  · cases e
  · rename_i e'
    split at e
    · cases e
    · split_ifs at e
      cases e
      exact .after_fetchInstr h e'

theorem UserBy.after_nextInstr_stop {s t : State} (h : UserBy me s) (e : nextInstr s = .stop t) :
    UserBy me t := by
  unfold nextInstr at e
  dsimp only at e
  split at e
  · cases e
    exact .after_fetchRefused h
  · cases e
    exact .after_holdOn h
  · rename_i e'
    have hw := UserBy.after_fetchInstr h e'
    split at e
    · cases e
      exact .after_decodeFault hw
    · split_ifs at e <;>
      · cases e
        exact .after_decodeFault hw

/-! Scratchpad ways. -/

theorem UserBy.after_setSpWay {s : State} {a j w} (h : UserBy me s) : UserBy me (s.setCore a (setSpWay (s.core a) j w)) := .withCore h

theorem UserBy.after_zeroWay {s : State} {a j} (h : UserBy me s) : UserBy me (zeroWay s a j) := .frame (.modCore h)

theorem UserBy.after_leaveWays {s : State} {a} (h : UserBy me s) : UserBy me (leaveWays s a) := by
  unfold leaveWays
  refine .foldl h fun _ _ h => ?_
  refine .ite ?_ h
  split
  · exact .ite (.after_setSpWay h) (.after_zeroWay (.after_setSpWay h))
  · exact .after_zeroWay (.after_setSpWay h)

theorem UserBy.after_enterWay {s : State} {a j start} (h : UserBy me s) : UserBy me (enterWay s a j start) := by
  unfold enterWay
  dsimp only
  split
  · exact h
  · refine .ite (.after_setSpWay h) ?_
    refine .modCore ?_
    refine .foldl h fun _ _ h => ?_
    split
    · exact .after_zeroWay h
    · exact h
  · exact .after_zeroWay (.after_setSpWay h)

theorem UserBy.after_growWays {s : State} {a q} (h : UserBy me s) : UserBy me (growWays s a q) :=
  .ite h (.modCore (.foldl h fun _ _ h => .modCore (.foldl h fun _ _ h => .after_l1Evict h)))

theorem UserBy.after_claimWays {s : State} {a q start} (h : UserBy me s) : UserBy me (claimWays s a q start) :=
  .ite (.modCore (.foldl (.after_growWays h) fun _ _ h => .after_enterWay h)) (.foldl (.after_growWays h) fun _ _ h => .after_enterWay h)

theorem UserBy.after_shrinkWays {s : State} {a q k} (h : UserBy me s) : UserBy me (shrinkWays s a q k) :=
  .ite (.after_leaveWays h) (.modCore (.foldl (.after_leaveWays h) fun _ _ h => .modCore (.after_zeroWay h)))

theorem UserBy.after_retainWays {s : State} {a ch q} (h : UserBy me s) : UserBy me (retainWays s a ch q) := by
  unfold retainWays
  refine .modCore ?_
  refine .foldl h fun _ _ h => ?_
  split
  · exact .ite h (.modCore (.after_zeroWay h))
  · exact h

/-! Groups 0x10 to 0x17. -/

theorem UserBy.after_done {s : State} {i} (h : UserBy me s) : UserBy me (done i s) := .withCur h

theorem UserBy.after_land {s : State} {vec r x fl t} (h : UserBy me s) : UserBy me (land s vec r x fl t) :=
  .frame (.withCur h (by intro h; split_ifs <;> simpa using h))

theorem UserBy.after_landG {s : State} {r x fl t} (h : UserBy me s) : UserBy me (landG s r x fl t) := .after_land h

theorem UserBy.after_postInc {s : State} {base pi nb} (h : UserBy me s) : UserBy me (postInc s base pi nb) :=
  .ite (.withCur h) h

/-! Fences (R103, R104, R127, R143, R280). -/

theorem UserBy.after_releaseThen {s : State} {sc go limit} (h : UserBy me s)
    (hgo : ∀ t, UserBy me t → UserBy me (go t)) : UserBy me (releaseThen s sc go limit) :=
  .ite (.after_waitFor h) (.ite (.after_waitFor (.after_release h)) (hgo _ (.after_release h)))

theorem OutUser.after_execFence {s : State} {o} (h : UserBy me s) : OutUser (execFence o s) := by
  unfold execFence
  refine .after_issue h fun c hc => ?_
  split
  · exact .after_done (.after_acquire h)
  · exact .after_releaseThen h fun _ h => .after_done h
  · exact .after_releaseThen h fun _ h => .after_done (.after_acquire h)

/-! Loads and stores (R274). -/

theorem UserBy.after_loadForm {s : State} {i base step pi n need fin} (h : UserBy me s)
    (hfin : ∀ x t, UserBy me t → UserBy me (fin x t)) : UserBy me (loadForm i s base step pi n need fin) := by
  unfold loadForm
  dsimp only
  split
  · exact .after_raise h
  · exact .after_access h fun _ => .after_done (hfin _ _ (.after_postInc (.after_readPath (.after_taintAcquire h))))

theorem OutUser.after_execLd {s : State} {o} (h : UserBy me s) : OutUser (execLd o s) :=
  .after_issue h fun _ _ => .after_loadForm h fun _ _ h => .after_landG h

theorem OutUser.after_execSt {s : State} {o} (h : UserBy me s) : OutUser (execSt o s) := by
  unfold execSt
  refine .after_issue h fun c hc => ?_
  dsimp only
  split
  · exact .after_raise h
  · exact .after_access h fun _ => .after_done (.after_postInc (.after_writePath (.after_taintAcquire (.ite (.after_release h) h))))

/-! Typed elements (R275). -/

theorem UserBy.after_elemAccess {s : State} {i e k go} (h : UserBy me s) (hgo : ∀ x y, UserBy me (go x y)) :
    UserBy me (elemAccess i s e k go) := by
  unfold elemAccess
  dsimp only
  split
  · exact .after_faultCur h
  · refine .after_access h fun _ => ?_
    split
    · exact hgo _ _
    · exact .after_access h fun _ => hgo _ _

theorem OutUser.after_execLde {s : State} {o} (h : UserBy me s) : OutUser (execLde o s) := by
  unfold execLde
  refine .after_issue h fun c hc => ?_
  dsimp only
  split
  · exact .after_raise h
  · split
    · exact .after_raise h
    · refine .after_elemAccess h fun _ _ => ?_
      refine .after_done (.after_landG (.after_postInc ?_))
      split
      · exact .snd (.after_readPath (.after_taintAcquire h))
      · exact .after_readPath (.after_readPath (.after_taintAcquire h))

theorem UserBy.after_storeElem {s : State} {p f e v} (h : UserBy me s) : UserBy me (storeElem s p f e v) :=
  .ite (.after_writePath (.after_readPath h)) (.after_writePath h)

theorem OutUser.after_execSte {s : State} {o} (h : UserBy me s) : OutUser (execSte o s) := by
  unfold execSte
  refine .after_issue h fun c hc => ?_
  dsimp only
  split
  · exact .after_raise h
  · split
    · exact .after_raise h
    · exact .after_access h fun _ => .after_done (.withCur (.after_postInc (.after_storeElem (.after_taintAcquire h))))

/-! Ordered accesses (R276, R277). -/

theorem OutUser.after_execLdAcq {s : State} {o} (h : UserBy me s) : OutUser (execLdAcq o s) :=
  .after_issue h fun _ _ => .after_loadForm h fun _ _ h => .after_landG (.after_acquire h)

theorem OutUser.after_execLdc {s : State} {o} (h : UserBy me s) : OutUser (execLdc o s) :=
  .after_issue h fun c hc => .after_loadForm h fun _ _ h => .after_landG (.withCur h)

theorem OutUser.after_execLds {s : State} {o} (h : UserBy me s) : OutUser (execLds o s) := by
  unfold execLds
  refine .after_issue h fun c hc => ?_
  split
  · exact .after_raise h
  · exact .after_access h fun _ => .ite (.after_waitFor h)
      (.after_done (.after_landG (.after_acquire (.after_readPath (.after_taintAcquire h)))))

theorem OutUser.after_execStRel {s : State} {o} (h : UserBy me s) : OutUser (execStRel o s) := by
  unfold execStRel
  refine .after_issue h fun c hc => ?_
  dsimp only
  split
  · exact .after_raise h
  · exact .after_access h fun _ => .after_releaseThen h fun _ h => .after_done (.after_writePath (.after_taintAcquire h))

/-! Atomics (R278, R279). -/

theorem OutUser.after_execAmo {s : State} {o} (h : UserBy me s) : OutUser (execAmo o s) := by
  unfold execAmo
  refine .after_issue h fun c hc => ?_
  extract_lets n x y
  split
  · exact .after_raise h
  · refine .after_access h fun p => ?_
    extract_lets go
    have hgo (t : State) (h : UserBy me t) : UserBy me (go t) := by
      dsimp only [go]
      exact .after_done (.after_landG (.ite (.after_acquire (.after_atomicPath (.after_taintAcquire h)))
        (.after_atomicPath (.after_taintAcquire h))))
    exact .ite (.after_releaseThen h hgo) (hgo _ h)

/-! Accesses of other devices (R128, R279). -/

theorem UserBy.after_devicePerform {s : State} {r ia pa ty} (h : UserBy me s) :
    UserBy me (devicePerform s r ia pa ty) := by
  unfold devicePerform
  refine .ite ?_ ?_
  · dsimp only
    split
    · exact .after_l2Write (.after_l2Fill (.after_dirClear h))
    · exact .after_l2Fill (.after_dirClear h)
  · split
    · exact h
    · exact .ite (.frame (.after_l2Through (.after_physWrite h))) (.after_l2Through (.after_physWrite h))

theorem UserBy.after_deviceAccess {s : State} {r} (h : UserBy me s) :
    ∀ y, deviceAccess s r = some y → UserBy me y := by
  unfold deviceAccess
  dsimp only
  split
  · intro _ e
    obtain rfl := Option.some.inj e
    refine .ite ?_ ?_
    · exact .after_storeDropped (.after_accepted h)
    · exact .after_devicePerform (.after_accepted h)
  · exact fun | _, rfl => h
  · exact fun _ e => nomatch e
  · exact fun | _, rfl => .ite (.frame h) (.ite (.after_storeDropped h) h)
  · exact fun | _, rfl => h

/-! Maintenance (R281 to R284). -/

theorem OutUser.after_execSpresize {s : State} {o} (h : UserBy me s) : OutUser (execSpresize o s) := by
  unfold execSpresize
  refine .after_issue h fun c hc => ?_
  extract_lets a q grow s₁ c₁ s₂ s₃
  have h₁ : UserBy me s₁ := .ite (.after_claimWays h) h
  have h₂ : UserBy me s₂ := .withCur h₁
  have h₃ : UserBy me s₃ := .ite h₂ (.after_shrinkWays h₂)
  exact .ite (.after_raise h) (.ite (.after_waitFor h) (.withCur h₃))

theorem OutUser.after_execRange {s : State} {i o go} (h : UserBy me s)
    (hgo : ∀ t, UserBy me t → ∀ y z, UserBy me (go t y z)) : OutUser (execRange i o s go) := by
  unfold execRange
  refine .after_issue h fun c hc => ?_
  refine .ite (.after_raise h) ?_
  refine .ite (.after_done h) ?_
  split
  · exact .after_raise h
  · exact .after_done h
  · exact .ite (.after_raise h) (.ite (.after_waitFor h) (.after_done (hgo _ h _ _)))

theorem OutUser.after_execInvs {s : State} {o} (h : UserBy me s) : OutUser (execInvs o s) :=
  .after_execRange h fun _ h _ _ => .after_dropTo (.ite (.frame h) h)

theorem UserBy.after_prefetch {s : State} {x p lvl} (h : UserBy me s) : UserBy me (prefetch s x p lvl) := by
  unfold prefetch
  split
  · exact .ite (.after_accepted h)
      (.ite (.ite (.after_dirServe (.after_accepted h)) (.after_l1Fill (.after_accepted h)))
      (.ite (.after_l2Fill (.after_accepted h)) (.after_outRead (.after_accepted h))))
  · split
    · exact .foldl h fun _ _ h => .after_pendOnce h
    · exact h
  · exact h

theorem OutUser.after_execPref {s : State} {o} (h : UserBy me s) : OutUser (execPref o s) := by
  unfold execPref
  refine .after_issue h fun c hc => ?_
  split
  · exact .after_done (.after_prefetch (.after_taintAcquire h))
  · exact .after_done h

/-! Host commands as messages carry them (R409), their order (R410) and their replies. -/

theorem UserBy.after_hostReply {s : State} {c status value} (h : UserBy me s) :
    UserBy me (hostReply s c status value) :=
  .ite h (.frame h)

theorem UserBy.after_firmwareTake {s : State} {m} (h : UserBy me s) :
    ∀ y, firmwareTake s m = some y → UserBy me y := by
  unfold firmwareTake
  split
  · exact fun _ e => nomatch e
  · dsimp only
    split
    · exact fun | _, rfl => .frame h
    · split
      · exact fun | _, rfl => .frame h
      · split
        · exact fun _ e => nomatch e
        · exact fun | _, rfl => .after_hostReply (.frame h)

/-! Sending (R155). -/

theorem UserBy.after_dispatchMsg {s : State} {m} (h : UserBy me s) : UserBy me (dispatchMsg s m) :=
  .ite (.frame h) (.frame h)

theorem UserBy.after_sendMsg {s : State} {a m} (h : UserBy me s) : UserBy me (sendMsg s a m) :=
  .ite (.after_dispatchMsg (.withCore h)) (.withCore h)

/-! Resources at a receiver (R153, R154). -/

theorem UserBy.after_holdArrival {s : State} {a k m e level} (h : UserBy me s) :
    UserBy me (holdArrival s a k m e level) :=
  .after_pendOnce (.modCore h)

theorem UserBy.after_msgRecord {s : State} {m code sub} (h : UserBy me s) : UserBy me (msgRecord s m code sub) :=
  .after_record h

/-! Tag matching (R180, R181, R293). -/

theorem UserBy.after_deliverTag {s : State} {a p m} (h : UserBy me s) : UserBy me (deliverTag s a p m) := by
  unfold deliverTag
  refine .withCtx ?_
  split
  · exact .after_acquire (.foldl (.modCore h) fun _ _ h => .after_spWrite h)
  · exact .foldl (.modCore h) fun _ _ h => .after_spWrite h

theorem UserBy.after_takePosted {s : State} {a m} (h : UserBy me s) : UserBy me (takePosted s a m).2 := by
  unfold takePosted
  split
  · exact .snd h
  · exact .ite_snd (.snd h) (.snd (.modCore h))

/-! Refusal and service (R154). -/

theorem UserBy.after_refuseMsg {s : State} {a m} (h : UserBy me s) : UserBy me (refuseMsg s a m).1 :=
  .ite_fst (.fst h) (.ite_fst (.fst h) (.fst (.withCore h)))

theorem UserBy.after_reserveCtx {s : State} {a k e} (h : UserBy me s) : UserBy me (reserveCtx s a k e) := .modCtx h fun _ _ => rfl

theorem UserBy.after_serveN {s : State} {a n} (h : UserBy me s) : UserBy me (serveN s a n) := by
  induction n generalizing s with
  | zero => exact h
  | succ n ih =>
    unfold serveN
    dsimp only
    split
    · exact h
    · split
      · exact h
      · exact ih (.ite (.frame (.modCore (.ite (.after_reserveCtx h) h))) (.frame (.modCore (.ite (.after_reserveCtx h) h))))

theorem UserBy.after_serve {s : State} {a} (h : UserBy me s) : UserBy me (serve s a) :=
  .after_serveN h

/-! Arrival (R153). -/

theorem UserBy.after_dropResv {s : State} {a r} (h : UserBy me s) : UserBy me (dropResv s a r) := .modCore h

theorem UserBy.after_releaseResv {s : State} {a r} (h : UserBy me s) : UserBy me (releaseResv s a r) :=
  .ite (.modCtx (.after_dropResv h) fun _ _ => rfl) (.after_dropResv h)

theorem UserBy.after_giveBack {s : State} {a a2} (h : UserBy me s) : UserBy me (giveBack s a a2) := by
  unfold giveBack
  split
  · exact .after_releaseResv h
  · exact h

theorem UserBy.after_served {s : State} {a rv} (h : UserBy me s) : UserBy me (served s a rv) :=
  .ite (.after_serve h) h

theorem UserBy.after_gmuTake {s : State} {a m} (h : UserBy me s) : UserBy me (gmuTake s a m) :=
  .after_pendOnce (.modCore h)

theorem UserBy.after_arriveTask {s : State} {m level rv} (h : UserBy me s) :
    UserBy me (arriveTask s m level rv).1 := by
  unfold arriveTask
  refine .ite_fst (.ite_fst (.fst (.after_served (.modCore (.after_giveBack h))))
    (.fst (.after_msgRecord (.after_served (.after_refuseMsg (.after_giveBack h)))))) ?_
  split
  · exact .fst (.after_holdArrival (.modCore h))
  · refine .ite_fst (.fst (.after_served (.after_refuseMsg (.after_giveBack h)))) ?_
    split
    · exact .fst (.after_served (.after_refuseMsg (.after_giveBack h)))
    · exact .fst (.after_served (.after_holdArrival (.after_reserveCtx (.after_giveBack h))))

theorem UserBy.after_arrive {s : State} {m level} (h : UserBy me s) : UserBy me (arrive s m level).1 := by
  unfold arrive
  refine .ite_fst (.after_refuseMsg (.after_served (.after_giveBack h))) ?_
  refine .ite_fst (.fst (.after_msgRecord (.after_served (.after_giveBack h)))) ?_
  refine .ite_fst (.fst (.after_msgRecord (.after_served (.after_giveBack h)))) ?_
  refine .ite_fst (.fst h) ?_
  refine .ite_fst ?_ ?_
  · split
    · exact .fst (.after_gmuTake (.modCore h))
    · exact .ite_fst (.fst (.after_gmuTake h)) (.after_refuseMsg h)
  · refine .ite_fst (.fst (.after_msgRecord (.after_served (.after_giveBack h)))) ?_
    dsimp only
    split
    · exact .fst (.after_served (.after_deliverTag (.after_giveBack (.ite_snd (.after_takePosted h) (.snd h)))))
    · exact .after_arriveTask (.ite_snd (.after_takePosted h) (.snd h))

theorem UserCtx.after_closeScope {b c g v} (hc : UserCtx b c) : UserCtx b (closeScope c g v) :=
  List.foldlRecOn (motive := UserCtx b) _ _ (List.foldlRecOn (motive := UserCtx b) _ _ hc fun _ h _ _ => .of h) fun _ h _ _ => .of h

theorem OutUser.after_execLeave {s : State} (h : UserBy me s) : OutUser (execLeave s) := by
  unfold execLeave
  refine .after_issue h fun c hc => ?_
  split
  · exact .after_raise h
  · exact .ite (.after_serve (.setCur h (.of (UserCtx.after_closeScope hc)))) (.after_waitFor h)

/-! The travel of a message (R153 to R155). -/

theorem UserBy.after_arriveSticky {s : State} {m level} (h : UserBy me s) :
    UserBy me (arriveSticky s m level) := by
  unfold arriveSticky
  split
  · rename_i e
    exact .frame (.of_fst e (.after_arrive h))
  · rename_i e
    exact .frame (.of_fst e (.after_arrive h))
  · exact h

/-! The shipped firmware of a ridge core (R409). -/

theorem UserBy.after_pageService {s : State} {m} (h : UserBy me s) : UserBy me (pageService s m) :=
  .ite h (.frame h)

theorem UserBy.after_firmwareDone {s : State} {m} (h : UserBy me s) : UserBy me (firmwareDone s m) :=
  .ite (.frame (.after_pageService (.frame h))) (.after_pageService (.frame h))

theorem OutUser.after_execMessageArrive {s : State} (h : UserBy me s) : OutUser (execMessageArrive s) := by
  unfold execMessageArrive
  split
  · refine .ite (.after_answer (.frame (.after_arrive h))) ?_
    refine .ite (.next (.after_atPort h)) ?_
    refine .ite (.next (.frame h)) ?_
    refine .ite (.next (.frame h)) ?_
    refine .ite (.next (.frame h)) ?_
    refine .ite (.after_answer (.after_firmwareDone h)) ?_
    refine .ite (.after_answer (.frame (.after_arrive h))) ?_
    refine .ite (.after_answer (.after_arriveSticky h)) ?_
    refine .ite (.next h) ?_
    refine .ite ?_ (.after_answer (.frame (.after_arrive h)))
    split
    · exact .next h
    · rename_i e1
      exact .after_answer (.frame (.frame (UserBy.after_firmwareTake h _ e1)))
  · exact .next h

theorem UserBy.after_resendEntry {s : State} {a e} (h : UserBy me s) : UserBy me (resendEntry s a e) :=
  .ite (.after_dispatchMsg (.modCore h)) (.modCore h)

theorem OutUser.after_execMessageReply {s : State} (h : UserBy me s) : OutUser (execMessageReply s) := by
  unfold execMessageReply
  split
  · refine .next (a := me) ?_
    refine .ite ?_ ?_
    · refine .frame ?_
      split
      · exact .after_dispatchMsg (.ite (.frame h) (.modCore h))
      · exact .ite (.frame h) (.modCore h)
    · split
      · exact .after_dispatchMsg (.ite (.frame h) (.modCore h))
      · exact .ite (.frame h) (.modCore h)
  · exact .next h

theorem UserBy.after_hostResend {s : State} {dst ch} (h : UserBy me s) : UserBy me (hostResend s dst ch) := by
  unfold hostResend
  split
  · exact .frame h
  · exact h

theorem UserBy.after_hostSend {s : State} {m} (h : UserBy me s) : UserBy me (hostSend s m) :=
  .ite (.frame h) (.frame h)

theorem UserBy.after_hostRelease {s : State} (h : UserBy me s) : UserBy me (hostRelease s) :=
  .foldl h fun _ _ h => .ite h (.frame h)

theorem UserBy.after_resendHeads {s : State} {a p} (h : UserBy me s) : UserBy me (resendHeads s a p) :=
  .foldl h fun _ _ h => .ite (.after_resendEntry h) h

theorem UserBy.after_pathBack {s : State} {dev} (h : UserBy me s) : UserBy me (pathBack s dev) :=
  .ite (.frame h) (.foldl (.frame h) fun _ _ h => .foldl h fun _ _ h => .ite (.after_dispatchMsg (.modCore h)) h)

theorem UserBy.after_withdrawResv {s : State} {agent dst dev ch} (h : UserBy me s) :
    UserBy me (withdrawResv s agent dst dev ch) :=
  .ite (.frame h) (.frame h)

theorem OutUser.after_execContextFreeNotice {s : State} (h : UserBy me s) : OutUser (execContextFreeNotice s) := by
  unfold execContextFreeNotice
  split
  · refine .ite (.next (.after_hostResend (.frame h))) ?_
    split
    · exact .next (.after_withdrawResv (.frame h))
    · exact .ite (.next h) (.next (.after_resendEntry (.frame h)))
  · exact .next h

theorem OutUser.after_execResendTimerExpire {s : State} (h : UserBy me s) : OutUser (execResendTimerExpire s) := by
  unfold execResendTimerExpire
  split
  · refine .ite ?_ ?_
    · split
      · exact .next (.frame h)
      · exact .ite (.next h) (.next (.after_hostResend (.frame h)))
    · split
      · exact .next (.frame h)
      · exact .ite (.next (.frame h)) (.ite (.next h) (.next (.after_resendEntry (.frame h))))
  · exact .next h

theorem OutUser.after_execWithdrawal {s : State} (h : UserBy me s) : OutUser (execWithdrawal s) := by
  unfold execWithdrawal
  split
  · dsimp only
    split
    · exact .next (.after_serve (.after_releaseResv (.frame h)))
    · exact .next (.after_serve (.frame h))
  · exact .next h

theorem OutUser.after_execLoadLand {s : State} (h : UserBy me s) : OutUser (execLoadLand s) := by
  unfold execLoadLand
  split
  · exact .next (.after_landValue (.frame h))
  · exact .next h

/-! Futures and continuation records (R170 to R173, R299). -/

theorem UserBy.after_whoRecord {s : State} {w code sub va ia pa} (h : UserBy me s) :
    UserBy me (Who.record w s code sub va ia pa) :=
  .after_record h

/-! Fields of a record as a 512-bit number. -/

theorem UserBy.after_completeLink {s : State} {w link bad} (h : UserBy me s) :
    UserBy me (completeLink s w link bad).1 := by
  unfold completeLink
  dsimp only
  split
  · exact .fst (.ite (.frame (.after_atomicPath h)) (.after_atomicPath h))
  · exact .fst (.frame h)
  · exact .fst (.frame h)
  · exact .fst (.frame (.after_askOwn h))
  · exact .fst (.after_whoRecord h)
  · exact .fst h

theorem UserBy.after_completeList {s : State} {w bad n link} (h : UserBy me s) :
    UserBy me (completeList s w bad n link) := by
  induction n generalizing s link with
  | zero => exact h
  | succ n ih =>
    unfold completeList
    refine .ite h ?_
    split
    · rename_i e
      exact ih (.of_fst e (.after_completeLink h))
    · rename_i e
      exact .of_fst e (.after_completeLink h)

theorem UserBy.after_completionResume {s : State} {c} (h : UserBy me s) : UserBy me (Completion.resume c s) :=
  .after_completeList h

/-! The operations at a future's home (R172). -/

theorem UserBy.after_futureAnswered {s : State} {ia st} (h : UserBy me s) :
    UserBy me (futureAnswered s ia st) := by
  unfold futureAnswered
  refine .foldl h fun _ _ h => ?_
  refine .foldl h fun _ _ h => ?_
  split
  · exact .ite (.after_complete (.after_acquire h)) h
  · exact h

theorem UserBy.after_resolveFuture {s : State} {x p w val st} (h : UserBy me s) :
    UserBy me (resolveFuture s x p w val st).1 := by
  unfold resolveFuture
  dsimp only
  exact .ite_fst (.fst (.after_atomicPath h)) (.fst (.after_completeList (.after_futureAnswered (.after_atomicPath h))))

theorem UserBy.after_futureOp {s : State} {i va rel go} (h : UserBy me s)
    (hgo : ∀ x t, UserBy me t → UserBy me (go x t)) : UserBy me (futureOp i s va rel go) := by
  unfold futureOp
  split
  · exact .after_refuse h
  · exact .ite (.after_releaseThen (.after_taintAcquire h) fun _ h => hgo _ _ h) (hgo _ _ (.after_taintAcquire h))

theorem UserBy.after_notPending {s : State} {i va p} (h : UserBy me s) : UserBy me (notPending i s va p) :=
  .after_faultCur h

theorem OutUser.after_execFreg {s : State} {o} (h : UserBy me s) : OutUser (execFreg o s) := by
  unfold execFreg
  refine .after_issue h fun c hc => .after_futureOp h fun _ _ h => .ite (.after_raise h) ?_
  split
  · exact .after_done (.after_whoRecord h)
  · exact .after_waitFor (.frame h)
  · exact .after_refuse h
  · dsimp only
    refine .ite (.after_raise (.after_atomicPath h)) (.after_done ?_)
    refine .ite ?_ (.after_completeLink ?_)
    · exact .ite (.frame (.after_atomicPath (.after_atomicPath (.after_atomicPath h))))
        (.after_atomicPath (.after_atomicPath (.after_atomicPath h)))
    · exact .ite (.frame (.after_atomicPath (.after_atomicPath (.after_atomicPath h))))
        (.after_atomicPath (.after_atomicPath (.after_atomicPath h)))

theorem OutUser.after_execFres {s : State} {o} (h : UserBy me s) : OutUser (execFres o s) := by
  unfold execFres
  refine .after_issue h fun c hc => ?_
  refine .after_futureOp h fun _ _ h => ?_
  split
  · rename_i e
    exact .after_done (.of_fst e (.after_resolveFuture h))
  · rename_i e
    exact .after_notPending (.of_fst e (.after_resolveFuture h))

theorem OutUser.after_execFcancel {s : State} {o} (h : UserBy me s) : OutUser (execFcancel o s) :=
  .after_issue h fun _ _ => .after_futureOp h fun _ _ h => .after_done (.after_resolveFuture h)

theorem OutUser.after_execFreset {s : State} {o} (h : UserBy me s) : OutUser (execFreset o s) := by
  unfold execFreset
  dsimp only
  exact .after_issue h fun c hc => .after_futureOp h fun _ _ h => .ite (.after_notPending (.after_atomicPath h)) (.after_done (.after_atomicPath h))

theorem UserBy.after_futureRead {s : State} {p} (h : UserBy me s) : UserBy me (futureRead s p).2 := by
  unfold futureRead
  split
  · exact .snd h
  · exact .after_atomicPath h

theorem OutUser.after_execFwait {s : State} {o} (h : UserBy me s) : OutUser (execFwait o s) :=
  .after_issue h fun c hc => .after_futureOp h fun _ _ h => .ite (.after_waitFor (.after_futureRead h))
    (.withCur (.after_acquire (.after_futureRead h)))

/-! Accesses of any length, line by line. -/

theorem UserBy.after_engRead {s : State} {x va n} (h : UserBy me s) :
    ∀ y, engRead s x va n = .ok y → UserBy me y.2 := by
  unfold engRead
  split
  · exact fun _ e => nomatch e
  · rintro _ ⟨⟩
    exact .foldlBy (fun r : Nat × Nat × State => r.2.2) h fun _ _ h => .after_homeRead h

theorem UserBy.after_engWrite {s : State} {x va n v} (h : UserBy me s) :
    ∀ y, engWrite s x va n v = .ok y → UserBy me y := by
  unfold engWrite
  split
  · exact fun _ e => nomatch e
  · exact fun | _, rfl => .foldlBy Prod.snd (.snd h) fun _ _ h => .snd (.after_homeWrite h)

theorem UserBy.after_engWriteAll {s : State} {x l} (h : UserBy me s) :
    ∀ y, engWriteAll s x l = .ok y → UserBy me y := by
  unfold engWriteAll
  split
  · exact fun _ e => nomatch e
  · rintro _ ⟨⟩
    refine .foldl h fun _ _ h => ?_
    split
    · rename_i e1
      exact UserBy.after_engWrite h _ e1
    · exact h

/-! Sync words (R94, R95). -/

theorem UserBy.after_syncAdd {s : State} {x va n} (h : UserBy me s) :
    ∀ y, syncAdd s x va n = .ok y → UserBy me y := by
  unfold syncAdd
  split
  · exact fun | _, rfl => h
  · split
    · exact fun _ e => nomatch e
    · exact fun | _, rfl => .after_spWrite h

/-! Completion futures (R158, R170, R343). -/

theorem UserBy.after_engineResolve {s : State} {i e ia val st} (h : UserBy me s) :
    UserBy me (engineResolve s i e ia val st) := by
  unfold engineResolve
  dsimp only
  split
  · split
    · rename_i e1
      exact .of_fst e1 (.after_resolveFuture h)
    · rename_i e1
      exact .after_whoRecord (.of_fst e1 (.after_resolveFuture h))
  · exact .after_whoRecord h
  · exact .after_whoRecord h
  · exact .after_whoRecord h
  · exact .frame h
  · exact .frame (.after_askOwn h)
  · exact h

theorem UserBy.after_retryHeld {s : State} {page n} (h : UserBy me s) : UserBy me (retryHeld s page n) :=
  .foldl (.foldl (.frame h) fun _ _ h => .after_engineResolve h) fun _ _ h => .after_completionResume h

theorem UserBy.after_engFuture {s : State} {i e fut val st} (h : UserBy me s) :
    UserBy me (engFuture s i e fut val st) := by
  unfold engFuture
  refine .ite h ?_
  split
  · exact h
  · exact .after_engineResolve h

/-! Engine faults (R343, R192, R217). -/

theorem UserBy.after_engRefused {s : State} {i e va err cmd} (h : UserBy me s) :
    UserBy me (engRefused s i e va err cmd) := by
  unfold engRefused
  split
  · exact .frame h
  · exact .frame h
  · exact .after_atPort h
  · exact h
  · exact .after_askOwn h

theorem UserBy.after_joinFlags {s : State} {i fl} (h : UserBy me s) : UserBy me (joinFlags s i fl) := by
  unfold joinFlags
  split
  · exact .withCtx h
  · exact h

/-! The matrix lease (R165, R328). -/

theorem UserBy.after_arrayPass {s : State} {k} (h : UserBy me s) : UserBy me (arrayPass s k) :=
  .ite h (.frame h)

theorem UserBy.after_leaseGrant {s : State} {k p} (h : UserBy me s) : UserBy me (leaseGrant s k p) :=
  .after_arrayPass (.after_pendOnce (.frame h))

theorem UserBy.after_leaseNext {s : State} {k} (h : UserBy me s) : UserBy me (leaseNext s k) := by
  unfold leaseNext
  dsimp only
  split
  · exact .after_leaseGrant h
  · exact h

theorem UserBy.after_leaseDrop {s : State} {k p} (h : UserBy me s) : UserBy me (leaseDrop s k p) :=
  .after_leaseNext (.frame h)

theorem UserBy.after_leaseLeave {s : State} {p} (h : UserBy me s) : UserBy me (leaseLeave s p) :=
  .foldl h fun _ _ h => .after_leaseDrop h

theorem UserBy.after_leaseEnd {s : State} {k} (h : UserBy me s) : UserBy me (leaseEnd s k) := by
  unfold leaseEnd
  dsimp only
  split
  · exact h
  · exact .ite (.after_pendOnce (.frame h)) (.after_leaseNext (.frame h))

/-! Broken pipelines (R187). -/

theorem UserBy.after_failWaiter {s : State} {a k f} (h : UserBy me s) : UserBy me (failWaiter s a k f) :=
  .after_takeFault (.frame h)

theorem UserBy.after_failBroken {s : State} {j t} (h : UserBy me s) : UserBy me (failBroken s j t) := by
  unfold failBroken
  refine .foldl h fun _ _ h => ?_
  dsimp only
  split
  · exact .ite (.after_failWaiter h) h
  · exact .ite (.after_failWaiter h) h
  · exact h

theorem UserBy.after_breakMarks {s : State} {k t} (h : UserBy me s) : UserBy me (breakMarks s k t) := by
  unfold breakMarks
  dsimp only
  split
  · exact .after_engFuture (.foldl h fun _ _ h => .after_failBroken (.frame h))
  · exact .foldl h fun _ _ h => .after_failBroken (.frame h)

theorem UserBy.after_breakPipe {s : State} {k} (h : UserBy me s) : UserBy me (breakPipe s k) :=
  .ite h (.frame (.after_breakMarks (.frame h)))

/-! Near-bank descriptors (R338). -/

theorem UserBy.after_objectUpdate {s : State} {x ia f} (h : UserBy me s) :
    UserBy me (objectUpdate s x ia f) := by
  unfold objectUpdate
  split
  · exact h
  · exact .after_atomicPath h

theorem UserBy.after_nbFuture {s : State} {e fut val st} (h : UserBy me s) :
    UserBy me (nbFuture s e fut val st) := by
  unfold nbFuture
  split
  · exact h
  · exact .after_engineResolve h

theorem UserBy.after_nbStop {s : State} {e val} (h : UserBy me s) : UserBy me (nbStop s e val) := by
  unfold nbStop
  dsimp only
  split
  · exact .after_nbFuture (.after_objectUpdate (.frame h))
  · exact .after_objectUpdate (.frame h)

/-! Freezing a Gaussian message unit (R72). -/

theorem UserBy.after_flagFrozen {s : State} {a on} (h : UserBy me s) : UserBy me (flagFrozen s a on) :=
  .foldl h fun _ _ h => .after_spWrite h

theorem UserBy.after_gmuFreeze {s : State} {a} (h : UserBy me s) : UserBy me (gmuFreeze s a) :=
  .after_serve (.modCore (.after_flagFrozen h))

theorem UserBy.after_gmuThaw {s : State} {a} (h : UserBy me s) : UserBy me (gmuThaw s a) :=
  .ite h (.after_pendOnce (.modCore (.after_flagFrozen h)))

theorem UserBy.after_snapEnd {s : State} {d t} (h : UserBy me s) : UserBy me (snapEnd s d t) := by
  unfold snapEnd
  split
  · exact h
  · exact .ite (.foldl (.frame h) fun _ _ h => .after_gmuThaw h) (.frame h)

/-! Stopping commands (R196, R214): no completion action, futures faulted. -/

theorem UserBy.after_ceKick {s : State} {k} (h : UserBy me s) : UserBy me (ceKick s k) := by
  unfold ceKick
  dsimp only
  split
  · refine .after_pendOnce ?_
    split
    · exact .frame h
    · exact h
  · split
    · exact .frame h
    · exact h

theorem UserBy.after_stopCluster {s : State} {k p} (h : UserBy me s) : UserBy me (stopCluster s k p) := by
  unfold stopCluster
  extract_lets c s₁ ces s₂ s₃ s₄
  have h₂ : UserBy me s₂ := .foldl (.foldl h fun _ _ h => .after_engFuture h) fun _ _ h => .after_engFuture h
  have h₃ : UserBy me s₃ := .frame h₂
  refine .after_arrayPass (.after_ceKick ?_)
  unfold s₄
  split
  · exact .ite (.after_breakPipe h₃) h₃
  · exact h₃

theorem UserBy.after_stopSaved {s : State} {key v p} (h : UserBy me s) : UserBy me (stopSaved s key v p) :=
  .frame (.foldl (.foldl (.foldl (.foldl h fun _ _ h => .after_engFuture h) fun _ _ h => .after_engFuture h) fun _ _ h => .after_nbStop h)
    fun _ _ h => .after_breakMarks h)

theorem UserBy.after_stopCommands {s : State} {p} (h : UserBy me s) : UserBy me (stopCommands s p) :=
  .frame (.foldl (.foldl (.foldl h fun _ _ h => .after_stopCluster h) fun _ _ h => .after_nbStop h) fun _ _ h => .after_stopSaved h)

/-! Tensor shape records (R335), operand rows (R332) and the typed element writes of engines (R34, R49, R336, R345). -/

theorem UserBy.after_engAtomic {s : State} {x va n f} (h : UserBy me s) :
    ∀ y, engAtomic s x va n f = .ok y → UserBy me y.2 := by
  unfold engAtomic
  split
  · exact fun _ e => nomatch e
  · split
    · exact fun _ e => nomatch e
    · exact fun | _, rfl => .after_atomicPath h

theorem UserBy.after_elemWrite {s : State} {x sh f va v int} (h : UserBy me s) :
    ∀ y, elemWrite s x sh f va v int = .ok y → UserBy me y.1 := by
  unfold elemWrite
  dsimp only
  split
  · split
    · exact fun _ e => nomatch e
    · rename_i e
      exact fun | _, rfl => .fst (UserBy.after_engWrite h _ e)
  · split
    · exact fun _ e => nomatch e
    · rename_i e
      exact fun | _, rfl => .fst (UserBy.after_engAtomic h _ e)

/-! Leaving (R157, R417). -/

@[simp] theorem Ctx.joined_priv (c : Ctx) (sc : Scope) : (c.joined sc).priv = c.priv := by simp [Ctx.joined]

theorem UserBy.after_joinDec {s : State} {child p} (h : UserBy me s) : UserBy me (joinDec s child p) := by
  unfold joinDec
  split
  · exact .modCtx (.after_release h)
  · exact h

theorem UserBy.after_launchResolve {s : State} {d l code faulted} (h : UserBy me s) :
    UserBy me (launchResolve s d l code faulted) := by
  unfold launchResolve
  dsimp only
  split
  · exact .after_engineResolve (.frame h)
  · exact .ite (.frame h) (.after_record (.frame h))

theorem UserBy.after_launchCheck {s : State} {d id} (h : UserBy me s) : UserBy me (launchCheck s d id) := by
  unfold launchCheck
  split
  · exact h
  · exact .ite h (.after_launchResolve (.ite h (.frame h)))

theorem UserBy.after_launchEnd {s : State} {id killed} (h : UserBy me s) : UserBy me (launchEnd s id killed) :=
  .foldl h fun _ _ h => .ite h (.after_launchCheck (.frame h))

theorem UserBy.after_taskGone {s : State} {a c killed} (h : UserBy me s) :
    UserBy me (taskGone s a c killed) := by
  unfold taskGone
  dsimp only
  split
  · refine .after_launchEnd ?_
    split
    · exact .after_joinDec h
    · exact h
  · split
    · exact .after_joinDec h
    · exact h

theorem UserBy.after_endCtx {s : State} {a k retain killed} (h : UserBy me s) :
    UserBy me (endCtx s a k retain killed) := by
  unfold endCtx
  extract_lets c s₁ s₂ s₃ s₄ c₅ s₅ s₆ s₇
  have h₅ : UserBy me s₅ := .setCtx (.frame (.modCore (.after_leaseLeave (.after_snapEnd (.frame h))))) .plain
  have h₆ : UserBy me s₆ := by
    dsimp only [s₆]
    split
    · exact .ite h₅ (.after_retainWays h₅)
    · exact h₅
  exact .after_pendOnce (.after_serve (.after_taskGone (.after_leaveWays h₆)))

theorem UserBy.after_killCtx {s : State} {a k} (h : UserBy me s) : UserBy me (killCtx s a k) := by
  unfold killCtx
  exact .after_endCtx (.after_stopCommands (.after_release h))

theorem UserBy.after_killTask {s : State} {t} (h : UserBy me s) : UserBy me (killTask s t) := by
  unfold killTask
  split
  · exact .after_killCtx h
  · exact h

theorem UserBy.after_killBound {s : State} {t} (h : UserBy me s) : UserBy me (killBound s t) := by
  unfold killBound
  split
  · exact h
  · exact .ite (.after_killCtx h) h

theorem UserBy.after_killServed {s : State} {c} (h : UserBy me s) : UserBy me (killServed s c) := by
  unfold killServed
  split
  · exact .ite h (.after_killBound h)
  · exact h

/-! SPAWN, JOIN, HALT, YIELD (R156, R157, R296). -/

theorem OutUser.after_execSpawn {s : State} {o} (h : UserBy me s) : OutUser (execSpawn o s) := by
  refine .after_issue h fun c hc => .after_access h fun p => ?_
  have hr : UserBy me (readPath (taintAcquire s (c.taintG o.a)) (curAcc s) p 32).2 := .after_readPath (.after_taintAcquire h)
  exact .ite (.after_raise hr) (.ite (.after_raise hr) (.ite (.after_raise hr) (.ite (.after_waitFor hr)
    (.after_releaseThen hr fun _ h => .after_done (.after_pendOnce (.withCur (.modCore h)))))))

theorem OutUser.after_execJoin {s : State} (h : UserBy me s) : OutUser (execJoin s) :=
  .after_issue h fun _ _ => .ite (.after_waitFor h) (.after_done (.after_acquire h))

theorem UserBy.after_haltRun {s : State} {retain} (h : UserBy me s) : UserBy me (haltRun s retain) :=
  .ite (.after_waitFor h) (.ite (.after_waitFor h) (.after_killServed (.after_endCtx (.after_wcbDrain h))))

theorem OutUser.after_execHaltr {s : State} {o} (h : UserBy me s) : OutUser (execHaltr o s) :=
  .after_issue h fun _ _ => .ite (.after_raise h) (.after_haltRun h)

/-! LAUNCH (R158, R297). -/

theorem UserBy.after_launchQueue {s : State} {iss r fut} (h : UserBy me s) :
    UserBy me (launchQueue s iss r fut) :=
  .after_pendOnce (.frame h)

theorem OutUser.after_execLaunch {s : State} {o} (h : UserBy me s) : OutUser (execLaunch o s) := by
  unfold execLaunch
  refine .after_issue h fun c hc => ?_
  refine .after_access h fun _ => ?_
  refine .after_releaseThen h fun _ h => ?_
  refine .ite (.after_raise (.after_readPath (.after_taintAcquire h))) ?_
  refine .ite (.after_raise (.after_readPath (.after_taintAcquire h))) ?_
  split
  · exact .after_raise (.after_readPath (.after_taintAcquire h))
  · exact .ite (.after_waitFor (.after_readPath (.after_taintAcquire h)))
      (.after_done (.after_launchQueue (.after_readPath (.after_taintAcquire h))))

/-! Placing (R159). -/

theorem OutUser.after_execLaunchPlace {s : State} (h : UserBy me s) : OutUser (execLaunchPlace s) := by
  unfold execLaunchPlace
  split
  · refine .ite (.next (.frame h)) ?_
    refine .ite (.next h) ?_
    split
    · exact .next h
    · refine .ite (.after_answer (.after_launchResolve h)) ?_
      dsimp only
      split
      · exact .after_answer (.ite h (.frame h))
      · exact .ite (.after_answer (.after_launchCheck (.frame (.ite h (.frame h)))))
          (.after_answer (.after_launchCheck (.frame (.after_pendOnce (.modCore (.ite h (.frame h)))))))
  · exact .next h

/-! Starting tasks (R148, R162). -/

theorem UserBy.after_startTask {s : State} {a k x} (h : UserBy me s) : UserBy me (startTask s a k x) := by
  unfold startTask
  extract_lets c q s₁ s₂ id c₀ n s₃
  have hn : UserCtx a n := fun ha => by simpa [n, isRidge] using ha
  have h₃ : UserBy me s₃ := .setCtx (.ite (.modCore (.after_claimWays h)) (.after_claimWays h)) hn
  split
  · exact .after_acquire h₃
  · exact h₃

theorem UserBy.after_takeNotify {s : State} {a x} (h : UserBy me s) : UserBy me (takeNotify s a x).2 := by
  unfold takeNotify
  refine .ite_snd (.snd h) ?_
  split
  · exact .snd h
  · exact .snd (.modCore h)

theorem UserBy.after_startItem {s : State} {a i} (h : UserBy me s) : UserBy me (startItem s a i) := by
  unfold startItem
  dsimp only
  split
  · exact .after_startTask (.after_takeNotify (.modCore (.modCore h)))
  · split
    · exact .modCore h
    · exact .after_startTask (.modCtx (.modCore (.modCore h)) fun _ _ => rfl)
  · exact .modCore h

theorem OutUser.after_execTaskStart {s : State} (h : UserBy me s) : OutUser (execTaskStart s) := by
  unfold execTaskStart
  split
  · refine .ite (.next (.frame h)) ?_
    refine .ite (.next h) ?_
    split
    · exact .next h
    · exact .after_answer (.after_serve (.after_startItem h))
  · exact .next h

/-! Fault packets (R213, R216). -/

theorem UserBy.after_packetDropped {s : State} {a p} (h : UserBy me s) : UserBy me (packetDropped s a p) :=
  .ite (.modCore h) (.after_killBound (.modCore h))

theorem OutUser.after_execFaultPacketArrive {s : State} (h : UserBy me s) : OutUser (execFaultPacketArrive s) := by
  unfold execFaultPacketArrive
  split
  · refine .ite (.after_answer (.frame h)) ?_
    refine .ite (.after_answer (.after_packetDropped (.frame h))) ?_
    refine .ite (.next h) ?_
    split
    · exact .next h
    · exact .after_answer (.after_holdArrival (.after_reserveCtx (.frame h)))
  · exact .next h

theorem OutUser.after_execFaultFreeze {s : State} (h : UserBy me s) : OutUser (execFaultFreeze s) := by
  unfold execFaultFreeze
  split
  · refine .ite (.next (.frame h)) ?_
    split
    · exact .after_answer (.frame (.after_killServed (.after_killCtx (.frame h))))
    · exact .after_answer (.after_takeFault (.frame h))
    · exact .next (.frame h)
  · exact .next h

/-! The page-fault path (R217, R218). -/

theorem OutUser.after_execPageFaultPost {s : State} (h : UserBy me s) : OutUser (execPageFaultPost s) := by
  unfold execPageFaultPost
  split
  · exact .next (.frame h)
  · exact .next h

theorem OutUser.after_execAccessAccept {s : State} (h : UserBy me s) : OutUser (execAccessAccept s) := by
  unfold execAccessAccept
  split
  · exact .after_answer (.getD h (.after_deviceAccess (.frame h)))
  · split
    · exact .next (.modCtx (.frame h))
    · exact .next (.frame h)
  · exact .next h

theorem UserBy.after_completionReply {s : State} {c fail} (h : UserBy me s) :
    UserBy me (completionReply s c fail) :=
  .ite (.after_completionResume (.frame h)) (.after_completeList (.after_whoRecord (.frame h)))

theorem OutUser.after_execPageFaultReply {s : State} (h : UserBy me s) : OutUser (execPageFaultReply s) := by
  unfold execPageFaultReply
  split
  · refine .ite ?_ ?_
    · refine .ite (.next (.frame h)) ?_
      split
      · exact .after_answer (.after_completionReply (.frame h))
      · split
        · exact .next (.frame h)
        · exact .ite (.next (.frame h)) (.next (.frame h))
    · split
      · exact .next (.frame h)
      · exact .ite (.next (.frame h)) (.next (.frame h))
  · exact .next h

/-! SEND, TSEND (R291). -/

theorem OutUser.after_execSendAs {s : State} {i o tagged} (h : UserBy me s) : OutUser (execSendAs i o s tagged) := by
  unfold execSendAs
  refine .after_issue h fun c hc => ?_
  refine .ite (.ite (.after_faultCur h) (.after_waitFor h)) ?_
  split
  · exact .after_raise h
  · refine .ite (.after_raise h) ?_
    refine .ite (.after_raise h) ?_
    refine .ite (.after_waitFor h) ?_
    dsimp only
    split
    · exact .after_releaseThen h fun _ h => .after_done (.after_sendMsg h)
    · exact .after_done (.after_sendMsg h)

/-! Receives (R293, R294). -/

@[simp] theorem emptyDest_priv (c : Ctx) (d : Reg) : (emptyDest c d).priv = c.priv := Ctx.emptyG_priv c d

theorem OutUser.after_execRecv {s : State} {o} (h : UserBy me s) : OutUser (execRecv o s) := by
  unfold execRecv
  refine .after_issue h fun c hc => ?_
  refine .ite (.after_raise h) ?_
  refine .ite (.after_raise h) ?_
  refine .ite (.after_raise h) ?_
  refine .ite (.after_raise h) ?_
  dsimp only
  split
  · exact .ite (.after_waitPort h) (.after_done (.after_serve (.after_deliverTag (.withCur (.modCore h)))))
  · exact .ite (.after_waitFor h) (.after_done (.modCore (.setCur h (.of hc))))

theorem OutUser.after_execRcancel {s : State} {o} (h : UserBy me s) : OutUser (execRcancel o s) := by
  unfold execRcancel
  refine .after_issue h fun c hc => ?_
  dsimp only
  split
  · exact .withCur (.modCore h)
  · exact .withCur h

/-! The handler table (R149, R193, R295). -/

theorem OutUser.after_execChwr {s : State} {o} (h : UserBy me s) : OutUser (execChwr o s) := by
  unfold execChwr
  refine .after_issue h fun c hc => ?_
  refine .ite (.after_raise h) ?_
  split
  · exact .after_raise h
  · exact .after_done (.after_pendOnce (.ite (.after_serve (.modCore h)) (.modCore h)))

theorem OutUser.after_execChmsk {s : State} {o} (h : UserBy me s) : OutUser (execChmsk o s) :=
  .after_issue h fun c hc => .ite (.after_raise h) (.ite (.after_raise h)
    (.after_done (.after_pendOnce (.ite (.after_serve (.withCur (.modCore h))) (.withCur (.modCore h))))))

theorem OutUser.after_execChrd {s : State} {o} (h : UserBy me s) : OutUser (execChrd o s) :=
  .after_issue h fun c hc => .ite (.after_raise h) (.ite (.after_raise h) (.setCur h (.of hc)))

/-! Results and faults of a task that waits, live or saved. -/

theorem UserBy.after_updTask {s : State} {t f} (h : UserBy me s)
    (e : ∀ c, c.priv = false → (f c).priv = false := by intro _ h; simpa using h) : UserBy me (updTask s t f) := by
  unfold updTask
  split
  · exact .modCtx h e
  · exact h

theorem UserBy.after_failTask {s : State} {t f} (h : UserBy me s) : UserBy me (failTask s t f) := by
  unfold failTask
  split
  · exact .after_failWaiter h
  · exact h

/-! Barrier slots (R176). -/

theorem UserBy.after_barAdvance {s : State} {k i} (h : UserBy me s) : UserBy me (barAdvance s k i) :=
  .ite h (.ite (.frame h) (.ite h (.ite (.frame h) (.frame h))))

theorem UserBy.after_barArrive {s : State} {k i drop} (h : UserBy me s) :
    ∀ y, barArrive s k i drop = some y → UserBy me y.2 := by
  unfold barArrive
  dsimp only
  split
  · exact fun _ e => nomatch e
  · exact fun | _, rfl => .snd (.after_barAdvance (.frame h))

theorem UserBy.after_barReturn {s : State} {k i p} (h : UserBy me s) : UserBy me (barReturn s k i p) := by
  unfold barReturn
  refine .foldl h fun _ _ h => ?_
  refine .foldl h fun _ _ h => ?_
  split
  · exact .ite (.after_complete (.after_acquire h)) h
  · exact h

theorem UserBy.after_phaseReturn {s : State} {k i} (h : UserBy me s) : UserBy me (phaseReturn s k i) := by
  unfold phaseReturn
  refine .foldl h fun _ _ h => ?_
  dsimp only
  split
  · exact .ite (.after_complete (.after_acquire h)) h
  · exact h

theorem UserBy.after_barRelease {s : State} {k i} (h : UserBy me s) : UserBy me (barRelease s k i) := by
  unfold barRelease
  extract_lets v p d v' s₁ s₂ s₃ s₄ s₅ all
  have h₃ : UserBy me s₃ := .ite (.frame (.frame (.frame h))) (.frame (.frame h))
  have h₄ : UserBy me s₄ := .ite (.frame h₃) h₃
  have h₅ : UserBy me s₅ := .after_phaseReturn (.after_barReturn h₄)
  exact .ite (.foldl h₅ fun _ _ h => .frame h) (.after_barAdvance h₅)

theorem OutUser.after_execBarrierSweep {s : State} (h : UserBy me s) : OutUser (execBarrierSweep s) := by
  unfold execBarrierSweep
  split
  · dsimp only
    split
    · exact .ite (.next (.after_barAdvance (.frame h))) (.next (.frame h))
    · exact .ite (.next (.after_barAdvance (.frame h))) (.next (.frame h))
    · exact .ite (.after_answer (.after_barRelease (.frame h))) (.next (.frame h))
  · exact .next h

theorem UserBy.after_clusterOnly {s : State} {i go} (h : UserBy me s)
    (hgo : ∀ t, UserBy me t → UserBy me (go t)) : UserBy me (clusterOnly i s go) :=
  .ite (.after_raise h) (hgo _ h)

theorem UserBy.after_arrivalForm {s : State} {i slot drop limit go} (h : UserBy me s)
    (hgo : ∀ x t, UserBy me t → UserBy me (go x t)) : UserBy me (arrivalForm i s slot drop limit go) := by
  unfold arrivalForm
  refine .after_clusterOnly h fun _ h => ?_
  refine .ite (.after_raise h) ?_
  refine .after_releaseThen h fun _ h => ?_
  split
  · exact .after_faultCur h
  · rename_i e
    exact hgo _ _ (UserBy.after_barArrive h _ e)

theorem OutUser.after_execBar {s : State} {o} (h : UserBy me s) : OutUser (execBar o s) :=
  .after_issue h fun _ _ => .after_arrivalForm h fun _ _ h => .after_waitFor h

theorem OutUser.after_execBararv {s : State} {o} (h : UserBy me s) : OutUser (execBararv o s) :=
  .after_issue h fun c hc => .after_arrivalForm h fun _ _ h => .withCur h

theorem OutUser.after_execBardrop {s : State} {o} (h : UserBy me s) : OutUser (execBardrop o s) :=
  .after_issue h fun _ _ => .after_arrivalForm h fun _ _ h => .after_done h

theorem OutUser.after_execBarwt {s : State} {o} (h : UserBy me s) : OutUser (execBarwt o s) :=
  .after_issue h fun c hc => .after_clusterOnly h fun _ h => .ite (.after_raise h) (.ite (.after_waitFor h) (.withCur (.after_acquire h)))

theorem OutUser.after_execBarrd {s : State} {o} (h : UserBy me s) : OutUser (execBarrd o s) :=
  .after_issue h fun c hc => .after_clusterOnly h fun _ h => .ite (.after_raise h) (.setCur h (.of hc))

theorem UserBy.after_barConfigure {s : State} {slot die geo kid ecnt} (h : UserBy me s) :
    UserBy me (barConfigure s slot die geo kid ecnt) :=
  .foldl (.foldl (.frame h) fun _ _ h => .frame h) fun _ _ h => .after_barAdvance (.after_phaseReturn h)

theorem OutUser.after_execBarcfg {s : State} {o} (h : UserBy me s) : OutUser (execBarcfg o s) := by
  unfold execBarcfg
  refine .after_issue h fun c hc => .after_clusterOnly h fun _ h => ?_
  dsimp only
  split
  · exact .after_faultCur h
  · refine .ite (.after_raise h) ?_
    split
    · exact .after_refuse h
    · have hr {t : State} {ps : List Path} {f : List Nat × State → Path → List Nat} (ht : UserBy me t) :
          UserBy me (ps.foldl (fun r p => (f r p, (readPath r.2 (curAcc r.2) p 1).2)) ([], t)).2 :=
        .foldlBy Prod.snd ht fun _ _ h => .after_readPath h
      exact .ite (.after_raise (hr (.after_taintAcquire h))) (.ite (.after_raise (hr (.after_taintAcquire h)))
        (.after_done (.after_barConfigure (hr (.after_taintAcquire h)))))

/-! Queues (R174, R175). -/

theorem UserBy.after_qPush {s : State} {k q x} (h : UserBy me s) : UserBy me (qPush s k q x) :=
  .frame (.after_spWrite h)

theorem UserBy.after_queueForm {s : State} {i q go} (h : UserBy me s)
    (hgo : ∀ x y t, UserBy me t → UserBy me (go x y t)) : UserBy me (queueForm i s q go) :=
  .after_clusterOnly h fun _ h => .ite (.after_raise (.frame h))
    (.ite (.after_raise (.frame h)) (.ite (.after_raise (.frame h)) (hgo _ _ _ h)))

theorem OutUser.after_execQpush {s : State} {o} (h : UserBy me s) : OutUser (execQpush o s) :=
  .after_issue h fun _ _ => .after_queueForm h fun _ _ _ h => .ite (.after_waitFor (.frame (.ite (.after_atPort h) h)))
    (.after_releaseThen h fun _ h => .after_done (.after_qPush (.frame h)))

theorem OutUser.after_execQpop {s : State} {o} (h : UserBy me s) : OutUser (execQpop o s) :=
  .after_issue h fun c hc => .after_queueForm h fun _ _ _ h => .ite (.after_waitFor (.frame h))
    (.ite (.after_faultCur (.frame h)) (.withCur (.after_acquire (.frame h))))

theorem UserBy.after_retest {s : State} {a k} (h : UserBy me s) : UserBy me (retest s a k) := by
  have hs : UserBy a { s with curAgent := a, curCtx := k } := ⟨rfl, h.2⟩
  unfold retest
  dsimp only
  split
  · rename_i t e
    suffices ht : UserCores t from ⟨h.1, ht⟩
    split at e
    · rename_i e'
      exact OutUser.after_execQpush (.after_nextInstr_run hs e') t e
    · rename_i e'
      exact OutUser.after_execQpop (.after_nextInstr_run hs e') t e
    · cases e
      exact h.2
  · exact h

theorem UserBy.after_retestQueue {s : State} {k q} (h : UserBy me s) : UserBy me (retestQueue s k q) := by
  unfold retestQueue
  refine .foldl h fun _ _ h => ?_
  split
  · exact .after_retest h
  · exact h

theorem OutUser.after_execQdwr {s : State} {o} (h : UserBy me s) : OutUser (execQdwr o s) :=
  .after_issue h fun _ _ => .after_clusterOnly h fun _ h => .ite (.after_raise h)
    (.ite (.after_raise h) (.ite (.after_raise h) (.after_done (.after_retestQueue (.frame (.after_retestQueue h))))))

theorem OutUser.after_execQdrd {s : State} {o} (h : UserBy me s) : OutUser (execQdrd o s) :=
  .after_issue h fun c hc => .after_clusterOnly h fun _ h => .ite (.after_raise h) (.setCur h (.of hc))

/-! Work-lists (R182, R183, R303). -/

theorem UserBy.after_wlOp {s : State} {i va rel go k} (h : UserBy me s)
    (hgo : ∀ pa w t, UserBy me t → ∀ put : Nat → WorkList → State → State,
      (∀ r w' t, UserBy me t → UserBy me (put r w' t)) → UserBy me (go pa w t put)) :
    UserBy me (wlOp i s va rel go k) := by
  unfold wlOp
  split
  · exact .after_refuse h
  · split
    · exact .after_raise h
    · dsimp only
      refine .ite (.after_releaseThen (.after_taintAcquire h) fun _ h => hgo _ _ _ h _ ?_) (hgo _ _ _ (.after_taintAcquire h) _ ?_) <;>
      · intro _ _ _ h
        split
        · exact .withCur (.after_atomicPath (.frame h))
        · exact .after_done (.after_atomicPath (.frame h))

theorem OutUser.after_execWlinit {s : State} {o} (h : UserBy me s) : OutUser (execWlinit o s) := by
  unfold execWlinit
  refine .after_issue h fun c hc => ?_
  dsimp only
  split
  · exact .after_refuse h
  · exact .after_releaseThen (.after_taintAcquire h) fun _ h => .ite (.after_raise (.after_atomicPath h))
      (.after_done (.after_atomicPath (.frame (.after_atomicPath h))))

theorem OutUser.after_execWlpush {s : State} {o} (h : UserBy me s) : OutUser (execWlpush o s) :=
  .after_issue h fun _ _ => .ite (.after_raise h) (.after_wlOp h fun _ _ _ h _ hput => hput _ _ _ h)

theorem OutUser.after_execWlins {s : State} {o} (h : UserBy me s) : OutUser (execWlins o s) :=
  .after_issue h fun _ _ => .ite (.after_raise h) (.after_wlOp h fun _ _ _ h _ hput => .ite (hput _ _ _ h) (hput _ _ _ h))

theorem OutUser.after_execWlpopb {s : State} {o} (h : UserBy me s) : OutUser (execWlpopb o s) :=
  .after_issue h fun c hc => .after_wlOp h fun _ _ _ h _ hput => hput _ _ _ (.after_acquire (.withCur h))

theorem OutUser.after_execWlstat {s : State} {o} (h : UserBy me s) : OutUser (execWlstat o s) :=
  .after_issue h fun _ _ => .after_wlOp h fun _ _ _ h _ hput => hput _ _ _ h

theorem OutUser.after_execWlfree {s : State} {o} (h : UserBy me s) : OutUser (execWlfree o s) :=
  .after_issue h fun _ _ => .after_wlOp h fun _ _ _ h _ hput => .frame (hput _ _ _ h)

/-! Collectives (R184, R298). -/

theorem OutUser.after_execColl {s : State} {o} (h : UserBy me s) : OutUser (execColl o s) :=
  .after_issue h fun c hc => .ite (.after_raise h)
    (.ite (.after_raise h) (.ite (.setCur h (.of hc (by intro h; split_ifs <;> simpa using h)))
      (.after_releaseThen h fun _ h => .frame (.after_waitFor h))))

theorem UserBy.after_collDeliver {s : State} {m r} (h : UserBy me s) : UserBy me (collDeliver s m r) := by
  unfold collDeliver
  split
  · split
    · exact .ite h (.after_updTask (.ite (.after_acquire h) h) (by intro c h; split_ifs <;> simpa using h))
    · exact h
  · exact h

theorem OutUser.after_execCollArrive {s : State} (h : UserBy me s) : OutUser (execCollArrive s) := by
  unfold execCollArrive
  split
  · refine .ite (.next (.frame h)) ?_
    refine .ite (.next h) ?_
    split
    · exact .ite (.next h) (.next (.ite (.frame h) (.frame h)))
    · exact .ite (.after_answer (.after_failTask (.frame h)))
        (.ite (.next (.frame h)) (.after_answer (.foldl (.frame h) fun _ _ h => .after_collDeliver h)))
  · exact .next h

theorem OutUser.after_execCollTimerExpire {s : State} (h : UserBy me s) : OutUser (execCollTimerExpire s) := by
  unfold execCollTimerExpire
  split
  · split
    · exact .next (.frame h)
    · exact .ite (.next (.frame h)) (.ite (.next h) (.after_answer (.foldl (.frame h) fun _ _ h => .ite (.after_failTask h) h)))
  · exact .next h

/-! Bounded waits (R288). -/

theorem UserBy.after_barExpire {s : State} {a k clu slot} (h : UserBy me s) :
    UserBy me (barExpire s a k clu slot) :=
  .ite (.modCtx h) (.after_failTask (.frame h))

theorem UserBy.after_collExpire {s : State} {d unit id c} (h : UserBy me s) :
    UserBy me (collExpire s d unit id c) :=
  .after_failTask (.frame h)

theorem UserBy.after_issueExpire {s : State} {a k c} (h : UserBy me s) : UserBy me (issueExpire s a k c) := by
  unfold issueExpire
  split
  · exact .after_collExpire h
  · exact .after_failTask h
  · exact .after_failTask h
  · exact .after_failTask h

theorem UserBy.after_queueExpire {s : State} {a k w} (h : UserBy me s) : UserBy me (queueExpire s a k w) := by
  unfold queueExpire
  dsimp only
  split
  · exact .after_failTask h
  · exact .after_retest h

theorem OutUser.after_execBoundedWaitExpire {s : State} (h : UserBy me s) : OutUser (execBoundedWaitExpire s) := by
  unfold execBoundedWaitExpire
  split
  · dsimp only
    split
    · exact .next (.frame h)
    · refine .ite (.next (.frame h)) ?_
      refine .ite (.next h) ?_
      split
      · exact .after_answer (.after_barExpire (.frame h))
      · split
        · exact .ite (.next h) (.after_answer (.after_collExpire (.frame h)))
        · exact .after_answer (.after_collExpire (.frame h))
      · exact .ite (.next h) (.after_answer (.after_failTask (.frame h)))
      · exact .after_answer (.after_issueExpire (.frame h))
      · exact .after_answer (.after_issueExpire (.frame h))
      · exact .after_answer (.after_queueExpire (.frame h))
      · exact .after_answer (.after_failTask (.frame h))
  · exact .next h

/-! The lease (R165, R329). -/

theorem UserBy.after_leaseAsk {s : State} {k p} (h : UserBy me s) : UserBy me (leaseAsk s k p) :=
  .ite h (.after_leaseNext (.frame h))

theorem UserBy.after_leaseForm {s : State} {i go limit} (h : UserBy me s)
    (hgo : ∀ t, UserBy me t → UserBy me (go t)) : UserBy me (leaseForm i s go limit) :=
  .ite (.ite (.after_waitFor (.after_arrayPass h)) (hgo _ (.after_arrayPass h)))
    (.ite (.after_waitFor (.after_leaseAsk h)) (.after_raise h))

theorem UserBy.after_leaseCount {s : State} {k} (h : UserBy me s) : UserBy me (leaseCount s k) :=
  .ite (.after_leaseEnd (.frame h)) (.frame h)

theorem OutUser.after_execMxlease {s : State} {o} (h : UserBy me s) : OutUser (execMxlease o s) :=
  .after_issue h fun _ _ => .after_clusterOnly h fun _ h => .ite (.after_done (.after_leaseAsk h)) (.after_waitFor (.after_leaseAsk h))

theorem OutUser.after_execMxrel {s : State} (h : UserBy me s) : OutUser (execMxrel s) :=
  .after_issue h fun _ _ => .after_clusterOnly h fun _ h => .after_done (.after_leaseDrop h)

theorem OutUser.after_execLeaseGrantExpire {s : State} (h : UserBy me s) : OutUser (execLeaseGrantExpire s) := by
  unfold execLeaseGrantExpire
  split
  · exact .ite (.next (.frame h)) (.ite (.next h) (.after_answer (.after_leaseEnd (.frame h))))
  · exact .next h

/-! Tiles (R330). -/

theorem OutUser.after_execTcfg {s : State} {o} (h : UserBy me s) : OutUser (execTcfg o s) :=
  .after_issue h fun _ _ => .after_clusterOnly h fun _ h => .ite (.after_raise h)
    (.after_leaseForm h fun _ h => .ite (.after_raise h) (.after_done h))

theorem OutUser.after_execTrel {s : State} {o} (h : UserBy me s) : OutUser (execTrel o s) :=
  .after_issue h fun _ _ => .after_clusterOnly h fun _ h => .after_leaseForm h fun _ h => .ite (.after_waitFor h) (.after_done h)

theorem OutUser.after_execMxwait {s : State} {o} (h : UserBy me s) : OutUser (execMxwait o s) :=
  .after_issue h fun _ _ => .after_clusterOnly h fun _ h => .after_leaseForm h fun _ h => .ite (.after_waitFor h) (.after_done h)

/-! The copy engine (R166). -/

theorem UserBy.after_ceEnd {s : State} {k} (h : UserBy me s) : UserBy me (ceEnd s k) :=
  .after_ceKick (.frame h)

theorem UserBy.after_cePut {s : State} {a e} (h : UserBy me s) : UserBy me (cePut s a e) :=
  .after_ceKick (.frame h)

/-! Issue of matrix commands (R326, R327). -/

theorem UserBy.after_arrayUp {s : State} {i go} (h : UserBy me s)
    (hgo : ∀ t, UserBy me t → UserBy me (go t)) : UserBy me (arrayUp i s go) :=
  .ite (.after_faultCur h) (hgo _ h)

/-! Staging (R331). -/

theorem OutUser.after_execStage {s : State} {i o toB} (h : UserBy me s) : OutUser (execStage i o s toB) :=
  .after_issue h fun _ _ => .after_clusterOnly h fun _ h => .ite (.after_raise h)
    (.ite (.after_raise h) (.ite (.after_raise h)
    (.after_leaseForm h fun _ h => .after_arrayUp h fun _ h => .ite (.after_waitFor h)
    (.after_releaseThen h fun _ h => .after_done (.after_cePut (.frame h))))))

theorem UserBy.after_stagePiece {s : State} {x k toB boff pitch rb total src st f pos} (h : UserBy me s) :
    UserBy me (stagePiece s x k toB boff pitch rb total src st f pos).1 := by
  induction f generalizing s pos with
  | zero => exact h
  | succ f ih =>
    unfold stagePiece
    dsimp only
    split
    · exact h
    · split
      · exact h
      · rename_i e
        have hr := UserBy.after_engRead h _ e
        exact .ite_fst (.frame hr) (ih (.frame hr))

theorem UserBy.after_refusedStep {s0 s : State} {i e r cmd} (hs : UserBy me s) :
    UserBy me (refusedStep s0 s i e r cmd) := by
  unfold refusedStep
  split
  · exact .frame (.after_atPort hs)
  · exact .frame hs
  · exact .frame (.after_engRefused hs)
  · exact .frame (.after_engRefused hs)
  · exact .after_engRefused (.frame hs)

theorem OutUser.after_execStagingLanded {s : State} (h : UserBy me s) : OutUser (execStagingLanded s) := by
  unfold execStagingLanded
  split
  · dsimp only
    split
    · split
      · refine .ite (.next h) ?_
        split
        · rename_i e3
          exact .after_answer (.after_refusedStep (.frame (.of_fst e3 (.after_stagePiece h))))
        · rename_i e3
          have he3 : UserBy me _ := .of_fst e3 (.after_stagePiece h)
          exact .ite (.after_answer (.after_ceKick (.frame (.frame he3))))
            (.after_answer (.after_arrayPass (.after_ceEnd (.frame (.frame he3)))))
      · exact .next (.frame h)
    · exact .next (.frame h)
  · exact .next h

/-! Products (R332 to R334). -/

theorem UserBy.after_fuseLease {s : State} {k fuse go} (h : UserBy me s)
    (hgo : ∀ t, UserBy me t → UserBy me (go t)) : UserBy me (fuseLease s k fuse go) :=
  .ite (hgo _ h) (.ite (.after_waitFor (.after_arrayPass (.ite h (.after_leaseNext (.frame h)))))
    (hgo _ (.after_leaseCount (.frame (.after_arrayPass (.ite h (.after_leaseNext (.frame h))))))))

theorem OutUser.after_execProduct {s : State} {i o} (h : UserBy me s) : OutUser (execProduct i o s) := by
  unfold execProduct
  refine .after_issue h fun c hc => ?_
  refine .after_clusterOnly h fun _ h => ?_
  refine .ite (.after_raise h) ?_
  split
  · exact .after_raise h
  · exact .after_leaseForm h fun _ h => .after_arrayUp h fun _ h => .ite (.after_waitFor h)
      (.after_releaseThen h fun _ h => .after_fuseLease h fun _ h => .after_done (.after_leaseCount (.after_pendOnce (.frame h))))

theorem UserBy.after_fuseDrop {s : State} {k no} (h : UserBy me s) : UserBy me (fuseDrop s k no) :=
  .ite h (.after_leaseNext (.frame h))

theorem UserBy.after_mxActive {s : State} {k} (h : UserBy me s) : ∀ y, mxActive s k = some y → UserBy me y := by
  unfold mxActive
  dsimp only
  split
  · exact fun _ e => nomatch e
  · split
    · exact fun _ e => nomatch e
    · split
      · exact fun | _, rfl => .after_arrayPass (.after_fuseDrop (.after_joinFlags (.frame h)))
      · split
        · exact fun _ e => nomatch e
        · exact fun | _, rfl => .frame h
      · exact fun _ e => nomatch e

theorem OutUser.after_execMatrixCommandComplete {s : State} (h : UserBy me s) :
    OutUser (execMatrixCommandComplete s) := by
  unfold execMatrixCommandComplete
  split
  · refine .ite (.next (.frame h)) ?_
    split
    · exact .next h
    · rename_i e1
      have he1 : UserBy me _ := UserBy.after_mxActive h _ e1
      exact .after_answer (.ite (.after_pendOnce (.frame he1)) (.frame he1))
  · exact .next h

/-! Drains (R336). -/

theorem OutUser.after_execMxdrain {s : State} {o} (h : UserBy me s) : OutUser (execMxdrain o s) := by
  unfold execMxdrain
  refine .after_issue h fun c hc => ?_
  refine .after_clusterOnly h fun _ h => ?_
  refine .after_access h fun _ => ?_
  refine .ite (.after_raise (.after_readPath (.after_taintAcquire h))) ?_
  refine .ite (.after_raise (.after_readPath (.after_taintAcquire h))) ?_
  refine .ite (.after_raise (.after_readPath (.after_taintAcquire h))) ?_
  split
  · exact .after_raise (.after_readPath (.after_taintAcquire h))
  · exact .after_raise (.after_readPath (.after_taintAcquire h))
  · exact .after_leaseForm (.after_readPath (.after_taintAcquire h)) fun _ h => .after_arrayUp h fun _ h => .ite (.after_waitFor h)
      (.after_releaseThen h fun _ h => .after_done (.after_leaseCount (.after_pendOnce (.after_cePut (.frame h)))))

theorem UserBy.after_drainPiece {s : State} {x sh f int el fl m n w} (h : UserBy me s) :
    UserBy me (drainPiece s x sh f int el fl m n w).1 := by
  induction m generalizing s fl n w with
  | zero => exact h
  | succ m ih =>
    unfold drainPiece
    dsimp only
    refine .ite_fst (ih h) ?_
    split
    · exact h
    · split
      · exact h
      · rename_i e
        have hw := UserBy.after_elemWrite h _ e
        exact .ite_fst hw (ih hw)

theorem UserBy.after_syncStep {s : State} {p : Prop} {_ : Decidable p} {x va n} (h : UserBy me s) :
    ∀ y, (if p then .ok s else syncAdd s x va n) = .ok y → UserBy me y := by
  split
  · exact fun | _, rfl => h
  · exact UserBy.after_syncAdd h

theorem UserBy.after_ceComplete {s0 s : State} {k i fl sync fut bytes fin} (h : UserBy me s)
    (hfin : ∀ t, UserBy me t → UserBy me (fin t)) : UserBy me (ceComplete s0 s k i fl sync fut bytes fin) := by
  unfold ceComplete
  dsimp only
  split
  · exact .after_refusedStep h
  · rename_i e
    exact hfin _ (.after_engFuture (.frame (.after_syncStep (.after_joinFlags h) _ e)))

theorem OutUser.after_execDrainWriteComplete {s : State} (h : UserBy me s) : OutUser (execDrainWriteComplete s) := by
  unfold execDrainWriteComplete
  split
  · dsimp only
    split
    · split
      · refine .ite (.next h) ?_
        split
        · rename_i e3
          exact .after_answer (.after_refusedStep (.frame (.of_fst e3 (.after_drainPiece h))))
        · rename_i e3
          have he3 : UserBy me _ := .of_fst e3 (.after_drainPiece h)
          exact .ite (.after_answer (.after_ceKick (.frame (.frame he3))))
            (.after_answer (.after_ceComplete (.frame he3) fun _ h => .after_arrayPass (.after_ceEnd (.frame h))))
      · exact .next h
      · exact .next (.frame h)
    · exact .next (.frame h)
  · exact .next h

/-! Status (R337). -/

theorem OutUser.after_execMxstat {s : State} {o} (h : UserBy me s) : OutUser (execMxstat o s) :=
  .after_issue h fun _ _ => .after_clusterOnly h fun _ h => .after_done (.after_landG h)

/-! Group 0x32. -/

theorem UserBy.after_nbdOp {s : State} {i va tainted go} (h : UserBy me s)
    (hgo : ∀ ia pa p r t, UserBy me t → UserBy me (go ia pa p r t)) : UserBy me (nbdOp i s va tainted go) := by
  unfold nbdOp
  split
  · exact .after_refuse h
  · dsimp only
    exact .after_releaseThen h fun _ h => hgo _ _ _ _ _ (.after_atomicPath (.after_taintAcquire h))
  · exact h

/-! Fields (R338). -/

theorem OutUser.after_execNbcfg {s : State} {o} (h : UserBy me s) : OutUser (execNbcfg o s) := by
  unfold execNbcfg
  dsimp only
  refine .after_issue h fun c hc => .after_nbdOp h fun _ _ _ _ _ h => .ite (.after_raise h) (.ite (.after_raise h) (.ite (.after_raise h) ?_))
  split
  · exact .after_raise h
  · exact .ite (.after_raise h) (.after_done (.frame (.after_atomicPath (.frame h))))

/-! The copy into the near-bank area (R339). -/

theorem UserBy.after_nbRows {s : State} {iss m src pitch n r} (h : UserBy me s) :
    UserBy me (nbRows s iss m src pitch n r).1 := by
  induction n generalizing s r with
  | zero => exact h
  | succ n ih =>
    unfold nbRows
    dsimp only
    split
    · split
      · exact h
      · rename_i e
        have hr := UserBy.after_engRead h _ e
        split
        · exact hr
        · rename_i e'
          exact ih (.after_engWrite hr _ e')
    · exact h

theorem UserBy.after_nbRefused {s0 s : State} {id r} (hs : UserBy me s) : UserBy me (nbRefused s0 s id r) := by
  unfold nbRefused
  split
  · exact .after_refusedStep hs
  · exact hs

theorem OutUser.after_execNbcfgPlaced {s : State} (h : UserBy me s) : OutUser (execNbcfgPlaced s) := by
  unfold execNbcfgPlaced
  split
  · split
    · dsimp only
      split
      · exact .next (.frame h)
      · refine .ite (.next h) ?_
        split
        · exact .after_answer (.after_nbRefused h)
        · refine .ite (.after_answer (.after_nbStop (.frame h))) ?_
          split
          · rename_i e4
            exact .after_answer (.after_nbRefused (.frame (.of_fst e4 (.after_nbRows (.frame h)))))
          · rename_i e4
            have he4 : UserBy me _ := .of_fst e4 (.after_nbRows (.frame h))
            exact .ite (.after_answer (.frame (.frame (.frame he4))))
              (.after_answer (.after_nbFuture (.after_objectUpdate (.frame (.frame he4)))))
    · exact .next (.frame h)
  · exact .next h

/-! Products (R340). -/

theorem OutUser.after_execNbmv {s : State} {o} (h : UserBy me s) : OutUser (execNbmv o s) := by
  unfold execNbmv
  refine .after_issue h fun c hc => ?_
  dsimp only
  split
  · exact .after_faultCur h
  · exact .after_faultCur h
  · refine .after_nbdOp h fun _ _ _ _ _ h => ?_
    refine .ite (.after_raise h) ?_
    split
    · exact .after_raise h
    · split
      · exact .after_raise h
      · refine .ite (.after_waitFor h) ?_
        split
        · exact .after_refuse h
        · rename_i e3
          exact .after_done (.frame (.frame (.frame (.after_atomicPath (UserBy.after_engRead h _ e3)))))

theorem UserBy.after_nbProduct {s : State} {iss m fx sat x start n r} (h : UserBy me s) :
    ∀ y, nbProduct s iss m fx sat x start n r = .ok y → UserBy me y.2.2 := by
  induction n generalizing s r with
  | zero => exact fun | _, rfl => h
  | succ n ih =>
    unfold nbProduct
    split
    · exact fun _ e => nomatch e
    · split
      · exact fun _ e => nomatch e
      · rename_i e
        dsimp only
        split
        · exact fun _ e => nomatch e
        · rename_i e'
          have ht := ih (UserBy.after_engRead h _ e) _ e'
          exact fun | _, rfl => ht

theorem UserBy.after_nbmvEnd {s0 s : State} {e nbd nrows sync} (hs : UserBy me s) :
    UserBy me (nbmvEnd s0 s e nbd nrows sync) := by
  unfold nbmvEnd
  split
  · exact .after_nbRefused hs
  · rename_i e
    exact .after_objectUpdate (.frame (.frame (UserBy.after_syncAdd (.after_joinFlags hs) _ e)))

theorem OutUser.after_execNbmvComplete {s : State} (h : UserBy me s) : OutUser (execNbmvComplete s) := by
  unfold execNbmvComplete
  split
  · split
    · dsimp only
      split
      · exact .next (.frame h)
      · refine .ite (.next h) (.ite (.after_answer (.after_nbmvEnd h)) ?_)
        split
        · exact .after_answer (.after_nbRefused h)
        · split
          · exact .after_answer (.after_nbRefused h)
          · rename_i e
            have hp := UserBy.after_nbProduct h _ e
            refine .ite (.after_answer (.ite (.frame (.after_sendMsg (.frame hp))) (.frame hp))) ?_
            split
            · exact .after_answer (.after_nbRefused h)
            · rename_i e'
              have hw := UserBy.after_engWrite hp _ e'
              exact .after_answer (.frame hw)
    · exact .next (.frame h)
  · exact .next h

/-! Status (R341). -/

theorem OutUser.after_execNbstat {s : State} {o} (h : UserBy me s) : OutUser (execNbstat o s) := by
  unfold execNbstat
  refine .after_issue h fun c hc => ?_
  split
  · exact .after_refuse h
  · exact .after_done (.after_landG (.after_homeRead (.after_taintAcquire h)))

/-! Records loaded at issue (R209 step 3). -/

theorem UserBy.after_loadRecords {s : State} {i vas tainted go} (h : UserBy me s)
    (hgo : ∀ x t, UserBy me t → UserBy me (go x t)) : UserBy me (loadRecords i s vas tainted go) := by
  unfold loadRecords
  split
  · exact .after_faultCur h
  · split
    · exact .after_refuse h
    · split
      · exact .after_holdOn h
      · exact hgo _ _ (.foldlBy Prod.snd (.snd (.after_taintAcquire h)) fun _ _ h => .snd (.after_readPath h))

theorem UserBy.after_actionsCheck {s : State} {i sync fut go} (h : UserBy me s)
    (hgo : ∀ t, UserBy me t → UserBy me (go t)) : UserBy me (actionsCheck i s sync fut go) := by
  unfold actionsCheck
  split
  · exact .after_raise h
  · exact .after_raise h
  · exact hgo _ h

theorem UserBy.after_copyIssue {s : State} {i cmd} (h : UserBy me s) : UserBy me (copyIssue i s cmd) :=
  .ite (.after_waitFor h) (.after_releaseThen h fun _ h => .after_done (.after_cePut h))

/-! CPY (R344). -/

theorem OutUser.after_execCpy {s : State} {o} (h : UserBy me s) : OutUser (execCpy o s) :=
  .after_issue h fun _ _ => .after_clusterOnly h fun _ h => .ite (.after_raise h)
    (.ite (.after_raise h) (.ite (.after_raise h)
    (.ite (.after_raise h) (.ite (.after_raise h) (.after_actionsCheck h fun _ h => .after_copyIssue h)))))

/-! CPYT (R345). -/

theorem OutUser.after_execCpyt {s : State} {o} (h : UserBy me s) : OutUser (execCpyt o s) := by
  unfold execCpyt
  refine .after_issue h fun c hc => ?_
  refine .after_clusterOnly h fun _ h => ?_
  refine .after_loadRecords h fun _ _ h => ?_
  dsimp only
  split
  · exact .after_raise h
  · exact .ite (.after_raise h) (.ite (.after_raise h) (.after_actionsCheck h fun _ h => .after_copyIssue h))

theorem UserBy.after_cpytElem {s : State} {x d r dt st n} (h : UserBy me s) :
    ∀ y, cpytElem s x d r dt st n = .ok y → UserBy me y.1 := by
  unfold cpytElem
  dsimp only
  split
  · exact fun | _, rfl => h
  · split
    · exact fun _ e => nomatch e
    · exact fun _ e => nomatch e
    · rename_i v t a e ea
      have ht : UserBy me t := by
        split_ifs at e
        · cases e
          exact h
        · split at e
          · cases e
          · exact UserBy.after_engRead h _ e
      split
      · split
        · exact fun _ e => nomatch e
        · rename_i e
          exact fun | _, rfl => .after_elemWrite ht _ e
      · split
        · exact fun _ e => nomatch e
        · rename_i e
          exact fun | _, rfl => .after_engWrite ht _ e

theorem UserBy.after_cpytPiece {s : State} {x d r dt st fl m n w} (h : UserBy me s) :
    UserBy me (cpytPiece s x d r dt st fl m n w).1 := by
  induction m generalizing s fl n w with
  | zero => exact h
  | succ m ih =>
    unfold cpytPiece
    split
    · exact h
    · rename_i e
      have he := UserBy.after_cpytElem h _ e
      exact .ite_fst he (ih he)

/-! The copy engine runs (R344). -/

theorem UserBy.after_pieceCounted {s0 s : State} {k iss sync n fl} (h : UserBy me s) :
    UserBy me (pieceCounted s0 s k iss sync n fl) := by
  unfold pieceCounted
  split
  · exact .after_refusedStep h
  · rename_i e
    exact .after_ceKick (.frame (.after_joinFlags (.after_syncStep h _ e)))

theorem OutUser.after_execCopyPieceLanded {s : State} (h : UserBy me s) : OutUser (execCopyPieceLanded s) := by
  unfold execCopyPieceLanded
  split
  · split
    · dsimp only
      refine .ite (.next h) (.ite (.next (.after_ceKick (.frame h))) ?_)
      split
      · exact .after_answer (.after_refusedStep h)
      · rename_i t e
        have ht : UserBy me t := by
          split at e
          · split at e
            · cases e
            · rename_i e₁
              exact .after_engWrite (.after_engRead h _ e₁) _ e
          · cases e
        exact .after_answer (.after_pieceCounted (.frame ht))
    · dsimp only
      refine .ite (.next h) ?_
      split
      · rename_i e
        exact .after_answer (.after_refusedStep (.frame (.of_fst e (.after_cpytPiece h))))
      · rename_i e
        exact .after_answer (.after_pieceCounted (.frame (.of_fst e (.after_cpytPiece h))))
    · exact .next (.frame h)
  · exact .next h

theorem OutUser.after_execCopyComplete {s : State} (h : UserBy me s) : OutUser (execCopyComplete s) := by
  unfold execCopyComplete
  split
  · refine .ite (.next h) ?_
    split
    · exact .ite (.next (.after_ceKick (.frame h))) (.after_answer (.after_ceComplete h fun _ h => .after_ceEnd h))
    · exact .ite (.next (.after_ceKick (.frame h))) (.after_answer (.after_ceComplete h fun _ h => .after_ceEnd h))
    · exact .next (.frame h)
  · exact .next h

/-! Sync words (R346, R347). -/

theorem UserBy.after_syncForm {s : State} {i va b k tainted go} (h : UserBy me s)
    (hgo : ∀ x y t, UserBy me t → UserBy me (go x y t)) : UserBy me (syncForm i s va b k tainted go) := by
  unfold syncForm
  split
  · exact .after_refuse h
  · exact .ite (.after_raise h) (hgo _ _ _ (.after_taintAcquire h))

theorem OutUser.after_execSyncwait {s : State} {o} (h : UserBy me s) : OutUser (execSyncwait o s) :=
  .after_issue h fun c hc => .after_syncForm h fun _ _ _ h => .ite (.after_raise h) (.ite (.after_waitFor h) (.withCur (.after_acquire h)))

theorem OutUser.after_execSyncadd {s : State} {o} (h : UserBy me s) : OutUser (execSyncadd o s) :=
  .after_issue h fun _ _ => .after_syncForm h fun _ _ _ h => .after_releaseThen h fun _ h => .after_done (.after_spWrite h)

/-! GATHER (R348, R349). -/

theorem OutUser.after_execGather {s : State} {o} (h : UserBy me s) : OutUser (execGather o s) := by
  unfold execGather
  refine .after_issue h fun c hc => ?_
  refine .after_clusterOnly h fun _ h => ?_
  split
  · exact .after_raise h
  · exact .after_actionsCheck h fun _ h => .ite (.after_waitFor h)
      (.after_releaseThen h fun _ h => .ite (.after_done h) (.after_done (.after_pendOnce (.frame h))))

theorem UserBy.after_gatherRow {s : State} {x g e} (h : UserBy me s) :
    ∀ y, gatherRow s x g e = .ok y → UserBy me y.2 := by
  unfold gatherRow
  obtain ⟨resolve, hr⟩ : ∃ f, f = resolveIa := ⟨_, rfl⟩
  rw [← hr]
  dsimp only
  split
  · exact fun _ e => nomatch e
  · split
    · exact fun _ e => nomatch e
    · split
      · exact UserBy.after_engRead h
      · split
        · exact fun _ e => nomatch e
        · refine List.foldlRecOn (motive := fun r : RangeRes (Nat × State) => ∀ y, r = .ok y → UserBy me y.2) _ _
            (fun | _, rfl => h)
            fun r hr q _ => ?_
          split
          · exact fun _ e => nomatch e
          · split
            · exact fun _ e => nomatch e
            · split
              · exact fun _ e => nomatch e
              · exact fun _ e => nomatch e
              · split
                · exact fun _ e => nomatch e
                · exact fun | _, rfl => .after_homeRead (hr _ rfl)

theorem UserBy.after_gatherRows {s : State} {x g l acc} (h : UserBy me s) :
    ∀ y, gatherRows s x g l acc = .ok y → UserBy me y.2 := by
  induction l generalizing s acc with
  | nil => exact fun | _, rfl => h
  | cons e t ih =>
    unfold gatherRows
    split
    · exact ih h
    · split
      · exact fun _ e => nomatch e
      · rename_i e
        exact ih (.after_gatherRow h _ e)

theorem UserBy.after_gatherKick {s : State} {d sl} (h : UserBy me s) : UserBy me (gatherKick s d sl) := by
  unfold gatherKick
  split
  · exact .after_pendOnce h
  · exact h

theorem OutUser.after_execGatherBatchLanded {s : State} (h : UserBy me s) : OutUser (execGatherBatchLanded s) := by
  unfold execGatherBatchLanded
  split
  · dsimp only
    split
    · exact .next (.frame h)
    · refine .ite (.next h) ?_
      split
      · exact .after_answer (.after_refusedStep h)
      · rename_i t e
        have ht : UserBy me t := by
          split at e
          · cases e
          · split at e
            · cases e
            · rename_i e₁
              split at e
              · cases e
              · rename_i e₂
                exact .after_engWriteAll (.after_gatherRows (.after_engRead h _ e₁) _ e₂) _ e
        split
        · exact .after_answer (.after_refusedStep ht)
        · rename_i e'
          have hy := UserBy.after_syncAdd ht _ e'
          exact .after_answer (.after_gatherKick (.frame hy))
  · exact .next h

/-! The tile-walk engine (R185 to R187, R350, R351). -/

theorem UserBy.after_twStart {s : State} {k d ld st} (h : UserBy me s) : UserBy me (twStart s k d ld st) :=
  .after_pendOnce (.frame h)

theorem OutUser.after_execTwrun {s : State} {o} (h : UserBy me s) : OutUser (execTwrun o s) := by
  unfold execTwrun
  refine .after_issue h fun c hc => ?_
  refine .after_clusterOnly h fun _ h => ?_
  refine .after_loadRecords h fun _ _ h => ?_
  dsimp only
  split
  · exact .after_faultCur h
  · refine .ite (.after_raise h) ?_
    refine .after_loadRecords h fun _ _ h => ?_
    refine .ite (.after_raise h) ?_
    split
    · exact .after_raise h
    · refine .ite (.after_raise h) ?_
      split
      · exact .after_raise h
      · exact .ite (.after_waitFor h) (.after_releaseThen h fun _ h => .after_done (.after_twStart h))

theorem OutUser.after_execTwstop {s : State} (h : UserBy me s) : OutUser (execTwstop s) :=
  .after_issue h fun _ _ => .after_clusterOnly h fun _ h => .ite (.after_done h) (.ite (.after_raise h) (.after_done (.after_breakPipe h)))

theorem UserBy.after_twEnd {s : State} {k} (h : UserBy me s) : UserBy me (twEnd s k) := by
  unfold twEnd
  refine .ite h ?_
  dsimp only
  split
  · exact .after_engFuture (.frame h)
  · exact .frame h

theorem UserBy.after_tileRead {s : State} {x sh t m n} (h : UserBy me s) :
    ∀ y, tileRead s x sh t m n = .ok y → UserBy me y.2 := by
  induction m generalizing s n with
  | zero => exact fun | _, rfl => h
  | succ m ih =>
    unfold tileRead
    dsimp only
    split
    · exact ih h
    · split
      · exact fun _ e => nomatch e
      · split
        · exact fun _ e => nomatch e
        · rename_i e
          split
          · exact fun _ e => nomatch e
          · rename_i e'
            have ht := ih (UserBy.after_engRead h _ e) _ e'
            exact fun | _, rfl => ht

theorem UserBy.after_tileLand {s : State} {w j t l} (h : UserBy me s) : UserBy me (tileLand s w j t l) :=
  .after_qPush (.after_spWrite (.foldl h fun _ _ h => .after_spWrite h))

theorem OutUser.after_execTileLoad {s : State} (h : UserBy me s) : OutUser (execTileLoad s) := by
  unfold execTileLoad
  split
  · extract_lets
    split
    · refine .ite (.next h) ?_
      split
      · exact .after_answer (.after_engRefused (.frame h))
      · refine .ite (.next h) ?_
        split
        · exact .after_answer (.after_refusedStep h)
        · rename_i e
          have hr := UserBy.after_tileRead h _ e
          extract_lets s₁ s₂
          have h₂ : UserBy me s₂ := .frame (.foldl (.frame hr) fun _ _ h => .after_tileLand h)
          exact .after_answer (.ite (.after_pendOnce h₂) h₂)
    · exact .next (.frame h)
  · exact .next h

/-! Permits (R186, R302). -/

theorem UserBy.after_permitForm {s : State} {i q b u go} (h : UserBy me s)
    (hgo : ∀ x t, UserBy me t → UserBy me (go x t)) : UserBy me (permitForm i s q b u go) := by
  unfold permitForm
  refine .after_clusterOnly h fun _ h => ?_
  dsimp only
  split
  · exact .ite (.ite (.after_raise h) (.after_waitFor h)) (.ite (.after_raise h) (.ite (.after_raise h) (.after_raise h)))
  · exact .ite (.after_raise h) (.ite (.after_raise h) (.ite (.after_raise h) (.after_releaseThen h fun _ h => hgo _ _ h)))

theorem UserBy.after_creditBack {s : State} {k j b} (h : UserBy me s) : UserBy me (creditBack s k j b) :=
  .after_twEnd (.frame h)

theorem OutUser.after_execPermitFree {s : State} {o} (h : UserBy me s) : OutUser (execPermitFree o s) :=
  .after_issue h fun _ _ => .after_permitForm h fun _ _ h => .after_done (.after_creditBack h)

theorem OutUser.after_execPermitStore {s : State} {o} (h : UserBy me s) : OutUser (execPermitStore o s) :=
  .after_issue h fun _ _ => .after_permitForm h fun _ _ h => .after_done (.after_pendOnce (.frame h))

theorem OutUser.after_execStorePermitAck {s : State} (h : UserBy me s) : OutUser (execStorePermitAck s) := by
  unfold execStorePermitAck
  split
  · dsimp only
    split
    · refine .ite (.next h) (.ite (.after_answer (.after_engRefused (.frame h))) (.ite (.after_answer (.after_engRefused (.frame h))) ?_))
      split
      · exact .after_answer (.after_refusedStep h)
      · rename_i t e
        have ht : UserBy me t := by
          split_ifs at e
          exact .after_engWriteAll h _ e
        exact .after_answer (.after_creditBack (.ite (.frame ht) (.after_pendOnce (.frame ht))))
    · exact .next (.frame h)
  · exact .next h

/-! Faults of engines (R343, R331, R336, R187, R339). -/

theorem UserBy.after_commandRecord {s : State} {i e p} (h : UserBy me s) : UserBy me (commandRecord s i e p) :=
  .after_sendPacket h

theorem OutUser.after_execEngineFault {s : State} (h : UserBy me s) : OutUser (execEngineFault s) := by
  unfold execEngineFault
  split
  · dsimp only
    split
    · split
      · exact .ite (.next (.frame h)) (.after_answer
          (.after_commandRecord (.after_arrayPass (.after_ceEnd (.frame (.after_engFuture (.frame h)))))))
      · exact .next (.frame h)
    · split
      · exact .ite (.next (.frame h)) (.after_answer (.after_commandRecord (.after_gatherKick (.frame h))))
      · exact .next (.frame h)
    · split
      · exact .ite (.next (.frame h)) (.after_answer (.after_commandRecord (.after_breakPipe (.frame h))))
      · exact .next (.frame h)
    · split
      · exact .after_answer (.after_commandRecord (.after_nbStop (.frame h)))
      · exact .next (.frame h)
    · split
      · exact .after_answer (.after_sendPacket (.frame h))
      · exact .next (.frame h)
    · exact .next (.frame h)
  · exact .next h

/-! Status (R352). -/

theorem OutUser.after_execTwstat {s : State} {o} (h : UserBy me s) : OutUser (execTwstat o s) :=
  .after_issue h fun _ _ => .after_clusterOnly h fun _ h => .after_done (.after_landG h)

theorem OutUser.after_execCestat {s : State} {o} (h : UserBy me s) : OutUser (execCestat o s) :=
  .after_issue h fun _ _ => .after_clusterOnly h fun _ h => .after_done (.after_landG h)

/-! Updates (R140 to R142). -/

theorem UserBy.after_setPub {s : State} {a i e} (h : UserBy me s) : UserBy me (setPub s a i e) := .modCore h

theorem UserBy.after_setSub {s : State} {a i e} (h : UserBy me s) : UserBy me (setSub s a i e) := .modCore h

theorem UserBy.after_sendUpdate {s : State} {a i blocks resid cvg full repoint bad} (h : UserBy me s) :
    UserBy me (sendUpdate s a i blocks resid cvg full repoint bad) := .after_setPub (.frame h)

theorem OutUser.after_execSubscriptionUpdateSend {s : State} (h : UserBy me s) :
    OutUser (execSubscriptionUpdateSend s) := by
  unfold execSubscriptionUpdateSend
  split
  · rename_i a i _
    have ht : ∀ p, UserBy me (s.took.setCore a { s.core a with pubPend := (s.core a).pubPend.erase p }) := fun _ =>
      .setCore (.frame h) (.of (h.core a))
    dsimp only
    split
    · exact .next (.frame h)
    · exact .ite (.next (ht _)) (.ite (.next h) (.next (.after_sendUpdate (ht _))))
  · exact .next h

/-! Notifies (R144). -/

theorem UserBy.after_postNotify {s : State} {a e mask resid cvg flags} (h : UserBy me s) :
    UserBy me (postNotify s a e mask resid cvg flags) := by
  unfold postNotify
  refine .ite h ?_
  dsimp only
  split <;> exact .frame (.withCore h)

/-! Applying updates (R142). -/

theorem UserBy.after_linkMade {s : State} {a e l} (h : UserBy me s) : UserBy me (linkMade s a e l) := by
  unfold linkMade
  split
  · exact h
  · exact .modCore (.after_spWrite h)

theorem UserBy.after_bindDone {s : State} {a e} (h : UserBy me s) : UserBy me (bindDone s a e) := by
  unfold bindDone
  split
  · exact h
  · exact .after_updTask (.after_linkMade h)

theorem UserBy.after_landBlock {s : State} {a off bad q} (h : UserBy me s) :
    UserBy me (landBlock s a off bad q) :=
  .ite (.modCore h) (.frame (.modCore h))

theorem OutUser.after_execSubscriptionUpdateApply {s : State} (h : UserBy me s) :
    OutUser (execSubscriptionUpdateApply s) := by
  unfold execSubscriptionUpdateApply
  split
  · refine .ite (.next h) ?_
    split
    · exact .next (.after_atPort h)
    · extract_lets s₁ a x mine s₂ x' s₃ s₄ s₅
      have h₃ : UserBy me s₃ := .after_setSub (.foldl (.frame h) fun _ _ h => .after_landBlock h)
      have h₄ : UserBy me s₄ := .ite (.after_bindDone h₃) h₃
      exact .next (.frame (.ite (.frame h) (.after_postNotify h₄)))
  · exact .next h

theorem OutUser.after_execSubscriptionAck {s : State} (h : UserBy me s) : OutUser (execSubscriptionAck s) := by
  unfold execSubscriptionAck
  split
  · exact .next (.ite (.after_setPub (.frame h)) (.frame h))
  · exact .next h

/-! Binding and teardown (R137, R145). -/

theorem UserBy.after_sendFull {s : State} {a i repoint} (h : UserBy me s) : UserBy me (sendFull s a i repoint) := .after_sendUpdate h

theorem UserBy.after_subBind {s : State} {a kid nen nch off pub poff len} (h : UserBy me s) :
    UserBy me (subBind s a kid nen nch off pub poff len).2 := by
  unfold subBind
  split
  · exact .snd (.after_sendFull (.after_setPub (.after_setSub h)))
  · exact .snd h

theorem UserBy.after_freePubEntry {s : State} {a i} (h : UserBy me s) : UserBy me (freePubEntry s a i) :=
  .after_leaveWays (.modCore h)

theorem UserBy.after_dropNotify {s : State} {a e} (h : UserBy me s) : UserBy me (dropNotify s a e) := .modCore h

theorem UserBy.after_dropMirror {s : State} {a i} (h : UserBy me s) : UserBy me (dropMirror s a i) := .modCore h

theorem UserBy.after_unsubscribe {s : State} {a i} (h : UserBy me s) : UserBy me (unsubscribe s a i) :=
  .after_leaveWays (.after_setSub (.after_dropNotify (.ite (.after_dropMirror h) (.frame (.after_dropMirror h)))))

theorem UserBy.after_unpublish {s : State} {a i} (h : UserBy me s) : UserBy me (unpublish s a i) :=
  .after_freePubEntry (.frame h)

theorem OutUser.after_execSubscriptionTeardown {s : State} (h : UserBy me s) : OutUser (execSubscriptionTeardown s) := by
  unfold execSubscriptionTeardown
  split
  · exact .ite (.ite (.next (.frame h)) (.next (.after_postNotify (.after_setSub (.frame h)))))
      (.ite (.next (.frame h)) (.next (.after_freePubEntry (.frame h))))
  · exact .next h

/-! Instructions (R285 to R287). -/

theorem OutUser.after_execSubscr {s : State} {o} (h : UserBy me s) : OutUser (execSubscr o s) := by
  unfold execSubscr
  refine .after_issue h fun c hc => ?_
  refine .ite (.after_raise h) ?_
  refine .ite (.after_raise h) ?_
  refine .ite (.after_raise h) ?_
  refine .ite (.after_raise h) ?_
  split
  · exact .after_raise h
  · exact .after_waitFor (.after_subBind h)

theorem UserBy.after_subIndex {s : State} {i n go} (h : UserBy me s) (hgo : ∀ x, UserBy me (go x)) :
    UserBy me (subIndex i s n go) :=
  .ite (.after_raise h) (.ite (.after_raise h) (hgo _))

theorem OutUser.after_execUnsub {s : State} {o} (h : UserBy me s) : OutUser (execUnsub o s) :=
  .after_issue h fun _ _ => .after_subIndex h fun _ => .after_done (.after_unsubscribe h)

theorem OutUser.after_execSubstat {s : State} {o} (h : UserBy me s) : OutUser (execSubstat o s) :=
  .after_issue h fun c hc => .after_subIndex h fun _ => .withCur (.after_acquire h)

/-! Scratchpad bytes of an object. -/

theorem UserBy.after_spStore {s : State} {a off n v} (h : UserBy me s) : UserBy me (spStore s a off n v) :=
  .foldlBy Prod.snd (.snd h) fun _ _ h => .snd (.after_spWrite h)

/-! Convergence records (R61 to R63, R403). -/

theorem UserBy.after_recUpdate {s : State} {r kid dU dI dA fl bits} (h : UserBy me s) :
    UserBy me (recUpdate s r kid dU dI dA fl bits) :=
  .ite (.after_spWrite h) (.after_sendMsg (.after_spWrite h))

theorem UserBy.after_gmuError {s : State} {a r kid cause origin slot piv fid off val} (h : UserBy me s) :
    UserBy me (gmuError s a r kid cause origin slot piv fid off val) :=
  .after_sendMsg h

/-! Beliefs (R65, R69). -/

theorem UserBy.after_beliefWrite {s : State} {a at_ n v resid cvg} (h : UserBy me s) :
    UserBy me (beliefWrite s a at_ n v resid cvg) :=
  .foldl (.frame (.modCore h)) fun _ _ h => .frame (.modCore h)

theorem UserBy.after_recompute {s : State} {a off} (h : UserBy me s) : UserBy me (recompute s a off).1 :=
  .fst (.after_spWrite (.after_spWrite (.after_beliefWrite h)))

theorem UserBy.after_stepGen {s : State} {a off slot} (h : UserBy me s) : UserBy me (stepGen s a off slot) :=
  .after_spWrite (.after_spWrite h)

/-! Arrivals (R64, R65). -/

theorem UserBy.after_gmuDrop {s : State} {a m kind} (h : UserBy me s) : UserBy me (gmuDrop s a m kind) :=
  .after_gmuError (.after_recUpdate h)

theorem UserBy.after_gmuApply {s : State} {a m} (h : UserBy me s) : UserBy me (gmuApply s a m) :=
  .ite (.after_recUpdate (.after_recompute (.after_stepGen (.after_spStore h))))
    (.after_recUpdate (.after_recUpdate (.after_recompute (.after_stepGen (.after_spStore h)))))

theorem UserBy.after_dropArrival {s : State} {a m kind} (h : UserBy me s) : UserBy me (dropArrival s a m kind) :=
  .ite (.after_record (.after_gmuDrop h)) (.after_gmuDrop h)

theorem OutUser.after_gmuStep {s t : State} {ports homes fin} (hs : UserBy me s) (ht : UserBy me t)
    (hfin : ∀ t, UserBy me t → UserBy me (fin t)) : OutUser (gmuStep s ports homes t fin) := by
  unfold gmuStep
  split
  · exact .next (.after_atPort hs)
  · exact .ite (.after_answer (hfin _ ht)) (.next hs)

theorem UserBy.after_popArrival {s : State} {a t} (h : UserBy me s) : UserBy me (popArrival s a t) := .modCore h

theorem OutUser.after_execGmuArrive {s : State} (h : UserBy me s) : OutUser (execGmuArrive s) := by
  unfold execGmuArrive
  split
  · split
    · exact .next (.frame h)
    · refine .ite (.next h) ?_
      extract_lets r fin s₁ drop
      have h₁ : UserBy me s₁ := .after_popArrival (.frame h)
      have hfin (t : State) (h : UserBy me t) : UserBy me (fin t) := .after_serve (.ite h (.after_pendOnce h))
      have hdrop (k : Nat) : OutUser (drop k) := .after_gmuStep h (.after_dropArrival h₁) hfin
      split
      · exact hdrop _
      · exact .ite (.after_answer (hfin _ (.modCore h₁))) (.ite (hdrop _) (.after_gmuStep h (.after_gmuApply h₁) hfin))
  · exact .next h

/-! The shared checks of the group (R354). -/

theorem OutUser.after_gmuIssue {s : State} {i go} (h : UserBy me s)
    (hgo : ∀ x t, UserBy me t → UserBy me (go x t)) : OutUser (gmuIssue i s go) :=
  .after_issue h fun _ _ => .ite (.after_waitFor h) (hgo _ _ h)

theorem UserBy.after_objectForm {s : State} {i va g noWin bad4 bad5 rsv go} (h : UserBy me s)
    (hgo : ∀ x, UserBy me (go x)) : UserBy me (objectForm i s va g noWin bad4 bad5 rsv go) := by
  unfold objectForm
  dsimp only
  split
  · exact .after_raise h
  · split
    · exact h
    · exact .ite (.after_raise h) (hgo _)

theorem UserBy.after_orPoison {s go : State} {i va l} (hs : UserBy me s) (hgo : UserBy me go) :
    UserBy me (orPoison i s va l go) :=
  .ite (.after_faultCur hs) hgo

theorem UserBy.after_gmuOp {s t : State} {ports homes} (hs : UserBy me s) (ht : UserBy me t) :
    UserBy me (gmuOp s ports homes t) := by
  unfold gmuOp
  split
  · exact .after_waitPort hs
  · exact .ite ht (.after_waitFor hs)

/-! Creating objects (R356, R357). -/

theorem UserBy.after_gmuDone {s : State} {i d x} (h : UserBy me s) : UserBy me (gmuDone i s d x) := .withCur h

theorem OutUser.after_execGvar {s : State} {o} (h : UserBy me s) : OutUser (execGvar o s) := by
  unfold execGvar
  refine .after_gmuIssue h fun _ _ h => ?_
  dsimp only
  split
  · exact .after_raise h
  · exact .after_orPoison h (.ite (.after_waitFor h)
      (.ite (.after_gmuDone h) (.after_gmuOp h
      (.after_gmuDone (.after_recUpdate (.modCore (.foldl (.after_spStore (.after_spStore (.after_spWrite h))) fun _ _ h => .after_spStore h)))))))

theorem OutUser.after_execGfac {s : State} {o} (h : UserBy me s) : OutUser (execGfac o s) := by
  unfold execGfac
  refine .after_gmuIssue h fun _ s h => ?_
  extract_lets i va b g src cvg arity dim dims dj n ext a off form hdr s₁ s₂ s₃
  have h₂ : UserBy me s₂ := .after_spStore (.after_spWrite h)
  split
  · exact .after_raise h
  · exact .after_orPoison h (.ite (.after_gmuDone h) (.ite (.after_waitPort h) (.after_gmuDone (.modCore h₂))))

/-! Linking (R358). -/

theorem OutUser.after_execGlink {s : State} {o} (h : UserBy me s) : OutUser (execGlink o s) :=
  .after_gmuIssue h fun _ _ h => .after_objectForm h fun _ => .after_orPoison h
    (.ite (.after_raise h) (.ite (.after_raise h) (.frame (.after_waitFor h))))

theorem UserBy.after_bindResult {s : State} {r v} (h : UserBy me s) : UserBy me (bindResult s r v) :=
  .after_updTask h

theorem OutUser.after_execGmuBind {s : State} (h : UserBy me s) : OutUser (execGmuBind s) := by
  unfold execGmuBind
  split
  · refine .ite (.next h) ?_
    dsimp only
    split
    · exact .next (.after_atPort h)
    · split
      · exact .next (.frame h)
      · split
        · exact .next (.after_bindResult (.frame h))
        · refine .ite (.after_answer (.after_failTask (.frame h))) ?_
          split
          · exact .after_answer (.after_failTask (.frame h))
          · exact .after_answer (.after_updTask (.after_subBind (.after_spStore (.after_spWrite (.frame h)))))
  · exact .next h

/-! Building a message (R66, R359). -/

theorem OutUser.after_execGfmsg {s : State} {o} (h : UserBy me s) : OutUser (execGfmsg o s) := by
  unfold execGfmsg
  refine .after_gmuIssue h fun _ _ h => ?_
  refine .after_objectForm h fun _ => ?_
  refine .ite (.after_raise h) ?_
  refine .after_gmuOp h ?_
  refine .ite (.after_gmuDone (.after_record (.after_gmuError (.after_recUpdate h)))) ?_
  split
  · exact .after_gmuDone (.withCur (.after_gmuError (.after_recUpdate (.after_spWrite h))))
  · exact .after_gmuDone (.withCur (.after_sendMsg (.after_recUpdate (.after_spWrite (.after_spStore h)))))

/-! Parameters (R360, R361, R364). -/

theorem OutUser.after_execGdamp {s : State} {o} (h : UserBy me s) : OutUser (execGdamp o s) :=
  .after_gmuIssue h fun _ _ h => .after_objectForm h fun _ => .ite (.after_raise h) (.ite (.after_waitPort h) (.after_done (.after_spWrite h)))

theorem OutUser.after_execGtol {s : State} {o} (h : UserBy me s) : OutUser (execGtol o s) :=
  .after_gmuIssue h fun _ _ h => .after_objectForm h fun _ => .ite (.after_raise h)
    (.after_orPoison h (.ite (.after_waitFor h)
    (.after_gmuOp h (.after_done (.ite (.after_spWrite (.after_spWrite h)) (.after_recUpdate (.after_spWrite (.after_spWrite h))))))))

theorem OutUser.after_execGrelin {s : State} {o} (h : UserBy me s) : OutUser (execGrelin o s) :=
  .after_gmuIssue h fun _ _ h => .after_objectForm h fun _ => .after_orPoison h
    (.ite (.after_waitPort h) (.after_done (.after_spWrite (.after_spStore h))))

theorem OutUser.after_execGcvg {s : State} {o} (h : UserBy me s) : OutUser (execGcvg o s) := by
  unfold execGcvg
  refine .after_gmuIssue h fun _ _ h => ?_
  dsimp only
  split
  · exact .after_raise h
  · exact .after_orPoison h (.after_gmuOp h (.after_gmuDone (.after_recUpdate (.after_spWrite h))))

/-! Reading a belief (R74, R362). -/

theorem OutUser.after_execGread {s : State} {o} (h : UserBy me s) : OutUser (execGread o s) :=
  .after_gmuIssue h fun _ _ h => .after_objectForm h fun _ => .ite (.after_raise h)
    (.ite (.after_raise h) (.ite (.after_waitFor h)
      (.after_orPoison h (.ite (.after_done (.after_land h)) (.after_done (.after_land (.after_land h)))))))

/-! Snapshots (R72, R73, R363). -/

theorem UserBy.after_snapWrite {s : State} {x dst cap l r b} (h : UserBy me s) :
    UserBy me (snapWrite s x dst cap l r b).1 := by
  induction l generalizing s r b with
  | nil => exact h
  | cons q t ih =>
    unfold snapWrite
    dsimp only
    refine .ite_fst h (.ite_fst h ?_)
    split
    · exact h
    · split
      · exact h
      · rename_i e
        exact ih (.after_engWrite h _ e)

theorem UserBy.after_snapDone {s : State} {i d reg trunc faulted bytes} (h : UserBy me s) :
    UserBy me (snapDone i s d reg trunc faulted bytes) :=
  .after_gmuDone (.after_release (.after_snapEnd h))

theorem UserBy.after_snapRun {s : State} {i d q reg dst cap} (h : UserBy me s) :
    UserBy me (snapRun i s d q reg dst cap) := by
  unfold snapRun
  split
  · exact .after_waitPort h
  · refine .ite (.after_waitFor (.foldl (.frame h) fun _ _ h => .after_gmuFreeze h)) ?_
    refine .ite (.after_snapDone h) ?_
    refine .ite (.after_waitFor h) ?_
    dsimp only
    split
    · rename_i e1
      exact .after_snapDone (.of_fst e1 (.after_snapWrite h))
    · rename_i e1
      have he1 : UserBy me _ := .of_fst e1 (.after_snapWrite h)
      split
      · exact .after_snapDone (.after_sendPacket (.frame he1))
      · exact .after_waitFor (.after_engRefused (.frame he1))

theorem OutUser.after_execGsnap {s : State} {o} (h : UserBy me s) : OutUser (execGsnap o s) := by
  unfold execGsnap
  refine .after_gmuIssue h fun _ _ h => ?_
  refine .ite (.after_raise h) ?_
  refine .ite (.after_raise h) ?_
  split
  · exact .after_raise h
  · dsimp only
    split
    · exact .ite (.after_snapRun (.ite h (.frame h))) (.after_waitFor (.ite h (.frame h)))
    · exact .after_waitFor (.ite h (.frame h))

/-! Freeing (R365). -/

theorem UserBy.after_freeMirrors {s : State} {a g} (h : UserBy me s) : UserBy me (freeMirrors s a g) :=
  .foldl h fun _ _ h => .ite (.after_unsubscribe h) h

theorem OutUser.after_execGfree {s : State} {o} (h : UserBy me s) : OutUser (execGfree o s) := by
  refine .after_gmuIssue h fun c s h => .after_objectForm h fun g => .after_orPoison h (.ite (.after_waitFor h) (.ite ?_ ?_))
  · extract_lets vf r s₁ s₂
    have h₂ : UserBy me s₂ := .modCore (.after_spWrite h)
    exact .after_gmuOp h (.after_done (.after_leaveWays (.ite (.after_recUpdate h₂) h₂)))
  · extract_lets fid js reqs s₁ s₂ s₃
    have h₃ : UserBy me s₃ := .foldl (.after_leaveWays (.modCore (.after_freeMirrors h))) fun _ _ h => .frame h
    exact .ite (.after_done h₃) (.after_waitFor h₃)

theorem UserBy.after_unbindAck {s : State} {t fl} (h : UserBy me s) : UserBy me (unbindAck s t fl) :=
  .after_updTask h (by intro c hc; dsimp only; split <;> [split_ifs; skip] <;> simpa using hc)

theorem OutUser.after_execGmuUnbind {s : State} (h : UserBy me s) : OutUser (execGmuUnbind s) := by
  unfold execGmuUnbind
  split
  · refine .ite (.next h) ?_
    refine .ite (.next (.frame h)) ?_
    split
    · exact .next (.after_unbindAck (.frame h))
    · exact .ite (.next (.after_unbindAck (.frame h)))
        (.after_gmuStep h (.after_recUpdate (.after_recompute (.after_stepGen (.after_spStore (.after_spWrite (.frame h)))))) fun _ h =>
        .after_unbindAck h)
  · exact .next h

/-! The form of the privileged groups (R367). -/

theorem UserBy.after_fenced {s : State} {go} (h : UserBy me s)
    (hgo : ∀ t, UserBy me t → UserBy me (go t)) : UserBy me (fenced s go) :=
  .after_releaseThen h fun _ h => hgo _ (.after_acquire h)

theorem UserBy.after_fenceAfter {s : State} {go} (h : UserBy me s)
    (hgo : ∀ t, UserBy me t → UserBy me (go t)) : UserBy me (fenceAfter s go) :=
  .ite (.after_waitFor h) (hgo _ (.after_acquire (.after_release h)))

theorem UserBy.after_handlerHalt {s : State} (h : UserBy me s) : UserBy me (handlerHalt s) :=
  .ite (.after_waitFor h) (.after_endCtx (.after_wcbDrain h))

theorem UserBy.after_endHandler {s : State} {go} (h : UserBy me s)
    (hgo : ∀ t, UserBy me t → UserBy me (go t)) : UserBy me (endHandler s go) :=
  .ite (.after_handlerHalt h) (.after_fenced h fun _ h => .after_handlerHalt (hgo _ h))

/-! RESUME, KILLT (R214, R222, R370). -/

@[simp] theorem resumeAt_priv (c : Ctx) (pc : Word) : (resumeAt c pc).priv = c.priv := rfl

theorem UserBy.after_resumeTask {s : State} {t pc} (h : UserBy me s) : UserBy me (resumeTask s t pc) := by
  unfold resumeTask
  split
  · exact h
  · exact .ite (.withCtx h) (.ite (.withCtx h) h)

theorem OutUser.after_execResume {s : State} {o} (h : UserBy me s) : OutUser (execResume o s) := by
  unfold execResume
  refine .after_issue h fun c hc => ?_
  dsimp only
  split
  · exact .after_raise h
  · exact .ite (.after_raise h) (.after_endHandler h fun _ h => .after_resumeTask h)

theorem OutUser.after_execKillt {s : State} (h : UserBy me s) : OutUser (execKillt s) := by
  unfold execKillt
  refine .after_issue h fun c hc => ?_
  split
  · exact .after_raise h
  · exact .after_endHandler h fun _ h => .after_killBound h

/-! KILLK (R196, R370). -/

theorem UserBy.after_killLaunches {s : State} {kid} (h : UserBy me s) : UserBy me (killLaunches s kid) :=
  .foldl h fun _ _ h => .foldl (.frame h) fun _ _ h => .after_launchResolve h

theorem UserBy.after_killRecords {s : State} {a kid} (h : UserBy me s) : UserBy me (killRecords s a kid) := by
  unfold killRecords
  refine .foldl (.modCore h) fun _ _ h => ?_
  dsimp only
  split
  · refine .after_launchEnd ?_
    split
    · exact .after_joinDec h
    · exact h
  · split
    · exact .after_joinDec h
    · exact h

theorem UserBy.after_nextOfFlow {s : State} {a e} (h : UserBy me s) : UserBy me (nextOfFlow s a e) := by
  unfold nextOfFlow
  split
  · exact h
  · exact .ite h (.ite (.after_resendEntry h) (.modCore h))

theorem UserBy.after_killHeld {s : State} {a kid} (h : UserBy me s) : UserBy me (killHeld s a kid) :=
  .foldl (.modCore h) fun _ _ h => .ite (.after_pendOnce (.ite (.after_nextOfFlow h) h)) (.ite (.after_nextOfFlow h) h)

theorem UserBy.after_killArrivals {s : State} {a kid} (h : UserBy me s) : UserBy me (killArrivals s a kid) :=
  .foldl h fun _ _ h => .modCtx (.modCore h) fun _ _ => rfl

theorem UserBy.after_killSubs {s : State} {a kid} (h : UserBy me s) : UserBy me (killSubs s a kid) :=
  .foldl (.modCore h) fun _ _ h => .ite (.after_unsubscribe (.ite (.after_unpublish h) h)) (.ite (.after_unpublish h) h)

theorem UserBy.after_killGmu {s : State} {a kid} (h : UserBy me s) : UserBy me (killGmu s a kid) :=
  .after_leaveWays (.modCore h)

theorem UserBy.after_killCore {s : State} {a kid} (h : UserBy me s) : UserBy me (killCore s a kid) :=
  .after_serve (.modCore (.after_killGmu (.after_killSubs (.after_killArrivals (.after_killHeld (.after_killRecords h))))))

theorem UserBy.after_killKernel {s : State} {kid} (h : UserBy me s) : UserBy me (killKernel s kid) :=
  .frame (.foldl (.frame (.after_stopCommands (.foldl (.after_killLaunches h) fun _ _ h => .after_killTask h))) fun _ _ h => .after_killCore
    h)

theorem OutUser.after_execKillk {s : State} {o} (h : UserBy me s) : OutUser (execKillk o s) :=
  .after_issue h fun _ _ => .ite (.after_handlerHalt h)
    (.ite (.after_raise h) (.ite (.after_raise h)
    (.ite (.after_raise h) (.ite (.after_endHandler h fun _ h => .after_killKernel h)
    (.after_fenced h fun _ h => .ite (.after_done (.after_killKernel h)) (.after_killKernel h))))))

/-! The debug window (R215, R371). -/

theorem UserBy.after_dropLanding {s : State} {a k vec r} (h : UserBy me s) :
    UserBy me (dropLanding s a k vec r) :=
  .ite (.frame h) (.modCore h)

theorem UserBy.after_dwWrite {s : State} {a k x a4} (h : UserBy me s) :
    ∀ y, dwWrite s a k x a4 = .ok y → UserBy me y := by
  unfold dwWrite
  split
  · split
    · exact fun | _, rfl => .modCtx (.after_dropLanding h)
    · exact fun _ e => nomatch e
  · split
    · exact fun | _, rfl => .modCtx (.after_dropLanding h)
    · exact fun _ e => nomatch e
  · split
    · exact fun _ e => nomatch e
    · exact fun | _, rfl => .modCtx h
  · exact fun | _, rfl => .modCtx h
  · exact fun | _, rfl => .modCtx h
  · exact fun _ e => nomatch e
  · exact fun _ e => nomatch e
  · exact fun _ e => nomatch e
  · exact fun _ e => nomatch e

theorem UserBy.after_dwMem {s : State} {i a k va kind fault2 go} (h : UserBy me s)
    (hfault2 : ∀ t, UserBy me t → UserBy me (fault2 t)) (hgo : ∀ x y t, UserBy me t → UserBy me (go x y t))
      :
    UserBy me (dwMem i s a k va kind fault2 go) := by
  unfold dwMem
  dsimp only
  split
  · exact hfault2 _ h
  · exact .after_refuse h
  · split
    · exact .after_holdOn h
    · exact hgo _ _ _ h

theorem UserBy.after_dwForm {s : State} {i sel gone go} (h : UserBy me s)
    (hgone : ∀ t, UserBy me t → UserBy me (gone t)) (hgo : ∀ x y z t, UserBy me t → UserBy me (go x y z t))
      :
    UserBy me (dwForm i s sel gone go) := by
  unfold dwForm
  split
  · exact .after_raise h
  · refine .ite (.after_raise h) ?_
    refine .after_fenced h fun _ h => ?_
    split
    · exact hgone _ h
    · exact .ite (hgone _ h) (hgo _ _ _ _ h)

theorem UserBy.after_dwStatus {s : State} {i r x} (h : UserBy me s) : UserBy me (dwStatus i s r x) := .withCur h

theorem OutUser.after_execDwrd {s : State} {o} (h : UserBy me s) : OutUser (execDwrd o s) := by
  unfold execDwrd
  refine .after_issue h fun c hc => ?_
  refine .after_dwForm h (fun _ h => .after_dwStatus h) fun _ _ _ _ h => ?_
  refine .ite (.after_dwMem h (fun _ h => .after_dwStatus h) fun _ _ _ h => .after_dwStatus (.withCur (.after_readPath h))) ?_
  split
  · exact .after_raise h
  · exact .after_dwStatus (.withCur h)

theorem OutUser.after_execDwwr {s : State} {o} (h : UserBy me s) : OutUser (execDwwr o s) := by
  unfold execDwwr
  refine .after_issue h fun c hc => ?_
  refine .ite (.after_fenceAfter h fun _ h => .after_dwStatus h) ?_
  refine .after_dwForm h (fun _ h => .after_dwStatus h) fun _ _ _ _ h => ?_
  refine .ite (.after_dwMem h (fun _ h => .after_dwStatus h) fun _ _ _ h => .after_fenceAfter (.after_writePath h) fun _ h => .after_dwStatus h) ?_
  split
  · exact .after_raise h
  · rename_i e
    exact .after_dwStatus (UserBy.after_dwWrite h _ e)

/-! TRAP (R375). -/

theorem OutUser.after_execTrap {s : State} {o} (h : UserBy me s) : OutUser (execTrap o s) :=
  .after_issue h fun _ _ => .ite (.after_raise h) (.after_fenced h fun _ h => .after_done h)

/-! Halt groups (R223, R379). -/

theorem UserBy.after_hgForm {s : State} {i x go} (h : UserBy me s)
    (hgo : ∀ x y t, UserBy me t → UserBy me (go x y t)) : UserBy me (hgForm i s x go) :=
  .ite (.after_raise h) (.after_fenced h fun _ h => hgo _ _ _ h)

theorem OutUser.after_execHgtrig {s : State} {o} (h : UserBy me s) : OutUser (execHgtrig o s) :=
  .after_issue h fun _ _ => .after_hgForm h fun _ _ _ h => .after_haltGroup (.after_done h)

theorem OutUser.after_execHgrel {s : State} {o} (h : UserBy me s) : OutUser (execHgrel o s) :=
  .after_issue h fun _ _ => .after_hgForm h fun _ _ _ h => .after_haltGroup (.after_done h)

theorem UserBy.after_give {s : State} {i d v} (h : UserBy me s) : UserBy me (give i s d v) := .withCur h

theorem OutUser.after_execHgstat {s : State} {o} (h : UserBy me s) : OutUser (execHgstat o s) :=
  .after_issue h fun _ _ => .after_hgForm h fun _ _ _ h => .after_give h

/-! Reading. -/

theorem UserBy.after_sysRead {s : State} {a c n x sub} (h : UserBy me s) :
    UserBy me (sysRead s a c n x sub).2 := by
  unfold sysRead
  refine .ite_snd (.snd h) ?_
  refine .ite_snd ?_ (.snd h)
  split
  · exact .snd h
  · exact .frame h

theorem OutUser.after_execSysrd {s : State} {o} (h : UserBy me s) : OutUser (execSysrd o s) := by
  unfold execSysrd
  refine .after_issue h fun c hc => ?_
  dsimp only
  split
  · exact .after_raise h
  · exact .ite (.after_waitFor h) (.after_fenced h fun _ h => .after_give (.after_sysRead h))

/-! Writing. -/

theorem UserBy.after_hgmWrite {s : State} {x v} (h : UserBy me s) : UserBy me (hgmWrite s x v) :=
  .ite (.modCore h) (.ite (.modCore h) (.frame h))

@[simp] theorem winWrite_priv (c : Ctx) (n : Nat) (v : Word) : (winWrite c n v).priv = c.priv := rfl

theorem inl_user {s : State} {e : State ⊕ Ev} (h : UserBy me s) (he : e = .inl s) : ∀ t, e = .inl t → UserBy me t := by
  subst he
  exact fun | _, rfl => h

theorem ite_inl_user {p : Prop} {_ : Decidable p} {x y : State ⊕ Ev} (hx : ∀ t, x = .inl t → UserBy me t)
    (hy : ∀ t, y = .inl t → UserBy me t) : ∀ t, (if p then x else y) = .inl t → UserBy me t := by
  split <;> assumption

theorem UserBy.after_sysNow {s : State} {r} (h : UserBy me s) : ∀ y, sysNow s r = .inl y → UserBy me y := by
  have hi {e : Ev} : ∀ t, (.inr e : State ⊕ Ev) = .inl t → UserBy me t := fun _ e => nomatch e
  unfold sysNow
  dsimp only
  exact ite_inl_user (inl_user (.withCur h) rfl) <| ite_inl_user (inl_user (.frame h) rfl) <|
    ite_inl_user (inl_user (.frame h) rfl) <| ite_inl_user (inl_user (.frame h) rfl) <|
    ite_inl_user (inl_user (.modCore h) rfl) <| ite_inl_user (inl_user (.after_hgmWrite h) rfl) <|
    ite_inl_user (inl_user (.modCore h) rfl) <| ite_inl_user hi <| ite_inl_user hi <| ite_inl_user hi <|
    ite_inl_user hi <| ite_inl_user hi <| ite_inl_user hi <| ite_inl_user hi <| ite_inl_user hi <|
    ite_inl_user hi hi

theorem OutUser.after_execSyswr {s : State} {o} (h : UserBy me s) : OutUser (execSyswr o s) := by
  unfold execSyswr
  refine .after_issue h fun c hc => ?_
  dsimp only
  split
  · exact .after_raise h
  · split
    · exact .after_raise h
    · refine .after_fenced h fun _ h => ?_
      split
      · rename_i e2
        exact .after_done (UserBy.after_sysNow h _ e2)
      · exact .after_waitFor (.frame h)

/-! The writes that other agents perform. -/

theorem OutUser.after_sysPerform {s : State} {r busy go ask} (h : UserBy me s)
    (hgo : ∀ t, UserBy me t → UserBy me (go t)) (hask : ∀ t, UserBy me t → UserBy me (ask t)) :
    OutUser (sysPerform s r busy go ask) := by
  unfold sysPerform
  dsimp only
  split
  · exact .next (.frame h)
  · split
    · exact .after_answer (.after_takeFault (.frame h))
    · exact .ite (.next (hask _ h)) (.after_answer (.after_complete (hgo _ (.frame h))))

theorem UserBy.after_purge {s : State} {p} (h : UserBy me s) : UserBy me (purge s p) :=
  .frame (.foldl (.foldl (.foldl h fun _ _ h => .foldl h fun _ _ h => .after_wcbEvict h) fun _ _ h => .foldl h fun _ _ h => .after_l1Evict h)
    fun _ _ h => .foldl h fun _ _ h => .after_l2Evict h)

theorem UserBy.after_dspResize {s : State} {d n} (h : UserBy me s) : UserBy me (dspResize s d n) :=
  .frame (.foldl h fun _ _ h => .after_l2Evict h)

theorem OutUser.after_execDspcfgWrite {s : State} (h : UserBy me s) : OutUser (execDspcfgWrite s) := by
  unfold execDspcfgWrite
  split
  · exact .after_sysPerform h (fun _ h => .after_dspResize h) fun _ h => h
  · exact .next h

theorem OutUser.after_execSksizeWrite {s : State} (h : UserBy me s) : OutUser (execSksizeWrite s) := by
  unfold execSksizeWrite
  split
  · exact .after_sysPerform h (fun _ h => .frame h) fun _ h => h
  · exact .next h

theorem OutUser.after_execThbootWrite {s : State} (h : UserBy me s) : OutUser (execThbootWrite s) := by
  unfold execThbootWrite
  split
  · exact .after_sysPerform h (fun _ h => .ite h (.frame h)) fun _ h => h
  · exact .next h

theorem UserBy.after_zeroFrame {s : State} {pa} (h : UserBy me s) : UserBy me (zeroFrame s pa) :=
  .frame (.after_markDirty (.foldl h fun _ _ h => .after_physPut h))

theorem UserBy.after_fteSet {s : State} {pa v} (h : UserBy me s) : UserBy me (fteSet s pa v) :=
  .after_physPutNat (.ite (.frame (.ite (.after_zeroFrame (.ite (.after_purge h) h)) (.ite (.after_purge h) h)))
    (.ite (.after_zeroFrame (.ite (.after_purge h) h)) (.ite (.after_purge h) h)))

theorem UserBy.after_askPages {s : State} {x l} (h : UserBy me s) : UserBy me (askPages s x l) :=
  .foldl h fun _ _ h => .after_askOwn h

theorem OutUser.after_execFteWrite {s : State} (h : UserBy me s) : OutUser (execFteWrite s) := by
  unfold execFteWrite
  split
  · refine .after_sysPerform h (fun _ h => ?_) (fun _ h => .after_askPages h)
    split
    · exact .after_fteSet h
    · exact h
  · exact .next h

theorem OutUser.after_execKtWrite {s : State} (h : UserBy me s) : OutUser (execKtWrite s) := by
  unfold execKtWrite
  split
  · exact .after_sysPerform h (fun _ h => .frame h) fun _ h => h
  · exact .next h

theorem OutUser.after_execWsetWrite {s : State} (h : UserBy me s) : OutUser (execWsetWrite s) := by
  unfold execWsetWrite
  split
  · exact .after_sysPerform h (fun _ h => .modCore h) fun _ h => h
  · exact .next h

theorem OutUser.after_execWpWrite {s : State} (h : UserBy me s) : OutUser (execWpWrite s) := by
  unfold execWpWrite
  split
  · exact .after_sysPerform h (fun _ h => .frame h) fun _ h => h
  · exact .next h

theorem OutUser.after_execMrgnWrite {s : State} (h : UserBy me s) : OutUser (execMrgnWrite s) := by
  unfold execMrgnWrite
  split
  · exact .after_sysPerform h (fun _ h => .frame (.after_purge h)) fun _ h => h
  · exact .next h

theorem OutUser.after_execTraptWrite {s : State} (h : UserBy me s) : OutUser (execTraptWrite s) := by
  unfold execTraptWrite
  split
  · exact .after_sysPerform h (fun _ h => .modCore h) fun _ h => h
  · exact .next h

/-! World maps (R188, R190). -/

theorem UserBy.after_scrubCore {s : State} {a} (h : UserBy me s) : UserBy me (scrubCore s a) :=
  .modCore (.frame (.ite h (.after_wcbDrain h)))

theorem UserBy.after_scrubClu {s : State} {k} (h : UserBy me s) : UserBy me (scrubClu s k) :=
  .frame (.foldl (.foldl h fun _ _ h => .after_scrubCore h) fun _ _ h => .ite (.after_l1Evict h) (.after_l2Evict (.after_l1Evict h)))

theorem UserBy.after_worldScrub {s : State} {r} (h : UserBy me s) : UserBy me (worldScrub s r) :=
  .foldl h fun _ _ h => .ite (.after_scrubClu h) (.ite (.frame h) (.ite (.after_scrubCore h) h))

theorem OutUser.after_execWorldMapWrite {s : State} (h : UserBy me s) : OutUser (execWorldMapWrite s) := by
  unfold execWorldMapWrite
  split
  · rename_i r _
    refine .after_sysPerform h (fun s h => ?_) fun _ h => h
    have hw : UserBy me (worldScrub s r) := .after_worldScrub h
    exact .ite (.frame hw) (.ite (.frame hw) (.ite (.frame hw) (.frame hw)))
  · exact .next h

/-! MEXT, TLBSYNC (R373, R374). -/

theorem OutUser.after_execMext {s : State} {o} (h : UserBy me s) : OutUser (execMext o s) := by
  unfold execMext
  refine .after_issue h fun c hc => ?_
  refine .ite (.after_raise h) ?_
  split
  · exact .after_refuse h
  · exact .ite (.after_raise h) (.ite (.after_raise h) (.after_access h fun _ => .after_fenced h fun _ h => .after_done (.after_readPath h)))

theorem OutUser.after_execTlbsync {s : State} {o} (h : UserBy me s) : OutUser (execTlbsync o s) :=
  .after_issue h fun _ _ => .ite (.after_raise h) (.ite (.after_raise h) (.ite (.after_raise h) (.after_fenced h fun _ h => .after_done h)))

/-! The units of a set (R219). -/

theorem UserBy.after_stopBegin {s : State} {key v l} (h : UserBy me s) : UserBy me (stopBegin s key v l) :=
  .foldl (.foldl (.frame h) fun _ _ h => .modCore h) fun _ _ h => .frame h

/-! PREEMPT (R376). -/

theorem UserBy.after_areaAccess {s : State} {i va k bad go} (h : UserBy me s) (hgo : ∀ x, UserBy me (go x)) :
    UserBy me (areaAccess i s va k bad go) := by
  unfold areaAccess
  refine .ite (.after_raise h) ?_
  refine .ite (.after_raise h) ?_
  split
  · exact .after_faultCur h
  · exact .ite (.after_raise h) (.after_access h fun _ => hgo _)

theorem UserBy.after_areaFill {s : State} {va v} (h : UserBy me s) : UserBy me (areaFill s va v) := by
  unfold areaFill
  refine .foldl h fun _ _ h => ?_
  split
  · exact .after_homeWrite (.frame h)
  · exact h

theorem UserBy.after_preemptNew {s : State} {o i key set} (h : UserBy me s) :
    UserBy me (execPreempt.preemptNew o i s key set) := by
  unfold execPreempt.preemptNew
  refine .ite (.after_give h) ?_
  split
  · exact .after_refuse (.frame h)
  · exact .after_waitFor (.after_stopBegin (.frame h))

theorem OutUser.after_execPreempt {s : State} {o} (h : UserBy me s) : OutUser (execPreempt o s) := by
  unfold execPreempt
  refine .after_issue h fun c hc => ?_
  refine .after_areaAccess h fun _ => ?_
  split
  · exact h
  · refine .after_fenced h fun _ h => ?_
    split
    · refine .ite ?_ (.ite (.after_waitFor h) (.after_preemptNew h))
      refine .ite ?_ (.after_waitFor h)
      split
      · exact .after_refuse h
      · exact .after_give (.after_areaFill h)
    · exact .after_preemptNew h

/-! Acknowledgements (R219, R220). -/

theorem UserBy.after_ctxSave {s : State} {a k} (h : UserBy me s) : UserBy me (ctxSave s a k).1 :=
  have hw : UserBy me (withdraw (landAll s a k) a k) := .after_withdraw (.after_landAll h)
  .fst (.after_serve (.setCtx (.ite (.modCore hw) hw) (.of (hw.ctx a k))))

theorem UserBy.after_matrixSave {s : State} {v k} (h : UserBy me s) : UserBy me (matrixSave s v k).1 := by
  unfold matrixSave
  dsimp only
  have hs {p : Prop} {_ : Decidable p} : UserBy me (if p then (mxActive s k).getD s else s) := .ite (.getD h (.after_mxActive h)) h
  split
  · exact .ite_fst (.frame hs) (.after_leaseDrop (.frame hs))
  · exact .frame hs

theorem UserBy.after_copySave {s : State} {v k} (h : UserBy me s) : UserBy me (copySave s v k).1 :=
  .fst (.after_ceKick (.frame h))

theorem UserBy.after_gatherSave {s : State} {v d sl} (h : UserBy me s) : UserBy me (gatherSave s v d sl).1 :=
  .fst (.after_gatherKick (.frame h))

theorem UserBy.after_engSave {s : State} {v e} (h : UserBy me s) : UserBy me (engSave s v e).1 := by
  unfold engSave
  dsimp only
  split
  · exact .after_matrixSave (.frame h)
  · exact .after_copySave (.frame h)
  · exact .after_gatherSave (.frame h)
  · exact .ite_fst (.frame h) (.fst (.frame h))
  · exact .fst (.frame h)
  · exact .fst (.frame h)
  · exact .fst (.frame h)
  · exact .fst (.frame h)

theorem UserBy.after_unitStop {s : State} {v u} (h : UserBy me s) :
    ∀ y, unitStop s v u = some y → UserBy me y.1 := by
  unfold unitStop
  dsimp only
  split
  · split
    · exact fun | _, rfl => .fst h
    · split
      · exact fun | _, rfl => .fst h
      · split
        · exact fun _ e => nomatch e
        · exact fun | _, rfl => .fst (.after_ctxSave h)
  · split
    · exact fun _ e => nomatch e
    · exact fun | _, rfl => .after_engSave h
  · split
    · exact fun _ e => nomatch e
    · split
      · exact fun | _, rfl => .fst h
      · split
        · exact fun _ e => nomatch e
        · split
          · exact fun _ e => nomatch e
          · exact fun | _, rfl => .fst (.frame h)

theorem OutUser.after_execPreemptAck {s : State} (h : UserBy me s) : OutUser (execPreemptAck s) := by
  unfold execPreemptAck
  split
  · split
    · exact .next (.frame h)
    · split
      · exact .next h
      · rename_i e2
        exact .after_answer (.frame (.frame (UserBy.after_unitStop h _ e2)))
  · exact .next h

/-! RESTORE (R376, R222). -/

theorem UserBy.after_ctxRestore {s : State} {x} (h : UserBy me s) :
    ∀ y, ctxRestore s x = some y → UserBy me y := by
  unfold ctxRestore
  split
  · exact fun | _, rfl => h
  · rename_i a k _
    extract_lets c s₁ w s₂
    have h₁ : UserBy me s₁ := by
      dsimp only [s₁]
      split
      · exact .modCore h
      · exact h
    have h₂ : UserBy me s₂ := .setCtx h₁ (.of (h.ctx a k))
    split
    · exact fun | _, rfl => h
    · split
      · exact fun _ e => nomatch e
      · rintro _ ⟨⟩
        clear_value w s₂
        split
        · exact .ite h₂ (.after_pendOnce h₂)
        · exact h₂

theorem UserBy.after_ctxsRestore {s : State} {l} (h : UserBy me s) :
    ∀ y, ctxsRestore s l = some y → UserBy me y := by
  induction l generalizing s with
  | nil => exact fun | _, rfl => h
  | cons x t ih =>
    unfold ctxsRestore
    split
    · rename_i e
      exact ih (.after_ctxRestore h _ e)
    · exact fun _ e => nomatch e

theorem UserBy.after_leaseRestore {s : State} {x k} (h : UserBy me s) : UserBy me (leaseRestore s x k) := by
  unfold leaseRestore
  split
  · exact h
  · exact .after_pendOnce (.frame h)

theorem UserBy.after_cmdsRestore {s : State} {v} (h : UserBy me s) : UserBy me (cmdsRestore s v) :=
  .foldl (.foldl (.foldl (.foldl (.foldl (.foldl h fun _ _ h => .after_pendOnce (.frame h)) fun _ _ h => .frame h) fun _ _ h => .after_ceKick
    h) fun _ _ h => .frame h) fun _ _ h => .after_gatherKick h) fun _ _ h => .frame h

theorem UserBy.after_tileRestore {s : State} {q} (h : UserBy me s) : UserBy me (tileRestore s q) :=
  .after_pendOnce (.after_pendOnce (.frame h))

theorem UserBy.after_areaRestore {s : State} {v} (h : UserBy me s) :
    ∀ y, areaRestore s v = some y → UserBy me y := by
  unfold areaRestore
  split
  · exact fun _ e => nomatch e
  · split
    · exact fun _ e => nomatch e
    · rename_i e
      exact fun | _, rfl => .foldl (.foldl
        (.after_cmdsRestore (.foldl ((UserBy.after_ctxsRestore (.foldl h fun _ _ h => .frame h)) _ e) fun _ _ h => .foldl h
        fun _ _ h => .after_leaseRestore h)) fun _ _ h => .after_tileRestore h) fun _ _ h => .after_pendOnce (.modCore h)

theorem OutUser.after_execRestore {s : State} {o} (h : UserBy me s) : OutUser (execRestore o s) := by
  unfold execRestore
  refine .after_issue h fun c hc => ?_
  refine .after_areaAccess h fun _ => ?_
  refine .after_fenced h fun _ h => ?_
  split
  · exact .after_give h
  · refine .ite (.after_waitFor h) ?_
    split
    · exact .after_waitFor h
    · rename_i e1
      exact .after_give (.frame (UserBy.after_areaRestore h _ e1))

/-! MIGRATE (R136, R145, R377). -/

theorem UserBy.after_moveSub {s : State} {a b i} (h : UserBy me s) : UserBy me (moveSub s a b i) := by
  unfold moveSub
  split
  · exact h
  · extract_lets e s₁ s₂ p
    have h₁ : UserBy me s₁ := .frame (.after_setSub (.after_dropMirror (.after_dropNotify h)))
    have h₂ : UserBy me s₂ := .after_setSub h₁
    exact .ite (.after_setSub h₁) (.ite h₂ (.after_sendFull (.after_setPub h₂)))

theorem UserBy.after_movePub {s : State} {a b i} (h : UserBy me s) : UserBy me (movePub s a b i) := by
  unfold movePub
  split
  · exact h
  · exact .ite (.after_setPub (.after_freePubEntry h)) (.after_sendFull (.after_setSub (.after_setPub (.after_freePubEntry h))))

theorem UserBy.after_moveTask {s : State} {a k b} (h : UserBy me s) : UserBy me (moveTask s a k b) := by
  unfold moveTask
  extract_lets s₁ s₂ s₃ c s₄ s₅ s₆ w _
  have h₁ : UserBy me s₁ := .after_withdraw (.after_landAll h)
  have h₃ : UserBy me s₃ := .after_pushTo (.foldl h₁ fun _ _ h => .after_leaseDrop h)
  split
  · exact h₃
  · extract_lets s₇ s₈ mine s₉ s₁₀ s₁₁ s₁₂ s₁₃ s₁₄
    have h₄ : UserBy me s₄ := .after_claimWays h₃
    have h₅ : UserBy me s₅ := .frame (.modCore h₄)
    have h₆ : UserBy me s₆ := .ite (.modCore (.modCore h₅)) h₅
    have h₇ : UserBy me s₇ := .setCtx h₆ fun hb => by simpa [isRidge] using hb
    have h₁₀ : UserBy me s₁₀ := .modCore (.modCore (.setCtx h₇ .plain))
    have h₁₂ : UserBy me s₁₂ := .foldl (.foldl h₁₀ fun _ _ h => .after_moveSub h) fun _ _ h => .after_movePub h
    have h₁₃ : UserBy me s₁₃ := .after_pendOnce (.after_serve (.after_leaveWays h₁₂))
    have h₁₄ : UserBy me s₁₄ := by
      clear_value w s₁₃
      unfold s₁₄
      split
      · exact .ite h₁₃ (.after_pendOnce h₁₃)
      · exact h₁₃
    exact .after_acquire h₁₄

theorem OutUser.after_execMigrate {s : State} {o} (h : UserBy me s) : OutUser (execMigrate o s) := by
  unfold execMigrate
  refine .after_issue h fun c hc => ?_
  refine .ite (.after_raise h) ?_
  refine .ite (.after_raise h) ?_
  refine .after_fenced h fun _ h => ?_
  split
  · exact .after_give h
  · exact .ite (.after_give h) (.ite (.after_give h)
      (.ite (.after_give h) (.ite (.after_give h) (.ite (.after_waitFor h)
        (.ite (.ite (.after_give h) (.after_waitFor h)) (.after_moveTask (.after_give h)))))))

/-! CKPT (R231, R232, R234, R378). -/

theorem UserBy.after_flushAll {s : State} (h : UserBy me s) : UserBy me (flushAll s) :=
  .after_thatchFlush (.foldl (.foldl (.foldl h fun _ _ h => .ite h (.after_wcbDrain h)) fun _ _ h => .foldl h fun _ _ h => .ite h
    (.frame (.ite (.after_seqHome h) (.after_outWrite h)))) fun _ _ h => .foldl h fun _ _ h => .ite h (.frame (.after_physWrite h)))

theorem UserBy.after_dirtyClear {s : State} (h : UserBy me s) : UserBy me (dirtyClear s) := .frame h

theorem UserBy.after_ckptStream {s : State} {inc tier len area} (h : UserBy me s) :
    UserBy me (ckptStream s inc tier len area).1 := by
  unfold ckptStream
  refine .ite_fst (.frame (.after_flushAll h)) ?_
  have hd : UserBy me (dirtyClear ((flushAll s).freeBits 32).2) := .after_dirtyClear (.frame (.after_flushAll h))
  refine .with_tiers hd fun q hq => ?_
  obtain rfl | hq := SMap.mem_set hq
  · exact hd.cores
  · exact hd.tiers q hq

theorem UserBy.after_resendAcross {s : State} (h : UserBy me s) : UserBy me (resendAcross s) :=
  .foldl h fun _ _ h => .after_resendHeads h

/-- Restoring an image brings back its cluster cores, and leaves ridge cores where they are (R234). -/
theorem userCores_restored {s : State} {x : Snapshot} (hx : userCores x.cores) :
    userCores ((s.cores.filter fun (q : Nat × Core) => isRidge q.1).foldl
      (fun m q => SMap.set m q.1 (installCore s q.1 (SMap.getD x.cores q.1 Core.reset))) (x.cores.filter fun (q : Nat × Core) => !isRidge q.1)) := by
  refine List.foldlRecOn (motive := userCores) _ _ (fun q hq => hx q (List.mem_of_mem_filter hq)) fun m hm q hq => userCores_set hm ?_
  have hr : 2048 ≤ q.1 := by simpa [isRidge] using (List.mem_filter.mp hq).2
  exact fun _ hlt => absurd hlt (by omega)

theorem UserBy.after_installImage {s : State} {x} (h : UserBy me s) (hx : userCores x.cores) :
    UserBy me (installImage s x) :=
  have hs : UserBy me (thatchFlush s fun _ => true) := .after_thatchFlush h
  .after_resendAcross ⟨hs.1, userCores_restored hx, hs.tiers⟩

theorem UserBy.after_unquiesce {s : State} (h : UserBy me s) : ∀ y, unquiesce s = some y → UserBy me y := by
  unfold unquiesce
  split
  · exact fun | _, rfl => .frame h
  · intro y e
    obtain ⟨u, hu, rfl⟩ := Option.map_eq_some_iff.mp e
    exact .frame (.after_areaRestore h _ hu)

theorem UserBy.after_ckptTry {s : State} {mode tier len who} (h : UserBy me s) :
    UserBy me (ckptTry s mode tier len who).1 := by
  unfold ckptTry
  refine .ite_fst ?_ (.ite_fst ?_ (.ite_fst h (.ite_fst h ?_)))
  · refine .ite_fst (.frame (.after_stopBegin h)) ?_
    split
    · exact h
    · exact .ite_fst h (.after_ckptStream h)
  · split
    · exact h
    · rename_i e
      refine .ite_fst h ?_
      split
      · exact h
      · rename_i e'
        exact .after_unquiesce (.after_installImage h (h.tiers _ (SMap.mem_of_find? e))) _ e'
  · split
    · exact h
    · rename_i e
      exact .after_unquiesce h _ e

theorem OutUser.after_ckptForm {s : State} {i o} (h : UserBy me s) : OutUser (ckptForm i o s) := by
  unfold ckptForm
  refine .after_issue h fun c hc => ?_
  refine .ite (.after_raise h) ?_
  refine .after_access h fun _ => ?_
  refine .after_fenced h fun _ h => ?_
  refine .ite (.after_raise (.after_readPath (.after_taintAcquire h))) ?_
  refine .ite (.after_raise (.after_readPath (.after_taintAcquire h))) ?_
  split
  · rename_i e
    exact .after_waitFor (.of_fst e (.after_ckptTry (.after_readPath (.after_taintAcquire h))))
  · rename_i e
    exact .after_give (.of_fst e (.after_ckptTry (.after_readPath (.after_taintAcquire h))))

/-! Lines (R122, R124, R126). -/

theorem OutUser.after_execDirectoryRequest {s : State} (h : UserBy me s) : OutUser (execDirectoryRequest s) := by
  unfold execDirectoryRequest
  split
  · dsimp only
    split
    · exact .next (.frame h)
    · refine .ite (.next (.frame h)) ?_
      split
      · exact .ite (.after_answer (.getD h (.after_deviceAccess (.frame h)))) (.next (.frame h))
      · exact .after_answer (.after_dirServe (.frame h))
  · exact .next h

theorem OutUser.after_execWritebackApply {s : State} (h : UserBy me s) : OutUser (execWritebackApply s) := by
  unfold execWritebackApply
  split
  · refine .after_answer (me := me) ?_
    split
    · exact .after_l1Write (.frame h)
    · exact .after_l2Write (.frame h)
    · exact .after_l2Through (.after_physWrite (.after_sarkUpdate (.frame h)))
  · exact .next h

theorem UserBy.after_pushPage {s : State} {page p} (h : UserBy me s) : UserBy me (pushPage s page p) :=
  .after_pushCopy h

theorem UserBy.after_pageEvict {s : State} {page} (h : UserBy me s) : UserBy me (pageEvict s page) := by
  unfold pageEvict
  split
  · exact h
  · split
    · exact .frame h
    · exact .after_pushPage h
    · exact h

theorem OutUser.after_execEviction {s : State} (h : UserBy me s) : OutUser (execEviction s) := by
  unfold execEviction
  split
  · refine .after_answer (me := me) ?_
    split
    · exact .after_wcbEvict (.frame h)
    · exact .after_l1Evict (.frame h)
    · exact .after_l2Evict (.frame h)
    · exact .frame h
    · exact .after_thatchEvict (.frame h)
    · exact .after_pageEvict (.frame h)
  · exact .next h

/-! Pages between devices (R128 to R131). -/

theorem UserBy.after_pageRefused {s : State} {r k} (h : UserBy me s) : UserBy me (pageRefused s r k) := by
  unfold pageRefused
  refine .ite h ?_
  split
  · exact h
  · exact .ite h (.ite (.frame h) (.ite (.after_storeDropped h) h))

theorem UserBy.after_pageAccept {s : State} {r k} (h : UserBy me s) : UserBy me (pageAccept s r k) :=
  .ite h (.after_watch (.after_cacheLeaf h))

theorem UserBy.after_purgePage {s : State} {page} (h : UserBy me s) : UserBy me (purgePage s page) := by
  unfold purgePage
  split
  · exact .after_purge h
  · exact h

theorem OutUser.after_execPageCopyRequest {s : State} (h : UserBy me s) : OutUser (execPageCopyRequest s) := by
  unfold execPageCopyRequest
  split
  · refine .ite (.ite (.next (.frame h))
      (.ite (.after_answer (.after_pageRefused (.frame h)))
      (.after_answer (.ite (.after_pendOnce (.frame (.after_pageAccept (.frame h)))) (.frame (.after_pageAccept (.frame h))))))) ?_
    refine .ite ?_ (.ite (.next (.frame h)) (.next (.ite (.after_pendOnce (.frame h)) (.frame h))))
    split
    · exact .ite (.next (.frame h)) (.next (.frame (.after_pushPage (.frame h))))
    · exact .next (.frame h)
  · exact .next h

theorem UserBy.after_ownServe {s : State} {r queue} (h : UserBy me s) : UserBy me (ownServe s r queue) :=
  .after_pendOnce (.frame (.ite h (.after_purgePage (.after_pageAccept h))))

theorem UserBy.after_ownLeaves {s : State} {page} (h : UserBy me s) : UserBy me (ownLeaves s page) := by
  unfold ownLeaves
  split
  · exact .frame h
  · exact .ite h (.after_leaves h)

theorem OutUser.after_execOwnershipRequest {s : State} (h : UserBy me s) : OutUser (execOwnershipRequest s) := by
  unfold execOwnershipRequest
  split
  · exact .ite (.ite (.next (.frame h)) (.ite (.after_answer (.after_ownLeaves h)) (.next (.after_pendOnce (.frame h)))))
      (.ite (.after_answer (.after_pageRefused (.frame h))) (.ite (.next (.frame h)) (.after_answer (.after_ownServe (.frame h)))))
  · exact .next h

theorem OutUser.after_execPageInvalidate {s : State} (h : UserBy me s) : OutUser (execPageInvalidate s) := by
  unfold execPageInvalidate
  split
  · refine .ite (.after_answer (.after_purgePage (.frame h))) ?_
    split
    · exact .next (.frame h)
    · exact .next (.frame (.after_pushPage (.frame h)))
  · exact .next h

theorem UserBy.after_ownStore {s : State} {ia n v} (h : UserBy me s) : UserBy me (ownStore s ia n v) := by
  unfold ownStore
  split
  · exact h
  · extract_lets pa line dat m up late s₁
    have h₁ : UserBy me s₁ := .after_l2Through (.after_physWrite h)
    have hc : ∀ f : Core → Core, (∀ o, (f o).ctxs = o.ctxs) → userCores (s₁.cores.mapKV fun _ o => f o) := fun f e =>
      userCores_mapKV h₁.cores fun _ => e
    exact ⟨h₁.1, hc (fun o => { o with wcb := (o.wcb.map late).filter fun w => w.mask != 0 }) fun _ => rfl, h₁.tiers⟩

theorem UserBy.after_nextOwner {s : State} {page} (h : UserBy me s) : UserBy me (nextOwner s page) := by
  unfold nextOwner
  split
  · exact h
  · exact .after_ownServe h

theorem OutUser.after_execOwnershipGrant {s : State} (h : UserBy me s) : OutUser (execOwnershipGrant s) := by
  unfold execOwnershipGrant
  split
  · refine .ite ?_ ?_
    · dsimp only
      split
      · exact .next (.frame h)
      · exact .ite (.after_answer (.after_nextOwner (.after_retryHeld (.foldl (.frame h) fun _ _ h => .after_ownStore h))))
          (.after_answer (.after_nextOwner (.frame h)))
    · split
      · exact .next (.frame h)
      · exact .ite (.next (.frame h)) (.next (.frame h))
  · exact .next h

/-! The migration of a frame (R132). -/

theorem UserBy.after_moveFrame {s : State} {old new n} (h : UserBy me s) :
    UserBy me (moveFrame s old new n) :=
  .frame (.foldl (.frame (.after_thatchFlush (.after_purge h))) fun _ _ h => .after_physPutNat h)

theorem UserBy.after_moveLeaf {s : State} {at_ e new} (h : UserBy me s) : UserBy me (moveLeaf s at_ e new) :=
  .after_markDirty (.foldl (.after_purge h) fun _ _ h => .after_physPutNat h)

theorem OutUser.after_execFrameMigration {s : State} (h : UserBy me s) : OutUser (execFrameMigration s) := by
  unfold execFrameMigration
  split
  · dsimp only
    split
    · exact .next (.frame h)
    · exact .ite (.next (.frame h)) (.ite (.after_answer (.after_retryHeld (.frame (.after_moveLeaf (.after_moveFrame (.frame h))))))
        (.ite (.next (.frame h)) (.next (.frame h))))
  · exact .next h

theorem OutUser.after_execAtomicMoved {s : State} (h : UserBy me s) : OutUser (execAtomicMoved s) := by
  unfold execAtomicMoved
  split
  · split
    · exact .ite (.next h) (.next (.modCtx h))
    · exact .next (.frame h)
  · exact .next h

/-! No answer (R411, R414). -/

theorem UserBy.after_unackedRecord {s : State} {u ia} (h : UserBy me s) : UserBy me (unackedRecord s u ia) :=
  .after_record h

theorem UserBy.after_unackedDrop {s : State} {u} (h : UserBy me s) : UserBy me (unackedDrop s u) := by
  unfold unackedDrop
  refine .ite (.after_unackedRecord (.frame h)) ?_
  split
  · exact .frame h
  · exact .foldl (.frame h) fun _ _ h => .after_unackedRecord h

theorem OutUser.after_execRemoteTimeout {s : State} (h : UserBy me s) : OutUser (execRemoteTimeout s) := by
  unfold execRemoteTimeout
  split
  · split
    · refine .ite (.after_answer (.after_unackedDrop h)) ?_
      split
      · exact .ite (.after_answer (.after_takeFault h)) (.next h)
      · exact .next h
    · exact .ite (.next (.frame h)) (.ite (.next h) (.after_answer (.after_takeFault (.frame h))))
    · exact .next (.frame h)
  · exact .next h

theorem OutUser.after_execApertureWriteTimeout {s : State} (h : UserBy me s) : OutUser (execApertureWriteTimeout s) := by
  unfold execApertureWriteTimeout
  split
  · split
    · exact .next (.frame h)
    · exact .ite (.after_answer (.after_unackedDrop h)) (.next h)
  · exact .next h

/-! Power, in sixteenths of a watt (R200). -/

theorem UserBy.after_stallSome {s : State} {l} (h : UserBy me s) : UserBy me (stallSome s l).2 := by
  induction l generalizing s with
  | nil => exact h
  | cons u t ih => exact ih (.frame h)

theorem OutUser.after_execPowerInterval {s : State} (h : UserBy me s) : OutUser (execPowerInterval s) := by
  unfold execPowerInterval
  split
  · exact .ite (.next h) (.next (.frame (.after_stallSome (.frame h))))
  · exact .next h

/-! Self-test (R230). -/

theorem OutUser.after_execArraySelfTest {s : State} (h : UserBy me s) : OutUser (execArraySelfTest s) := by
  unfold execArraySelfTest
  split
  · exact .ite (.next (.frame h)) (.next (.foldl (.frame h) fun _ _ h => .frame h))
  · exact .next h

/-! Errors (R227 to R229). -/

theorem OutUser.after_execEccCorrectable {s : State} (h : UserBy me s) : OutUser (execEccCorrectable s) := by
  unfold execEccCorrectable
  split
  · exact .next (.ite (.frame h) (.frame h))
  · exact .next h

theorem OutUser.after_execPoisonMark {s : State} (h : UserBy me s) : OutUser (execPoisonMark s) := by
  unfold execPoisonMark
  split
  · refine .next (a := me) ?_
    dsimp only
    split <;> exact .frame h
  · exact .next h

theorem UserBy.after_dieStop {s : State} {d} (h : UserBy me s) : UserBy me (dieStop s d) :=
  .ite h (.frame h)

theorem OutUser.after_execDieStop {s : State} (h : UserBy me s) : OutUser (execDieStop s) := by
  unfold execDieStop
  split
  · exact .next (.ite (.after_dieStop (.frame h)) (.frame h))
  · exact .next h

/-! Temperature and links (R414, R416). -/

theorem UserBy.after_thermalStop {s : State} {d t} (h : UserBy me s) : UserBy me (thermalStop s d t) :=
  .frame (.after_dieStop h)

theorem OutUser.after_execThermalWarning {s : State} (h : UserBy me s) : OutUser (execThermalWarning s) := by
  unfold execThermalWarning
  split
  · exact .next (.ite (.frame h) (.ite (.after_thermalStop (.frame h)) (.frame h)))
  · exact .next h

theorem OutUser.after_execThermalStop {s : State} (h : UserBy me s) : OutUser (execThermalStop s) := by
  unfold execThermalStop
  split
  · exact .next (.ite (.after_thermalStop (.frame h)) (.frame h))
  · exact .next h

theorem OutUser.after_execThermalWarningClear {s : State} (h : UserBy me s) : OutUser (execThermalWarningClear s) := by
  unfold execThermalWarningClear
  split
  · exact .next (.ite (.frame h) (.frame h))
  · exact .next h

theorem OutUser.after_execTwillLaneFail {s : State} (h : UserBy me s) : OutUser (execTwillLaneFail s) := by
  unfold execTwillLaneFail
  split
  · exact .next (.frame h)
  · exact .next h

/-! Host messages (R408). -/

theorem OutUser.after_execHostMessageArrive {s : State} (h : UserBy me s) : OutUser (execHostMessageArrive s) := by
  unfold execHostMessageArrive
  split
  · exact .ite (.next (.frame h)) (.ite (.next (.frame h)) (.ite (.next h) (.next (.after_hostSend (.frame h)))))
  · exact .next h

/-! Serving a command (R409, R410). -/

theorem OutUser.after_hostServe {s : State} {c minLen here go} (h : UserBy me s)
    (hgo : ∀ t, UserBy me t → ServedUser me (go t)) : OutUser (hostServe s c minLen here go) := by
  have hr : ServedUser me (if c.len < minLen || c.rsv ≠ 0 then .done 1 0 s else if !here then .done 2 0 s else go s) :=
    .ite (.done h) (.ite (.done h) (hgo _ h))
  unfold hostServe
  refine .ite (.next h) ?_
  dsimp only
  split
  · rename_i e
    exact .next (hr.2 _ e)
  · rename_i e
    exact .after_answer (.after_hostReply (.frame (hr.1 _ _ _ e)))

theorem OutUser.after_execHostLaunch {s : State} (h : UserBy me s) : OutUser (execHostLaunch s) := by
  unfold execHostLaunch
  split
  · refine .after_hostServe h fun _ h => ?_
    refine .ite (.done h) ?_
    refine .ite (.done h) ?_
    split
    · exact .done h
    · exact .ite (.wait h) (.done (.after_launchQueue h))
  · exact .next h

/-! MAP (R197, R198, R409). -/

theorem UserBy.after_pteWrite {s : State} {at_ e} (h : UserBy me s) : UserBy me (pteWrite s at_ e) :=
  .after_physWrite (.after_purge h)

theorem UserBy.after_slotMake {s : State} {e ia level n} (h : UserBy me s) :
    ∀ y, slotMake s e ia level n = some y → UserBy me y.2 := by
  induction n generalizing s with
  | zero => exact fun _ e => nomatch e
  | succ n ih =>
    -- the recursion as the compiler states it: the equation lemmas would have the kernel run `freeFrame`
    rw [slotMake_eq_rec, brecOn_go_succ_snd]
    simp only [slotMake_eq_go] at ih
    obtain ⟨below, hb⟩ : ∃ b, b = Nat.brecOn.go (motive := fun _ => State → Option (Nat × State)) n (slotMake._f e ia level) := ⟨_, rfl⟩
    rw [← hb] at ih ⊢
    delta slotMake._f
    obtain ⟨ff, hf⟩ : ∃ f, f = freeFrame := ⟨_, rfl⟩
    rw [← hf]
    dsimp only
    split
    · exact fun | _, rfl => h
    · exact fun _ e => nomatch e
    · split
      · exact fun _ e => nomatch e
      · exact ih (.after_pteWrite h)

theorem UserBy.after_mapFrames {s : State} {e level owner} (h : UserBy me s) :
    UserBy me (mapFrames s e level owner) :=
  .foldl h fun _ _ h => .after_fteSet h

theorem OutUser.after_execHostMap {s : State} (h : UserBy me s) : OutUser (execHostMap s) := by
  unfold execHostMap
  split
  · refine .after_hostServe h fun _ h => ?_
    refine .ite (.done h) ?_
    split
    · exact .done h
    · refine .ite ?_ ?_
      · split
        · exact .done (.frame (.after_pteWrite h))
        · exact .done h
      · refine .ite (.wait (.after_askPages h)) ?_
        split
        · exact .done h
        · rename_i e2
          exact .done (.frame (.after_mapFrames (.after_pteWrite (UserBy.after_slotMake h _ e2))))
  · exact .next h

theorem OutUser.after_execHostKinst {s : State} (h : UserBy me s) : OutUser (execHostKinst s) := by
  unfold execHostKinst
  split
  · exact .after_hostServe h fun _ h => .ite (.done h) (.ite (.done h) (.ite (.done h) (.ite (.done h) (.done (.frame h)))))
  · exact .next h

theorem OutUser.after_execHostCkpt {s : State} (h : UserBy me s) : OutUser (execHostCkpt s) := by
  unfold execHostCkpt
  split
  · refine .after_hostServe h fun _ h => ?_
    refine .ite (.done h) ?_
    refine .ite (.done h) ?_
    refine .ite (.done h) ?_
    split
    · rename_i e1
      exact .wait (.of_fst e1 (.after_ckptTry h))
    · rename_i e1
      exact .done (.of_fst e1 (.after_ckptTry h))
  · exact .next h

/-! Attestation (R205, R206). -/

theorem OutUser.after_execHostAttest {s : State} (h : UserBy me s) : OutUser (execHostAttest s) := by
  unfold execHostAttest
  split
  · exact .after_hostServe h fun _ h => .ite (.done h) (.ite (.done h) (.done (.frame h)))
  · exact .next h

theorem OutUser.after_hostHalt {s : State} {c on} (h : UserBy me s) : OutUser (hostHalt s c on) :=
  .after_hostServe h fun _ h => .ite (.done h) (.done (.after_haltGroup h))

theorem OutUser.after_execHostHgtrig {s : State} (h : UserBy me s) : OutUser (execHostHgtrig s) := by
  unfold execHostHgtrig
  split
  · exact .after_hostHalt h
  · exact .next h

theorem OutUser.after_execHostHgrel {s : State} (h : UserBy me s) : OutUser (execHostHgrel s) := by
  unfold execHostHgrel
  split
  · exact .after_hostHalt h
  · exact .next h

/-! Reset, boot and supplies (R202, R203, R412, R413, R415). -/

theorem UserBy.after_heldDie {s t : State} {d} (h : UserBy me t) : UserBy me (heldDie s t d) :=
  .ite h (.frame h)

theorem UserBy.after_heldReset {s : State} {m} (h : UserBy me s) : UserBy 0 (heldReset s m) :=
  .foldl (.frame (.with_tiers ⟨rfl, reset_userCores⟩ h.tiers)) fun _ _ h => .after_heldDie h

theorem OutUser.after_execMgmtCtrlHold {s : State} (h : UserBy me s) : OutUser (execMgmtCtrlHold s) := by
  unfold execMgmtCtrlHold
  split
  · split
    · exact .next (.after_heldReset h)
    · exact .next (a := me) (.frame h)
  · exact .next h

theorem OutUser.after_execMainPowerLoss {s : State} (h : UserBy me s) : OutUser (execMainPowerLoss s) := by
  unfold execMainPowerLoss
  split
  · exact .next (.after_heldReset h)
  · exact .next h

theorem OutUser.after_execMainInputReturn {s : State} (h : UserBy me s) : OutUser (execMainInputReturn s) := by
  unfold execMainInputReturn
  split
  · exact .next (.frame h)
  · exact .next h

theorem OutUser.after_execAuxPowerUp {s : State} (h : UserBy me s) : OutUser (execAuxPowerUp s) := by
  have hd : UserBy me { s with dies := [] } := .frame h
  unfold execAuxPowerUp
  split
  · exact .next (.after_heldReset hd)
  · exact .next h

theorem UserBy.after_bootRom {s : State} (h : UserBy me s) : UserBy me (bootRom s) := by
  unfold bootRom
  extract_lets _ _ _ _ _ _ _ s₁ _ _ _ s₃
  have h₁ : UserBy me s₁ := .ite (.frame h) h
  have h₃ : UserBy me s₃ := .foldl (.frame h₁) fun _ _ h => .frame h
  exact .ite (.frame h₁) (.foldl h₃ fun _ _ h => .setCtx h fun hb => absurd hb (by omega))

theorem UserBy.after_release0 {s : State} (h : UserBy me s) : UserBy me (release0 s) :=
  .ite h (.frame (.after_hostRelease (.frame h)))

theorem OutUser.after_execMgmtCtrlRelease {s : State} (h : UserBy me s) : OutUser (execMgmtCtrlRelease s) := by
  unfold execMgmtCtrlRelease
  split
  · exact .ite (.after_answer (.after_release0 (.frame h))) (.ite (.after_answer (.after_bootRom (.frame h))) (.next h))
  · exact .next h

theorem OutUser.after_execMgmtWrite {s : State} (h : UserBy me s) : OutUser (execMgmtWrite s) := by
  have ht : UserBy me s.took := .frame h
  unfold execMgmtWrite
  split
  · exact .ite (.next ht) (.ite
      (.ite (.after_answer (.after_release0 ht)) (.ite (.next (.after_heldReset ht)) (.next ht)))
      (.ite (.next ht) (.ite (.next (ht.frame)) (.ite (.next (ht.frame)) (.ite (.next (ht.frame)) (.next ht))))))
  · exact .next h

/-! What happens outside (R203, R407, R411, R413, R414). -/

theorem UserBy.after_outsideStep {s : State} {o} (h : UserBy me s) : UserBy me (outsideStep s o) := by
  unfold outsideStep
  split
  · exact .ite (.after_hostBack h) (.frame h)
  · exact .ite (.after_pathBack h) (.ite h (.frame h))
  · exact .ite (.frame h) h
  · exact .ite (.frame h) h
  · exact .ite (.frame h) h

/-! Register forms (R305, R306). -/

@[simp] theorem vecOut_priv (i : Instr) (c : Ctx) (d : Reg) (r : Fl Line) : (vecOut i c d r).priv = c.priv := by simp [vecOut]

theorem OutUser.after_execLanes {s : State} {i d form f} (h : UserBy me s) : OutUser (execLanes i s d form f) :=
  .after_issueReg h fun _ hc => .of hc

/-! OPC 0x22 (R311). -/

theorem OutUser.after_execVcmp {s : State} {i d form f} (h : UserBy me s) : OutUser (execVcmp i s d form f) :=
  .after_issueReg h fun _ hc => .of hc

/-! Vector memory (R315 to R318). -/

theorem UserBy.after_refuseLane {s : State} {i va l e} (h : UserBy me s) :
    UserBy me (refuseLane i s va l e) := by
  unfold refuseLane
  split
  · exact .after_faultCur h
  · exact .after_pageFault h
  · exact .after_refuse h

theorem UserBy.after_laneFault {s : State} {i va l code} (h : UserBy me s) :
    UserBy me (laneFault i s va l code) :=
  .after_faultCur h

theorem UserBy.after_writeMask {s : State} {x p on v} (h : UserBy me s) : UserBy me (writeMask s x p on v) := by
  unfold writeMask
  refine .ite (.after_writePath h) ?_
  split
  · refine .ite (.after_storeDropped (.after_accepted h)) ?_
    refine .ite (.foldl (.after_accepted h) fun _ _ h => .after_holdOwn h) ?_
    split
    · exact .frame (.after_physWrite (.after_accepted h))
    · refine .ite (.after_l2Write (.after_dirClear (.after_accepted h))) ?_
      dsimp only
      split
      · exact .frame (.after_dirServe (.after_accepted h))
      · exact .after_physWrite (.after_dirServe (.after_accepted h))
    · exact .ite (.after_outWrite (.after_accepted h)) (.after_wcbStore (.after_accepted h))
  · exact .foldl h fun _ _ h => .after_spWrite h
  · exact .foldl h fun _ _ h => .after_dsWrite h
  · exact .foldl h fun _ _ h => .after_writePath h
  · exact .foldl h fun _ _ h => .after_writePath h
  · exact .foldl h fun _ _ h => .after_writePath h

theorem UserBy.after_groupForm {s : State} {i o k go} (h : UserBy me s)
    (hgo : ∀ x t, UserBy me t → UserBy me (go x t)) : UserBy me (groupForm i o s k go) := by
  unfold groupForm
  dsimp only
  split
  · exact .after_laneFault h
  · exact .after_raise h
  · exact .after_done (.after_postInc h)
  · split
    · exact .after_refuseLane h
    · split
      · exact .after_holdOn h
      · exact hgo _ _ (.after_postInc (.after_taintAcquire (.ite (.after_release h) h)))

theorem OutUser.after_execVld {s : State} {o} (h : UserBy me s) : OutUser (execVld o s) :=
  .after_issue h fun _ _ => .after_groupForm h fun _ _ h => .after_done (.after_land (.after_readPath h))

theorem OutUser.after_execVst {s : State} {o} (h : UserBy me s) : OutUser (execVst o s) :=
  .after_issue h fun _ _ => .after_groupForm h fun _ _ h => .after_done (.after_writeMask h)

theorem UserBy.after_askPage {s : State} {x page} (h : UserBy me s) : UserBy me (askPage s x page) := by
  unfold askPage
  split
  · exact .ite (.frame h) h
  · exact .after_askOwn h

theorem UserBy.after_checkLanes {s : State} {i k addr l} (h : UserBy me s) :
    ∀ y, checkLanes i s k addr l = .inl y → UserBy me y := by
  induction l with
  | nil => exact fun _ e => nomatch e
  | cons l t ih =>
    unfold checkLanes
    split
    · exact fun | _, rfl => .after_laneFault h
    · split
      · exact fun | _, rfl => .after_refuseLane h
      · split
        · exact fun | _, rfl => .after_refuseLane h
        · dsimp only
          split
          · exact fun | _, rfl => .after_refuseLane h
          · split
            · rename_i e
              exact fun | _, rfl => ih _ e
            · split
              · exact fun | _, rfl => .after_holdOn h
              · exact fun _ e => nomatch e

theorem UserBy.after_lanePaths {s : State} {i k addr on} (h : UserBy me s) :
    ∀ y, lanePaths i s k addr on = .inl y → UserBy me y := by
  unfold lanePaths
  split
  · rename_i e
    exact fun | _, rfl => UserBy.after_checkLanes h _ e
  · split
    · split
      · exact fun | _, rfl => .after_waitFor (.after_askPage h)
      · exact fun _ e => nomatch e
    · exact fun _ e => nomatch e

theorem UserBy.after_laneLoad {s : State} {f rm a} (h : UserBy me s) : UserBy me (laneLoad s f rm a).2 := by
  unfold laneLoad
  refine .snd ?_
  split
  · exact .snd (.after_readPath h)
  · exact .after_readPath (.after_readPath h)

theorem UserBy.after_elemGroup {s : State} {i base off pi go} (h : UserBy me s)
    (hgo : ∀ x y z, UserBy me (go x y z)) : UserBy me (elemGroup i s base off pi go) := by
  unfold elemGroup
  dsimp only
  split
  · exact .after_raise h
  · refine .ite (.after_raise h) ?_
    refine .ite (hgo _ _ _) ?_
    split
    · exact .after_raise h
    · split
      · exact .after_raise h
      · exact hgo _ _ _

theorem OutUser.after_execVlde {s : State} {o} (h : UserBy me s) : OutUser (execVlde o s) := by
  unfold execVlde
  dsimp only
  refine .after_issue h fun c hc => .after_elemGroup h fun f _ _ => ?_
  split
  · rename_i e
    exact UserBy.after_lanePaths h _ e
  · have hl (r : Line × Word × State) (x) (h : UserBy me r.2.2) : UserBy me (laneLoad r.2.2 f o.rm x).2 := .after_laneLoad h
    exact .after_done (.after_land (.after_postInc (.foldlBy (fun r : Line × Word × State => r.2.2) (.after_taintAcquire h) hl)))

theorem OutUser.after_execVste {s : State} {o} (h : UserBy me s) : OutUser (execVste o s) := by
  unfold execVste
  refine .after_issue h fun c hc => ?_
  refine .after_elemGroup h fun _ _ _ => ?_
  split
  · rename_i e
    exact UserBy.after_lanePaths h _ e
  · exact .after_done (.withCur (.after_postInc (.foldlBy Prod.snd (.snd (.after_taintAcquire h)) fun _ _ h => .snd (.after_storeElem h))))

theorem OutUser.after_execVldx {s : State} {o} (h : UserBy me s) : OutUser (execVldx o s) := by
  unfold execVldx
  refine .after_issue h fun c hc => ?_
  split
  · rename_i e
    exact UserBy.after_lanePaths h _ e
  · exact .after_done (.after_land (.foldlBy Prod.snd (.after_taintAcquire h) fun _ _ h => .snd (.after_readPath h)))

theorem OutUser.after_execVstx {s : State} {o} (h : UserBy me s) : OutUser (execVstx o s) := by
  unfold execVstx
  refine .after_issue h fun c hc => ?_
  split
  · rename_i e
    exact UserBy.after_lanePaths h _ e
  · exact .after_done (.foldl (.after_taintAcquire h) fun _ _ h => .after_writePath h)

/-! Slices of the lanes (R319, R76). -/

theorem OutUser.after_execSlice {s : State} {i o go} (h : UserBy me s) (hgo : ∀ c, UserCtx me c → ∀ on, UserBy me (go c on)) :
    OutUser (execSlice i o s go) := by
  unfold execSlice
  refine .after_issue h fun c hc => ?_
  dsimp only
  split
  · exact .after_laneFault h
  · exact .ite (.after_raise h) (hgo _ hc _)

@[simp] theorem slicePost_priv (c : Ctx) (o : OVMem) (on : List Nat) (t : Ctx) : (slicePost c o on t).priv = t.priv := by
  unfold slicePost
  split <;> simp

theorem OutUser.after_execVlsld {s : State} {o} (h : UserBy me s) : OutUser (execVlsld o s) :=
  .after_execSlice h fun _ hc _ => .setCur h (.of hc)

theorem OutUser.after_execVlsst {s : State} {o} (h : UserBy me s) : OutUser (execVlsst o s) :=
  .after_execSlice h fun _ hc _ => .setCur (.modCore h) (.of hc)

/-! OPC 0x30 (R320 to R323). -/

theorem OutUser.after_execVsp {s : State} {o} (h : UserBy me s) : OutUser (execVsp o s) := by
  unfold execVsp
  refine .after_issue h fun c hc => ?_
  refine .ite (.after_done h) ?_
  split
  · exact .after_faultCur h
  · dsimp only
    split
    · exact .after_refuse h
    · exact .after_refuse h
    · exact .after_refuse h
    · split
      · exact .after_holdOn h
      · exact .withCur (.after_writeMask (.after_readPath (.after_readPath (.after_readPath h)))) (by intro h; split_ifs <;> simpa using h)

theorem OutUser.after_execVtopk {s : State} {o} (h : UserBy me s) : OutUser (execVtopk o s) := by
  unfold execVtopk
  refine .after_issue h fun c hc => ?_
  refine .ite (.after_raise h) ?_
  refine .ite (.after_raise h) ?_
  refine .ite (.after_raise h) ?_
  refine .ite (.after_raise h) ?_
  refine .ite (.after_raise h) ?_
  refine .ite (.after_raise h) ?_
  split
  · exact .after_faultCur h
  · exact .ite (.after_waitFor h) (.ite (.after_waitPort h) (.withCur (.foldl h fun _ _ h => .after_spWrite h)))

theorem OutUser.after_execYield {s : State} (h : UserBy me s) : OutUser (execYield s) :=
  .after_issue h fun c hc => .setCur h (.of hc)

theorem OutUser.after_execRdsr {s : State} {o} (h : UserBy me s) : OutUser (execRdsr o s) :=
  .after_issue h fun c hc => .ite (.after_waitFor h) (.setCur h (.of hc (by
    intro hp; simp only [Ctx.past_priv, Ctx.wG_priv]; split_ifs <;> exact hp)))

/-! The meaning of every row of the opcode table. -/

theorem OutUser.after_exec {s : State} {i} (h : UserBy me s) : OutUser (exec i s) :=
  match i with
  | .add _ | .sub _ | .and _ | .or _ | .xor _ | .andn _ | .shl _ | .shr _ | .sra _ | .min _ | .max _ | .clz _ | .ctz _ | .popc _ | .mov _ |
    .addi _ | .addiLit _ | .tags _ | .tagg _ | .mul _ | .mulh _ | .div _ | .rem _ | .bfxu _ | .bfxs _ | .bfi _ | .shli _ | .shri _ | .srai
      _ |
    .rori _ | .movi _ | .moviLit _ | .cmpeq _ | .cmpne _ | .cmplt _ | .cmple _ | .sel _ | .fadd _ | .fsub _ | .fmul _ | .fma _ | .fmin _ |
    .fmax _ | .fneg _ | .fcmpeq _ | .fcmplt _ | .fcmple _ | .cvt _ | .vred _ => by unfold exec; exact .after_execAlu h
  | .adda _ | .suba _ => by unfold exec; exact .after_execAddr h
  | .beq _ | .bne _ | .blt _ | .bge _ | .bltu _ | .bgeu _ => by unfold exec; exact .after_execBranch h
  | .jmp _ | .call _ => by unfold exec; exact .after_issue h fun c hc => .setCur h (.after_jumpTo (.of hc))
  | .yield => .after_execYield h
  | .jmpi _ | .ret => by unfold exec; exact .after_issue h fun c hc => .after_jumpReg h hc
  | .calli _ => by unfold exec; exact .after_issue h fun c hc => .after_jumpReg h (.of hc)
  | .enter _ => .after_execEnter h
  | .leave => .after_execLeave h
  | .rdsr _ => .after_execRdsr h
  | .probe _ | .nop | .vins _ | .vext _ => by unfold exec; exact .after_issueReg h fun _ hc => .of hc
  | .brk _ => .after_execBrk h
  | .ld _ => .after_execLd h
  | .st _ => .after_execSt h
  | .lde _ => .after_execLde h
  | .ste _ => .after_execSte h
  | .ldAcq _ => .after_execLdAcq h
  | .ldc _ => .after_execLdc h
  | .lds _ => .after_execLds h
  | .stRel _ => .after_execStRel h
  | .amo _ => .after_execAmo h
  | .fence _ => .after_execFence h
  | .spresize _ => .after_execSpresize h
  | .flushs _ => by unfold exec; exact .after_execRange h fun _ h _ _ => .after_pushTo h
  | .invs _ => .after_execInvs h
  | .pref _ => .after_execPref h
  | .send _ | .tsend _ => by unfold exec; exact .after_execSendAs h
  | .recv _ => .after_execRecv h
  | .rcancel _ => .after_execRcancel h
  | .chwr _ => .after_execChwr h
  | .chmsk _ => .after_execChmsk h
  | .chrd _ => .after_execChrd h
  | .spawn _ => .after_execSpawn h
  | .join => .after_execJoin h
  | .halt => by unfold exec; exact .after_issue h fun c hc => .after_haltRun h
  | .haltr _ => .after_execHaltr h
  | .freg _ => .after_execFreg h
  | .fres _ => .after_execFres h
  | .fcancel _ => .after_execFcancel h
  | .freset _ => .after_execFreset h
  | .fwait _ => .after_execFwait h
  | .barcfg _ => .after_execBarcfg h
  | .bar _ => .after_execBar h
  | .bararv _ => .after_execBararv h
  | .bardrop _ => .after_execBardrop h
  | .barwt _ => .after_execBarwt h
  | .barrd _ => .after_execBarrd h
  | .qpush _ => .after_execQpush h
  | .qpop _ => .after_execQpop h
  | .qdwr _ => .after_execQdwr h
  | .qdrd _ => .after_execQdrd h
  | .permitFree _ => .after_execPermitFree h
  | .permitStore _ => .after_execPermitStore h
  | .wlinit _ => .after_execWlinit h
  | .wlpush _ => .after_execWlpush h
  | .wlins _ => .after_execWlins h
  | .wlpopb _ => .after_execWlpopb h
  | .wlstat _ => .after_execWlstat h
  | .wlfree _ => .after_execWlfree h
  | .subscr _ => .after_execSubscr h
  | .unsub _ => .after_execUnsub h
  | .substat _ => .after_execSubstat h
  | .vadd _ | .vsub _ | .vand _ | .vor _ | .vxor _ | .vandn _ | .vshl _ | .vshr _ | .vsra _ | .vmin _ | .vmax _ | .vfadd _ | .vfsub _ |
    .vfmul _ | .vfma _ | .vfmin _ | .vfmax _ | .vfneg _ | .vrcp _ | .vrsq _ | .vsel _ | .vcvt _ | .vmov _ | .vbcast _ | .viota _ | .vshuf
      _ |
    .vmul _ | .vmulh _ | .vdiv _ | .vrem _ | .vshli _ | .vshri _ | .vsrai _ => by unfold exec; exact .after_execLanes h
  | .vcmpeq _ | .vcmpne _ | .vcmplt _ | .vcmple _ | .vfcmpeq _ | .vfcmplt _ | .vfcmple _ => by unfold exec; exact .after_execVcmp h
  | .vld _ => .after_execVld h
  | .vst _ => .after_execVst h
  | .vlde _ => .after_execVlde h
  | .vste _ => .after_execVste h
  | .vldx _ => .after_execVldx h
  | .vstx _ => .after_execVstx h
  | .vlsld _ => .after_execVlsld h
  | .vlsst _ => .after_execVlsst h
  | .vsp _ => .after_execVsp h
  | .vtopk _ => .after_execVtopk h
  | .mxlease _ => .after_execMxlease h
  | .mxrel => .after_execMxrel h
  | .tcfg _ => .after_execTcfg h
  | .trel _ => .after_execTrel h
  | .mxwait _ => .after_execMxwait h
  | .mxlda _ | .mxldb _ => by unfold exec; exact .after_execStage h
  | .mxmul _ | .mxtern _ => by unfold exec; exact .after_execProduct h
  | .mxdrain _ => .after_execMxdrain h
  | .mxstat _ => .after_execMxstat h
  | .nbcfg _ => .after_execNbcfg h
  | .nbmv _ => .after_execNbmv h
  | .nbstat _ => .after_execNbstat h
  | .cpy _ => .after_execCpy h
  | .cpyt _ => .after_execCpyt h
  | .syncwait _ => .after_execSyncwait h
  | .syncadd _ => .after_execSyncadd h
  | .gather _ => .after_execGather h
  | .twrun _ => .after_execTwrun h
  | .twstop => .after_execTwstop h
  | .twstat _ => .after_execTwstat h
  | .cestat _ => .after_execCestat h
  | .gvar _ => .after_execGvar h
  | .gfac _ => .after_execGfac h
  | .glink _ => .after_execGlink h
  | .gfmsg _ => .after_execGfmsg h
  | .gdamp _ => .after_execGdamp h
  | .gtol _ => .after_execGtol h
  | .grelin _ => .after_execGrelin h
  | .gread _ => .after_execGread h
  | .gsnap _ => .after_execGsnap h
  | .gcvg _ => .after_execGcvg h
  | .gfree _ => .after_execGfree h
  | .launch _ => .after_execLaunch h
  | .coll _ => .after_execColl h
  | .resume _ => .after_execResume h
  | .killt => .after_execKillt h
  | .killk _ => .after_execKillk h
  | .dwrd _ => .after_execDwrd h
  | .dwwr _ => .after_execDwwr h
  | .sysrd _ => .after_execSysrd h
  | .syswr _ => .after_execSyswr h
  | .mext _ => .after_execMext h
  | .tlbsync _ => .after_execTlbsync h
  | .preempt _ => .after_execPreempt h
  | .restore _ => .after_execRestore h
  | .migrate _ => .after_execMigrate h
  | .ckptFull _ | .ckptIncremental _ | .ckptRestore _ | .ckptResume _ => by unfold exec; exact .after_ckptForm h
  | .trap _ => .after_execTrap h
  | .hgtrig _ => .after_execHgtrig h
  | .hgrel _ => .after_execHgrel h
  | .hgstat _ => .after_execHgstat h
  | .dspcfgWrite => .after_execDspcfgWrite h
  | .sksizeWrite => .after_execSksizeWrite h
  | .thbootWrite => .after_execThbootWrite h
  | .fteWrite => .after_execFteWrite h
  | .ktWrite => .after_execKtWrite h
  | .wsetWrite => .after_execWsetWrite h
  | .wpWrite => .after_execWpWrite h
  | .mrgnWrite => .after_execMrgnWrite h
  | .worldMapWrite => .after_execWorldMapWrite h
  | .traptWrite => .after_execTraptWrite h
  | .messageArrive => .after_execMessageArrive h
  | .messageReply => .after_execMessageReply h
  | .contextFreeNotice => .after_execContextFreeNotice h
  | .resendTimerExpire => .after_execResendTimerExpire h
  | .withdrawal => .after_execWithdrawal h
  | .taskStart => .after_execTaskStart h
  | .launchPlace => .after_execLaunchPlace h
  | .loadLand => .after_execLoadLand h
  | .accessAccept => .after_execAccessAccept h
  | .faultFreeze => .after_execFaultFreeze h
  | .faultPacketArrive => .after_execFaultPacketArrive h
  | .pageFaultPost => .after_execPageFaultPost h
  | .pageFaultReply => .after_execPageFaultReply h
  | .directoryRequest => .after_execDirectoryRequest h
  | .writebackApply => .after_execWritebackApply h
  | .pageCopyRequest => .after_execPageCopyRequest h
  | .ownershipRequest => .after_execOwnershipRequest h
  | .pageInvalidate => .after_execPageInvalidate h
  | .ownershipGrant => .after_execOwnershipGrant h
  | .atomicMoved => .after_execAtomicMoved h
  | .subscriptionUpdateSend => .after_execSubscriptionUpdateSend h
  | .subscriptionUpdateApply => .after_execSubscriptionUpdateApply h
  | .subscriptionAck => .after_execSubscriptionAck h
  | .subscriptionTeardown => .after_execSubscriptionTeardown h
  | .gmuArrive => .after_execGmuArrive h
  | .gmuBind => .after_execGmuBind h
  | .gmuUnbind => .after_execGmuUnbind h
  | .barrierSweep => .after_execBarrierSweep h
  | .collArrive => .after_execCollArrive h
  | .collTimerExpire => .after_execCollTimerExpire h
  | .boundedWaitExpire => .after_execBoundedWaitExpire h
  | .leaseGrantExpire => .after_execLeaseGrantExpire h
  | .stagingLanded => .after_execStagingLanded h
  | .matrixCommandComplete => .after_execMatrixCommandComplete h
  | .drainWriteComplete => .after_execDrainWriteComplete h
  | .copyPieceLanded => .after_execCopyPieceLanded h
  | .copyComplete => .after_execCopyComplete h
  | .engineFault => .after_execEngineFault h
  | .gatherBatchLanded => .after_execGatherBatchLanded h
  | .tileLoad => .after_execTileLoad h
  | .storePermitAck => .after_execStorePermitAck h
  | .nbcfgPlaced => .after_execNbcfgPlaced h
  | .nbmvComplete => .after_execNbmvComplete h
  | .preemptAck => .after_execPreemptAck h
  | .powerInterval => .after_execPowerInterval h
  | .arraySelfTest => .after_execArraySelfTest h
  | .eccCorrectable => .after_execEccCorrectable h
  | .poisonMark => .after_execPoisonMark h
  | .dieStop => .after_execDieStop h
  | .thermalWarning => .after_execThermalWarning h
  | .thermalStop => .after_execThermalStop h
  | .twillLaneFail => .after_execTwillLaneFail h
  | .remoteTimeout => .after_execRemoteTimeout h
  | .apertureWriteTimeout => .after_execApertureWriteTimeout h
  | .hostMessageArrive => .after_execHostMessageArrive h
  | .hostLaunch => .after_execHostLaunch h
  | .hostMap => .after_execHostMap h
  | .hostKinst => .after_execHostKinst h
  | .hostCkpt => .after_execHostCkpt h
  | .hostAttest => .after_execHostAttest h
  | .hostHgtrig => .after_execHostHgtrig h
  | .hostHgrel => .after_execHostHgrel h
  | .mgmtCtrlRelease => .after_execMgmtCtrlRelease h
  | .mgmtCtrlHold => .after_execMgmtCtrlHold h
  | .mgmtWrite => .after_execMgmtWrite h
  | .auxPowerUp => .after_execAuxPowerUp h
  | .mainPowerLoss => .after_execMainPowerLoss h
  | .eviction => .after_execEviction h
  | .frameMigration => .after_execFrameMigration h
  | .thermalWarningClear => .after_execThermalWarningClear h
  | .mainInputReturn => .after_execMainInputReturn h

theorem OutUser.after_attempt {s : State} {a k} (h : UserCores s) : OutUser (attempt s a k) := by
  have ht : UserBy a ({ s with curAgent := a, curCtx := k }.modCtx a k Ctx.turned) := .modCtx ⟨rfl, h⟩ fun _ hc => hc
  unfold attempt
  dsimp only
  split
  · rename_i e
    exact .after_answer (.after_nextInstr_stop ht e)
  · rename_i e
    have hs := UserBy.after_nextInstr_run ht e
    exact .ite (.after_answer (.after_waitFor hs)) (.after_exec hs)

theorem UserCore.after_map {b : Nat} {o : Core} {f : Ctx → Ctx} (h : UserCore b o) (e : ∀ c, c.priv = false → (f c).priv = false) :
    UserCore b { o with ctxs := o.ctxs.map f } := by
  intro k hb
  have hk := h k hb
  unfold vget at hk ⊢
  rw [Vector.getElem?_map]
  cases he : o.ctxs[k]? with
  | none => rfl
  | some c => rw [he] at hk; exact e c hk

theorem UserBy.after_noted {s : State} {a k} (h : UserBy me s) : UserBy me (noted s a k) :=
  have ho : UserCore a { s.core a with ctxs := (s.core a).ctxs.map fun c => { c with yielded := c.yielded.erase k, jumped := false } } :=
    .after_map (h.core a) fun _ hc => hc
  .setCore (.frame h) (.vset ho (h.core a k))

theorem OutUser.after_tryIssue {s : State} {a l} (h : UserCores s) : OutUser (tryIssue a l s) := by
  induction l generalizing s with
  | nil => exact .next ⟨rfl, h⟩
  | cons k t ih =>
    unfold tryIssue
    split
    · rename_i u e
      have hu : UserBy u.curAgent u := ⟨rfl, OutUser.after_attempt h _ e⟩
      exact .ite (ih (UserBy.modCtx hu).2) (.next (.after_noted hu))
    · exact .after_attempt h

/-! One step of the machine, which keeps the property without regard to which core issues. -/

theorem UserCores.after_settle {s : State} {n} (h : UserCores s) : UserCores (settle n s) := by
  unfold UserCores
  rw [settle_cores, settle_tiers]
  exact h

theorem OutUser.after_settled {n o} (h : OutUser o) : OutUser (settled n o) := by
  intro t e
  obtain ⟨u, rfl, rfl⟩ := settled_next e
  exact .after_settle (h u rfl)

theorem UserCores.by {s : State} (h : UserCores s) : UserBy s.curAgent s := ⟨rfl, h⟩

theorem OutUser.after_issueStep {s : State} {a late} (h : UserCores s) : OutUser (issueStep s a late) :=
  .after_settled (.after_tryIssue h)

theorem OutUser.after_eventStep {s : State} {e} (h : UserCores s) : OutUser (eventStep s e) :=
  .after_settled (.after_exec h.by.frame)

theorem OutUser.after_envStep {s : State} {e} (h : UserCores s) : OutUser (envStep s e) := by
  have he : OutUser (exec e.instr { s with ev := some e }) := .after_exec h.by.frame
  unfold envStep
  split
  · rename_i t e
    exact .next (UserCores.after_settle (he t e).by.frame.2).by
  · exact he

theorem OutUser.after_pendingStep {s : State} {k} (h : UserCores s) : OutUser (pendingStep s k) := by
  unfold pendingStep
  dsimp only
  split
  · exact .next h.after_settle.by
  · exact .after_eventStep h

theorem OutUser.after_choiceStep {s : State} {c} (h : UserCores s) : OutUser (choiceStep s c) := by
  unfold choiceStep
  split
  · exact .after_issueStep h
  · exact .after_pendingStep h
  · exact .after_envStep h
  · exact .next (UserCores.after_settle (UserBy.after_outsideStep h.by).2).by
  · exact .next h.after_settle.by

theorem OutUser.after_dueStep {s : State} {k} (h : UserCores s) : OutUser (dueStep s k) := by
  unfold dueStep
  split
  · exact .next h.by
  · exact .after_settled (.after_exec h.by.frame)

theorem OutUser.after_step {s : State} (h : UserCores s) : OutUser (step s) := by
  unfold step
  split
  · exact .after_dueStep h
  · split
    · exact .after_choiceStep h
    · exact .after_choiceStep h

end

/-- Settles O59: `step` is one of the functions that keep cluster cores unprivileged. -/
theorem privilegeStaysOnRidgeCores : Obligations.PrivilegeStaysOnRidgeCores :=
  fun _ t h e => OutUser.after_step h t e

end Sys2Proof.Machine

/-! SUPPORT. O16, O7 (R160, R161, R268, R269): what a register's full and taint bits are after a write, a landing, and the opening and closing of
names. -/

namespace Sys2Proof.Machine
set_option Elab.async false

/-! Full and taint bits. -/

theorem getLsbD_setBit {w : Nat} (x : BitVec w) (i j : Nat) (b : Bool) (h : j < w) :
    (setBit x i b).getLsbD j = if i = j then b else x.getLsbD j := by
  rw [setBit, getLsbD_putBits x i i _ j le_rfl h]
  by_cases e : i = j
  · subst e; cases b <;> simp
  · rw [if_neg (by omega), if_neg e]

theorem getLsbD_setBit_reg (x : BitVec 32) (r q : Reg) (b : Bool) :
    (setBit x r.toNat b).getLsbD q.toNat = if r = q then b else x.getLsbD q.toNat := by
  rw [getLsbD_setBit x _ _ b q.isLt]; simp only [BitVec.toNat_inj]

theorem Ctx.fullG_wG (c : Ctx) (r q : Reg) (x : Word) (t : Bool) : (c.wG r x t).fullG q = if r = q then true else c.fullG q := by
  unfold Ctx.wG Ctx.fullG
  by_cases z : r = 0
  · by_cases e : r = q
    · rw [if_pos z, if_pos e, ← e, z]; rfl
    · rw [if_pos z, if_neg e]
  · rw [if_neg z, getLsbD_setBit_reg]
    split <;> simp

theorem Ctx.taintG_wG (c : Ctx) (r q : Reg) (x : Word) (t : Bool) : (c.wG r x t).taintG q = if r = q ∧ r ≠ 0 then t else c.taintG q := by
  unfold Ctx.wG Ctx.taintG
  by_cases z : r = 0
  · simp [z]
  · rw [if_neg z, getLsbD_setBit_reg]
    by_cases e : r = q
    · rw [if_pos e, if_pos ⟨e, z⟩, ← e, bne_iff_ne.mpr z, Bool.true_and]
    · rw [if_neg e, if_neg fun h => e h.1]

theorem Ctx.fullV_wV (c : Ctx) (r q : Reg) (x : Line) (t : Bool) : (c.wV r x t).fullV q = if r = q then true else c.fullV q :=
  getLsbD_setBit_reg c.vFull r q true

theorem Ctx.taintV_wV (c : Ctx) (r q : Reg) (x : Line) (t : Bool) : (c.wV r x t).taintV q = if r = q then t else c.taintV q :=
  getLsbD_setBit_reg c.vTaint r q t

@[simp] theorem Ctx.fullG_wV (c : Ctx) (r q : Reg) (x : Line) (t : Bool) : (c.wV r x t).fullG q = c.fullG q := rfl
@[simp] theorem Ctx.taintG_wV (c : Ctx) (r q : Reg) (x : Line) (t : Bool) : (c.wV r x t).taintG q = c.taintG q := rfl
@[simp] theorem Ctx.fullV_wG (c : Ctx) (r q : Reg) (x : Word) (t : Bool) : (c.wG r x t).fullV q = c.fullV q := by unfold Ctx.fullV; simp
@[simp] theorem Ctx.taintV_wG (c : Ctx) (r q : Reg) (x : Word) (t : Bool) : (c.wG r x t).taintV q = c.taintV q := by unfold Ctx.taintV; simp
@[simp] theorem Ctx.fullG_orFlags (c : Ctx) (x : Word) (q : Reg) : (c.orFlags x).fullG q = c.fullG q := rfl
@[simp] theorem Ctx.taintG_orFlags (c : Ctx) (x : Word) (q : Reg) : (c.orFlags x).taintG q = c.taintG q := rfl
@[simp] theorem Ctx.fullV_orFlags (c : Ctx) (x : Word) (q : Reg) : (c.orFlags x).fullV q = c.fullV q := rfl
@[simp] theorem Ctx.fullG_past (c : Ctx) (i : Instr) (q : Reg) : (c.past i).fullG q = c.fullG q := rfl
@[simp] theorem Ctx.taintG_past (c : Ctx) (i : Instr) (q : Reg) : (c.past i).taintG q = c.taintG q := rfl
@[simp] theorem Ctx.fullV_past (c : Ctx) (i : Instr) (q : Reg) : (c.past i).fullV q = c.fullV q := rfl
@[simp] theorem Ctx.taintV_past (c : Ctx) (i : Instr) (q : Reg) : (c.past i).taintV q = c.taintV q := rfl

/-! An event that is taken leaves the registers, cores and dies. -/

@[simp] theorem took_ev (s : State) : s.took.ev = none := rfl
@[simp] theorem took_core (s : State) (a : Nat) : s.took.core a = s.core a := rfl
@[simp] theorem took_ctx (s : State) (a k : Nat) : s.took.ctx a k = s.ctx a k := rfl
@[simp] theorem took_die (s : State) (d : Nat) : s.took.die d = s.die d := rfl
@[simp] theorem took_pending (s : State) : s.took.pending = s.pending := rfl
@[simp] theorem took_hbm (s : State) : s.took.hbm = s.hbm := rfl

/-! Landings (R161). -/

theorem exec_loadLand {s : State} {l : Landing} (h : s.ev = some (.loadLand l)) : exec .loadLand s = .next (landValue s.took l) := by
  change execLoadLand s = _
  unfold execLoadLand
  rw [h]

/-- The context after a landing. -/
def landed (c : Ctx) (l : Landing) : Ctx :=
  (if l.vec then c.wV l.reg l.value (c.taintV l.reg) else c.wG l.reg (l.value.setWidth 64) (c.taintG l.reg)).orFlags l.flags

theorem landValue_here (s : State) (l : Landing) (task : (s.ctx l.agent l.ctx).task = l.task) (free : (s.ctx l.agent l.ctx).st ≠ .free)
    (reserved : (s.ctx l.agent l.ctx).st ≠ .reserved) :
    landValue s l = s.setCtx l.agent l.ctx (landed (s.ctx l.agent l.ctx) l) := by
  unfold landValue
  rw [if_neg (by simp [task, free, reserved])]
  rfl

/-- Settles O16: `landed` is the write of one register, and `orFlags`. -/
theorem landingFillsTheRegister : Obligations.LandingFillsTheRegister := by
  intro s l ev task lt free reserved
  refine ⟨_, exec_loadLand ev, ?_⟩
  rw [landValue_here s.took l task free reserved, State.ctx_setCtx_same _ _ _ _ lt, took_ctx]
  cases v : l.vec with
  | false => simp +contextual [landed, v, Ctx.rG_wG, Ctx.fullG_wG, Ctx.taintG_wG, eq_comm (a := l.reg)]
  | true => simp +contextual [landed, v, Ctx.rV_wV, Ctx.fullV_wV, eq_comm (a := l.reg)]

/-! Names (R160). -/

section
variable (at' : Nat → Nat → Reg) (js : List Nat) (c : Ctx)

/-- Zero into the scalar registers at the named places, and into the vector registers. -/
def zeroG : Ctx := js.foldl (fun c j => c.wG (at' c.gOpen j) 0) c
def zeroV : Ctx := js.foldl (fun c j => c.wV (at' c.vOpen j) 0) c

/-- What stands beside the registers. -/
def besideRegs : Nat × Nat × List (Nat × Nat) × Word × Word × Vector Window 4 := (c.gOpen, c.vOpen, c.scopes, c.pc, c.flags, c.win)

/-- A register with its full and taint bits. -/
def nameG (r : Reg) : Word × Bool × Bool := (c.rG r, c.fullG r, c.taintG r)
def nameV (r : Reg) : Line × Bool × Bool := (c.rV r, c.fullV r, c.taintV r)

theorem besideRegs_wG (r : Reg) (x : Word) : besideRegs (c.wG r x) = besideRegs c := by simp [besideRegs]

theorem nameG_wG_zero (r q : Reg) : nameG (c.wG r 0) q = if r = q then (0, true, false) else nameG c q := by
  by_cases e : r = q
  · subst e
    by_cases z : r = 0
    · subst z; rfl
    · simp only [nameG, Ctx.rG_wG, Ctx.fullG_wG, Ctx.taintG_wG, ne_eq, z, not_false_eq_true, and_self, if_true]
  · simp [nameG, Ctx.rG_wG, Ctx.fullG_wG, Ctx.taintG_wG, e]

theorem nameV_wV_zero (r q : Reg) : nameV (c.wV r 0) q = if r = q then (0, true, false) else nameV c q := by
  simp only [nameV, Ctx.rV_wV, Ctx.fullV_wV, Ctx.taintV_wV]
  split <;> rfl

theorem besideRegs_zeroG : besideRegs (zeroG at' js c) = besideRegs c := by
  induction js generalizing c with
  | nil => rfl
  | cons j js ih => exact (ih _).trans (besideRegs_wG c _ 0)

theorem besideRegs_zeroV : besideRegs (zeroV at' js c) = besideRegs c := by
  induction js generalizing c with
  | nil => rfl
  | cons j js ih => exact ih _

theorem nameV_zeroG (r : Reg) : nameV (zeroG at' js c) r = nameV c r := by
  induction js generalizing c with
  | nil => rfl
  | cons j js ih => exact (ih _).trans (by simp only [nameV, Ctx.rV_wG, Ctx.fullV_wG, Ctx.taintV_wG])

theorem nameG_zeroV (r : Reg) : nameG (zeroV at' js c) r = nameG c r := by
  induction js generalizing c with
  | nil => rfl
  | cons j js ih => exact ih _

theorem nameG_zeroG (r : Reg) : nameG (zeroG at' js c) r = if ∃ j ∈ js, at' c.gOpen j = r then (0, true, false) else nameG c r := by
  induction js generalizing c with
  | nil => simp [zeroG]
  | cons j js ih =>
    refine (ih _).trans ?_
    rw [nameG_wG_zero, Ctx.wG_gOpen]
    by_cases h : at' c.gOpen j = r
    · simp only [List.exists_mem_cons_iff, h, true_or, if_true, ite_self]
    · simp only [List.exists_mem_cons_iff, h, false_or, if_false]

theorem nameV_zeroV (r : Reg) : nameV (zeroV at' js c) r = if ∃ j ∈ js, at' c.vOpen j = r then (0, true, false) else nameV c r := by
  induction js generalizing c with
  | nil => simp [zeroV]
  | cons j js ih =>
    refine (ih _).trans ?_
    rw [nameV_wV_zero, Ctx.wV_vOpen]
    by_cases h : at' c.vOpen j = r
    · simp only [List.exists_mem_cons_iff, h, true_or, if_true, ite_self]
    · simp only [List.exists_mem_cons_iff, h, false_or, if_false]

end

/-- The name that ENTER opens in place `j` above the open ones, and the one that LEAVE closes. -/
def openedName (o j : Nat) : Reg := BitVec.ofNat 5 (o + j)
def closedName (o j : Nat) : Reg := BitVec.ofNat 5 (o - 1 - j)

theorem opened_iff {o n : Nat} (h : o + n ≤ 32) (r : Reg) : (∃ j ∈ List.range n, openedName o j = r) ↔ o ≤ r.toNat ∧ r.toNat < o + n := by
  constructor
  · rintro ⟨j, hj, rfl⟩
    rw [List.mem_range] at hj
    rw [openedName, BitVec.toNat_ofNat, Nat.mod_eq_of_lt (by omega)]
    omega
  · intro ⟨low, high⟩
    refine ⟨r.toNat - o, List.mem_range.mpr (by omega), ?_⟩
    rw [openedName, Nat.add_sub_cancel' low, BitVec.ofNat_toNat, BitVec.setWidth_eq]

theorem nameG_inj {c d : Ctx} {r : Reg} (h : nameG d r = nameG c r) : d.rG r = c.rG r ∧ d.fullG r = c.fullG r ∧ d.taintG r = c.taintG r := by
  simpa [nameG] using h

theorem nameV_inj {c d : Ctx} {r : Reg} (h : nameV d r = nameV c r) : d.rV r = c.rV r ∧ d.fullV r = c.fullV r ∧ d.taintV r = c.taintV r := by
  simpa [nameV] using h

theorem nameG_zero {d : Ctx} {r : Reg} (h : nameG d r = (0, true, false)) : d.rG r = 0 ∧ d.fullG r = true ∧ d.taintG r = false := by
  simpa [nameG] using h

theorem nameV_zero {d : Ctx} {r : Reg} (h : nameV d r = (0, true, false)) : d.rV r = 0 ∧ d.fullV r = true ∧ d.taintV r = false := by
  simpa [nameV] using h

/-- The registers after `g` scalar and `v` vector names were zeroed. -/
def zeroed (gAt vAt : Nat → Nat → Reg) (g v : Nat) (c : Ctx) : Ctx := zeroV vAt (List.range v) (zeroG gAt (List.range g) c)

section
variable (gAt vAt : Nat → Nat → Reg) (g v : Nat) (c : Ctx) (r : Reg)

theorem besideRegs_zeroed : besideRegs (zeroed gAt vAt g v c) = besideRegs c :=
  (besideRegs_zeroV vAt _ _).trans (besideRegs_zeroG gAt _ c)

theorem nameG_zeroed :
    nameG (zeroed gAt vAt g v c) r = if ∃ j ∈ List.range g, gAt c.gOpen j = r then (0, true, false) else nameG c r :=
  (nameG_zeroV vAt _ _ r).trans (nameG_zeroG gAt _ c r)

theorem nameV_zeroed :
    nameV (zeroed gAt vAt g v c) r = if ∃ j ∈ List.range v, vAt c.vOpen j = r then (0, true, false) else nameV c r := by
  have h : (zeroG gAt (List.range g) c).vOpen = c.vOpen := congrArg (·.2.1) (besideRegs_zeroG gAt _ c)
  rw [zeroed, nameV_zeroV, h, nameV_zeroG]

end

theorem openNames_eq (c : Ctx) (g v : Nat) : openNames c g v =
    { zeroed openedName openedName g v c with
      gOpen := (zeroed openedName openedName g v c).gOpen + g, vOpen := (zeroed openedName openedName g v c).vOpen + v } := rfl

theorem closeScope_eq (c : Ctx) (g v : Nat) : closeScope c g v =
    { zeroed closedName closedName g v c with
      gOpen := (zeroed closedName closedName g v c).gOpen - g, vOpen := (zeroed closedName closedName g v c).vOpen - v
      scopes := (zeroed closedName closedName g v c).scopes.tail } := rfl

/-- ENTER with names to open, room for them in the register file and the pool, and a scope free (R268). -/
theorem exec_enter_opens {o : OEnter} {s : State} (h : Ready (.enter o) s) (some_ : 0 < 8 * o.s.toNat + 8 * o.v.toNat)
    (roomG : s.cur.gOpen + 8 * o.s.toNat ≤ 32) (roomV : s.cur.vOpen + 8 * o.v.toNat ≤ 32) (depth : s.cur.scopes.length < 8)
    (poolG : poolUsed (s.core s.curAgent) false + 8 * o.s.toNat ≤ 128) (poolV : poolUsed (s.core s.curAgent) true + 8 * o.v.toNat ≤ 128) :
    exec (.enter o) s = .next (s.setCur ({ openNames s.cur (8 * o.s.toNat) (8 * o.v.toNat) with
      scopes := (8 * o.s.toNat, 8 * o.v.toNat) :: s.cur.scopes }.past (.enter o))) := by
  change execEnter o s = _
  unfold execEnter
  rw [issue_ready h, answer_eq, if_neg (by simp only [Bool.or_eq_true, Bool.and_eq_true, decide_eq_true_eq]; omega),
    if_neg (by simp [poolHas, poolG, poolV])]

theorem exec_leave_closes {s : State} {g v : Nat} {rest : List (Nat × Nat)} (h : Ready .leave s) (scope : s.cur.scopes = (g, v) :: rest)
    (landed : scopeLanded s s.cur g v = true) :
    exec .leave s = .next (serve (s.setCur ((closeScope s.cur g v).past .leave)) s.curAgent) := by
  change execLeave s = _
  unfold execLeave
  rw [issue_ready h, answer_eq, scope]
  simp only [landed, if_true]

theorem scopeLanded_of_full {s : State} {c : Ctx} {g v : Nat} (fullG : ∀ j, j < g → c.fullG (closedName c.gOpen j) = true)
    (fullV : ∀ j, j < v → c.fullV (closedName c.vOpen j) = true) : scopeLanded s c g v = true := by
  simp only [scopeLanded, Bool.and_eq_true, List.all_eq_true, List.mem_range]
  exact ⟨fun j h => by simpa using .inl (fullG j h), fun j h => by simpa using .inl (fullV j h)⟩

/-- Settles O7: what `openNames` and `closeScope` leave is `besideRegs`, and the names they do not zero. -/
theorem scopesOpenAndCloseNames : Obligations.ScopesOpenAndCloseNames := by
  constructor
  · intro o s h c g v some_ roomG roomV depth poolG poolV
    have beside := besideRegs_zeroed openedName openedName g v c
    simp only [besideRegs, Prod.mk.injEq] at beside
    obtain ⟨hg, hv, -, hpc, hflags, hwin⟩ := beside
    refine ⟨_, exec_enter_opens h some_ roomG roomV depth poolG poolV, congrArg (· + g) hg, congrArg (· + v) hv, rfl,
      congrArg (· + _) hpc, hflags, hwin, fun r low high => nameG_zero ?_, fun r out => nameG_inj ?_, fun r low high => nameV_zero ?_,
      fun r out => nameV_inj ?_⟩
    · exact (nameG_zeroed openedName openedName g v c r).trans (if_pos ((opened_iff roomG r).mpr ⟨low, high⟩))
    · exact (nameG_zeroed openedName openedName g v c r).trans (if_neg fun e => by have := (opened_iff roomG r).mp e; omega)
    · exact (nameV_zeroed openedName openedName g v c r).trans (if_pos ((opened_iff roomV r).mpr ⟨low, high⟩))
    · exact (nameV_zeroed openedName openedName g v c r).trans (if_neg fun e => by have := (opened_iff roomV r).mp e; omega)
  · intro s g v rest h scope c fullG fullV
    have beside := besideRegs_zeroed closedName closedName g v c
    simp only [besideRegs, Prod.mk.injEq] at beside
    obtain ⟨hg, hv, hscopes, hpc, hflags, hwin⟩ := beside
    refine ⟨_, exec_leave_closes h scope (scopeLanded_of_full fullG fullV), congrArg (· - g) hg, congrArg (· - v) hv,
      (congrArg List.tail hscopes).trans (congrArg List.tail scope), congrArg (· + _) hpc, hflags, hwin, fun r out => nameG_inj ?_,
      fun r out => nameV_inj ?_⟩
    · exact (nameG_zeroed closedName closedName g v c r).trans (if_neg fun ⟨j, hj, e⟩ => out j (List.mem_range.mp hj) e.symm)
    · exact (nameV_zeroed closedName closedName g v c r).trans (if_neg fun ⟨j, hj, e⟩ => out j (List.mem_range.mp hj) e.symm)

end Sys2Proof.Machine

/-! SUPPORT. O31 (R149, R295): what completing, pending and serving leave, and the writes of handler entries. -/

namespace Sys2Proof.Machine
set_option Elab.async false

/-! Pending once. -/

@[simp] theorem core_pendOnce (s : State) (e : Ev) (a : Nat) : (s.pendOnce e).core a = s.core a := by unfold State.pendOnce; split <;> rfl
@[simp] theorem die_pendOnce (s : State) (e : Ev) (d : Nat) : (s.pendOnce e).die d = s.die d := by unfold State.pendOnce; split <;> rfl
@[simp] theorem ev_pendOnce (s : State) (e : Ev) : (s.pendOnce e).ev = s.ev := by unfold State.pendOnce; split <;> rfl
@[simp] theorem curAgent_pendOnce (s : State) (e : Ev) : (s.pendOnce e).curAgent = s.curAgent := by unfold State.pendOnce; split <;> rfl
@[simp] theorem curCtx_pendOnce (s : State) (e : Ev) : (s.pendOnce e).curCtx = s.curCtx := by unfold State.pendOnce; split <;> rfl
@[simp] theorem cur_pendOnce (s : State) (e : Ev) : (s.pendOnce e).cur = s.cur := by simp [State.cur]

theorem mem_pendOnce (s : State) (e : Ev) : e ∈ (s.pendOnce e).pending := by
  unfold State.pendOnce
  split
  next h => exact List.contains_iff_mem.mp h
  next => exact List.mem_append_right _ (List.mem_singleton.mpr rfl)

/-! The context in hand. -/

theorem cur_setCore_of_ctxs {s : State} {b : Nat} {o : Core} (h : o.ctxs = (s.core b).ctxs) : (s.setCore b o).cur = s.cur :=
  State.ctx_setCore_of_ctxs h _ _

theorem cur_done {s : State} (i : Instr) (h : s.curCtx < 8) : (done i s).cur = s.cur.past i := State.cur_setCur s _ h

theorem Ctx.orFlags_zero (c : Ctx) : c.orFlags 0 = c := by simp [Ctx.orFlags]

/-- A core with no refused message has none to serve. -/
theorem serve_of_none {s : State} {a : Nat} (h : (s.core a).refq = []) : serve s a = s := by
  unfold serve serveN
  simp only [h]

/-! Handler entries (R295). -/

/-- Entry `ch` of a core's handler table is written. -/
def withHandler (s : State) (a ch : Nat) (e : BitVec 128) : State := s.modCore a fun q => { q with handlers := vset q.handlers ch e }

section
variable (s : State) (a ch : Nat) (e : BitVec 128)

theorem core_withHandler : (withHandler s a ch e).core a = { s.core a with handlers := vset (s.core a).handlers ch e } :=
  State.core_setCore_same _ _ _

theorem ctx_withHandler (b k : Nat) : (withHandler s a ch e).ctx b k = s.ctx b k := by
  rw [withHandler, State.modCore_eq]
  exact State.ctx_setCore_of_ctxs (by rfl) b k

end

theorem exec_chwr_writes {o : ODAB} {s : State} (h : Ready (.chwr o) s) (range : (s.cur.rG o.d).toNat ≤ 63)
    (fine : entryWrite s s.curAgent s.cur (s.cur.rG o.d).toNat (s.cur.rG o.a ++ s.cur.rG o.b) = none)
    (none_ : (s.core s.curAgent).refq = []) :
    exec (.chwr o) s = .next (done (.chwr o) ((withHandler s s.curAgent (s.cur.rG o.d).toNat
      (if (s.cur.rG o.a ++ s.cur.rG o.b : BitVec 128).getLsbD 127 then s.cur.rG o.a ++ s.cur.rG o.b else 0)).pendOnce
        (.taskStart s.curAgent))) := by
  change execChwr o s = _
  unfold execChwr
  have empty (e : BitVec 128) : ((withHandler s s.curAgent (s.cur.rG o.d).toNat e).core s.curAgent).refq = [] := by
    rw [core_withHandler]; exact none_
  rw [issue_ready h, answer_eq]
  dsimp only
  rw [if_neg (Nat.not_lt.mpr range), fine]
  dsimp only
  rw [← withHandler, serve_of_none (empty _), ite_self]
  rfl

theorem exec_chmsk_masks {o : ODAB} {s : State} (h : Ready (.chmsk o) s) (range : (s.cur.rG o.a).toNat ≤ 63) (mask : (s.cur.rG o.b).toNat ≤ 1)
    (valid : (vget (s.core s.curAgent).handlers (s.cur.rG o.a).toNat 0).getLsbD 127 = true)
    (mine : s.cur.priv = true ∨ (vget (s.core s.curAgent).handlers (s.cur.rG o.a).toNat 0).extractLsb' 80 16 = s.cur.kid)
    (none_ : (s.core s.curAgent).refq = []) :
    let e := vget (s.core s.curAgent).handlers (s.cur.rG o.a).toNat 0
    let t := withHandler s s.curAgent (s.cur.rG o.a).toNat (setBit e 126 (bit (s.cur.rG o.b) 0))
    exec (.chmsk o) s = .next (done (.chmsk o) ((t.setCur (t.cur.wG o.d (flagWord (Handler.masked e)) (srcTaint (.chmsk o) s.cur))).pendOnce
      (.taskStart s.curAgent))) := by
  intro e t
  change execChmsk o s = _
  unfold execChmsk
  have valid' : Handler.valid e = true := valid
  have refused : ¬ (decide (63 < (s.cur.rG o.a).toNat) || decide (bitsOf (s.cur.rG o.b) 63 1 ≠ 0) || !Handler.valid e) = true := by
    rw [valid', bitsOf, Nat.div_eq_of_lt (by omega)]
    simpa using range
  have foreign : ¬ (!s.cur.priv && Handler.kid e != s.cur.kid) = true := by
    rcases mine with p | k
    · simp [p]
    · have k : Handler.kid e = s.cur.kid := k
      simp [k]
  have empty : ((t.setCur (t.cur.wG o.d (flagWord (Handler.masked e)) (srcTaint (.chmsk o) s.cur))).core s.curAgent).refq = [] := by
    rw [State.setCur_eq, State.core_setCtx_refq, core_withHandler]; exact none_
  rw [issue_ready h, answer_eq]
  dsimp only
  rw [if_neg refused, if_neg foreign, ← withHandler, serve_of_none empty, ite_self]

theorem exec_chrd_reads {o : OChrd} {s : State} (h : Ready (.chrd o) s) (range : (s.cur.rG o.a).toNat ≤ 63)
    (mine : (vget (s.core s.curAgent).handlers (s.cur.rG o.a).toNat 0).getLsbD 127 = false ∨ s.cur.priv = true ∨
      (vget (s.core s.curAgent).handlers (s.cur.rG o.a).toNat 0).extractLsb' 80 16 = s.cur.kid) :
    let e := vget (s.core s.curAgent).handlers (s.cur.rG o.a).toNat 0
    exec (.chrd o) s = .next (s.setCur ((s.cur.wG o.d (if o.h then e.extractLsb' 64 64 else e.setWidth 64) (srcTaint (.chrd o) s.cur)).past
      (.chrd o))) := by
  intro e
  change execChrd o s = _
  unfold execChrd
  have foreign : ¬ (Handler.valid e && !s.cur.priv && Handler.kid e != s.cur.kid) = true := by
    rcases mine with v | p | k
    · have v : Handler.valid e = false := v
      simp [v]
    · simp [p]
    · have k : Handler.kid e = s.cur.kid := k
      simp [k]
  rw [issue_ready h, answer_eq]
  dsimp only
  rw [if_neg (Nat.not_lt.mpr range), if_neg foreign]

/-- The mask bit that CHMSK writes. -/
theorem bit_zero_of_le_one {x : Word} (h : x.toNat ≤ 1) : bit x 0 = decide (x = 1) := by
  rcases Nat.le_one_iff_eq_zero_or_eq_one.mp h with z | z
  · obtain rfl : x = 0 := BitVec.eq_of_toNat_eq z
    rfl
  · obtain rfl : x = 1 := BitVec.eq_of_toNat_eq z
    rfl

/-- Settles O31: each instruction writes or reads one entry, and CHWR and CHMSK have the core's start pending. -/
theorem handlerEntriesAreWrittenAndRead : Obligations.HandlerEntriesAreWrittenAndRead := by
  refine ⟨?chwr, ?chmsk, ?chrd⟩
  case chwr =>
    intro o s h range e ch fine none_
    have cur (x : BitVec 128) : (done (.chwr o) ((withHandler s s.curAgent ch x).pendOnce (.taskStart s.curAgent))).cur = s.cur.past (.chwr o) := by
      rw [cur_done _ (by rw [curCtx_pendOnce]; exact h.curCtx_lt), cur_pendOnce, State.cur, ctx_withHandler]
      rfl
    have lt : ch < 64 := by omega
    refine ⟨_, exec_chwr_writes h range fine none_, ?_, fun c ne => ?_, mem_pendOnce _ _, fun r => by rw [cur]; rfl, by rw [cur]; rfl⟩
    · simp only [done, State.setCur_eq, State.core_setCtx_handlers, core_pendOnce, core_withHandler, vget_vset]
      rw [if_pos ⟨rfl, lt⟩]
    · simp only [done, State.setCur_eq, State.core_setCtx_handlers, core_pendOnce, core_withHandler, vget_vset]
      rw [if_neg fun q => ne q.1.symm]
  case chmsk =>
    intro o s h range mask ch e valid mine none_
    refine ⟨_, exec_chmsk_masks h range mask valid mine none_, fun b hb => ?_, fun ne => ?_, mem_pendOnce _ _⟩
    · have lt : ch < 64 := by omega
      simp only [done, State.setCur_eq, State.core_setCtx_handlers, core_pendOnce, core_withHandler, vget_vset]
      rw [if_pos ⟨rfl, lt⟩, getLsbD_setBit _ _ _ _ hb, bit_zero_of_le_one mask]
      simp only [eq_comm]
      rfl
    · rw [cur_done _ (by rw [curCtx_pendOnce]; exact h.curCtx_lt), cur_pendOnce, State.cur_setCur _ _ (by exact h.curCtx_lt), Ctx.rG_past, Ctx.rG_wG,
        if_pos ⟨rfl, ne⟩]
      rfl
  case chrd =>
    intro o s h range e mine
    rw [exec_chrd_reads h range mine, wroteG, Ctx.orFlags_zero]
    rfl

end Sys2Proof.Machine

/-! SUPPORT. O28 (R153, R154): an arrival that no refusal or reservation of its flow stands before, on a message entry of its kernel. -/

namespace Sys2Proof.Machine
set_option Elab.async false

/-- A free context is one of the eight. -/
theorem lt_of_freeCtx {o : Core} {k : Nat} (h : freeCtx o = some k) : k < 8 := List.mem_range.mp (List.mem_of_find?_eq_some h)

theorem ctxFor_of_freeCtx_none {o : Core} (h : freeCtx o = none) (e : BitVec 128) : ctxFor o e = none := by rw [ctxFor, h]

theorem ctxFor_of_room {o : Core} {k : Nat} {e : BitVec 128} (h : freeCtx o = some k)
    (room : poolHas o (8 * Handler.gdem e) (8 * Handler.vdem e) = true) : ctxFor o e = some k := by
  simp only [ctxFor, h, room, if_true]

/-! An untagged message that none of its flow stands before (R153). -/

section
variable {s : State} {m : Msg} (untagged : m.tagv = false)
include untagged

theorem arrive_task (fresh : m.resend = false) (running : s.quiesced = false) (world : crossing s m = false)
    (kernel : m.ch.toNat < 8 ∨ m.kid = Handler.kid (vget (s.core m.dst).handlers m.ch.toNat 0))
    (message : Handler.gmu (vget (s.core m.dst).handlers m.ch.toNat 0) = false) (kind : m.kind ≠ .graph)
    (refq : ∀ r ∈ (s.core m.dst).refq, r.src ≠ srcOf m ∨ r.ch ≠ m.ch) (resv : ∀ r ∈ (s.core m.dst).resv, r.src ≠ srcOf m ∨ r.ch ≠ m.ch) :
    arrive s m = arriveTask s m none none := by
  have noReserve : resvOf (s.core m.dst) m = none := by
    refine List.find?_eq_none.mpr fun r hr q => ?_
    simp only [Bool.and_eq_true, beq_iff_eq] at q
    rcases resv r hr with h | h <;> [exact h q.1; exact h q.2]
  have noRefusal : ((s.core m.dst).refq.any fun r => r.src == srcOf m && r.ch == m.ch) = false := by
    refine List.any_eq_false.mpr fun r hr q => ?_
    simp only [Bool.and_eq_true, beq_iff_eq] at q
    rcases refq r hr with h | h <;> [exact h q.1; exact h q.2]
  have mine : (Handler.valid (vget (s.core m.dst).handlers m.ch.toNat 0) && decide (8 ≤ m.ch.toNat) &&
      m.kid != Handler.kid (vget (s.core m.dst).handlers m.ch.toNat 0)) = false := by
    rcases kernel with h | h
    · simp [Nat.not_le.mpr h]
    · simp [h]
  have plain : (m.kind == .graph) = false := by simpa using kind
  unfold arrive
  simp only [fresh, untagged, running, world, mine, noReserve, noRefusal, message, plain, Bool.false_and, Bool.and_false, Bool.false_eq_true, if_false,
    Bool.not_false, Bool.or_self, Option.isSome_none]

theorem arriveTask_refused (full : freeCtx (s.core m.dst) = none) : arriveTask s m none none = refuseMsg s m.dst m := by
  unfold arriveTask
  simp only [untagged, Bool.false_and, Bool.false_eq_true, if_false, giveBack, ctxFor_of_freeCtx_none full, served, Option.isSome_none, ite_self]

theorem arriveTask_accepted {k : Nat} (able : startable (vget (s.core m.dst).handlers m.ch.toNat 0) = true)
    (room : arrivalRoom (s.core m.dst) = true) (place : ctxFor (s.core m.dst) (vget (s.core m.dst).handlers m.ch.toNat 0) = some k) :
    arriveTask s m none none =
      (holdArrival (reserveCtx s m.dst k (vget (s.core m.dst).handlers m.ch.toNat 0)) m.dst k m (vget (s.core m.dst).handlers m.ch.toNat 0) none,
        .accepted) := by
  unfold arriveTask
  simp only [untagged, Bool.false_and, Bool.false_eq_true, if_false, giveBack, able, room, place, served, Option.isSome_none, Bool.not_true,
    Bool.or_self]

end

theorem refuseMsg_queues {s : State} {a : Nat} {m : Msg} (new : ∀ r ∈ (s.core a).refq, r.src ≠ srcOf m ∨ r.ch ≠ m.ch) :
    refuseMsg s a m = if 64 ≤ (s.core a).refq.length then (s, .refusedFull)
      else (s.setCore a { s.core a with refq := (s.core a).refq ++ [⟨srcOf m, m.ch, m.kind, m.tagv, m.kid⟩] }, .refused) := by
  have none_ : ((s.core a).refq.any fun r => r.src == srcOf m && r.ch == m.ch) = false := by
    refine List.any_eq_false.mpr fun r hr q => ?_
    simp only [Bool.and_eq_true, beq_iff_eq] at q
    rcases new r hr with h | h <;> [exact h q.1; exact h q.2]
  unfold refuseMsg
  simp only [none_, Bool.false_eq_true, if_false]

/-- An accepted message holds its context, reserved with the entry's demand. -/
theorem holdArrival_reserveCtx (s : State) {a k : Nat} (m : Msg) (e : BitVec 128) (level : Option Nat) (lt : k < 8) :
    let t := holdArrival (reserveCtx s a k e) a k m e level
    (t.ctx a k).st = .reserved ∧ (t.ctx a k).gOpen = 8 * Handler.gdem e ∧ (t.ctx a k).vOpen = 8 * Handler.vdem e ∧
      (t.core a).arrivals = (s.core a).arrivals ++ [⟨m, e, k, s.now, level⟩] ∧ Ev.taskStart a ∈ t.pending ∧
      (∀ j, j ≠ k → t.ctx a j = s.ctx a j) ∧ t.hbm = s.hbm := by
  intro t
  have ctx (j : Nat) : t.ctx a j = (reserveCtx s a k e).ctx a j := by
    rw [show t = holdArrival _ a k m e level from rfl, holdArrival, ctx_pendOnce, State.modCore_eq]
    exact State.ctx_setCore_of_ctxs (by rfl) a j
  have here : t.ctx a k = { Ctx.reset with
      st := .reserved, gOpen := 8 * Handler.gdem e, vOpen := 8 * Handler.vdem e, serial := (s.ctx a k).serial } := by
    rw [ctx, reserveCtx, State.modCtx_eq, State.ctx_setCtx_same _ _ _ _ lt]
  rw [here]
  refine ⟨rfl, rfl, rfl, ?_, mem_pendOnce _ _, fun j ne => ?_, ?_⟩
  · simp only [t, holdArrival, core_pendOnce, State.modCore_eq, State.core_setCore_same, reserveCtx, State.modCtx_eq, State.core_setCtx_arrivals]
    rfl
  · rw [ctx, reserveCtx, State.modCtx_eq, State.ctx_setCtx_other _ _ _ _ _ _ (.inr ne.symm)]
  · simp only [t, holdArrival, State.pendOnce]
    split <;> rfl

/-- Settles O28: nothing of the flow is in the way, so `arriveTask` decides by the free context and its registers. -/
theorem arrivalsReserveAContextOrAreRefused : Obligations.ArrivalsReserveAContextOrAreRefused := by
  intro s m o e running world valid unmasked message kernel kind untagged fresh refq resv
  have task : arrive s m = arriveTask s m none none := arrive_task untagged fresh running world kernel message kind refq resv
  have able : startable e = true := by simp [startable, valid, unmasked, message]
  have full (none_ : freeCtx o = none) := (task.trans (arriveTask_refused untagged none_)).trans (refuseMsg_queues refq)
  refine ⟨fun k space free pool => ?_, fun none_ short => ?_, fun none_ long => ?_⟩
  · exact ⟨_, task.trans (arriveTask_accepted untagged able (decide_eq_true space) (ctxFor_of_room free pool)),
      holdArrival_reserveCtx s m e none (lt_of_freeCtx free)⟩
  · rw [if_neg (by exact Nat.not_le.mpr short)] at full
    refine ⟨_, full none_, ?_, rfl, fun j => State.ctx_setCore_of_ctxs (by rfl) _ j⟩
    rw [State.core_setCore_same]
  · rw [if_pos (by exact long)] at full
    exact full none_

end Sys2Proof.Machine

/-! SUPPORT. O29 (R153 to R155): the events of a message's travel. -/

namespace Sys2Proof.Machine
set_option Elab.async false

/-! The decision at the core. -/

theorem exec_messageArrive_decides {s : State} {m : Msg} (ev : s.ev = some (.messageArrive m)) (page : m.ch ≠ 2) (notice : m.ch ≠ 3)
    (packet : isRidge m.dst = false ∨ m.ch ≠ 1 ∨ m.kind ≠ .system) (here : m.srcDev = s.devno) (held : heldBySender s m = true)
    (first : flowAhead s m = false) (agent : srcAgent m ≠ hostAgent) (land : landBusy s m = false) (kept : firmwareDrops s m = false) :
    exec .messageArrive s = .next ((arrive s m).1.took.pend (.messageReply m (arrive s m).2)) := by
  have isPacket : (isRidge m.dst && m.ch == 1 && m.kind == .system) = false := by
    rcases packet with h | h | h
    · rw [h]; rfl
    · rw [beq_eq_false_iff_ne.mpr h, Bool.and_false]; rfl
    · rw [beq_eq_false_iff_ne.mpr h, Bool.and_false]
  change execMessageArrive s = _
  unfold execMessageArrive
  simp only [ev, here, land, isPageReply, notice, isPacket, kept, held, first, agent, beq_eq_false_iff_ne.mpr page, ne_eq, not_true_eq_false,
    decide_false, Bool.and_false, Bool.false_and, Bool.false_eq_true, if_false, Bool.not_true, answer_eq]

/-! The reply at the sender (R155). -/

/-- The reply to the one message of the buffer. -/
theorem replied_only {e : RetryEntry} (sent : e.sent = true) (flying : e.refused = false) (now : Nat) (can : Bool) :
    replied [e] e.msg .accepted now can = ([], none) ∧ replied [e] e.msg .refused now can = ([{ e with refused := true }], none) := by
  constructor <;> simp [replied, sent, flying]

theorem exec_messageReply_core {s : State} {m : Msg} {r : MsgReply} (ev : s.ev = some (.messageReply m r)) (agent : srcAgent m ≠ hostAgent)
    {l : List RetryEntry} (answer : replied (s.core (srcAgent m)).retry m r s.now (canLeave s m) = (l, none)) (known : r ≠ .refusedFull) :
    exec .messageReply s = .next (s.took.modCore (srcAgent m) fun o => { o with retry := l }) := by
  have answer' : replied (s.took.core (srcAgent m)).retry m r s.took.now (canLeave s.took m) = (l, none) := answer
  change execMessageReply s = _
  unfold execMessageReply
  simp only [ev, agent, if_false, answer', known]

/-! The held message again (R154). -/

theorem resendEntry_only {s : State} {a : Nat} {e : RetryEntry} (only : (s.core a).retry = [e]) (here : e.msg.dstDev = s.devno) :
    resendEntry s a e = (s.modCore a fun o => { o with retry := [⟨{ e.msg with resend := true }, true, false, 0⟩] }).pend
      (.messageArrive { e.msg with resend := true }) := by
  have can : canLeave s { e.msg with resend := true } = true := by simp [canLeave, here]
  unfold resendEntry
  simp only [can, only, State.modCore_eq, List.map_cons, List.map_nil, if_true]
  exact if_pos here

theorem flowHead_only {o : Core} {e : RetryEntry} (only : o.retry = [e]) : flowHead o e.msg.dst e.msg.dstDev e.msg.ch = some e := by
  simp [flowHead, only]

theorem exec_contextFreeNotice_resends {s : State} {a : Nat} {e : RetryEntry}
    (ev : s.ev = some (.contextFreeNotice a e.msg.dst e.msg.dstDev e.msg.ch)) (agent : a ≠ hostAgent) (only : (s.core a).retry = [e])
    (held : e.refused = true) : exec .contextFreeNotice s = .next (resendEntry s.took a e) := by
  change execContextFreeNotice s = _
  unfold execContextFreeNotice
  simp only [ev, agent, if_false, flowHead_only only, RetryEntry.flying, held, Bool.not_true, Bool.and_false, Bool.false_eq_true]

theorem exec_resendTimerExpire_resends {s : State} {a : Nat} {e : RetryEntry}
    (ev : s.ev = some (.resendTimerExpire a e.msg.dst e.msg.dstDev e.msg.ch)) (agent : a ≠ hostAgent) (only : (s.core a).retry = [e])
    (held : e.refused = true) (due : e.due ≤ s.now) : exec .resendTimerExpire s = .next (resendEntry s.took a e) := by
  change execResendTimerExpire s = _
  unfold execResendTimerExpire
  simp only [ev, agent, if_false, flowHead_only only, RetryEntry.flying, held, Bool.not_true, Bool.and_false, Bool.false_eq_true, Nat.not_lt.mpr due]

/-- What a held message that goes again leaves. -/
theorem resent {s : State} {a : Nat} {e : RetryEntry} (only : (s.core a).retry = [e]) (here : e.msg.dstDev = s.devno) :
    (resendEntry s.took a e).ev = none ∧
      ((resendEntry s.took a e).core a).retry = [⟨{ e.msg with resend := true }, true, false, 0⟩] ∧
      (resendEntry s.took a e).pending = s.pending ++ [.messageArrive { e.msg with resend := true }] := by
  rw [resendEntry_only (s := s.took) only here]
  refine ⟨rfl, ?_, rfl⟩
  rw [State.core_pend, State.modCore_eq, State.core_setCore_same]

/-! A withdrawal (R154). -/

theorem exec_withdrawal_gives_back {s : State} {dst : Nat} {r : Resv}
    (ev : s.ev = some (.withdrawal dst r.src.dev r.src.xr r.src.core r.ch)) (only : (s.core dst).resv = [r]) (none_ : (s.core dst).refq = []) :
    exec .withdrawal s = .next (releaseResv s.took dst r) := by
  have empty : ((releaseResv s.took dst r).core dst).refq = [] := by
    unfold releaseResv
    split
    · rw [State.modCtx_eq, State.core_setCtx_refq, dropResv, State.modCore_eq, State.core_setCore_same]; exact none_
    · rw [dropResv, State.modCore_eq, State.core_setCore_same]; exact none_
  have found : (s.took.core dst).resv.find? (fun q => q.src == ⟨r.src.dev, r.src.xr, r.src.core⟩ && q.ch == r.ch) = some r := by
    rw [took_core, only]
    simp
  change execWithdrawal s = _
  unfold execWithdrawal
  simp only [ev, found, serve_of_none empty]

theorem releaseResv_only {s : State} {a : Nat} {r : Resv} (only : (s.core a).resv = [r]) (lt : r.ctx < 8) :
    (releaseResv s a r).ev = s.ev ∧ ((releaseResv s a r).core a).resv = [] ∧ (r.need = .start → ((releaseResv s a r).ctx a r.ctx).st = .free) ∧
      (r.need ≠ .start → ∀ k, (releaseResv s a r).ctx a k = s.ctx a k) := by
  have dropped : ((dropResv s a r).core a).resv = [] := by
    rw [dropResv, State.modCore_eq, State.core_setCore_same]
    simp [only]
  unfold releaseResv
  by_cases start : r.need = .start
  · simp only [start, beq_self_eq_true, if_true, State.modCtx_eq, State.core_setCtx_resv, dropped, State.ctx_setCtx_same _ _ _ _ lt]
    exact ⟨rfl, trivial, fun _ => rfl, fun h => absurd rfl h⟩
  · simp only [beq_eq_false_iff_ne.mpr start, Bool.false_eq_true, if_false, dropped]
    exact ⟨rfl, trivial, fun h => absurd h start, fun _ k => State.ctx_setCore_of_ctxs (by rfl) a k⟩

/-- Settles O29: one equation per event, and what the retry buffer, or the reservations, then hold. -/
theorem messageEventsAnswerTheSender : Obligations.MessageEventsAnswerTheSender := by
  refine ⟨?arrive, ?accepted, ?refused, ?again, ?withdrawal⟩
  case arrive =>
    intro s m ev page notice packet here held first agent land kept
    exact exec_messageArrive_decides ev page notice packet here held first agent land kept
  case accepted =>
    rintro s m e ev agent only sent flying rfl
    refine ⟨_, exec_messageReply_core ev agent (only ▸ (replied_only sent flying _ _).1) nofun, ?_, rfl, rfl⟩
    rw [State.modCore_eq, State.core_setCore_same]
  case refused =>
    rintro s m e ev agent only sent flying rfl
    refine ⟨_, exec_messageReply_core ev agent (only ▸ (replied_only sent flying _ _).2) nofun, ?_, rfl, rfl⟩
    rw [State.modCore_eq, State.core_setCore_same]
  case again =>
    rintro s a dst dev ch e agent only held rfl rfl rfl here
    exact ⟨fun ev => ⟨_, exec_contextFreeNotice_resends ev agent only held, resent only here⟩,
      fun ev due => ⟨_, exec_resendTimerExpire_resends ev agent only held due, resent only here⟩⟩
  case withdrawal =>
    rintro s dst dev ch xr n r ev only src rfl none_ lt
    obtain ⟨⟨rdev, rxr, rcore⟩, rch, need, ctx⟩ := r
    cases src
    exact ⟨_, exec_withdrawal_gives_back ev only none_, releaseResv_only (s := s.took) only lt⟩

end Sys2Proof.Machine

/-! SUPPORT. O32 to O35 (R148, R156 to R159): what accesses, claims, releases and the ends of leases leave of tasks and of their queues. A
context's wait is left out: a watchpoint may withdraw it (R225). -/

namespace Sys2Proof.Machine
set_option Elab.async false

/-- A context but for its wait. -/
def Ctx.still (c : Ctx) : Ctx := { c with wait := none }

theorem Ctx.st_of_still {c d : Ctx} (h : d.still = c.still) : d.st = c.st := by have := congrArg Ctx.st h; exact this
theorem Ctx.pc_of_still {c d : Ctx} (h : d.still = c.still) : d.pc = c.pc := by have := congrArg Ctx.pc h; exact this

/-- A core's tasks: its contexts, and its queues of tasks, of posted receives and of refused messages. -/
def Core.tasks (o : Core) : (Nat → Ctx) × List TaskRec × List Posted × List RefEntry :=
  (fun k => (vget o.ctxs k Ctx.reset).still, o.taskq, o.posted, o.refq)

/-- The tasks of all cores, and the context in hand. -/
def State.tasks (s : State) : Nat × Nat × (Nat → (Nat → Ctx) × List TaskRec × List Posted × List RefEntry) :=
  (s.curAgent, s.curCtx, fun a => (s.core a).tasks)

section
variable {s t : State}

theorem core_tasks_of_tasks (h : t.tasks = s.tasks) (a : Nat) : (t.core a).tasks = (s.core a).tasks := congrFun (congrArg (fun v => v.2.2) h) a
theorem curAgent_of_tasks (h : t.tasks = s.tasks) : t.curAgent = s.curAgent := congrArg Prod.fst h
theorem curCtx_of_tasks (h : t.tasks = s.tasks) : t.curCtx = s.curCtx := congrArg (fun v => v.2.1) h
theorem ctx_of_tasks (h : t.tasks = s.tasks) (a k : Nat) : (t.ctx a k).still = (s.ctx a k).still :=
  congrFun (congrArg Prod.fst (core_tasks_of_tasks h a)) k
theorem taskq_of_tasks (h : t.tasks = s.tasks) (a : Nat) : (t.core a).taskq = (s.core a).taskq := congrArg (fun v => v.2.1) (core_tasks_of_tasks h a)
theorem posted_of_tasks (h : t.tasks = s.tasks) (a : Nat) : (t.core a).posted = (s.core a).posted := congrArg (fun v => v.2.2.1) (core_tasks_of_tasks h a)
theorem refq_of_tasks (h : t.tasks = s.tasks) (a : Nat) : (t.core a).refq = (s.core a).refq := congrArg (fun v => v.2.2.2) (core_tasks_of_tasks h a)
theorem cur_of_tasks (h : t.tasks = s.tasks) : t.cur.still = s.cur.still := by
  rw [State.cur, State.cur, curAgent_of_tasks h, curCtx_of_tasks h]
  exact ctx_of_tasks h _ _

theorem tasks_of_agents (h : t.agents = s.agents) : t.tasks = s.tasks :=
  congrArg (fun v : Nat × Nat × SMap Core => (v.1, v.2.1, fun a => (v.2.2.getD a Core.reset).tasks)) h

end

section
variable (s : State)

theorem tasks_setCore {a : Nat} {o : Core} (h : o.tasks = (s.core a).tasks) : (s.setCore a o).tasks = s.tasks := by
  have core : (fun b => ((s.setCore a o).core b).tasks) = fun b => (s.core b).tasks := by
    funext b
    rw [State.core_setCore]
    split <;> [(subst_vars; exact h); rfl]
  simp only [State.tasks, core, State.setCore_curAgent, State.setCore_curCtx]

theorem tasks_setCtx {a k : Nat} {c : Ctx} (h : c.still = (s.ctx a k).still) : (s.setCtx a k c).tasks = s.tasks := by
  refine tasks_setCore s ?_
  have ctxs : (fun j => (vget (vset (s.core a).ctxs k c) j Ctx.reset).still) = fun j => (vget (s.core a).ctxs j Ctx.reset).still := by
    funext j
    rw [vget_vset]
    split
    next here => rw [h, ← here.1]; rfl
    next => rfl
  simp only [Core.tasks, ctxs]

theorem ite_tasks {t u : State} {p : Prop} {_ : Decidable p} (ht : t.tasks = s.tasks) (hu : u.tasks = s.tasks) :
    (if p then t else u : State).tasks = s.tasks := by
  split <;> assumption

theorem pendOnce_tasks (e : Ev) : (s.pendOnce e).tasks = s.tasks := by unfold State.pendOnce; split <;> rfl

/-! Caches and releases. -/

theorem acquire_tasks (a : Nat) (sc : Scope) : (acquire s a sc).tasks = s.tasks := tasks_of_agents (acquire_agents s a sc)

theorem wcbEvict_tasks (a line : Nat) : (wcbEvict s a line).tasks = s.tasks := by
  unfold wcbEvict
  split
  · rfl
  · refine (tasks_of_agents (wcbDrainOne_agents _ a _)).trans ?_
    exact tasks_setCore s rfl

theorem release_tasks (a : Nat) (sc : Scope) : (release s a sc).tasks = s.tasks := by
  have buffer : (releaseBuffer s a sc).tasks = s.tasks := ite_keeps (foldl_keeps (fun t (e : WcbEntry) => wcbEvict_tasks t a e.line) _ s)
  refine (tasks_of_agents (agents_of_aboveL2 (release_aboveL2 s a sc))).trans ?_
  split
  · rfl
  · exact (tasks_of_agents (releaseL1_agents _ a sc)).trans buffer

theorem taintAcquire_tasks (tainted : Bool) : (taintAcquire s tainted).tasks = s.tasks :=
  ite_keeps (foldl_keeps (fun t sc => acquire_tasks t t.curAgent sc) _ s)

/-! The way into the caches (R104, R116). -/

theorem l2Fill_agents (die line pa : Nat) (ty : PType) : (l2Fill s die line pa ty).2.agents = s.agents :=
  agents_of_aboveL2 (l2Fill_aboveL2 s die line pa ty)

theorem dirRecall_agents (j line : Nat) (keep : Bool) : (dirRecall s j line keep).agents = s.agents := by
  unfold dirRecall
  split <;> [rfl; exact seqHome_agents s line _]

theorem seqFill_agents (clu line pa : Nat) : (seqFill s clu line pa).agents = s.agents := by
  unfold seqFill
  split <;> [rfl; exact (l2Fill_agents _ _ line pa .seq).trans (l1Place_agents s clu line)]

theorem dirServe_read_agents (clu line pa : Nat) : (dirServe s clu line pa .read).agents = s.agents := by
  unfold dirServe
  dsimp only
  split
  · exact seqFill_agents s clu line pa
  · exact seqFill_agents s clu line pa
  · split <;> [rfl; exact (seqFill_agents _ clu line pa).trans (dirRecall_agents s _ line true)]

theorem relRead_agents (x : Acc) (line pa : Nat) (ty : PType) : (relRead s x line pa ty).2.agents = s.agents := by
  unfold relRead
  split
  · exact outRead_agents s _ line pa ty
  · dsimp only
    split <;> exact l1Fill_agents s _ line pa ty

/-! Watchpoints (R225). -/

theorem withdraw_tasks (a k : Nat) : (withdraw s a k).tasks = s.tasks :=
  tasks_setCtx (s := _) (by rfl)

theorem haltCore_tasks (a : Nat) : (haltCore s a).tasks = s.tasks :=
  (foldl_keeps (fun t k => withdraw_tasks t a k) _ _).trans (tasks_setCore s rfl)

theorem haltGroup_tasks (die g : Nat) (on : Bool) : (haltGroup s die g on).tasks = s.tasks := by
  refine (foldl_keeps (view := State.tasks) (fun t q => ?_) _ _).trans (foldl_keeps (view := State.tasks) (fun t q => ?_) _ s)
  · dsimp only
    split_ifs <;> rfl
  · split <;> [exact haltCore_tasks t q.1; exact tasks_setCore t rfl]

theorem watch_tasks (x : Acc) (ia : Nat) (k : AKind) (bytes : Nat) : (watch s x ia k bytes).tasks = s.tasks := by
  refine foldl_keeps (view := State.tasks) (fun t n => ?_) _ s
  dsimp only
  split
  · rfl
  · exact (ite_keeps (view := State.tasks) (haltGroup_tasks _ _ _ _)).trans rfl

theorem accepted_tasks (x : Acc) (p : Path) (k : AKind) : (accepted s x p k).tasks = s.tasks := by
  have leaf (ia : Nat) : (cacheLeaf s ia).tasks = s.tasks := by
    unfold cacheLeaf
    split
    · rfl
    · split <;> rfl
  unfold accepted
  split <;> [exact (watch_tasks _ x _ k 1).trans (leaf _); rfl]

/-- A read takes no task and starts none. -/
theorem readPath_tasks (x : Acc) (p : Path) (n : Nat) : (readPath s x p n).2.tasks = s.tasks := by
  refine Eq.trans ?_ (accepted_tasks s x p .rd)
  unfold readPath
  generalize accepted s x p .rd = t
  cases p with
  | scratch a off => rfl
  | dieScratch d off => rfl
  | aperture h => rfl
  | remote ia => rfl
  | far ia j => rfl
  | mem ia pa ty disc =>
    dsimp only
    split
    · rfl
    · split
      · rfl
      · split
        · refine (tasks_of_agents (l2Fill_agents _ _ _ pa .seq)).trans ?_
          split <;> [exact tasks_of_agents (dirRecall_agents _ _ _ true); rfl]
        · have served := tasks_of_agents (dirServe_read_agents t (agentClu x.agent) (ia / 64) pa)
          split <;> exact served
      · exact tasks_of_agents (relRead_agents t x _ pa ty)

/-! Scratchpads and claims (R81). -/

theorem zeroWay_tasks (a j : Nat) : (zeroWay s a j).tasks = s.tasks := tasks_setCore s rfl

theorem setSpWay_tasks (a j : Nat) (w : WaySt) : (s.setCore a (setSpWay (s.core a) j w)).tasks = s.tasks := tasks_setCore s rfl

theorem growWays_tasks (a q : Nat) : (growWays s a q).tasks = s.tasks := by
  unfold growWays
  dsimp only
  split
  · rfl
  · refine (tasks_setCore _ (by rfl)).trans (foldl_keeps (view := State.tasks) (fun t i => ?_) _ s)
    exact (tasks_setCore _ (by rfl)).trans (foldl_keeps (fun u (p : Nat × CLine) => tasks_of_agents (l1Evict_agents u _ p.1)) _ t)

theorem enterWay_tasks (a j : Nat) (start : Option Nat) : (enterWay s a j start).tasks = s.tasks := by
  have zeroed (u : State) (o : Core) : ((List.range o.nWays).foldl (fun (s : State) i =>
      match spWay o i with | .retained _ => zeroWay s a i | _ => s) u).tasks = u.tasks :=
    foldl_keeps (view := State.tasks) (fun t i => by split <;> [exact zeroWay_tasks t a i; rfl]) _ u
  unfold enterWay
  dsimp only
  split
  · rfl
  · exact ite_tasks s (setSpWay_tasks s a j _) ((tasks_setCore _ (by rfl)).trans (zeroed s _))
  · exact (zeroWay_tasks _ a j).trans (setSpWay_tasks s a j _)

theorem claimWays_tasks (a q : Nat) (start : Option Nat) : (claimWays s a q start).tasks = s.tasks := by
  have entered : ((List.range q).foldl (fun (s : State) j => enterWay s a j start) (growWays s a q)).tasks = s.tasks :=
    (foldl_keeps (fun t j => enterWay_tasks t a j start) _ _).trans (growWays_tasks s a q)
  unfold claimWays
  exact (ite_keeps (view := State.tasks) (tasks_setCore _ (by rfl))).trans entered

theorem leaveWays_tasks (a : Nat) : (leaveWays s a).tasks = s.tasks := by
  refine foldl_keeps (view := State.tasks) (fun t j => ?_) _ s
  have off := (zeroWay_tasks _ a j).trans (setSpWay_tasks t a j .off)
  dsimp only
  split
  · split
    · split <;> [exact setSpWay_tasks t a j _; exact off]
    · exact off
  · rfl

theorem pubNote_tasks (a i b : Nat) (m : Mask) (dat : Line) : (pubNote s a i b m dat).tasks = s.tasks := by
  unfold pubNote
  dsimp only
  split
  · split <;> exact tasks_setCore s rfl
  · exact tasks_setCore s rfl

theorem spWrite_tasks (a off n x : Nat) : (spWrite s a off n x).tasks = s.tasks := by
  unfold spWrite
  refine (foldl_keeps (view := State.tasks) (fun t i => pubNote_tasks t a i _ _ _) _ _).trans ?_
  split <;> exact tasks_setCore s rfl

/-! The end of a task's snapshot and leases (R157). -/

theorem gmuThaw_tasks (a : Nat) : (gmuThaw s a).tasks = s.tasks := by
  have flags : (flagFrozen s a false).tasks = s.tasks := foldl_keeps (view := State.tasks) (fun t g => spWrite_tasks t a _ 2 _) _ s
  unfold gmuThaw
  split <;> [rfl; exact (pendOnce_tasks _ _).trans ((tasks_setCore _ (by rfl)).trans flags)]

theorem snapEnd_tasks (d : Nat) (t : BitVec 32) : (snapEnd s d t).tasks = s.tasks := by
  unfold snapEnd
  split
  · rfl
  · exact (ite_keeps (view := State.tasks) (foldl_keeps (fun u a => gmuThaw_tasks u a) _ _)).trans rfl

theorem leaseDrop_tasks (k : Nat) (p : Nat × Nat) : (leaseDrop s k p).tasks = s.tasks := by
  have pass (u : State) : (arrayPass u k).tasks = u.tasks := by
    unfold arrayPass
    dsimp only
    split <;> rfl
  have grant (u : State) (q : Nat × Nat) : (leaseGrant u k q).tasks = u.tasks := (pass _).trans ((pendOnce_tasks _ _).trans rfl)
  have next (u : State) : (leaseNext u k).tasks = u.tasks := by
    unfold leaseNext
    dsimp only
    split <;> [exact grant u _; rfl]
  exact next _

theorem leaseLeave_tasks (p : Nat × Nat) : (leaseLeave s p).tasks = s.tasks := 
  foldl_keeps (fun t (q : Nat × Cluster) => leaseDrop_tasks t q.1 p) _ s

end

end Sys2Proof.Machine

/-! SUPPORT. O34 (R148, R162): the context of a started task, and the choice of a start. -/

namespace Sys2Proof.Machine
set_option Elab.async false

/-- The context that a start makes of a reserved one. -/
def startCtx (a k : Nat) (x : Start) (c : Ctx) : Ctx :=
  { Ctx.reset with
    st := .live
    g := vset (vset (vset Ctx.reset.g 1 x.g1) 2 x.g2) 3 x.g3
    v := vset (vset Ctx.reset.v 0 (x.v.setWidth 512)) 1 (x.v.extractLsb' 512 512)
    pc := x.pc, gOpen := c.gOpen, vOpen := c.vOpen, win := x.win, task := agentNum a ++ BitVec.ofNat 3 k ++ c.serial, kid := x.kid, world := x.world
    base := BitVec.ofNat 5 x.base, prio := BitVec.ofNat 5 x.prio, stage := x.stage, priv := isRidge a, chan := x.chan
    parent := x.parent, launch := x.launch, claim := if isRidge a then 0 else x.q, lane := x.lane, serial := c.serial + 1, served := x.served }

theorem startTask_eq (s : State) (a k : Nat) (x : Start) :
    startTask s a k x =
      let claimed := claimWays s a (if isRidge a then 0 else x.q) x.chan
      let placed := State.setCtx (if x.lane then claimed.modCore a fun o => { o with lanes := [] } else claimed) a k (startCtx a k x (s.ctx a k))
      match x.acq with | some sc => acquire placed a sc | none => placed := rfl

theorem ctx_startTask (s : State) {a k : Nat} (x : Start) (lt : k < 8) :
    ((startTask s a k x).ctx a k).still = startCtx a k x (s.ctx a k) := by
  have placed (t : State) : (State.setCtx t a k (startCtx a k x (s.ctx a k))).ctx a k = startCtx a k x (s.ctx a k) :=
    State.ctx_setCtx_same t a k _ lt
  rw [startTask_eq]
  dsimp only
  split
  next sc _ => rw [ctx_of_tasks (acquire_tasks _ a sc), placed]; rfl
  next => rw [placed]; rfl

theorem vget_replicate {α : Type} (n i : Nat) (x : α) : vget (Vector.replicate n x) i x = x := by
  unfold vget
  rw [Vector.getElem?_replicate]
  split <;> rfl

theorem rG_startCtx (a k : Nat) (x : Start) (c : Ctx) (r : Reg) :
    (startCtx a k x c).rG r = if r.toNat = 1 then x.g1 else if r.toNat = 2 then x.g2 else if r.toNat = 3 then x.g3 else 0 := by
  have regs (i : Nat) (h : i < 32) : vget (startCtx a k x c).g i 0 = if i = 1 then x.g1 else if i = 2 then x.g2 else if i = 3 then x.g3 else 0 := by
    simp only [startCtx, vget_vset, Ctx.reset, vget_replicate, eq_comm (a := i)]
    grind
  unfold Ctx.rG
  rw [regs _ r.isLt]
  by_cases z : r = 0
  · rw [if_pos z, z]; rfl
  · rw [if_neg z]

theorem rV_startCtx (a k : Nat) (x : Start) (c : Ctx) :
    (startCtx a k x c).rV 0 = x.v.setWidth 512 ∧ (startCtx a k x c).rV 1 = x.v.extractLsb' 512 512 := by
  constructor
  · exact (vget_vset _ 1 0 _ _).trans ((if_neg (by decide)).trans ((vget_vset _ 0 0 _ _).trans (if_pos (by decide))))
  · exact (vget_vset _ 1 1 _ _).trans (if_pos (by decide))

/-! The choice (R162). -/

section
variable {s : State} {a : Nat} (ev : s.ev = some (.taskStart a))
include ev

theorem exec_taskStart_idle (arrivals : (s.core a).arrivals = []) (taskq : (s.core a).taskq = []) : exec .taskStart s = .next s.took := by
  change execTaskStart s = _
  unfold execTaskStart
  simp only [ev, arrivals, taskq, List.isEmpty_nil, Bool.and_self, if_true]

variable (work : (s.core a).arrivals ≠ [] ∨ (s.core a).taskq ≠ [])
include work

omit ev in
theorem taskStart_work : ((s.core a).arrivals.isEmpty && (s.core a).taskq.isEmpty) = false := by
  rcases work with h | h <;> simp [h]

theorem exec_taskStart_starts {i : Item} (runs : coreRuns s a = true) (may : startsHeld s a = false)
    (item : selectStart (s.core a) s.now = some i) : exec .taskStart s = .next (serve (startItem s a i) a) := by
  change execTaskStart s = _
  unfold execTaskStart
  simp only [ev, taskStart_work work, runs, may, item, Bool.not_true, Bool.or_self, Bool.false_eq_true, if_false, answer_eq]

theorem exec_taskStart_waits (held : coreRuns s a = false ∨ startsHeld s a = true ∨ selectStart (s.core a) s.now = none) :
    exec .taskStart s = .next s := by
  change execTaskStart s = _
  unfold execTaskStart
  rcases held with h | h | h
  · simp only [ev, taskStart_work work, h, Bool.not_false, Bool.true_or, Bool.false_eq_true, if_false, if_true]
  · simp only [ev, taskStart_work work, h, Bool.or_true, Bool.false_eq_true, if_false, if_true]
  · simp only [ev, taskStart_work work, h, ite_self, Bool.false_eq_true, if_false]

end

/-- An event that is not taken stays pending. -/
theorem mem_pending_settle {s : State} {e : Ev} (ev : s.ev = some e) (n : Nat) : e ∈ (settle n s).pending := by
  unfold settle requeue
  simp only [ev]
  split <;> exact List.mem_append_right _ List.mem_cons_self

/-- Settles O34: a start makes `startCtx`, and its acquire leaves it as it is. -/
theorem taskStartEntersAtThePc : Obligations.TaskStartEntersAtThePc := by
  refine ⟨fun s a k x lt => ?_, fun s a i ev work runs may item => exec_taskStart_starts ev work runs may item,
    fun s a ev arrivals taskq => exec_taskStart_idle ev arrivals taskq,
    fun s a ev work held => ⟨exec_taskStart_waits ev work held, mem_pending_settle ev 1⟩⟩
  intro t
  have here := ctx_startTask s x lt (a := a)
  have rG (r : Reg) : (t.ctx a k).rG r = (startCtx a k x (s.ctx a k)).rG r := congrArg (fun c => c.rG r) here
  have rV (r : Reg) : (t.ctx a k).rV r = (startCtx a k x (s.ctx a k)).rV r := congrArg (fun c => c.rV r) here
  obtain ⟨v0, v1⟩ := rV_startCtx a k x (s.ctx a k)
  simp only [rG, rV, rG_startCtx]
  refine ⟨congrArg Ctx.st here, congrArg Ctx.pc here, rfl, rfl, rfl, fun r high => ?_, v0, v1, congrArg Ctx.gFull here, congrArg Ctx.gTaint here,
    congrArg Ctx.flags here, congrArg Ctx.kid here, congrArg Ctx.win here, congrArg Ctx.priv here, congrArg Ctx.serial here⟩
  rw [if_neg (by omega), if_neg (by omega), if_neg (by omega)]

end Sys2Proof.Machine

/-! SUPPORT. O33 (R157): the end of a task that nothing follows. -/

namespace Sys2Proof.Machine
set_option Elab.async false

/-- The claim of an ending task noted, and its waits, snapshot and leases given up. -/
def endGivesUp (s : State) (a k : Nat) : State :=
  leaseLeave (snapEnd (dropWaits (noteClaim s (s.ctx a k).task (s.ctx a k).claim) a k) (agentDie a) (s.ctx a k).task) (a, k)

/-- The same with its posted receives withdrawn and its saved copies forgotten. -/
def endFrees (s : State) (a k : Nat) : State :=
  let t := (endGivesUp s a k).modCore a fun o => { o with posted := o.posted.filter fun p => p.ctx != k }
  { t with saves := t.saves.mapKV fun _ v => { v with ctxs := v.ctxs.filter fun x => x.task != (s.ctx a k).task } }

/-- The context of a task that has left. -/
def leftCtx (c : Ctx) : Ctx := { Ctx.reset with serial := c.serial }

section
variable (s : State) (a k : Nat)

theorem endGivesUp_tasks : (endGivesUp s a k).tasks = s.tasks := (leaseLeave_tasks _ _).trans ((snapEnd_tasks _ _ _).trans rfl)

theorem endFrees_core : (endFrees s a k).core a =
    { (endGivesUp s a k).core a with posted := ((endGivesUp s a k).core a).posted.filter fun p => p.ctx != k } :=
  State.core_setCore_same (endGivesUp s a k) a _

theorem endFrees_refq : ((endFrees s a k).core a).refq = (s.core a).refq := by
  rw [endFrees_core]
  exact refq_of_tasks (endGivesUp_tasks s a k) a

theorem endFrees_posted : ((endFrees s a k).core a).posted = (s.core a).posted.filter fun p => p.ctx != k := by
  rw [endFrees_core, posted_of_tasks (endGivesUp_tasks s a k)]

theorem endFrees_ctx (j : Nat) : ((endFrees s a k).ctx a j).still = (s.ctx a j).still := by
  rw [State.ctx, endFrees_core]
  exact ctx_of_tasks (endGivesUp_tasks s a k) a j

theorem ctx_leaveWays (b j : Nat) : (leaveWays s a).ctx b j = s.ctx b j := by
  have ctxs : ((leaveWays s a).core b).ctxs = (s.core b).ctxs := congrArg (fun v => v.2.1) (leaveWays_offWays s b a)
  rw [State.ctx, ctxs]
  rfl

theorem endCtx_eq (parent : (s.ctx a k).parent = none) (launch : (s.ctx a k).launch = none) : endCtx s a k none false =
    (serve (leaveWays ((endFrees s a k).setCtx a k (leftCtx (s.ctx a k))) a) a).pendOnce (.taskStart a) := by
  unfold endCtx taskGone
  simp only [parent, launch]
  rfl

end

/-- Settles O33: the freed context is `leftCtx`, and neither the freeing of ways nor the service of no message touches it. -/
theorem leavingFreesTheContext : Obligations.LeavingFreesTheContext := by
  intro s a k lt _ none_ parent launch t
  let freed := (endFrees s a k).setCtx a k (leftCtx (s.ctx a k))
  have ways : (leaveWays freed a).tasks = freed.tasks := leaveWays_tasks freed a
  have eq : t = (leaveWays freed a).pendOnce (.taskStart a) := by
    rw [show t = _ from endCtx_eq s a k parent launch, serve_of_none]
    rw [refq_of_tasks ways, State.core_setCtx_refq, endFrees_refq, none_]
  have ctx (j : Nat) : t.ctx a j = freed.ctx a j := by rw [eq, ctx_pendOnce, ctx_leaveWays]
  have here : t.ctx a k = leftCtx (s.ctx a k) := (ctx k).trans (State.ctx_setCtx_same _ _ _ _ lt)
  rw [here]
  refine ⟨rfl, rfl, rfl, rfl, fun p hp => ?_, fun j ne => ?_, eq ▸ mem_pendOnce _ _⟩
  · rw [eq, core_pendOnce, posted_of_tasks ways, State.core_setCtx_posted, endFrees_posted] at hp
    simpa using (List.mem_filter.mp hp).2
  · have same := endFrees_ctx s a k j
    rw [ctx, State.ctx_setCtx_other _ _ _ _ _ _ (.inr ne.symm)]
    exact ⟨Ctx.st_of_still same, Ctx.pc_of_still same⟩

end Sys2Proof.Machine

/-! SUPPORT. O32 (R156, R157, R296): children, and the instructions that end or yield a context. -/

namespace Sys2Proof.Machine
set_option Elab.async false

/-! SPAWN (R156). -/

/-- The task that SPAWN queues, of the record's bytes `r`. -/
def spawnRec (c : Ctx) (r now : Nat) : TaskRec :=
  { pc := BitVec.ofNat 64 r, arg0 := BitVec.ofNat 64 (r / 2 ^ 64), arg1 := BitVec.ofNat 64 (r / 2 ^ 128), arg2 := 0
    ctl := BitVec.ofNat 32 (r / 2 ^ 192), parent := some c.task, launch := none, kid := c.kid, world := c.world, win := some c.win
    stage := c.stage, chan := none, acq := .core, since := now }

/-- The spawn itself: the child is queued and counted. -/
def spawned (o : ORa) (c : Ctx) (a r : Nat) (s : State) : State :=
  let q := s.modCore a fun q => { q with taskq := q.taskq ++ [spawnRec c r s.now] }
  done (.spawn o) (State.pendOnce (q.setCur { q.cur with join := c.join + 1, joinScope := if c.join = 0 then .core else c.joinScope }) (.taskStart a))

theorem exec_spawn_queues {o : ORa} {s : State} {p : Path} {r : Nat} {t : State} {ctl : BitVec 32} (h : Ready (.spawn o) s)
    (res : resolve s (curAcc s) (s.cur.rG o.a) 32 32 .rd .any = .ok p) (path : pathHold s (curAcc s) p 32 .rd = none)
    (read : readPath (taintAcquire s (s.cur.taintG o.a)) (curAcc s) p 32 = (r, t)) (word : BitVec.ofNat 32 (r / 2 ^ 192) = ctl)
    (room : (s.core s.curAgent).taskq.length < 64) (few : s.cur.join ≠ 0xFFFF) (free : releaseHeld t .core = false)
    (fields : fieldsBad (isRidge s.curAgent) (Ctl.prio ctl) (Ctl.gdem ctl) (Ctl.vdem ctl) (Ctl.spreq ctl) (Ctl.lane ctl) true = false)
    (zero : ctl.extractLsb' 0 15 = 0) (kernel : (t.ktIndex s.cur.kid).isSome = true) (prio : Ctl.prio ctl < 20 ∨ s.cur.priv = true)
    (claim : Ctl.spreq ctl ≤ 18) :
    exec (.spawn o) s = .next (spawned o s.cur s.curAgent r (release t s.curAgent .core)) := by
  have same : t.tasks = s.tasks := by
    have tasks := readPath_tasks (taintAcquire s (s.cur.taintG o.a)) (curAcc s) p 32
    rw [read] at tasks
    exact tasks.trans (taintAcquire_tasks s _)
  have low : bitsOf ctl 14 0 = 0 := by rw [bitsOf_eq_extractLsb', zero]; rfl
  have legal : ¬ (fieldsBad (isRidge s.curAgent) (Ctl.prio ctl) (Ctl.gdem ctl) (Ctl.vdem ctl) (Ctl.spreq ctl) (Ctl.lane ctl) true ||
      decide (bitsOf ctl 14 0 ≠ 0) || (t.ktIndex s.cur.kid).isNone) = true := by
    simp [fields, low, Option.isSome_iff_ne_none.mp kernel]
  have may : ¬ (decide (20 ≤ Ctl.prio ctl) && !s.cur.priv) = true := by
    rcases prio with q | q
    · simp [Nat.not_le.mpr q]
    · simp [q]
  have space : ¬ (decide (64 ≤ (t.core s.curAgent).taskq.length) || decide (s.cur.join = 0xFFFF)) = true := by
    rw [taskq_of_tasks same, decide_eq_false (Nat.not_le.mpr room), decide_eq_false few]
    exact Bool.false_ne_true
  change execSpawn o s = _
  unfold execSpawn
  rw [issue_ready h, answer_eq]
  dsimp only
  rw [access_ok _ res path, read]
  dsimp only
  rw [word, if_neg legal, if_neg may, if_neg (Nat.not_lt.mpr claim), if_neg space, releaseThen_of_releases ⟨free, nofun⟩, curAgent_of_tasks same]
  subst word
  rfl

/-- What a spawn leaves in its core and context. -/
theorem spawned_effect {o : ORa} {c : Ctx} {r : Nat} {s t : State} (same : t.tasks = s.tasks) (lt : s.curCtx < 8) :
    ((spawned o c s.curAgent r t).core s.curAgent).taskq = (s.core s.curAgent).taskq ++ [spawnRec c r t.now] ∧
      (spawned o c s.curAgent r t).cur.join = c.join + 1 ∧ Ev.taskStart s.curAgent ∈ (spawned o c s.curAgent r t).pending ∧
      (spawned o c s.curAgent r t).cur.pc = s.cur.pc + BitVec.ofNat 64 (Instr.bytes (.spawn o)) := by
  let q := t.modCore s.curAgent fun q => { q with taskq := q.taskq ++ [spawnRec c r t.now] }
  have agent : q.curAgent = s.curAgent := (curAgent_of_tasks same :)
  have lt' : q.curCtx < 8 := (curCtx_of_tasks same :).trans_lt lt
  have old : q.cur.pc = s.cur.pc := by
    rw [← Ctx.pc_of_still (cur_of_tasks same)]
    exact congrArg Ctx.pc (State.ctx_setCore_of_ctxs (by rfl) _ _)
  let d : Ctx := { q.cur with join := c.join + 1, joinScope := if c.join = 0 then .core else c.joinScope }
  have cur : (spawned o c s.curAgent r t).cur = d.past (.spawn o) := by
    refine (cur_done _ ?_).trans ?_
    · rw [curCtx_pendOnce]; exact lt'
    · rw [cur_pendOnce, State.cur_setCur q d lt']
  rw [cur]
  refine ⟨?_, rfl, mem_pendOnce _ _, congrArg (· + _) old⟩
  rw [← taskq_of_tasks same]
  simp only [spawned, done, State.setCur_eq, State.core_setCtx_taskq, core_pendOnce, State.modCore_eq, State.core_setCore_same]

/-! HALT and HALTR (R157). -/

theorem haltRun_ends {s : State} {retain : Option Nat} (join : s.cur.join = 0) (landed : allLanded s s.curAgent s.curCtx = true)
    (free : joinHeld s = false) :
    haltRun s retain = killServed (endCtx (wcbDrain s s.curAgent) s.curAgent s.curCtx retain false) s.cur := by
  simp [haltRun, join, landed, free]

/-- Settles O32: SPAWN by `spawned_effect`, the others by their one branch. -/
theorem tasksSpawnJoinHaltAndYield : Obligations.TasksSpawnJoinHaltAndYield := by
  refine ⟨?spawn, ?join, ?wait, ?halt, ?haltr, ?yield⟩
  case spawn =>
    intro o s p h res path room few r free ctl fields zero kernel prio claim
    refine ⟨_, spawnRec s.cur r.1 (release r.2 s.curAgent .core).now,
      exec_spawn_queues h res path rfl rfl room few free fields zero kernel prio claim, ?_⟩
    have same : (release r.2 s.curAgent .core).tasks = s.tasks :=
      (release_tasks _ _ _).trans ((readPath_tasks _ _ p 32).trans (taintAcquire_tasks s _))
    obtain ⟨taskq, count, start, pc⟩ := spawned_effect (o := o) (c := s.cur) (r := r.1) same h.curCtx_lt
    exact ⟨taskq, rfl, rfl, rfl, rfl, rfl, rfl, rfl, count, start, pc⟩
  case join =>
    intro s h none_
    change execJoin s = _
    rw [execJoin, issue_ready h, answer_eq, if_neg (not_not.mpr none_)]
  case wait =>
    intro s h some_
    change execJoin s = _
    rw [execJoin, issue_ready h, answer_eq, if_pos some_]
  case halt =>
    intro s h join landed free
    change execHalt s = _
    rw [execHalt, issue_ready h, answer_eq, haltRun_ends join landed free]
  case haltr =>
    intro o s h range join landed free
    change execHaltr o s = _
    rw [execHaltr, issue_ready h, answer_eq, if_neg (Nat.not_lt.mpr range), haltRun_ends join landed free]
  case yield =>
    intro s h
    refine ⟨{ s.cur.past .yield with yielded := s.curCtx :: (List.range 8).filter fun k => k != s.curCtx && ctxAble s s.curAgent k }, ?_, rfl,
      fun k => ?_, fun r => rfl, rfl⟩
    · change execYield s = _
      rw [execYield, issue_ready h, answer_eq]
    · simp

end Sys2Proof.Machine

/-! SUPPORT. O35 (R158, R159): a launch is queued, and its records are placed. -/

namespace Sys2Proof.Machine
set_option Elab.async false

theorem releases_dev_of_calm {s : State} (calm : Rule.calm s) : Rule.releases s .dev := by
  obtain ⟨updates, stores⟩ := calm
  exact ⟨by simp [releaseHeld, updates, stores], nofun⟩

/-! LAUNCH (R158). -/

/-- What LAUNCH does with the record's bytes `r`, all its checks passed. -/
def launched (o : ORa) (win : Vector Window 4) (r : Nat) (s : State) : State :=
  done (.launch o) (launchQueue s (issuerOf s) r (futIa win (BitVec.ofNat 64 (recBytes r 8 8))))

theorem exec_launch_queues {o : ORa} {s t : State} {p : Path} {r : Nat} (h : Ready (.launch o) s)
    (res : resolve s (curAcc s) (s.cur.rG o.a) 64 64 .rd .any = .ok p) (path : pathHold s (curAcc s) p 64 .rd = none) (calm : Rule.calm s)
    (read : readPath (taintAcquire (release s s.curAgent .dev) (s.cur.taintG o.a)) (curAcc (release s s.curAgent .dev)) p 64 = (r, t))
    (legal : launchBad t r = false)
    (may : s.cur.priv = true ∨ (recBytes r 0x1E 1 < 20 ∧ BitVec.ofNat 16 (recBytes r 0x26 2) = s.cur.kid ∧
      decide (recBytes r 0x25 1 = 1) = s.cur.world))
    (future : futCheck s.cur.win (BitVec.ofNat 64 (recBytes r 8 8)) = none)
    (room : (queuedLaunches (t.die (recBytes r 0x24 1))).length < 64) :
    exec (.launch o) s = .next (launched o s.cur.win r t) := by
  have allowed : ¬ (!s.cur.priv && (decide (20 ≤ recBytes r 0x1E 1) || decide (BitVec.ofNat 16 (recBytes r 0x26 2) ≠ s.cur.kid) ||
      decide (recBytes r 0x25 1 = 1) != s.cur.world)) = true := by
    rcases may with q | ⟨prio, kid, world⟩
    · rw [q]; exact Bool.false_ne_true
    · rw [decide_eq_false (Nat.not_le.mpr prio), decide_eq_false (not_not.mpr kid), world, bne_self_eq_false, Bool.or_self, Bool.or_self, Bool.and_false]
      exact Bool.false_ne_true
  change execLaunch o s = _
  unfold execLaunch
  rw [issue_ready h, answer_eq]
  dsimp only
  rw [access_ok _ res path, releaseThen_of_releases (releases_dev_of_calm calm), read]
  dsimp only
  rw [legal, if_neg Bool.false_ne_true, if_neg allowed, future]
  dsimp only
  rw [if_neg (Nat.not_le.mpr room)]
  rfl

theorem launched_effect {o : ORa} {win : Vector Window 4} {r : Nat} {s : State} (lt : s.curCtx < 8) :
    ∃ l : Launch, l = launchOf { s with nextId := s.nextId + 1 } (issuerOf s) s.nextId r (futIa win (BitVec.ofNat 64 (recBytes r 8 8))) ∧
      ((launched o win r s).die (recBytes r 0x24 1)).launchq = (s.die (recBytes r 0x24 1)).launchq ++ [l] ∧
      Ev.launchPlace (recBytes r 0x24 1) ∈ (launched o win r s).pending ∧
      (launched o win r s).cur.pc = s.cur.pc + BitVec.ofNat 64 (Instr.bytes (.launch o)) := by
  refine ⟨_, rfl, ?_, mem_pendOnce _ _, ?_⟩
  · simp only [launched, launchQueue, State.newId, done, State.setCur_eq, State.die_setCtx, die_pendOnce, State.modDie_eq, State.die_setDie_same]
    rfl
  · refine (congrArg Ctx.pc (cur_done _ ?_)).trans (congrArg (· + _) ?_)
    · rw [launchQueue, curCtx_pendOnce]; exact lt
    · rw [launchQueue, cur_pendOnce]; rfl

/-! Placement (R159). -/

/-- Where one launch is queued with records to place, at a legal priority, it is the launch whose turn it is. -/
theorem find_launchOrder_only {d : Die} {l : Launch} {x : Nat × Nat} {rest : List (Nat × Nat)} (only : d.launchq = [l]) (todo : l.todo = x :: rest)
    (prio : l.prio.toNat < 24) {f : Launch → Bool} (fits : f l = true) : (launchOrder d).find? f = some l := by
  have queued : queuedLaunches d = [l] := by simp [queuedLaunches, only, todo]
  have mem : l ∈ launchOrder d := by
    refine List.mem_flatMap.mpr ⟨l.prio.toNat, List.mem_reverse.mpr (List.mem_range.mpr prio), ?_⟩
    simp [queued]
  cases found : (launchOrder d).find? f with
  | none => exact absurd fits (List.find?_eq_none.mp found l mem)
  | some m =>
    obtain ⟨p, -, inClass⟩ := List.mem_flatMap.mp (List.mem_of_find?_eq_some found)
    have same : m ∈ queuedLaunches d := (List.mem_filter.mp inClass).1
    rw [queued, List.mem_singleton] at same
    rw [same]

section
variable {s : State} {d : Nat} {l : Launch} {a st : Nat} {rest : List (Nat × Nat)}

/-- A launch that is started steps the generation of its die's sarking copies. -/
def launchStarted (s : State) (d : Nat) (l : Launch) : State := if l.started then s else skBump s d

theorem launchStarted_core (b : Nat) : (launchStarted s d l).core b = s.core b := by unfold launchStarted; split <;> rfl
theorem launchStarted_launchq : ((launchStarted s d l).die d).launchq = (s.die d).launchq := by
  unfold launchStarted
  split
  · rfl
  · rw [skBump, State.modDie_eq, State.die_setDie_same]

theorem launchStarted_world (b : Nat) : agentWorld (launchStarted s d l) b = agentWorld s b := by
  have die (e : Nat) : ((launchStarted s d l).die e).wridge = (s.die e).wridge ∧ ((launchStarted s d l).die e).wclu = (s.die e).wclu := by
    unfold launchStarted
    split
    · exact ⟨rfl, rfl⟩
    · rw [skBump, State.modDie_eq, State.die_setDie]
      split <;> [(subst_vars; exact ⟨rfl, rfl⟩); exact ⟨rfl, rfl⟩]
  simp only [agentWorld, die]

/-- The state after the next record of `l` was placed at core `a`. -/
def placedOne (s : State) (d : Nat) (l : Launch) (a st : Nat) (rest : List (Nat × Nat)) : State :=
  let t := launchStarted s d l
  let m := { l with started := true, todo := rest }
  launchCheck (setLaunch ((t.modCore a fun q => { q with taskq := q.taskq ++ [placedRec t m st] }).pendOnce (.taskStart a)) d
    { m with placed := l.placed + 1, live := l.live + 1 }) d l.id

theorem exec_launchPlace_places (ev : s.ev = some (.launchPlace d)) (runs : s.quiesced = false) (only : (s.die d).launchq = [l])
    (todo : l.todo = (a, st) :: rest) (prio : l.prio.toNat < 24) (claim : ceilDiv l.spreq wayBytes ≤ 18) (world : agentWorld s a = l.world)
    (room : (s.core a).taskq.length < 64) : exec .launchPlace s = .next (placedOne s d l a st rest) := by
  have some_ : (queuedLaunches (s.die d)).isEmpty = false := by simp [queuedLaunches, only, todo]
  have fits : placeable s l = true := by simp [placeable, todo, room]
  change execLaunchPlace s = _
  unfold execLaunchPlace
  simp only [ev, some_, runs, find_launchOrder_only only todo prio fits, Nat.not_lt.mpr claim, Bool.false_eq_true, if_false]
  rw [← launchStarted, todo]
  dsimp only
  rw [launchStarted_world, world, bne_self_eq_false, if_neg Bool.false_ne_true]
  rfl

/-- While records are left to place, a launch is not resolved. -/
theorem launchCheck_of_todo {l : Launch} (only : (s.die d).launchq = [l]) (todo : l.todo ≠ []) : launchCheck s d l.id = s := by
  unfold launchCheck
  simp [only, todo]

theorem setLaunch_launchq {m : Launch} (only : (s.die d).launchq = [l]) (same : l.id = m.id) : ((setLaunch s d m).die d).launchq = [m] := by
  rw [setLaunch, State.modDie_eq, State.die_setDie_same]
  simp [only, same]

theorem placedOne_eq (only : (s.die d).launchq = [l]) (more : rest ≠ []) : placedOne s d l a st rest =
    setLaunch (((launchStarted s d l).modCore a fun q =>
      { q with taskq := q.taskq ++ [placedRec (launchStarted s d l) { l with started := true, todo := rest } st] }).pendOnce (.taskStart a)) d
      { l with started := true, todo := rest, placed := l.placed + 1, live := l.live + 1 } := by
  refine launchCheck_of_todo (l := { l with started := true, todo := rest, placed := l.placed + 1, live := l.live + 1 }) ?_ more
  exact setLaunch_launchq (l := l) (by rw [die_pendOnce]; exact launchStarted_launchq.trans only) rfl

theorem placedOne_effect (only : (s.die d).launchq = [l]) (more : rest ≠ []) :
    ((placedOne s d l a st rest).core a).taskq =
        (s.core a).taskq ++ [placedRec (launchStarted s d l) { l with started := true, todo := rest } st] ∧
      ((placedOne s d l a st rest).die d).launchq = [{ l with started := true, todo := rest, placed := l.placed + 1, live := l.live + 1 }] ∧
      Ev.taskStart a ∈ (placedOne s d l a st rest).pending := by
  rw [placedOne_eq only more]
  refine ⟨?_, setLaunch_launchq (l := l) ?_ rfl, mem_pendOnce _ _⟩
  · simp only [setLaunch, State.modDie_eq, State.core_setDie, core_pendOnce, State.modCore_eq, State.core_setCore_same, launchStarted_core]
  · rw [die_pendOnce]; exact launchStarted_launchq.trans only

end

/-- Settles O35: the queued launch is `launchOf`, the placed record `placedRec`. -/
theorem launchesQueueAndPlace : Obligations.LaunchesQueueAndPlace := by
  constructor
  · intro o s p h res path calm r legal may future room
    have same : r.2.tasks = s.tasks := (readPath_tasks _ _ p 64).trans ((taintAcquire_tasks _ _).trans (release_tasks s _ .dev))
    obtain ⟨l, hl, queue, place, pc⟩ := launched_effect (o := o) (win := s.cur.win) (r := r.1) (s := r.2) (by
      rw [curCtx_of_tasks same]; exact h.curCtx_lt)
    subst hl
    exact ⟨_, _, exec_launch_queues h res path calm rfl legal may future room, queue, rfl, rfl, rfl, rfl, rfl, rfl, place, pc⟩
  · intro s d l a st rest ev runs only todo more prio claim world room
    obtain ⟨taskq, queue, start⟩ := placedOne_effect (a := a) (st := st) only more
    exact ⟨_, _, exec_launchPlace_places ev runs only todo prio claim world room, taskq, rfl, rfl, rfl, rfl, rfl, rfl, rfl, queue, start⟩

end Sys2Proof.Machine

/-! SUPPORT. O55 (R163, R236, R242, R245): the attempt of a context, and the step around it. -/

namespace Sys2Proof.Machine
set_option Elab.async false

/-! The attempt of a context: the words at its PC, decoded. -/

/-- The state in which context `k` of core `a` fetches. -/
def fetching (v : State) (a k : Nat) : State := State.modCtx { v with curAgent := a, curCtx := k } a k Ctx.turned

section
variable {v u : State} {a k : Nat} {ws : List (BitVec 32)}
  (fetched : fetchInstr (fetching v a k) (fetching v a k).cur.pc = .words ws u)
include fetched

theorem attempt_instr {i : Instr} (word : decodeWords ws = .instr i false) :
    attempt v a k = if vectorBusy u a k && Instr.vectorUnit i then .next (waitFor u .retry) else exec i u := by
  unfold attempt nextInstr
  rw [← fetching]
  simp only [fetched, word, Bool.not_false, if_true, answer_eq]

theorem attempt_illegal (word : decodeWords ws = .illegal) : attempt v a k = .next (decodeFault u 0x01 ws) := by
  unfold attempt nextInstr
  rw [← fetching]
  simp only [fetched, word, answer_eq]

theorem attempt_reserved {i : Instr} (word : decodeWords ws = .instr i true)
    (open_ : ∀ r ∈ i.roles, (fetching v a k).cur.openName r.vec r.reg = true)
    (may : Instr.privileged i = true → (fetching v a k).cur.priv = true) : attempt v a k = .next (decodeFault u 0x02 ws) := by
  have named : (i.roles.any fun r => !(fetching v a k).cur.openName r.vec r.reg) = false :=
    List.any_eq_false.mpr fun r hr => by simp [open_ r hr]
  have allowed : (Instr.privileged i && !(fetching v a k).cur.priv) = false := by
    cases p : Instr.privileged i with
    | false => rfl
    | true => rw [may p]; rfl
  unfold attempt nextInstr
  rw [← fetching]
  simp only [fetched, word, Bool.not_true, named, allowed, Bool.false_eq_true, if_false, answer_eq]

end

/-! The first context of the order has the slot where it does not stall (R163). -/

theorem tryIssue_issued {v t : State} {a k : Nat} {tail : List Nat} (made : attempt v a k = .next t) (goes : stalledAt t a k = false) :
    tryIssue a (k :: tail) v = .next (noted t a k) := by
  simp only [tryIssue, made, goes, Bool.false_eq_true, if_false]

theorem tryIssue_last {v t : State} {a k : Nat} (made : attempt v a k = .next t) (stalls : stalledAt t a k = true) :
    tryIssue a [k] v = .next (t.modCtx a k fun c => { c with yielded := (v.ctx a k).yielded }) := by
  simp only [tryIssue, made, stalls, if_true]

theorem step_agenda {s : State} {c : Choice} {rest : List Choice} (agenda : s.agenda = c :: rest) (due : dueEvent s = none) :
    step s = choiceStep { s with agenda := rest } c := by
  rw [step_choice due, agenda]

theorem step_issue {s : State} {a : Nat} {late order : List Nat} {rest : List Choice} (agenda : s.agenda = .issue a late :: rest)
    (due : dueEvent s = none) (first : turnOrder { s with agenda := rest, lastCore := a } a late = order) :
    step s = settled 1 (tryIssue a order { s with agenda := rest, lastCore := a }) := by
  rw [step_agenda agenda due, ← first]
  rfl

/-! Events and the default order. -/

theorem step_event {s : State} {k : Nat} {e : Ev} {rest : List Choice} (agenda : s.agenda = .event k :: rest) (due : dueEvent s = none)
    (head : streamHead s.pending k = k) (at_ : s.pending[k]? = some e) :
    step s = settled 1 (exec e.instr { s with agenda := rest, pending := s.pending.eraseIdx k, ev := some e }) := by
  rw [step_agenda agenda due]
  simp only [choiceStep, pendingStep, head, at_]
  rfl

theorem step_due {s : State} {k : Nat} {e : Ev} (due : dueEvent s = some k) (at_ : s.pending[k]? = some e) :
    step s = settled 0 (exec e.instr { s with pending := s.pending.eraseIdx k, ev := some e }) := by
  simp only [step, due, dueStep, at_]

/-- Neither the turn nor the agenda makes an event due. -/
theorem dueEvent_agenda (s : State) (turn : Bool) (agenda : List Choice) : dueEvent { s with turn := turn, agenda := agenda } = dueEvent s := rfl

/-- With nothing chosen from outside, the step is the one that the default choice asks for. -/
theorem step_default {s : State} {c : Choice} (agenda : s.agenda = []) (due : dueEvent s = none) (default : defaultChoice s = c) :
    step s = step { s with turn := !s.turn, agenda := [c] } := by
  rw [step_choice due, agenda, step_agenda (s := { s with turn := !s.turn, agenda := [c] }) rfl due, ← default]

theorem defaultChoice_core {s : State} {a : Nat} (pick : pickCore s = some a) (turn : s.turn = false ∨ s.pending = []) :
    defaultChoice s = .issue a [] := by
  have core : (s.turn && !s.pending.isEmpty) = false := by
    rcases turn with h | h <;> simp [h]
  simp only [defaultChoice, core, pick, Bool.false_eq_true, if_false]

theorem defaultChoice_event {s : State} (some_ : s.pending ≠ []) (turn : s.turn = true ∨ pickCore s = none) :
    defaultChoice s = .event 0 := by
  have pending : s.pending.isEmpty = false := by simpa using some_
  rcases turn with h | h
  · simp [defaultChoice, pending, h]
  · simp only [defaultChoice, pending, h, Bool.false_eq_true, if_false, ite_self]

theorem settle_pending_of_took {s : State} (ev : s.ev = none) (n : Nat) : (settle n s).pending = s.pending := by
  unfold settle
  simp only [ev]
  split <;> rfl

theorem settle_time (n : Nat) (s : State) : (settle n s).time = if s.mgmt.held then s.time else s.time + BitVec.ofNat 64 n := by
  unfold settle
  cases s.ev <;> simp only <;> split <;> rfl

/-- Settles O55: the attempt of the first context decides the step of a core, and the default choice a step that nothing else chooses. -/
theorem aStepRunsTheDecodedInstruction : Obligations.AStepRunsTheDecodedInstruction := by
  refine ⟨?core, fun s k e rest agenda due head at_ => step_event agenda due head at_, fun s k e due at_ => step_due due at_,
    fun s a agenda due pick turn => step_default agenda due (defaultChoice_core pick turn),
    fun s agenda due some_ turn => step_default agenda due (defaultChoice_event some_ turn),
    fun n s => ⟨settle_ev n s, fun ev => settle_pending_of_took ev n, settle_time n s⟩⟩
  case core =>
    intro s u a k rest late tail ws agenda due v w issued back first fetched busy
    have issues {t : State} (made : attempt v a k = .next t) (goes : stalledAt t a k = false) : step s = .next (issued t) := by
      rw [step_issue agenda due first, tryIssue_issued made goes]
      rfl
    have stalls {t : State} (made : attempt v a k = .next t) (stalled : stalledAt t a k = true) (alone : tail = []) :
        step s = .next (settle 1 (back t)) := by
      rw [step_issue agenda due first, alone, tryIssue_last made stalled]
      rfl
    have free {i : Instr} (word : decodeWords ws = .instr i false) (idle : busy i = false) : attempt v a k = exec i u := by
      rw [attempt_instr fetched word]
      exact if_neg (Bool.eq_false_iff.mp idle)
    refine ⟨fun i t word idle ran goes => issues ((free word idle).trans ran) goes,
      fun i t word idle ran stalled alone => stalls ((free word idle).trans ran) stalled alone, fun i word taken stalled alone => stalls ?_ stalled alone,
      fun word goes => issues (attempt_illegal fetched word) goes,
      fun i word open_ may goes => issues (attempt_reserved fetched word open_ may) goes⟩
    rw [attempt_instr fetched word]
    exact if_pos taken

end Sys2Proof.Machine

/-! SUPPORT. O45 (R166, R343 to R347, R352): the copy engine's commands, pieces and completions, and the sync words that count them. -/

namespace Sys2Proof.Machine
set_option Elab.async false

/-! What a copy-engine instruction passes before it is issued (R343). -/

theorem clusterOnly_onCore (i : Instr) {s : State} (core : Rule.onCore s) (go : State → State) : clusterOnly i s go = go s :=
  if_neg (by simpa [isRidge] using core)

theorem actionsCheck_pass (i : Instr) {s : State} {sync fut : Word} (hs : syncCheck s sync = none) (hf : futCheck s.cur.win fut = none)
    (go : State → State) : actionsCheck i s sync fut go = go s := by
  simp only [actionsCheck, hs, hf]

theorem copyIssue_calm (i : Instr) {s : State} (cmd : CeCmd) (free : placeFull s s.curAgent = false) (calm : Rule.calm s) :
    copyIssue i s cmd = done i (cePut (release s s.curAgent .dev) (release s s.curAgent .dev).curAgent
      ⟨issuerOf (release s s.curAgent .dev), cmd, 0, 0⟩) := by
  rw [copyIssue, free, if_neg Bool.false_ne_true, releaseThen_of_releases (releases_dev_of_calm calm)]

theorem exec_cpy_places {o : OX5} {s : State} (h : Ready (.cpy o) s) (core : Rule.onCore s) (short : (s.cur.rG o.c).toNat ≤ 2 ^ 32) (dst : (s.cur.rG o.a).toNat % 4 = 0)
    (src : (s.cur.rG o.b).toNat % 4 = 0) (len : (s.cur.rG o.c).toNat % 4 = 0)
    (apart : rangesMeet (addrPart (s.cur.rG o.a)) (addrPart (s.cur.rG o.b)) (s.cur.rG o.c).toNat = false)
    (own : (s.cur.rG o.c).toNat = 0 ∨ (ownRangeBad s (s.cur.rG o.a) (s.cur.rG o.c).toNat = false ∧
      ownRangeBad s (s.cur.rG o.b) (s.cur.rG o.c).toNat = false))
    (sync : syncCheck s (s.cur.rG o.e) = none) (fut : futCheck s.cur.win (s.cur.rG o.f) = none) :
    exec (.cpy o) s = .next (copyIssue (.cpy o) s (.cpy (s.cur.rG o.a) (s.cur.rG o.b) (s.cur.rG o.c).toNat (s.cur.rG o.e) (s.cur.rG o.f))) := by
  have range (va : Word) (fine : (s.cur.rG o.c).toNat = 0 ∨ ownRangeBad s va (s.cur.rG o.c).toNat = false) :
      ¬ (decide ((s.cur.rG o.c).toNat ≠ 0) && ownRangeBad s va (s.cur.rG o.c).toNat) = true := by
    rcases fine with z | f
    · simp [z]
    · simp [f]
  change execCpy o s = _
  unfold execCpy
  rw [issue_ready h, answer_eq]
  dsimp only
  rw [clusterOnly_onCore _ core, if_neg (Nat.not_lt.mpr short), if_neg (by simp [dst, src, len]), apart, if_neg Bool.false_ne_true,
    if_neg (range _ (own.imp id And.left)), if_neg (range _ (own.imp id And.right)), actionsCheck_pass _ sync fut]

/-- Two records, accepted and held by nothing, are read in turn. -/
theorem loadRecords_two (i : Instr) {s : State} {va vb : Word} {p q : Path} (tainted : Bool)
    (fine : localCheck s (curAcc s) .rd [(va, 64, 64), (vb, 64, 64)] = none) (hp : resolve s (curAcc s) va 64 64 .rd .any = .ok p)
    (hq : resolve s (curAcc s) vb 64 64 .rd .any = .ok q) (ph : pathHold s (curAcc s) p 64 .rd = none)
    (qh : pathHold s (curAcc s) q 64 .rd = none) (go : List Nat → State → State) :
    loadRecords i s [va, vb] tainted go =
      let x := readPath (taintAcquire s tainted) (curAcc s) p 64
      let y := readPath x.2 (curAcc s) q 64
      go [x.1, y.1] y.2 := by
  have fine' : localCheck s (curAcc s) .rd ([va, vb].map fun v => (v, 64, 64)) = none := fine
  have all : accessAll s .rd .any ([va, vb].map fun v => (v, 64, 64)) = .ok [p, q] := by
    simp only [List.map_cons, List.map_nil, accessAll, hp, hq]
  have holds : [p, q].findSome? (fun p => pathHold s (curAcc s) p 64 .rd) = none := by simp [ph, qh]
  unfold loadRecords
  rw [fine', all]
  dsimp only
  rw [holds]
  rfl

/-- CPYT, the checks of its records' shapes in hand (R345). -/
theorem exec_cpyt_places {o : OX5} {s v : State} {a b : Nat} (h : Ready (.cpyt o) s) (core : Rule.onCore s)
    (records : ∀ go, loadRecords (.cpyt o) s [s.cur.rG o.a, s.cur.rG o.b] (s.cur.taintG o.a || s.cur.taintG o.b) go = go [a, b] v)
    (legal : cpytCheck a b (bitsOf (s.cur.rG o.c) 31 0) (bitsOf (s.cur.rG o.c) 63 32) = none)
    (dst : shapeOwnBad v (Shape.parse a) (bitsOf (s.cur.rG o.c) 31 0) = false)
    (src : cpytOwnBad v (Shape.parse a) (Shape.parse b) (bitsOf (s.cur.rG o.c) 31 0) (bitsOf (s.cur.rG o.c) 63 32) = false)
    (sync : syncCheck v (s.cur.rG o.e) = none) (fut : futCheck v.cur.win (s.cur.rG o.f) = none) :
    exec (.cpyt o) s = .next (copyIssue (.cpyt o) v (.cpyt (Shape.parse a) (Shape.parse b) (bitsOf (s.cur.rG o.c) 31 0)
      (bitsOf (s.cur.rG o.c) 63 32) (s.cur.rG o.e) (s.cur.rG o.f))) := by
  change execCpyt o s = _
  unfold execCpyt
  rw [issue_ready h, answer_eq]
  dsimp only
  rw [clusterOnly_onCore _ core, records]
  simp only [List.getD_cons_zero, List.getD_cons_succ, legal, dst, src, Bool.false_eq_true, if_false, actionsCheck_pass _ sync fut]

/-! Pieces (R344, R345). -/

section
variable {s : State} {k : Nat} (ev : s.ev = some (.copyPieceLanded k)) (free : engBlocked s (.copy k) = false)
include ev free

theorem exec_copyPieceLanded_cpy {j n pos : Nat} {iss : Issuer} {dst src sync fut a b fl : Word} {v : Nat} {t u : State}
    (active : (s.clu k).active = some (j, ⟨iss, .cpy dst src n sync fut, pos, fl⟩)) (idle : syncBusy s (iss.acc (.copy k)) sync = false)
    (more : pos < n) (at_ : addAddr src pos = some a) (dest : addAddr dst pos = some b)
    (read : engRead s (iss.acc (.copy k)) a (Nat.min 256 (n - pos)) = .ok (v, t))
    (write : engWrite t (iss.acc (.copy k)) b (Nat.min 256 (n - pos)) v = .ok u) :
    exec .copyPieceLanded s =
      .next (pieceCounted s (cePos u k (pos + Nat.min 256 (n - pos))) k iss sync (Nat.min 256 (n - pos)) 0) := by
  change execCopyPieceLanded s = _
  unfold execCopyPieceLanded
  simp only [ev, active, free, idle, Bool.or_self, Bool.false_eq_true, if_false, Nat.not_le.mpr more, at_, dest, answer_eq]
  rw [show min 256 (n - pos) = Nat.min 256 (n - pos) from rfl, read]
  dsimp only
  rw [write]

theorem exec_copyPieceLanded_cpyt {j dt st pos n b : Nat} {iss : Issuer} {d r : Shape} {sync fut old fl : Word} {t : State}
    (active : (s.clu k).active = some (j, ⟨iss, .cpyt d r dt st sync fut, pos, old⟩)) (idle : syncBusy s (iss.acc (.copy k)) sync = false)
    (piece : cpytPiece s (iss.acc (.copy k)) d r dt st 0 (d.count - pos) pos (bytesBefore d dt pos) = (t, fl, n, b, none)) :
    exec .copyPieceLanded s = .next (pieceCounted s (cePos t k n fl) k iss sync
      (if b % 256 = 0 then (if b = bytesBefore d dt pos then 0 else 256) else b % 256) (if n = d.count then old ||| fl else 0)) := by
  change execCopyPieceLanded s = _
  unfold execCopyPieceLanded
  simp only [ev, active, free, idle, Bool.or_self, Bool.false_eq_true, if_false, piece, answer_eq]

end

theorem pieceCounted_added {s s0 u : State} {k n : Nat} {iss : Issuer} {sync fl : Word} (some_ : n ≠ 0)
    (added : syncAdd s (iss.acc (.copy k)) sync n = .ok u) : pieceCounted s0 s k iss sync n fl = ceKick (joinFlags u iss fl).took k := by
  unfold pieceCounted
  simp only [some_, if_false, added]

/-! Completion (R344, R346). -/

theorem ceComplete_counted (s0 s : State) (k : Nat) (iss : Issuer) (fut : Word) (bytes : Nat) (fin : State → State) :
    ceComplete s0 s k iss 0 0 fut bytes fin = fin (engFuture (joinFlags s iss 0).took iss (.copy k) fut (some bytes) 1) := by
  have none_ : (if bytes = 0 then .ok (joinFlags s iss 0) else syncAdd (joinFlags s iss 0) (iss.acc (.copy k)) 0 bytes : RangeRes State) =
      .ok (joinFlags s iss 0) := by
    split <;> rfl
  unfold ceComplete
  dsimp only
  rw [none_]

section
variable {s : State} {k : Nat} (ev : s.ev = some (.copyComplete k)) (free : engBlocked s (.copy k) = false)
include ev free

theorem exec_copyComplete_cpy {j n pos : Nat} {iss : Issuer} {dst src sync fut fl : Word}
    (active : (s.clu k).active = some (j, ⟨iss, .cpy dst src n sync fut, pos, fl⟩)) (all : n ≤ pos) :
    exec .copyComplete s = .next (ceEnd (engFuture (joinFlags s iss 0).took iss (.copy k) fut (some n) 1) k) := by
  change execCopyComplete s = _
  unfold execCopyComplete
  simp only [ev, free, active, Bool.false_eq_true, if_false, Nat.not_lt.mpr all, ceComplete_counted, answer_eq]

theorem exec_copyComplete_cpyt {j dt st pos : Nat} {iss : Issuer} {d r : Shape} {sync fut fl : Word}
    (active : (s.clu k).active = some (j, ⟨iss, .cpyt d r dt st sync fut, pos, fl⟩)) (all : d.count ≤ pos) :
    exec .copyComplete s =
      .next (ceEnd (engFuture (joinFlags s iss 0).took iss (.copy k) fut (some (bytesBefore d dt d.count)) 1) k) := by
  change execCopyComplete s = _
  unfold execCopyComplete
  simp only [ev, free, active, Bool.false_eq_true, if_false, Nat.not_lt.mpr all, ceComplete_counted, answer_eq]

end

/-! The future of a completed command (R172). -/

/-- What an atomic access reads at a translation home does not depend on what it writes. -/
theorem atomicPath_mem_old (s : State) (x : Acc) (ia pa : Nat) (ty : PType) (disc : Bool) (n : Nat) (sc : Scope) (f g : Nat → Option Nat) :
    (atomicPath s x (.mem ia pa ty disc) n sc f).1 = (atomicPath s x (.mem ia pa ty disc) n sc g).1 := by
  unfold atomicPath
  cases ty <;> dsimp only <;> split_ifs <;> rfl

/-- The answer to a future's waiters, and its continuation list, where it was pending. -/
def futureSettled (w : Who) (p : Path) (st : Nat) (r : Nat × State) : State × Bool :=
  if futState r.1 ≠ 0 then (r.2, false) else
  let u := futureAnswered r.2 p.ia (r.1 % 2 ^ 32 / 4 * 4 + st)
  (completeList u w (st != 1) (listFuel u w.kid) (futClist r.1), true)

theorem resolveFuture_eq (s : State) (x : Acc) (p : Path) (w : Who) (val : Option Nat) (st : Nat) :
    resolveFuture s x p w val st = futureSettled w p st (atomicPath s x p 16 .dev (Rule.resolvedFuture val st)) := by
  have change {F : Nat → Option Nat} (h : ∀ f, F f = Rule.resolvedFuture val st f) :
      atomicPath s x p 16 .dev F = atomicPath s x p 16 .dev (Rule.resolvedFuture val st) := congrArg _ (funext h)
  unfold resolveFuture
  rw [change]
  · generalize atomicPath s x p 16 .dev (Rule.resolvedFuture val st) = r
    obtain ⟨old, t⟩ := r
    rfl
  · intro f
    unfold Rule.resolvedFuture futState
    by_cases h : f % 4 = 0
    · rw [if_pos h, if_neg (not_not.mpr h)]
      cases val <;> rfl
    · rw [if_neg h, if_pos h]

theorem resolveFuture_pending {s : State} {x : Acc} {w : Who} {ia pa : Nat} {ty : PType} {disc : Bool} (val : Option Nat) (st : Nat)
    (pending : (atomicPath s x (.mem ia pa ty disc) 16 .dev fun _ => none).1 % 4 = 0) :
    resolveFuture s x (.mem ia pa ty disc) w val st = (Rule.resolvedBy s x w (.mem ia pa ty disc) val st, true) := by
  have old : futState (atomicPath s x (.mem ia pa ty disc) 16 .dev (Rule.resolvedFuture val st)).1 = 0 := by
    rw [futState, atomicPath_mem_old s x ia pa ty disc 16 .dev _ fun _ => none, pending]
  rw [resolveFuture_eq, futureSettled, if_neg (not_not.mpr old)]
  rfl

theorem engineResolve_mem {s u : State} {i : Issuer} {e : Engine} {ia ia' pa : Nat} {ty : PType} {disc : Bool} {val : Option Nat} {st : Nat}
    (path : resolveIa s (i.acc e) 0 ia .at .future 16 = .ok (.mem ia' pa ty disc))
    (res : resolveFuture s (i.acc e) (.mem ia' pa ty disc) (i.who e) val st = (u, true)) : engineResolve s i e ia val st = u := by
  unfold engineResolve
  simp only [path, res]

theorem engFuture_window {s : State} {i : Issuer} {e : Engine} {fut : Word} {w : Window} (val : Option Nat) (st : Nat) (some_ : fut ≠ 0)
    (window : findWindow i.win (addrPart fut) = some w) : engFuture s i e fut val st = engineResolve s i e (w.ia (addrPart fut)) val st := by
  unfold engFuture
  rw [if_neg some_, window]

theorem engFuture_resolves {s : State} {i : Issuer} {e : Engine} {fut : Word} {ia pa : Nat} {ty : PType} {disc : Bool} {w : Window}
    (val : Option Nat) (st : Nat) (some_ : fut ≠ 0) (window : findWindow i.win (addrPart fut) = some w)
    (path : resolveIa s (i.acc e) 0 (w.ia (addrPart fut)) .at .future 16 = .ok (.mem ia pa ty disc))
    (pending : (atomicPath s (i.acc e) (.mem ia pa ty disc) 16 .dev fun _ => none).1 % 4 = 0) :
    engFuture s i e fut val st = Rule.resolvedBy s (i.acc e) (i.who e) (.mem ia pa ty disc) val st :=
  (engFuture_window val st some_ window).trans (engineResolve_mem path (resolveFuture_pending val st pending))

end Sys2Proof.Machine

/-! SUPPORT. O45 (R172, R346): the resolution of a future leaves every cluster's copy engine as it is. -/

namespace Sys2Proof.Machine
set_option Elab.async false

/-- The command that each cluster's copy engine has in hand, and those that wait. -/
def State.copies (s : State) (k : Nat) : Option (Nat × CeEntry) × List (Nat × CeEntry) := ((s.clu k).active, (s.clu k).places)

section
variable {s t : State}

theorem copies_of_aboveL2 (h : t.aboveL2 = s.aboveL2) : t.copies = s.copies := by
  funext k
  rw [State.copies, clu_of_aboveL2 h k]
  rfl

theorem active_of_copies (h : t.copies = s.copies) (k : Nat) : (t.clu k).active = (s.clu k).active := congrArg Prod.fst (congrFun h k)
theorem places_of_copies (h : t.copies = s.copies) (k : Nat) : (t.clu k).places = (s.clu k).places := congrArg Prod.snd (congrFun h k)

theorem ite_copies {u : State} {p : Prop} {_ : Decidable p} (ht : t.copies = s.copies) (hu : u.copies = s.copies) :
    (if p then t else u : State).copies = s.copies := by
  split <;> assumption

end

section
variable (s : State)

theorem copies_setClu {k : Nat} {c : Cluster} (active : c.active = (s.clu k).active) (places : c.places = (s.clu k).places) :
    (s.setClu k c).copies = s.copies := by
  funext j
  rw [State.copies, State.copies, State.clu_setClu]
  split <;> [(subst_vars; rw [active, places]); rfl]

theorem pendOnce_copies (e : Ev) : (s.pendOnce e).copies = s.copies := by unfold State.pendOnce; split <;> rfl

theorem find?_mapKV {α : Type} (f : Nat → α → α) (m : SMap α) (a : Nat) : SMap.find? (SMap.mapKV f m) a = (SMap.find? m a).map (f a) := by
  induction m with
  | nil => rfl
  | cons q m ih =>
    by_cases h : q.1 = a
    · subst h
      simp [SMap.mapKV, SMap.find?]
    · simpa [SMap.mapKV, SMap.find?, h] using ih

theorem copies_mapKV {f : Nat → Cluster → Cluster} (same : ∀ k c, (f k c).active = c.active ∧ (f k c).places = c.places) :
    ({ s with clusters := s.clusters.mapKV f } : State).copies = s.copies := by
  funext k
  have clu : ({ s with clusters := s.clusters.mapKV f } : State).clu k = ((s.clusters.find? k).map (f k)).getD Cluster.reset :=
    congrArg (·.getD Cluster.reset) (find?_mapKV f s.clusters k)
  rw [State.copies, clu, State.copies, State.clu, SMap.getD]
  cases s.clusters.find? k with
  | none => rfl
  | some c => exact Prod.ext (same k c).1 (same k c).2

/-! L1 and the write-combining buffer. -/

theorem l1Evict_copies (clu line : Nat) : (l1Evict s clu line).copies = s.copies := by
  unfold l1Evict
  split
  · rfl
  next l _ =>
    have entry (t : State) : (dirDrop t clu line).copies = t.copies := by
      unfold dirDrop
      split
      · rfl
      · split <;> rfl
      · rfl
    have home := copies_of_aboveL2 (l2Write_aboveL2 s (frameDie l.pa) line l.pa .seq l.data l.mask)
    have out := copies_of_aboveL2 (outWrite_aboveL2 s (cluDie clu) line l.pa l.ty l.data l.mask)
    refine (copies_setClu _ (by rfl) (by rfl)).trans ((ite_keeps (view := State.copies) (entry _)).trans ?_)
    split
    · rfl
    · split <;> [exact home; exact out]

theorem l1Place_copies (clu line : Nat) : (l1Place s clu line).2.copies = s.copies := by
  unfold l1Place
  dsimp only
  split
  · split <;> [exact l1Evict_copies _ _ _; rfl]
  · rfl

theorem l1Fill_copies (clu line pa : Nat) (ty : PType) : (l1Fill s clu line pa ty).2.copies = s.copies := by
  unfold l1Fill
  split
  · rfl
  · exact (copies_setClu _ (by rfl) (by rfl)).trans ((copies_of_aboveL2 (outRead_aboveL2 _ _ line pa ty)).trans (l1Place_copies s clu line))

theorem l1Write_copies (clu line pa : Nat) (ty : PType) (dat : Line) (m : Mask) : (l1Write s clu line pa ty dat m).copies = s.copies :=
  (copies_setClu _ (by rfl) (by rfl)).trans (l1Fill_copies s clu line pa ty)

theorem wcbEvict_copies (a line : Nat) : (wcbEvict s a line).copies = s.copies := by
  unfold wcbEvict
  split <;> [rfl; exact l1Write_copies _ _ _ _ _ _ _]

theorem wcbStore_copies (a line pa : Nat) (ty : PType) (dat : Line) (m : Mask) : (wcbStore s a line pa ty dat m).copies = s.copies := by
  unfold wcbStore
  dsimp only
  split
  · rfl
  · split
    · rfl
    · split <;> [exact wcbEvict_copies s a _; rfl]

theorem pushL1_copies (clu : Nat) (sc : Scope) (want : Nat → Bool) : (pushL1 s clu sc want).copies = s.copies := by
  refine foldl_keeps (fun t q => ?_) _ s
  dsimp only
  split
  · rfl
  · exact (copies_setClu _ (by rfl) (by rfl)).trans (copies_of_aboveL2 (outWrite_aboveL2 t _ q.1 q.2.pa q.2.ty q.2.data q.2.mask))

theorem dropL1_copies (clu : Nat) (sc : Scope) (want : Nat → Bool) : (dropL1 s clu sc want).copies = s.copies := by
  refine foldl_keeps (fun t q => ?_) _ s
  dsimp only
  split
  · rfl
  · split
    · exact copies_setClu _ (by rfl) (by rfl)
    · exact (copies_setClu _ (by rfl) (by rfl)).trans (copies_of_aboveL2 (outRead_aboveL2 t _ q.1 q.2.pa q.2.ty))

theorem dropTo_copies (a : Nat) (sc : Scope) (bump : Bool) (want : Nat → Bool) : (dropTo s a sc bump want).copies = s.copies := by
  unfold dropTo
  refine (ite_keeps (view := State.copies) (dropL1_copies _ _ sc want)).trans ?_
  split <;> split <;> rfl

theorem pushTo_copies (a : Nat) (sc : Scope) (want : Nat → Bool) : (pushTo s a sc want).copies = s.copies := by
  have below (t : State) : (if Scope.ge sc .sys then pushPages (if Scope.ge sc .dev then pushL2 t (agentDie a) sc want else t) want
      else if Scope.ge sc .dev then pushL2 t (agentDie a) sc want else t : State).copies = t.copies := by
    refine (ite_keeps (view := State.copies) (copies_of_aboveL2 (congrArg Prod.fst (pushPages_aboveStacks _ want)))).trans ?_
    exact ite_keeps (copies_of_aboveL2 (pushL2_aboveL2 t _ sc want))
  refine (below _).trans ?_
  split
  · rfl
  · exact (ite_keeps (view := State.copies) (pushL1_copies _ _ sc want)).trans
      (ite_keeps (view := State.copies) (foldl_keeps (fun t (e : WcbEntry) => wcbEvict_copies t a e.line) _ s))

theorem acquire_copies (a : Nat) (sc : Scope) : (acquire s a sc).copies = s.copies := dropTo_copies s a sc true _

theorem pushLine_copies (a line : Nat) (sc : Scope) : (pushLine s a line sc).copies = s.copies :=
  (dropTo_copies _ a sc false _).trans (pushTo_copies s a sc _)

theorem relRead_copies (x : Acc) (line pa : Nat) (ty : PType) : (relRead s x line pa ty).2.copies = s.copies := by
  unfold relRead
  split
  · exact copies_of_aboveL2 (outRead_aboveL2 s _ line pa ty)
  · dsimp only
    split <;> exact l1Fill_copies s _ line pa ty

theorem dirClear_copies (line : Nat) : (dirClear s line).copies = s.copies := by
  have back (j : Nat) : (dirRecall s j line false).copies = s.copies := by
    unfold dirRecall
    split
    · rfl
    next l _ => exact (copies_setClu _ (by rfl) (by rfl)).trans (copies_of_aboveL2 (l2Write_aboveL2 s (frameDie l.pa) line l.pa .seq l.data l.mask))
  unfold dirClear
  dsimp only
  split
  · exact foldl_keeps (view := State.copies) (fun t k => copies_setClu t (by rfl) (by rfl)) _ s
  · exact back _
  · rfl

/-! Watchpoints (R225). -/

theorem withdraw_copies (a k : Nat) : (withdraw s a k).copies = s.copies :=
  (copies_mapKV s (by intro _ _; exact ⟨rfl, rfl⟩) : (dropWaits s a k).copies = s.copies)

theorem haltCore_copies (a : Nat) : (haltCore s a).copies = s.copies :=
  foldl_keeps (fun t k => withdraw_copies t a k) _ _

theorem haltGroup_copies (die g : Nat) (on : Bool) : (haltGroup s die g on).copies = s.copies := by
  refine (foldl_keeps (view := State.copies) (fun t q => ?_) _ _).trans (foldl_keeps (view := State.copies) (fun t q => ?_) _ s)
  · have unit (f : Cluster → Cluster) (same : ∀ c, (f c).active = c.active ∧ (f c).places = c.places) (k : Nat) :
        (t.modClu k f).copies = t.copies := copies_setClu t (same _).1 (same _).2
    have matrix := unit (fun c => { c with haltMx := arrayHalt c on }) fun _ => ⟨rfl, rfl⟩
    have copy := unit (fun c => { c with haltCe := on }) fun _ => ⟨rfl, rfl⟩
    have walk := unit (fun c => { c with haltTw := on }) fun _ => ⟨rfl, rfl⟩
    exact ite_copies rfl (ite_copies (ite_copies rfl rfl) (ite_copies rfl (ite_copies (matrix _) (ite_copies (copy _)
      (ite_copies (walk _) (ite_copies rfl rfl))))))
  · split <;> [exact haltCore_copies t q.1; rfl]

theorem watch_copies (x : Acc) (ia : Nat) (k : AKind) (bytes : Nat) : (watch s x ia k bytes).copies = s.copies := by
  refine foldl_keeps (view := State.copies) (fun t n => ?_) _ s
  dsimp only
  split
  · rfl
  · exact (ite_keeps (view := State.copies) (haltGroup_copies _ _ _ _)).trans rfl

theorem accepted_copies (x : Acc) (p : Path) (k : AKind) : (accepted s x p k).copies = s.copies := by
  have leaf (ia : Nat) : (cacheLeaf s ia).copies = s.copies := by
    unfold cacheLeaf
    split
    · rfl
    · split <;> rfl
  unfold accepted
  split <;> [exact (watch_copies _ x _ k 1).trans (leaf _); rfl]

/-! Atomic accesses at a translation home, and the list behind a future (R172). -/

theorem atomicPath_mem_copies (x : Acc) (ia pa : Nat) (ty : PType) (disc : Bool) (n : Nat) (sc : Scope) (f : Nat → Option Nat) :
    (atomicPath s x (.mem ia pa ty disc) n sc f).2.copies = s.copies := by
  refine Eq.trans ?_ (accepted_copies s x (.mem ia pa ty disc) .at)
  unfold atomicPath
  generalize accepted s x (.mem ia pa ty disc) .at = t
  have fill (u : State) (k : PType) : (l2Fill u (frameDie pa) (ia / 64) pa k).2.copies = u.copies := copies_of_aboveL2 (l2Fill_aboveL2 u _ _ pa k)
  have write (u : State) (k : PType) (d : Line) (m : Mask) : (l2Write u (frameDie pa) (ia / 64) pa k d m).copies = u.copies :=
    copies_of_aboveL2 (l2Write_aboveL2 u _ _ pa k d m)
  have sark (u : State) (d : Line) (m : Mask) : (sarkUpdate u (agentDie x.agent) (ia / 64) d m).copies = u.copies :=
    copies_of_aboveL2 (sarkUpdate_aboveL2 u _ _ d m)
  have phys (u : State) (d : Line) (m : Mask) : (physWrite u pa d m).copies = u.copies := copies_of_aboveL2 (physWrite_aboveL2 u pa d m)
  have thatch := pushLine_copies t x.agent (ia / 64) .dev
  have near := relRead_copies t x (ia / 64) pa ty
  cases ty with
  | seq =>
    dsimp only
    split <;> [exact (write _ _ _ _).trans ((fill _ _).trans (dirClear_copies t _)); exact (fill _ _).trans (dirClear_copies t _)]
  | wso => rfl
  | prv =>
    dsimp only
    split
    · split <;> [exact (phys _ _ _).trans ((sark _ _ _).trans thatch); exact (sark _ _ _).trans thatch]
    · split <;> [exact (wcbStore_copies _ _ _ _ _ _ _).trans near; exact near]
  | rel =>
    dsimp only
    generalize (if (isRidge x.agent && !Scope.ge sc .dev) = true then Scope.die else sc) = wide
    split
    · split <;> [exact (phys _ _ _).trans ((sark _ _ _).trans thatch); exact (sark _ _ _).trans thatch]
    · split
      · split
        · split
          · exact (write _ _ _ _).trans ((fill _ _).trans (pushLine_copies t _ _ _))
          · exact (fill _ _).trans (pushLine_copies t _ _ _)
        · split <;> [exact (phys _ _ _).trans ((sark _ _ _).trans thatch); exact (sark _ _ _).trans thatch]
      · split
        · have l1 := (l1Fill_copies _ (agentClu x.agent) (ia / 64) pa .rel).trans (wcbEvict_copies t x.agent (ia / 64))
          split <;> [exact (l1Write_copies _ _ _ _ _ _ _).trans l1; exact l1]
        · split <;> [exact (wcbStore_copies _ _ _ _ _ _ _).trans near; exact near]

theorem askOwn_copies (x : Acc) (page : Nat) : (askOwn s x page).copies = s.copies :=
  ite_copies rfl (pendOnce_copies s _)

theorem whoRecord_copies (w : Who) (code sub : BitVec 8) (va ia : Word) (pa : Nat) : (Who.record w s code sub va ia pa).copies = s.copies := by
  unfold Who.record State.record State.sendPacket
  split <;> rfl

omit s in
/-- A continuation record lies at a translation home. -/
theorem mem_of_recordPath {s : State} {kid : BitVec 16} {i : Nat} {p : Path} (h : recordPath s kid i = .ok p) :
    ∃ ia pa ty disc, p = .mem ia pa ty disc := by
  unfold recordPath at h
  dsimp only at h
  split at h
  · cases h
  · exact ⟨_, _, _, _, (Except.ok.inj h).symm⟩
  · cases h

theorem completeLink_copies (w : Who) (link : Nat) (bad : Bool) : (completeLink s w link bad).1.copies = s.copies := by
  unfold completeLink
  dsimp only
  split
  next p found =>
    obtain ⟨ia, pa, ty, disc, rfl⟩ := mem_of_recordPath found
    exact ite_copies (atomicPath_mem_copies s _ ia pa ty disc _ _ _) (atomicPath_mem_copies s _ ia pa ty disc _ _ _)
  · rfl
  · rfl
  · exact askOwn_copies s _ _
  · exact whoRecord_copies s w _ _ _ _ _
  · rfl

theorem completeList_copies (w : Who) (bad : Bool) (n link : Nat) : (completeList s w bad n link).copies = s.copies := by
  induction n generalizing s link with
  | zero => rfl
  | succ n ih =>
    have one := completeLink_copies s w link bad
    unfold completeList
    split
    · rfl
    · dsimp only
      split
      next t e => rw [e] at one; exact (ih t _).trans one
      next t e => rw [e] at one; exact one

theorem futureAnswered_copies (ia : Word) (st : Nat) : (futureAnswered s ia st).copies = s.copies := by
  refine foldl_keeps (view := State.copies) (fun t q => foldl_keeps (view := State.copies) (fun u k => ?_) _ t) _ s
  split
  · exact ite_copies (acquire_copies u q.1 .dev) rfl
  · rfl

theorem resolveFuture_mem_copies (x : Acc) (ia pa : Nat) (ty : PType) (disc : Bool) (w : Who) (val : Option Nat) (st : Nat) :
    (resolveFuture s x (.mem ia pa ty disc) w val st).1.copies = s.copies := by
  have change := atomicPath_mem_copies s x ia pa ty disc 16 .dev (Rule.resolvedFuture val st)
  rw [resolveFuture_eq, futureSettled]
  split
  · exact change
  · exact (completeList_copies _ w _ _ _).trans ((futureAnswered_copies _ _ _).trans change)

theorem engineResolve_copies (i : Issuer) (e : Engine) (ia : Nat) (val : Option Nat) (st : Nat) : (engineResolve s i e ia val st).copies = s.copies := by
  unfold engineResolve
  dsimp only
  split
  next fa pa ty disc _ =>
    have change := resolveFuture_mem_copies s (i.acc e) fa pa ty disc (i.who e) val st
    split
    next t r => rw [r] at change; exact change
    next t r => rw [r] at change; exact (whoRecord_copies t _ _ _ _ _ _).trans change
  · exact whoRecord_copies s _ _ _ _ _ _
  · exact whoRecord_copies s _ _ _ _ _ _
  · exact whoRecord_copies s _ _ _ _ _ _
  · rfl
  · exact askOwn_copies s _ _
  · rfl

theorem engFuture_copies (i : Issuer) (e : Engine) (fut : Word) (val : Option Nat) (st : Nat) : (engFuture s i e fut val st).copies = s.copies := by
  unfold engFuture
  split
  · rfl
  · split <;> [rfl; exact engineResolve_copies s i e _ val st]

end

end Sys2Proof.Machine

/-! SUPPORT. O45 (R346, R347, R352): the fault of a copy engine, sync words, and the engine's status. -/

namespace Sys2Proof.Machine
set_option Elab.async false

/-! The fields of a packet in its message (R208). -/

section
variable (p : Packet)

theorem code_bits : p.bits.extractLsb' 0 8 = p.code := by
  refine BitVec.eq_of_getLsbD_eq fun i h => ?_
  simp only [BitVec.getLsbD_extractLsb', h, decide_true, Bool.true_and, Packet.bits, BitVec.getLsbD_append, Nat.zero_add, if_true]

theorem noctx_bits : p.bits.getLsbD 31 = p.noctx := by
  simp only [Packet.bits, BitVec.getLsbD_append, Nat.reduceLT, Nat.reduceSub, if_false, if_true, BitVec.getLsbD_ofBool]
  simp

theorem task_bits : p.bits.extractLsb' 32 32 = p.task := by
  refine BitVec.eq_of_getLsbD_eq fun i h => ?_
  have h1 : ¬ 32 + i < 8 := by omega
  have h2 : ¬ 32 + i - 8 < 8 := by omega
  have h3 : ¬ 32 + i - 8 - 8 < 8 := by omega
  have h4 : ¬ 32 + i - 8 - 8 - 8 < 3 := by omega
  have h5 : ¬ 32 + i - 8 - 8 - 8 - 3 < 4 := by omega
  have h6 : ¬ 32 + i - 8 - 8 - 8 - 3 - 4 < 1 := by omega
  have h7 : 32 + i - 8 - 8 - 8 - 3 - 4 - 1 = i := by omega
  simp only [BitVec.getLsbD_extractLsb', h, decide_true, Bool.true_and, Packet.bits, BitVec.getLsbD_append, h1, h2, h3, h4, h5, h6, h7, if_false, if_true]

end

/-- A sent packet is pending in a message that carries its code, its context flag and its task. -/
theorem sendPacket_packet (s : State) (a : Nat) (p : Packet) (pa : Nat) :
    ∃ (m : Msg) (q : Packet), Ev.faultPacketArrive m ∈ (s.sendPacket a p pa).pending ∧ m.payload.setWidth 512 = q.bits ∧ q.code = p.code ∧
      q.noctx = p.noctx ∧ q.task = p.task := by
  have back (q : Packet) : (q.bits.setWidth 960).setWidth 512 = q.bits := by
    rw [BitVec.setWidth_setWidth_of_le _ (by decide), BitVec.setWidth_eq]
  unfold State.sendPacket
  split
  · exact ⟨_, { p with va := 0, ia := 0 }, List.mem_append_left _ (List.mem_append_right _ (List.mem_singleton.mpr rfl)), back _, rfl, rfl, rfl⟩
  · exact ⟨_, p, List.mem_append_right _ (List.mem_singleton.mpr rfl), back _, rfl, rfl, rfl⟩

/-- A record of a command is a pending packet with its code and task and no context (R208). -/
theorem commandRecord_packet (s : State) (i : Issuer) (e : Engine) (p : Packet) :
    ∃ m : Msg, Ev.faultPacketArrive m ∈ (commandRecord s i e p).pending ∧ (Packet.ofBits (m.payload.setWidth 512)).code = p.code ∧
      (Packet.ofBits (m.payload.setWidth 512)).noctx = true ∧ (Packet.ofBits (m.payload.setWidth 512)).task = i.task := by
  obtain ⟨m, q, pending, payload, code, noctx, task⟩ := sendPacket_packet s i.agent
    { engPacket s i e { code := p.code, sub := p.sub, info := p.info, va := p.va, ia := p.ia } with insn := 0 } (packetAt p)
  refine ⟨m, pending, ?_⟩
  rw [payload]
  exact ⟨(code_bits q).trans code, (noctx_bits q).trans noctx, (task_bits q).trans task⟩

/-! An engine fault ends the command in hand (R347, R352). -/

theorem commandRecord_copies (s : State) (i : Issuer) (e : Engine) (p : Packet) : (commandRecord s i e p).copies = s.copies := by
  unfold commandRecord State.sendPacket
  dsimp only
  split <;> rfl

theorem arrayPass_copies (s : State) (k : Nat) : (arrayPass s k).copies = s.copies := by
  unfold arrayPass
  dsimp only
  split <;> [rfl; exact copies_setClu s (by rfl) (by rfl)]

@[simp] theorem clu_pendOnce (s : State) (e : Ev) (k : Nat) : (s.pendOnce e).clu k = s.clu k := by unfold State.pendOnce; split <;> rfl

/-- An engine with no command in hand takes the first that waits. -/
theorem ceKick_active {s : State} {k : Nat} (idle : (s.clu k).active = none) : ((ceKick s k).clu k).active = (s.clu k).places.head? := by
  unfold ceKick
  rw [idle]
  cases waiting : (s.clu k).places with
  | nil =>
    dsimp only
    split <;> [exact (congrArg Cluster.active (clu_pendOnce _ _ _)).trans idle; exact idle]
  | cons p t =>
    have taken : ((s.modClu k fun c => { c with active := some p, places := t }).clu k).active = some p := by
      rw [State.modClu_eq, State.clu_setClu_same]
    dsimp only
    split <;> [exact (congrArg Cluster.active (clu_pendOnce _ _ _)).trans taken; exact taken]

theorem ceEnd_active (s : State) (k : Nat) : ((ceEnd s k).clu k).active = (s.clu k).places.head? := by
  have free : (s.modClu k fun c => { c with active := none }).clu k = { s.clu k with active := none } := by
    rw [State.modClu_eq, State.clu_setClu_same]
  rw [ceEnd, ceKick_active (by rw [free]), free]

theorem exec_engineFault_cpy {s : State} {k j n pos : Nat} {iss : Issuer} {dst src sync fut fl : Word} {p : Packet}
    (ev : s.ev = some (.engineFault (.copy k) p)) (active : (s.clu k).active = some (j, ⟨iss, .cpy dst src n sync fut, pos, fl⟩))
    (task : iss.task = p.task) : exec .engineFault s =
      .next (commandRecord (arrayPass (ceEnd ((engFuture s.took iss (.copy k) fut none 2).modClu k id) k) k) iss (.copy k) p) := by
  have active' : (s.took.clu k).active = some (j, ⟨iss, .cpy dst src n sync fut, pos, fl⟩) := active
  have same (c : Cluster) : ({ c with stgerr := c.stgerr || false, cmds := c.cmds } : Cluster) = c := by rw [Bool.or_false]
  change execEngineFault s = _
  unfold execEngineFault
  simp only [ev, active', task, ne_eq, not_true_eq_false, if_false, answer_eq, ceFut, same]
  rfl

/-- The next command is one that waited at the engine. -/
theorem engineFault_active (s : State) (k : Nat) (iss : Issuer) (e : Engine) (fut : Word) (p : Packet) (q : Nat × CeEntry)
    (active : ((commandRecord (arrayPass (ceEnd ((engFuture s.took iss e fut none 2).modClu k id) k) k) iss e p).clu k).active = some q) :
    q ∈ (s.clu k).places := by
  have future : (engFuture s.took iss e fut none 2).copies = s.copies := engFuture_copies s.took iss e fut none 2
  rw [active_of_copies ((commandRecord_copies _ iss e p).trans (arrayPass_copies _ k)), ceEnd_active, State.modClu_eq, State.clu_setClu_same, id,
    places_of_copies future] at active
  exact List.mem_of_head? active

/-! Sync words (R346). -/

section
variable (s : State) (b : Nat)

theorem pubNote_spad (a i n : Nat) (m : Mask) (dat : Line) : ((pubNote s a i n m dat).core b).spad = (s.core b).spad := by
  have noted (o : List PubPend) : ((s.setCore a { s.core a with pubPend := o }).core b).spad = (s.core b).spad := by
    rw [State.core_setCore]
    split <;> [(subst_vars; rfl); rfl]
  unfold pubNote
  dsimp only
  split
  · split <;> exact noted _
  · exact noted _

theorem spWrite_spad (off n x : Nat) : ((spWrite s b off n x).core b).spad = (s.core b).spad.writeNat off n x := by
  have put : ((s.setCore b { s.core b with spad := (s.core b).spad.writeNat off n x }).core b).spad = (s.core b).spad.writeNat off n x := by
    rw [State.core_setCore_same]
  unfold spWrite
  refine (foldl_keeps (view := fun t => (t.core b).spad) (fun t i => pubNote_spad t b b i _ _ _) _ _).trans ?_
  split <;> exact put

theorem release_spad (a : Nat) (sc : Scope) : ((release s a sc).core b).spad = (s.core b).spad := by
  have evict (t : State) (line : Nat) : ((wcbEvict t a line).core b).spad = (t.core b).spad := by
    unfold wcbEvict
    split
    · rfl
    · rw [core_of_agents (wcbDrainOne_agents _ a _), State.modCore_eq, State.core_setCore]
      split <;> [(subst_vars; rfl); rfl]
  rw [core_of_agents (agents_of_aboveL2 (release_aboveL2 s a sc))]
  split
  · rfl
  · rw [core_of_agents (releaseL1_agents _ a sc)]
    exact ite_keeps (view := fun t => (t.core b).spad) (foldl_keeps (view := fun t => (t.core b).spad) (fun t (e : WcbEntry) => evict t e.line) _ s)

end

theorem syncForm_ok (i : Instr) {s : State} {va b : Word} {k : AKind} {a off : Nat} (path : syncPath s (curAcc s) va k = .ok (a, off))
    (small : b.toNat < 2 ^ 32) (go : Nat → Nat → State → State) : syncForm i s va b k false go = go a off s := by
  have high : bitsOf b 63 32 = 0 := by unfold bitsOf; omega
  unfold syncForm
  simp only [path, high, ne_eq, not_true_eq_false, if_false, taintAcquire, Bool.false_eq_true]

theorem bitsOf_low {b : Word} (small : b.toNat < 2 ^ 32) : bitsOf b 31 0 = b.toNat := by unfold bitsOf; omega

theorem exec_syncwait {o : OSyncw} {s : State} {a off : Nat} (h : Ready (.syncwait o) s)
    (path : syncPath s (curAcc s) (s.cur.rG o.a) .rd = .ok (a, off)) (clean : s.cur.taintG o.a = false) (small : (s.cur.rG o.b).toNat < 2 ^ 32)
    (whole : syncBroken s a off = false) : exec (.syncwait o) s = .next (
      if Rule.syncWord s a off / 2 ^ 64 % 2 ^ 32 = (s.cur.rG o.b).toNat then waitFor s (.sync a off) (s.cur.rG o.c).toNat
      else (acquire s s.curAgent o.scope).setCur (((acquire s s.curAgent o.scope).cur.wG o.d
        (BitVec.ofNat 64 (Rule.syncWord s a off / 2 ^ 64 % 2 ^ 32))).past (.syncwait o))) := by
  change execSyncwait o s = _
  unfold execSyncwait
  rw [issue_ready h, answer_eq]
  dsimp only
  rw [clean, syncForm_ok _ path small, whole, if_neg Bool.false_ne_true, bitsOf_low small]
  rfl

theorem exec_syncadd {o : OSynca} {s : State} {a off : Nat} (h : Ready (.syncadd o) s)
    (path : syncPath s (curAcc s) (s.cur.rG o.a) .at = .ok (a, off)) (clean : s.cur.taintG o.a = false) (small : (s.cur.rG o.b).toNat < 2 ^ 32)
    (free : Rule.releases s o.scope) : exec (.syncadd o) s = .next (done (.syncadd o) (spWrite (release s s.curAgent o.scope) a off 16
      (syncAddVal (Rule.syncWord s a off) (s.cur.rG o.b).toNat))) := by
  change execSyncadd o s = _
  unfold execSyncadd
  rw [issue_ready h, answer_eq]
  dsimp only
  rw [clean, syncForm_ok _ path small, releaseThen_of_releases free, bitsOf_low small, release_spad]
  rfl

/-! The addition to a sync word. -/

theorem swPack_fields (target count gen flags : Nat) (ht : target < 2 ^ 32) (hc : count < 2 ^ 32) (hg : gen < 2 ^ 32) :
    swPack target count gen flags % 2 ^ 32 = target ∧ swPack target count gen flags / 2 ^ 32 % 2 ^ 32 = count ∧
      swPack target count gen flags / 2 ^ 64 % 2 ^ 32 = gen := by
  unfold swPack
  omega

theorem swPack_lt {target count gen flags : Nat} (ht : target < 2 ^ 32) (hc : count < 2 ^ 32) (hg : gen < 2 ^ 32) (hf : flags < 2 ^ 32) :
    swPack target count gen flags < 2 ^ 128 := by
  unfold swPack
  omega

theorem swFlags_lt (w : Nat) : swFlags w < 2 ^ 32 := Nat.mod_lt _ (by decide)

theorem syncAddVal_lt (w n : Nat) : syncAddVal w n < 2 ^ 128 := by
  have target : swTarget w < 2 ^ 32 := Nat.mod_lt _ (by decide)
  have gen : swGen w < 2 ^ 32 := Nat.mod_lt _ (by decide)
  have flags (f : Nat) (hf : f < 2 ^ 32) : swFlags w ||| f < 2 ^ 32 := Nat.or_lt_two_pow (swFlags_lt w) hf
  unfold syncAddVal
  dsimp only
  split
  · refine swPack_lt (by decide) (Nat.mod_lt _ (by decide)) gen ?_
    split <;> [exact flags 2 (by decide); exact swFlags_lt w]
  · split
    · exact swPack_lt target (by omega) gen (swFlags_lt w)
    · refine swPack_lt target (Nat.mod_lt _ (by decide)) (Nat.mod_lt _ (by decide)) ?_
      split <;> [exact flags 1 (by decide); exact swFlags_lt w]

/-- Below the target the count grows. -/
theorem syncAddVal_counts {w n : Nat} (hw : w < 2 ^ 128) (target : 0 < w % 2 ^ 32) (below : w / 2 ^ 32 % 2 ^ 32 + n < w % 2 ^ 32) :
    syncAddVal w n = w + n * 2 ^ 32 := by
  have hc : swCount w = w / 2 ^ 32 % 2 ^ 32 := rfl
  have ht : swTarget w = w % 2 ^ 32 := rfl
  have hg : swGen w = w / 2 ^ 64 % 2 ^ 32 := rfl
  have hf : swFlags w = w / 2 ^ 96 % 2 ^ 32 := rfl
  unfold syncAddVal
  dsimp only
  rw [if_neg (by omega), if_pos (by omega)]
  unfold swPack
  omega

/-- At the target the generation steps and the rest is counted on. -/
theorem syncAddVal_reaches {w n : Nat} (target : 0 < w % 2 ^ 32) (reach : w % 2 ^ 32 ≤ w / 2 ^ 32 % 2 ^ 32 + n) :
    syncAddVal w n / 2 ^ 32 % 2 ^ 32 = (w / 2 ^ 32 % 2 ^ 32 + n - w % 2 ^ 32) % 2 ^ 32 ∧
      syncAddVal w n / 2 ^ 64 % 2 ^ 32 = (w / 2 ^ 64 + 1) % 2 ^ 32 ∧ syncAddVal w n % 2 ^ 32 = w % 2 ^ 32 := by
  have hc : swCount w = w / 2 ^ 32 % 2 ^ 32 := rfl
  have ht : swTarget w = w % 2 ^ 32 := rfl
  have hg : swGen w = w / 2 ^ 64 % 2 ^ 32 := rfl
  unfold syncAddVal
  dsimp only
  rw [if_neg (by omega), if_neg (by omega)]
  obtain ⟨low, count, gen⟩ := swPack_fields (swTarget w) ((swCount w + n - swTarget w) % 2 ^ 32) ((swGen w + 1) % 2 ^ 32)
    (if swTarget w < swCount w + n then swFlags w ||| 1 else swFlags w) (by omega) (by omega) (by omega)
  rw [low, count, gen]
  omega

end Sys2Proof.Machine

/-! SUPPORT. O45: the clauses together. -/

namespace Sys2Proof.Machine
set_option Elab.async false

/-- An instruction that completes on a state with the same tasks moves the PC of its context alone. -/
theorem onlyG_done (i : Instr) {s t : State} (same : t.tasks = s.tasks) (lt : s.curCtx < 8) (d : Reg) : Rule.onlyG i s (done i t) d := by
  have cur : (done i t).cur = t.cur.past i := cur_done i ((curCtx_of_tasks same).trans_lt lt)
  have still := cur_of_tasks same
  rw [Rule.onlyG, cur]
  exact ⟨fun r _ => (congrArg (fun c : Ctx => c.rG r) still :), fun r => (congrArg (fun c : Ctx => c.rV r) still :),
    (congrArg (fun c : Ctx => c.flags) still :), (congrArg (fun c : Ctx => c.pc + BitVec.ofNat 64 (Instr.bytes i)) still :)⟩

theorem syncadd_effect (o : OSynca) (s : State) (a off n : Nat) (lt : s.curCtx < 8) :
    let t := done (.syncadd o) (spWrite (release s s.curAgent o.scope) a off 16 (syncAddVal (Rule.syncWord s a off) n))
    Rule.onlyG (.syncadd o) s t 0 ∧ Rule.syncWord t a off = syncAddVal (Rule.syncWord s a off) n ∧
      ∀ b, b < off ∨ off + 16 ≤ b → (t.core a).spad.read b = (s.core a).spad.read b := by
  intro t
  have spad : (t.core a).spad = (s.core a).spad.writeNat off 16 (syncAddVal (Rule.syncWord s a off) n) := by
    rw [show t = done _ _ from rfl, done, State.setCur_eq, State.core_setCtx_spad, spWrite_spad, release_spad]
  refine ⟨onlyG_done _ ((spWrite_tasks _ a off 16 _).trans (release_tasks s _ _)) lt 0, ?_, fun b hb => ?_⟩
  · rw [Rule.syncWord, spad, Mem.readNat_writeNat]
    exact Nat.mod_eq_of_lt (syncAddVal_lt _ _)
  · rw [spad, Mem.read_writeNat_outside _ _ _ _ _ hb]

/-! The status (R346). -/

/-- The word that CESTAT reads. -/
def ceStat (c : Cluster) : Nat :=
  (List.range 8).foldl (fun a j => a + (c.places.any fun p => p.1 == j).toNat * 2 ^ j) 0 * 2 ^ 40 + c.active.isSome.toNat * 2 ^ 39 +
    (match c.active with | some (j, _) => j | none => 0) * 2 ^ 36 + ceDone c % 2 ^ 32

theorem exec_cestat {o : ORd} {s : State} (h : Ready (.cestat o) s) (core : Rule.onCore s) :
    exec (.cestat o) s = .next (done (.cestat o) (landG s o.d (ceStat (s.clu (Rule.here s))))) := by
  change execCestat o s = _
  unfold execCestat
  rw [issue_ready h, answer_eq, clusterOnly_onCore _ core]
  rfl

theorem ceStat_fields {c : Cluster} (inCore : ∀ q, c.active = some q → q.1 < 8) :
    ceStat c % 2 ^ 32 = ceDone c % 2 ^ 32 ∧ (ceStat c / 2 ^ 39 % 2 = 1 ↔ c.active.isSome = true) := by
  unfold ceStat
  generalize List.foldl _ _ _ = places
  cases active : c.active with
  | none =>
    refine ⟨?_, iff_of_false ?_ Bool.false_ne_true⟩
    · omega
    · rw [Option.isSome_none, Bool.toNat_false]; dsimp only; omega
  | some q =>
    have small := inCore q active
    refine ⟨?_, iff_of_true ?_ rfl⟩
    · dsimp only; omega
    · rw [Option.isSome_some, Bool.toNat_true]; dsimp only; omega

/-- Settles O45: each clause is the equation of its instruction or event, and what the written state then holds. -/
theorem copiesMoveAndCount : Obligations.CopiesMoveAndCount := by
  refine ⟨?cpy, ?cpyt, ?piece, ?elements, fun s s0 u k n iss sync fl some_ added => pieceCounted_added some_ added, ?copied, ?reshaped, ?future, ?fault,
    ?wait, ?add, fun w n hw _ => ⟨syncAddVal_counts hw, syncAddVal_reaches⟩, ?status⟩
  case cpy =>
    intro o s h core calm free dst src n short hd hs hn apart own sync fut u
    rw [exec_cpy_places h core short hd hs hn apart own sync fut, copyIssue_calm _ _ free calm]
  case cpyt =>
    intro o s p q h core fine hp hq ph qh s1 x y v dt st d r u legal dst src sync fut free calm
    rw [exec_cpyt_places h core (loadRecords_two _ _ fine hp hq ph qh) legal dst src sync fut, copyIssue_calm _ _ free calm]
  case piece =>
    intro s k j n pos iss dst src sync fut a b fl v t u ev active free idle more at_ dest m read write
    exact exec_copyPieceLanded_cpy ev free active idle more at_ dest read write
  case elements =>
    intro s k j dt st pos n b iss d r sync fut old fl t ev active free idle a piece
    exact exec_copyPieceLanded_cpyt ev free active idle piece
  case copied =>
    intro s k j n pos iss dst src sync fut fl ev active free all
    exact exec_copyComplete_cpy ev free active all
  case reshaped =>
    intro s k j dt st pos iss d r sync fut fl ev active free all
    exact exec_copyComplete_cpyt ev free active all
  case future =>
    intro s i e fut val st ia pa ty disc w some_ window path pending
    exact engFuture_resolves val st some_ window path pending
  case fault =>
    intro s k j n pos iss dst src sync fut fl p ev active task
    exact ⟨_, exec_engineFault_cpy ev active task, rfl, engineFault_active s k iss (.copy k) fut p, commandRecord_packet _ iss _ p⟩
  case wait =>
    intro o s a off h path clean small whole
    rw [exec_syncwait h path clean small whole]
    exact ⟨fun same => by rw [if_pos same], fun other => by rw [if_neg other]⟩
  case add =>
    intro o s a off h path clean small free
    exact ⟨_, exec_syncadd h path clean small free, syncadd_effect o s a off _ h.curCtx_lt⟩
  case status =>
    intro o s h core c inCore
    exact ⟨_, exec_cestat h core, ceStat_fields inCore⟩

end Sys2Proof.Machine

/-! SUPPORT. O43 (R333, R334): a product of signed bytes is the sum of its products. -/

namespace Sys2Proof.Machine
set_option Elab.async false

/-! The tile of a product. -/

/-- A packed tile answers an element by its only value. -/
theorem tileGet_tilePack {l : List (Nat × BitVec 32)} {conf : Option (Nat × Nat × Bool)} {i j : Nat} {v : BitVec 32}
    (mem : (i * 128 + j, v) ∈ l) (only : ∀ q ∈ l, q.1 = i * 128 + j → q.2 = v) : tileGet ⟨conf, tilePack l⟩ i j = v := by
  unfold tileGet tilePack
  cases found : (l.filter fun q => q.2 != 0).find? (fun q => q.1 == i * 128 + j) with
  | some q => exact only q (List.mem_filter.mp (List.mem_of_find?_eq_some found)).1 (by simpa using List.find?_some found)
  | none =>
    by_contra other
    have kept : (i * 128 + j, v) ∈ l.filter fun q => q.2 != 0 := List.mem_filter.mpr ⟨mem, by simpa using Ne.symm other⟩
    simpa using List.find?_eq_none.mp found _ kept

/-- A fold that appends a row in each step leaves the rows in a row. -/
theorem fold_rows {α β γ : Type} {f : List β × γ → α → List β × γ} {row : α → List β} (step : ∀ r i, (f r i).1 = r.1 ++ row i) (l : List α)
    (r : List β × γ) : (l.foldl f r).1 = r.1 ++ l.flatMap row := by
  induction l generalizing r with
  | nil => simp
  | cons i l ih => rw [List.foldl_cons, ih, step, List.flatMap_cons, List.append_assoc]

/-- Row `i` of an operand that starts at `at_` with a pitch. -/
def operandRow (m : Mem) (f : Fmt) (scale at_ pitch k i : Nat) : Fl (List Val) := rowVals (fun x y => m.readNat x y) (at_ + i * pitch) f scale k

/-- Each element of a product is the dot product of its row and its column. -/
theorem matMul_get {c : Cluster} {acc : Bool} {t : Nat} {fa fb : Fmt} {sat : Bool} {ka kb ao ap bo bp k m n : Nat} {tt : Bool}
    (conf : (tileOf c t).conf = some (m, n, tt)) (hn : n ≤ 128) {i j : Nat} (hi : i < m) (hj : j < n) :
    tileGet (matMul c acc t fa fb sat ka kb ao ap bo bp k).1 i j = BitVec.ofNat 32
      (dot fa fb sat (if acc then (tileGet (tileOf c t) i j).toNat else 0) (operandRow c.bufA fa ka ao ap k i).1
        (operandRow c.bufB fb kb bo bp k j).1).1 := by
  have column (l : ℕ) (hl : l < n) : ((List.range n).map fun j => rowVals (fun x y => c.bufB.readNat x y) (bo + j * bp) fb kb k).getD l ([], 0) =
      operandRow c.bufB fb kb bo bp k l := by
    simp [hl, operandRow]
  unfold matMul
  simp only [conf]
  rw [fold_rows (fun _ _ => rfl), List.nil_append]
  refine tileGet_tilePack ?_ fun q hq key => ?_
  · refine List.mem_flatMap.mpr ⟨i, List.mem_range.mpr hi, ?_⟩
    rw [List.map_map]
    refine List.mem_map.mpr ⟨j, List.mem_range.mpr hj, ?_⟩
    simp only [Function.comp_apply, column j hj]
    rfl
  · obtain ⟨i', -, hq⟩ := List.mem_flatMap.mp hq
    rw [List.map_map] at hq
    obtain ⟨j', hj', rfl⟩ := List.mem_map.mp hq
    have inRow : j' < n := List.mem_range.mp hj'
    have place : i' * 128 + j' = i * 128 + j := key
    obtain ⟨rfl, rfl⟩ : i' = i ∧ j' = j := by omega
    simp only [Function.comp_apply, column j' hj]
    rfl

/-! Dot products in the integers (R334). -/

/-- The integer of a value; one that is not finite counts as zero. -/
def intOf : Val → Int
  | .fin sg n _ => sgn sg n
  | _ => 0

theorem intOf_ofInt (x : Int) : intOf (Val.ofInt x) = x := sgn_ofInt x

theorem sgn_mul (s t : Bool) (n m : Nat) : sgn (s != t) (n * m) = sgn s n * sgn t m := by
  cases s <;> cases t <;> simp [sgn]

theorem intOf_mul (x y : Int) : intOf (Val.mul (.ofInt x) (.ofInt y)).1 = x * y :=
  (sgn_mul _ _ _ _).trans (congrArg₂ (· * ·) (sgn_ofInt x) (sgn_ofInt y))

/-- What a group adds. -/
def groupSum (g : List Val) : Int := g.foldl (fun t v => match v with | .fin sg n _ => t + sgn sg n | _ => t) 0

theorem groupSum_eq (g : List Val) : groupSum g = (g.map intOf).sum := by
  have step : (fun (t : Int) (v : Val) => match v with | .fin sg n _ => t + sgn sg n | _ => t) = fun t v => t + intOf v := by
    funext t v
    cases v <;> simp [intOf]
  rw [groupSum, step, List.sum_eq_foldl, List.foldl_map]

/-- The groups of 32 hold the same sum: what fills up the last group is zero. -/
theorem groups32_sum (n : Nat) (l : List Val) (le : l.length ≤ n) : ((groups32 n l).map groupSum).sum = (l.map intOf).sum := by
  induction n generalizing l with
  | zero => rw [List.eq_nil_of_length_eq_zero (Nat.le_zero.mp le)]; rfl
  | succ n ih =>
    cases l with
    | nil => rfl
    | cons v l =>
      have fill (m : Nat) : ((List.replicate m (Val.zero false)).map intOf).sum = 0 := by simp [intOf, Val.zero, sgn]
      have rest : ((v :: l).drop 32).length ≤ n := by rw [List.length_drop, List.length_cons]; rw [List.length_cons] at le; omega
      rw [groups32, List.map_cons, List.sum_cons, ih _ rest, groupSum_eq, List.map_append, List.sum_append, fill, add_zero, ← List.sum_append,
        ← List.map_append, List.take_append_drop]
      exact nofun

theorem ofNat_dotInt (acc : Nat) (p : List Val) :
    BitVec.ofNat 32 (dotInt false acc p).1 = BitVec.ofNat 32 acc + BitVec.ofInt 32 (p.map intOf).sum := by
  have folded (gs : List (List Val)) (r : Fl Nat) :
      BitVec.ofNat 32 (gs.foldl (fun (a, f) g => (wrapN (readInt a 32 true + groupSum g) 32, f ||| 0)) r).1 =
        BitVec.ofNat 32 r.1 + BitVec.ofInt 32 (gs.map groupSum).sum := by
    induction gs generalizing r with
    | nil => simp
    | cons g gs ih =>
      rw [List.foldl_cons, ih, ofNat_wrapN, BitVec.ofInt_add, readInt_true _ _ (by decide), BitVec.ofInt_toInt, List.map_cons, List.sum_cons,
        BitVec.ofInt_add, BitVec.add_assoc]
  rw [← groups32_sum p.length p (Nat.le_refl _)]
  exact folded _ _

/-! Rows of signed bytes. -/

theorem rowElem_i8 (m : Mem) (at_ k j : Nat) : (rowElem (fun x y => m.readNat x y) at_ .i8 k j).1 = Val.ofInt (Rule.byteInt m (at_ + j)) := by
  unfold rowElem
  simp only [elemAt_whole .i8 (n := 1) rfl (by decide)]
  simp only [Fmt.cls, Fmt.bits, elemVal, elemRaw, Mem.readNat, Rule.byteInt, Nat.cast_one, one_mul, Int.toNat_natCast, pow_zero, Nat.div_one, mul_zero, add_zero]
  rw [readInt_mod _ 8, readInt_true _ _ (by decide), BitVec.ofNat_toNat, BitVec.setWidth_eq]

theorem operandRow_i8 (m : Mem) (at_ pitch k i : Nat) :
    (operandRow m .i8 0 at_ pitch k i).1 = (List.range k).map fun j => Val.ofInt (Rule.byteInt m (at_ + i * pitch + j)) := by
  unfold operandRow rowVals
  dsimp only
  rw [List.map_map]
  exact List.map_congr_left fun j _ => rowElem_i8 m _ 0 j

theorem dotBytes_sum (x y : Mem) (a b k : Nat) :
    Rule.dotBytes x y a b k = ((List.range k).map fun j => Rule.byteInt x (a + j) * Rule.byteInt y (b + j)).sum := by
  induction k with
  | zero => rfl
  | succ k ih => rw [Rule.dotBytes, ih, List.range_succ, List.map_append, List.sum_append, List.map_singleton, List.sum_singleton]

/-- The dot product of two rows of signed bytes (R334). -/
theorem dot_i8 (acc : Nat) (x y : Mem) (a p i b q j k : Nat) :
    BitVec.ofNat 32 (dot .i8 .i8 false acc (operandRow x .i8 0 a p k i).1 (operandRow y .i8 0 b q k j).1).1 =
      BitVec.ofNat 32 acc + BitVec.ofInt 32 (Rule.dotBytes x y (a + i * p) (b + j * q) k) := by
  unfold dot
  dsimp only
  rw [if_pos (by decide), operandRow_i8, operandRow_i8]
  refine (ofNat_dotInt _ _).trans ?_
  rw [dotBytes_sum, List.zip_map', List.map_map, List.map_map, List.map_map]
  exact congrArg (fun l => _ + BitVec.ofInt 32 (List.sum l)) (List.map_congr_left fun l _ => intOf_mul _ _)

theorem matMul_i8 {c : Cluster} {acc : Bool} {t ao ap bo bp k m n : Nat} (conf : (tileOf c t).conf = some (m, n, true)) (hn : n ≤ 128) {i j : Nat}
    (hi : i < m) (hj : j < n) : tileGet (matMul c acc t .i8 .i8 false 0 0 ao ap bo bp k).1 i j =
      (if acc then tileGet (tileOf c t) i j else 0) + BitVec.ofInt 32 (Rule.dotBytes c.bufA c.bufB (ao + i * ap) (bo + j * bp) k) := by
  rw [matMul_get conf hn hi hj, dot_i8]
  cases acc with
  | true => rw [if_pos rfl, if_pos rfl, BitVec.ofNat_toNat, BitVec.setWidth_eq]
  | false => rw [if_neg Bool.false_ne_true, if_neg Bool.false_ne_true]; rfl

end Sys2Proof.Machine

/-! SUPPORT. O43 (R324 to R331): the lease of an array, and the instructions that need it. -/

namespace Sys2Proof.Machine
set_option Elab.async false

/-! The lease (R324, R325). -/

theorem arrayPass_clean {s : State} {k : Nat} (clean : (Rule.lease s k).due = false) : arrayPass s k = s :=
  if_pos (by rw [show (s.clu k).lease.due = false from clean]; rfl)

/-- Clearing an array leaves the grant as it is. -/
theorem arrayPass_grant (s : State) (k : Nat) : (Rule.lease (arrayPass s k) k).holder = (Rule.lease s k).holder ∧
    (Rule.lease (arrayPass s k) k).left = (Rule.lease s k).left ∧ (Rule.lease (arrayPass s k) k).since = (Rule.lease s k).since := by
  unfold arrayPass Rule.lease
  dsimp only
  split
  · exact ⟨rfl, rfl, rfl⟩
  · rw [State.clu_setClu_same]; exact ⟨rfl, rfl, rfl⟩

theorem leaseNext_alone {s : State} {k : Nat} (alone : (Rule.lease s k).waiters = []) : leaseNext s k = s := by
  have none_ : leaseBest s (s.clu k).lease = none := by rw [leaseBest, show (s.clu k).lease.waiters = [] from alone]; rfl
  unfold leaseNext
  dsimp only
  rw [none_]
  split <;> [contradiction; rfl]

theorem leaseGrant_effect (s : State) (k : Nat) (p : Nat × Nat) : (Rule.lease (leaseGrant s k p) k).holder = some p ∧
    (Rule.lease (leaseGrant s k p) k).left = 16 ∧ (Rule.lease (leaseGrant s k p) k).since = s.now := by
  obtain ⟨holder, left, since⟩ := arrayPass_grant ((s.setClu k _).pendOnce (.leaseGrantExpire k)) k
  unfold leaseGrant
  rw [holder, left, since, Rule.lease, clu_pendOnce, State.clu_setClu_same]
  exact ⟨rfl, rfl, rfl⟩

theorem leaseNext_tasks (s : State) (k : Nat) : (leaseNext s k).tasks = s.tasks := by
  have pass (u : State) : (arrayPass u k).tasks = u.tasks := by
    unfold arrayPass
    dsimp only
    split <;> rfl
  unfold leaseNext
  dsimp only
  split <;> [exact (pass _).trans ((pendOnce_tasks _ _).trans rfl); rfl]

theorem leaseAsk_tasks (s : State) (k : Nat) (p : Nat × Nat) : (leaseAsk s k p).tasks = s.tasks := by
  unfold leaseAsk
  dsimp only
  split <;> [rfl; exact (leaseNext_tasks _ k).trans rfl]

/-- A free lease with no other waiter is granted at once. -/
theorem leaseAsk_granted {s : State} {k : Nat} {p : Nat × Nat} (free : (Rule.lease s k).holder = none) (alone : (Rule.lease s k).waiters = []) :
    (Rule.lease (leaseAsk s k p) k).holder = some p ∧ (Rule.lease (leaseAsk s k p) k).left = 16 ∧
      (Rule.lease (leaseAsk s k p) k).since = s.now := by
  have free' : (s.clu k).lease.holder = none := free
  have alone' : (s.clu k).lease.waiters = [] := alone
  have asked : leaseAsk s k p = leaseGrant (s.modClu k fun c => { c with lease := { (s.clu k).lease with waiters := [p] } }) k p := by
    simp [leaseAsk, free', alone', leaseNext, leaseBest, State.modClu_eq, State.clu_setClu_same]
  rw [asked]
  exact leaseGrant_effect _ k p

theorem exec_mxlease {o : OXC} {s : State} (h : Ready (.mxlease o) s) (core : Rule.onCore s) : exec (.mxlease o) s = .next (
    if (Rule.lease (leaseAsk s (Rule.here s) (Rule.me s)) (Rule.here s)).holder = some (Rule.me s)
    then done (.mxlease o) (leaseAsk s (Rule.here s) (Rule.me s))
    else waitFor (leaseAsk s (Rule.here s) (Rule.me s)) .lease (s.cur.rG o.c).toNat) := by
  change execMxlease o s = _
  unfold execMxlease
  rw [issue_ready h, answer_eq, clusterOnly_onCore _ core]
  rfl

theorem leaseAsk_held {s : State} {k : Nat} {p : Nat × Nat} (held : (Rule.lease s k).holder = some p) : leaseAsk s k p = s := if_pos held

theorem exec_mxrel {s : State} (h : Ready .mxrel s) (core : Rule.onCore s) :
    exec .mxrel s = .next (done .mxrel (leaseDrop s (Rule.here s) (Rule.me s))) := by
  change execMxrel s = _
  unfold execMxrel
  rw [issue_ready h, answer_eq, clusterOnly_onCore _ core]
  rfl

theorem leaseDrop_alone {s : State} {k : Nat} (p : Nat × Nat) (alone : (Rule.lease s k).waiters = []) :
    (Rule.lease (leaseDrop s k p) k).holder ≠ some p := by
  have alone' : (s.clu k).lease.waiters = [] := alone
  unfold leaseDrop
  rw [leaseNext_alone]
  · rw [Rule.lease, State.modClu_eq, State.clu_setClu_same]
    dsimp only
    split <;> [nofun; assumption]
  · rw [Rule.lease, State.modClu_eq, State.clu_setClu_same]
    exact (congrArg (List.erase · p) alone').trans rfl

theorem exec_leaseGrantExpire {s : State} {k : Nat} (ev : s.ev = some (.leaseGrantExpire k)) (held : (Rule.lease s k).holder.isSome = true) :
    exec .leaseGrantExpire s = if s.now < (Rule.lease s k).since + 65536 then .next s else .next (leaseEnd s.took k) := by
  have held' : ¬ (s.clu k).lease.holder.isNone = true := by rw [Option.isNone_iff_eq_none]; exact Option.isSome_iff_ne_none.mp held
  change execLeaseGrantExpire s = _
  unfold execLeaseGrantExpire
  rw [ev]
  dsimp only
  rw [if_neg held']
  rfl

/-! What an instruction that needs the lease passes. -/

section
variable {s : State} (holds : Rule.holdsArray s)
include holds

theorem clusterOnly_holds (i : Instr) (go : State → State) : clusterOnly i s go = go s := clusterOnly_onCore i holds.1 go

theorem leaseForm_holds (i : Instr) (go : State → State) (limit : Nat) : leaseForm i s go limit = go s := by
  obtain ⟨-, held, clean, -⟩ := holds
  unfold leaseForm
  dsimp only
  rw [if_pos (show (s.clu (agentClu s.curAgent)).lease.holder = some (s.curAgent, s.curCtx) from held),
    arrayPass_clean (k := agentClu s.curAgent) clean]
  exact if_neg (ne_of_eq_of_ne (show _ = false from clean) Bool.false_ne_true)

theorem arrayUp_holds (i : Instr) (go : State → State) : arrayUp i s go = go s := by
  obtain ⟨-, -, -, enabled⟩ := holds
  exact if_neg (ne_of_eq_of_ne enabled Bool.false_ne_true)

/-! Tiles (R329, R330). -/

theorem exec_tcfg {o : OTA} (h : Ready (.tcfg o) s) (idle : tileBusy (s.clu (Rule.here s)) o.t.toNat = false)
    (rows : (s.cur.rG o.a).getLsbD 7 = false) (columns : (s.cur.rG o.a).getLsbD 15 = false) (rest : bitsOf (s.cur.rG o.a) 63 17 = 0) :
    exec (.tcfg o) s = .next (done (.tcfg o) (setTile s (Rule.here s) o.t.toNat
      ⟨some (bitsOf (s.cur.rG o.a) 6 0 + 1, bitsOf (s.cur.rG o.a) 14 8 + 1, (s.cur.rG o.a).getLsbD 16), []⟩)) := by
  change execTcfg o s = _
  unfold execTcfg
  rw [issue_ready h, answer_eq, clusterOnly_holds holds]
  dsimp only
  rw [show bit (s.cur.rG o.a) 7 = false from rows, show bit (s.cur.rG o.a) 15 = false from columns, rest, if_neg (by simp), leaseForm_holds holds,
    show tileBusy (s.clu (agentClu s.curAgent)) o.t.toNat = false from idle]
  rfl

theorem exec_trel {o : OT} (h : Ready (.trel o) s) : exec (.trel o) s = .next (
    if tileBusy (s.clu (Rule.here s)) o.t.toNat then waitFor s .retry
    else done (.trel o) (setTile s (Rule.here s) o.t.toNat { tileOf (s.clu (Rule.here s)) o.t.toNat with conf := none })) := by
  change execTrel o s = _
  unfold execTrel
  rw [issue_ready h, answer_eq, clusterOnly_holds holds, leaseForm_holds holds]
  rfl

theorem exec_mxwait {o : OTC} (h : Ready (.mxwait o) s) : exec (.mxwait o) s = .next (
    if tileBusy (s.clu (Rule.here s)) o.t.toNat then waitFor s .retry (s.cur.rG o.c).toNat else done (.mxwait o) s) := by
  change execMxwait o s = _
  unfold execMxwait
  rw [issue_ready h, answer_eq, clusterOnly_holds holds, leaseForm_holds holds]
  rfl

/-! Stagings (R331). -/

/-- What MXLDA or MXLDB does, all its checks passed. -/
def staged (i : Instr) (cmd : MxCmd) (s : State) : State :=
  done i (cePut (mxPut s cmd).2 (mxPut s cmd).2.curAgent ⟨issuerOf (mxPut s cmd).2, .mx (mxPut s cmd).1, 0, 0⟩)

omit holds in
theorem any_range_false {n : Nat} {f : Nat → Bool} (none_ : ∀ r, r < n → f r = false) : (List.range n).any f = false :=
  List.any_eq_false.mpr fun r hr => ne_of_eq_of_ne (none_ r (List.mem_range.mp hr)) Bool.false_ne_true

theorem execStage_queues {i : Instr} {o : OXABCE} {toB : Bool} (h : Ready i s) (calm : Rule.calm s) (free : placeFull s s.curAgent = false)
    (g1 : bitsOf (s.cur.rG o.a) 31 18 = 0) (g2 : bitsOf (s.cur.rG o.a) 63 50 = 0) (h1 : bitsOf (s.cur.rG o.c) 31 18 = 0)
    (h2 : bitsOf (s.cur.rG o.c) 63 48 = 0)
    (fits : bitsOf (s.cur.rG o.a) 17 0 + (bitsOf (s.cur.rG o.c) 47 32 + 1 - 1) * bitsOf (s.cur.rG o.a) 49 32 + (bitsOf (s.cur.rG o.c) 17 0 + 1) ≤ 262144)
    (apart : bitsOf (s.cur.rG o.c) 47 32 + 1 = 1 ∨ bitsOf (s.cur.rG o.c) 17 0 + 1 ≤ bitsOf (s.cur.rG o.a) 49 32)
    (a1 : bitsOf (s.cur.rG o.a) 17 0 % 4 = 0) (a2 : bitsOf (s.cur.rG o.a) 49 32 % 4 = 0) (a3 : (bitsOf (s.cur.rG o.c) 17 0 + 1) % 4 = 0)
    (a4 : (s.cur.rG o.b).toNat % 4 = 0) (a5 : (s.cur.rG o.e).toNat % 4 = 0)
    (own : ∀ (r : Nat) (a : Word), r < bitsOf (s.cur.rG o.c) 47 32 + 1 → addAddr (s.cur.rG o.b) (r * (s.cur.rG o.e).toInt) = some a →
      ownRangeBad s a (bitsOf (s.cur.rG o.c) 17 0 + 1) = false) :
    execStage i o s toB = .next (staged i (.stage toB (bitsOf (s.cur.rG o.a) 17 0) (bitsOf (s.cur.rG o.a) 49 32) (bitsOf (s.cur.rG o.c) 17 0 + 1)
      (bitsOf (s.cur.rG o.c) 47 32 + 1) (s.cur.rG o.b) (s.cur.rG o.e)) (release s s.curAgent .dev)) := by
  have formed : ¬ (decide (bitsOf (s.cur.rG o.a) 31 18 ≠ 0) || decide (bitsOf (s.cur.rG o.a) 63 50 ≠ 0) || decide (bitsOf (s.cur.rG o.c) 31 18 ≠ 0) ||
      decide (bitsOf (s.cur.rG o.c) 63 48 ≠ 0) || decide (bufBytes < bitsOf (s.cur.rG o.a) 17 0 +
        (bitsOf (s.cur.rG o.c) 47 32 + 1 - 1) * bitsOf (s.cur.rG o.a) 49 32 + (bitsOf (s.cur.rG o.c) 17 0 + 1)) ||
      (decide (1 < bitsOf (s.cur.rG o.c) 47 32 + 1) && decide (bitsOf (s.cur.rG o.a) 49 32 < bitsOf (s.cur.rG o.c) 17 0 + 1))) = true := by
    have short : ¬ bufBytes < bitsOf (s.cur.rG o.a) 17 0 + (bitsOf (s.cur.rG o.c) 47 32 + 1 - 1) * bitsOf (s.cur.rG o.a) 49 32 +
      (bitsOf (s.cur.rG o.c) 17 0 + 1) := Nat.not_lt.mpr fits
    have rows : ¬ (1 < bitsOf (s.cur.rG o.c) 47 32 + 1 ∧ bitsOf (s.cur.rG o.a) 49 32 < bitsOf (s.cur.rG o.c) 17 0 + 1) := by omega
    simp only [g1, g2, h1, h2, short, decide_false, ne_eq, not_true_eq_false, Bool.false_or, ← Bool.decide_and, rows, Bool.false_eq_true, not_false_eq_true]
  have aligned : ¬ (decide (bitsOf (s.cur.rG o.a) 17 0 % 4 ≠ 0) || decide (bitsOf (s.cur.rG o.a) 49 32 % 4 ≠ 0) ||
      decide ((bitsOf (s.cur.rG o.c) 17 0 + 1) % 4 ≠ 0) || decide ((s.cur.rG o.b).toNat % 4 ≠ 0) || decide ((s.cur.rG o.e).toNat % 4 ≠ 0)) = true := by
    simp [a1, a2, a3, a4, a5]
  unfold execStage
  rw [issue_ready h, answer_eq, clusterOnly_holds holds]
  dsimp only
  rw [if_neg formed, if_neg aligned, any_range_false, if_neg Bool.false_ne_true, leaseForm_holds holds, arrayUp_holds holds, free,
    if_neg Bool.false_ne_true, releaseThen_of_releases (releases_dev_of_calm calm)]
  · rfl
  · intro r hr
    split
    · rename_i a at_
      exact own r a hr at_
    · rfl

end

end Sys2Proof.Machine

/-! SUPPORT. O43 (R328, R332 to R337): products, drains and the status of an array. -/

namespace Sys2Proof.Machine
set_option Elab.async false

/-! A command behind the others, with the next issue number (R332). -/

theorem mxPut_queues (s : State) (c : MxCmd) : (mxPut s c).1 = (s.clu (agentClu s.curAgent)).nextNo ∧
    ((mxPut s c).2.clu (agentClu s.curAgent)).nextNo = (s.clu (agentClu s.curAgent)).nextNo + 1 ∧
    ∃ e : MxEntry, ((mxPut s c).2.clu (agentClu s.curAgent)).cmds = (s.clu (agentClu s.curAgent)).cmds ++ [e] ∧ e.no = (mxPut s c).1 ∧ e.cmd = c ∧
      e.iss.task = s.cur.task := by
  have put : (mxPut s c).2.clu (agentClu s.curAgent) = { s.clu (agentClu s.curAgent) with
      cmds := (s.clu (agentClu s.curAgent)).cmds ++ [⟨(s.clu (agentClu s.curAgent)).nextNo, issuerOf s, c, false, ⟨none, []⟩⟩]
      nextNo := (s.clu (agentClu s.curAgent)).nextNo + 1 } := by
    rw [mxPut, State.clu_setClu_same]
  rw [put]
  exact ⟨rfl, rfl, _, rfl, rfl, rfl, rfl⟩

/-! Products (R333, R334). -/

/-- What MXMUL or MXTERN does once its cluster, and a partner, are held. -/
def multiplied (i : Instr) (k : Nat) (cmd : MxCmd) (s : State) : State :=
  done i (leaseCount ((mxPut s cmd).2.pendOnce (.matrixCommandComplete k)) k)

/-- The command of a product. -/
def productOf (o : OMx) (c : Ctx) : MxCmd :=
  .mul o.acc o.t.toNat o.fa o.fb o.sat o.ka.toNat o.kb.toNat (bitsOf (c.rG o.a) 17 0) (bitsOf (c.rG o.a) 49 32) (bitsOf (c.rG o.b) 17 0)
    (bitsOf (c.rG o.b) 49 32) (c.rG o.c).toNat o.fuse

theorem execProduct_checked {i : Instr} {o : OMx} {s : State} (h : Ready i s) (holds : Rule.holdsArray s) (calm : Rule.calm s)
    (room : setsFull (s.clu (Rule.here s)) = false) (sat : o.sat = true → Fmt.intPath o.fa o.fb = true)
    (legal : mulCheck (s.clu (Rule.here s)) o (s.cur.rG o.a) (s.cur.rG o.b) (s.cur.rG o.c) = none) :
    execProduct i o s = .next (fuseLease (release s s.curAgent .dev) (Rule.here s) o.fuse (multiplied i (Rule.here s) (productOf o s.cur))) := by
  have mayClamp : ¬ (o.sat && !Fmt.intPath o.fa o.fb) = true := by
    cases clamp : o.sat
    · exact Bool.false_ne_true
    · rw [sat clamp]; exact Bool.false_ne_true
  have legal' : mulCheck (s.clu (agentClu s.curAgent)) o (s.cur.rG o.a) (s.cur.rG o.b) (s.cur.rG o.c) = none := legal
  unfold execProduct
  rw [issue_ready h, answer_eq, clusterOnly_holds holds]
  dsimp only
  rw [if_neg mayClamp, legal']
  dsimp only
  rw [leaseForm_holds holds, arrayUp_holds holds, show setsFull (s.clu (agentClu s.curAgent)) = false from room, if_neg Bool.false_ne_true,
    releaseThen_of_releases (releases_dev_of_calm calm)]
  rfl

/-- A command that needs no partner goes on. -/
theorem fuseLease_alone {s : State} {k : Nat} {fuse : Bool} (alone : fuse = false ∨ (s.clu k).fenced ≠ 0 ∨ (s.clu (fusePartner k)).fenced ≠ 0 ∨
    (s.clu (fusePartner k)).disabled = true) (go : State → State) : fuseLease s k fuse go = go s := by
  refine if_pos ?_
  simp only [Bool.or_eq_true, Bool.not_eq_true', decide_eq_true_eq]
  tauto

/-- The current context holds the lease of cluster `j`, and no fused command has it. -/
abbrev holdsFree (p : Nat × Nat) (j : Nat) (s : State) : Prop := (Rule.lease s j).holder = some p ∧ (Rule.lease s j).fuse = none

/-- The state in which `p` asked for the lease of `j`. -/
def asked (s : State) (p : Nat × Nat) (j : Nat) : State :=
  leaseNext (s.modClu j fun c => { c with lease := { c.lease with waiters :=
    if p ∈ c.lease.waiters then c.lease.waiters else c.lease.waiters ++ [p] } }) j

/-- The state in which a fused command looks at the partner's lease. -/
def partnered (s : State) (p : Nat × Nat) (j : Nat) : State := arrayPass (if holdsFree p j s then s else asked s p j) j

theorem fuseLease_fused {s : State} {k : Nat} (up : (s.clu k).fenced = 0) (partner : (s.clu (fusePartner k)).fenced = 0)
    (enabled : (s.clu (fusePartner k)).disabled = false) (go : State → State) :
    fuseLease s k true go =
      let w := partnered s (Rule.me s) (fusePartner k)
      if ¬ holdsFree (Rule.me s) (fusePartner k) w ∨ (Rule.lease w (fusePartner k)).due = true then waitFor w .retry
      else go (leaseCount (w.modClu (fusePartner k) fun c => { c with lease := { c.lease with fuse := some (w.clu k).nextNo } }) (fusePartner k)) := by
  have mine (t : State) : ((t.clu (fusePartner k)).lease.holder == some (s.curAgent, s.curCtx) && (t.clu (fusePartner k)).lease.fuse.isNone) =
      decide (holdsFree (Rule.me s) (fusePartner k) t) := by
    rw [Bool.eq_iff_iff, Bool.and_eq_true, beq_iff_eq, Option.isNone_iff_eq_none, decide_eq_true_iff]
    rfl
  unfold fuseLease
  simp only [mine, up, partner, enabled, Bool.not_true, ne_eq, not_true_eq_false, decide_false, Bool.or_self, Bool.false_eq_true, if_false,
    decide_eq_true_eq, List.contains_iff_mem, Bool.or_eq_true, Bool.not_eq_true', decide_eq_false_iff_not]
  rfl

/-! The status (R337). -/

/-- Eight flags as a byte. -/
def flagByte (p : Nat → Bool) : Nat := (List.range 8).foldl (fun a i => a + (p i).toNat * 2 ^ i) 0

theorem flagByte_bits (p : Nat → Bool) : flagByte p < 256 ∧ ∀ t, t < 8 → flagByte p / 2 ^ t % 2 = (p t).toNat := by
  have sum : flagByte p = (p 0).toNat + (p 1).toNat * 2 + (p 2).toNat * 4 + (p 3).toNat * 8 + (p 4).toNat * 16 + (p 5).toNat * 32 +
      (p 6).toNat * 64 + (p 7).toNat * 128 := by
    simp [flagByte, List.range, List.range.loop]
  have le (i : Nat) : (p i).toNat ≤ 1 := Bool.toNat_le _
  have := le 0; have := le 1; have := le 2; have := le 3; have := le 4; have := le 5; have := le 6; have := le 7
  rw [sum]
  refine ⟨by omega, fun t ht => ?_⟩
  interval_cases t <;> omega

/-- The word that MXSTAT reads. -/
def mxStat (c : Cluster) (p : Nat × Nat) : Nat :=
  (if c.lease.holder.isSome then c.lease.left else 0) * 2 ^ 32 + (c.lease.holder == some p).toNat * 2 ^ 31 + c.lease.holder.isSome.toNat * 2 ^ 30 +
    (match c.lease.holder with | some (a, _) => coreIdx a | none => 0) * 2 ^ 27 + c.disabled.toNat * 2 ^ 26 + c.fenced.toNat * 2 ^ 22 +
    c.stgerr.toNat * 2 ^ 21 + (decide (2 ≤ (c.cmds.filter MxEntry.inArray).length)).toNat * 2 ^ 20 +
    (decide (1 ≤ (c.cmds.filter MxEntry.inArray).length)).toNat * 2 ^ 19 + flagByte (tileBusy c) * 2 ^ 8 + flagByte fun t => (tileOf c t).conf.isSome

theorem exec_mxstat {o : ORd} {s : State} (h : Ready (.mxstat o) s) (core : Rule.onCore s) :
    exec (.mxstat o) s = .next (done (.mxstat o) (landG s o.d (mxStat (s.clu (Rule.here s)) (Rule.me s)))) := by
  change execMxstat o s = _
  unfold execMxstat
  rw [issue_ready h, answer_eq, clusterOnly_onCore _ core]
  rfl

/-- The fields of a word that is put together so. -/
theorem statWord_fields {left held holder core disabled fenced stgerr two one sets tiles v : Nat} (he : held ≤ 1) (ho : holder ≤ 1) (co : core < 8)
    (di : disabled ≤ 1) (fe : fenced < 16) (st : stgerr ≤ 1) (tw : two ≤ 1) (on : one ≤ 1) (se : sets < 256) (ti : tiles < 256)
    (word : v = left * 2 ^ 32 + held * 2 ^ 31 + holder * 2 ^ 30 + core * 2 ^ 27 + disabled * 2 ^ 26 + fenced * 2 ^ 22 + stgerr * 2 ^ 21 +
      two * 2 ^ 20 + one * 2 ^ 19 + sets * 2 ^ 8 + tiles) :
    v / 2 ^ 30 % 2 = holder ∧ v / 2 ^ 31 % 2 = held ∧ v / 2 ^ 26 % 2 = disabled ∧ v / 2 ^ 22 % 16 = fenced ∧ v / 2 ^ 21 % 2 = stgerr ∧
      v % 256 = tiles ∧ v / 256 % 256 = sets := by
  omega

/-- A bit of a byte of a word is a bit of the byte. -/
theorem bit_of_low (v : Nat) {t : Nat} (ht : t < 8) : v % 256 / 2 ^ t % 2 = v / 2 ^ t % 2 := by
  interval_cases t <;> omega

theorem mxStat_fields (c : Cluster) (p : Nat × Nat) :
    (mxStat c p / 2 ^ 30 % 2 = 1 ↔ c.lease.holder.isSome = true) ∧ (mxStat c p / 2 ^ 31 % 2 = 1 ↔ c.lease.holder = some p) ∧
      (mxStat c p / 2 ^ 26 % 2 = 1 ↔ c.disabled = true) ∧ mxStat c p / 2 ^ 22 % 16 = c.fenced.toNat ∧ (mxStat c p / 2 ^ 21 % 2 = 1 ↔ c.stgerr = true) ∧
      (∀ t, t < 8 → (mxStat c p / 2 ^ t % 2 = 1 ↔ (tileOf c t).conf.isSome = true)) ∧
      (∀ t, t < 8 → (mxStat c p / 2 ^ (8 + t) % 2 = 1 ↔ tileBusy c t = true)) := by
  obtain ⟨tiles, tile⟩ := flagByte_bits fun t => (tileOf c t).conf.isSome
  obtain ⟨sets, set⟩ := flagByte_bits (tileBusy c)
  have flag (b : Bool) : b.toNat = 1 ↔ b = true := by cases b <;> decide
  have core : (match c.lease.holder with | some (a, _) => coreIdx a | none => 0) < 8 := by
    split <;> [exact Nat.mod_lt _ (by decide); decide]
  obtain ⟨holder, held, disabled, fenced, stgerr, low, high⟩ := statWord_fields (v := mxStat c p) (Bool.toNat_le _) (Bool.toNat_le _) core
    (Bool.toNat_le _) c.fenced.isLt (Bool.toNat_le _) (Bool.toNat_le _) (Bool.toNat_le _) sets tiles rfl
  rw [holder, held, disabled, fenced, stgerr, flag, flag, flag, flag, beq_iff_eq]
  refine ⟨Iff.rfl, Iff.rfl, Iff.rfl, rfl, Iff.rfl, fun t ht => ?_, fun t ht => ?_⟩
  · rw [← bit_of_low _ ht, low, tile t ht, flag]
  · rw [Nat.pow_add, ← Nat.div_div_eq_div_mul, ← bit_of_low _ ht, show (2 : Nat) ^ 8 = 256 from rfl, high, set t ht, flag]

/-! Drains (R335). -/

/-- A tile of `m` rows and `n` columns may be drained in the format `f` by the shape (R335). -/
structure Drainable (sh : Shape) (f : Fmt) (m n : Nat) (tt : Bool) : Prop where
  ext    : sh.ext = #v[n, m, 1, 1]
  int    : tt = true → sh.op = 0
  format : sh.format = some f
  cls    : f.cls ≠ .tern ∧ (∀ e, f.cls ≠ .block e) ∧ f.bits ≠ 64
  op     : sh.op ≤ 2
  f32    : sh.op = 1 → f = .f32
  bf16   : sh.op = 2 → f = .bf16

/-- What MXDRAIN does, all its checks passed. -/
def drained (i : Instr) (k : Nat) (cmd : MxCmd) (s : State) : State :=
  done i (leaseCount ((cePut (mxPut s cmd).2 (mxPut s cmd).2.curAgent ⟨issuerOf (mxPut s cmd).2, .mx (mxPut s cmd).1, 0, 0⟩).pendOnce
    (.matrixCommandComplete k)) k)

theorem exec_mxdrain_queues {o : OTABC} {s v : State} {p : Path} {r m n : Nat} {f : Fmt} {tt : Bool} (h : Ready (.mxdrain o) s) (core : Rule.onCore s)
    (res : resolve s (curAcc s) (s.cur.rG o.a) 64 64 .rd .any = .ok p) (path : pathHold s (curAcc s) p 64 .rd = none)
    (read : readPath (taintAcquire s (s.cur.taintG o.a)) (curAcc s) p 64 = (r, v)) (conf : (tileOf (v.clu (Rule.here s)) o.t.toNat).conf = some (m, n, tt))
    (fits : Drainable (Shape.parse r) f m n tt) (legal : shapeBad r = false) (aligned : (Shape.parse r).misaligned = false)
    (syncAt : addrPart (s.cur.rG o.b) % 16 = 0) (futAt : addrPart (s.cur.rG o.c) % 16 = 0) (own : shapeOwnBad v (Shape.parse r) 0 = false)
    (sync : syncCheck v (s.cur.rG o.b) = none) (fut : futCheck s.cur.win (s.cur.rG o.c) = none) (holds : Rule.holdsArray v)
    (room : setsFull (v.clu (Rule.here s)) = false) (place : placeFull v v.curAgent = false) (calm : Rule.calm v) :
    exec (.mxdrain o) s = .next (drained (.mxdrain o) (Rule.here s) (.drain o.t.toNat (Shape.parse r) (s.cur.rG o.b) (s.cur.rG o.c))
      (release v v.curAgent .dev)) := by
  obtain ⟨ext, int, format, ⟨noTern, noBlock, narrow⟩, op, f32, bf16⟩ := fits
  have conf' : (tileOf (v.clu (agentClu s.curAgent)) o.t.toNat).conf = some (m, n, tt) := conf
  have room' : setsFull (v.clu (agentClu s.curAgent)) = false := room
  have shape : vget (Shape.parse r).ext 0 0 = n ∧ vget (Shape.parse r).ext 1 0 = m ∧ vget (Shape.parse r).ext 2 0 = 1 ∧
      vget (Shape.parse r).ext 3 0 = 1 := by
    rw [ext]; exact ⟨rfl, rfl, rfl, rfl⟩
  obtain ⟨e0, e1, e2, e3⟩ := shape
  have added : ¬ (tt = true ∧ (Shape.parse r).op ≠ 0) := fun ⟨t, x⟩ => x (int t)
  have single : ¬ ((Shape.parse r).op = 1 ∧ f ≠ .f32) := fun ⟨t, x⟩ => x (f32 t)
  have brief : ¬ ((Shape.parse r).op = 2 ∧ f ≠ .bf16) := fun ⟨t, x⟩ => x (bf16 t)
  change execMxdrain o s = _
  unfold execMxdrain
  rw [issue_ready h, answer_eq]
  dsimp only
  rw [clusterOnly_onCore _ core, access_ok _ res path, read]
  dsimp only
  rw [conf', format]
  dsimp only
  rw [e0, e1, e2, e3, legal, aligned, own, sync, fut, if_neg, if_neg, if_neg Bool.false_ne_true]
  · dsimp only
    rw [leaseForm_holds holds, arrayUp_holds holds, room', place, if_neg (by decide), releaseThen_of_releases (releases_dev_of_calm calm)]
    rfl
  · simp [syncAt, futAt]
  · simp only [Bool.or_eq_true, Bool.and_eq_true, bne_iff_ne, beq_iff_eq, decide_eq_true_iff, ne_eq, not_true_eq_false, false_or, or_false, added, single,
      brief, Nat.not_lt.mpr op, Bool.false_eq_true]
    exact narrow

end Sys2Proof.Machine

/-! SUPPORT. O43 (R326, R331 to R335): the events of an array, and what its commands wait for. -/

namespace Sys2Proof.Machine
set_option Elab.async false

/-! What a command waits for (R326). -/

theorem stageRange_of_bufSpan {c : Cluster} {toB : Bool} {cmd : MxCmd} {x : Nat × Nat} (stage : Rule.isStage cmd = true)
    (span : Rule.bufSpan c toB cmd = some x) : stageRange cmd = some (toB, x) := by
  cases cmd with
  | stage b boff pitch rb rows src st =>
    obtain ⟨rfl, range⟩ := Option.ite_none_right_eq_some.mp span
    exact congrArg (Option.map (Prod.mk b)) range
  | mul | drain => exact absurd stage Bool.false_ne_true

theorem mulRange_of_bufSpan {c : Cluster} {toB : Bool} {cmd : MxCmd} {x : Nat × Nat} (product : Rule.isStage cmd = false)
    (span : Rule.bufSpan c toB cmd = some x) : stageRange cmd = none ∧ mulRange c toB cmd = some x := by
  cases cmd with
  | stage => exact absurd product Bool.noConfusion
  | drain => exact absurd span (Option.some_ne_none x).symm
  | mul acc t fa fb sat ka kb ao ap bo bp k fuse =>
    obtain ⟨q, conf, rfl⟩ := Option.map_eq_some_iff.mp span
    refine ⟨rfl, ?_⟩
    simp only [mulRange, conf]
    split <;> rfl

theorem overlaps_of_meets {x y : Nat × Nat} (meet : Rule.meets x y) : overlaps x y = true ∧ overlaps y x = true := by
  simp only [overlaps, Bool.and_eq_true, decide_eq_true_iff]
  exact ⟨meet, meet.symm⟩

/-- A command waits for an earlier staging, and a staging for an earlier product too, that touches its bytes. -/
theorem mxWaits_meeting {c : Cluster} {e q : MxEntry} {toB : Bool} {x y : Nat × Nat} (mem : q ∈ c.cmds) (earlier : q.no < e.no)
    (kinds : Rule.isStage q.cmd = true ∨ (Rule.isStage e.cmd = true ∧ q.inArray = true)) (he : Rule.bufSpan c toB e.cmd = some x)
    (hq : Rule.bufSpan c toB q.cmd = some y) (meet : Rule.meets x y) : mxWaits c e = true := by
  obtain ⟨hit, hit'⟩ := overlaps_of_meets meet
  unfold mxWaits
  refine List.any_eq_true.mpr ⟨q, mem, ?_⟩
  rw [decide_eq_true earlier, Bool.true_and]
  cases stageE : Rule.isStage e.cmd <;> cases stageQ : Rule.isStage q.cmd
  · simp [stageE, stageQ] at kinds
  · obtain ⟨none_, range⟩ := mulRange_of_bufSpan stageE he
    simp only [none_, stageRange_of_bufSpan stageQ hq, range, hit']
  · obtain ⟨none_, range⟩ := mulRange_of_bufSpan stageQ hq
    obtain ⟨-, inArray⟩ := kinds.resolve_left (by rw [stageQ]; exact Bool.false_ne_true)
    simp only [none_, stageRange_of_bufSpan stageE he, range, hit, inArray, Bool.and_self]
  · simp only [stageRange_of_bufSpan stageE he, stageRange_of_bufSpan stageQ hq, hit, beq_self_eq_true, Bool.and_self]

/-! The array's oldest command (R332). -/

/-- The array's next command follows where one waits. -/
def arrayGoesOn (s : State) (k : Nat) : State :=
  if (s.took.clu k).cmds.any MxEntry.inArray then s.took.pendOnce (.matrixCommandComplete k) else s.took

section
variable {s : State} {k : Nat} {e : MxEntry} (ev : s.ev = some (.matrixCommandComplete k)) (oldest : (s.clu k).cmds.find? MxEntry.inArray = some e)
include ev oldest

theorem exec_matrixCommandComplete : exec .matrixCommandComplete s = match mxActive s k with
    | none => .next s
    | some t => .next (arrayGoesOn t k) := by
  have waits : (s.clu k).cmds.any MxEntry.inArray = true := by
    rw [List.any_eq_true]; exact ⟨e, List.mem_of_find?_eq_some oldest, List.find?_some oldest⟩
  change execMatrixCommandComplete s = _
  unfold execMatrixCommandComplete
  rw [ev]
  dsimp only
  rw [waits, if_neg (by decide)]
  cases mxActive s k <;> rfl

theorem exec_matrixCommandComplete_waits (waits : mxWaits (s.clu k) e = true) : exec .matrixCommandComplete s = .next s := by
  have none_ : mxActive s k = none := by
    unfold mxActive
    dsimp only
    rw [oldest]
    dsimp only
    rw [waits, Bool.or_true, if_pos rfl]
  rw [exec_matrixCommandComplete ev oldest, none_]

variable (free : engBlocked s (.matrix k) = false) (turn : mxWaits (s.clu k) e = false)
include free turn

theorem exec_matrixCommandComplete_mul {acc : Bool} {t : Nat} {fa fb : Fmt} {sat : Bool} {ka kb ao ap bo bp n : Nat} {fuse : Bool}
    (mul : e.cmd = .mul acc t fa fb sat ka kb ao ap bo bp n fuse) : exec .matrixCommandComplete s =
      let r := matMul (s.clu k) acc t fa fb sat ka kb ao ap bo bp n
      let u := setTile (s.modClu k fun c => { c with cmds := c.cmds.filter fun q => q.no != e.no }) k t r.1
      .next (arrayGoesOn (arrayPass (fuseDrop (joinFlags u e.iss r.2) k e.no) k) k) := by
  have active : mxActive s k =
      let r := matMul (s.clu k) acc t fa fb sat ka kb ao ap bo bp n
      some (arrayPass (fuseDrop (joinFlags (setTile (s.modClu k fun c => { c with cmds := c.cmds.filter fun q => q.no != e.no }) k t r.1) e.iss r.2)
        k e.no) k) := by
    unfold mxActive
    simp only [oldest, free, turn, mul, Bool.or_self, Bool.false_eq_true, if_false]
  rw [exec_matrixCommandComplete ev oldest, active]

theorem exec_matrixCommandComplete_drain {t : Nat} {sh : Shape} {sync fut : Word} (drain : e.cmd = .drain t sh sync fut)
    (few : ((s.clu k).cmds.filter fun q => q.read).length < 2) : exec .matrixCommandComplete s = .next (arrayGoesOn (s.modClu k fun c => { c with
      cmds := c.cmds.map fun q => if q.no = e.no then { q with read := true, tile := tileOf (s.clu k) t } else q }) k) := by
  have active : mxActive s k = some (s.modClu k fun c => { c with
      cmds := c.cmds.map fun q => if q.no = e.no then { q with read := true, tile := tileOf (s.clu k) t } else q }) := by
    unfold mxActive
    simp only [oldest, free, turn, drain, Bool.or_self, Bool.false_eq_true, if_false, Nat.not_le.mpr few]
    rfl
  rw [exec_matrixCommandComplete ev oldest, active]

end

/-! The pieces of stagings and drains (R331, R335). -/

section
variable {s : State} {k j no pos : Nat} {b iss : Issuer} {fl : Word} (active : (s.clu k).active = some (j, ⟨b, .mx no, pos, fl⟩))
include active

theorem exec_stagingLanded_waits {e : MxEntry} (ev : s.ev = some (.stagingLanded k)) (found : (s.clu k).cmds.find? (fun q => q.no == no) = some e)
    (stage : Rule.isStage e.cmd = true) (same : e.no = no) (waits : mxWaits (s.clu k) e = true) : exec .stagingLanded s = .next s := by
  obtain ⟨n, i, cmd, rd, tl⟩ := e
  cases cmd with
  | mul | drain => exact absurd stage Bool.false_ne_true
  | stage toB boff pitch rb rows src st =>
    obtain rfl : n = no := same
    change execStagingLanded s = _
    unfold execStagingLanded
    simp only [ev, active, found, waits, Bool.or_true, if_true]

theorem exec_stagingLanded_piece {toB rd : Bool} {boff pitch rb rows n : Nat} {src st : Word} {tl : Tile} {t : State}
    (ev : s.ev = some (.stagingLanded k))
    (found : (s.clu k).cmds.find? (fun q => q.no == no) = some ⟨no, iss, .stage toB boff pitch rb rows src st, rd, tl⟩)
    (free : engBlocked s (.copy k) = false) (turn : mxWaits (s.clu k) ⟨no, iss, .stage toB boff pitch rb rows src st, rd, tl⟩ = false)
    (piece : stagePiece s (iss.acc (.copy k)) k toB boff pitch rb (rows * rb) src st 64 pos = (t, n, none)) :
    exec .stagingLanded s = .next (if n < rows * rb then ceKick (cePos t k n).took k
      else arrayPass (ceEnd (t.took.modClu k fun c => { c with cmds := c.cmds.filter fun q => q.no != no }) k) k) := by
  change execStagingLanded s = _
  unfold execStagingLanded
  simp only [ev, active, found, free, turn, Bool.or_self, Bool.false_eq_true, if_false, piece, answer_eq]
  split <;> rfl

/-- The values of a drained tile are integers (R335). -/
def drainsInt (tl : Tile) : Bool := match tl.conf with | some (_, _, tt) => tt | none => false

theorem exec_drainWriteComplete_piece {tn n : Nat} {sh : Shape} {sync fut g : Word} {tl : Tile} {t : State} (ev : s.ev = some (.drainWriteComplete k))
    (found : (s.clu k).cmds.find? (fun q => q.no == no) = some ⟨no, iss, .drain tn sh sync fut, true, tl⟩) (free : engBlocked s (.copy k) = false)
    (piece : drainPiece s (iss.acc (.copy k)) sh (sh.format.getD .f32) (drainsInt tl) tl.el 0 (sh.count - pos) pos (bytesBefore sh 0 pos) =
      (t, g, n, none)) :
    exec .drainWriteComplete s = .next (if n < sh.count then ceKick (cePos t k n g).took k
      else ceComplete s (cePos t k n g) k iss (fl ||| g) sync fut (shapeBytes sh 0) fun s =>
        arrayPass (ceEnd (s.modClu k fun c => { c with cmds := c.cmds.filter fun q => q.no != no }) k) k) := by
  change execDrainWriteComplete s = _
  unfold execDrainWriteComplete
  rcases tl with ⟨_ | ⟨rows, columns, tt⟩, el⟩
  all_goals
    dsimp only [drainsInt] at piece
    simp only [ev, active, found, free, piece, Bool.false_eq_true, if_false, answer_eq]
    split <;> rfl

end

end Sys2Proof.Machine

/-! SUPPORT. O43: the clauses together. -/

namespace Sys2Proof.Machine
set_option Elab.async false

/-- A format that the statement lets a drain write. -/
theorem drainable_cls {f : Fmt} (fine : match f.cls with | .tern => False | .block _ => False | _ => f.bits ≠ 64) :
    f.cls ≠ .tern ∧ (∀ e, f.cls ≠ .block e) ∧ f.bits ≠ 64 := by
  cases h : f.cls <;> simp_all

/-- Settles O43: each clause is the equation of its instruction or event, and what the written state then holds. -/
theorem matrixCommandsRunUnderTheLease : Obligations.MatrixCommandsRunUnderTheLease := by
  refine ⟨?lease, ?release, ?expire, ?tiles, ?stage, ?product, fun s c => mxPut_queues s c, ?productWaits, ?stageWaits, ?drain, ?status, ?piece, ?array,
    ?write, ?bytes⟩
  case lease =>
    intro o s h core k u
    have runs := exec_mxlease h core
    refine ⟨fun free alone => ?_, fun held => ?_, fun other => runs.trans (congrArg Host.Outcome.next (if_neg other))⟩
    · obtain ⟨held, left, since⟩ := leaseAsk_granted (p := Rule.me s) free alone
      exact ⟨_, runs.trans (congrArg Host.Outcome.next (if_pos held)), held, left, since, onlyG_done _ (leaseAsk_tasks s _ _) h.curCtx_lt 0⟩
    · exact (leaseAsk_held held ▸ runs).trans (congrArg Host.Outcome.next (if_pos held))
  case release =>
    intro s h core
    exact ⟨exec_mxrel h core, leaseDrop_alone _⟩
  case expire =>
    intro s k ev held
    rw [exec_leaseGrantExpire ev held]
    exact ⟨fun early => if_pos early, fun late => if_neg (Nat.not_lt.mpr late)⟩
  case tiles =>
    intro s holds k
    refine ⟨fun o h idle rows columns rest => exec_tcfg holds h idle rows columns rest, fun o h => ?_, fun o h => ?_⟩
    · rw [exec_trel holds h]
      exact ⟨fun busy => by rw [if_pos busy], fun idle => by rw [idle, if_neg Bool.false_ne_true]⟩
    · rw [exec_mxwait holds h]
      exact ⟨fun busy => by rw [if_pos busy], fun idle => by rw [idle, if_neg Bool.false_ne_true]⟩
  case stage =>
    intro o toB s i h holds calm free g c src st rb rows g1 g2 h1 h2 fits apart a1 a2 a3 a4 a5 own u x
    have form : exec i s = execStage i o s toB := by cases toB <;> rfl
    rw [form]
    exact execStage_queues holds h calm free g1 g2 h1 h2 fits apart a1 a2 a3 a4 a5 own
  case product =>
    intro o tern s i h holds calm room k j ga gb cmd u go sat legal
    have form : exec i s = execProduct i o s := by cases tern <;> rfl
    rw [form, execProduct_checked h holds calm room sat legal]
    refine ⟨fun alone => congrArg Host.Outcome.next (fuseLease_alone alone _), fun fuse up partner enabled => ?_⟩
    rw [fuse, fuseLease_fused up partner enabled]
    refine ⟨partnered u (Rule.me u) j, fun held => congrArg (arrayPass · j) (if_pos held), fun other => congrArg (arrayPass · j) (if_neg other),
      fun held clean => congrArg Host.Outcome.next (if_neg ?_), fun waits => congrArg Host.Outcome.next (if_pos waits)⟩
    rintro (other | due)
    · exact other held
    · exact Bool.false_ne_true (clean.symm.trans due)
  case productWaits =>
    intro s k e q toB x y ev oldest mem earlier product stage he hq meet
    exact exec_matrixCommandComplete_waits ev oldest (mxWaits_meeting mem earlier (.inl stage) he hq meet)
  case stageWaits =>
    intro s k j pos b fl e q toB x y ev active found mem earlier stage kinds he hq meet
    exact exec_stagingLanded_waits active ev found stage rfl (mxWaits_meeting mem earlier (kinds.imp id fun inArray => ⟨stage, inArray⟩) he hq meet)
  case drain =>
    intro o s p f m n tt h core res path r v k sh u x conf ext int format cls op f32 bf16 legal aligned syncAt futAt own sync fut holds room place calm
    exact exec_mxdrain_queues h core res path rfl conf ⟨ext, int, format, drainable_cls cls, op, f32, bf16⟩ legal aligned syncAt futAt own sync fut holds
      room place calm
  case status =>
    intro o s h core c
    exact ⟨_, exec_mxstat h core, mxStat_fields c (Rule.me s)⟩
  case piece =>
    intro s k j no pos boff pitch rb rows b iss toB rd src st fl tl ev active found free turn t n piece
    rw [exec_stagingLanded_piece active ev found free turn piece]
    exact ⟨fun more => by rw [if_pos more], fun all => by rw [if_neg (Nat.not_lt.mpr all)]⟩
  case array =>
    intro s k e ev oldest free turn again
    exact ⟨fun acc t fa fb sat ka kb ao ap bo bp n fuse mul => exec_matrixCommandComplete_mul ev oldest free turn mul,
      fun t sh sync fut drain few => exec_matrixCommandComplete_drain ev oldest free turn drain few⟩
  case write =>
    intro s k j no pos tn b iss sh sync fut fl tl ev active found free t g n piece
    rw [exec_drainWriteComplete_piece active ev found free piece]
    exact ⟨fun more => by rw [if_pos more], fun all => by rw [if_neg (Nat.not_lt.mpr all)]⟩
  case bytes =>
    intro c acc t ao ap bo bp k m n conf hm hn i j hi hj
    exact matMul_i8 conf hn hi hj

end Sys2Proof.Machine
